-- ==== Sys2Proof/Word.lean ====
section
/-! DEFINITION. The word types of the model and its sparse table. -/

namespace Sys2Proof

/-- One byte. -/
abbrev Byte := BitVec 8

/-- A 64-byte line, as one little-endian number: byte `j` is bits `8j+7 : 8j` (R7, R8). -/
abbrev Line := BitVec 512

/-- A crossing tag (R28). -/
abbrev Tag := BitVec 48

/-- A key identifier (R119). -/
abbrev Kid := BitVec 12

/-- A sparse table: the listed keys differ from the table's default. Plain data; the operations are in
`Machine/Ops.lean`. -/
structure Tbl (α : Type) where
  cells : List (Nat × α) := []
  deriving DecidableEq, Repr

end Sys2Proof
end

