-- ==== Sys2Proof/Syntax.lean ====
section
/-! DEFINITION. The commands the block takes from outside: one constructor per row of the spec's table of operations and
events, with the operands each row carries. -/

namespace Sys2Proof

/-- Who makes a register access: the management path, or a host-link request with its PASID, its IDE stream and its
T bit (R10, R72, R386). -/
structure Req where
  /-- The request came over the management interface. -/
  mgmt : Bool := false
  /-- PASID of a host-link request, none for a request without one. -/
  pasid : Option (BitVec 20) := none
  /-- Secure IDE stream it arrived on. -/
  stream : Option Nat := none
  /-- T bit of its IDE TLP. -/
  tbit : Bool := false
  /-- Which management session carries it, of a management access. -/
  session : Nat := 0
  deriving DecidableEq, Repr

/-- Who a captured or held half belongs to: a management session, or a PASID (R10, R11). -/
inductive Requester where
  | session (n : Nat)
  | pasid (p : Option (BitVec 20))
  deriving DecidableEq, Repr

/-- The requester of an access (R10). -/
def Req.who (r : Req) : Requester := if r.mgmt then .session r.session else .pasid r.pasid

/-- The clocks of the clock table before R34: LCLK by port, MCLK by stack, DCLK by site. -/
inductive Clock where
  | aclk | cclk | lclk (port : Nat) | mclk (stack : Nat) | hclk | dclk (site : Nat) | kclk
  deriving DecidableEq, Repr

/-- What a management message's session shows (R52, R472, R478, R480). -/
structure Mgmt where
  /-- It arrived inside a secure session established with mutual authentication. -/
  secure : Bool := false
  /-- SHA-384 digest of the root certificate of the requester's chain, digest byte 0 at bits 7:0. -/
  root : BitVec 384 := 0
  /-- The chain ends in the Halaro root (a Kilyen session). -/
  kilyen : Bool := false
  /-- The leaf carries the Kilyen operator-role extension. -/
  role : Bool := false
  /-- SHA-384 of the leaf certificate, digest byte 0 at bits 7:0. -/
  leaf : BitVec 384 := 0
  deriving DecidableEq, Repr

/-- Where a line request of the hub network goes. -/
inductive NetTarget where
  /-- An HBM line: stack and line number in the stack. -/
  | hbm (stack line : Nat)
  /-- A hearth line. -/
  | hearth (line : Nat)
  /-- A remote window entry used as an aperture, with a local offset (R246). -/
  | aperture (entry off : Nat)
  deriving DecidableEq, Repr

/-- A request of the hub network (R29, R246): a line read, a masked line write, or an 8-byte atomic to an aperture. -/
inductive NetReq where
  | read (target : NetTarget)
  | write (target : NetTarget) (data : Line) (mask : BitVec 64)
  | atomic (entry off op : Nat) (operand compare : BitVec 64)
  deriving DecidableEq, Repr

/-- Where a receive command takes its flit from: the flits a link has accepted, the flits this die addressed to itself, or
a package bridge, which brings a whole flit (R221, R242, R403). -/
inductive FlitIn where
  | link (l : Nat)
  | loop
  | bridge (hub : Nat) (slot : Option Nat) (dst src : Nat) (payload : List Byte)
  deriving DecidableEq, Repr

/-- What one physical lane of a link brings of two consecutive alignment codewords: the symbols of rows 0 to 7 of the
table of R213, as received. -/
structure LaneAlign where
  first : List (BitVec 10)
  second : List (BitVec 10)
  /-- When the first of them arrives, in symbol times. -/
  arrival : Nat
  deriving DecidableEq, Repr

/-- What the SerDes of one lane reports at the end of training: SNR, signal detection, and the symbols corrected and received
in the 1 ms after lock (R234). -/
structure LaneTrain where
  snr : Nat
  sigdet : Bool
  corrected : Nat
  symbols : Nat
  deriving DecidableEq, Repr

/-- A member's statement as the lead receives it (R60, R61, R131). -/
structure MemberStmt where
  /-- HUB position, or node number at a level above the package. -/
  pos : Nat
  /-- The statement's bytes. -/
  stmt : List Byte
  /-- Its signature: r and s. -/
  sig : Nat × Nat
  /-- The public key of the identity certificate. -/
  key : Nat × Nat
  /-- The identity certificate chain verifies to the Halaro endorsement. -/
  chainOk : Bool
  deriving DecidableEq, Repr

/-- A configuration copy as the flash holds it, and the public key that comes with it (R501). -/
structure FlashConfig where
  /-- Header, body, CRC and signature. -/
  bytes : List Byte := []
  /-- The key its signature is checked under. -/
  key : Nat × Nat := (0, 0)
  /-- The key's digest is the one the ROM holds (SIGNER 1), or the one OTP holds (SIGNER 2). -/
  keyOk : Bool := false
  deriving DecidableEq, Repr

/-- A firmware or microcode slot (R504). -/
structure FlashImage where
  /-- Its Kilyen signature verifies. -/
  signed : Bool := false
  /-- Security version. -/
  version : Nat := 0
  /-- SHA-384 of the image. -/
  digest : BitVec 384 := 0
  deriving DecidableEq, Repr

/-- A training slot (R505). -/
structure FlashTraining where
  /-- Its CRC-32C holds. -/
  crcOk : Bool := false
  seq : Nat := 0
  serial : BitVec 64 := 0
  /-- Saved records by global link: one 64-byte record per lane. -/
  records : List (Nat × List (BitVec 512)) := []
  deriving DecidableEq, Repr

/-- What Kindling finds at its boot (R499 to R506). -/
structure BootEnv where
  /-- The battery-backed registers pass their check. -/
  vbatOk : Bool := true
  /-- The known-answer tests and the TRNG health tests pass. -/
  selftestOk : Bool := true
  trngOk : Bool := true
  /-- SHA-384 of the ROM. -/
  rom : BitVec 384 := 0
  copyA : FlashConfig := {}
  copyB : FlashConfig := {}
  firmware : FlashImage × FlashImage := ({}, {})
  microcode : FlashImage × FlashImage := ({}, {})
  training : FlashTraining × FlashTraining := ({}, {})
  /-- Slivers whose CRC still differs after three broadcasts. -/
  badSlivers : List Nat := []
  deriving DecidableEq, Repr

/-- An ATS translation completion (R389): a translation with its permissions, or Unsupported Request or Completer Abort. -/
inductive XlatCpl where
  | success (base size trans : Nat) (rd wr : Bool)
  | refused
  deriving DecidableEq, Repr

/-- A chiplet's SPDM answer on the site sideband (R395, R396). -/
inductive SiteRsp where
  /-- Versions offered include 1.2. -/
  | version (v12 : Bool)
  /-- CERT_CAP, MEAS_CAP with signature, and the CT exponent. -/
  | capabilities (cert measSig : Bool) (ctExp : Nat)
  /-- ECDSA P-384 and SHA-384 are selected. -/
  | algorithms (agreed : Bool)
  | digests
  /-- Length and number of certificates of the chain, its root's digest, whether every signature of it verifies, whether
  the leaf permits digital signatures, and the leaf key. -/
  | certificate (bytes certs : Nat) (root : BitVec 384) (verifies leafSigns : Bool) (key : Nat × Nat)
  /-- The measurement record, what else was signed, and the signature. Signed are `lead` and the digest of a transcript: `head`,
  our nonce, `mid`, the record and `tail`. -/
  | measurements (record lead head mid tail : List Byte) (sig : Nat × Nat)
  /-- An SPDM error, or a malformed or unexpected response. -/
  | error
  deriving DecidableEq, Repr

/-- A `BR_CTL` hello (R405, R406). -/
structure Hello where
  pos : Nat
  serial : BitVec 64
  pkgSize : Nat
  lc : Nat
  /-- The group record of a recovered die: lead position, lead serial, present positions. -/
  rejoin : Option (Nat × BitVec 64 × BitVec 8) := none
  deriving DecidableEq, Repr

/-- A `BR_CTL` transfer other than a hello or a power share (R403), with the position of the die that sends it. -/
inductive BrCtl where
  | heartbeat (pos : Nat)
  /-- A member's power demand in watts (R485). -/
  | demand (pos watts : Nat)
  | slotOpen (pos slot : Nat) (domainId : BitVec 64) (profile : BitVec 32)
  | slotActivate (pos slot : Nat)
  | slotTeardown (pos slot : Nat)
  | secret (pos slot : Nat) (secret : List Byte)
  /-- A member confirms a secret or an epoch message, or fails to. -/
  | confirm (pos slot : Nat) (ok : Bool)
  | statementRequest (pos : Nat) (nonce : BitVec 256)
  /-- A member's statement and its site bits of R131. -/
  | statement (m : MemberStmt) (sites : BitVec 16)
  /-- An epoch message: 0 `EPOCH_PREPARE`, 1 `EPOCH_SWITCH`, 2 `EPOCH_RETIRE`. -/
  | epoch (pos slot op : Nat) (epoch : BitVec 16)
  /-- The lead's `FAB_NODE.MAP_GEN` and member route table. -/
  | memberRoutes (pos mapGen : Nat) (table : List (Nat × BitVec 64))
  /-- The lead's present MAP_GEN (R257). -/
  | mapGen (pos gen : Nat)
  deriving DecidableEq, Repr

/-- An IDE_KM message (R380). -/
inductive IdeKm where
  | query (stream : Nat)
  | keyProg (stream : Nat)
  /-- Start a stream; the RID its association block names. -/
  | start (stream rid : Nat)
  | stop (stream : Nat)
  deriving DecidableEq, Repr

/-- A host configuration write (R388 to R390). -/
inductive HostCfg where
  | ats (on : Bool)
  | pri (on : Bool)
  /-- A reset of PRI. -/
  | priReset
  deriving DecidableEq, Repr

/-- The commands: one constructor per row of `spec/opcode_table.json`, in its order, the rows
without operands last (Lean compiles a constructor with operands only among the first 244). -/
inductive Instr where
  /-- `POWER_ON` (R453): Main supply rises or falls below the AON threshold and PORST is asserted. -/
  | powerOn (present : Bool)
  /-- `HUB_RST_N_LOW` (R40): A low pulse on HUB_RST_N causes a complete SYSRST or none at all. -/
  | hubRstNLow (ns : Nat)
  /-- `RESET_HOLD_EXPIRY` (R457): The 32-KCLK assertion hold ends and release step 1 begins. -/
  | resetHoldExpiry (hubPos : BitVec 3) (pkgSize : BitVec 2)
  /-- `KINDLING_BOOT` (R499): After its release, Kindling runs the boot steps from life-cycle resume to microcode
  broadcast. -/
  | kindlingBoot (env : BootEnv)
  /-- `NETWORK_REQUEST` (R29): A tagged request from the hub network is checked at ingress and routed or refused. -/
  | networkRequest (tag : Tag) (rq : NetReq)
  /-- `HBM_READ_RETURN` (R160): A sealed data line arrives from the stack and is MAC-checked, decrypted and
  answered. -/
  | hbmReadReturn (stack line : Nat) (data : Line) (poison corrected : Bool)
  /-- `METADATA_FETCH_RETURN` (R162): A fetched counter block, node or MAC line arrives and is verified downward. -/
  | metadataFetchReturn (stack line : Nat) (data : Line) (poison corrected rootOk : Bool)
  /-- `PAGE_REENCRYPT` (R188): A minor-counter overflow re-encrypts the page under a new major and releases the held
  writes. -/
  | pageReencrypt (region page : Nat)
  /-- `HEARTH_READ_RETURN` (R184): A hearth line returns and is decoded under the request's KID, corrected or
  poisoned. -/
  | hearthReadReturn (line : Nat) (data : Line) (ecc : BitVec 64)
  /-- `POWER_GROUP_CHANGE` (R26): The set of powered memory power groups of a stack changes after the stack hold
  drains. -/
  | powerGroupChange (stack : Nat) (powered : BitVec 4)
  /-- `DOMAIN_SWITCH_OFF` (R39): The Damper switches off a power domain once its accepted work has completed. -/
  | domainSwitchOff (pd : Nat)
  /-- `DOMAIN_WAKE` (R37): A switched-off domain is woken for a command and the command continues after the wake
  latency. -/
  | domainWake (pd : Nat)
  /-- `DOM_OPEN` (R53): The lead checks a DOM_OPEN and opens the lowest common EMPTY slot on every member. -/
  | domOpen (m : Mgmt) (domainId : BitVec 64) (profile : BitVec 32) (memberEmpty : BitVec 64)
  /-- `DOM_GROUP_LEVEL` (R61): The lead verifies member composites and forms a grouping level above the package. -/
  | domGroupLevel (m : Mgmt) (level count : Nat) (members : List MemberStmt)
  /-- `DOM_SECRET` (R54): The lead checks and forwards the domain secret to every member's Firebox. -/
  | domSecret (m : Mgmt) (slot : Nat) (secret : List Byte)
  /-- `MEMBER_CONFIRM_TIMEOUT` (R55): A member fails to confirm a forwarded secret or epoch message within 10 ms and
  the slot is torn down. -/
  | memberConfirmTimeout (slot : Nat)
  /-- `DOM_BIND_SLICE` (R57): A TDISP-locked slice is bound to a domain slot. -/
  | domBindSlice (m : Mgmt) (slot slice : Nat)
  /-- `DOM_ADD_SITE` (R399): An admitted chiplet site with a matching digest is added to a slot. -/
  | domAddSite (m : Mgmt) (slot site : Nat) (digest : BitVec 384)
  /-- `DOM_ACTIVATE` (R56): A slot holding its secret moves to LIVE on every member and its lease starts. -/
  | domActivate (m : Mgmt) (slot : Nat)
  /-- `DOM_LEASE` (R51): Jarmir renews a slot's lease. -/
  | domLease (m : Mgmt) (slot : Nat)
  /-- `LEASE_LAPSE` (R51): A slot's lease expires and the slot enters TEARDOWN. -/
  | leaseLapse (slot : Nat)
  /-- `ADMISSION_TIMEOUT` (R47): An ADMITTING slot reaches 30 s without DOM_ACTIVATE and enters TEARDOWN. -/
  | admissionTimeout (slot : Nat)
  /-- `QUARANTINE_TIMEOUT` (R47): A QUARANTINED slot reaches 60 s without DOM_RESUME and enters TEARDOWN. -/
  | quarantineTimeout (slot : Nat)
  /-- `DOM_RESUME` (R47): An operator-role message returns a QUARANTINED slot to LIVE. -/
  | domResume (m : Mgmt) (slot : Nat)
  /-- `DOM_TEARDOWN` (R47): Jarmir moves a slot to TEARDOWN. -/
  | domTeardown (m : Mgmt) (slot : Nat)
  /-- `DOM_QUERY` (R52): Returns a slot's state, domain ID, profile, cause and alarm counts. -/
  | domQuery (m : Mgmt) (slot : Nat)
  /-- `ALARM_ACK` (R66): The operator acknowledges pin-driving records up to a sequence number. -/
  | alarmAck (m : Mgmt) (seq : BitVec 32)
  /-- `TAMPER_CLEAR` (R68): The operator clears the tamper latch once TAMPER_N is high. -/
  | tamperClear (m : Mgmt)
  /-- `TEARDOWN_ADVANCE` (R69): A waiting teardown step's condition holds and the sequence moves on, ending with the
  slot EMPTY. -/
  | teardownAdvance (slot : Nat)
  /-- `SPDM_REQUEST` (R58): An SPDM request on the management interface is answered within the supported subset. -/
  | spdmRequest (m : Mgmt) (code param1 param2 : BitVec 8) (body : List Byte)
  /-- `GET_MEASUREMENTS` (R60): The lead builds a fresh composite statement from member statements and signs it. -/
  | getMeasurements (m : Mgmt) (index : BitVec 8) (nonce : BitVec 256)
  /-- `SLICE_ENABLE` (R74): QM_SLCMD ENABLE moves a FREE slice to ACTIVE if its configuration passes. -/
  | sliceEnable (r : Req)
  /-- `SLICE_DISABLE` (R74): QM_SLCMD DISABLE resets a slice and makes it FREE. -/
  | sliceDisable (r : Req)
  /-- `QM_SLCFG_WRITE` (R74): A write to QM_SLCFG takes effect only while the selected slice is FREE. -/
  | qmSlcfgWrite (r : Req) (v : BitVec 64)
  /-- `REVOKE_ALL` (R94): Every VALID object entry of the slice becomes REVOKED. -/
  | revokeAll (r : Req) (slice : Nat)
  /-- `SQUASH_ALL` (R100): STOP_SQUASH is applied to every queue of the slice. -/
  | squashAll (r : Req) (slice : Nat)
  /-- `SLICE_RESET` (R100): QM_SL_CTL RESET starts the slice reset sequence and holds the slice RESETTING. -/
  | sliceReset (r : Req) (slice : Nat)
  /-- `SLICE_RESET_ADVANCE` (R100): A waiting slice-reset step completes and the sequence moves on to ACTIVE or
  FREE. -/
  | sliceResetAdvance (slice : Nat)
  /-- `QM_SL_LEVEL_WRITE` (R106): A write sets the slice's Proup level, clamped to the supported range. -/
  | qmSlLevelWrite (r : Req) (slice : Nat) (v : BitVec 32)
  /-- `QUEUE_ENABLE` (R83): QM_QCMD ENABLE moves a DISABLED queue to ENABLED after its checks. -/
  | queueEnable (r : Req) (slice : Nat)
  /-- `STOP_DRAIN` (R98): The queue latches its tail, runs up to it and becomes STOPPED. -/
  | stopDrain (r : Req) (slice : Nat)
  /-- `STOP_SQUASH` (R99): The queue starts nothing more and squashes queued commands. -/
  | stopSquash (r : Req) (slice : Nat)
  /-- `QUEUE_RESUME` (R82): A STOPPED queue returns to ENABLED unless its slot is QUARANTINED. -/
  | queueResume (r : Req) (slice : Nat)
  /-- `QUEUE_DISABLE` (R82): A STOPPED queue becomes DISABLED and releases its ring objects. -/
  | queueDisable (r : Req) (slice : Nat)
  /-- `QM_DB_TAIL_WRITE` (R78): A producer-index write is stored and, in an ENABLED queue, range-checked. -/
  | qmDbTailWrite (r : Req) (queue : Nat) (v : BitVec 32)
  /-- `QM_DB_CPL_HEAD_WRITE` (R78): A consumed-records index write frees completion-ring space. -/
  | qmDbCplHeadWrite (r : Req) (queue : Nat) (v : BitVec 32)
  /-- `QM_ABORT` (R95): A write starts an abort of the command named in QM_ABORT_SEQ. -/
  | qmAbort (r : Req) (slice : Nat) (v : BitVec 32)
  /-- `COMMAND_FETCH` (R84): The queue manager fetches a command word and runs the head checks. -/
  | commandFetch (slice queue : Nat) (words : Option (List (BitVec 64)))
  /-- `COMMAND_START` (R84): A command whose wait is met is handed to its executing unit after the start checks. -/
  | commandStart (slice queue : Nat)
  /-- `COMMAND_COMMIT` (R88): A command whose work has finished commits in order and its record is written. -/
  | commandCommit (slice queue : Nat)
  /-- `OBJ_DEFINE` (R363): Defines an object in the lowest FREE entry and returns its handle. -/
  | objDefine (slice queue seq : Nat)
  /-- `OBJ_FREE` (R93): Makes a VALID object entry REVOKED. -/
  | objFree (slice queue seq : Nat)
  /-- `TIME_READ` (R362): Returns powered nanoseconds since power-on at commit. -/
  | timeRead (slice queue seq : Nat)
  /-- `COPY` (R365): Copies bytes between two objects in ascending offset. -/
  | copy (slice queue seq : Nat)
  /-- `FILL` (R365): Fills a range with a repeated 64-bit pattern. -/
  | fill (slice queue seq : Nat)
  /-- `RESEAL_ZERO` (R196): Rewrites a sealed range whole with never-written lines under a fresh major. -/
  | resealZero (slice queue seq : Nat)
  /-- `RESEAL_FILL` (R196): Rewrites a sealed range whole with a pattern under a fresh major. -/
  | resealFill (slice queue seq : Nat)
  /-- `RESEAL_PAGE` (R196): One page of a RESEAL_ZERO or RESEAL_FILL is rebuilt as background work. -/
  | resealPage (slice queue seq : Nat)
  /-- `CIPHER` (R415): Runs the cipher engine on a register page under the selected mode and direction. -/
  | cipher (slice queue seq : Nat)
  /-- `CIPHER_KEY_LOAD` (R415): The KEY_LOAD mode loads a page key from an object and returns its check value. -/
  | cipherKeyLoad (slice queue seq : Nat)
  /-- `WIN_OPEN` (R244): Opens the lowest FREE window with a fresh key. -/
  | winOpen (slice queue seq : Nat)
  /-- `WIN_CLOSE` (R244): Makes a window CLOSING; it becomes FREE when its records drain. -/
  | winClose (slice queue seq : Nat)
  /-- `RWIN_SET` (R245): Fills the lowest FREE remote window entry. -/
  | rwinSet (slice queue seq : Nat)
  /-- `RWIN_CLEAR` (R367): Frees a remote window entry at once. -/
  | rwinClear (slice queue seq : Nat)
  /-- `FAB_READ` (R367): Issues READ records to a remote window and writes the lines locally. -/
  | fabRead (slice queue seq : Nat)
  /-- `FAB_WRITE` (R367): Issues WRITE records to a remote window, optionally with a trailing remote signal. -/
  | fabWrite (slice queue seq : Nat)
  /-- `FAB_ATOMIC` (R367): Issues one ATOMIC record and returns the old value. -/
  | fabAtomic (slice queue seq : Nat)
  /-- `SIG_REMOTE` (R367): Issues a SIGNAL record to a remote SYNC window. -/
  | sigRemote (slice queue seq : Nat)
  /-- `FLUSH_REMOTE` (R262): Completes once every earlier record of the queue has been answered or ended. -/
  | flushRemote (slice queue seq : Nat)
  /-- `PLAN_LOAD` (R309): Checks a plan descriptor and reserves every resource the plan needs. -/
  | planLoad (slice queue seq : Nat)
  /-- `PLAN_RUN` (R321): Runs a loaded plan under a RUN value. -/
  | planRun (slice queue seq : Nat)
  /-- `PLAN_UNLOAD` (R311): Releases every reservation of an idle plan. -/
  | planUnload (slice queue seq : Nat)
  /-- `QUANTISE` (R372): Quantises a run of elements into crossing blocks with residuals. -/
  | quantise (slice queue seq : Nat)
  /-- `DEQUANTISE` (R372): Decodes crossing blocks into elements, optionally accumulating. -/
  | dequantise (slice queue seq : Nat)
  /-- `SYNC_INIT` (R332): Makes a FREE sync object a fence or event with an initial value. -/
  | syncInit (slice queue seq : Nat)
  /-- `SYNC_FREE` (R332): Orphans a sync object and frees it once its waiters and grants are gone. -/
  | syncFree (slice queue seq : Nat)
  /-- `SYNC_NOTIFY` (R342): Sets and arms an object's notifier. -/
  | syncNotify (slice queue seq : Nat)
  /-- `SYNC_GRANT` (R339): Grants a run of objects to another slice of the same slot. -/
  | syncGrant (slice queue seq : Nat)
  /-- `SYNC_UNGRANT` (R339): Revokes a grant. -/
  | syncUngrant (slice queue seq : Nat)
  /-- `SYNC_OP` (R332): Performs only its sync operands. -/
  | syncOp (slice queue seq : Nat)
  /-- `CTR_SAMPLE` (R427): Writes a snapshot of the slice's per-slice counters. -/
  | ctrSample (slice queue seq : Nat)
  /-- `WATCH_ARM` (R430): Arms a witness watch window on an object range. -/
  | watchArm (slice queue seq : Nat)
  /-- `WATCH_DISARM` (R430): Disarms a watch window of the slice. -/
  | watchDisarm (slice queue seq : Nat)
  /-- `WATCH_REPORT` (R434): Writes a witness statement, optionally signed. -/
  | watchReport (slice queue seq : Nat)
  /-- `KID_BIND` (R122): Binds the lowest FREE domain-range KID to the slice's slot. -/
  | kidBind (slice queue seq : Nat)
  /-- `KID_RETIRE` (R120): Moves an ACTIVE domain KID to RETIRING. -/
  | kidRetire (slice queue seq : Nat)
  /-- `RGN_ASSIGN` (R167): Assigns a region-table entry for a KID of the slot. -/
  | rgnAssign (slice queue seq : Nat)
  /-- `RGN_RELEASE` (R168): Releases a region entry after draining its requests. -/
  | rgnRelease (slice queue seq : Nat)
  /-- `RESEAL_KEY` (R170): Re-keys a sealed region to a new KID by a background sweep. -/
  | resealKey (slice queue seq : Nat)
  /-- `REKEY_SWEEP_PAGE` (R170): One page of a RESEAL_KEY sweep is rewritten under the new KID and WATERMARK
  advances. -/
  | rekeySweepPage (region : Nat)
  /-- `HRG_ASSIGN` (R186): Assigns a hearth range for a KID of the slot and initialises it. -/
  | hrgAssign (slice queue seq : Nat)
  /-- `HRG_RELEASE` (R186): Releases a hearth range. -/
  | hrgRelease (slice queue seq : Nat)
  /-- `HEARTH_INIT_DONE` (R186): Zero-fill of an INITIALISING hearth range completes and it becomes ACTIVE. -/
  | hearthInitDone (range : Nat)
  /-- `PHASE_HINT` (R377): Sends a phase hint to the Damper. -/
  | phaseHint (slice queue seq : Nat)
  /-- `OPP_REQUEST` (R490): Sets the slice's preferred operating point. -/
  | oppRequest (slice queue seq : Nat)
  /-- `BIND_PLAIN` (R122): FBX_KCMD binds a named plain-range KID. -/
  | bindPlain (r : Req) (kid : Kid)
  /-- `FBX_RETIRE` (R120): FBX_KCMD retires an ACTIVE plain-range KID. -/
  | fbxRetire (r : Req) (kid : Kid)
  /-- `FBX_CTL_WRITE` (R134): A write to FBX_CTL sets or locks PLAIN_KID_MAX and REMASK_LOG2. -/
  | fbxCtlWrite (r : Req) (v : BitVec 32)
  /-- `KID_FLUSH_COMPLETE` (R120): A RETIRING KID's cached lines are flushed, its key is invalidated and it becomes
  COOLING. -/
  | kidFlushComplete (kid : Kid)
  /-- `REMASK` (R115): The re-mask interval expires and every cell's shares are re-masked. -/
  | remask (bad : List Nat)
  /-- `KEY_DERIVE_DONE` (R108): A ladder derivation completes and fills its target cell or session entry. -/
  | keyDeriveDone (ok : Bool)
  /-- `EPOCH_PREPARE` (R124): Moves a slot's epoch to PREPARED on every member. -/
  | epochPrepare (m : Mgmt) (slot : Nat) (epoch : BitVec 16)
  /-- `EPOCH_SWITCH` (R124): Moves a slot's epoch to SWITCHED and zeroes TX_CTR. -/
  | epochSwitch (m : Mgmt) (slot : Nat) (epoch : BitVec 16)
  /-- `EPOCH_RETIRE` (R124): Retires the old epoch key and returns the slot to STEADY. -/
  | epochRetire (m : Mgmt) (slot : Nat) (epoch : BitVec 16)
  /-- `MSL_ASSIGN` (R167): MSL_RCMD ASSIGN assigns a region entry on the register path. -/
  | mslAssign (r : Req)
  /-- `MSL_RELEASE` (R168): MSL_RCMD RELEASE releases a region entry on the register path. -/
  | mslRelease (r : Req)
  /-- `MSL_CTL_WRITE` (R173): A write to MSL_CTL sets or locks DEFAULT_UNASSIGNED. -/
  | mslCtlWrite (r : Req) (v : BitVec 32)
  /-- `HTH_ASSIGN` (R186): HTH_RCMD ASSIGN assigns a hearth range on the register path. -/
  | hthAssign (r : Req)
  /-- `HTH_RELEASE` (R186): HTH_RCMD RELEASE releases a hearth range on the register path. -/
  | hthRelease (r : Req)
  /-- `HTH_CTL_WRITE` (R204): A write to HTH_CTL sets or locks DEFAULT_UNASSIGNED. -/
  | hthCtlWrite (r : Req) (v : BitVec 32)
  /-- `HTH_SCRUB_CTL_WRITE` (R207): A write sets the scrub period or stops scrub. -/
  | hthScrubCtlWrite (r : Req) (v : BitVec 32)
  /-- `SCRUB_ISSUE` (R199): A scrub engine issues its next line at pace and writes back corrections. -/
  | scrubIssue (engine : Nat) (corrected poison : Bool)
  /-- `SCRUB_DEADLINE` (R200): A scrub pass passes its deadline and is escalated. -/
  | scrubDeadline (engine : Nat)
  /-- `LINK_ENABLE` (R237): LNK_CTL ENABLE starts training a DISABLED link, or disables it when cleared. -/
  | linkEnable (r : Req) (link : Nat) (on : Bool)
  /-- `LINK_RETRAIN` (R237): LNK_CTL RETRAIN returns a link to cold training. -/
  | linkRetrain (r : Req) (link : Nat)
  /-- `LINK_ADAPT` (R237): LNK_CTL ADAPT puts an UP link into ADAPTING. -/
  | linkAdapt (r : Req) (link : Nat)
  /-- `LINK_SAVE` (R234): LNK_CTL SAVE captures the settings of an UP link. -/
  | linkSave (r : Req) (link : Nat) (settings : List (BitVec 512))
  /-- `LNK_MODE_WRITE` (R208): A write of LNK_CTL.MODE splits the port, ignored unless every link is DISABLED. -/
  | lnkModeWrite (r : Req) (port : Nat) (v : BitVec 2)
  /-- `LNK_SESS_CTL_WRITE` (R239): A write sets the session warning threshold. -/
  | lnkSessCtlWrite (r : Req) (port : Nat) (v : BitVec 32)
  /-- `TRAINING_DONE` (R234): Saved or cold training completes or fails and the link moves on. -/
  | trainingDone (link : Nat) (ok : Bool) (lockNs : Nat) (settings : List (BitVec 512)) (lanes : List LaneTrain)
  /-- `LOCK_ACQUIRED` (R214): Two consecutive alignment codewords on every lane give lock and the link negotiates.
  -/
  | lockAcquired (link : Nat) (lanes : List LaneAlign)
  /-- `LOCK_LOST` (R214): Three failed alignment codewords lose lock. -/
  | lockLost (link lane : Nat) (first second third : List (BitVec 10))
  /-- `LOCK_TIMEOUT` (R237): No lock within 1 ms returns the link to TRAINING. -/
  | lockTimeout (link : Nat)
  /-- `NEGOTIATE_RECEIVE` (R235): A NEGOTIATE flit is received and the link becomes UP, resumes or is refused. -/
  | negotiateReceive (link : Nat) (cws : List (List (BitVec 10)))
  /-- `NEGOTIATE_SEND` (R235): Each end sends a NEGOTIATE flit every 100 µs. -/
  | negotiateSend (link : Nat)
  /-- `NEG_TIMEOUT` (R235): Negotiation not complete within 100 ms refuses the link. -/
  | negTimeout (link : Nat)
  /-- `ADAPT_DONE` (R237): Adaptation completes and the link returns to LOCKING. -/
  | adaptDone (link : Nat)
  /-- `SER_RATE` (R234): A lane exceeds the corrected-symbol rate over 1 ms and the link adapts. -/
  | serRate (link lane corrected symbols snr : Nat)
  /-- `FLIT_RECEIVE` (R221): A sequenced flit is accepted in order, or NAKed, and passed to session handling. -/
  | flitReceive (link : Nat) (cws : List (List (BitVec 10)))
  /-- `LINK_CTL_RECEIVE` (R223): A LINK_CTL flit delivers ACK, NAK and credit counts. -/
  | linkCtlReceive (link : Nat) (cws : List (List (BitVec 10)))
  /-- `LINK_CTL_SEND` (R223): A LINK_CTL is sent at least every 1 µs or 64 accepted flits. -/
  | linkCtlSend (link : Nat)
  /-- `NAK_REPEAT` (R221): The NAK is repeated every 2 µs while the receiver waits. -/
  | nakRepeat (link : Nat)
  /-- `REPLAY_TIMEOUT` (R222): No acknowledgement advance for 10 µs resends from the oldest flit, up to the retry
  limit. -/
  | replayTimeout (link : Nat)
  /-- `FLIT_TRANSMIT` (R228): A flit takes LSEQ and counter value once credit and key are present and is sent. -/
  | flitTransmit (link : Nat)
  /-- `FAB_REQUEST_RECEIVE` (R253): A request record at its destination is checked and applied or answered. -/
  | fabRequestReceive (f : FlitIn)
  /-- `FAB_RESPONSE_RECEIVE` (R255): A response record is matched by TID to its outstanding record. -/
  | fabResponseReceive (f : FlitIn)
  /-- `RECORD_TIMEOUT` (R264): A record without response times out and every record to the partner ends
  PARTNER_LOST. -/
  | recordTimeout (tid : Nat)
  /-- `HOLD_RESEND` (R261): A flag answered HOLD_FULL is resent unchanged 1 µs later. -/
  | holdResend (tid : Nat)
  /-- `FAB_TCLR` (R268): Frees plain-domain tally entries and LOST marks for a peer node. -/
  | fabTclr (r : Req) (v : BitVec 32)
  /-- `FAB_NODE_WRITE` (R269): A write sets node number, member path and map generation while every slot is EMPTY.
  -/
  | fabNodeWrite (r : Req) (v : BitVec 64)
  /-- `FAB_RTDATA_WRITE` (R270): A write sets the selected route table entry. -/
  | fabRtdataWrite (r : Req) (v : BitVec 64)
  /-- `FAB_MRDATA_WRITE` (R257): A write sets the member route table entry and the lead raises MAP_GEN. -/
  | fabMrdataWrite (r : Req) (v : BitVec 64)
  /-- `COL_DATA_RECEIVE` (R314): A COL_DATA flit is placed in its stream buffer, or discarded as stray. -/
  | colDataReceive (f : FlitIn)
  /-- `COL_CREDIT_RECEIVE` (R315): A CREDIT entry raises the sender's FREED count. -/
  | colCreditReceive (f : FlitIn)
  /-- `COL_ABORT_RECEIVE` (R324): An ABORT entry ends the receiving run COL_PEER_ABORT. -/
  | colAbortReceive (f : FlitIn)
  /-- `COL_CREDIT_SEND` (R315): A receiver sends a CREDIT entry after a quarter buffer or each 1 µs. -/
  | colCreditSend (plan step : Nat)
  /-- `COL_FLUSH_TIMER` (R317): A partly filled collective flit is sent after 64 idle ACLK cycles. -/
  | colFlushTimer (plan step : Nat)
  /-- `STEP_START` (R308): A plan step starts once its predecessors complete and its wait is met. -/
  | stepStart (plan step : Nat)
  /-- `STEP_COMPLETE` (R322): A plan step completes and signals its SIGNAL fence. -/
  | stepComplete (plan step : Nat)
  /-- `RUN_TIMEOUT` (R324): A started step gets no block or credit for TIMEOUT and the run ends PARTNER_LOST. -/
  | runTimeout (plan step : Nat)
  /-- `SYN_SLCFG_WRITE` (R330): A write gives a slice its sync range and vectors when its objects are FREE. -/
  | synSlcfgWrite (r : Req) (v : BitVec 64)
  /-- `SYN_CTL_WRITE` (R348): A write sets the deadlock window and break enable. -/
  | synCtlWrite (r : Req) (v : BitVec 32)
  /-- `HOST_SIGNAL` (R341): A write to a host signal port signals or posts its selected object. -/
  | hostSignal (r : Req) (slice port : Nat) (v : BitVec 64)
  /-- `ORPHAN_ALL` (R337): SYN_H_CTL orphans every object of the slice. -/
  | orphanAll (r : Req) (slice : Nat)
  /-- `SYNC_DEBUG_READ` (R347): SYN_DBG_CMD READ returns an object's kind, value, flags and waiters. -/
  | syncDebugRead (r : Req)
  /-- `SYNC_FORCE` (R347): SYN_DBG_CMD FORCE writes an object's value exactly over management. -/
  | syncForce (r : Req) (clear : Bool)
  /-- `ATS_INVALIDATION` (R392): An ATS Invalidation Request invalidates entries and completes once transfers drain.
  -/
  | atsInvalidation (itag : Nat) (pasid : BitVec 20) (global : Bool) (addr size : Nat)
  /-- `INVALIDATION_TIMEOUT` (R393): Transfers still counted 2 ms after an invalidation squash their commands. -/
  | invalidationTimeout (itag : Nat)
  /-- `TRANSLATION_COMPLETION` (R389): An ATS translation completion fills an entry or starts a page request or
  fault. -/
  | translationCompletion (pasid : BitVec 20) (page : Nat) (c : XlatCpl)
  /-- `PAGE_RESPONSE` (R390): A PRG response retries translation or ends commands XLAT_FAULT. -/
  | pageResponse (pasid : BitVec 20) (group code : Nat)
  /-- `PRQ_TIMEOUT` (R390): A page-request group without response ends its commands XLAT_FAULT. -/
  | prqTimeout (pasid : BitVec 20) (group : Nat)
  /-- `STK_XLAT_CTL_WRITE` (R407): A write sets the page-request timeout. -/
  | stkXlatCtlWrite (r : Req) (v : BitVec 32)
  /-- `HOST_TRANSFER_COMPLETION` (R392): A host read completion arrives for an issued transfer and drains its count.
  -/
  | hostTransferCompletion (id : Nat) (data : List Byte) (ok : Bool)
  /-- `LOCK_INTERFACE_REQUEST` (R383): Locks a slice's TDI to a Secure selective IDE stream. -/
  | lockInterfaceRequest (m : Mgmt) (slice stream rid : Nat) (flags : BitVec 16)
  /-- `START_INTERFACE_REQUEST` (R385): Moves a locked TDI to RUN and opens the bound interface. -/
  | startInterfaceRequest (m : Mgmt) (slice : Nat) (nonce : BitVec 256)
  /-- `STOP_INTERFACE_REQUEST` (R385): Moves a TDI to CONFIG_UNLOCKED and squashes the slice. -/
  | stopInterfaceRequest (m : Mgmt) (slice : Nat)
  /-- `GET_DEVICE_INTERFACE_REPORT` (R384): Returns the slice's MMIO ranges. -/
  | getDeviceInterfaceReport (m : Mgmt) (slice : Nat)
  /-- `GET_DEVICE_INTERFACE_STATE` (R382): Returns the TDI state. -/
  | getDeviceInterfaceState (m : Mgmt) (slice : Nat)
  /-- `GET_TDISP_VERSION` (R382): Returns the TDISP version. -/
  | getTdispVersion (m : Mgmt)
  /-- `GET_TDISP_CAPABILITIES` (R382): Returns TDISP capabilities. -/
  | getTdispCapabilities (m : Mgmt)
  /-- `IDE_STREAM_INSECURE` (R385): A locked IDE stream leaves Secure and its TDIs enter ERROR. -/
  | ideStreamInsecure (stream : Nat)
  /-- `SITE_LINK_ACTIVE` (R395): A site link becomes active and chiplet admission begins. -/
  | siteLinkActive (site : Nat)
  /-- `SITE_SPDM_RESPONSE` (R395): A chiplet's SPDM response advances admission to ADMITTED or FAILED. -/
  | siteSpdmResponse (site : Nat) (rsp : SiteRsp)
  /-- `SITE_SPDM_TIMEOUT` (R397): An unanswered SPDM request is resent or admission fails NO_RESPONSE. -/
  | siteSpdmTimeout (site : Nat)
  /-- `SITE_LINK_INACTIVE` (R398): A site link goes inactive and an ADMITTED site becomes SUSPENDED. -/
  | siteLinkInactive (site : Nat)
  /-- `SITE_WINDOW_SET` (R402): Sets a site access window. -/
  | siteWindowSet (r : Req) (path : Option Nat) (v : BitVec 32)
  /-- `SITE_WINDOW_CLEAR` (R402): Empties a site access window. -/
  | siteWindowClear (r : Req) (path : Option Nat) (v : BitVec 32)
  /-- `SITE_WINDOW_CLEAR_KID` (R402): Empties every window of a site naming a KID. -/
  | siteWindowClearKid (r : Req) (path : Option Nat) (v : BitVec 32)
  /-- `READMIT` (R402): Reruns chiplet admission on the kernel path. -/
  | readmit (r : Req) (path : Option Nat) (v : BitVec 32)
  /-- `BRIDGE_PEER_LOST` (R404): Nothing from a die for 20 ms marks it lost and reports member loss. -/
  | bridgePeerLost (pos : Nat)
  /-- `BRIDGE_HELLO_RECEIVE` (R405): A BR_CTL hello is counted toward the election, or re-admits a rejoining die. -/
  | bridgeHelloReceive (h : Hello)
  /-- `CE_ASSIGN` (R411): CE_PG_CMD ASSIGN gives a FREE cipher page to an ACTIVE slice. -/
  | ceAssign (r : Req) (page : Nat)
  /-- `CE_UNASSIGN` (R410): CE_PG_CMD UNASSIGN frees a page once its commands finish. -/
  | ceUnassign (r : Req) (page : Nat)
  /-- `CE_LOAD` (R412): CE_KCMD LOAD moves the staged key into the page's key cell. -/
  | ceLoad (r : Req) (page : Nat)
  /-- `CE_ZERO` (R410): CE_KCMD ZERO returns a page to EMPTY. -/
  | ceZero (r : Req) (page : Nat)
  /-- `CE_CTL_WRITE` (R421): A write sets or locks the dummy-round setting. -/
  | ceCtlWrite (r : Req) (v : BitVec 32)
  /-- `CE_PARAM_WRITE` (R417): A write sets AAD length and the invocation limit. -/
  | ceParamWrite (r : Req) (page : Nat) (v : BitVec 32)
  /-- `TEL_S_CTL_WRITE` (R426): Setting EN zeroes and starts the slice's counters. -/
  | telSCtlWrite (r : Req) (slice : Nat) (v : BitVec 32)
  /-- `TEL_S_CFG_WRITE` (R436): A write sets WALL_SHARE and WATCH_MAX within their limits. -/
  | telSCfgWrite (r : Req) (slice : Nat) (v : BitVec 32)
  /-- `TEL_S_QVAL_READ` (R429): A read returns the view command's counter and captures its sequence number. -/
  | telSQvalRead (r : Req) (slice : Nat)
  /-- `REGISTER_LOW_HALF_READ` (R10): A 32-bit low-half read of a 64-bit register captures the high half. -/
  | registerLowHalfRead (r : Req) (off : Nat)
  /-- `REGISTER_LOW_HALF_WRITE` (R11): A 32-bit low-half write is held until the high half commits both. -/
  | registerLowHalfWrite (r : Req) (off : Nat) (v : BitVec 32)
  /-- `REGISTER_WRITE` (R13): A write to a register without a row of its own acts by its access codes. -/
  | registerWrite (r : Req) (off width : Nat) (v : BitVec 64)
  /-- `REG_ACCESS` (R12): An access to an unassigned offset, wrong width or unaligned address completes and is
  recorded. -/
  | regAccess (r : Req) (off width : Nat) (write : Bool)
  /-- `SUPPRESSED` (R448): 1 s after a first unreported drop a SUPPRESSED record is written. -/
  | suppressed (code : Nat)
  /-- `PERM_PROGRAM` (R446): The Stoker programs a queued permanent-class record into OTP. -/
  | permProgram (ok : Bool)
  /-- `REC_CLEAR` (R450): Empties the circulating area and writes a CLEARED record. -/
  | recClear (m : Mgmt)
  /-- `REC_RL_WRITE` (R452): A write sets the recorder rate and burst. -/
  | recRlWrite (r : Req) (v : BitVec 32)
  /-- `REC_DATA_READ` (R449): A read of REC_DATA_0 captures the selected record's other words. -/
  | recDataRead (r : Req)
  /-- `RESET_REQ` (R454): The operator requests a fenced reset of a given level. -/
  | resetReq (m : Mgmt) (level : Nat) (dump : Bool)
  /-- `RST_REQ_WRITE` (R454): The kernel driver requests a fenced SYSRST_WARM or CORERST. -/
  | rstReqWrite (r : Req) (v : BitVec 32)
  /-- `SELF_REFRESH_ACK` (R459): The HBM controller acknowledges self-refresh entry during fencing. -/
  | selfRefreshAck (stack : Nat)
  /-- `RST_DUMP_ACK` (R462): Releases the held crash dump. -/
  | rstDumpAck (r : Req)
  /-- `RST_DUMP_DATA_READ` (R469): A read returns a dump word and advances the word selector. -/
  | rstDumpDataRead (r : Req)
  /-- `RST_CTL_WRITE` (R469): A write sets or locks warm, host-request and dump enables. -/
  | rstCtlWrite (r : Req) (v : BitVec 32)
  /-- `LC_TRANSITION_REQUEST` (R472): A write of LC_TRANS requests a life-cycle transition. -/
  | lcTransitionRequest (r : Req) (m : Mgmt) (v : BitVec 32)
  /-- `LC_STEP` (R474): A transition step's OTP programming completes and its mark is set. -/
  | lcStep (ok : Bool)
  /-- `ANCHOR_SET` (R478): Programs an empty operator anchor slot. -/
  | anchorSet (r : Req) (m : Mgmt) (v : BitVec 32)
  /-- `ANCHOR_REVOKE` (R478): Wipes an operator anchor slot. -/
  | anchorRevoke (r : Req) (m : Mgmt) (v : BitVec 32)
  /-- `DEBUG_CHALLENGE` (R480): Draws a nonce and writes a Halaro challenge. -/
  | debugChallenge (r : Req) (m : Mgmt) (v : BitVec 32)
  /-- `DEBUG_OPEN` (R481): Opens intrusive debug after tearing down every slot. -/
  | debugOpen (r : Req) (m : Mgmt)
  /-- `DAMPER_INTERVAL` (R487): Each 1 ms the Damper compares power with its share and steps one actuator. -/
  | damperInterval (p : Nat)
  /-- `SITE_LEVEL_TIMEOUT` (R484): A site not acknowledging its level within 100 µs is counted at level 15. -/
  | siteLevelTimeout (site : Nat)
  /-- `SHARE_RECEIVE` (R485): A member receives its power share over BR_CTL. -/
  | shareReceive (w : Nat)
  /-- `PWR_BUDGET` (R486): Jarmir sets the package budget with an optional lease. -/
  | pwrBudget (m : Mgmt) (w lease : Nat)
  /-- `PWR_QUERY` (R486): Returns PWR_STATUS and PWR_BUDGET_STAT. -/
  | pwrQuery (m : Mgmt)
  /-- `PWR_LIMIT` (R486): The operator writes the persistent limit or clears the ceiling. -/
  | pwrLimit (m : Mgmt) (limit : Nat) (clearCeil : Bool)
  /-- `DROOP_TRIP` (R493): A droop detector trips and clocks or site level are cut at once. -/
  | droopTrip (src : Nat)
  /-- `THERMAL_WARN` (R494): A reading at WARN stops step-ups and steps down each interval. -/
  | thermalWarn (hottest : Nat)
  /-- `THERMAL_TRIP` (R494): A reading at TRIP drops to OPP 7, drives the alarm pin and counts toward the ceiling.
  -/
  | thermalTrip (hottest : Nat)
  /-- `THERMAL_CRIT` (R494): A reading at CRIT takes SYSRST with cause THERMAL. -/
  | thermalCrit (hottest : Nat)
  /-- `PMBUS_POLL` (R496): PMBus rails are read each 1 ms and input each 10 ms. -/
  | pmbusPoll (readings : List (Nat × Nat × Nat))
  /-- `PMBUS_STAGE_TIMEOUT` (R496): A stage silent for 10 ms stops step-ups, and for 100 ms holds OPP 5. -/
  | pmbusStageTimeout (stage : Nat)
  /-- `PWR_CTL_WRITE` (R491): A write sets the test hold, test points and recovery point. -/
  | pwrCtlWrite (r : Req) (v : BitVec 32)
  /-- `THERMAL_CLEAR` (R494): Every thermal reading falls below WARN, so an active trip clears: the hold at OPP 7
  ends and WORHA_ALARM_N is released if the trip is already acknowledged. -/
  | thermalClear (hottest : Nat)
  /-- `BR_CTL_RECEIVE` (R403): A BR_CTL transfer other than a hello or power share arrives: a heartbeat, slot open,
  secret forwarding or confirmation, member statement, epoch message, or member route table. -/
  | brCtlReceive (msg : BrCtl)
  /-- `IDE_KM_MESSAGE` (R380): An IDE_KM message over a secured SPDM session through DOE programs stream keys or
  starts or stops an IDE stream, moving it into or out of the Secure state. -/
  | ideKmMessage (m : Mgmt) (k : IdeKm)
  /-- `HOST_CONFIG_WRITE` (R390): A host configuration write enables or disables ATS or resets PRI, which ends the
  Response Failure block on page requests. -/
  | hostConfigWrite (c : HostCfg)
  /-- `TRANSLATION_TIMEOUT` (R389): An outstanding ATS Translation Request reaches its completion timeout and the
  waiting command ends XLAT_FAULT. -/
  | translationTimeout (pasid : BitVec 20) (page : Nat)
  /-- `MCTP_CONTROL_MESSAGE` (R497): An MCTP control message (message type 0x00), such as endpoint ID assignment,
  arrives at the management endpoint and is answered. -/
  | mctpControlMessage (command : BitVec 8) (body : List Byte)
  /-- `RESET_RELEASE_STEP` (R457): The condition of a release step holds and the next group of units leaves reset.
  -/
  | resetReleaseStep
  /-- `CLOCK_FAULT` (R35): KCLK is found stopped within 2 ms, the alarm pin is driven and operating seconds are
  held. -/
  | clockFault (clk : Clock) (running : Bool)
  /-- `KCLK_RESUME` (R35): KCLK runs again and the operating-seconds count resumes. -/
  | kclkResume
  /-- `OPSEC_COPY` (R39): Once per powered second the operating-seconds count is copied to the battery-backed
  register. -/
  | opsecCopy
  /-- `TAMPER_SET` (R43): A filtered low level on TAMPER_N sets the tamper latch and tears down every slot. -/
  | tamperSet (lowNs : Option Nat)
  /-- `MEMBER_STATEMENT_TIMEOUT` (R60): A member statement not returned within 10 ms appears UNVERIFIED in the
  composite. -/
  | memberStatementTimeout
  /-- `ORPHAN_SWEEP` (R117): The Firebox sweep zeroes orphaned cells after a parent's invalidation. -/
  | orphanSweep
  /-- `TRNG_FAULT` (R113): A TRNG health test fails and nonce-needing derivations are refused. -/
  | trngFault
  /-- `FLAG_HOLD_EXPIRY` (R261): A flag held for 100 ms is discarded without response. -/
  | flagHoldExpiry
  /-- `DEADLOCK_SCAN` (R345): Every 100 ms the Stoker scans the wait-for graph and breaks declared cycles. -/
  | deadlockScan
  /-- `DEADLOCK_ESCALATE` (R346): A unit without progress for the window escalates to SYSRST_WARM or SYSRST. -/
  | deadlockEscalate
  /-- `FUNCTION_LEVEL_RESET` (R455): A PCIe FLR squashes and disables every slice and unlocks every TDI. -/
  | functionLevelReset
  /-- `BRIDGE_HEARTBEAT_SEND` (R404): Each die sends a BR_CTL heartbeat or hello every 1 ms. -/
  | bridgeHeartbeatSend
  /-- `ELECTION_CLOSE` (R405): The election closes and the lowest agreeing position becomes lead. -/
  | electionClose
  /-- `THROTTLE_INTERVAL` (R435): A 1 ms interval ends and throttle counts advance. -/
  | throttleInterval
  /-- `WATCHDOG_EXPIRY` (R453): The Stoker watchdog expires and a fenced reset begins. -/
  | watchdogExpiry
  /-- `FENCE_TIMEOUT` (R460): Fencing steps not done in 20 ms are forced to assertion. -/
  | fenceTimeout
  /-- `RECOVERY_TIMEOUT` (R465): Recovery not at step 6 within 10 s becomes SYSRST RECOVERY_FAIL. -/
  | recoveryTimeout
  /-- `DEBUG_OPEN_COMPLETE` (R481): Every slot is EMPTY or past teardown step 2 and debug opens with new keys. -/
  | debugOpenComplete
  /-- `OPP_VOLTAGE_ACK` (R483): The voltage acknowledgement arrives and the clocks change to the higher point. -/
  | oppVoltageAck
  /-- `BUDGET_REALLOCATE` (R485): Every 10 ms the lead divides the package figure among members. -/
  | budgetReallocate
  /-- `SHARE_TIMEOUT` (R485): A member without a share for 50 ms uses FLOOR_W. -/
  | shareTimeout
  /-- `PWR_BUDGET_LAPSE` (R486): A budget lease lapses and DEFAULT_W replaces it. -/
  | pwrBudgetLapse
  /-- `PWR_REPORT` (R486): Every 100 ms a member reports power, demand and pacing to Jarmir. -/
  | pwrReport
  /-- `VIN_FAULT` (R496): VIN out of range for 10 ms holds OPP 5 and site level 15. -/
  | vinFault
  /-- `TRAINING_SLOT_WRITE` (R505): The Stoker writes the older training slot after a saved record changes. -/
  | trainingSlotWrite
  /-- `DROOP_RECOVER` (R493): 10 µs of powered time after the hub core supply recovers, the halved ACLK and CCLK
  return to the operating point. -/
  | droopRecover
  deriving DecidableEq, Repr

end Sys2Proof
end

