-- ==== Sys2Proof/Config.lean ====
section
/-! DEFINITION. The values the spec leaves open: opaque constants with no body, so that nothing can lean on a value. -/

namespace Sys2Proof

/-- The `n`-th free value of the run, `w` bits wide: what the TRNG draws, and what the spec leaves open (log 3). -/
opaque Config.freeBits : Nat → (w : Nat) → BitVec w

/-- Where the selection function of R24 begins for one run of consecutive pages of a stack, as many as it has powered
slivers, given the powered groups as a mask: the function is fixed in hardware and unstated (log 3, log 107). -/
opaque Config.sliverShift : (stack powered run : Nat) → Nat

/-- The bits a transmit sliver's generator draws: by the seed of its last reseed, the sliver's number and the place of the
draw (R289; log 3). -/
opaque Config.sliverBits : (seed : BitVec 64) → (sliver draw : Nat) → BitVec 16

/-- How many later blocks a record held whose first `bytes` bytes past a block without a length cannot be told apart (R279;
log 127). -/
opaque Config.lostBlocks : (bytes : Nat) → Nat

/-- The hash that chooses among the allowed links of a flit: destination node, member path, and the line index of its
first request record or the first TID of its responses (R256; log 3). -/
opaque Config.linkHash : (dst member key : Nat) → Nat

/-- A word of a capability entry whose layout the spec does not state, by the entry's type, the word's place and the values
the entry holds: `DIE` and `QUEUES` (R105), and the variant ID, which holds none of this model's (R506; log 3). -/
opaque Config.capWord : (type word : Nat) → (contents : List Nat) → BitVec 64

/-- The certificate chain of an SPDM certificate slot: 0 the device identity, 1 the lead's composite identity (R58; log 3). -/
opaque Config.certChain : (slot : Nat) → List (BitVec 8)

/-- The Halaro authorisation key, whose digest Kindling's ROM holds (R480; log 3). -/
opaque Config.halaroKey : Nat × Nat

end Sys2Proof
end

