-- ==== Sys2Proof/Machine/State.lean ====
section
/-! DEFINITION. The state of one Worha instance: every register, table, queue, counter, mode and pin the spec gives the
block, plus the waiting commands. Each field's docstring opens with [width; rule; value at reset]. -/

namespace Sys2Proof.Machine
open Sys2Proof

/-! ## Names of modes and states -/

/-- Domain slot states (R46 table). -/
inductive SlotState where
  | empty | admitting | live | quarantined | teardown
  deriving DecidableEq, Repr

/-- Why a slot last changed state (R47, R63, R64, R116, R473). -/
inductive SlotCause where
  | none | domOpen | activate | resume | alarm (cls : Nat) | domTeardown | admitTimeout | quarantineTimeout | lease
  | tamper | debugOpen | memberUnverified | keyFault | lifeCycle | recovery | done
  deriving DecidableEq, Repr

/-- KID states (R119). -/
inductive KidState where
  | free | active | retiring | cooling
  deriving DecidableEq, Repr

/-- Epoch phases (R123). -/
inductive EpochPhase where
  | steady | prepared | switched
  deriving DecidableEq, Repr

/-- Slice states (R76). -/
inductive SliceState where
  | free | active | resetting
  deriving DecidableEq, Repr

/-- Queue states (R81). -/
inductive QState where
  | disabled | enabled | stopping | stopped | error
  deriving DecidableEq, Repr

/-- Object entry states (R90). -/
inductive ObjState where
  | free | valid | revoked | spent
  deriving DecidableEq, Repr

/-- Where a command stands between fetch and commit (R84, R88, R97). -/
inductive CmdStage where
  | queued | waiting | ready | executing | finished
  deriving DecidableEq, Repr

/-- Region entry states (R177). -/
inductive RgnState where
  | unassigned | active | rekeying | readonly | releasing
  deriving DecidableEq, Repr

/-- Hearth range states (R206). -/
inductive HrgState where
  | unassigned | initialising | active | releasing
  deriving DecidableEq, Repr

/-- Link states (R237, R240). -/
inductive LinkState where
  | disabled | training | locking | negotiating | up | adapting | downFailed
  deriving DecidableEq, Repr

/-- Window states (R243). -/
inductive WinState where
  | free | opened | closing
  deriving DecidableEq, Repr

/-- Site states (R400). -/
inductive SiteState where
  | empty | probing | admitted | failed | suspended
  deriving DecidableEq, Repr

/-- TDI states (R385). -/
inductive TdiState where
  | unlocked | locked | run | error
  deriving DecidableEq, Repr

/-- Cipher page states (R410). -/
inductive PageState where
  | free | empty | keyed | limit
  deriving DecidableEq, Repr

/-- Reset levels (R453, R469). -/
inductive Level where
  | porst | sysrst | warm | core
  deriving DecidableEq, Repr

/-- Reset sources (R453). -/
inductive Source where
  | powerOn | pin | mgmt | host | watchdog | deadlock | keyFault | majorLimit | thermal | lc | recoveryFail
  deriving DecidableEq, Repr

/-- Phases of the reset controller (R457, R459, R469). -/
inductive RstPhase where
  | ready | fencing | held | recovering
  deriving DecidableEq, Repr

/-- A switched power domain's state (R36 to R39). -/
inductive PdState where
  | on | off
  deriving DecidableEq, Repr

/-- Group states (R405, R407). -/
inductive GroupState where
  | electing | formed | partialGroup | leadLost
  deriving DecidableEq, Repr

/-- Sync object kinds (R331). -/
inductive SyncKind where
  | free | fence | event
  deriving DecidableEq, Repr

/-- Life-cycle states (R470). -/
inductive LcState where
  | maker | integrator | fielded | returned | scrapped
  deriving DecidableEq, Repr

/-- Result codes of domain, epoch and power messages (R52 tables). -/
inductive DomResult where
  | ok | busy | badParam | badState | badProfile | noSlot | unauth | lcState | tampered | memberUnverified
  | levelRefused | notAdmitted
  deriving DecidableEq, Repr

/-! ## Outputs -/

/-- What the block sends across its boundary, newest first in `State.out` (log 2). -/
inductive Out where
  /-- A response on the hub network (R30, R31). -/
  | net (tag : Tag) (data : Line) (poison : Bool)
  /-- A line read issued on stack interface `stack`. -/
  | hbmRead (stack line : Nat)
  /-- A line write issued on a stack interface with its byte mask (R160, R511). -/
  | hbmWrite (stack line : Nat) (data : Line) (mask : BitVec 64)
  /-- A line read issued on a hearth port. -/
  | hearthRead (line : Nat)
  /-- A line write issued on a hearth port: the stored words, their check bits and the words written (R185). -/
  | hearthWrite (line : Nat) (data : Line) (ecc : BitVec 64) (words : BitVec 8)
  /-- The stack interface asks for self-refresh entry (R459). -/
  | selfRefresh (stack : Nat)
  /-- The answer to a domain, epoch or power message, with its returned values. -/
  | dom (r : DomResult) (vals : List Nat)
  /-- `DOM_EVENT` to Jarmir: slot, event, cause, detail. -/
  | domEvent (slot event cause detail : Nat)
  /-- A completion record write, its 32 bytes, status byte last (R355, R356). -/
  | record (slice queue : Nat) (bytes : List Byte)
  /-- An MSI-X message: vector. -/
  | msix (vector : Nat)
  /-- A value answered to a register read. -/
  | regRead (value : BitVec 64)
  /-- A flit on a global link, as the link layer hands it to the physical coding. -/
  | flit (link : Nat) (header : BitVec 64) (payload : List Byte) (tagField : BitVec 64)
  /-- A codeword on a global link: the symbols of each logical lane in the order they are sent (R211 to R213). -/
  | codeword (link : Nat) (lanes : List (List (BitVec 10)))
  /-- A whole fabric flit sent over a bridge (`BR_FAB`): hub position, type, slot, DST, SRC, payload. -/
  | bridgeFab (hub ftype : Nat) (slot : Option Nat) (dst src : Nat) (payload : List Byte)
  /-- A `BR_COL` transfer. -/
  | bridgeCol (hub slot : Nat) (payload : List Byte)
  /-- A `BR_CTL` transfer to a hub position: kind and values. -/
  | brCtl (hub kind : Nat) (vals : List Nat)
  /-- A collective entry queued toward a peer: link field, slot, stream, run, op, value (R313). -/
  | colCtl (link slot stream run op value : Nat)
  /-- An SPDM answer: code and body. -/
  | spdm (code : Nat) (body : List Byte)
  /-- An SPDM request to a chiplet site. -/
  | siteSpdm (site code : Nat) (body : List Byte)
  /-- A TDISP answer. -/
  | tdisp (code : Nat) (vals : List Nat)
  /-- An ATS Translation Request. -/
  | xlatRequest (pasid : BitVec 20) (page : Nat)
  /-- A Page Request message. -/
  | pageRequest (pasid : BitVec 20) (page group : Nat)
  /-- A Stop Marker (R390). -/
  | stopMarker (pasid : BitVec 20)
  /-- An Invalidation Completion (R392). -/
  | invalidationDone (itag : Nat)
  /-- A host read issued on the host link: transfer, address, length. -/
  | hostRead (pasid : BitVec 20) (id addr len : Nat)
  /-- A posted host write issued on the host link. -/
  | hostWrite (pasid : BitVec 20) (addr : Nat) (data : List Byte)
  /-- The host port's own answer: 0 all-ones read, 1 request retry status (R458), 2 FLR complete. -/
  | hostAnswer (code : Nat)
  /-- A control on the SerDes boundary: link, control, argument. -/
  | serdes (link control : Nat)
  /-- A request on the Damper actuator interface: unit (8 = hub), point or level. -/
  | actuator (unit point : Nat)
  /-- A PMBus read. -/
  | pmbus (stage command : Nat)
  /-- A report to Jarmir (R486). -/
  | pwrReport (vals : List Nat)
  /-- An IDE_KM answer. -/
  | ideKm (code : Nat) (vals : List Nat)
  /-- An MCTP control answer. -/
  | mctp (code : Nat) (vals : List Nat)
  /-- A training slot written to flash: slot, SEQ, serial, saved records by global link (R505). -/
  | flashWrite (slot seq : Nat) (serial : BitVec 64) (records : List (Nat × List (BitVec 512)))
  deriving DecidableEq, Repr

/-! ## System -/

/-- Time, clocks, supplies, straps and pins. -/
structure Sys where
  /-- [64; R6 R362 R423; spec 0] Powered nanoseconds since power-on, LIGHT 0. -/
  now : Nat := 0
  /-- [40; R35 R423 R503; DC 5: 0] Operating seconds. -/
  opSeconds : BitVec 40 := 0
  /-- [24; R440 R503; DC 5: 0] Power-cycle count. -/
  powerCycles : BitVec 24 := 0
  /-- [1; R35; spec 0] KCLK found stopped: a clock fault is active and operating seconds are held. -/
  kclkStopped : Bool := false
  /-- [3; R41; pin, DC 5: 0] HUB_POS as sampled. -/
  hubPos : BitVec 3 := 0
  /-- [2; R41; pin, DC 5: 0b01] PKG_SIZE as sampled. -/
  pkgSize : BitVec 2 := 1
  /-- [1; R43; DC 5: 0] TAMPER_N low after filtering. -/
  tamperLow : Bool := false
  /-- [1; R43 R503; DC 5: 0] The tamper latch, VBAT word 3. -/
  tamperLatch : Bool := false
  /-- [1; R442; spec 0] The latch was set on VBAT alone and is recorded at the next power-on. -/
  tamperUnrec : Bool := false
  /-- [1; R43; DC 5: 1] Main power present. -/
  mainPower : Bool := true
  /-- [table of 32; R11; spec empty] Low halves held per (requester, offset). -/
  lowHeld : List (Requester × Nat × BitVec 32) := []
  /-- [table of 32; R10 R429 R449; spec empty] High halves captured per (requester, offset). -/
  highCap : List (Requester × Nat × BitVec 64) := []
  /-- [30 domains; R36 R38 R498; DC 5: on] States of PD_STOKER, PD_FIREBOX, PD_CIPHER, PD_WITNESS, PD_HOST,
  PD_FABSYNC, PD_FLUE0-7, PD_MSG0-15, in that order; the default is on. -/
  pd : Tbl PdState := {}
  /-- [30; R498 R506; pin, DC 5: none fused] The fuse lines of the switched domains, as they stand. -/
  fuses : BitVec 30 := 0
  /-- [30; R17 R498 R506; pin, DC 5: none fused] PWR_DOMAIN.FUSED: the domains fused off, as sampled at reset release. -/
  pdFused : BitVec 30 := 0
  /-- [set; R35; spec empty] Clocks other than KCLK that are stopped. -/
  stopped : List Clock := []
  /-- [4 stacks x 4; R26; spec none] A change of power groups that holds the stack's new requests: the wanted groups as a
  mask, plus 1; 0 none. -/
  stackGoal : Tbl Nat := {}
  /-- [4 stacks x 1; R25 R459; DC 5: 0] The stack's HBM controller is in self-refresh. -/
  selfRefresh : Tbl Bool := {}
  /-- [model field; R30; log 16: 0] Tag format errors recorded. -/
  tagFormat : Nat := 0
  /-- [model field; log 3; DC 3: 0] The counter a free value is drawn with. -/
  freeCtr : Nat := 0
  deriving DecidableEq, Repr

/-! ## Domains (02_trust_domain) -/

/-- One domain slot. -/
structure Slot where
  /-- [4; R46 R47; spec EMPTY] State. -/
  state : SlotState := .empty
  /-- [64; R48 R49; spec 0] Domain ID. -/
  domainId : BitVec 64 := 0
  /-- [32; R50; spec 0] Profile word in force. -/
  profile : BitVec 32 := 0
  /-- [4; R52; DC 5: none] Cause of the last transition. -/
  cause : SlotCause := .none
  /-- [15 x 48; R63; spec empty] Powered milliseconds of the last counted alarms, newest first. -/
  alarmTimes : List Nat := []
  /-- [16 x 32; R52; spec 0] Alarms charged per class, for `DOM_QUERY`. -/
  alarmCounts : Tbl Nat := {}
  /-- [64; R47; spec 0] When the admission or quarantine timeout runs out, ns. -/
  deadline : Nat := 0
  /-- [64; R51; spec 0] When the lease lapses, ns; used only with LEASE non-zero. -/
  leaseEnd : Nat := 0
  /-- [1; R54; spec 0] The slot holds its domain secret (PRK_DOM valid). -/
  hasSecret : Bool := false
  /-- [4; R55 R124; spec 0] What confirmation the lead awaits from members: 0 none, 1 secret, 2 epoch message. -/
  awaiting : Nat := 0
  /-- [set of positions; R55; spec empty] Members that have not confirmed. -/
  unconfirmed : List Nat := []
  /-- [64; R55; spec 0] When the confirmations are due, ns. -/
  confirmBy : Nat := 0
  /-- [3; R69; spec 0] Teardown step the slot waits in, 0 when not in teardown. -/
  tdStep : Nat := 0
  /-- [-; R69; spec 0] Units that step 4 has zero-filled: 2 MiB of a region or 1 MiB of a hearth range each. -/
  tdFill : Nat := 0
  /-- [set of slices; R57; spec empty] Slices bound. -/
  slices : List Nat := []
  /-- [set of sites; R57; spec empty] Sites added. -/
  sites : List Nat := []
  /-- [1; R126; spec 0] `EPOCH_DUE` reported for this epoch. -/
  epochDue : Bool := false
  /-- [set of links; R232; spec empty] Links whose hard-limit hold was recorded for this epoch. -/
  holdRecorded : List Nat := []
  /-- [1; R218; spec 0] A session-tag conflict of this slot was recorded. -/
  tagConflict : Bool := false
  /-- [set; R71; spec empty] Partners whose loss was reported: node x 256 + member path. -/
  lostReported : List Nat := []
  /-- [16; R123; spec 0] Epoch E of the phase table. -/
  epoch : BitVec 16 := 0
  /-- [2; R123; spec STEADY] Epoch phase. -/
  phase : EpochPhase := .steady
  /-- [table; R62; spec empty] Second of the last counted `TREE_LOST` per subtree key. -/
  treeLostAt : Tbl Nat := {}
  deriving DecidableEq, Repr

/-- Domain management. -/
structure Dom where
  /-- [64 slots; R46; spec all EMPTY] The domain slots. -/
  slots : Tbl Slot := {}
  /-- [set of SEQ; R66; spec empty] Pin-driving records not yet acknowledged. -/
  unacked : List (BitVec 32) := []
  /-- [bits; R32 R61; spec 0] Offset bits taken by formed grouping levels above the package. -/
  levelBits : Nat := 0
  /-- [list; R32 R61; spec empty] Formed levels: level, member count. -/
  levels : List (Nat × Nat) := []
  /-- [set; R60; spec empty] Members whose statement is awaited in a composite being built. -/
  stmtPending : List Nat := []
  /-- [list; R60 R131; spec empty] Member results so far: position, verified, digest bytes. -/
  stmtResults : List (Nat × Bool × BitVec 384) := []
  /-- [256; R131; spec 0] Requester nonce of the composite being built. -/
  stmtNonce : BitVec 256 := 0
  /-- [64; R60; spec 0] When awaited statements are due, ns. -/
  stmtBy : Nat := 0
  /-- [1; R54 R60; spec 0] The current composite statement verifies. -/
  compositeOk : Bool := false
  /-- [members x 384; R62 R64; spec none] SHA-384 of each member's measurements as last verified: position, digest. -/
  memberMeas : List (Nat × BitVec 384) := []
  /-- [members x 16; R131; spec none] Site bits of the members whose statements have arrived: position, bits. -/
  stmtSites : List (Nat × Nat) := []
  /-- [4; R58; spec 0] Secure sessions open on the management interface. -/
  sessions : Nat := 0
  /-- [1; R58; spec 0] The algorithms of the subset have been negotiated since the last `GET_VERSION`. -/
  algs : Bool := false
  deriving DecidableEq, Repr

/-! ## Firebox (04_firebox_keys) -/

/-- What a Firebox cell holds a key for (the ladder table before R107). -/
inductive CellId where
  | cdiRom | deviceId | cdiFw | aliasKey | groupKey | lcr | bootRoot | backing | prkDom (slot : Nat)
  | kid (k : Nat) | epochKey (slot e : Nat)
  deriving DecidableEq, Repr

/-- One key cell (R114, R117). -/
structure Cell where
  /-- [-; R114] Which key. -/
  id : CellId
  /-- [768; R114; spec none] Share s0. -/
  s0 : BitVec 768
  /-- [768; R114; spec none] Share s1; the key is s0 XOR s1. -/
  s1 : BitVec 768
  /-- [32; R114 R116; log 118: 0] The check value held, as its XOR difference from the one its key, parent reference and
  label give: 0 when it passes. -/
  check : BitVec 32 := 0
  /-- [-; R117] Parent cell, none for a key made from the UDS or the domain secret. -/
  parent : Option CellId := none
  /-- [-; R117] Generation of the parent cell at derivation. -/
  parentGen : Nat := 0
  deriving DecidableEq, Repr

/-- Per-KID state (R119 to R122, R149). -/
structure KidEntry where
  /-- [2; R119; spec FREE] State. -/
  state : KidState := .free
  /-- [1; R136; spec 0] Bound to a domain slot. -/
  dvalid : Bool := false
  /-- [6; R136; spec 0] Domain slot. -/
  dslot : Nat := 0
  /-- [21; R149; spec 0] Next seal generation. -/
  sgen : Nat := 0
  deriving DecidableEq, Repr

/-- Receive counter state of one (slot, link) (R227). -/
structure RxCtr where
  /-- [1; R227; spec 0] RX_EPOCH valid. -/
  valid : Bool := false
  /-- [16; R227; spec 0] RX_EPOCH. -/
  epoch : BitVec 16 := 0
  /-- [48; R227; spec 0] RX_NEXT_CTR. -/
  next : Nat := 0
  deriving DecidableEq, Repr

/-- The Firebox. -/
structure Fbx where
  /-- [table; R114; spec empty] Valid key cells. -/
  cells : List Cell := []
  /-- [table; R117; spec 0] Cell generations raised by invalidations. -/
  gens : List (CellId × Nat) := []
  /-- [4096 KIDs; R119; spec FREE] KID table. -/
  kids : Tbl KidEntry := {}
  /-- [1; R133; spec 0] READY. -/
  ready : Bool := false
  /-- [1; R133; spec 0] SELFTEST_FAIL. -/
  selftestFail : Bool := false
  /-- [1; R133 R113; spec 0] TRNG_OK. -/
  trngOk : Bool := false
  /-- [1; R113; spec 0] TRNG health tests have failed since the last reset. -/
  trngFailed : Bool := false
  /-- [1; R133; spec 0] DICE_DONE. -/
  diceDone : Bool := false
  /-- [1; R133; spec 0] WARM. -/
  warm : Bool := false
  /-- [1; R134; spec 0] FBX_CTL.LOCK. -/
  lock : Bool := false
  /-- [12; R134; spec 0x100] PLAIN_KID_MAX. -/
  plainKidMax : BitVec 12 := 0x100
  /-- [4; R134; spec 0xA] REMASK_LOG2. -/
  remaskLog2 : BitVec 4 := 0xA
  /-- [64; R115; spec 0] Time of the last re-mask, ns. -/
  remaskAt : Nat := 0
  /-- [4; R135; spec 0] FBX_ALARM: SHARE, TRNG, DERIVE, ROOT. -/
  alarm : BitVec 4 := 0
  /-- [32; R136; spec 0] FBX_KSEL. -/
  ksel : BitVec 12 := 0
  /-- [4; R137; spec 0] FBX_KRES.RESULT. -/
  kres : Nat := 0
  /-- [65 x 512; R127 R154; spec 0] Root blocks. -/
  roots : Tbl Line := {}
  /-- [65 x 1; R128; spec ok] Root blocks whose check value fails. -/
  rootBad : List Nat := []
  /-- [48 per slot and link; R227; spec 0] TX_CTR, key slot x 32 + link. -/
  txCtr : Tbl Nat := {}
  /-- [per slot and link; R227; spec 0] RX_EPOCH and RX_NEXT_CTR. -/
  rxCtr : Tbl RxCtr := {}
  /-- [128; R108; spec 0] Derivations pending: target session (slot, epoch, source, destination). -/
  deriving_ : List (Nat × BitVec 16 × Nat × Nat) := []
  /-- [384; R108; DC 5: 0] The UDS of OTP. -/
  uds : BitVec 384 := 0
  /-- [1; R474; DC 5: 0] The UDS has been wiped. -/
  udsWiped : Bool := false
  /-- [256; R109; DC 5: 0] Boot nonce of this cold boot. -/
  bootNonce : BitVec 256 := 0
  /-- [128; R114; DC 5: 0] The scramble key of the cell array, drawn at each cold boot; `cells` is the array unscrambled
  (log 118). -/
  scramble : BitVec 128 := 0
  /-- [1; R116; spec 0] The backing-store key or the boot root has failed its check on use: the Stoker begins SYSRST at the
  next re-mask (log 118). -/
  rootFault : Bool := false
  deriving DecidableEq, Repr

/-! ## Queues, contexts and objects (03_queues_objects) -/

/-- An object table entry (R90). -/
structure ObjEntry where
  /-- [2; R90; spec FREE] State. -/
  state : ObjState := .free
  /-- [10; R90; spec 1] Generation. -/
  gen : Nat := 1
  /-- [2; R363; spec 0] Kind: 0 HBM, 1 hearth, 2 host. -/
  kind : Nat := 0
  /-- [48; R90; spec 0] Base. -/
  base : Nat := 0
  /-- [40; R90; spec 0] Size. -/
  size : Nat := 0
  /-- [12; R90; spec 0] KID. -/
  kid : Nat := 0
  /-- [1; R90; spec 0] READ. -/
  rd : Bool := false
  /-- [1; R90; spec 0] WRITE. -/
  wr : Bool := false
  /-- [1; R90; spec 0] ATOMIC. -/
  at_ : Bool := false
  /-- [32; R90; spec 0] In-flight count. -/
  inflight : Nat := 0
  deriving DecidableEq, Repr

/-- The counters of R302. -/
structure Stats where
  /-- [48; R302; spec 0] BLOCKS_IN. -/
  blocksIn : Nat := 0
  /-- [48; R302; spec 0] BLOCKS_OUT. -/
  blocksOut : Nat := 0
  /-- [40; R302; spec 0] PROMOTED. -/
  promoted : Nat := 0
  /-- [40; R302; spec 0] STEPS. -/
  steps : Nat := 0
  /-- [40; R302; spec 0] CEIL_OVER. -/
  ceilOver : Nat := 0
  /-- [40; R302; spec 0] SATURATED. -/
  saturated : Nat := 0
  /-- [40; R302; spec 0] SPECIALS. -/
  specials : Nat := 0
  /-- [40; R302; spec 0] FLUSHED. -/
  flushed : Nat := 0
  /-- [32; R302; spec 0] BAD_BLOCKS. -/
  badBlocks : Nat := 0
  /-- [32; R302; spec 0] ERR_MAX, FP32. -/
  errMax : BitVec 32 := 0
  deriving DecidableEq, Repr

/-- A command between fetch and commit (R84 to R88). -/
structure Cmd where
  /-- [48; R87] Sequence number. -/
  seq : Nat
  /-- [8 x 64; R351] The command word. -/
  words : List (BitVec 64)
  /-- [-; R84] Stage. -/
  stage : CmdStage := .queued
  /-- [8; R360] Status decided so far, 0 while undecided. -/
  status : Nat := 0
  /-- [8; R361] Detail. -/
  detail : Nat := 0
  /-- [4; R355] FLAGS: THROTTLED, PROMOTED, SATURATED, SPECIALS. -/
  flags : BitVec 4 := 0
  /-- [48; R357] DONE. -/
  done : Nat := 0
  /-- [64; R358] RESULT. -/
  result : BitVec 64 := 0
  /-- [1; R353] The head checks have run. -/
  checked : Bool := false
  /-- [1; R338] The wait was met on, or released by, a broken object. -/
  broken : Bool := false
  /-- [1; R347] The wait was met by a forced value. -/
  forced : Bool := false
  /-- [1; R84 R351] All its work has been issued. -/
  issuedAll : Bool := false
  /-- [2; R97 R99 R393] A stop decided its end: 0 none, 1 accepted abort, 2 squash, 3 squash of a draining invalidation. -/
  stop : Nat := 0
  /-- [8; R361] The detail that stop gives. -/
  stopDetail : Nat := 0
  /-- [list; R90] Object entries it counts in flight. -/
  held : List Nat := []
  /-- [1; R84] It has started. -/
  started : Bool := false
  /-- [64; R428] Powered ns at start. -/
  startedAt : Nat := 0
  /-- [32; R428] THROTTLE counter. -/
  throttle : Nat := 0
  /-- [64; R262 R264] Records outstanding. -/
  recordsOut : Nat := 0
  /-- [64; R170 R196] Pages or lines finished so far. -/
  progress : Nat := 0
  /-- [64; R191 R196] The major a reseal fixed at its start. -/
  fixed : Nat := 0
  /-- [7; R168 R170 R186 R196] The region or hearth range a key, seal or reseal command acts on, plus 1, 0 none. -/
  rgn : Nat := 0
  /-- [1; R369] The trailing remote signal has been issued. -/
  sigIssued : Bool := false
  /-- [256; R412 R414] Key shares XORed and IV a `CIPHER` command latched. -/
  latchKey : BitVec 256 := 0
  /-- [96; R414] IV latched. -/
  latchIv : BitVec 96 := 0
  /-- [53; R388 R389] Waiting on a host translation of this page (0 none, else page + 1). -/
  xlatWait : Nat := 0
  /-- [53; R389 to R391] A page whose translation or read the host refused it (0 none, else page + 1). -/
  xlatBad : Nat := 0
  /-- [32; R392] Host transfers issued and not complete. -/
  hostOut : Nat := 0
  /-- [20; R336] The object its signal operand named at the head check, plus 1, 0 none. -/
  sigObj : Nat := 0
  /-- [list; R357] Parts of its operand whose effect is complete: offset, length. -/
  parts : List (Nat × Nat) := []
  /-- [bytes; R391] Host bytes that have arrived for it: address, data. -/
  hostGot : List (Nat × List Byte) := []
  /-- [64; R345] Fetched at, ns. -/
  fetchedAt : Nat := 0
  /-- [1; R343 R348] Its wait is held for a cache entry and has been counted. -/
  pinHeld : Bool := false
  /-- [bytes; R427 R434] What `CTR_SAMPLE` and `WATCH_REPORT` took at their start. -/
  latch : List Byte := []
  /-- [8 x 64; R371] Format descriptor, read once. -/
  desc : List (BitVec 64) := []
  /-- [R302; R372] Counters of a format command. -/
  stats : Stats := {}
  /-- [40; R370] Block bytes written or read so far. -/
  wire : Nat := 0
  /-- [1; R279 R372] A block without a length made the rest of the source invalid. -/
  badRest : Bool := false
  deriving DecidableEq, Repr

/-- A queue context (the context table before R80, with R77, R81). -/
structure Queue where
  /-- [64; R80; spec 0] Command ring base at ENABLE. -/
  ring : BitVec 64 := 0
  /-- [64; R80; spec 0] Completion ring base at ENABLE. -/
  cpl : BitVec 64 := 0
  /-- [40; R80; spec 0] Parameters at ENABLE. -/
  param : BitVec 64 := 0
  /-- [3; R81; spec DISABLED] STATE. -/
  state : QState := .disabled
  /-- [4; R81; spec 0] CAUSE. -/
  cause : Nat := 0
  /-- [4; R81; spec 0] REFUSE. -/
  refuse : Nat := 0
  /-- [1; R81; spec 0] MODE: the last stop was a squash. -/
  squash : Bool := false
  /-- [32; R77; spec 0] TAIL. -/
  tail : BitVec 32 := 0
  /-- [32; R77; spec 0] HEAD. -/
  head : BitVec 32 := 0
  /-- [32; R98; spec 0] Stop tail. -/
  stopTail : BitVec 32 := 0
  /-- [32; R77; spec 0] CPL_TAIL. -/
  cplTail : BitVec 32 := 0
  /-- [32; R77; spec 0] CPL_HEAD. -/
  cplHead : BitVec 32 := 0
  /-- [48; R87; spec 0] Next sequence number. -/
  nextSeq : Nat := 0
  /-- [48; R81 R88; spec 0] COMMITTED. -/
  committed : Nat := 0
  /-- [list of up to a ring; R84; spec empty] Commands fetched and not committed, oldest first. -/
  cmds : List Cmd := []
  /-- [list; R83; spec empty] Ring objects held as in-flight users. -/
  ringObjs : List Nat := []
  /-- [1; R83 R386; spec 0] Enabled over the bound interface. -/
  bound : Bool := false
  /-- [53; R79 R389; spec 0] The page of its next completion record, whose translation the host refused (0 none, else
  page + 1). -/
  xlatBad : Nat := 0
  /-- [3 x 64; R428; spec 0] Last committed command's PROGRESS, THROTTLE, ELAPSED. -/
  lastCounters : Nat × Nat × Nat := (0, 0, 0)
  deriving DecidableEq, Repr

/-- A slice (R72 to R76, R101, R106). -/
structure Slice where
  /-- [64; R73; spec 0] QM_SLCFG. -/
  cfg : BitVec 64 := 0
  /-- [2; R76; spec FREE] STATE. -/
  state : SliceState := .free
  /-- [4; R76; spec 0] REFUSE. -/
  refuse : Nat := 0
  /-- [1; R76; spec 0] BOUND. -/
  bound : Bool := false
  /-- [6; R76; spec 0] DSLOT. -/
  dslot : Nat := 0
  /-- [4; R106; spec 1] Level. -/
  level : Nat := 1
  /-- [18; R76 slice page; spec 0] QM_QSEL. -/
  qsel : Nat := 0
  /-- [64; slice page; spec 0] QM_QRING, per queue staged. -/
  qring : Tbl (BitVec 64) := {}
  /-- [64; slice page; spec 0] QM_QCPL, per queue staged. -/
  qcpl : Tbl (BitVec 64) := {}
  /-- [64; R80; spec 0] QM_QPARAM, per queue staged. -/
  qparam : Tbl (BitVec 64) := {}
  /-- [48; slice page; spec 0] QM_ABORT_SEQ. -/
  abortSeq : Nat := 0
  /-- [3; R95; spec 0] QM_ABORT_STAT. -/
  abortStat : Nat := 0
  /-- [2; R101; spec 0] RSTAT.OP. -/
  rop : Nat := 0
  /-- [1; R101; spec 0] RSTAT.BUSY. -/
  rbusy : Bool := false
  /-- [24; R101; spec 0] RSTAT.SQUASHED. -/
  rsquashed : Nat := 0
  /-- [24; R101; spec 0] RSTAT.ABORTED. -/
  raborted : Nat := 0
  /-- [3; R100; spec 0] Reset step the slice waits in. -/
  rstStep : Nat := 0
  /-- [1; R74 R100; spec 0] The running reset ends in FREE. -/
  toFree : Bool := false
  /-- [queues; R75; spec DISABLED] Queues by in-slice number. -/
  queues : Tbl Queue := {}
  /-- [2^OT_LOG2; R90; spec FREE, generation 1] Object table. -/
  objs : Tbl ObjEntry := {}
  /-- [2; R385; spec CONFIG_UNLOCKED] TDI state. -/
  tdi : TdiState := .unlocked
  /-- [8; R383; spec none] Stream locked. -/
  stream : Option Nat := none
  /-- [256; R382; DC 26: 0] The nonce drawn at the lock, which the start names. -/
  tdiNonce : BitVec 256 := 0
  /-- [12; R348; spec 0] SYN_SLCFG.GRAN_BASE. -/
  synBase : Nat := 0
  /-- [13; R348; spec 0] SYN_SLCFG.GRAN_COUNT. -/
  synCount : Nat := 0
  /-- [11; R348; spec 0] VEC_BASE. -/
  vecBase : Nat := 0
  /-- [12; R348; spec 0] VEC_COUNT. -/
  vecCount : Nat := 0
  /-- [15 x 21; R349; spec 0] SYN_P_SEL_p. -/
  psel : Tbl (BitVec 32) := {}
  /-- [32; R439; spec WALL_SHARE 0, WATCH_MAX 1] TEL_S_CFG.WALL_SHARE. -/
  wallShare : Nat := 0
  /-- [5; R439; spec 1] TEL_S_CFG.WATCH_MAX. -/
  watchMax : Nat := 1
  /-- [1; R439; spec 0] TEL_S_CTL.EN. -/
  telEn : Bool := false
  /-- [20; R439; spec 0] TEL_S_QSEL. -/
  tqsel : BitVec 20 := 0
  /-- [17 x 64; R425; spec 0] Per-slice counters. -/
  ctrs : Tbl (BitVec 64) := {}
  /-- [64; R408; spec 0] STK_SW_RANGE_s. -/
  swRange : BitVec 64 := 0
  /-- [3; R408; spec 0] STK_SW_RES_s. -/
  swRes : Nat := 0
  /-- [4; R490; spec 0] Preferred operating point. -/
  prefOpp : Nat := 0
  /-- [1; R390; spec 0] Page requests issued since the last ENABLE. -/
  pagedSince : Bool := false
  /-- [1; R435; spec 0] A unit was throttled for the slice in this interval. -/
  throttled : Bool := false
  deriving DecidableEq, Repr

/-- The queue manager's global page. -/
structure Qm where
  /-- [4 PRIOs; R84; log 45: 0] Round-robin place of each PRIO: slice x 2^18 + queue of the queue that last started a
  command, plus 1. -/
  rrPlace : Tbl Nat := {}
  /-- [11; QM_SLSEL; spec 0] Slice select. -/
  slsel : Nat := 0
  /-- [2048 slices; R73; spec FREE] Slices. -/
  slices : Tbl Slice := {}
  /-- [64; R510; DC 14: P of R143 less the fixed tables] Object area in bytes reported by QUEUES. -/
  objArea : Nat := 3657433088
  deriving DecidableEq, Repr

/-! ## Sealed memory (05_sealed_memory) -/

/-- A region table entry (R175, R177, R178). -/
structure Region where
  /-- [3; R177; spec UNASSIGNED] STATE. -/
  state : RgnState := .unassigned
  /-- [2; R140; spec 0] MODE. -/
  mode : Nat := 0
  /-- [2; R175; spec 0] STACK. -/
  stack : Nat := 0
  /-- [15; R175; spec 0] BASE. -/
  base : Nat := 0
  /-- [16; R175; spec 0] SIZE. -/
  size : Nat := 0
  /-- [12; R175; spec 0] KID. -/
  kid : Nat := 0
  /-- [21; R177; spec 0] SGEN. -/
  sgen : Nat := 0
  /-- [1; R177; spec 0] REKEY_DUE. -/
  rekeyDue : Bool := false
  /-- [12; R178; spec 0] NEW_KID. -/
  newKid : Nat := 0
  /-- [24; R178; spec 0] WATERMARK. -/
  watermark : Nat := 0
  /-- [21; R178; spec 0] NEW_SGEN. -/
  newSgen : Nat := 0
  /-- [32; R178; spec 0] MAC_FAILS. -/
  macFails : Nat := 0
  /-- [32; R178; spec 0] POISONED. -/
  poisoned : Nat := 0
  /-- [1; R192; spec 0] Writes are refused: set when a major reaches 2^64 - 2^20, cleared by the completion of `RESEAL_KEY`. -/
  ro : Bool := false
  /-- [1; R168 R170; spec 0] A re-key has begun and has not completed; it stands through a release (STATE then reads `RELEASING`). -/
  keying : Bool := false
  /-- [1; R168 R176; spec 0] The release running was asked for through `MSL_RCMD`. -/
  byReg : Bool := false
  deriving DecidableEq, Repr

/-- A cached verified metadata item (R157). -/
structure Cached where
  /-- [512; R157] The item. -/
  data : Line
  /-- [12; R157] The KID it is tagged with (0 for the backing store). -/
  kid : Nat
  /-- [1; R158] Modified since it was fetched. -/
  dirty : Bool := false
  /-- [7; R155] Region index. -/
  region : Nat
  /-- [4; R155] Level: 0 counter block, 1-7 node, 8 MAC line. -/
  level : Nat
  /-- [28; R155] Index within the level. -/
  index : Nat
  /-- [model field; R157] Stamp of the last use. -/
  used : Nat := 0
  deriving DecidableEq, Repr

/-- Where a tagged request to a stack line goes (R140, R141, R171). -/
inductive HbmRoute where
  /-- Outside every region, served as `PLAIN`. -/
  | plain
  /-- Line `i` of region `ri`. -/
  | region (ri i : Nat)
  /-- The metadata area of a sealed region. -/
  | carveOut
  /-- The KID match fails. -/
  | refused
  /-- The key of the line's page belongs to a KID that is not `ACTIVE` (R171). -/
  | inactive
  deriving DecidableEq, Repr

/-- A hub-network request that a memory path works on (R159 to R164, R182, R185). -/
structure MemReq where
  /-- [48; R28] Tag. -/
  tag : Tag
  /-- [-; R140 R179] Line address: stack x 2^30 + line for HBM, the line index for the hearth. -/
  addr : Nat
  /-- [1] Write. -/
  write : Bool
  /-- [512] Write data. -/
  data : Line := 0
  /-- [64] Byte mask of a write. -/
  mask : BitVec 64 := 0
  /-- [1; R26 R168] Held at ingress behind a release or a change of power groups. -/
  hold : Bool := false
  /-- [1; R201] Waits for a slot of its arbiter, which background work is owed first. -/
  slot : Bool := false
  /-- [-; R141 R160] Where it goes, as latched in its ingress cycle; none while it is held unjudged. -/
  route : Option HbmRoute := none
  deriving DecidableEq, Repr

/-- The memory seal front end and memory slivers. -/
structure Msl where
  /-- [64 entries; R175 R177; spec UNASSIGNED] Region table; entry 64 is the backing store (R146). -/
  rgns : Tbl Region := {}
  /-- [1; R172; spec 0] READY. -/
  ready : Bool := false
  /-- [1; R173; spec 0] LOCK. -/
  lock : Bool := false
  /-- [1; R173; spec 0] DEFAULT_UNASSIGNED. -/
  defUnassigned : Bool := false
  /-- [64; R174; DC 5: 0 until Kindling] MSL_BSTORE. -/
  bstore : BitVec 64 := 0
  /-- [6; R175; spec 0] MSL_RSEL. -/
  rsel : Nat := 0
  /-- [64; R175; spec 0] MSL_RCFG. -/
  rcfg : BitVec 64 := 0
  /-- [4; R176; spec 0] MSL_RRES. -/
  rres : Nat := 0
  /-- [caches; R157; spec empty] Verified metadata items by stack line address. -/
  cache : Tbl (Option Cached) := {}
  /-- [fetches; R162; spec empty] Metadata lines arrived and not yet verified: address, data, poison. -/
  arrived : List (Nat × Line × Bool) := []
  /-- [requests; R160 R163; spec empty] Requests waiting for a stack or on a hold, oldest first. -/
  pending : List MemReq := []
  /-- [pages; R190; spec empty] Pages being re-encrypted or waiting for it, per sliver order: region, page. -/
  reenc : List (Nat × Nat) := []
  /-- [fetches; R162; spec empty] Line addresses read from the stacks whose data has not arrived. -/
  issued : List Nat := []
  /-- [fetches; R160; spec empty] Those of `issued` whose line has been written since: their data is not used. -/
  stale : List Nat := []
  /-- [128 x 4 x 8; R163; spec empty] Merge-buffer entries in use: the line each holds. -/
  merging : List Nat := []
  /-- [model field; log 9: 0] The use stamp of the caches' replacement order. -/
  stamp : Nat := 0
  /-- [HBM contents outside the block; log 6: 0] Stored lines by stack x 2^30 + line. -/
  hbm : Tbl Line := {}
  /-- [HBM controller poison, outside the block; log 6] Poisoned lines. -/
  hbmPoison : Tbl Bool := {}
  /-- [16 x 1; R504; spec 0] Memory power groups with a disabled sliver. -/
  groupBad : Tbl Bool := {}
  deriving DecidableEq, Repr

/-! ## Hearth memory, exhaustion, scrub (06_hearth_exhaustion_scrub) -/

/-- A hearth range entry (R205, R206). -/
structure HRange where
  /-- [2; R206; spec UNASSIGNED] STATE. -/
  state : HrgState := .unassigned
  /-- [2; R180; spec 0] MODE. -/
  mode : Nat := 0
  /-- [13; R205; spec 0] BASE. -/
  base : Nat := 0
  /-- [13; R205; spec 0] SIZE. -/
  size : Nat := 0
  /-- [12; R205; spec 0] KID. -/
  kid : Nat := 0
  /-- [13; R206; spec 0] INIT_DONE. -/
  initDone : Nat := 0
  /-- [1; R186 R206; spec 0] The assignment or release running was asked for through `HTH_RCMD`. -/
  byReg : Bool := false
  deriving DecidableEq, Repr

/-- A scrub engine (R199, R200, R207). -/
structure Scrub where
  /-- [32; R207; spec 0] PROGRESS. -/
  progress : Nat := 0
  /-- [16; R207; spec 0] PASSES. -/
  passes : Nat := 0
  /-- [1; R207; spec 0] BEHIND. -/
  behind : Bool := false
  /-- [64; R200; spec 0] Start of the pass, ns. -/
  startAt : Nat := 0
  /-- [64; R200; spec 0] When the pass issued its last line, or its start, ns. -/
  lineAt : Nat := 0
  deriving DecidableEq, Repr

/-- Error counts of one unit (R207). -/
structure MemErr where
  /-- [32; R207; spec 0] CORRECTED. -/
  corrected : Nat := 0
  /-- [16; R207; spec 0] UNCORR_DATA. -/
  uncorrData : Nat := 0
  /-- [16; R207; spec 0] UNCORR_META. -/
  uncorrMeta : Nat := 0
  deriving DecidableEq, Repr

/-- Hearth gates, scrub and the arbiters. -/
structure Hth where
  /-- [16 entries; R205; spec UNASSIGNED] Range table. -/
  rngs : Tbl HRange := {}
  /-- [1; R204; spec 0] READY. -/
  ready : Bool := false
  /-- [1; R204; spec 0] LOCK. -/
  lock : Bool := false
  /-- [1; R204; spec 0] DEFAULT_UNASSIGNED. -/
  defUnassigned : Bool := false
  /-- [4; R205; spec 0] HTH_RSEL. -/
  rsel : Nat := 0
  /-- [64; R205; spec 0] HTH_RCFG. -/
  rcfg : BitVec 64 := 0
  /-- [4; R206; spec 0] HTH_RRES. -/
  rres : Nat := 0
  /-- [8; R207; spec 0x18] PERIOD. -/
  period : Nat := 0x18
  /-- [12 engines; R200; spec 0] Scrub engines by unit. -/
  scrub : Tbl Scrub := {}
  /-- [12 units; R207; spec 0] HTH_ERR_u. -/
  errs : Tbl MemErr := {}
  /-- [24 x 32; R207; spec 0] HTH_DS_STAT BG_SLOTS. -/
  bgSlots : Tbl Nat := {}
  /-- [24 arbiters; R201; spec 0] Foreground slots since the last background slot while background work is pending. -/
  bgRun : Tbl Nat := {}
  /-- [24 arbiters x 5 classes; R202; spec 0] The round-robin place: one more than the job served last, at arbiter x 8 + class. -/
  bgLast : Tbl Nat := {}
  /-- [24 arbiters x 8; R436; DESIGN CHOICE 0] The position of an arbiter's next slot in its frame of 256. -/
  wallAt : Tbl Nat := {}
  /-- [4 x 64; R191; spec 0] HTH_MAJOR_HW_n. -/
  majorHw : Tbl Nat := {}
  /-- [requests; R182; spec empty] Reads and partial writes waiting for a tier. -/
  pending : List MemReq := []
  /-- [tier contents outside the block; log 6: 0] Stored lines by hearth line index. -/
  store : Tbl Line := {}
  /-- [tier contents outside the block; log 6: 0] Stored check bytes, word w at bits 8w+7:8w. -/
  ecc : Tbl (BitVec 64) := {}
  deriving DecidableEq, Repr

/-! ## Link ports (07_link_ports) -/

/-- A sequenced flit as first sent (R220, R222). -/
structure SentFlit where
  /-- [12; R220] LSEQ. -/
  lseq : Nat
  /-- [64; R216] Header. -/
  header : BitVec 64
  /-- [240 bytes; R216] Payload as sent. -/
  payload : List Byte
  /-- [64; R216] Tag field. -/
  tagField : BitVec 64
  /-- [model field; R322] Slot and stream of a `COL_DATA` flit. -/
  col : Option (Nat × Nat) := none
  deriving DecidableEq, Repr

/-- A flit waiting for LSEQ, credit, key and counter value (R228). -/
structure WaitFlit where
  /-- [6; R217] TYPE. -/
  ftype : Nat
  /-- [-; R216] Slot, none for the plain domain. -/
  slot : Option Nat
  /-- [16; R216] DST. -/
  dst : Nat
  /-- [16; R216] SRC. -/
  src : Nat
  /-- [240 bytes; R216] Plaintext payload. -/
  payload : List Byte
  deriving DecidableEq, Repr

/-- A flit accepted by session handling, on its way to the fabric engine or the plan executor (R221, R230). -/
structure RxFlit where
  /-- [6; R217] TYPE. -/
  ftype : Nat
  /-- [-; R216] Slot, none for the plain domain. -/
  slot : Option Nat
  /-- [16; R216] DST. -/
  dst : Nat
  /-- [16; R216] SRC. -/
  src : Nat
  /-- [240 bytes; R216] Plaintext payload. -/
  payload : List Byte
  deriving DecidableEq, Repr

/-- Physical coding of a link: where its superframes stand in each direction (R212, R213). -/
structure Pcs where
  /-- [30; R213; spec 0] Superframe number sent. -/
  txFrame : Nat := 0
  /-- [15; R212; spec 0] Flits of this superframe sent. -/
  txPos : Nat := 0
  /-- [5139; R212; spec empty] Scrambled message bits that wait for their codeword. -/
  txAcc : Nat := 0
  /-- [31; R212; spec all ones at flit 0] Scrambler of the transmitter. -/
  txScr : Nat := 0
  /-- [15; R212; spec 0] Flits of this superframe received. -/
  rxPos : Nat := 0
  /-- [31; R212; spec all ones at flit 0] Scrambler of the receiver. -/
  rxScr : Nat := 0
  deriving DecidableEq, Repr

/-- One link (R220 to R240). -/
structure Link where
  /-- [3; R240; spec DISABLED] STATE. -/
  state : LinkState := .disabled
  /-- [4; R240; spec 0] CAUSE. -/
  cause : Nat := 0
  /-- [4; R240; spec 0] LEVEL. -/
  level : Nat := 0
  /-- [1; R240; spec 0] RESUMED. -/
  resumed : Bool := false
  /-- [1; R240; spec 0] SAVED_USED. -/
  savedUsed : Bool := false
  /-- [2; R240; spec 0] ATTEMPTS. -/
  attempts : Nat := 0
  /-- [16; R240; spec 0] BRINGUPS. -/
  bringups : Nat := 0
  /-- [1; R239; spec 0] ENABLE. -/
  enable : Bool := false
  /-- [16; R240; spec 0] Peer NODE of the last UP. -/
  peerNode : Nat := 0
  /-- [8; R240; spec 0] Peer MEMBER_PATH. -/
  peerMember : Nat := 0
  /-- [3; R240; spec 0] Peer PORT. -/
  peerPort : Nat := 0
  /-- [2; R240; spec 0] Peer LINK. -/
  peerLink : Nat := 0
  /-- [3; R240; spec 0] Peer HUB. -/
  peerHub : Nat := 0
  /-- [64; R236; spec 0] Peer serial. -/
  peerSerial : BitVec 64 := 0
  /-- [1; R235; spec 0] A valid NEGOTIATE has been received in this negotiation. -/
  peerHeard : Bool := false
  /-- [12; R220; spec 0] TX_NEXT. -/
  txNext : Nat := 0
  /-- [12; R240; spec 0] RX_NEXT. -/
  rxNext : Nat := 0
  /-- [2048 flits; R220; spec empty] Replay buffer, oldest first. -/
  replay : List SentFlit := []
  /-- [flits; R221; spec empty] Accepted flits not yet taken by the fabric engine or the plan executor, oldest first. -/
  accepted : List RxFlit := []
  /-- [flits; R228; spec empty] Flits waiting to be assigned. -/
  txQueue : List WaitFlit := []
  /-- [4 x 16; R224; spec 0] Credits granted to this transmitter, per class (running count). -/
  txGranted : Tbl Nat := {}
  /-- [4 x 16; R224; spec 0] Credits used. -/
  txUsed : Tbl Nat := {}
  /-- [4 x 16; R223; spec 0] Flits freed by this receiver, per class (running count). -/
  rxFreed : Tbl Nat := {}
  /-- [4 x 16; R223 R224; spec 0] Freed counts last sent to the peer in a `LINK_CTL`. -/
  rxGranted : Tbl Nat := {}
  /-- [4 x 16; R224; spec 0] Sequenced flits received, per class (running count). -/
  rxTaken : Tbl Nat := {}
  /-- [4 x 16; R220; spec 0] Initial credits advertised by the peer. -/
  initCredit : Tbl Nat := {}
  /-- [4; R222; spec 0] Consecutive NAKs or timeouts without an advance. -/
  retries : Nat := 0
  /-- [64; R222; spec 0] Last advance of the acknowledgement, ns. -/
  ackAt : Nat := 0
  /-- [1; R221; spec 0] The receiver waits after a NAK. -/
  nakWait : Bool := false
  /-- [64; R221; spec 0] Last NAK sent, ns. -/
  nakAt : Nat := 0
  /-- [12; R231; spec 0] LSEQ of the last tag failure. -/
  tagFailSeq : Nat := 0
  /-- [3; R231; spec 0] Consecutive deliveries of it that failed. -/
  tagFails : Nat := 0
  /-- [1; R236; spec 0] Replay, sequences and credits kept since the last UP. -/
  kept : Bool := false
  /-- [slots; R230; spec empty] Slots awaiting START on receive. -/
  rxAwait : List Nat := []
  /-- [slots; R229; spec empty] Slots that have sent since the last START requirement. -/
  txStarted : List Nat := []
  /-- [flits; R233; spec empty] Received flits held behind one that waits for its key, oldest first: uncorrectable
  codewords, damaged, bytes. -/
  rxHold : List (Nat × Bool × List Byte) := []
  /-- [64; R237; spec 0] When the present state was entered, ns. -/
  since : Nat := 0
  /-- [64; R235; spec 0] Last NEGOTIATE sent, ns. -/
  negSentAt : Nat := 0
  /-- [64; R223; spec 0] Last LINK_CTL sent, ns. -/
  ctlSentAt : Nat := 0
  /-- [7; R223; spec 0] Sequenced flits accepted since the last LINK_CTL. -/
  sinceCtl : Nat := 0
  /-- [16; R240; spec 0] UNCORR_CW. -/
  uncorrCw : Nat := 0
  /-- [16; R240; spec 0] NAKS. -/
  naks : Nat := 0
  /-- [8; R240; spec 0] TAG_UNRECOVERED. -/
  tagUnrec : Nat := 0
  /-- [8; R240; spec 0] EPOCH_DROPS. -/
  epochDrops : Nat := 0
  /-- [8; R240; spec 0] NO_SESSION. -/
  noSession : Nat := 0
  /-- [8; R240; spec 0] START_STALE. -/
  startStale : Nat := 0
  /-- [lanes x 512; R234; spec invalid] Saved training record. -/
  saved : Option (List (BitVec 512)) := none
  /-- [16; R236; spec 0] Own NODE at the last UP. -/
  upNode : Nat := 0
  /-- [-; R212 R213; spec as its fields] Physical coding. -/
  pcs : Pcs := {}
  deriving DecidableEq, Repr

/-- One lane (R240). -/
structure Lane where
  /-- [32; R240; spec 0] CORRECTED. -/
  corrected : Nat := 0
  /-- [16; R240; spec 0] SNR. -/
  snr : Nat := 0
  /-- [1; R240; spec 0] SIGDET. -/
  sigdet : Bool := false
  /-- [1; R240; spec 0] INVERTED. -/
  inverted : Bool := false
  /-- [4; R240; spec 0] LOGICAL. -/
  logical : Nat := 0
  /-- [32; R234; spec 0] Symbols corrected in the present 1 ms window. -/
  window : Nat := 0
  deriving DecidableEq, Repr

/-- One port's own registers (R239). -/
structure Port where
  /-- [1; R239; spec 0] READY. -/
  ready : Bool := false
  /-- [2; R239; spec 0] MODE. -/
  mode : Nat := 0
  /-- [1; R239; spec 1] USE_SAVED. -/
  useSaved : Bool := true
  /-- [6; R239; spec 0x2C] WARN_LOG2. -/
  warnLog2 : Nat := 0x2C
  deriving DecidableEq, Repr

/-- A session-cache entry (R233). -/
structure Sess where
  /-- [6; R233] Slot. -/
  slot : Nat
  /-- [16; R233] Epoch. -/
  epoch : BitVec 16
  /-- [16; R233] Source node. -/
  src : Nat
  /-- [16; R233] Destination node. -/
  dst : Nat
  /-- [288; R112 R114] Share s0 of the pair key. -/
  s0 : BitVec 288
  /-- [288; R112 R114] Share s1; the pair key is s0 XOR s1. -/
  s1 : BitVec 288
  /-- [1; R309] Pinned by a plan. -/
  pinned : Bool := false
  deriving DecidableEq, Repr

/-- Link ports. -/
structure Lnk where
  /-- [8 ports; R239; spec as above] Ports. -/
  ports : Tbl Port := {}
  /-- [32 links; R240; spec DISABLED] Links by global number. -/
  links : Tbl Link := {}
  /-- [128 lanes; R240; spec 0] Lanes by port x 16 + lane. -/
  lanes : Tbl Lane := {}
  /-- [4096 entries; R233; spec empty] Session cache, most recently used first. -/
  sess : List Sess := []
  deriving DecidableEq, Repr

/-! ## Fabric (08_fabric_transactions) -/

/-- A window (R243). -/
structure Win where
  /-- [2; R243; spec FREE] STATE. -/
  state : WinState := .free
  /-- [1; R243; spec 0] KIND: SYNC. -/
  sync : Bool := false
  /-- [1; R243; spec 0] DVALID. -/
  dvalid : Bool := false
  /-- [6; R243; spec 0] DSLOT. -/
  dslot : Nat := 0
  /-- [11; R243; spec 0] SLICE. -/
  slice : Nat := 0
  /-- [22; R243; spec 0] HANDLE's entry index. -/
  obj : Nat := 0
  /-- [40; R243; spec 0] OBJ_OFFSET. -/
  objOff : Nat := 0
  /-- [20; R243; spec 0] SYNC_BASE. -/
  syncBase : Nat := 0
  /-- [41; R243; spec 0] SIZE. -/
  size : Nat := 0
  /-- [4; R243; spec 0] RIGHTS: READ, WRITE, ATOMIC, SIGNAL. -/
  rights : BitVec 4 := 0
  /-- [32; R243; spec 0] KEY. -/
  key : BitVec 32 := 0
  /-- [16; R243; spec 0] SRC_NODE. -/
  srcNode : Nat := 0
  /-- [32; R243; spec 0] INFLIGHT. -/
  inflight : Nat := 0
  deriving DecidableEq, Repr

/-- A remote window entry (R245). -/
structure Rwin where
  /-- [1; R245; spec FREE] STATE is SET. -/
  set : Bool := false
  /-- [1; R245; spec 0] DVALID. -/
  dvalid : Bool := false
  /-- [6; R245; spec 0] DSLOT. -/
  dslot : Nat := 0
  /-- [11; R245; spec 0] SLICE. -/
  slice : Nat := 0
  /-- [16; R245; spec 0] NODE. -/
  node : Nat := 0
  /-- [8; R245; spec 0] MEMBER. -/
  member : Nat := 0
  /-- [12; R245; spec 0] WINDOW. -/
  window : Nat := 0
  /-- [32; R245; spec 0] KEY. -/
  key : BitVec 32 := 0
  /-- [4; R245; spec 0] RIGHTS. -/
  rights : BitVec 4 := 0
  /-- [7; R245; spec 0] TIMEOUT in ms, 20 for a 0 set. -/
  timeout : Nat := 0
  /-- [1; R245; spec 0] APERTURE. -/
  aperture : Bool := false
  deriving DecidableEq, Repr

/-- Who waits for a record's response. -/
inductive RecOwner where
  | cmd (slice queue seq : Nat)
  | net (tag : Tag)
  deriving DecidableEq, Repr

/-- An outstanding request record at its source (R264, R266). -/
structure OutRec where
  /-- [20; R266] TID. -/
  tid : Nat
  /-- [-; R264] Owner. -/
  owner : RecOwner
  /-- [7; R260] Slot + 1, 0 plain. -/
  pairSlot : Nat
  /-- [16] Target node. -/
  node : Nat
  /-- [8] Target member path. -/
  member : Nat
  /-- [4; R249] KIND. -/
  kind : Nat
  /-- [64; R264] Deadline, ns. -/
  deadline : Nat
  /-- [-; R367] Where a READ's lines go: object entry, offset; or line offset of a WRITE. -/
  dest : Nat
  /-- [2] Lines less one. -/
  lines : Nat
  /-- [bytes; R261] The record as sent, for the resend of `HOLD_FULL`. -/
  bytes : List Byte
  /-- [64; R261; spec 0] When a resend is due, 0 none. -/
  resendAt : Nat := 0
  deriving DecidableEq, Repr

/-- A tally entry (R260). -/
structure Tally where
  /-- [32; R260; spec 0] Count. -/
  count : BitVec 32 := 0
  /-- [1; R260; spec 0] FAULTED (source side). -/
  faulted : Bool := false
  deriving DecidableEq, Repr

/-- A pair's key: slot + 1 (0 plain), peer node, peer member path (the pair definition after R242). -/
abbrev PairKey := Nat × Nat × Nat

/-- A held flag (R261). -/
structure Held where
  /-- [-; R261] Pair it belongs to. -/
  pair : PairKey
  /-- [32; R260] TALLY. -/
  tally : BitVec 32
  /-- [bytes] The record. -/
  bytes : List Byte
  /-- [64; R261] When it is discarded, ns. -/
  expires : Nat
  deriving DecidableEq, Repr

/-- A route table entry (R270). -/
structure Route where
  /-- [32; R270; spec 0] LINKS. -/
  links : BitVec 32 := 0
  /-- [1; R270; spec 0] VALID. -/
  valid : Bool := false
  /-- [1; R270; spec 0] BRIDGE. -/
  bridge : Bool := false
  /-- [3; R270; spec 0] BRIDGE_HUB. -/
  hub : Nat := 0
  deriving DecidableEq, Repr

/-- A hub-network access to a remote window entry (R246). -/
structure ApReq where
  /-- [48; R28] Crossing tag. -/
  tag : Tag
  /-- [14; R245] Entry. -/
  entry : Nat
  /-- [40; R242] Local offset. -/
  off : Nat
  /-- [4; R249] KIND. -/
  kind : Nat
  /-- [4; R250] OP. -/
  op : Nat
  /-- [64; R248] MASK. -/
  mask : BitVec 64
  /-- [bytes; R249] Data. -/
  data : List Byte
  deriving DecidableEq, Repr

/-- A request record whose window lies over a host object and that waits for the host (R253, R386, R388). -/
structure Parked where
  /-- [model number] Identifier of its host transfer. -/
  id : Nat
  /-- [-; R216] Slot of its flit. -/
  slot : Option Nat
  /-- [16] Source node. -/
  src : Nat
  /-- [12; R253] Window. -/
  win : Nat
  /-- [bytes] The record. -/
  bytes : List Byte
  /-- [1; R391] Its host read has been issued. -/
  sent : Bool := false
  deriving DecidableEq, Repr

/-- A fabric flit on its way to a link (R256, R258). -/
structure FabFlit where
  /-- [6; R217] TYPE: `FAB_REQ` or `FAB_RSP`. -/
  ftype : Nat
  /-- [-; R216] Slot, none for the plain domain. -/
  slot : Option Nat
  /-- [16; R216] DST. -/
  dst : Nat
  /-- [8; R247] Member path of its records. -/
  member : Nat
  /-- [16; R216] SRC. -/
  src : Nat
  /-- [240 bytes; R247] Payload. -/
  payload : List Byte
  deriving DecidableEq, Repr

/-- The fabric engine. -/
structure Fab where
  /-- [4096; R243; spec FREE] Windows. -/
  wins : Tbl Win := {}
  /-- [16384; R245; spec FREE] Remote windows. -/
  rwins : Tbl Rwin := {}
  /-- [262144; R266; spec empty] Outstanding records. -/
  outs : List OutRec := []
  /-- [flits; R242; spec empty] Fabric flits this die addressed to itself, oldest first. -/
  loop : List FabFlit := []
  /-- [flits; R258; spec empty] Fabric flits waiting for an allowed link to be UP, oldest first. -/
  waiting : List FabFlit := []
  /-- [20; R266; spec 0] Next TID tried. -/
  nextTid : Nat := 0
  /-- [list; R266; spec empty] TIDs of timed-out records and when they may be reused. -/
  coolTids : List (Nat × Nat) := []
  /-- [1048576; R260; spec empty] SENT per pair. -/
  sent : List (PairKey × Tally) := []
  /-- [1048576; R260; spec empty] APPLIED per pair. -/
  applied : List (PairKey × Tally) := []
  /-- [4096; R261; spec empty] Held flags. -/
  held : List Held := []
  /-- [records; R243; spec empty] Records past their check that wait for the host, oldest first. -/
  parked : List Parked := []
  /-- [256; R265; spec empty] LOST marks. -/
  lost : List PairKey := []
  /-- [accesses; R246 R266; spec empty] Accesses of the hub network that wait for issue, oldest first. -/
  apWait : List ApReq := []
  /-- [1; R269; spec 0] READY. -/
  ready : Bool := false
  /-- [16; R269; spec 0] NODE. -/
  node : Nat := 0
  /-- [8; R269; spec 0] MEMBER. -/
  member : Nat := 0
  /-- [4; R269; spec 0] OFFSET_BITS. -/
  offBits : Nat := 0
  /-- [16; R269; spec 0] MAP_GEN. -/
  mapGen : Nat := 0
  /-- [16; R257; spec 0] The lead's MAP_GEN last heard. -/
  leadMapGen : Nat := 0
  /-- [16; R270; spec 0] RTSEL. -/
  rtsel : Nat := 0
  /-- [8; R270; spec 0] MRSEL. -/
  mrsel : Nat := 0
  /-- [65536; R270; spec invalid] Route table. -/
  routes : Tbl Route := {}
  /-- [256; R270; spec invalid] Member route table. -/
  mroutes : Tbl Route := {}
  /-- [2; R271; spec 0] TCLR_RES. -/
  tclrRes : Nat := 0
  /-- [8 x 16; R271; spec 0] Error counts LATE_RSP, NO_ROUTE, DENIED, TIMEOUTS, HOLD_RESENDS, TALLY_EXPIRED, FORMAT,
  PARSE_END. -/
  errs : Tbl Nat := {}
  /-- [65 x 16; R271; spec 0] LAST_LOST per slot (64 plain). -/
  lastLost : Tbl Nat := {}
  deriving DecidableEq, Repr

/-! ## Collectives (10_collectives) -/

/-- Where a step of a run stands (R308, R322). -/
inductive StepStage where
  | waiting | started | completed
  deriving DecidableEq, Repr

/-- A step's run state (R312 to R322). -/
structure StepRun where
  /-- [-; R308; spec waiting] Stage. -/
  stage : StepStage := .waiting
  /-- [1; R343; spec 0] Its registered wait has been met. -/
  waitMet : Bool := false
  /-- [40; R322; spec 0] Blocks processed. -/
  blocks : Nat := 0
  /-- [64; R315; spec 0] SENT since load. -/
  sent : Nat := 0
  /-- [64; R315; spec 0] FREED since load. -/
  freed : Nat := 0
  /-- [64; R315; spec 0] FREED_last received. -/
  freedLast : Nat := 0
  /-- [64; R315; spec 0] FREED at the last CREDIT entry sent. -/
  freedSent : Nat := 0
  /-- [64; R315; spec 0] When the last CREDIT entry was sent, ns. -/
  creditAt : Nat := 0
  /-- [flits; R314 R315; spec empty] Buffered flits: RUN, FIRST, data bytes not yet used by a block. -/
  buf : List (Nat × Nat × List Byte) := []
  /-- [1; R279; spec 0] A block without a length ended its record: buffered bytes are passed over up to the next header that
  begins a record. -/
  badRest : Bool := false
  /-- [blocks; R279; spec 0] Blocks of such a record that are still to be taken as invalid. -/
  lost : Nat := 0
  /-- [bytes; R317; spec empty] Packed bytes not yet sent in a flit. -/
  txBytes : List Byte := []
  /-- [list; R312; spec empty] Offsets in txBytes at which block headers begin. -/
  txHeads : List Nat := []
  /-- [64; R317; spec 0] When a block last joined, ns. -/
  txAt : Nat := 0
  /-- [64; R323 R324; spec 0] Since when it holds a packed block without credit, ns + 1, 0 when it does not. -/
  stallAt : Nat := 0
  /-- [64; R324; spec 0] When the step last got a block, ns. -/
  activeAt : Nat := 0
  deriving DecidableEq, Repr

/-- A plan slot (R304, R305, R309). -/
structure Plan where
  /-- [24; R304; spec 1] Generation. -/
  gen : Nat := 1
  /-- [1; R304; spec 0] A plan is loaded. -/
  loaded : Bool := false
  /-- [1; R304; spec 0] The slot is spent. -/
  spent : Bool := false
  /-- [11; R304; spec 0] Owning slice. -/
  slice : Nat := 0
  /-- [6; R309; spec 0] Domain slot. -/
  dslot : Nat := 0
  /-- [header words; R305; spec empty] Descriptor header. -/
  header : List (BitVec 64) := []
  /-- [steps of 8 words; R306; spec empty] Steps. -/
  steps : List (List (BitVec 64)) := []
  /-- [32 x 4; R309; spec 0] Entries of IN, OUT, RESID, STATS plus 1, 0 none. -/
  objs : List Nat := []
  /-- [list; R309; spec empty] Peer node recorded per global link. -/
  peers : List (Nat × Nat) := []
  /-- [20; R309; spec 0] First private fence. -/
  fence0 : Nat := 0
  /-- [8; R309; spec 0] Private fences. -/
  fences : Nat := 0
  /-- [1; R321; spec 0] Running. -/
  running : Bool := false
  /-- [-; R321; spec 0] The `PLAN_RUN` command: slice x 2^18 + queue, and its sequence number. -/
  runQ : Nat := 0
  /-- [48; R321; spec 0] Sequence number of the command that runs it. -/
  runSeq : Nat := 0
  /-- [64; R321; spec 0] RUN. -/
  run : BitVec 64 := 0
  /-- [1; R314; spec 0] It has run since it was loaded, so RUN is a current run. -/
  ran : Bool := false
  /-- [2; R321; spec 0] Replacement IN and OUT entries plus 1, 0 none. -/
  repl : Nat × Nat := (0, 0)
  /-- [64; R323; spec 0] Start of the run, ns. -/
  runAt : Nat := 0
  /-- [8; R324; spec 0] First failure status of the run, 0 none. -/
  fail : Nat := 0
  /-- [8; R361; spec 0] Its detail. -/
  failDetail : Nat := 0
  /-- [steps; R322; spec waiting] Step run states. -/
  sruns : Tbl StepRun := {}
  /-- [R302; spec 0] Counters of the run. -/
  stats : Stats := {}

  /-- [64; R323; spec 0] CREDIT_STALL. -/
  creditStall : Nat := 0
  /-- [64; R323; spec 0] WIRE_BYTES. -/
  wireBytes : Nat := 0
  /-- [64; R323; spec 0] FLITS. -/
  flits : Nat := 0
  /-- [2; R327; spec 0] Hint last sent for the run. -/
  hint : Nat := 0
  deriving DecidableEq, Repr

/-- The crossing plan executor. -/
structure Col where
  /-- [256; R304; spec empty] Plan slots. -/
  plans : Tbl Plan := {}
  /-- [64; R289; DC 3: 0] Seed of the generators' last reseed. -/
  genSeed : BitVec 64 := 0
  /-- [512 x 64; R289; DC 3: 0] Draws of each transmit sliver's generator since then. -/
  gens : Tbl Nat := {}
  deriving DecidableEq, Repr

/-! ## Synchronisation (11_sync_deadlock) -/

/-- A sync object (R331). -/
structure SyncObj where
  /-- [2; R331; spec FREE] KIND. -/
  kind : SyncKind := .free
  /-- [64; R331; spec 0] VALUE. -/
  value : BitVec 64 := 0
  /-- [1; R331; spec 0] REGRESS. -/
  regress : Bool := false
  /-- [1; R331; spec 0] OVERFLOW. -/
  overflow : Bool := false
  /-- [1; R331; spec 0] BROKEN. -/
  broken : Bool := false
  /-- [1; R331; spec 0] FORCED. -/
  forced : Bool := false
  /-- [model field; R347; spec 0] The value it holds was written by `FORCE` (log 11). -/
  byForce : Bool := false
  /-- [9; R331; spec 0] PLAN. -/
  plan : Nat := 0
  /-- [2; R331; spec 0] NOTIFY. -/
  notify : Nat := 0
  /-- [1; R331; spec 0] ARMED. -/
  armed : Bool := false
  /-- [64; R331; spec 0] THRESH. -/
  thresh : BitVec 64 := 0
  /-- [32; R331; spec 0] NTARGET handle. -/
  ntHandle : BitVec 32 := 0
  /-- [40; R331; spec 0] NTARGET offset. -/
  ntOff : Nat := 0
  /-- [11; R331; spec 0] VECTOR. -/
  vector : Nat := 0
  /-- [1; R332 R337; spec 0] Orphaned: becomes FREE when its waiters and grants are gone. -/
  freeing : Bool := false
  deriving DecidableEq, Repr

/-- Who waits (R343). -/
inductive Waiter where
  | cmd (slice queue seq : Nat)
  | step (plan index : Nat)
  deriving DecidableEq, Repr

/-- A registered wait (R343). -/
structure Wait where
  /-- [-] Waiter. -/
  who : Waiter
  /-- [20; R330] Global object index. -/
  obj : Nat
  /-- [1] TAKE rather than WAIT_GE. -/
  take : Bool
  /-- [64; R334] Threshold. -/
  value : BitVec 64
  /-- [64; R345] Registered at, ns. -/
  at_ : Nat
  deriving DecidableEq, Repr

/-- A grant entry (R339). -/
structure Grant where
  /-- [8; R339; spec 1] Generation. -/
  gen : Nat := 1
  /-- [1; R339; spec 0] In use. -/
  used : Bool := false
  /-- [1; R339; spec 0] Spent. -/
  spent : Bool := false
  /-- [11; R339; spec 0] Owner slice. -/
  owner : Nat := 0
  /-- [20; R339; spec 0] First object of the owner. -/
  first : Nat := 0
  /-- [17; R339; spec 0] Count. -/
  count : Nat := 0
  /-- [11; R339; spec 0] Grantee slice. -/
  grantee : Nat := 0
  /-- [1; R339; spec 0] WAIT right. -/
  wait : Bool := false
  /-- [1; R339; spec 0] SIGNAL right. -/
  signal : Bool := false
  deriving DecidableEq, Repr

/-- A host notification write waiting for its translation (R342, R388). -/
structure Notice where
  /-- [11] Slice. -/
  slice : Nat
  /-- [64] Address. -/
  addr : Nat
  /-- [16 bytes] Record. -/
  bytes : List Byte
  /-- [11] MSI-X vector sent after it, none when NOTIFY has no MSI-X. -/
  vector : Option Nat
  deriving DecidableEq, Repr

/-- The sync engine. -/
structure Syn where
  /-- [1048576; R331; spec FREE] Objects by global index. -/
  objs : Tbl SyncObj := {}
  /-- [65536; R343; spec empty] Registered waits, in registration order; behind them the waits that found the table full. -/
  waits : List Wait := []
  /-- [model field; R342 R389; spec empty] Host notification writes that wait for a translation, oldest first. -/
  notices : List Notice := []
  /-- [65536; R339; spec free] Grants. -/
  grants : Tbl Grant := {}
  /-- [1; R348; spec 0] READY. -/
  ready : Bool := false
  /-- [16384; R343 R348; spec empty] Objects cached, most recently used first. -/
  cache : List Nat := []
  /-- [16; R348; spec 0] PIN_HOLDS. -/
  pinHolds : Nat := 0
  /-- [1; R348; spec 0] ESCALATED. -/
  escalated : Bool := false
  /-- [7; R348; spec 5] DL_WINDOW. -/
  window : Nat := 5
  /-- [1; R348; spec 1] BREAK_EN. -/
  breakEn : Bool := true
  /-- [11; R348; spec 0] SYN_SLSEL. -/
  slsel : Nat := 0
  /-- [3; R348; spec 0] SYN_SLRES. -/
  slres : Nat := 0
  /-- [64; R348; spec 0] SYN_DL_STAT. -/
  dlStat : BitVec 64 := 0
  /-- [64; R349; spec 0] SYN_DBG_SEL. -/
  dbgSel : BitVec 64 := 0
  /-- [64; R349; spec 0] SYN_DBG_DATA. -/
  dbgData : BitVec 64 := 0
  /-- [32; R349; spec 0] SYN_DBG_RES. -/
  dbgRes : BitVec 32 := 0
  /-- [64; R345; spec 0] Last change of any graph member, per object: ns. -/
  changedAt : Tbl Nat := {}
  /-- [64; R345; spec 0] Time of the last scan, ns. -/
  scanAt : Nat := 0
  /-- [lists; R345; spec empty] Cycles already reported while BREAK_EN was 0, as waits' objects. -/
  reported : List (List Nat) := []
  /-- [4 x 64; R346; spec 0] Last progress of the queue manager, sync engine, fabric engine and plan executor, ns. -/
  progressAt : Tbl Nat := {}
  deriving DecidableEq, Repr

/-! ## Host link, sites, bridges (13_host_chiplets) -/

/-- A translation cache entry (R388). -/
structure Xlat where
  /-- [20; R388] PASID. -/
  pasid : BitVec 20
  /-- [64; R388] Untranslated base. -/
  base : Nat
  /-- [-; R388] Size in bytes. -/
  size : Nat
  /-- [64; R388] Translated base. -/
  trans : Nat
  /-- [1; R388] Read permission. -/
  rd : Bool
  /-- [1; R388] Write permission. -/
  wr : Bool
  deriving DecidableEq, Repr

/-- A host transfer in flight (R392). -/
structure Xfer where
  /-- [model number] Identifier. -/
  id : Nat
  /-- [-] Owning command. -/
  slice : Nat
  /-- [-] Its queue. -/
  queue : Nat
  /-- [-] Its sequence number. -/
  seq : Nat
  /-- [20] PASID. -/
  pasid : BitVec 20
  /-- [64] Untranslated address. -/
  addr : Nat
  /-- [32] Length in bytes. -/
  len : Nat
  /-- [1] Write. -/
  write : Bool
  /-- [1; R393] Abandoned. -/
  abandoned : Bool := false
  deriving DecidableEq, Repr

/-- An invalidation draining (R392). -/
structure Inval where
  /-- [5; R392] ITAG. -/
  itag : Nat
  /-- [list; R392] Transfers counted. -/
  xfers : List Nat
  /-- [64; R393] Squash time, ns. -/
  due : Nat
  deriving DecidableEq, Repr

/-- A page-request group (R390). -/
structure PageGroup where
  /-- [9; R390] Group. -/
  group : Nat
  /-- [20; R390] PASID. -/
  pasid : BitVec 20
  /-- [52; R390] Page. -/
  page : Nat
  /-- [1; R390] Write permission needed. -/
  write : Bool
  /-- [64; R390] Timeout, ns. -/
  due : Nat
  /-- [1; R390] It has been answered, and its translation has been requested again. -/
  retried : Bool := false
  /-- [1; 13 Coincidences] Its slice has been reset: the response is discarded. -/
  void : Bool := false
  deriving DecidableEq, Repr

/-- A site access window (R400). -/
structure SiteWin where
  /-- [1; R400; spec 0] Set. -/
  set : Bool := false
  /-- [2; R408; spec 0] KIND. -/
  kind : Nat := 0
  /-- [2; R408; spec 0] STACK. -/
  stack : Nat := 0
  /-- [16; R408; spec 0] BASE. -/
  base : Nat := 0
  /-- [17; R408; spec 0] SIZE. -/
  size : Nat := 0
  /-- [12; R400; spec 0] KID. -/
  kid : Nat := 0
  /-- [1; R408; spec 0] READ. -/
  rd : Bool := false
  /-- [1; R408; spec 0] WRITE. -/
  wr : Bool := false
  deriving DecidableEq, Repr

/-- A chiplet site (R395 to R402). -/
structure Site where
  /-- [3; R400; spec EMPTY] STATE. -/
  state : SiteState := .empty
  /-- [4; R400; spec 0] CAUSE. -/
  cause : Nat := 0
  /-- [1; R407; spec 0] IN_SLOT. -/
  inSlot : Bool := false
  /-- [6; R407; spec 0] DSLOT. -/
  dslot : Nat := 0
  /-- [16; R400; spec empty] Windows. -/
  wins : Tbl SiteWin := {}
  /-- [8; R407; spec 0] ADMISSIONS. -/
  admissions : Nat := 0
  /-- [384; R395; spec 0] Admission digest. -/
  digest : BitVec 384 := 0
  /-- [3; R395; spec 0] Admission step awaiting a response: 1 `GET_VERSION` to 6 `GET_MEASUREMENTS`, 0 none. -/
  step : Nat := 0
  /-- [2; R397; spec 0] Sendings of the present request. -/
  sends : Nat := 0
  /-- [64; R397; spec 0] When the present request times out, ns. -/
  due : Nat := 0
  /-- [5; R397; spec 0] The chiplet's CT exponent, once capabilities are answered. -/
  ctExp : Option Nat := none
  /-- [256; R395; spec 0] Nonce drawn for the measurements. -/
  nonce : BitVec 256 := 0
  /-- [2 x 384; R395; spec none] Leaf key of the chain accepted. -/
  leafKey : Nat × Nat := (0, 0)
  /-- [1; R395; spec 0] The hub reports the link active. -/
  linkUp : Bool := false
  /-- [1; R398; spec 0] The admission running follows a suspension, compared with the digest held. -/
  was : Bool := false
  deriving DecidableEq, Repr

/-- Host link, sites and bridges. -/
structure Hst where
  /-- [1; R388; spec 0] ATS enabled. -/
  ats : Bool := false
  /-- [1; R389; spec 0] PRI enabled. -/
  pri : Bool := false
  /-- [1; R390; spec 0] Response Failure seen: no page request until PRI is reset. -/
  priBlocked : Bool := false
  /-- [16384; R388; spec empty] Translation cache, most recently used first. -/
  xlat : List Xlat := []
  /-- [1024; R389; spec empty] Translation Requests outstanding: PASID, page, write needed. -/
  xreqs : List (BitVec 20 × Nat × Bool) := []
  /-- [4096; R390; spec empty] Page groups. -/
  groups : List PageGroup := []
  /-- [transfers; R392; spec empty] Host transfers in flight. -/
  xfers : List Xfer := []
  /-- [model field] Next transfer number. -/
  nextXfer : Nat := 0
  /-- [32; R392; spec empty] Invalidations draining. -/
  invals : List Inval := []
  /-- [7; R407; spec 0x64] PRQ_TIMEOUT. -/
  prqTimeout : Nat := 0x64
  /-- [16; R407; spec 0] SQUASHES. -/
  squashes : Nat := 0
  /-- [14; R407; spec 0] LATE_CPL. -/
  lateCpl : Nat := 0
  /-- [65 streams; R380 R383; spec none] Secure IDE streams: stream, RID associated. -/
  ide : List (Nat × Nat) := []
  /-- [8; R497; DC 5: 0] MCTP endpoint ID. -/
  eid : Nat := 0
  /-- [64 streams; R380; spec none] IDE streams with keys programmed. -/
  ideKeys : List Nat := []
  /-- [8; R400; spec EMPTY] Sites. -/
  sites : Tbl Site := {}
  /-- [64; R408; spec 0] STK_SWK_RANGE. -/
  swkRange : BitVec 64 := 0
  /-- [3; R408; spec 0] STK_SWK_RES. -/
  swkRes : Nat := 0
  /-- [host memory outside the block; log 6: 0] Host bytes by PASID x 2^64 + IOVA, as last transferred. -/
  mem : Tbl Byte := {}
  /-- [2; R407; spec ELECTING] STK_GROUP.STATE. -/
  group : GroupState := .electing
  /-- [3; R407; spec 0] LEAD_POS. -/
  leadPos : Nat := 0
  /-- [64; R406; spec 0] The lead's serial of the group record. -/
  leadSerial : BitVec 64 := 0
  /-- [8; R407; spec 0] PRESENT. -/
  present : BitVec 8 := 0
  /-- [8; R407; spec 0] LOST. -/
  lost : BitVec 8 := 0
  /-- [16; R407; spec 0] ELECTIONS. -/
  elections : Nat := 0
  /-- [8 hubs; R405; spec empty] Hellos heard: position, serial, PKG_SIZE, life-cycle code. -/
  hellos : List (Nat × BitVec 64 × Nat × Nat) := []
  /-- [8 x 64; R404; spec 0] When each hub was last heard, ns. -/
  heardAt : Tbl Nat := {}
  /-- [64; R405; spec 0] When the election closes, ns. -/
  electBy : Nat := 0
  /-- [1; R405; spec 0] Kindling has completed and hellos are sent. -/
  electing : Bool := false
  /-- [set of positions; R406; spec empty] After a warm recovery, the dies that have not been heard from again. -/
  rejoinWait : List Nat := []
  /-- [64; R404; spec 0] Last heartbeat, ns. -/
  beatAt : Nat := 0
  deriving DecidableEq, Repr

/-! ## Cipher engine (14_cipher_engine) -/

/-- A register page (R410, R420, R421). -/
structure CePage where
  /-- [2; R410; spec FREE] STATE. -/
  state : PageState := .free
  /-- [11; R421; spec 0] SLICE. -/
  slice : Nat := 0
  /-- [256; R412; spec 0] Key share 0. -/
  k0 : BitVec 256 := 0
  /-- [256; R412; spec 0] Key share 1. -/
  k1 : BitVec 256 := 0
  /-- [256; R412; spec 0] Staged key bytes. -/
  staged : BitVec 256 := 0
  /-- [33; R417; spec 0] Invocations. -/
  invs : Nat := 0
  /-- [37; R417; spec 0] Blocks charged. -/
  blks : Nat := 0
  /-- [96; R414; spec 0] NHW. -/
  nhw : BitVec 96 := 0
  /-- [8; R421; spec 0] AAD_LEN. -/
  aadLen : Nat := 0
  /-- [6; R421; spec 0x20] INV_LOG2. -/
  invLog2 : Nat := 0x20
  /-- [96; R421; spec 0] CE_IV. -/
  iv : BitVec 96 := 0
  /-- [3; R421; spec 0] CE_KRES. -/
  kres : Nat := 0
  /-- [11; R421; spec 0] CE_PG_CFG. -/
  pgCfg : Nat := 0
  /-- [3; R421; spec 0] CE_PG_RES. -/
  pgRes : Nat := 0
  /-- [1; R410; spec 0] An UNASSIGN waits for the page's commands. -/
  leaving : Bool := false
  deriving DecidableEq, Repr

/-- The cipher engine. -/
structure Ce where
  /-- [64; R409; spec FREE] Pages. -/
  pages : Tbl CePage := {}
  /-- [1; R421; spec 0] CE_CTL.LOCK. -/
  lock : Bool := false
  /-- [2; R421; spec 0b10] CE_CTL.DUMMY. -/
  dummy : BitVec 2 := 2
  deriving DecidableEq, Repr

/-! ## Counters and witness (15_counters_witness) -/

/-- A watch window (R430 to R434). -/
structure Watch where
  /-- [1; R439; spec 0] Armed. -/
  armed : Bool := false
  /-- [2; R374; spec 0] MODE. -/
  mode : Nat := 0
  /-- [11; R439; spec 0] Arming slice. -/
  slice : Nat := 0
  /-- [22; R430; spec 0] Object entry held. -/
  obj : Nat := 0
  /-- [2; R434; spec 0] Object kind. -/
  kind : Nat := 0
  /-- [12; R434; spec 0] KID. -/
  kid : Nat := 0
  /-- [48; R434; spec 0] Range base. -/
  base : Nat := 0
  /-- [40; R430; spec 0] LEN. -/
  len : Nat := 0
  /-- [64; R434; spec 0] Armed at, ns. -/
  armedAt : Nat := 0
  /-- [64 lines; R431 R433; spec empty] The tap buffer's drain: when its last line is absorbed, in thirds of a ns. -/
  busyUntil : Nat := 0
  /-- [64; R434; spec 0] Lines tapped. -/
  tapped : Nat := 0
  /-- [64; R434; spec 0] Lines dropped. -/
  dropped : Nat := 0
  /-- [40; R433; spec 0] NEXT. -/
  next : Nat := 0
  /-- [1; R433; spec 0] GAP. -/
  gap : Bool := false
  /-- [1; R433; spec 0] REWRITTEN. -/
  rewritten : Bool := false
  /-- [1; R433; spec 0] DROPPED. -/
  droppedFlag : Bool := false
  /-- [bytes; R433; spec empty] Bytes digested so far, in order. -/
  digested : List Byte := []
  /-- [64; R434; spec 0] Elements. -/
  elements : Nat := 0
  /-- [64; R434; spec 0] Zeros. -/
  zeros : Nat := 0
  /-- [32; R434; spec 0] NaNs. -/
  nans : Nat := 0
  /-- [32; R434; spec 0] Infinities. -/
  infs : Nat := 0
  /-- [64; R434; spec 0] Subnormals. -/
  subs : Nat := 0
  /-- [32; R434; spec +inf] Least finite element. -/
  least : BitVec 32 := 0x7F800000
  /-- [32; R434; spec -inf] Greatest finite element. -/
  greatest : BitVec 32 := 0xFF800000
  /-- [64; R432; spec 0] SUM, binary64. -/
  sum : BitVec 64 := 0
  /-- [64; R432; spec 0] SUMSQ, binary64. -/
  sumsq : BitVec 64 := 0
  /-- [256 x 32; R432; spec 0] Histogram. -/
  hist : Tbl Nat := {}
  deriving DecidableEq, Repr

/-- Counters and witness. -/
structure Tel where
  /-- [16; R430; spec disarmed] Watch windows. -/
  watch : Tbl Watch := {}
  /-- [8 x 64; R423; spec 0] Light counters 2 to 7 (0 and 1 are read from `Sys`). -/
  light : Tbl (BitVec 64) := {}
  /-- [20; R439; spec 0] TEL_G_SEL. -/
  gsel : Nat := 0
  /-- [64 each; R424; spec 0] Privileged counters below index 0x1_0000. -/
  priv : Tbl (BitVec 64) := {}
  /-- [1; R435; spec 0] A unit was throttled in this 1 ms interval. -/
  throttled : Bool := false
  /-- [16 x 32; R424; spec 0] Times each watch window was armed. -/
  intervalAt : Nat := 0
  deriving DecidableEq, Repr

/-! ## Event recorder (16_event_recorder) -/

/-- A record (R440). -/
structure Rec where
  /-- [16; R451] CODE. -/
  code : Nat
  /-- [4; R441] SEVERITY. -/
  severity : Nat
  /-- [12; R442] SOURCE. -/
  source : Nat
  /-- [32; R443] SEQ. -/
  seq : BitVec 32
  /-- [40; R444] SECONDS. -/
  seconds : BitVec 40
  /-- [24; R444] CYCLES. -/
  cycles : BitVec 24
  /-- [128; R451] PAYLOAD. -/
  payload : BitVec 128
  deriving DecidableEq, Repr

/-- A token bucket and its unreported drops (R447, R448). -/
structure Bucket where
  /-- [8; R447; spec full] Tokens taken from a full bucket. -/
  taken : Nat := 0
  /-- [64; R447; spec 0] When the first of those tokens was taken, ns. -/
  base : Nat := 0
  /-- [-; R447; spec 0] Tokens returned since then. -/
  returned : Nat := 0
  /-- [32; R447; spec 0] Unreported drops. -/
  drops : Nat := 0
  /-- [40; R451; spec 0] SECONDS of the first unreported drop. -/
  firstSec : BitVec 40 := 0
  /-- [64; R448; spec 0] When the first unreported drop fell, ns. -/
  firstAt : Nat := 0
  deriving DecidableEq, Repr

/-- The event recorder. -/
structure Recd where
  /-- [32; R443; spec 0] SEQ the next record takes. -/
  nextSeq : BitVec 32 := 0
  /-- [4096 slots; R445; spec empty] Circulating area by slot. -/
  circ : Tbl (Option Rec) := {}
  /-- [13; R452; spec 0] VALID. -/
  valid : Nat := 0
  /-- [256 slots; R445 R446; DC 5: empty] Permanent area: a record, or none for a slot whose CRC fails. -/
  perm : List (Option Rec) := []
  /-- [16; R446; spec empty] Records awaiting programming. -/
  permQ : List Rec := []
  /-- [8; R452; spec 8] RATE. -/
  rate : Nat := 8
  /-- [8; R452; spec 0x20] BURST. -/
  burst : Nat := 0x20
  /-- [13; R452; spec 0] REC_SEL. -/
  sel : Nat := 0
  /-- [64; R452; spec 0] REC_DROPS. -/
  drops : BitVec 64 := 0
  /-- [codes; R447; spec full] Buckets per code. -/
  buckets : Tbl Bucket := {}
  /-- [list; R444; spec empty] Records raised before the battery-backed registers are loaded: code, source, payload,
  oldest first. -/
  early : List (Nat × Nat × BitVec 128) := []
  /-- [1; R444; spec 0] The battery-backed registers have been loaded at this power-on. -/
  loaded : Bool := false
  deriving DecidableEq, Repr

/-! ## Reset and recovery (17_reset_recovery) -/

/-- The reset controller. -/
structure Rst where
  /-- [2; R469; spec 0] PHASE, with the assertion hold kept apart. -/
  phase : RstPhase := .held
  /-- [3; R453; spec PORST] Level running. -/
  level : Level := .porst
  /-- [4; R453; spec POWER_ON] Source running. -/
  source : Source := .powerOn
  /-- [3; R457; spec 0] Last release step begun, 0 while held, 7 when released. -/
  step : Nat := 0
  /-- [4; R459; spec 0] Fencing step reached. -/
  fenceStep : Nat := 0
  /-- [64; R460; spec 0] Start of fencing step 2, ns. -/
  fenceAt : Nat := 0
  /-- [1; R462; spec 0] The running reset takes a dump on request. -/
  wantDump : Bool := false
  /-- [64; R465; spec 0] Assertion, ns. -/
  assertAt : Nat := 0
  /-- [64; R457; spec 0] When the source ended, from which the assertion hold is counted, ns. -/
  sourceEnd : Nat := 0
  /-- [stacks; R459; spec empty] Stacks whose self-refresh acknowledgement is awaited. -/
  srWait : List Nat := []
  /-- [1; R465; spec 0] The recovery already escalated once for this source. -/
  escalated : Bool := false
  /-- [4; R469; spec 0x1] LAST_SOURCE. -/
  lastSource : Nat := 1
  /-- [3; R469; spec 1] LAST_LEVEL. -/
  lastLevel : Nat := 1
  /-- [1; R469; spec 0] FORCED_FENCE. -/
  forced : Bool := false
  /-- [11; R469; spec 0x001] SOURCES. -/
  sources : BitVec 11 := 1
  /-- [16; R469; spec 0] WARM_COUNT. -/
  warmCount : BitVec 16 := 0
  /-- [16; R469; spec 0] CORE_COUNT. -/
  coreCount : BitVec 16 := 0
  /-- [8; R469; spec 0] DUMPS_LOST. -/
  dumpsLost : Nat := 0
  /-- [32; R469; spec 0] LAST_RECOVERY_MS. -/
  lastMs : Nat := 0
  /-- [1; R469; spec 0] LOCK. -/
  lock : Bool := false
  /-- [1; R469; spec 1] WARM_EN. -/
  warmEn : Bool := true
  /-- [1; R469; spec 1] HOST_REQ_EN. -/
  hostReqEn : Bool := true
  /-- [1; R469; spec 1] DUMP_EN. -/
  dumpEn : Bool := true
  /-- [16; R469; spec 0] RST_DUMP_SEL.WORD. -/
  dumpSel : Nat := 0
  /-- [384 KiB; R463; spec empty] The held dump's 64-bit words. -/
  dump : List (BitVec 64) := []
  /-- [1; R469; spec 0] DUMP_HELD. -/
  dumpHeld : Bool := false
  /-- [64; R453; spec none] When the last fenced SYSRST_WARM with cause WATCHDOG or DEADLOCK began, ns. -/
  lastWarmAt : Option Nat := none
  deriving DecidableEq, Repr

/-! ## Life cycle and debug (18_lifecycle_debug) -/

/-- An operator anchor slot (R478). -/
inductive Anchor where
  | empty | valid (digest : BitVec 384) | wiped
  deriving DecidableEq, Repr

/-- Life cycle and debug. -/
structure Lc where
  /-- [32; R471; DC 5: 0] OTP state words ST_INTEGRATOR, ST_FIELDED, ST_RETURNED, ST_SCRAPPED. -/
  words : List (BitVec 32) := [0, 0, 0, 0]
  /-- [areas; R474; DC 5: clear] Record words programmed: targets pending or done. -/
  records : List Nat := []
  /-- [areas x 5; R474; DC 5: clear] Marks programmed per target, a mask with step k at bit k - 1. -/
  marks : Tbl Nat := {}
  /-- [1; R482; spec 0] PENDING. -/
  pending : Bool := false
  /-- [3; R482; spec 0] TARGET. -/
  target : Nat := 0
  /-- [3; R482; spec 0] STEP. -/
  step : Nat := 0
  /-- [1; R482; spec 0] LC_FAULT. -/
  fault : Bool := false
  /-- [1; R482; spec 0] DEBUG_OPEN. -/
  debugOpen : Bool := false
  /-- [1; R481; spec 0] An opening waits for the slots. -/
  opening : Bool := false
  /-- [7; R451 R481; spec 0] Slots that the opening retired. -/
  retired : Nat := 0
  /-- [1; R473; spec 0] The first step of the transition has begun. -/
  begun : Bool := false
  /-- [3; R474 R477; spec 0] The step that runs next, 0 none. -/
  next : Nat := 0
  /-- [2; R476 R477; spec 0] Attempts of the present step that failed. -/
  attempts : Nat := 0
  /-- [4 x 384; R478; DC 5: empty] Anchors. -/
  anchors : List Anchor := [.empty, .empty, .empty, .empty]
  /-- [4; R482; spec 0] LC_TRES. -/
  tres : Nat := 0
  /-- [3; R482; spec 0] LC_ARES. -/
  ares : Nat := 0
  /-- [3; R482; spec 0] LC_DRES. -/
  dres : Nat := 0
  /-- [512; R480; spec 0] LC_CHAL. -/
  chal : BitVec 512 := 0
  /-- [1; R480; spec 0] The challenge is live. -/
  chalLive : Bool := false
  /-- [768; R482; spec 0] LC_RESP. -/
  resp : BitVec 768 := 0
  /-- [1; R474; DC 5: 0] MAKER_LOCK programmed. -/
  makerLock : Bool := false
  /-- [1; R474; DC 5: 0] Integrator fields wiped. -/
  integWiped : Bool := false
  /-- [1; R474; DC 5: 0] Trims wiped. -/
  trimWiped : Bool := false
  /-- [64; R129; DC 5: 0] Device serial. -/
  serial : BitVec 64 := 0
  /-- [384; R129; DC 5: 0] D_FUSE. -/
  dFuse : BitVec 384 := 0
  deriving DecidableEq, Repr

/-! ## Power and bring-up (19_power_bringup) -/

/-- Power, droop and thermal control. -/
structure Pwr where
  /-- [3; R498; spec 5] OPP. -/
  opp : Nat := 5
  /-- [3; R483; spec none] A higher point whose voltage acknowledgement is awaited. -/
  raising : Option Nat := none
  /-- [3; R495 R503; DC 5: 0] Ceiling, BOOT_BB_4. -/
  ceil : Nat := 0
  /-- [8; R503; DC 5: 0] Trips counted, BOOT_BB_4. -/
  tripsCounted : Nat := 0
  /-- [40; R503; DC 5: 0] Operating seconds of the first trip counted. -/
  firstTrip : BitVec 40 := 0
  /-- [16; R503; DC 5: 0] Persistent limit, BOOT_BB_5. -/
  pkgLimit : Nat := 0
  /-- [8 x 4; R498; spec 15] Site levels below 15: 15 minus the level is kept. -/
  siteUp : Tbl Nat := {}
  /-- [8 x 64; R484; spec empty] Sites whose acknowledgement is awaited and until when. -/
  siteWait : List (Nat × Nat) := []
  /-- [1; R498; spec 0] THROTTLED. -/
  throttled : Bool := false
  /-- [1; R498; spec 0] THERM_WARN. -/
  thermWarn : Bool := false
  /-- [1; R498; spec 0] THERM_TRIP. -/
  thermTrip : Bool := false
  /-- [1; R498; spec 0] VIN_FAULT. -/
  vinFault : Bool := false
  /-- [64; R494; spec 0] Since when every reading is below WARN - 5, ns. -/
  coolSince : Option Nat := none
  /-- [64; R496; spec none] Since when VIN is back in range, ns. -/
  vinOkSince : Option Nat := none
  /-- [64; R496; spec none] Since when VIN is out of range, ns. -/
  vinBadSince : Option Nat := none
  /-- [1; R498; spec 0] LOCK. -/
  lock : Bool := false
  /-- [3; R498; spec 0] RECOVERY_OPP. -/
  recoveryOpp : Nat := 0
  /-- [1; R498; spec 0] TEST_HOLD. -/
  testHold : Bool := false
  /-- [3; R498; spec 0] TEST_OPP. -/
  testOpp : Nat := 0
  /-- [4; R498; spec 0] TEST_LEVEL. -/
  testLevel : Nat := 0
  /-- [16; R498; spec 0] PKG_W. -/
  pkgW : Nat := 0
  /-- [16; R498; spec 0] SHARE_W. -/
  shareW : Nat := 0
  /-- [16; R498; spec 0] DEMAND_W. -/
  demandW : Nat := 0
  /-- [100 bits; R492; spec empty] Pacing history of the last intervals, newest first. -/
  pacing : List Bool := []
  /-- [16; R498; spec 0] VIN in 10 mV. -/
  vin : Nat := 0
  /-- [16; R498; spec 0] P of the last interval, 0.1 W. -/
  pW : Nat := 0
  /-- [16; R498; spec 0] STALE, one bit per stage. -/
  stale : BitVec 16 := 0
  /-- [16 x 64; R496; spec 0] Last answer of each stage, ns. -/
  stageAt : Tbl Nat := {}
  /-- [16; R498; spec 0] HOTTEST. -/
  hottest : Nat := 0
  /-- [8; R498; spec 0] TRIPS. -/
  trips : Nat := 0
  /-- [16; R485 R486; spec 0] Budget last accepted, 0 none. -/
  budget : Nat := 0
  /-- [64; R486; spec 0] When its lease lapses, 0 no lease, ns. -/
  budgetEnd : Nat := 0
  /-- [16; R501; DC 5: 0] PKG_LIMIT of the configuration in use. -/
  cfgLimit : Nat := 0
  /-- [16; R501; DC 5: 0] DEFAULT_W. -/
  defaultW : Nat := 0
  /-- [16; R501; DC 5: 0] FLOOR_W. -/
  floorW : Nat := 0
  /-- [8 x 16; R485; spec 0] Demands of the members, at the lead. -/
  demands : Tbl Nat := {}
  /-- [64; R485; spec 0] Last share received, ns. -/
  shareAt : Nat := 0
  /-- [4; R487; spec 0] Consecutive intervals with P at or below 0.9 S. -/
  lowRun : Nat := 0
  /-- [-; R493; spec 0] The hub clocks are halved by a droop. -/
  halved : Bool := false
  /-- [7; R493; spec 0] Intervals for which the loop holds the hub one point lower. -/
  hubHold : Nat := 0
  /-- [3; R493; spec 0] The point that hold keeps. -/
  hubHoldOpp : Nat := 0
  /-- [8 x 7; R493; spec 0] Intervals for which a site's level is held. -/
  siteHold : Tbl Nat := {}
  /-- [slots; R488; spec empty] Live `PHASE_HINT`s: slice's slot key, hint, until ns. -/
  hints : List (Nat × Nat × Nat) := []
  /-- [3 x 8; R494; spec 95, 105, 115] Thresholds WARN, TRIP, CRIT in degrees. -/
  therm : Nat × Nat × Nat := (95, 105, 115)
  /-- [16 stages; R496 R501; DC 5: none] PMBUS_MAP stages. -/
  stages : List (Nat × Nat × Nat) := []
  /-- [64; R486; spec 0] Last `PWR_REPORT`, ns. -/
  reportAt : Nat := 0
  /-- [64; R485; spec 0] Last reallocation, ns. -/
  reallocAt : Nat := 0
  /-- [64; R487; spec 0] Last interval end, ns. -/
  intervalAt : Nat := 0
  /-- [1; R494; spec 0] Stepping up waits for every reading to have been below WARN - 5 for 1 s. -/
  thermHold : Bool := false
  /-- [64; R486; spec 0] Light counter 7 at the last `PWR_REPORT`. -/
  reportThr : BitVec 64 := 0
  /-- [64; R492; spec 0] Credit stall of the plans at the last interval end, ns. -/
  stallSeen : Nat := 0
  deriving DecidableEq, Repr

/-- Kindling and the boot registers (R499 to R507). -/
structure Boot where
  /-- [3; R507; spec 0] PHASE. -/
  phase : Nat := 0
  /-- [3; R507; spec 0] FAULT. -/
  fault : Nat := 0
  /-- [2; R507; spec 0] CONFIG. -/
  config : Nat := 0
  /-- [32; R507; spec 0] CFG_SEQ. -/
  cfgSeq : Nat := 0
  /-- [1; R507; spec 0] VBAT_LOST. -/
  vbatLost : Bool := false
  /-- [1; R507; spec 0] FW_SLOT. -/
  fwSlot : Nat := 0
  /-- [1; R507; spec 0] UC_SLOT. -/
  ucSlot : Nat := 0
  /-- [10; R507; spec 0] SLIVERS_OFF. -/
  sliversOff : Nat := 0
  /-- [1; R507; spec 0] TRAIN_LOADED. -/
  trainLoaded : Bool := false
  /-- [1 + 32; R503; DC 5: 0] CFG_HINT, BOOT_BB_2. -/
  cfgHint : BitVec 64 := 0
  /-- [40; R503; DC 5: 0] OPSEC as copied to VBAT, BOOT_BB_0. -/
  bbOpsec : BitVec 40 := 0
  /-- [24; R503; DC 5: 0] PCYCLE, BOOT_BB_1. -/
  bbPcycle : BitVec 24 := 0
  /-- [4 x 384; R109 R129; DC 5: 0] D_ROM, D_FW, D_UCODE, D_CONFIG. -/
  digests : List (BitVec 384) := [0, 0, 0, 0]
  /-- [2 x 32; R129; DC 5: 0] Firmware and microcode security versions. -/
  versions : Nat × Nat := (0, 0)
  /-- [2 x 32; R504; DC 5: 0] Least security versions of firmware and microcode that OTP allows. -/
  minVersions : Nat × Nat := (0, 0)
  /-- [16 x 384; R501; DC 5: none] Chiplet anchors. -/
  anchors : List (BitVec 384) := []
  /-- [sequence; R505; DC 5: 0] SEQ of the newer training slot. -/
  trainSeq : Nat := 0
  /-- [1; R505; DC 5: 1] Which training slot is the newer. -/
  trainSlot : Nat := 1
  /-- [64; R505; spec 0] When the last training slot was written, ns + 1, 0 not since power-on. -/
  trainAt : Nat := 0
  /-- [1; R505; spec 0] A saved record changed since then. -/
  trainDirty : Bool := false
  /-- [64; R506; DC 5: full W1] VARIANT word 0. -/
  variant : BitVec 64 := 0x000003FF000207FF
  deriving DecidableEq, Repr

/-! ## The whole machine -/

/-- The state of one Worha instance. -/
structure State where
  /-- [queue; log 1; empty] Commands waiting, first in first out. -/
  pending : List Instr := []
  /-- [model field; log 2; empty] What the block has sent, newest first. -/
  out : List Out := []
  /-- Time, clocks, straps, pins. -/
  sys : Sys := {}
  /-- Domain slots. -/
  dom : Dom := {}
  /-- The Firebox. -/
  fbx : Fbx := {}
  /-- The queue manager and its slices. -/
  qm : Qm := {}
  /-- Sealed memory. -/
  msl : Msl := {}
  /-- Hearth gates, scrub, arbiters. -/
  hth : Hth := {}
  /-- Link ports. -/
  lnk : Lnk := {}
  /-- Fabric engine. -/
  fab : Fab := {}
  /-- Plan executor. -/
  col : Col := {}
  /-- Sync engine. -/
  syn : Syn := {}
  /-- Host link, sites, bridges. -/
  hst : Hst := {}
  /-- Cipher engine. -/
  ce : Ce := {}
  /-- Counters and witness. -/
  tel : Tel := {}
  /-- Event recorder. -/
  rcd : Recd := {}
  /-- Reset controller. -/
  rst : Rst := {}
  /-- Life cycle and debug. -/
  lc : Lc := {}
  /-- Damper. -/
  pwr : Pwr := {}
  /-- Kindling. -/
  boot : Boot := {}
  deriving DecidableEq, Repr

/-- The machine right after reset: PORST is asserted, nothing has been released (R453, R457; log 4). Every field stands
at the value its structure names. -/
def State.reset : State := {}

/-- Why the block stops with a fault. -/
inductive Fault where
  /-- No command of this block stops with a fault: the spec gives every row its effect. Never raised (safe). -/
  | none
  deriving DecidableEq, Repr

/-- Why a command is refused by the model. -/
inductive Refusal where
  /-- Raised by the dispatch arm of a command that has no meaning yet (safe: the run stops). -/
  | notModelled (mnemonic : String)
  deriving DecidableEq, Repr

end Sys2Proof.Machine
end

