-- ==== Sys2Proof/Machine/Ops.lean ====
section
/-! DEFINITION. Named operations over tables, time, outputs, free values and the commonest tables of the state. -/

namespace Sys2Proof

/-! ## Sparse tables -/

/-- The value listed for a key, or the default. -/
def Tbl.look {α : Type} (d : α) (k : Nat) : List (Nat × α) → α
  | [] => d
  | (a, b) :: r => if a = k then b else Tbl.look d k r

/-- Insert in ascending key order, replacing an entry of the same key. -/
def Tbl.ins {α : Type} (k : Nat) (v : α) : List (Nat × α) → List (Nat × α)
  | [] => [(k, v)]
  | (a, b) :: r => if k < a then (k, v) :: (a, b) :: r else if k = a then (k, v) :: r else (a, b) :: Tbl.ins k v r

/-- Remove a key. -/
def Tbl.del {α : Type} (k : Nat) : List (Nat × α) → List (Nat × α)
  | [] => []
  | (a, b) :: r => if a = k then Tbl.del k r else (a, b) :: Tbl.del k r

/-- Read a key; unlisted keys read the default. -/
def Tbl.get {α : Type} (t : Tbl α) (d : α) (k : Nat) : α := Tbl.look d k t.cells

/-- Write a key, keeping the canonical form: a value equal to the default is not listed. -/
def Tbl.set {α : Type} [DecidableEq α] (t : Tbl α) (d : α) (k : Nat) (v : α) : Tbl α :=
  if v = d then ⟨Tbl.del k t.cells⟩ else ⟨Tbl.ins k v t.cells⟩

/-- The canonical form: keys strictly rise and no listed value is the default (log 7). -/
def Tbl.wf {α : Type} [DecidableEq α] (t : Tbl α) (d : α) : Bool :=
  let rec go : List (Nat × α) → Bool
    | [] => true
    | [(_, b)] => b ≠ d
    | (a, b) :: (c, e) :: r => b ≠ d && a < c && go ((c, e) :: r)
  go t.cells

/-- The listed keys, ascending. -/
def Tbl.keys {α : Type} (t : Tbl α) : List Nat := t.cells.map Prod.fst

/-- Keep the listed entries that satisfy a test of key and value; the others go back to the default. -/
def Tbl.filter {α : Type} (t : Tbl α) (p : Nat → α → Bool) : Tbl α := ⟨t.cells.filter fun e => p e.1 e.2⟩

/-! ## Little-endian numbers -/

/-- The number of a little-endian byte string (R8). -/
def leNat : List Byte → Nat
  | [] => 0
  | b :: r => b.toNat + 256 * leNat r

/-- The `n` low bytes of a number, little-endian (R8). -/
def leBytes : Nat → Nat → List Byte
  | 0, _ => []
  | n + 1, v => BitVec.ofNat 8 v :: leBytes n (v / 256)

/-- The number of a big-endian byte string. -/
def beNat (l : List Byte) : Nat := l.foldl (fun a b => a * 256 + b.toNat) 0

/-- The `n` low bytes of a number, big-endian. -/
def beBytes (n v : Nat) : List Byte := (leBytes n v).reverse

/-- Bits `hi` to `lo` of a number. -/
def bits (v hi lo : Nat) : Nat := (v / 2 ^ lo) % 2 ^ (hi + 1 - lo)

/-- One bit of a number. -/
def bit (v i : Nat) : Bool := (v / 2 ^ i) % 2 = 1

/-- A Bool as a number. -/
def b2n (b : Bool) : Nat := if b then 1 else 0

/-- Bits `hi` to `lo` of a 64-bit word as a number. -/
def fld (w : BitVec 64) (hi lo : Nat) : Nat := bits w.toNat hi lo

/-- Concatenate fields from bit 0 upward: each is (width, value). -/
def packFields : List (Nat × Nat) → Nat
  | [] => 0
  | (w, v) :: r => v % 2 ^ w + 2 ^ w * packFields r

/-- Ceiling of log2. -/
def clog2 (n : Nat) : Nat := if n ≤ 1 then 0 else Nat.log2 (n - 1) + 1

/-- A line's bytes from offset 0. -/
def lineBytes (l : Line) : List Byte := leBytes 64 l.toNat

/-- The line of 64 bytes. -/
def lineOf (b : List Byte) : Line := BitVec.ofNat 512 (leNat b)

/-- The 512-bit mask of a byte mask. -/
def maskBits (m : BitVec 64) : Line :=
  (List.range 64).foldl (fun a i => if m.getLsbD i then a ||| ((0xFF : Line) <<< (8 * i)) else a) 0

/-- Merge the masked bytes of `new` into `old` (R163). -/
def mergeLine (old new : Line) (m : BitVec 64) : Line :=
  let k := maskBits m
  (old &&& ~~~k) ||| (new &&& k)

/-- A full byte mask. -/
def fullMask : BitVec 64 := BitVec.allOnes 64

namespace Machine

/-- What a meaning answers. -/
abbrev Res := Host.Outcome State Fault Refusal

/-! ## Time, outputs, free values -/

/-- Nanoseconds in a microsecond, a millisecond and a second. -/
def us : Nat := 1000
def ms : Nat := 1000000
def sec : Nat := 1000000000

/-- Powered nanoseconds (R6, R362). -/
def State.now (s : State) : Nat := s.sys.now

/-- Powered milliseconds. -/
def State.nowMs (s : State) : Nat := s.sys.now / ms

/-- Send something across the boundary (log 2). -/
def State.emit (s : State) (o : Out) : State := { s with out := o :: s.out }

/-- Answer a domain, epoch or power message. -/
def State.answer (s : State) (r : DomResult) (vals : List Nat := []) : State := s.emit (.dom r vals)

/-- Draw one free value of `w` bits (log 3). -/
def State.draw (s : State) (w : Nat) : BitVec w × State :=
  (Config.freeBits s.sys.freeCtr w, { s with sys := { s.sys with freeCtr := s.sys.freeCtr + 1 } })

/-- A clock other than KCLK runs: while it does not, its units accept no requests (R35). -/
def State.clkRuns (s : State) (c : Clock) : Bool := !s.sys.stopped.contains c

/-- A power domain is on (R36). -/
def State.pdOn (s : State) (p : Nat) : Bool := s.sys.pd.get .on p = .on

/-! ## Tables -/

def State.slot (s : State) (i : Nat) : Slot := s.dom.slots.get {} i
def State.setSlot (s : State) (i : Nat) (v : Slot) : State :=
  { s with dom := { s.dom with slots := s.dom.slots.set {} i v } }
def State.modSlot (s : State) (i : Nat) (f : Slot → Slot) : State := s.setSlot i (f (s.slot i))

def State.slice (s : State) (i : Nat) : Slice := s.qm.slices.get {} i
def State.setSlice (s : State) (i : Nat) (v : Slice) : State :=
  { s with qm := { s.qm with slices := s.qm.slices.set {} i v } }
def State.modSlice (s : State) (i : Nat) (f : Slice → Slice) : State := s.setSlice i (f (s.slice i))

def State.queue (s : State) (i q : Nat) : Queue := (s.slice i).queues.get {} q
def State.setQueue (s : State) (i q : Nat) (v : Queue) : State :=
  s.modSlice i fun l => { l with queues := l.queues.set {} q v }
def State.modQueue (s : State) (i q : Nat) (f : Queue → Queue) : State := s.setQueue i q (f (s.queue i q))

def State.obj (s : State) (i e : Nat) : ObjEntry := (s.slice i).objs.get {} e
def State.setObj (s : State) (i e : Nat) (v : ObjEntry) : State :=
  s.modSlice i fun l => { l with objs := l.objs.set {} e v }
def State.modObj (s : State) (i e : Nat) (f : ObjEntry → ObjEntry) : State := s.setObj i e (f (s.obj i e))

def State.kid (s : State) (k : Nat) : KidEntry := s.fbx.kids.get {} k
def State.setKid (s : State) (k : Nat) (v : KidEntry) : State :=
  { s with fbx := { s.fbx with kids := s.fbx.kids.set {} k v } }
def State.modKid (s : State) (k : Nat) (f : KidEntry → KidEntry) : State := s.setKid k (f (s.kid k))

def State.rgn (s : State) (r : Nat) : Region := s.msl.rgns.get {} r
def State.setRgn (s : State) (r : Nat) (v : Region) : State :=
  { s with msl := { s.msl with rgns := s.msl.rgns.set {} r v } }
def State.modRgn (s : State) (r : Nat) (f : Region → Region) : State := s.setRgn r (f (s.rgn r))

def State.hrg (s : State) (r : Nat) : HRange := s.hth.rngs.get {} r
def State.setHrg (s : State) (r : Nat) (v : HRange) : State :=
  { s with hth := { s.hth with rngs := s.hth.rngs.set {} r v } }

def State.link (s : State) (l : Nat) : Link := s.lnk.links.get {} l
def State.setLink (s : State) (l : Nat) (v : Link) : State :=
  { s with lnk := { s.lnk with links := s.lnk.links.set {} l v } }
def State.modLink (s : State) (l : Nat) (f : Link → Link) : State := s.setLink l (f (s.link l))

def State.port (s : State) (p : Nat) : Port := s.lnk.ports.get {} p
def State.setPort (s : State) (p : Nat) (v : Port) : State :=
  { s with lnk := { s.lnk with ports := s.lnk.ports.set {} p v } }

def State.win (s : State) (w : Nat) : Win := s.fab.wins.get {} w
def State.setWin (s : State) (w : Nat) (v : Win) : State :=
  { s with fab := { s.fab with wins := s.fab.wins.set {} w v } }

def State.rwin (s : State) (w : Nat) : Rwin := s.fab.rwins.get {} w
def State.setRwin (s : State) (w : Nat) (v : Rwin) : State :=
  { s with fab := { s.fab with rwins := s.fab.rwins.set {} w v } }

def State.plan (s : State) (p : Nat) : Plan := s.col.plans.get {} p
def State.setPlan (s : State) (p : Nat) (v : Plan) : State :=
  { s with col := { s.col with plans := s.col.plans.set {} p v } }
def State.modPlan (s : State) (p : Nat) (f : Plan → Plan) : State := s.setPlan p (f (s.plan p))

def State.syncObj (s : State) (o : Nat) : SyncObj := s.syn.objs.get {} o
def State.setSyncObj (s : State) (o : Nat) (v : SyncObj) : State :=
  { s with syn := { s.syn with objs := s.syn.objs.set {} o v } }
def State.modSyncObj (s : State) (o : Nat) (f : SyncObj → SyncObj) : State := s.setSyncObj o (f (s.syncObj o))

def State.grant (s : State) (g : Nat) : Grant := s.syn.grants.get {} g
def State.setGrant (s : State) (g : Nat) (v : Grant) : State :=
  { s with syn := { s.syn with grants := s.syn.grants.set {} g v } }

def State.site (s : State) (i : Nat) : Site := s.hst.sites.get {} i
def State.setSite (s : State) (i : Nat) (v : Site) : State :=
  { s with hst := { s.hst with sites := s.hst.sites.set {} i v } }
def State.modSite (s : State) (i : Nat) (f : Site → Site) : State := s.setSite i (f (s.site i))

def State.cePage (s : State) (p : Nat) : CePage := s.ce.pages.get {} p
def State.setCePage (s : State) (p : Nat) (v : CePage) : State :=
  { s with ce := { s.ce with pages := s.ce.pages.set {} p v } }
def State.modCePage (s : State) (p : Nat) (f : CePage → CePage) : State := s.setCePage p (f (s.cePage p))

def State.watch (s : State) (w : Nat) : Watch := s.tel.watch.get {} w
def State.setWatch (s : State) (w : Nat) (v : Watch) : State :=
  { s with tel := { s.tel with watch := s.tel.watch.set {} w v } }

/-! ## Life cycle (R470, R471) -/

/-- Bits that read 1 in a state word. -/
def onesIn (w : BitVec 32) : Nat := ((List.range 32).filter fun i => w.getLsbD i).length

/-- A state word counts as programmed when at least 28 of its bits read 1. -/
def wordSet (w : BitVec 32) : Bool := 28 ≤ onesIn w

/-- The life-cycle code: the highest programmed state word, or 1 for MAKER when none is. -/
def State.lcCode (s : State) : Nat :=
  if wordSet (s.lc.words.getD 3 0) then 5 else if wordSet (s.lc.words.getD 2 0) then 4
  else if wordSet (s.lc.words.getD 1 0) then 3 else if wordSet (s.lc.words.getD 0 0) then 2 else 1

/-! ## The management endpoint (R52, R476, R477, R504) -/

/-- SPDM error codes this block answers with. -/
def spdmInvalid : Nat := 0x01
def spdmBusy : Nat := 0x03
def spdmUnexpected : Nat := 0x04
def spdmUnsupported : Nat := 0x07
def spdmSessions : Nat := 0x0A

/-- An SPDM error answer. -/
def State.spdmError (s : State) (e : Nat) : State := s.emit (.spdm 0x7F [BitVec.ofNat 8 e, 0])

/-- A requester's chain ends in a provisioned operator credential: its root's digest equals a valid anchor (R52, R478). -/
def State.chainOk (s : State) (m : Mgmt) : Bool := m.secure && s.lc.anchors.contains (.valid m.root)

/-- The operator role of R52. -/
def State.operatorOk (s : State) (m : Mgmt) : Bool := s.chainOk m && m.role

/-- The Stoker runs: it is released at step 2 and CCLK runs (R35, R457). -/
def State.stokerRuns (s : State) : Bool := 2 ≤ s.rst.step && s.clkRuns .cclk

/-- The Stoker serves SPDM messages once Kindling has completed; after SCRAPPED it answers each with an error. -/
def State.spdmServe (s : State) (f : State → State) : State :=
  if s.rst.step < 2 || !s.clkRuns .cclk then s
  else if s.lcCode = 5 then s.spdmError spdmUnsupported
  else if s.boot.phase ≠ 4 then s
  else f s

/-- A domain, epoch or power message (R52); an operator-role message also needs the role. -/
def State.domMsg (s : State) (m : Mgmt) (role : Bool) (f : State → State) : State :=
  s.spdmServe fun s => if !s.chainOk m || (role && !m.role) then s.answer .unauth else f s

/-- Units whose progress the whole-die watchdog follows (R346). -/
def unQm : Nat := 0
def unSync : Nat := 1
def unFabric : Nat := 2
def unPlan : Nat := 3

/-- An item of progress of a unit (R346). -/
def State.progress (s : State) (u : Nat) : State := { s with syn := { s.syn with progressAt := s.syn.progressAt.set 0 u s.now } }

/-- The die is fenced for recovery (R267, step 2 of R459). -/
def State.fenced (s : State) : Bool := s.rst.phase = .fencing && 2 ≤ s.rst.fenceStep

/-- The lowest index below `n` that satisfies a test. -/
def lowest (n : Nat) (p : Nat → Bool) : Option Nat := (List.range n).find? p

/-- Apply an operation for each of a list of keys. -/
def State.forEach (s : State) (l : List Nat) (f : State → Nat → State) : State := l.foldl f s

/-! ## Members of the group (R403, R404) -/

/-- This die's position. -/
def State.pos (s : State) : Nat := s.sys.hubPos.toNat

/-- The other positions present and not lost. -/
def State.peers (s : State) : List Nat :=
  (List.range 8).filter fun h => h ≠ s.pos && s.hst.present.getLsbD h && !s.hst.lost.getLsbD h

/-- Kinds of `BR_CTL` transfer; the model's numbering (log 15). -/
def bkHeartbeat : Nat := 1
def bkHello : Nat := 2
def bkOpen : Nat := 3
def bkSecret : Nat := 4
def bkConfirm : Nat := 5
def bkActivate : Nat := 6
def bkTeardown : Nat := 7
def bkStatementRequest : Nat := 8
def bkStatement : Nat := 9
def bkEpoch : Nat := 10
def bkRoutes : Nat := 11
def bkShare : Nat := 12
def bkDemand : Nat := 13
def bkMapGen : Nat := 14

/-- Send a `BR_CTL` transfer to one die, or to every other present die. -/
def State.toPeer (s : State) (h kind : Nat) (vals : List Nat) : State := s.emit (.brCtl h kind vals)
def State.toPeers (s : State) (kind : Nat) (vals : List Nat) : State := s.forEach s.peers fun s h => s.toPeer h kind vals

end Machine
end Sys2Proof
end

