-- ==== Sys2Proof/Machine/Recorder.lean ====
section
/-! DEFINITION. The event recorder: numbering, stamping, rate limits and the two areas (16_event_recorder). -/

namespace Sys2Proof.Machine
open Sys2Proof

/-! ## Codes (R451), severities (R441) and the permanent class -/

/-- Severity of a code (R441, R451). -/
def recSeverity (code : Nat) : Nat :=
  if [0x12, 0x15].contains code then 6
  else if [0x13, 0x21, 0x22, 0x31, 0xB0].contains code then 5
  else if [0x16, 0x50, 0x51, 0x53, 0x60, 0x71, 0xA1].contains code then 4
  else if [0x30, 0x41, 0x52, 0x62, 0x72, 0x80, 0x90, 0xB1].contains code then 3
  else if [0x01, 0x02, 0x11, 0x20, 0x23, 0x40, 0x54, 0x61, 0x91, 0xA0].contains code then 2
  else 1

/-- The permanent class (R451). -/
def recPermanent (code : Nat) : Bool :=
  [0x01, 0x12, 0x15, 0x16, 0x20, 0x21, 0x22, 0x23, 0x31, 0x60, 0xB0].contains code

/-- Records that take no token (R447). -/
def recExempt (code : Nat) : Bool := 5 ≤ recSeverity code || code = 1 || code = 2

/-- A record that drives WORHA_ALARM_N (R66): of `SEC_RESPONSE` only those whose response byte is QUARANTINE or
TEARDOWN. -/
def recDrivesPin (code : Nat) (payload : BitVec 128) : Bool :=
  [0x13, 0x22, 0xB0].contains code || (code = 0x31 && payload.extractLsb' 24 8 != 0)

/-- A payload laid out from byte 0: each field is (bytes, value), little-endian (R451). -/
def payload (fs : List (Nat × Nat)) : BitVec 128 := BitVec.ofNat 128 (packFields (fs.map fun f => (8 * f.1, f.2)))

/-- Sources (R442). -/
def srcStoker : Nat := 0
def srcFirebox : Nat := 1
def srcMsl : Nat := 2
def srcQm : Nat := 3
def srcSync : Nat := 4
def srcFabric : Nat := 5
def srcReset : Nat := 8
def srcDamper : Nat := 9
def srcKindling : Nat := 10
def srcHost : Nat := 0x48

/-! ## Numbering -/

/-- Number, stamp and store one record (R443 to R446); a pin-driving record joins the unacknowledged ones (R66). -/
def State.number (s : State) (code source : Nat) (pl : BitVec 128) : State :=
  let c := s.rcd
  let r : Rec := { code, severity := recSeverity code, source, seq := c.nextSeq, seconds := s.sys.opSeconds
                   cycles := s.sys.powerCycles, payload := pl }
  let keep := recPermanent code && c.perm.length + c.permQ.length < 256
  { s with
    rcd := { c with nextSeq := c.nextSeq + 1, circ := c.circ.set none (c.nextSeq.toNat % 4096) (some r)
                    valid := min 4096 (c.valid + 1), permQ := if keep then c.permQ ++ [r] else c.permQ }
    dom := if recDrivesPin code pl then { s.dom with unacked := s.dom.unacked ++ [c.nextSeq] } else s.dom }

/-- Give a bucket the tokens that have returned by now (R447). -/
def Bucket.refill (b : Bucket) (rate now : Nat) : Bucket :=
  if b.taken = 0 then b
  else
    let due := (now - b.base) * rate / sec
    let n := due - b.returned
    if b.taken ≤ n then { b with taken := 0, base := 0, returned := 0 }
    else { b with taken := b.taken - n, returned := b.returned + n }

/-- Take one token from a refilled bucket. -/
def Bucket.take (b : Bucket) (now : Nat) : Bucket :=
  if b.taken = 0 then { b with taken := 1, base := now, returned := 0 } else { b with taken := b.taken + 1 }

def State.bucket (s : State) (code : Nat) : Bucket := s.rcd.buckets.get {} code
def State.setBucket (s : State) (code : Nat) (b : Bucket) : State :=
  { s with rcd := { s.rcd with buckets := s.rcd.buckets.set {} code b } }

/-- Write the `SUPPRESSED` record of a code with unreported drops and zero its count (R448). -/
def State.flushDrops (s : State) (code : Nat) : State :=
  let b := s.bucket code
  if b.drops = 0 then s
  else
    (s.number 0x02 srcStoker (payload [(2, code), (2, 0), (4, b.drops), (5, b.firstSec.toNat)])).setBucket code
      { b with drops := 0, firstSec := 0, firstAt := 0 }

/-- Admit or drop a record of a code that takes tokens (R447, R448). -/
def State.admitRec (s : State) (code source : Nat) (pl : BitVec 128) : State :=
  if recExempt code then s.number code source pl
  else
    let b := (s.bucket code).refill s.rcd.rate s.now
    if b.taken < s.rcd.burst then
      ((s.setBucket code (b.take s.now)).flushDrops code).number code source pl
    else
      let b' := if b.drops = 0 then { b with drops := 1, firstSec := s.sys.opSeconds, firstAt := s.now }
                else { b with drops := b.drops + 1 }
      let s := s.setBucket code b'
      { s with rcd := { s.rcd with drops := s.rcd.drops + 1 } }

/-- Raise a record. Before the battery-backed registers are loaded it is held (R444). -/
def State.record (s : State) (code source : Nat) (fs : List (Nat × Nat)) : State :=
  if s.rcd.loaded then s.admitRec code source (payload fs)
  else { s with rcd := { s.rcd with early := s.rcd.early ++ [(code, source, payload fs)] } }

/-- The battery-backed registers are loaded: a first record is raised, and the held records follow in order (R444). -/
def State.recLoaded (s : State) (first : State → State) : State :=
  let l := s.rcd.early
  l.foldl (fun s e => s.admitRec e.1 e.2.1 e.2.2) (first { s with rcd := { s.rcd with early := [], loaded := true } })

/-- WORHA_ALARM_N is driven low (R42); it is released during PORST. -/
def State.alarmDriven (s : State) : Bool :=
  (!s.dom.unacked.isEmpty || s.sys.tamperLatch || s.pwr.thermTrip || s.sys.kclkStopped) &&
    !(s.rst.level = .porst && s.rst.phase = .held)

/-- Every reset level fills every bucket and discards unreported drops (R447). -/
def State.recReset (s : State) : State := { s with rcd := { s.rcd with buckets := {} } }

/-! ## Meanings -/

/-- `SUPPRESSED` (R448): 1 s after a code's first unreported drop its record is written. -/
def execSuppressed (code : Nat) (s : State) : Res :=
  let b := s.bucket code
  .next (if b.drops ≠ 0 && b.firstAt + sec ≤ s.now then s.flushDrops code else s)

/-- `PERM_PROGRAM` (R446): the oldest queued record is programmed; a programming that a power loss interrupted (`ok`
false) leaves a used slot that reads as zero. -/
def execPermProgram (ok : Bool) (s : State) : Res :=
  .next <| match s.rcd.permQ with
  | [] => s
  | r :: q =>
    if s.rcd.perm.length < 256 then
      { s with rcd := { s.rcd with permQ := q, perm := s.rcd.perm ++ [if ok then some r else none] } }
    else { s with rcd := { s.rcd with permQ := [] } }

/-- The first four bytes of the leaf certificate's digest, as a little-endian field (R451). -/
def leafPrefix (m : Mgmt) : Nat := m.leaf.toNat % 2 ^ 32

/-- `REC_CLEAR` (R450): empties the circulating area; the `CLEARED` record follows. The clear is one step, so that no earlier
one is in progress. -/
def execRecClear (m : Mgmt) (s : State) : Res :=
  .next <| s.domMsg m true fun s =>
    let n := s.rcd.valid
    let last := s.rcd.nextSeq - 1
    let first := s.rcd.nextSeq - BitVec.ofNat 32 n
    let s := { s with rcd := { s.rcd with circ := {}, valid := 0 } }
    let s := s.record 0x01 srcStoker [(4, n), (4, if n = 0 then 0 else first.toNat),
      (4, if n = 0 then 0 else last.toNat), (4, leafPrefix m)]
    s.answer .ok

/-- The four words of a record (R440). -/
def Rec.words (r : Rec) : List (BitVec 64) :=
  [BitVec.ofNat 64 (packFields [(16, r.code), (4, r.severity), (12, r.source), (32, r.seq.toNat)]),
   BitVec.ofNat 64 (packFields [(40, r.seconds.toNat), (24, r.cycles.toNat)]),
   r.payload.extractLsb' 0 64, r.payload.extractLsb' 64 64]

/-- The record selected by `REC_SEL` (R449, R452). -/
def State.recSelected (s : State) : List (BitVec 64) :=
  let i := bits s.rcd.sel 11 0
  let r := if bit s.rcd.sel 12 then (s.rcd.perm[i]?).getD none else s.rcd.circ.get none i
  match r with
  | some r => r.words
  | none => [0, 0, 0, 0]

/-- Capture a value for later reads by the same requester (R10, R429, R449). -/
def State.capture (s : State) (r : Req) (off : Nat) (v : BitVec 64) : State :=
  { s with sys := { s.sys with highCap := (r.who, off, v) :: s.sys.highCap.filter fun e => !(e.1 = r.who && e.2.1 = off) } }

/-- The value captured for a requester at an offset. -/
def State.captured (s : State) (r : Req) (off : Nat) : Option (BitVec 64) :=
  (s.sys.highCap.find? fun e => e.1 = r.who && e.2.1 = off).map fun e => e.2.2

end Sys2Proof.Machine
end

