-- ==== Sys2Proof/Machine/Access.lean ====
section
/-! DEFINITION. Register accesses: which requester reaches which block, in which power and release state, the record of an
access that reaches none, and the held low halves (R10 to R18, R38, R44, R458, R508). -/

namespace Sys2Proof.Machine
open Sys2Proof

/-! ## Blocks of the register window (the window table before R44) -/

/-- A block: the release step of its unit (R457), its switched power domain (R36), and its clock (the unit table before R20). -/
structure Block where
  step : Nat
  pd : Option Nat
  clk : Clock
  deriving DecidableEq, Repr

/-- Blocks of the TEL window: `TEL_STATUS` and the light counters lie in AON, the command-counter registers of a slice in
PD_HOST, the others in PD_WITNESS. -/
def telBlock (o : Nat) : Block :=
  if o < 8 || (0x100 ≤ o && o < 0x140) then ⟨1, none, .cclk⟩
  else if 0x10000 ≤ o && 0x10 ≤ o % 0x40 then ⟨5, some 4, .cclk⟩
  else ⟨5, some 3, .cclk⟩

/-- The block that holds an offset, none for an unassigned range (R44). -/
def blockOf (off : Nat) : Option Block :=
  if off < 0x10000 then some ⟨1, none, .cclk⟩
  else if off < 0x20000 then some ⟨2, some 0, .cclk⟩
  else if off < 0x40000 then some ⟨2, some 1, .cclk⟩
  else if off < 0x90000 then some ⟨3, none, .aclk⟩
  else if off < 0xA0000 then none
  else if off < 0xE0000 then some ⟨4, some (6 + (off - 0xA0000) / 0x8000), .lclk ((off - 0xA0000) / 0x8000)⟩
  else if off < 0x100000 then some ⟨5, some 5, .cclk⟩
  else if off < 0x200000 then some ⟨5, some 4, .cclk⟩
  else if off < 0x400000 then some ⟨5, some 5, .cclk⟩
  else if off < 0x440000 then some ⟨5, some 2, .cclk⟩
  else if off < 0x480000 then some (telBlock (off - 0x440000))
  else if off < 0x490000 then some ⟨2, none, .cclk⟩
  else if off < 0x4A0000 then some ⟨1, none, .cclk⟩
  else if off < 0x4B0000 then some ⟨2, some 0, .cclk⟩
  else if off < 0x4C0000 then some ⟨1, none, .cclk⟩
  else if off < 0x4D0000 then some ⟨2, some 0, .cclk⟩
  else if 0x1000000 ≤ off && off < 0x2000000 then some ⟨5, some 4, .cclk⟩
  else none

/-- A block serves: its unit has left reset, or CORERST has not cleared it, its clock runs and its domain is on (R35, R38,
R457, R458). -/
def State.blockUp (s : State) (b : Block) : Bool :=
  s.clkRuns b.clk && (b.step ≤ s.rst.step || (s.rst.level = .core && [1, 4, 6].contains b.step)) && (match b.pd with
    | some p => s.pdOn p
    | none => true)

/-- The host port answers for the function: released, or kept up through CORERST (R458). -/
def State.hostUp (s : State) : Bool := 6 ≤ s.rst.step || s.rst.level = .core

/-- The requester is the host function without a PASID: the kernel driver. -/
def kernelReq (r : Req) : Bool := !r.mgmt && r.pasid = none

/-- An offset of the recorder, or of the life-cycle block. -/
def inRec (off : Nat) : Bool := 0x480000 ≤ off && off < 0x490000
def inLc (off : Nat) : Bool := 0x4A0000 ≤ off && off < 0x4B0000

/-- The Stoker serves a management access: it has left reset; while no firmware slot is valid only LC, REC and
`BOOT_STATUS` are served, and after SCRAPPED only `LC_STATUS` and the recorder (R18, R457, R477, R504). -/
def State.mgmtServes (s : State) (off : Nat) : Bool :=
  2 ≤ s.rst.step && (s.boot.fault ≠ 2 || inRec off || inLc off || off = 0x4C0000) &&
    (s.lcCode ≠ 5 || inRec off || (0x4A0000 ≤ off && off < 0x4A0008))

/-- A die that stopped at a life-cycle step answers every management access but those of LC and REC as unassigned (R476). -/
def State.lcBars (s : State) (off : Nat) : Bool := s.boot.fault = 4 && !inRec off && !inLc off

/-! ## Records and held halves -/

/-- The `REG_ACCESS` record of an access answered under R12 (R451, R508). -/
def State.regBad (s : State) (r : Req) (off width : Nat) : State :=
  s.record 0x14 (if r.mgmt then srcStoker else srcHost)
    [(4, off), (1, width), (4, match r.pasid with
      | some p => p.toNat
      | none => 0xFFFFF)]

/-- A write discards whatever low half the requester holds (R11). -/
def State.dropHeld (s : State) (r : Req) : State :=
  { s with sys := { s.sys with lowHeld := s.sys.lowHeld.filter fun e => e.1 ≠ r.who } }

/-! ## A write that names its register -/

/-- A write of a register by a requester that the register admits or not: discarded before the host port serves, recorded
as an access to an unassigned offset where the register does not admit it or its block is off, otherwise applied. -/
def State.regWrite (s : State) (r : Req) (off width : Nat) (admitted : Bool) (f : State → State) : State :=
  if (!r.mgmt && !s.hostUp) || (r.mgmt && !s.mgmtServes off) then s
  else
    let s := s.dropHeld r
    match blockOf off with
    | none => s.regBad r off width
    | some b => if s.blockUp b && admitted && !s.lcBars off then f s else s.regBad r off width

/-- A write of a management-only register: ignored from the host link (R18). -/
def State.regWriteMgmt (s : State) (r : Req) (off width : Nat) (f : State → State) : State :=
  s.regWrite r off width true fun s => if r.mgmt then f s else s

end Sys2Proof.Machine
end

