-- ==== Sys2Proof/Machine/Float.lean ====
section
/-! DEFINITION. IEEE 754 numbers of any width: exact values, round to nearest even, sums and products. -/

namespace Sys2Proof.Machine
open Sys2Proof

/-- A decoded number: a NaN, an infinity by sign, or sign, mantissa and exponent with value m x 2^e. -/
inductive FVal where
  | nan
  | inf (neg : Bool)
  | fin (neg : Bool) (m : Nat) (e : Int)
  deriving DecidableEq, Repr

/-- Decode a number of `eb` exponent and `mb` mantissa bits. -/
def fdec (eb mb : Nat) (b : Nat) : FVal :=
  let man := b % 2 ^ mb
  let ex := b / 2 ^ mb % 2 ^ eb
  let neg := bit b (eb + mb)
  let bias : Int := 2 ^ (eb - 1) - 1
  if ex = 2 ^ eb - 1 then (if man = 0 then .inf neg else .nan)
  else if ex = 0 then .fin neg man (1 - bias - mb)
  else .fin neg (man + 2 ^ mb) ((ex : Int) - bias - mb)

/-- A right shift of `m` by `k` bits, rounded to nearest even. -/
def shrRne (m k : Nat) : Nat :=
  let q := m / 2 ^ k
  let r := m % 2 ^ k
  if k = 0 then m
  else if 2 ^ k < 2 * r || (2 * r = 2 ^ k && q % 2 = 1) then q + 1 else q

/-- Encode m x 2^e with sign, rounded to nearest even; overflow gives infinity, the smallest numbers are subnormal. -/
def fenc (eb mb : Nat) (neg : Bool) (m : Nat) (e : Int) : Nat :=
  let sgn := if neg then 2 ^ (eb + mb) else 0
  let bias : Int := 2 ^ (eb - 1) - 1
  if m = 0 then sgn
  else
    let top : Int := (Nat.log2 m : Int) + e
    let q : Int := max (top - mb) (1 - bias - mb)
    let sh := q - e
    let man := if sh ≤ 0 then m * 2 ^ (-sh).toNat else shrRne m sh.toNat
    let (man, q) := if 2 ^ (mb + 1) ≤ man then (man / 2, q + 1) else (man, q)
    if man < 2 ^ mb then sgn + man
    else
      let ex := (q + mb + bias).toNat
      if 2 ^ eb - 1 ≤ ex then sgn + (2 ^ eb - 1) * 2 ^ mb else sgn + ex * 2 ^ mb + (man - 2 ^ mb)

def finf (eb mb : Nat) (neg : Bool) : Nat := (if neg then 2 ^ (eb + mb) else 0) + (2 ^ eb - 1) * 2 ^ mb
/-- The quiet NaN with a clear sign and no other payload. -/
def fqnan (eb mb : Nat) : Nat := (2 ^ eb - 1) * 2 ^ mb + 2 ^ (mb - 1)

/-- Encode a decoded value. -/
def fput (eb mb : Nat) : FVal → Nat
  | .nan => fqnan eb mb
  | .inf n => finf eb mb n
  | .fin n m e => fenc eb mb n m e

/-- The exact sum of two finite values as a sign, mantissa and exponent; an exact zero sum of unlike signs is +0. -/
def fsum (n1 : Bool) (m1 : Nat) (e1 : Int) (n2 : Bool) (m2 : Nat) (e2 : Int) : Bool × Nat × Int :=
  let e := min e1 e2
  let a : Int := (if n1 then -1 else 1) * (m1 * 2 ^ (e1 - e).toNat : Nat)
  let b : Int := (if n2 then -1 else 1) * (m2 * 2 ^ (e2 - e).toNat : Nat)
  let c := a + b
  if c = 0 then (n1 && n2, 0, e) else (c < 0, c.natAbs, e)

/-- IEEE addition. -/
def faddV (eb mb : Nat) (x y : FVal) : Nat :=
  match x, y with
  | .nan, _ => fqnan eb mb
  | _, .nan => fqnan eb mb
  | .inf a, .inf b => if a = b then finf eb mb a else fqnan eb mb
  | .inf a, _ => finf eb mb a
  | _, .inf b => finf eb mb b
  | .fin n1 m1 e1, .fin n2 m2 e2 => let r := fsum n1 m1 e1 n2 m2 e2; fenc eb mb r.1 r.2.1 r.2.2

/-- IEEE multiplication. -/
def fmulV (eb mb : Nat) (x y : FVal) : Nat :=
  match x, y with
  | .nan, _ => fqnan eb mb
  | _, .nan => fqnan eb mb
  | .inf a, .inf b => finf eb mb (a != b)
  | .inf a, .fin b m _ => if m = 0 then fqnan eb mb else finf eb mb (a != b)
  | .fin a m _, .inf b => if m = 0 then fqnan eb mb else finf eb mb (a != b)
  | .fin n1 m1 e1, .fin n2 m2 e2 => fenc eb mb (n1 != n2) (m1 * m2) (e1 + e2)

/-- The order of two finite values: x < y. -/
def fltV (x y : FVal) : Bool :=
  match x, y with
  | .fin n1 m1 e1, .fin n2 m2 e2 =>
    let e := min e1 e2
    let a : Int := (if n1 then -1 else 1) * (m1 * 2 ^ (e1 - e).toNat : Nat)
    let b : Int := (if n2 then -1 else 1) * (m2 * 2 ^ (e2 - e).toNat : Nat)
    a < b
  | .inf a, .inf b => a && !b
  | .inf a, _ => a
  | _, .inf b => !b
  | _, _ => false

def add32 (a b : Nat) : Nat := faddV 8 23 (fdec 8 23 a) (fdec 8 23 b)
def mul32 (a b : Nat) : Nat := fmulV 8 23 (fdec 8 23 a) (fdec 8 23 b)
def lt32 (a b : Nat) : Bool := fltV (fdec 8 23 a) (fdec 8 23 b)
def add64 (a b : FVal) : Nat := faddV 11 52 a b

end Sys2Proof.Machine
end

