-- ==== Sys2Proof/Machine/Operands.lean ====
section
/-! DEFINITION. The operand forms of a Proup command: the fields of its word, its reserved bits, its sync operands and
the descriptors it reads (R351 to R354, R333, R305, R306, R371). -/

namespace Sys2Proof.Machine
open Sys2Proof

/-! ## The command word (R351) -/

def Cmd.w (c : Cmd) (i : Nat) : BitVec 64 := c.words.getD i 0
/-- Bits `hi:lo` of word `i`. -/
def Cmd.f (c : Cmd) (i hi lo : Nat) : Nat := fld (c.w i) hi lo
def Cmd.opcode (c : Cmd) : Nat := c.f 0 7 0
def Cmd.level (c : Cmd) : Nat := c.f 0 11 8
def Cmd.issueAfter (c : Cmd) : Bool := (c.w 0).getLsbD 16
def Cmd.serial (c : Cmd) : Bool := (c.w 0).getLsbD 17
def Cmd.remoteSig (c : Cmd) : Bool := (c.w 0).getLsbD 18
def Cmd.ctxnum (c : Cmd) : Nat := c.f 0 55 32
/-- The context number of a queue (R80). -/
def Queue.ctxnum (x : Queue) : Nat := fld x.param 39 16

/-- Opcodes assigned at level 1 (R378, R379). -/
def opAssigned (op : Nat) : Bool :=
  bit 0x001F01FF001F000E op && op < 64 || (64 ≤ op && op < 128 && bit 0x0003007F000F003F (op - 64))

/-- A mask of ones at bits `hi:lo`. -/
def ones (hi lo : Nat) : Nat := (2 ^ (hi + 1 - lo) - 1) * 2 ^ lo

/-- The assigned bits of words 1 to 3 of an opcode (the group tables of R362 to R377). Word 2 of `WIN_OPEN` depends on
its KIND. -/
def opMask (c : Cmd) : Nat × Nat × Nat :=
  let all := ones 63 0
  match c.opcode with
  | 0x01 => (ones 52 0, ones 51 0, 0)
  | 0x02 => (ones 31 0, 0, 0)
  | 0x10 => (all, all, ones 55 0)
  | 0x11 => (all, ones 47 0, all)
  | 0x12 => (ones 59 0, ones 39 0, 0)
  | 0x13 => (ones 59 0, ones 39 0, all)
  | 0x14 => (all, all, ones 39 0)
  | 0x20 => (ones 52 0, if (c.w 1).getLsbD 32 then ones 19 0 else ones 39 0, ones 40 0)
  | 0x21 => (ones 11 0, 0, 0)
  | 0x22 => (ones 61 14, ones 31 0, 0)
  | 0x23 => (ones 13 0, 0, 0)
  | 0x24 => (ones 13 0 + ones 55 16, all, ones 39 0)
  | 0x25 => (ones 13 0 + ones 55 16, all, ones 39 0)
  | 0x26 => (ones 57 0, all, all)
  | 0x27 => (ones 14 0 + ones 31 16, all, 0)
  | 0x30 => (ones 31 0, ones 39 0, 0)
  | 0x31 => (all, all, ones 31 0)
  | 0x32 => (ones 31 0, 0, 0)
  | 0x33 => (ones 31 0, ones 39 0, 0)
  | 0x34 => (ones 31 0, ones 39 0, 0)
  | 0x40 => (ones 20 0, all, 0)
  | 0x41 => (ones 19 0, 0, 0)
  | 0x42 => (ones 21 0 + ones 63 24, all, ones 42 0)
  | 0x43 => (ones 49 0, 0, 0)
  | 0x44 => (ones 23 0, 0, 0)
  | 0x50 => (ones 31 0, ones 39 0, ones 31 0)
  | 0x51 => (ones 5 4 + ones 63 24, ones 31 0, ones 39 0)
  | 0x52 => (ones 3 0, 0, 0)
  | 0x53 => (ones 4 0, ones 31 0, ones 39 0)
  | 0x61 => (ones 11 0, 0, 0)
  | 0x62 => (ones 46 0, 0, 0)
  | 0x63 => (ones 5 0, 0, 0)
  | 0x64 => (ones 17 0, 0, 0)
  | 0x65 => (ones 39 0, 0, 0)
  | 0x66 => (ones 3 0, 0, 0)
  | 0x70 => (ones 1 0, 0, 0)
  | 0x71 => (ones 3 0, 0, 0)
  | _ => (0, 0, 0)

/-- Bits of `v` outside a mask. -/
def outside (v : BitVec 64) (m : Nat) : Bool := v &&& ~~~(BitVec.ofNat 64 m) != 0

/-! ## Sync operands (R333) -/

/-- A sync operand: its two words. -/
structure SyncOpnd where
  w0 : BitVec 64
  w1 : BitVec 64
  deriving DecidableEq, Repr

def SyncOpnd.object (o : SyncOpnd) : Nat := fld o.w0 19 0
def SyncOpnd.imported (o : SyncOpnd) : Bool := o.w0.getLsbD 20
def SyncOpnd.grantIx (o : SyncOpnd) : Nat := fld o.w0 36 21
def SyncOpnd.grantGen (o : SyncOpnd) : Nat := fld o.w0 44 37
def SyncOpnd.action (o : SyncOpnd) : Nat := fld o.w0 47 45
def SyncOpnd.rsv (o : SyncOpnd) : Nat := fld o.w0 63 48
def SyncOpnd.value (o : SyncOpnd) : BitVec 64 := o.w1

def Cmd.waitOp (c : Cmd) : SyncOpnd := ⟨c.w 4, c.w 5⟩
def Cmd.signalOp (c : Cmd) : SyncOpnd := ⟨c.w 6, c.w 7⟩

/-- A sync operand's reserved fields are not all zero: bits 63:48, or anything else when ACTION is 0 (R352). -/
def SyncOpnd.badRsv (o : SyncOpnd) : Bool := o.rsv ≠ 0 || (o.action = 0 && (o.w0 != 0 || o.w1 != 0))

/-- Reserved fields of word 0, REMOTE_SIG among them on an opcode that does not take it, or of the operand area of an opcode
that is assigned, are not all zero (R352). -/
def Cmd.rsvWords (c : Cmd) (assigned : Bool) : Bool :=
  outside (c.w 0) (ones 11 0 + ones 18 16 + ones 55 32) || (c.remoteSig && !(c.opcode = 0x25 || c.opcode = 0x26)) ||
  (assigned && (let m := opMask c
    outside (c.w 1) m.1 || outside (c.w 2) m.2.1 || outside (c.w 3) m.2.2))

/-- Reserved fields of words 6 and 7 are not all zero (R352, R369). -/
def Cmd.rsvSignal (c : Cmd) : Bool := if c.remoteSig then outside (c.w 6) (ones 14 0 + ones 31 16) else c.signalOp.badRsv

/-! ## Handles (the handle layout before R90) -/

def hIndex (h : Nat) : Nat := bits h 21 0
def hGen (h : Nat) : Nat := bits h 31 22
def mkHandle (ix gen : Nat) : Nat := ix + 2 ^ 22 * gen

/-! ## Plan steps (R306) -/

/-- One step: eight words. -/
abbrev StepW := List (BitVec 64)

def sf (st : StepW) (w hi lo : Nat) : Nat := fld (st.getD w 0) hi lo
def stKind (st : StepW) : Nat := sf st 0 3 0
def stWithPrev (st : StepW) : Bool := sf st 0 4 4 = 1
def stLastReduce (st : StepW) : Bool := sf st 0 5 5 = 1
def stStoreSent (st : StepW) : Bool := sf st 0 6 6 = 1
def stFromOut (st : StepW) : Bool := sf st 0 7 7 = 1
def stRxLink (st : StepW) : Nat := sf st 0 13 8
def stRxStream (st : StepW) : Nat := sf st 0 25 14
def stTxLink (st : StepW) : Nat := sf st 0 31 26
def stTxStream (st : StepW) : Nat := sf st 0 43 32
def stShare (st : StepW) : Nat := sf st 0 48 44
def stRxBuf (st : StepW) : Nat := 2 ^ (sf st 0 51 49 + 2)
def stTxBuf (st : StepW) : Nat := 2 ^ (sf st 0 54 52 + 2)
def stHint (st : StepW) : Nat := sf st 0 56 55
def stArith (st : StepW) : BitVec 64 := st.getD 1 0
def stCount (st : StepW) : Nat := sf st 2 39 0
def stSrcElem (st : StepW) : Nat := sf st 3 39 0
def stDstElem (st : StepW) : Nat := sf st 4 39 0
def stResidElem (st : StepW) : Nat := sf st 5 39 0
def stWait (st : StepW) : BitVec 64 := st.getD 6 0
def stSignal (st : StepW) : BitVec 64 := st.getD 7 0
/-- The kind receives, transmits, writes back, reduces (R307). -/
def stRecv (st : StepW) : Bool := [2, 3, 4, 5, 6, 7].contains (stKind st)
def stSend (st : StepW) : Bool := [1, 3, 4, 5, 6].contains (stKind st)
def stStore (st : StepW) : Bool := [2, 4, 6, 7].contains (stKind st)
def stReduce (st : StepW) : Bool := [5, 6, 7].contains (stKind st)

/-- Blocks of a step. -/
def stBlocks (st : StepW) : Nat := stCount st / 32

end Sys2Proof.Machine
end

