-- ==== Sys2Proof/Machine/Flags.lean ====
section
/-! DEFINITION. Status and detail codes, completion flags and the completion record (R355 to R361). -/

namespace Sys2Proof.Machine
open Sys2Proof

/-! ## Status codes (R360) -/

def stDone : Nat := 0x01
def stDoneFlagged : Nat := 0x02
def stAborted : Nat := 0x03
def stSquashed : Nat := 0x04
def stLevelUnsupported : Nat := 0x10
def stRsvNonzero : Nat := 0x11
def stBadOpcode : Nat := 0x12
def stCtxMismatch : Nat := 0x13
def stOpPrivilege : Nat := 0x14
def stBadOperand : Nat := 0x15
def stSyncParam : Nat := 0x16
def stObjInvalid : Nat := 0x20
def stObjRevoked : Nat := 0x21
def stObjRange : Nat := 0x22
def stObjRights : Nat := 0x23
def stNoObjSlot : Nat := 0x24
def stObjKind : Nat := 0x25
def stXlatFault : Nat := 0x26
def stXlatSquashed : Nat := 0x27
def stSyncInvalid : Nat := 0x28
def stSyncRights : Nat := 0x29
def stSyncKind : Nat := 0x2A
def stSyncBusy : Nat := 0x2B
def stSyncNoGrant : Nat := 0x2C
def stSyncDeadlock : Nat := 0x2D
def stMemMacFail : Nat := 0x30
def stMemPoison : Nat := 0x31
def stNoRgn : Nat := 0x32
def stRgnParam : Nat := 0x33
def stRgnOverlap : Nat := 0x34
def stRgnKid : Nat := 0x35
def stRgnState : Nat := 0x36
def stResealSpan : Nat := 0x37
def stFabDenied : Nat := 0x40
def stFabRights : Nat := 0x41
def stFabRange : Nat := 0x42
def stFabFormat : Nat := 0x43
def stFabQuarantined : Nat := 0x44
def stNoRoute : Nat := 0x45
def stTallyFull : Nat := 0x46
def stPartnerRecovering : Nat := 0x47
def stPartnerLost : Nat := 0x48
def stNoWindow : Nat := 0x49
def stRwinParam : Nat := 0x4A
def stColLinkLost : Nat := 0x4B
def stColProtocol : Nat := 0x4C
def stColPeerAbort : Nat := 0x4D
def stFmtUnsupported : Nat := 0x50
def stArithParam : Nat := 0x51
def stKidNone : Nat := 0x60
def stKidState : Nat := 0x61
def stNoEntropy : Nat := 0x62
def stDomState : Nat := 0x63
def stCePage : Nat := 0x64
def stCeNoKey : Nat := 0x65
def stCeKeyLimit : Nat := 0x66
def stCeMode : Nat := 0x67
def stPlanFormat : Nat := 0x70
def stPlanObject : Nat := 0x71
def stPlanDomain : Nat := 0x72
def stPlanLink : Nat := 0x73
def stPlanNoSlot : Nat := 0x74
def stPlanStreamBusy : Nat := 0x75
def stPlanResidBusy : Nat := 0x76
def stPlanNoShare : Nat := 0x77
def stPlanNoBuffer : Nat := 0x78
def stPlanNoSync : Nat := 0x79
def stPlanNoSession : Nat := 0x7A
def stPlanInvalid : Nat := 0x7B
def stPlanBusy : Nat := 0x7C
def stNoWatch : Nat := 0x7D

/-! ## Detail codes (R361) -/

def dtNone : Nat := 0x00
def dtPlanBwWarn : Nat := 0x01
def dtBadBlock : Nat := 0x02
def dtPeerBroken : Nat := 0x03
def dtSignalDropped : Nat := 0x04
def dtSyncForced : Nat := 0x05
def dtA : Nat := 0x10
def dtB : Nat := 0x11
def dtC : Nat := 0x12
def dtWait : Nat := 0x13
def dtSignal : Nat := 0x14
def dtDesc : Nat := 0x15
def dtByAbort : Nat := 0x20
def dtByStop : Nat := 0x21
def dtBySlice : Nat := 0x22
def dtByQuarantine : Nat := 0x23
def dtByTeardown : Nat := 0x24
def dtByRecovery : Nat := 0x25

/-- The status is `DONE` or `DONE_FLAGGED`. -/
def stOk (st : Nat) : Bool := st = stDone || st = stDoneFlagged

/-- The flagged details in the order of R359: a lower rank names the record's DETAIL. -/
def dtRank (d : Nat) : Nat :=
  if d = dtPeerBroken then 0 else if d = dtSyncForced then 1 else if d = dtSignalDropped then 2
  else if d = dtBadBlock then 3 else if d = dtPlanBwWarn then 4 else 5

/-- Add a `DONE_FLAGGED` cause to a command that ends without a failure (R359). -/
def Cmd.flag (c : Cmd) (d : Nat) : Cmd :=
  if c.status = stDone then { c with status := stDoneFlagged, detail := d }
  else if c.status = stDoneFlagged && dtRank d < dtRank c.detail then { c with detail := d } else c

/-- RESULT of the record: zero unless the command ended well, but for the step index of a failed `PLAN_LOAD`
(R358). -/
def Cmd.recResult (c : Cmd) : BitVec 64 :=
  if stOk c.status then c.result
  else if c.opcode = 0x30 && c.status ≠ stAborted && c.status ≠ stSquashed then c.result &&& 0x7FF else 0

/-- DONE of the record, saturating at 48 bits (R355, R357). -/
def Cmd.recDone (c : Cmd) : Nat := min c.done (2 ^ 48 - 1)

/-- The 32 bytes of a completion record (R355): CTXNUM is the queue's number, whatever the command's word held. -/
def Cmd.record (c : Cmd) (ctxnum time : Nat) : List Byte :=
  leBytes 32 (packFields [(8, c.status), (8, c.detail), (8, c.flags.toNat), (24, ctxnum), (48, c.seq),
    (48, c.recDone), (48, time), (64, c.recResult.toNat)])

/-- FLAGS bits (R355). -/
def flThrottled : BitVec 4 := 1
def flPromoted : BitVec 4 := 2
def flSaturated : BitVec 4 := 4
def flSpecials : BitVec 4 := 8

end Sys2Proof.Machine
end

