-- ==== Sys2Proof/Machine/Crypto.lean ====
section
/-! DEFINITION. The published algorithms the spec names: AES-256 (FIPS 197) with GCM, CMAC and key wrap
(SP 800-38D, 38B, 38F), SHA-384 (FIPS 180-4), HKDF (RFC 5869), CRC-32C, CRC-64 and ECDSA P-384 (FIPS 186-5). Byte strings
are lists; a 128-bit block is a big-endian number. -/

namespace Sys2Proof.Machine
open Sys2Proof

/-! ## AES-256 -/

def aesSbox0 : List Nat :=
  [0x63, 0x7C, 0x77, 0x7B, 0xF2, 0x6B, 0x6F, 0xC5, 0x30, 0x01, 0x67, 0x2B, 0xFE, 0xD7, 0xAB, 0x76,
   0xCA, 0x82, 0xC9, 0x7D, 0xFA, 0x59, 0x47, 0xF0, 0xAD, 0xD4, 0xA2, 0xAF, 0x9C, 0xA4, 0x72, 0xC0,
   0xB7, 0xFD, 0x93, 0x26, 0x36, 0x3F, 0xF7, 0xCC, 0x34, 0xA5, 0xE5, 0xF1, 0x71, 0xD8, 0x31, 0x15,
   0x04, 0xC7, 0x23, 0xC3, 0x18, 0x96, 0x05, 0x9A, 0x07, 0x12, 0x80, 0xE2, 0xEB, 0x27, 0xB2, 0x75]
def aesSbox1 : List Nat :=
  [0x09, 0x83, 0x2C, 0x1A, 0x1B, 0x6E, 0x5A, 0xA0, 0x52, 0x3B, 0xD6, 0xB3, 0x29, 0xE3, 0x2F, 0x84,
   0x53, 0xD1, 0x00, 0xED, 0x20, 0xFC, 0xB1, 0x5B, 0x6A, 0xCB, 0xBE, 0x39, 0x4A, 0x4C, 0x58, 0xCF,
   0xD0, 0xEF, 0xAA, 0xFB, 0x43, 0x4D, 0x33, 0x85, 0x45, 0xF9, 0x02, 0x7F, 0x50, 0x3C, 0x9F, 0xA8,
   0x51, 0xA3, 0x40, 0x8F, 0x92, 0x9D, 0x38, 0xF5, 0xBC, 0xB6, 0xDA, 0x21, 0x10, 0xFF, 0xF3, 0xD2]
def aesSbox2 : List Nat :=
  [0xCD, 0x0C, 0x13, 0xEC, 0x5F, 0x97, 0x44, 0x17, 0xC4, 0xA7, 0x7E, 0x3D, 0x64, 0x5D, 0x19, 0x73,
   0x60, 0x81, 0x4F, 0xDC, 0x22, 0x2A, 0x90, 0x88, 0x46, 0xEE, 0xB8, 0x14, 0xDE, 0x5E, 0x0B, 0xDB,
   0xE0, 0x32, 0x3A, 0x0A, 0x49, 0x06, 0x24, 0x5C, 0xC2, 0xD3, 0xAC, 0x62, 0x91, 0x95, 0xE4, 0x79,
   0xE7, 0xC8, 0x37, 0x6D, 0x8D, 0xD5, 0x4E, 0xA9, 0x6C, 0x56, 0xF4, 0xEA, 0x65, 0x7A, 0xAE, 0x08]
def aesSbox3 : List Nat :=
  [0xBA, 0x78, 0x25, 0x2E, 0x1C, 0xA6, 0xB4, 0xC6, 0xE8, 0xDD, 0x74, 0x1F, 0x4B, 0xBD, 0x8B, 0x8A,
   0x70, 0x3E, 0xB5, 0x66, 0x48, 0x03, 0xF6, 0x0E, 0x61, 0x35, 0x57, 0xB9, 0x86, 0xC1, 0x1D, 0x9E,
   0xE1, 0xF8, 0x98, 0x11, 0x69, 0xD9, 0x8E, 0x94, 0x9B, 0x1E, 0x87, 0xE9, 0xCE, 0x55, 0x28, 0xDF,
   0x8C, 0xA1, 0x89, 0x0D, 0xBF, 0xE6, 0x42, 0x68, 0x41, 0x99, 0x2D, 0x0F, 0xB0, 0x54, 0xBB, 0x16]
/-- The AES S-box (FIPS 197). -/
def aesSbox : List Nat := aesSbox0 ++ aesSbox1 ++ aesSbox2 ++ aesSbox3

/-- The inverse S-box as a search of the S-box. -/
def aesInvSub (x : Nat) : Nat := (aesSbox.findIdx? (· = x)).getD 0
def aesSub (x : Nat) : Nat := aesSbox.getD x 0

/-- Multiplication by x in GF(2^8). -/
def xtime (a : Nat) : Nat := if a < 128 then 2 * a else (2 * a - 256) ^^^ 0x1B

/-- Multiplication in GF(2^8) by a small constant. -/
def gmul (k a : Nat) : Nat :=
  let a2 := xtime a
  let a4 := xtime a2
  let a8 := xtime a4
  (if k % 2 = 1 then a else 0) ^^^ (if k / 2 % 2 = 1 then a2 else 0) ^^^ (if k / 4 % 2 = 1 then a4 else 0) ^^^
    (if k / 8 % 2 = 1 then a8 else 0)

/-- Big-endian bytes of a number, as numbers. -/
def natBytes (n v : Nat) : List Nat := (beBytes n v).map BitVec.toNat
def bytesNat (l : List Nat) : Nat := l.foldl (fun a b => a * 256 + b) 0

def subWord (w : Nat) : Nat := bytesNat ((natBytes 4 w).map aesSub)
def rotWord (w : Nat) : Nat := (w * 256) % 2 ^ 32 + w / 2 ^ 24

/-- Extend the key schedule by one word; `ws` is newest first. -/
def aesExpandStep (ws : List Nat) (i rcon : Nat) : List Nat :=
  let t := ws.getD 0 0
  let t := if i % 8 = 0 then subWord (rotWord t) ^^^ (rcon * 2 ^ 24) else if i % 8 = 4 then subWord t else t
  (ws.getD 7 0 ^^^ t) :: ws

def aesExpand : Nat → Nat → Nat → List Nat → List Nat
  | 0, _, _, ws => ws
  | f + 1, i, rcon, ws => aesExpand f (i + 1) (if i % 8 = 0 then xtime rcon else rcon) (aesExpandStep ws i rcon)

/-- The 15 round keys of an AES-256 key, each 16 bytes. -/
def aesKeys (key : Nat) : List (List Nat) :=
  let w0 := (List.range 8).map fun i => (key / 2 ^ (32 * (7 - i))) % 2 ^ 32
  let ws := (aesExpand 52 8 1 w0.reverse).reverse
  (List.range 15).map fun r => ((List.range 4).map fun j => natBytes 4 (ws.getD (4 * r + j) 0)).flatten

def xorL (a b : List Nat) : List Nat := List.zipWith (· ^^^ ·) a b

def shiftRows (s : List Nat) : List Nat :=
  (List.range 16).map fun i => s.getD ((i / 4 + i % 4) % 4 * 4 + i % 4) 0
def invShiftRows (s : List Nat) : List Nat :=
  (List.range 16).map fun i => s.getD ((i / 4 + 4 - i % 4) % 4 * 4 + i % 4) 0

def mixWith (k0 k1 k2 k3 : Nat) (s : List Nat) : List Nat :=
  (List.range 16).map fun i =>
    let c := i / 4 * 4
    let r := i % 4
    let g := fun j => s.getD (c + (r + j) % 4) 0
    gmul k0 (g 0) ^^^ gmul k1 (g 1) ^^^ gmul k2 (g 2) ^^^ gmul k3 (g 3)

def aesRounds : List (List Nat) → List Nat → List Nat
  | [], s => s
  | [k], s => xorL (shiftRows (s.map aesSub)) k
  | k :: ks, s => aesRounds ks (xorL (mixWith 2 3 1 1 (shiftRows (s.map aesSub))) k)

/-- AES-256 encryption of one block under expanded keys. -/
def aesEncK (ks : List (List Nat)) (b : Nat) : Nat :=
  bytesNat (aesRounds (ks.drop 1) (xorL (natBytes 16 b) (ks.getD 0 [])))

/-- AES-256 encryption of one block. -/
def aesEnc (key b : Nat) : Nat := aesEncK (aesKeys key) b

def aesInvRounds : List (List Nat) → List Nat → List Nat
  | [], s => s
  | [k], s => xorL ((invShiftRows s).map aesInvSub) k
  | k :: ks, s => aesInvRounds ks (mixWith 14 11 13 9 (xorL ((invShiftRows s).map aesInvSub) k))

/-- AES-256 decryption of one block. -/
def aesDec (key b : Nat) : Nat :=
  let ks := (aesKeys key).reverse
  bytesNat (aesInvRounds (ks.drop 1) (xorL (natBytes 16 b) (ks.getD 0 [])))

/-! ## GCM (SP 800-38D) -/

/-- Multiplication in GF(2^128) with GCM's bit order: bit 0 of the standard is the most significant bit here. -/
def ghashMul (x y : Nat) : Nat :=
  ((List.range 128).foldl (fun (zv : Nat × Nat) i =>
    let z := if bit x (127 - i) then zv.1 ^^^ zv.2 else zv.1
    let v := if zv.2 % 2 = 1 then zv.2 / 2 ^^^ (0xE1 * 2 ^ 120) else zv.2 / 2
    (z, v)) (0, y)).1

/-- GHASH over blocks. -/
def ghash (h : Nat) (bs : List Nat) : Nat := bs.foldl (fun a b => ghashMul (a ^^^ b) h) 0

/-- Cut bytes into big-endian blocks of 16, the last padded with zeros. -/
def blocks16 : Nat → List Byte → List Nat
  | 0, _ => []
  | _, [] => []
  | f + 1, l => let c := l.take 16
                (beNat c * 256 ^ (16 - c.length)) :: blocks16 f (l.drop 16)

def blocksOf (l : List Byte) : List Nat := blocks16 (l.length / 16 + 1) l

/-- Counter-mode keystream from a first counter block, incrementing its low 32 bits. -/
def ctrStream (ks : List (List Nat)) (ctr0 n : Nat) : List Byte :=
  ((List.range n).map fun i =>
    let lo := (ctr0 % 2 ^ 32 + i) % 2 ^ 32
    beBytes 16 (aesEncK ks (ctr0 / 2 ^ 32 * 2 ^ 32 + lo))).flatten

def xorBytes (a b : List Byte) : List Byte := List.zipWith (· ^^^ ·) a b

/-- Counter mode over bytes from counter block `ctr0`. -/
def aesCtr (key ctr0 : Nat) (l : List Byte) : List Byte :=
  xorBytes l (ctrStream (aesKeys key) ctr0 (l.length / 16 + 1))

/-- The GCM tag over AAD and ciphertext with a 96-bit IV. -/
def gcmTag (key iv : Nat) (aad ct : List Byte) : Nat :=
  let ks := aesKeys key
  let h := aesEncK ks 0
  let len := 8 * aad.length * 2 ^ 64 + 8 * ct.length
  ghash h (blocksOf aad ++ blocksOf ct ++ [len]) ^^^ aesEncK ks (iv * 2 ^ 32 + 1)

/-- GCM encryption: ciphertext and tag. -/
def gcmEnc (key iv : Nat) (aad pt : List Byte) : List Byte × Nat :=
  let ct := aesCtr key (iv * 2 ^ 32 + 2) pt
  (ct, gcmTag key iv aad ct)

/-- GCM decryption: the plaintext and the tag computed. -/
def gcmDec (key iv : Nat) (aad ct : List Byte) : List Byte × Nat :=
  (aesCtr key (iv * 2 ^ 32 + 2) ct, gcmTag key iv aad ct)

/-! ## CMAC (SP 800-38B) -/

def cmacDouble (x : Nat) : Nat := if bit x 127 then (2 * x) % 2 ^ 128 ^^^ 0x87 else 2 * x

/-- AES-256 CMAC of a byte string. -/
def cmac (key : Nat) (m : List Byte) : Nat :=
  let ks := aesKeys key
  let k1 := cmacDouble (aesEncK ks 0)
  let k2 := cmacDouble k1
  let n := if m.length = 0 then 1 else (m.length + 15) / 16
  let last := m.drop (16 * (n - 1))
  let lastB := if last.length = 16 then beNat last ^^^ k1
    else (beNat (last ++ [0x80]) * 256 ^ (15 - last.length)) ^^^ k2
  let c := (blocksOf (m.take (16 * (n - 1)))).foldl (fun a b => aesEncK ks (a ^^^ b)) 0
  aesEncK ks (c ^^^ lastB)

/-! ## SHA-384 -/

def shaK0 : List Nat :=
  [0x428A2F98D728AE22, 0x7137449123EF65CD, 0xB5C0FBCFEC4D3B2F, 0xE9B5DBA58189DBBC,
   0x3956C25BF348B538, 0x59F111F1B605D019, 0x923F82A4AF194F9B, 0xAB1C5ED5DA6D8118,
   0xD807AA98A3030242, 0x12835B0145706FBE, 0x243185BE4EE4B28C, 0x550C7DC3D5FFB4E2,
   0x72BE5D74F27B896F, 0x80DEB1FE3B1696B1, 0x9BDC06A725C71235, 0xC19BF174CF692694,
   0xE49B69C19EF14AD2, 0xEFBE4786384F25E3, 0x0FC19DC68B8CD5B5, 0x240CA1CC77AC9C65,
   0x2DE92C6F592B0275, 0x4A7484AA6EA6E483, 0x5CB0A9DCBD41FBD4, 0x76F988DA831153B5,
   0x983E5152EE66DFAB, 0xA831C66D2DB43210, 0xB00327C898FB213F, 0xBF597FC7BEEF0EE4,
   0xC6E00BF33DA88FC2, 0xD5A79147930AA725, 0x06CA6351E003826F, 0x142929670A0E6E70,
   0x27B70A8546D22FFC, 0x2E1B21385C26C926, 0x4D2C6DFC5AC42AED, 0x53380D139D95B3DF,
   0x650A73548BAF63DE, 0x766A0ABB3C77B2A8, 0x81C2C92E47EDAEE6, 0x92722C851482353B]
def shaK1 : List Nat :=
  [0xA2BFE8A14CF10364, 0xA81A664BBC423001, 0xC24B8B70D0F89791, 0xC76C51A30654BE30,
   0xD192E819D6EF5218, 0xD69906245565A910, 0xF40E35855771202A, 0x106AA07032BBD1B8,
   0x19A4C116B8D2D0C8, 0x1E376C085141AB53, 0x2748774CDF8EEB99, 0x34B0BCB5E19B48A8,
   0x391C0CB3C5C95A63, 0x4ED8AA4AE3418ACB, 0x5B9CCA4F7763E373, 0x682E6FF3D6B2B8A3,
   0x748F82EE5DEFB2FC, 0x78A5636F43172F60, 0x84C87814A1F0AB72, 0x8CC702081A6439EC,
   0x90BEFFFA23631E28, 0xA4506CEBDE82BDE9, 0xBEF9A3F7B2C67915, 0xC67178F2E372532B,
   0xCA273ECEEA26619C, 0xD186B8C721C0C207, 0xEADA7DD6CDE0EB1E, 0xF57D4F7FEE6ED178,
   0x06F067AA72176FBA, 0x0A637DC5A2C898A6, 0x113F9804BEF90DAE, 0x1B710B35131C471B,
   0x28DB77F523047D84, 0x32CAAB7B40C72493, 0x3C9EBE0A15C9BEBC, 0x431D67C49C100D4C,
   0x4CC5D4BECB3E42B6, 0x597F299CFC657E2A, 0x5FCB6FAB3AD6FAEC, 0x6C44198C4A475817]
/-- The SHA-512 round constants (FIPS 180-4). -/
def shaK : List Nat := shaK0 ++ shaK1

def shaH00 : List Nat :=
  [0xCBBB9D5DC1059ED8, 0x629A292A367CD507, 0x9159015A3070DD17, 0x152FECD8F70E5939,
   0x67332667FFC00B31, 0x8EB44A8768581511, 0xDB0C2E0D64F98FA7, 0x47B5481DBEFA4FA4]
/-- The SHA-384 initial hash value. -/
def shaH0 : List Nat := shaH00

def m64 : Nat := 2 ^ 64
def rotr64 (n x : Nat) : Nat := x / 2 ^ n + (x % 2 ^ n) * 2 ^ (64 - n)
def not64 (x : Nat) : Nat := m64 - 1 - x

/-- The message schedule; newest first. -/
def shaSched : Nat → List Nat → List Nat
  | 0, w => w
  | f + 1, w =>
    let a := w.getD 1 0
    let b := w.getD 14 0
    let s1 := rotr64 19 a ^^^ rotr64 61 a ^^^ a / 2 ^ 6
    let s0 := rotr64 1 b ^^^ rotr64 8 b ^^^ b / 2 ^ 7
    shaSched f ((s1 + w.getD 6 0 + s0 + w.getD 15 0) % m64 :: w)

def shaRound (v : List Nat) (kw : Nat × Nat) : List Nat :=
  match v with
  | [a, b, c, d, e, f, g, h] =>
    let t1 := h + (rotr64 14 e ^^^ rotr64 18 e ^^^ rotr64 41 e) + ((e &&& f) ^^^ (not64 e &&& g)) + kw.1 + kw.2
    let t2 := (rotr64 28 a ^^^ rotr64 34 a ^^^ rotr64 39 a) + ((a &&& b) ^^^ (a &&& c) ^^^ (b &&& c))
    [(t1 + t2) % m64, a, b, c, (d + t1) % m64, e, f, g]
  | _ => v

def shaBlock (h : List Nat) (blk : List Byte) : List Nat :=
  let w0 := (List.range 16).map fun i => beNat ((blk.drop (8 * i)).take 8)
  let w := (shaSched 64 w0.reverse).reverse
  List.zipWith (fun x y => (x + y) % m64) h ((List.zip shaK w).foldl shaRound h)

def shaBlocks : Nat → List Nat → List Byte → List Nat
  | 0, h, _ => h
  | f + 1, h, l => shaBlocks f (shaBlock h (l.take 128)) (l.drop 128)

/-- SHA-384 of a byte string, 48 bytes. -/
def sha384 (m : List Byte) : List Byte :=
  let z := (239 - m.length % 128) % 128
  let p := m ++ [0x80] ++ List.replicate z 0 ++ beBytes 16 (8 * m.length)
  (((shaBlocks (p.length / 128) shaH0 p).take 6).map (beBytes 8)).flatten

/-! ## HMAC and HKDF (RFC 5869) -/

def hmac (key m : List Byte) : List Byte :=
  let k := if 128 < key.length then sha384 key else key
  let k := k ++ List.replicate (128 - k.length) 0
  sha384 (k.map (· ^^^ 0x5C) ++ sha384 (k.map (· ^^^ 0x36) ++ m))

/-- HKDF-Extract. -/
def hkdfExtract (salt ikm : List Byte) : List Byte := hmac salt ikm

def hkdfBlocks : Nat → List Byte → List Byte → List Byte → Nat → List Byte
  | 0, _, _, _, _ => []
  | f + 1, prk, info, prev, i =>
    let t := hmac prk (prev ++ info ++ [BitVec.ofNat 8 i])
    t ++ hkdfBlocks f prk info t (i + 1)

/-- HKDF-Expand to `l` bytes. -/
def hkdfExpand (prk info : List Byte) (l : Nat) : List Byte :=
  (hkdfBlocks ((l + 47) / 48) prk info [] 1).take l

/-- The bytes of an ASCII label. -/
def ascii (t : String) : List Byte := t.toList.map fun c => BitVec.ofNat 8 c.toNat

/-! ## Checks -/

def crcByte (n poly : Nat) (crc : Nat) (b : Byte) : Nat :=
  (List.range 8).foldl (fun c _ => if c % 2 = 1 then c / 2 ^^^ poly else c / 2) (crc ^^^ b.toNat) % 2 ^ n

/-- CRC-32C, reflected polynomial 0x82F63B78. -/
def crc32c (l : List Byte) : Nat := l.foldl (crcByte 32 0x82F63B78) (2 ^ 32 - 1) ^^^ (2 ^ 32 - 1)

/-- CRC-64 of R219: polynomial 0x42F0E1EBA9EA3693 reflected, initial value and final XOR all ones. -/
def crc64 (l : List Byte) : Nat := l.foldl (crcByte 64 0xC96C5795D7870F42) (2 ^ 64 - 1) ^^^ (2 ^ 64 - 1)

/-! ## ECDSA P-384 (FIPS 186-5) -/

def ecP : Nat := 2 ^ 384 - 2 ^ 128 - 2 ^ 96 + 2 ^ 32 - 1
def ecN : Nat := 0xFFFFFFFFFFFFFFFFFFFFFFFFFFFFFFFFFFFFFFFFFFFFFFFFC7634D81F4372DDF581A0DB248B0A77AECEC196ACCC52973
def ecG : Nat × Nat :=
  (0xAA87CA22BE8B05378EB1C71EF320AD746E1D3B628BA79B9859F741E082542A385502F25DBF55296C3A545E3872760AB7,
   0x3617DE4A96262C6F5D9E98BF9292DC29F8F41DBD289A147CE9DA3113B5F0B8C00A60B1CE1D7E819D7A431D7C90EA0E5F)

def powMod (b m : Nat) : Nat → Nat → Nat
  | 0, _ => 1
  | f + 1, e => let h := powMod b m f (e / 2)
                if e = 0 then 1 else if e % 2 = 1 then h * h % m * b % m else h * h % m

def invMod (a m : Nat) : Nat := powMod (a % m) m 400 (m - 2)
def subMod (a b m : Nat) : Nat := (a + m - b % m) % m

/-- Point addition; `none` is the point at infinity. -/
def ecAdd : Option (Nat × Nat) → Option (Nat × Nat) → Option (Nat × Nat)
  | none, q => q
  | p, none => p
  | some (x1, y1), some (x2, y2) =>
    if x1 = x2 && (y1 + y2) % ecP = 0 then none
    else
      let l := if x1 = x2 then (3 * x1 * x1 + (ecP - 3)) * invMod (2 * y1) ecP % ecP
        else subMod y2 y1 ecP * invMod (subMod x2 x1 ecP) ecP % ecP
      let x3 := subMod (subMod (l * l) x1 ecP) x2 ecP
      some (x3, subMod (l * subMod x1 x3 ecP) y1 ecP)

def ecMul (p : Option (Nat × Nat)) : Nat → Nat → Option (Nat × Nat)
  | 0, _ => none
  | f + 1, k => if k = 0 then none
    else let h := ecMul p f (k / 2)
         let d := ecAdd h h
         if k % 2 = 1 then ecAdd d p else d

def ecHash (m : List Byte) : Nat := beNat (sha384 m)

/-- ECDSA signature with a per-signature secret `k` (R130). -/
def ecSign (d k : Nat) (m : List Byte) : Nat × Nat :=
  let r := match ecMul (some ecG) 385 k with
    | some (x, _) => x % ecN
    | none => 0
  (r, invMod k ecN * (ecHash m + r * d) % ecN)

/-- ECDSA verification. -/
def ecVerify (q : Nat × Nat) (sig : Nat × Nat) (m : List Byte) : Bool :=
  let (r, s) := sig
  if r = 0 || s = 0 || ecN ≤ r || ecN ≤ s then false
  else
    let w := invMod s ecN
    match ecAdd (ecMul (some ecG) 385 (ecHash m * w % ecN)) (ecMul (some q) 385 (r * w % ecN)) with
    | some (x, _) => x % ecN = r
    | none => false

/-- The private key of 56 bytes of key material: extra random bits (R110). -/
def ecPriv (mat : List Byte) : Nat := beNat mat % (ecN - 1) + 1

/-- A signature as 96 bytes r ‖ s, big-endian (R129). -/
def sigBytes (s : Nat × Nat) : List Byte := beBytes 48 s.1 ++ beBytes 48 s.2

end Sys2Proof.Machine
end

