-- ==== Sys2Proof/Machine/Keys.lean ====
section
/-! DEFINITION. Firebox cells, the key ladder and key identifiers (R107 to R122). -/

namespace Sys2Proof.Machine
open Sys2Proof

/-! ## Cells (R114, R117) -/

/-- The cell of an id, if one is held. -/
def State.cellOf (s : State) (id : CellId) : Option Cell := s.fbx.cells.find? fun c => c.id = id

/-- The generation of a cell: the number of its invalidations (R117). -/
def State.cellGen (s : State) (id : CellId) : Nat := ((s.fbx.gens.find? fun g => g.1 = id).map Prod.snd).getD 0

/-- A cell's check value passes (R114). -/
def Cell.checkOk (c : Cell) : Bool := c.check = 0

/-- A held cell is no orphan: its parent's generation is the one recorded, up the whole chain. The ladder is at most five
deep. -/
def State.cellBoundF (s : State) : Nat → CellId → Bool
  | 0, _ => false
  | f + 1, id =>
    match s.cellOf id with
    | none => false
    | some c =>
      match c.parent with
      | none => true
      | some p => s.cellGen p = c.parentGen && s.cellBoundF f p

def State.cellBound (s : State) (id : CellId) : Bool := s.cellBoundF 6 id

/-- A held cell may be used: it is no orphan, its check passes, and no known-answer test has failed (R108, R116, R117,
R133). -/
def State.cellLive (s : State) (id : CellId) : Bool :=
  !s.fbx.selftestFail && s.cellBound id && (s.cellOf id).any Cell.checkOk

/-- The first `n` bytes of a live key: the two shares XORed (R114). -/
def State.cellKey (s : State) (id : CellId) (n : Nat) : Option (List Byte) :=
  if s.cellLive id then (s.cellOf id).map fun c => leBytes n (c.s0 ^^^ c.s1).toNat else none

/-- Hold a key in a cell as two shares under a fresh mask, with its parent and that parent's generation. -/
def State.cellPut (s : State) (id : CellId) (parent : Option CellId) (key : List Byte) : State :=
  let (m, s) := s.draw 768
  let c : Cell := { id, s0 := m, s1 := m ^^^ BitVec.ofNat 768 (leNat key), parent
                    parentGen := (parent.map s.cellGen).getD 0 }
  { s with fbx := { s.fbx with cells := c :: s.fbx.cells.filter fun x => x.id ≠ id } }

/-- The session keys an invalidated key orphans (R118). -/
def orphansSess (id : CellId) (e : Sess) : Bool := match id with
  | .prkDom i => e.slot = i
  | .epochKey i n => e.slot = i && e.epoch.toNat = n
  | _ => false

/-- Zero the session counters of a slot and ask for a `START` on every link (R227, R229). -/
def State.zeroCounters (s : State) (i : Nat) (receive : Bool) : State :=
  { s with
    fbx := { s.fbx with
      txCtr := s.fbx.txCtr.filter fun k _ => k / 32 ≠ i
      rxCtr := s.fbx.rxCtr.filter fun k _ => k / 32 ≠ i || !receive }
    lnk := { s.lnk with links := Tbl.filter ⟨s.lnk.links.cells.map fun e =>
      (e.1, { e.2 with txStarted := e.2.txStarted.filter fun x => x ≠ i })⟩ fun _ l => l ≠ {} } }

/-- Invalidate a key: zero both shares, raise the cell's generation, and lose what the ladder keeps beside it
(Destruction and orphaning, R118, R227). -/
def State.cellDrop (s : State) (id : CellId) : State :=
  let s := { s with lnk := { s.lnk with sess := s.lnk.sess.filter fun e => !orphansSess id e } }
  let s := match id with
    | .prkDom i => s.zeroCounters i true
    | _ => s
  { s with fbx := { s.fbx with
    cells := s.fbx.cells.filter fun x => x.id ≠ id
    gens := (id, s.cellGen id + 1) :: s.fbx.gens.filter fun g => g.1 ≠ id } }

/-- The sweep: zero every orphaned cell (R117). A cell whose check fails stays for R116. -/
def State.sweepOrphans (s : State) : State :=
  { s with fbx := { s.fbx with cells := s.fbx.cells.filter fun c => s.cellBound c.id || !c.checkOk } }

/-! ## Derivations (R109) -/

/-- A derivation from a parent cell by Expand; nothing when the parent is invalid or orphaned (R108). -/
def State.expandCell (s : State) (id parent : CellId) (info : List Byte) (l : Nat) : State :=
  match s.cellKey parent 48 with
  | none => s
  | some prk => s.cellPut id (some parent) (hkdfExpand prk info l)

/-- The info of a KID key: label, KID and bind nonce. -/
def kidInfo (k : Nat) (nonce : BitVec 256) : List Byte :=
  ascii "KLY-WRH-W1 mem" ++ leBytes 2 k ++ leBytes 32 nonce.toNat

/-- The info of an epoch key. -/
def epochInfo (e : Nat) : List Byte := ascii "KLY-WRH-W1 epoch" ++ leBytes 2 e

/-- The info of a pair session key. -/
def pairInfo (src dst : Nat) : List Byte := ascii "KLY-WRH-W1 pair" ++ leBytes 2 src ++ leBytes 2 dst

/-- The pair session key of a slot, epoch and ordered node pair, if its parent lives: 36 bytes. -/
def State.pairKey (s : State) (slot e src dst : Nat) : Option (BitVec 288) :=
  (s.cellKey (.epochKey slot e) 48).map fun ek => BitVec.ofNat 288 (leNat (hkdfExpand ek (pairInfo src dst) 36))

/-- The salt of CDI_FW (R109). -/
def fwSalt (dFw dUcode dConfig : BitVec 384) (lc dbg : Nat) : List Byte :=
  sha384 (leBytes 48 dFw.toNat ++ leBytes 48 dUcode.toNat ++ leBytes 48 dConfig.toNat ++ leBytes 1 lc ++ leBytes 1 dbg)

/-- Draw a nonce of 256 bits from the TRNG (R113). -/
def State.nonce (s : State) : BitVec 256 × State := s.draw 256

/-- Sign bytes with the key of a cell and a secret drawn for it (R110, R130). A key that is not held signs nothing that
verifies: the bytes are free. -/
def State.sign (s : State) (id : CellId) (m : List Byte) : List Byte × State :=
  match s.cellKey id 56 with
  | some mat =>
    let (k, s) := s.draw 448
    (sigBytes (ecSign (ecPriv mat) (k.toNat % (ecN - 1) + 1) m), s)
  | none => let (b, s) := s.draw 768; (leBytes 96 b.toNat, s)

/-! ## KIDs (R119 to R122) -/

/-- KID lies in the plain range. -/
def State.kidPlain (s : State) (k : Nat) : Bool := 0 < k && k ≤ s.fbx.plainKidMax.toNat
/-- KID lies in the domain range. -/
def State.kidDomain (s : State) (k : Nat) : Bool := s.fbx.plainKidMax.toNat < k && k < 4096

/-- KID `k` is bound to a domain slot (`some d`) or to the plain domain (`none`); the null KID serves the plain domain
(check 4 of R29, R91). -/
def State.kidBound (s : State) (k : Nat) (d : Option Nat) : Bool :=
  match d with
  | none => k = 0 || (s.kidPlain k && (s.kid k).state ≠ .free)
  | some d => let e := s.kid k; k ≠ 0 && e.state ≠ .free && e.dvalid && e.dslot = d

/-- A region or range entry names the KID; a region whose re-key has not completed names NEW_KID too, until it is released
(R121, R169). -/
def Region.names (r : Region) (k : Nat) : Bool :=
  r.state ≠ .unassigned && (r.kid = k || (r.keying && r.newKid = k))
def HRange.names (r : HRange) (k : Nat) : Bool := r.state ≠ .unassigned && r.kid = k

/-- The KID field of a tag. -/
def tagKid (t : Tag) : Nat := bits t.toNat 33 22

/-- The tag count of a KID (R121). -/
def State.tagCount (s : State) (k : Nat) : Nat :=
  (s.msl.rgns.cells.filter fun r => r.2.names k).length +
  (s.hth.rngs.cells.filter fun r => r.2.names k).length +
  (s.qm.slices.cells.map fun l =>
    (l.2.objs.cells.filter fun o => (o.2.state = .valid || o.2.state = .revoked) && o.2.kid = k).length).sum +
  (s.hst.sites.cells.map fun t => (t.2.wins.cells.filter fun w => w.2.set && w.2.kid = k).length).sum +
  (s.msl.pending.filter fun r => tagKid r.tag = k).length + (s.hth.pending.filter fun r => tagKid r.tag = k).length +
  (s.msl.cache.cells.filter fun c => (c.2.map Cached.kid).getD 0 = k && c.2 ≠ none).length

/-- Every `COOLING` KID whose tag count is zero becomes `FREE` (R120). -/
def State.kidSettle (s : State) : State :=
  s.forEach s.fbx.kids.keys fun s k =>
    if (s.kid k).state = .cooling && s.tagCount k = 0 then s.setKid k {} else s

/-- Bind a KID under a parent with a fresh nonce and derive its key (R109, R113, R120). DESIGN CHOICE (log 114): with no
parent held, as for `BIND_PLAIN` without a boot root, the KID becomes `ACTIVE` and holds no key. -/
def State.bindKid (s : State) (k : Nat) (d : Option Nat) : State :=
  let (n, s) := s.nonce
  let parent : CellId := match d with
    | some d => .prkDom d
    | none => .bootRoot
  let s := s.expandCell (.kid k) parent (kidInfo k n) 96
  s.setKid k { state := .active, dvalid := d.isSome, dslot := d.getD 0 }

/-- A KID's key is usable: its cell is live. -/
def State.kidKeyed (s : State) (k : Nat) : Bool := s.cellLive (.kid k)
/-- The key of a KID serves (R509); the null KID needs none. -/
def State.kidServes (s : State) (kid : Nat) : Bool := kid = 0 || s.kidKeyed kid

/-- A KID admits an ordinary request: `ACTIVE`, or the null KID (R119). -/
def State.kidAdmits (s : State) (k : Nat) : Bool := k = 0 || (s.kid k).state = .active

end Sys2Proof.Machine
end

