-- ==== Sys2Proof/Machine/QueueOps.lean ====
section
/-! DEFINITION. Commands between fetch and commit: objects in flight, ends of commands, stops, and the end of a plan run
(R84 to R101, R324, R325). -/

namespace Sys2Proof.Machine
open Sys2Proof

/-! ## Objects in flight (R90, R93) -/

/-- A REVOKED entry whose in-flight count is zero becomes FREE with its generation raised, or SPENT (R93). -/
def ObjEntry.settle (o : ObjEntry) : ObjEntry :=
  if o.state = .revoked && o.inflight = 0 then
    if o.gen = 1023 then { state := .spent, gen := 1023 } else { state := .free, gen := o.gen + 1 }
  else o

/-- One more user of an entry. -/
def State.objHold (s : State) (i e : Nat) : State := s.modObj i e fun o => { o with inflight := o.inflight + 1 }

/-- One user less; the entry is released if it was the last of a REVOKED entry. -/
def State.objDrop (s : State) (i e : Nat) : State :=
  s.modObj i e fun o => ({ o with inflight := o.inflight - 1 }).settle

/-- `OBJ_FREE` of a VALID entry (R93). -/
def ObjEntry.revoke (o : ObjEntry) : ObjEntry :=
  if o.state = .valid then ({ o with state := .revoked }).settle else o

/-- Apply R93 to every VALID entry of a slice (R94). -/
def State.revokeAllObjs (s : State) (i : Nat) : State :=
  s.modSlice i fun l => { l with objs := Tbl.filter ⟨l.objs.cells.map fun e => (e.1, e.2.revoke)⟩ fun _ o => o ≠ {} }

/-! ## Commands -/

/-- The command of a queue with a sequence number. -/
def State.cmd? (s : State) (i q seq : Nat) : Option Cmd := (s.queue i q).cmds.find? fun c => c.seq = seq

/-- Change one command. -/
def State.modCmd (s : State) (i q seq : Nat) (f : Cmd → Cmd) : State :=
  s.modQueue i q fun x => { x with cmds := x.cmds.map fun c => if c.seq = seq then f c else c }

/-- The command is executing and its unit may do work for it: no stop has ended it. -/
def Cmd.runs (c : Cmd) : Bool := c.stage = .executing && c.stop = 0

/-- Work the command has issued that has not returned (R97). -/
def Cmd.outstanding (c : Cmd) : Bool := c.recordsOut ≠ 0 || c.hostOut ≠ 0

/-- End a command's work with a status and detail. -/
def Cmd.finish (c : Cmd) (st dt : Nat) : Cmd := { c with stage := .finished, status := st, detail := dt, issuedAll := true }

/-- End a command's work well, keeping flagged causes it has met (R359). -/
def Cmd.finishOk (c : Cmd) (done : Nat) (result : BitVec 64 := 0) : Cmd :=
  let c := { c with stage := .finished, status := stDone, detail := 0, done, result, issuedAll := true }
  if c.forced then c.flag dtSyncForced else c

def State.finishCmd (s : State) (i q seq st dt : Nat) : State := s.modCmd i q seq fun c => c.finish st dt

/-- The status a stop gives: 1 an accepted abort, 2 a squash, 3 the squash of a draining invalidation (R97, R99, R393). -/
def stopStatus (kind : Nat) : Nat := if kind = 1 then stAborted else if kind = 3 then stXlatSquashed else stSquashed

/-- Completion flags from the counters of the crossing ALU (R302, R323). -/
def Stats.flags (t : Stats) : BitVec 4 :=
  (if t.promoted ≠ 0 then flPromoted else 0) ||| (if t.saturated ≠ 0 then flSaturated else 0) |||
  (if t.specials ≠ 0 then flSpecials else 0)

/-- Once a stopped command's issued work has returned it ends as the stop decided, with the flags of the blocks it has done
(R97, R99, R302). -/
def Cmd.settleStop (c : Cmd) : Cmd :=
  if c.stage = .executing && c.stop ≠ 0 && !c.outstanding then
    ({ c with flags := c.flags ||| c.stats.flags }).finish (stopStatus c.stop) c.stopDetail
  else c

/-- End a command by a stop: 1 an accepted abort, 2 a squash. A queued command ends with nothing done; an executing one
once its issued work has returned; a finished one with its full count (R97, R99). The first stop decides, but that an
accepted abort takes precedence over the squash of a draining invalidation (R96, R393). -/
def Cmd.stopWith (c : Cmd) (kind dt : Nat) : Cmd :=
  if c.stop ≠ 0 && !(kind = 1 && c.stop = 3) then c
  else
    match c.stage with
    | .executing => ({ c with stop := kind, stopDetail := dt }).settleStop
    | .finished => { c with stop := kind, status := stopStatus kind, detail := dt }
    | _ => { c with stop := kind, stage := .finished, status := stopStatus kind, detail := dt
                    done := 0 }

/-- Waits that a die registers at most (R343). -/
def maxWaits : Nat := 65536

/-- The registered waits; the others found the table full. -/
def State.regWaits (s : State) : List Wait := s.syn.waits.take maxWaits

/-- Remove a wait; the first that found the table full registers in the space that frees (R343). -/
def State.dropWait (s : State) (w : Waiter) : State :=
  let stays (x : Wait) : Bool := x.who ≠ w
  let reg := s.regWaits.filter stays
  let held := (s.syn.waits.drop maxWaits).filter stays
  let n := maxWaits - reg.length
  { s with syn := { s.syn with waits := reg ++ (held.take n).map (fun x => { x with at_ := s.now }) ++ held.drop n } }

/-- Commands of the slice between start and commit. -/
def Queue.outstanding (q : Queue) : Nat := (q.cmds.filter fun c => c.started).length

/-! ## The end of a plan run (R325) -/

/-- The step's run state. -/
def Plan.srun (p : Plan) (k : Nat) : StepRun := p.sruns.get {} k
def Plan.setSrun (p : Plan) (k : Nat) (r : StepRun) : Plan := { p with sruns := p.sruns.set {} k r }
def Plan.step (p : Plan) (k : Nat) : StepW := p.steps.getD k []
def Plan.indices (p : Plan) : List Nat := List.range p.steps.length

/-- Elements of completed steps, and of the whole blocks the others had completed (R323). -/
def Plan.elementsDone (p : Plan) : Nat :=
  (p.indices.map fun k => let r := p.srun k
    if r.stage = .completed then stCount (p.step k) else 32 * r.blocks).sum

/-- The peer node recorded for a link (R309). -/
def Plan.peer (p : Plan) (link : Nat) : Nat := ((p.peers.find? fun e => e.1 = link).map Prod.snd).getD 0

/-- Queue a flit of a slot toward a peer on a link (R228). -/
def State.queueFlit (s : State) (link : Nat) (f : WaitFlit) : State :=
  s.modLink link fun l => { l with txQueue := l.txQueue ++ [f] }

/-- One entry of a `COL_CTL` payload (R313). -/
def colEntry (stream run op value : Nat) : List Byte := leBytes 16 (packFields [(16, stream), (16, run), (8, op), (24, 0), (64, value)])

/-- Send a `COL_CTL` entry about a stream over a link, or over a bridge when the link field is 32 + h. -/
def State.sendColCtl (s : State) (link dslot peer stream run op value : Nat) : State :=
  let pl := colEntry stream (run % 65536) op value ++ List.replicate 224 0
  if link < 32 then
    s.queueFlit link { ftype := 0x11, slot := some dslot, dst := peer, src := s.fab.node, payload := pl }
  else s.emit (.bridgeCol (link - 32) dslot pl)

/-- End a run: the first cause decides its status; every transmit stream of a started step sends `ABORT`; waits of its
steps are dropped; the `PLAN_RUN` command finishes with the elements done (R324, R325). -/
def State.endRun (s : State) (k st dt : Nat) : State :=
  let p := s.plan k
  if !p.running || p.fail ≠ 0 then s
  else
    let s := s.forEach p.indices fun s x =>
      let w := p.step x
      if (p.srun x).stage = .started && stSend w then
        s.sendColCtl (stTxLink w) p.dslot (p.peer (stTxLink w)) (stTxStream w) p.run.toNat 2 0
      else s
    let s := s.forEach p.indices fun s x => s.dropWait (.step k x)
    let s := s.setPlan k { p with fail := st, failDetail := dt }
    s.modCmd (p.runQ / 2 ^ 18) (p.runQ % 2 ^ 18) p.runSeq fun c =>
      if c.stage = .executing then { c.finish st dt with done := p.elementsDone, issuedAll := true } else c

/-! ## Stops (R82, R99) -/

/-- End one command by a stop, with its wait and its run. -/
def State.stopCmd (s : State) (i q : Nat) (c : Cmd) (kind dt : Nat) : State :=
  let s := s.dropWait (.cmd i q c.seq)
  let s := if c.opcode = 0x31 && c.stage = .executing then
      s.endRun (c.f 1 7 0) (if kind = 1 then stAborted else stSquashed) dt else s
  s.modCmd i q c.seq fun c => c.stopWith kind dt

/-- The queue has nothing left to commit: a stopping queue becomes STOPPED (R82, R98, R99). -/
def Queue.settle (q : Queue) : Queue :=
  if q.state = .stopping && q.cmds.isEmpty && (q.squash || q.head = q.stopTail) then { q with state := .stopped } else q

/-- Put a queue into STOPPING in squash mode and end its commands (R82, R99); other states keep. A cause other than 0 is
reported. -/
def State.squashQueue (s : State) (i q dt cause : Nat) : State :=
  let x := s.queue i q
  if x.state = .enabled || x.state = .error || (x.state = .stopping && !x.squash) then
    let s := s.modQueue i q fun x => { x with state := .stopping, squash := true, cause := if cause = 0 then x.cause else cause }
    let s := x.cmds.foldl (fun s c => s.stopCmd i q c 2 dt) s
    s.modQueue i q Queue.settle
  else s

/-- Queue numbers of a slice that are not DISABLED. -/
def State.queuesOf (s : State) (i : Nat) : List Nat := ((s.slice i).queues.cells.filter fun e => e.2.state ≠ .disabled).map Prod.fst

/-- Squash every queue of a slice. -/
def State.squashSlice (s : State) (i dt cause : Nat) : State := s.forEach (s.queuesOf i) fun s q => s.squashQueue i q dt cause

/-- Commands of a slice that a squash would end now: those not yet committed and not already ended by a stop. -/
def State.squashable (s : State) (i : Nat) : Nat :=
  ((s.queuesOf i).map fun q => let x := s.queue i q
    if x.state = .enabled || x.state = .error || (x.state = .stopping && !x.squash) then
      (x.cmds.filter fun c => c.stop = 0).length else 0).sum

/-- INFLIGHT: commands of the slice between start and commit (R76). -/
def State.inflight (s : State) (i : Nat) : Nat := ((s.queuesOf i).map fun q => (s.queue i q).outstanding).sum

/-- Disable a queue: release its ring objects, and the objects of commands it still held (R82, R83). -/
def State.disableQueue (s : State) (i q : Nat) : State :=
  let x := s.queue i q
  let s := (x.ringObjs ++ (x.cmds.map Cmd.held).flatten).foldl (fun s e => s.objDrop i e) s
  s.modQueue i q fun x => { x with state := .disabled, cmds := [], ringObjs := [], bound := false }

end Sys2Proof.Machine
end

