-- ==== Sys2Proof/Machine/Slots.lean ====
section
/-! DEFINITION. Domain slots: state changes, alarms and their responses, and the entry of the teardown sequence
(R46 to R71). -/

namespace Sys2Proof.Machine
open Sys2Proof

/-! ## Profile fields (the profile table before R50) -/

def Slot.resp (p : Slot) : Nat := bits p.profile.toNat 1 0
def Slot.thresh (p : Slot) : Nat := bits p.profile.toNat 5 2
def Slot.window (p : Slot) : Nat := bits p.profile.toNat 11 6
def Slot.scrubFw (p : Slot) : Bool := bit p.profile.toNat 12
def Slot.leaseSecs (p : Slot) : Nat := bits p.profile.toNat 22 13

/-- The default profile word (the profile table before R50). -/
def defaultProfile : BitVec 32 := 0x291

/-- A non-zero profile word holds no reserved value (R50). -/
def profileOk (w : BitVec 32) : Bool :=
  let n := w.toNat
  n = 0 || (bits n 1 0 ≠ 3 && bits n 5 2 ≠ 0 && 1 ≤ bits n 11 6 && bits n 11 6 ≤ 60 && bits n 31 23 = 0)

/-- Slot state codes (the state table before R46). -/
def SlotState.code : SlotState → Nat
  | .empty => 0 | .admitting => 1 | .live => 2 | .quarantined => 3 | .teardown => 4

/-- The number a cause is reported under; the model's numbering (log 15). -/
def SlotCause.code : SlotCause → Nat
  | .none => 0 | .domOpen => 1 | .activate => 2 | .resume => 3 | .alarm _ => 4 | .domTeardown => 5 | .admitTimeout => 6
  | .quarantineTimeout => 7 | .lease => 8 | .tamper => 9 | .debugOpen => 10 | .memberUnverified => 11 | .keyFault => 12
  | .lifeCycle => 13 | .recovery => 14 | .done => 15

/-- Event codes of `DOM_EVENT`; the model's numbering (log 15). -/
def evQuarantine : Nat := 1
def evTeardownStart : Nat := 2
def evTeardownEnd : Nat := 3
def evMemberLost : Nat := 4
def evAdmissionFailed : Nat := 5
def evEpochDue : Nat := 6

/-- Alarm classes (R62). -/
def alTagCheck : Nat := 1
def alMemMac : Nat := 2
def alTreeLost : Nat := 3
def alHearthKid : Nat := 4
def alLinkTag : Nat := 5
def alWindowKey : Nat := 6
def alMeasure : Nat := 7
def alTamper : Nat := 8
def alDebugOpen : Nat := 9
def alRecovery : Nat := 10

/-- All slot numbers. -/
def allSlots : List Nat := List.range 64

/-- Move a slot to a state, with its cause, and record it (R47, R451 `DOM_STATE`). -/
def State.moveSlot (s : State) (i : Nat) (st : SlotState) (cause : SlotCause) : State :=
  let old := s.slot i
  let s := s.setSlot i { old with state := st, cause }
  s.record 0x40 srcStoker [(1, i), (1, old.state.code), (1, st.code), (1, cause.code)]

/-- Slices bound to a slot. -/
def State.boundSlices (s : State) (i : Nat) : List Nat :=
  (s.qm.slices.cells.filter fun e => e.2.bound && e.2.dslot = i).map Prod.fst

/-- The slot a slice acts for: its slot when bound, none otherwise. -/
def Slice.domain (l : Slice) : Option Nat := if l.bound then some l.dslot else none

/-! ## Windows (R244) -/

/-- Close a window: CLOSING, and FREE with its object released once nothing is in flight; the `WIN_CLOSE` commands of its
slice that wait for it then end (R367). -/
def State.closeWin (s : State) (w : Nat) : State :=
  let x := s.win w
  if x.state = .free then s
  else if x.inflight = 0 then
    let s := if x.sync then s else s.objDrop x.slice x.obj
    let s := s.modSlice x.slice fun l => { l with queues := ⟨l.queues.cells.map fun e => (e.1, { e.2 with
      cmds := e.2.cmds.map fun c => if c.opcode = 0x21 && c.runs && c.progress = 1 && c.f 1 11 0 = w then c.finishOk 0 else c })⟩ }
    s.setWin w {}
  else s.setWin w { x with state := .closing }

/-- Close the windows that satisfy a test. -/
def State.closeWins (s : State) (p : Win → Bool) : State :=
  s.forEach ((s.fab.wins.cells.filter fun e => e.2.state = .opened && p e.2).map Prod.fst) State.closeWin

/-- Close the windows over an object entry that has left VALID. -/
def State.closeWinsOf (s : State) (i e : Nat) : State := s.closeWins fun w => w.slice = i && !w.sync && w.obj = e

/-- `OBJ_FREE`: revoke one entry and close the windows over it (R93, R244). -/
def State.freeObj (s : State) (i e : Nat) : State := (s.modObj i e ObjEntry.revoke).closeWinsOf i e

/-- `REVOKE_ALL` (R94): every VALID entry, with the windows over them. -/
def State.revokeAll (s : State) (i : Nat) : State := (s.revokeAllObjs i).closeWins fun w => w.slice = i && !w.sync

/-! ## Watch windows (R430) -/

/-- Disarm a window and release its object. -/
def State.disarm (s : State) (n : Nat) : State :=
  let w := s.watch n
  if w.armed then (s.objDrop w.slice w.obj).setWatch n {} else s

/-- Disarm the windows that satisfy a test. -/
def State.disarmAll (s : State) (p : Watch → Bool) : State :=
  s.forEach (List.range 16) fun s n => if (s.watch n).armed && p (s.watch n) then s.disarm n else s

/-! ## Cipher pages (R410) -/

/-- A page whose key is zeroed: `EMPTY`, with its counts and nonce high-water zero. -/
def CePage.zeroed (p : CePage) : CePage :=
  if p.state = .free then p
  else { p with state := .empty, k0 := 0, k1 := 0, staged := 0, invs := 0, blks := 0, nhw := 0 }

/-- A page given back: `FREE`; a pending `UNASSIGN` is answered. Its SLICE field keeps the last owner (log 21). -/
def CePage.freed (p : CePage) : CePage :=
  { p.zeroed with state := .free, leaving := false, pgRes := if p.leaving then 2 else p.pgRes }

/-- Zero the keys of the pages of slices that satisfy a test. -/
def State.zeroPages (s : State) (p : Nat → Bool) : State :=
  s.forEach ((s.ce.pages.cells.filter fun e => p e.2.slice).map Prod.fst) fun s n => s.modCePage n CePage.zeroed

/-! ## Quarantine and teardown entry -/

/-- Squash every queue of every slice bound to a slot. -/
def State.squashSlot (s : State) (i dt cause : Nat) : State := s.forEach (s.boundSlices i) fun s l => s.squashSlice l dt cause

/-- Entry to QUARANTINED: the timeout starts, the queues stop in squash mode, Jarmir is told (R65). -/
def State.quarantine (s : State) (i : Nat) (cause : SlotCause) : State :=
  let s := s.moveSlot i .quarantined cause
  let s := s.modSlot i fun p => { p with deadline := s.now + 60 * sec }
  s.squashSlot i dtByQuarantine 4

/-- Empty every site access window that names a KID of the slot (R402). -/
def State.clearSiteWinsOf (s : State) (p : Nat → Bool) : State :=
  s.forEach s.hst.sites.keys fun s n => s.modSite n fun t =>
    { t with wins := t.wins.filter fun _ w => !(w.set && p w.kid) }

/-- Discard the held flags of a slot (the coincidences of R261). -/
def State.dropHeldFlags (s : State) (i : Nat) : State :=
  { s with fab := { s.fab with held := s.fab.held.filter fun h => h.pair.1 ≠ i + 1 } }

/-- Answer a message of a slot that still waited for confirmations, as the cause of its teardown says. -/
def State.answerWaiting (s : State) (i : Nat) : State :=
  let p := s.slot i
  if p.awaiting = 0 then s
  else s.answer (match p.cause with
    | .tamper => .tampered
    | .memberUnverified => .memberUnverified
    | _ => .badState)

/-- Steps 1 and 2 of the teardown sequence (R69): stop the queues, close the windows, disarm the watch windows
of its slices (R430), clear the site windows of the slot's KIDs, zero the keys of its slices' cipher pages (R410), discard
the slot's held flags (the coincidences of R261) and invalidate the domain secret. A message that waits for confirmations is
answered. -/
def State.teardownSteps12 (s : State) (i : Nat) : State :=
  let s := s.squashSlot i dtByTeardown 0
  let s := s.closeWins fun w => w.dvalid && w.dslot = i
  let s := s.disarmAll fun w => (s.boundSlices i).contains w.slice
  let s := s.clearSiteWinsOf fun k => let e := s.kid k; e.state ≠ .free && e.dvalid && e.dslot = i
  let s := s.zeroPages fun l => (s.boundSlices i).contains l
  let s := s.cellDrop (.prkDom i)
  let s := s.dropHeldFlags i
  let s := s.answerWaiting i
  s.modSlot i fun p => { p with hasSecret := false, tdStep := 3, awaiting := 0, unconfirmed := [] }

/-- Step 5 of the slice's slot has zeroed its queue contexts (R69): nothing is fetched from its rings or committed to them. -/
def State.ctxZeroed (s : State) (l : Nat) : Bool :=
  let p := s.slot (s.slice l).dslot
  (s.slice l).bound && p.state = .teardown && p.scrubFw && 6 ≤ p.tdStep

/-- Entry to TEARDOWN (R47, R69): the state moves, Jarmir is told, and steps 1 and 2 run. In `TEARDOWN` a further cause is
only recorded (R70). -/
def State.enterTeardown (s : State) (i : Nat) (cause : SlotCause) : State :=
  let p := s.slot i
  if p.state = .admitting || p.state = .live || p.state = .quarantined then
    let s := s.moveSlot i .teardown cause
    let s := s.emit (.domEvent i evTeardownStart cause.code 0)
    s.teardownSteps12 i
  else if p.state = .teardown then s.record 0x40 srcStoker [(1, i), (1, 4), (1, 4), (1, cause.code)]
  else s

/-! ## Alarms (R62 to R66) -/

/-- Take a response: its record, Jarmir's event, and the state change the slot's state allows (R63). -/
def State.respond (s : State) (i cls count resp : Nat) : State :=
  let s := s.record 0x31 srcStoker [(1, cls), (1, i), (1, count), (1, resp)]
  if resp = 0 then s
  else
    let s := s.emit (.domEvent i (if resp = 1 then evQuarantine else evTeardownStart) 4 cls)
    if resp = 1 then
      if (s.slot i).state = .live then s.quarantine i (.alarm cls) else s
    else
      let p := s.slot i
      if p.state = .admitting || p.state = .live || p.state = .quarantined then
        (s.moveSlot i .teardown (.alarm cls)).teardownSteps12 i
      else s

/-- Add an alarm to the counts `DOM_QUERY` returns (R52). -/
def State.countAlarm (s : State) (i cls : Nat) : State :=
  s.modSlot i fun p => { p with alarmCounts := p.alarmCounts.set 0 cls (p.alarmCounts.get 0 cls + 1) }

/-- A counted alarm charged to a slot, or to the plain domain (R46, R62, R63). -/
def State.alarm (s : State) (cls : Nat) (slot : Option Nat) : State :=
  match slot with
  | none => s.record 0x30 srcStoker [(1, cls), (1, 0xFF), (1, 0)]
  | some i =>
    let p := s.slot i
    if p.state = .empty || (p.state = .teardown && cls = alTagCheck) then
      s.record 0x30 srcStoker [(1, cls), (1, 0xFF), (1, 0)]
    else if p.state = .teardown then
      (s.countAlarm i cls).record 0x30 srcStoker [(1, cls), (1, i), (1, 0)]
    else
      let t := s.nowMs
      let times := (t :: p.alarmTimes).take 15
      let n := (times.filter fun x => t < x + p.window * 1000).length
      let s := (s.countAlarm i cls).modSlot i fun p => { p with alarmTimes := times }
      let s := s.record 0x30 srcStoker [(1, cls), (1, i), (1, n)]
      if p.thresh ≤ n then s.respond i cls n p.resp else s

/-- A `TREE_LOST` alarm counts once per subtree per second of powered time (R62). -/
def State.alarmLost (s : State) (slot : Option Nat) (subtree : Nat) : State :=
  match slot with
  | none => s.alarm alTreeLost none
  | some i =>
    let last := (s.slot i).treeLostAt.get 0 subtree
    if last ≠ 0 && s.now < last - 1 + sec then s
    else (s.modSlot i fun p => { p with treeLostAt := p.treeLostAt.set 0 subtree (s.now + 1) }).alarm alTreeLost (some i)

/-- A `MEASURE` alarm (R64): the slot's RESP if that is TEARDOWN, QUARANTINE otherwise, whatever the threshold. -/
def State.measureAlarm (s : State) (i : Nat) : State :=
  let p := s.slot i
  if p.state = .live then
    let s := (s.countAlarm i alMeasure).record 0x30 srcStoker [(1, alMeasure), (1, i), (1, 0)]
    s.respond i alMeasure 0 (if p.resp = 2 then 2 else 1)
  else s

/-- An alarm under which every non-EMPTY slot enters TEARDOWN: tamper, or the opening of intrusive debug (R62, R68). A
slot already in TEARDOWN only records it (R70). A secret still being forwarded stops, and its slot is torn down on every
member (the coincidences of R55 and R68). -/
def State.teardownAll (s : State) (cls : Nat) (cause : SlotCause) : State :=
  s.forEach (allSlots.filter fun i => (s.slot i).state ≠ .empty) fun s i =>
    let s := s.countAlarm i cls
    if (s.slot i).state = .teardown then s.record 0x30 srcStoker [(1, cls), (1, i), (1, 0)]
    else
      let s := if cls = alTamper && (s.slot i).awaiting = 1 then s.toPeers bkTeardown [i] else s
      (s.record 0x31 srcStoker [(1, cls), (1, i), (1, 0), (1, 2)]).enterTeardown i cause

/-- A member loss of a slot: `DOM_EVENT` at most once per partner per slot, and its record (R71). -/
def State.memberLost (s : State) (slot : Option Nat) (node member : Nat) : State :=
  match slot with
  | none => s.record 0x41 srcFabric [(1, 0xFF), (2, node), (1, member)]
  | some i =>
    if (s.slot i).lostReported.contains (node * 256 + member) then s
    else
      let s := s.modSlot i fun p => { p with lostReported := (node * 256 + member) :: p.lostReported }
      let s := s.record 0x41 srcFabric [(1, i), (2, node), (1, member)]
      s.emit (.domEvent i evMemberLost 0 node)

/-! ## Share faults (R116) -/

/-- The response to a failed cell check: alarm bit, record, invalidation, and the class's effect on slot or KID; the
Stoker's SYSRST for the boot root and the backing-store key follows (log 118). -/
def State.shareFault (s : State) (id : CellId) : State :=
  let cls := match id with
    | .prkDom _ => 1 | .epochKey _ _ => 2 | .kid _ => 3 | .backing => 4 | .bootRoot => 5 | _ => 0
  let s := { s with fbx := { s.fbx with alarm := s.fbx.alarm ||| 1 } }
  let s := s.record 0x60 srcFirebox [(1, 1), (1, cls)]
  let s := s.cellDrop id
  match id with
  | .prkDom i => s.enterTeardown i .keyFault
  | .epochKey i _ => s.enterTeardown i .keyFault
  | .kid k =>
    let s := { s with msl := { s.msl with cache := s.msl.cache.filter fun _ c => !((c.map fun (x : Cached) => decide (x.kid = k) && decide (x.region ≠ 64)).getD false) } }
    s.modKid k fun (e : KidEntry) => if e.state = .free then e else { e with state := .cooling }
  | .backing => { s with fbx := { s.fbx with rootFault := true } }
  | .bootRoot => { s with fbx := { s.fbx with rootFault := true } }
  | _ => s

/-- A key is about to be used: a cell whose check value fails is faulted instead (R116). -/
def State.useCell (s : State) (id : CellId) : State :=
  if (s.cellOf id).all Cell.checkOk then s else s.shareFault id

end Sys2Proof.Machine
end

