-- ==== Sys2Proof/Machine/Witness.lean ====
section
/-! DEFINITION. Per-slice counters and the taps of armed watch windows (R425, R426, R430 to R433). -/

namespace Sys2Proof.Machine
open Sys2Proof

/-- Raise a per-slice counter while the slice's EN is set (R425, R426). -/
def State.count (s : State) (slice i n : Nat) : State :=
  if (s.slice slice).telEn && n ≠ 0 then
    s.modSlice slice fun l => { l with ctrs := l.ctrs.set 0 i (l.ctrs.get 0 i + BitVec.ofNat 64 n) }
  else s

/-- Raise a light counter (R423). -/
def State.light (s : State) (k n : Nat) : State :=
  { s with tel := { s.tel with light := s.tel.light.set 0 k (s.tel.light.get 0 k + BitVec.ofNat 64 n) } }

/-- Raise a privileged counter (R424); the counters stand in PD_WITNESS, and count nothing while it is off (R36). -/
def State.priv (s : State) (i n : Nat) : State :=
  let t := if s.pdOn 3 then s.tel.priv.set 0 i (s.tel.priv.get 0 i + BitVec.ofNat 64 n) else s.tel.priv
  { s with tel := { s.tel with priv := t } }

/-! ## Slots of the arbiters (R201, R436) -/

/-- `QM_SLCFG.WALLED`. -/
def Slice.walled (l : Slice) : Bool := l.cfg.getLsbD 20

/-- A walled slice is served in slots of its own while its WALL_SHARE is not zero (R436). -/
def Slice.wallServed (l : Slice) : Bool := l.walled && l.wallShare ≠ 0

/-- The slices with slots of their own, and their shares. -/
def State.walls (s : State) : List (Nat × Nat) :=
  (s.qm.slices.cells.filter fun e => e.2.state ≠ .free && e.2.wallServed).map fun e => (e.1, e.2.wallShare)

/-- Whose slots a slice's work takes at an arbiter: its own when it is walled (one more than its number), else the common
ones, 0. -/
def State.seatOf (s : State) (slice : Nat) : Nat := if (s.walls.map Prod.fst).contains slice then slice + 1 else 0

/-- Reserve the first position at or after `p` that is still common. -/
def claimSeat (v : Nat) : Nat → Nat → Tbl Nat → Tbl Nat
  | 0, _, t => t
  | f + 1, p, t => if t.get 0 (p % 256) = 0 then t.set 0 (p % 256) v else claimSeat v f (p + 1) t

/-- The positions of a frame by whose they are. DESIGN CHOICE (log 129): the walled slices claim theirs in ascending order,
share `w` at every 256 / w positions. -/
def wallFrame (l : List (Nat × Nat)) : Tbl Nat :=
  l.foldl (fun t e => (List.range e.2).foldl (fun t k => claimSeat (e.1 + 1) 256 (k * 256 / e.2) t) t) {}

/-- The position after the next one that is `v`'s, and the walled positions that pass unused before it. -/
def nextSeat (t : Tbl Nat) (v : Nat) : Nat → Nat → Nat → Nat × Nat
  | 0, p, idle => (p, idle)
  | f + 1, p, idle =>
    let o := t.get 0 (p % 256)
    if o = v then ((p + 1) % 256, idle) else nextSeat t v f (p + 1) (idle + b2n (o ≠ 0))

/-- The slots of an arbiter go by until `n` of those that are `v`'s have been taken; walled ones that pass unused stay idle
(R436). -/
def State.passSeats (s : State) (arb n v : Nat) : State :=
  if s.walls.isEmpty then s
  else
    let t := wallFrame s.walls
    let x := (List.range n).foldl (fun x _ => nextSeat t v 256 x.1 x.2) (s.hth.wallAt.get 0 arb, 0)
    ({ s with hth := { s.hth with wallAt := s.hth.wallAt.set 0 arb x.1 } }).priv (8 * arb + 3) x.2

/-- Foreground slots used at an arbiter, in the slots of `v` (R424, R436). -/
def State.foreSlots (s : State) (arb n v : Nat) : State :=
  (s.passSeats arb n v).priv (8 * arb + (if v = 0 then 0 else 2)) n

/-- Slots used at an arbiter in common positions (R201, R424): background slots also count in `BG_SLOTS` (R207). -/
def State.slots (s : State) (arb n : Nat) (bg : Bool) : State :=
  let s := (s.passSeats arb n 0).priv (8 * arb + b2n bg) n
  if bg then { s with hth := { s.hth with
    bgSlots := s.hth.bgSlots.set 0 arb ((s.hth.bgSlots.get 0 arb + n) % 2 ^ 32)
    bgRun := s.hth.bgRun.set 0 arb 0 } }
  else s

/-! ## Taps -/

/-- One FP32 element of the statistics mode (R432). -/
def Watch.element (w : Watch) (x : Nat) : Watch :=
  let ex := bits x 30 23
  let man := bits x 22 0
  let w := { w with elements := w.elements + 1 }
  if ex = 255 then (if man = 0 then { w with infs := w.infs + 1 } else { w with nans := w.nans + 1 })
  else
    let v := fdec 8 23 x
    let w := if ex = 0 && man = 0 then { w with zeros := w.zeros + 1 }
      else if ex = 0 then { w with subs := w.subs + 1 } else w
    let sq : FVal := match v with
      | .fin _ m e => .fin false (m * m) (e + e)
      | v => v
    { w with
      least := if lt32 x w.least.toNat then BitVec.ofNat 32 x else w.least
      greatest := if lt32 w.greatest.toNat x then BitVec.ofNat 32 x else w.greatest
      sum := BitVec.ofNat 64 (add64 (fdec 11 52 w.sum.toNat) v)
      sumsq := BitVec.ofNat 64 (add64 (fdec 11 52 w.sumsq.toNat) sq) }

/-- One FP32 element of the histogram mode: saturating counts of biased exponents (R432). -/
def Watch.histElement (w : Watch) (x : Nat) : Watch :=
  let ex := bits x 30 23
  { w with elements := w.elements + 1, hist := w.hist.set 0 ex (min (2 ^ 32 - 1) (w.hist.get 0 ex + 1)) }

/-- The 16 FP32 elements of a line. -/
def lineElems (l : Line) : List Nat := (List.range 16).map fun i => bits l.toNat (32 * i + 31) (32 * i)

/-- Thirds of a nanosecond a tapped line occupies the window's unit: one CCLK cycle in the statistics and histogram
modes, 40 in the digest mode (the performance note after R433; log 10). -/
def Watch.cost (w : Watch) : Nat := if w.mode = 2 then 100 else 3

/-- A window taps one line of its range, or drops it when its buffer of 64 lines is full (R431, R433). -/
def Watch.tap (w : Watch) (ix : Nat) (data : Line) (now : Nat) : Watch :=
  let t := 3 * now
  if 64 * w.cost ≤ w.busyUntil - t then { w with dropped := w.dropped + 1, droppedFlag := true }
  else
    let w := { w with tapped := w.tapped + 1, busyUntil := max w.busyUntil t + w.cost }
    if w.mode = 0 then (lineElems data).foldl Watch.element w
    else if w.mode = 1 then (lineElems data).foldl Watch.histElement w
    else if ix = w.next then { w with digested := w.digested ++ lineBytes data, next := w.next + 1 }
    else if w.next < ix then { w with gap := true } else { w with rewritten := true }

/-- Every armed window over the line taps a write that carries its object's KID and CLASS 0b00 (R431). `kind` is 0 for
HBM and 1 for hearth; `base` is the line's byte address in the BASE encoding of R363. -/
def State.tapWrite (s : State) (kind base kid cls : Nat) (data : Line) : State :=
  s.forEach (List.range 16) fun s n =>
    let w := s.watch n
    if w.armed && cls = 0 && w.kind = kind && w.kid = kid && w.base ≤ base && base < w.base + w.len then
      let w' := w.tap ((base - w.base) / 64) data s.now
      let s := (s.setWatch n w').count w.slice 0x10 (w'.dropped - w.dropped)
      (s.priv (0x200 + 4 * n) (w'.tapped - w.tapped)).priv (0x201 + 4 * n) (w'.dropped - w.dropped)
    else s

end Sys2Proof.Machine
end

