-- ==== Sys2Proof/Machine/Sealed.lean ====
section
/-! DEFINITION. Sealed memory, its data: geometry, the cipher and MAC of a line, the stacks and their copy, failure records
and the cache entries (05_sealed_memory). A line address is stack x 2^30 + line. A source of lines answers what a stack has
returned: the copy of the stacks for the engine's own work, the lines that have arrived for requests of the network
(log 6). -/

namespace Sys2Proof.Machine
open Sys2Proof

/-! ## Bit fields of a line -/

/-- Bits `hi:lo` of a line as a number. -/
def lget (l : Line) (hi lo : Nat) : Nat := bits l.toNat hi lo
/-- A line with bits `hi:lo` replaced. -/
def lset (l : Line) (hi lo v : Nat) : Line :=
  let m : Line := BitVec.ofNat 512 (ones hi lo)
  (l &&& ~~~m) ||| (BitVec.ofNat 512 (v % 2 ^ (hi + 1 - lo)) <<< lo)

/-- MAC_s or TMAC_s of a line (R150, R154). -/
def macOf (l : Line) (k : Nat) : Nat := lget l (56 * k + 55) (56 * k)
def setMac (l : Line) (k v : Nat) : Line := lset l (56 * k + 55) (56 * k) v
/-- POISON_s of a MAC line, LOST_s of a node (bits 448 + s). -/
def flagOf (l : Line) (k : Nat) : Bool := l.getLsbD (448 + k)
def setFlag (l : Line) (k : Nat) (b : Bool) : Line := lset l (448 + k) (448 + k) (b2n b)
/-- ZERO_s of a node. -/
def zeroOf (l : Line) (k : Nat) : Bool := l.getLsbD (456 + k)
def setZero (l : Line) (k : Nat) (b : Bool) : Line := lset l (456 + k) (456 + k) (b2n b)
/-- MAJOR and MINOR_t of a counter block (R152). -/
def majorOf (l : Line) : Nat := lget l 63 0
def minorOf (l : Line) (t : Nat) : Nat := lget l (64 + 7 * t + 6) (64 + 7 * t)
def setMajor (l : Line) (v : Nat) : Line := lset l 63 0 v
def setMinor (l : Line) (t v : Nat) : Line := lset l (64 + 7 * t + 6) (64 + 7 * t) v

/-- A new node: every slot ZERO (R156). -/
def freshNode : Line := BitVec.ofNat 512 (0xFF * 2 ^ 456)

/-! ## Geometry (R143 to R146) -/

/-- The stored levels above `n` items: n1, n2, … (R143). -/
def levelsOf : Nat → Nat → List Nat
  | 0, _ => []
  | f + 1, n => if n ≤ 8 then [] else ((n + 7) / 8) :: levelsOf f ((n + 7) / 8)

def treeNodes (p : Nat) : Nat := (levelsOf 10 p).sum

/-- The pages of a sealed region: the largest P that fits (R143). -/
def sealedPages (size : Nat) : Nat :=
  (List.range 25).foldl (fun p i =>
    let q := p + 2 ^ (24 - i)
    if 4672 * q + 64 * treeNodes q ≤ size * 2097152 then q else p) 0

/-- P of a region (R143). -/
def Region.pages (r : Region) : Nat := if r.mode = 1 then sealedPages r.size else r.size * 512
/-- L of a region. -/
def Region.depth (r : Region) : Nat := if r.mode = 1 then (levelsOf 10 r.pages).length else 0

/-- Slots of a root block in use: the items of the top level (R143). -/
def Region.rootSlots (r : Region) : Nat := (r.pages + 8 ^ r.depth - 1) / 8 ^ r.depth

/-- First line of a region: its line address. -/
def Region.line0 (r : Region) : Nat := r.stack * 2 ^ 30 + r.base * 32768

/-- The line address of a level-k item, or of MAC line j at level 8 (R144). -/
def Region.itemAddr (r : Region) (level j : Nat) : Nat :=
  let p := r.pages
  if level = 8 then r.line0 + p * 64 + j
  else if level = 0 then r.line0 + p * 72 + j
  else r.line0 + p * 73 + ((levelsOf 10 p).take (level - 1)).sum + j

/-- Entries of the region table, with the backing store as entry 64 (R146). -/
def State.rgnAt (s : State) (addr : Nat) : Option Nat :=
  (s.msl.rgns.cells.find? fun e =>
    e.2.state ≠ .unassigned && e.2.line0 ≤ addr && addr < e.2.line0 + e.2.size * 32768).map Prod.fst

/-! ## Keys of items (R111, R149, R171) -/

/-- An item of the region lies wholly below WATERMARK while a re-key of the region has begun and has not completed (R171; a
release of such a region completes what is in flight under the same keys, R168). -/
def Region.below (r : Region) (level j : Nat) : Bool :=
  let first := if level = 8 then j / 8 * 1 else j * 8 ^ level
  let last := if level = 8 then first else min r.pages (first + 8 ^ level) - 1
  r.keying && last < r.watermark

/-- KID and seal generation an item is under. -/
def Region.itemKid (r : Region) (level j : Nat) : Nat := if r.below level j then r.newKid else r.kid
def Region.itemSgen (r : Region) (level j : Nat) : Nat := if r.below level j then r.newSgen else r.sgen

/-- The 96 key bytes of a KID, or of the backing store for region 64. -/
def State.memKey (s : State) (ri kid : Nat) : Option (List Byte) :=
  s.cellKey (if ri = 64 then .backing else .kid kid) 96

/-! ## The cipher of a line (R147, R150) -/

def encKey (k : List Byte) : Nat := beNat (k.take 32)
def macKey (k : List Byte) : Nat := beNat ((k.drop 32).take 32)
def mixKey (k : List Byte) : List Byte := k.drop 64

/-- The input block of R147 as an AES block. `addr` is the line address. -/
def inputBlock (blk addr minor sgen purpose major : Nat) : Nat :=
  beNat (leBytes 16 (packFields [(2, blk), (30, addr % 2 ^ 30), (2, addr / 2 ^ 30), (7, minor), (21, sgen), (2, purpose),
    (64, major)]))

/-- The keystream of a line. -/
def lineStream (key addr minor sgen major : Nat) : Line :=
  let ks := aesKeys key
  lineOf ((List.range 4).map fun b => beBytes 16 (aesEncK ks (inputBlock b addr minor sgen 1 major))).flatten

/-- MSB_56 of a block as it is stored: its first 7 bytes, little-endian. -/
def msb56 (x : Nat) : Nat := leNat ((beBytes 16 x).take 7)

/-- The MAC of a sealed line's ciphertext (R150). -/
def lineMac (key addr minor sgen major : Nat) (ct : Line) : Nat :=
  let ks := aesKeys key
  let h := aesEncK ks 0
  let cs := blocksOf (lineBytes ct)
  msb56 (ghash h (cs ++ [512]) ^^^ aesEncK ks (inputBlock 0 addr minor sgen 2 major))

/-- The tree MAC of a child item (R155). -/
def treeMac (key ri level j sgen : Nat) (item : Line) : Nat :=
  msb56 (cmac key (leBytes 16 (packFields [(28, j), (4, level), (7, ri), (21, sgen), (2, 0), (2, 3), (64, 0)]) ++
    lineBytes item))

/-- XOR of a scrambled line (R147): counters and seal generation zero. -/
def scramble (key addr : Nat) (l : Line) : Line := l ^^^ lineStream key addr 0 0 0

/-! ## The stacks -/

/-- A source of lines: what has arrived for requests of the network, or the copy of the stacks, which answers the engine's
own reads at once (log 6). -/
inductive Src where
  | arrived
  | copy
  deriving DecidableEq, Repr

/-- What a source answers for a line: its data and the controller's poison. -/
def State.line? (s : State) (src : Src) (a : Nat) : Option (Line × Bool) :=
  match src with
  | .arrived => (s.msl.arrived.find? fun e => e.1 = a).map Prod.snd
  | .copy => some (s.msl.hbm.get 0 a, s.msl.hbmPoison.get false a)

/-- The engine's own read of a line stands at the stack interface, unless that line is on its way already (R1, R162). -/
def State.fetched (s : State) (src : Src) (a : Nat) : State :=
  if src = .copy && !s.msl.issued.contains a then s.emit (.hbmRead (a / 2 ^ 30) (a % 2 ^ 30)) else s

/-- Write masked bytes of a line to a stack. A full write clears the controller's poison (log 6). What a read issued before
the write returns is not used after it (R160). -/
def State.hbmWrite (s : State) (a : Nat) (d : Line) (m : BitVec 64) : State :=
  let old := s.msl.hbm.get 0 a
  let s := { s with msl := { s.msl with
    hbm := s.msl.hbm.set 0 a (mergeLine old d m)
    hbmPoison := if m = fullMask then s.msl.hbmPoison.set false a false else s.msl.hbmPoison
    arrived := s.msl.arrived.filter fun e => e.1 ≠ a
    stale := if s.msl.issued.contains a && !s.msl.stale.contains a then a :: s.msl.stale else s.msl.stale } }
  s.emit (.hbmWrite (a / 2 ^ 30) (a % 2 ^ 30) d m)

/-! ## Failures: records and counts (R166, R178, R451) -/

/-- Rows of R166 as `MEM_CHECK_FAIL` numbers them (log 54). -/
def rowMac : Nat := 0
def rowPoison : Nat := 1
def rowDataPoison : Nat := 2
def rowMacPoison : Nat := 3
def rowTree : Nat := 4
def rowLost : Nat := 5
def rowKid : Nat := 6
def rowReadonly : Nat := 7

/-- Record a failed check. DESIGN CHOICE (log 121): the unit is the memory seal front end for every failure, also for one
that a memory sliver finds; the spec does not say which of them raises `MEM_CHECK_FAIL`. -/
def State.checkFail (s : State) (addr row : Nat) : State :=
  s.record 0x50 srcMsl [(1, addr / 2 ^ 30), (5, addr % 2 ^ 30 * 64), (1, row)]

def sat32 (n : Nat) : Nat := min n (2 ^ 32 - 1)

def State.macFailed (s : State) (ri : Nat) : State := s.modRgn ri fun r => { r with macFails := sat32 (r.macFails + 1) }
/-- A read answered poisoned for another cause than a MAC mismatch (R178). -/
def State.readPoisoned (s : State) (ri : Nat) : State := s.modRgn ri fun r => { r with poisoned := sat32 (r.poisoned + 1) }

/-- The same, for the region that holds a line. -/
def State.poisonedAt (s : State) (addr : Nat) : State := match s.rgnAt addr with
  | some ri => s.readPoisoned ri
  | none => s

/-- Raise the error counts of a unit: corrected, uncorrectable data, uncorrectable metadata (R198, R207). -/
def State.memErr (s : State) (u c d m : Nat) : State :=
  let e := s.hth.errs.get {} u
  let e : MemErr := { corrected := sat32 (e.corrected + c), uncorrData := min 65535 (e.uncorrData + d)
                      uncorrMeta := min 65535 (e.uncorrMeta + m) }
  { s with hth := { s.hth with errs := s.hth.errs.set {} u e } }

/-- The slot of a KID. -/
def State.kidSlot (s : State) (k : Nat) : Option Nat := let e := s.kid k; if e.dvalid then some e.dslot else none

/-! ## The caches (R157, R158) -/

/-- A cached item. -/
def State.cached (s : State) (a : Nat) : Option Cached := s.msl.cache.get none a
def State.setCached (s : State) (a : Nat) (c : Option Cached) : State :=
  { s with msl := { s.msl with cache := s.msl.cache.set none a c } }

/-- The powered power groups of a stack as a mask (R24). -/
def State.poweredGroups (s : State) (stack : Nat) : Nat :=
  ((List.range 4).map fun g => if s.sys.pd.get .on (14 + 4 * stack + g) = .on then 2 ^ g else 0).sum

/-- The memory sliver (0 to 127) of a stack that serves a page (R24): one of a powered group, a run of consecutive pages
as long as there are powered slivers taking each of them once; where the run begins is open (log 107). -/
def State.sliverOf (s : State) (stack page : Nat) : Nat :=
  let gs := (List.range 4).filter fun g => s.sys.pd.get .on (14 + 4 * stack + g) = .on
  let n := 32 * gs.length
  let k := (page + Config.sliverShift stack (s.poweredGroups stack) (page / n)) % n
  32 * gs.getD (k / 32) 0 + k % 32

/-- The arbiter (0 to 15) of the sliver that serves a page of a stack (R24, R201). -/
def State.arbiter (s : State) (stack page : Nat) : Nat := 4 * stack + s.sliverOf stack page / 32

/-- The page of a region as its stack numbers pages. -/
def Region.stackPage (r : Region) (p : Nat) : Nat := r.base * 512 + p

end Sys2Proof.Machine
end

