-- ==== Sys2Proof/Machine/Draught.lean ====
section
/-! DEFINITION. The draught-share arbiters: the background jobs that wait, the order in which they are served, and the slots
that foreground and background work take (R69 step 4, R186, R196, R199 to R202, R207). -/

namespace Sys2Proof.Machine
open Sys2Proof

/-- Tier of a hearth line (R179). -/
def tierOf (a : Nat) : Nat := a / 8 % 8

/-- The arbiters of the hearth gates. -/
def gateArbs : List Nat := (List.range 8).map fun t => 16 + t

/-- The arbiters of the powered groups of a stack. -/
def State.stackArbs (s : State) (stack : Nat) : List Nat :=
  ((List.range 4).map fun g => 4 * stack + g).filter fun a => s.sys.pd.get .on (14 + a) = .on

/-- Every command between fetch and commit, with its slice and queue. -/
def State.allCmds (s : State) : List (Nat × Nat × Cmd) :=
  (s.qm.slices.cells.map fun e => (e.2.queues.cells.map fun q => q.2.cmds.map fun c => (e.1, q.1, c)).flatten).flatten

/-! ## Scrub engines (R199, R200) -/

def State.scrub (s : State) (u : Nat) : Scrub := s.hth.scrub.get {} u
def State.setScrub (s : State) (u : Nat) (v : Scrub) : State := { s with hth := { s.hth with scrub := s.hth.scrub.set {} u v } }

/-- Lines an engine reads in a pass: a stack's 2^30, a tier's 832 MiB. -/
def scrubLines (u : Nat) : Nat := if u < 4 then 2 ^ 30 else 13631488

/-- The period in nanoseconds. -/
def State.scrubPeriod (s : State) : Nat := s.hth.period * 3600 * sec

/-- The engine has a line to issue: it is escalated, or since its last line the time left before the deadline, shared over
the rest of the pass, has gone by (R200). -/
def State.scrubDue (s : State) (u : Nat) : Bool :=
  let e := s.scrub u
  u < 12 && s.hth.period ≠ 0 && 3 ≤ s.rst.step &&
    (e.behind || e.startAt + s.scrubPeriod - e.lineAt ≤ (s.now - e.lineAt) * (scrubLines u - e.progress))

/-- The arbiter of the engine's next line. -/
def State.scrubArb (s : State) (u : Nat) : Nat :=
  if u < 4 then s.arbiter u ((s.scrub u).progress / 64) else 12 + u

/-! ## Zero-fill of a teardown (R69 step 4) -/

def State.slotKids (s : State) (i : Nat) : List Nat :=
  (s.fbx.kids.cells.filter fun e => e.2.state ≠ .free && e.2.dvalid && e.2.dslot = i).map Prod.fst

/-- Regions and hearth ranges under a slot's KIDs. -/
def State.slotRgns (s : State) (i : Nat) : List Nat :=
  let ks := s.slotKids i
  (s.msl.rgns.cells.filter fun e => e.2.state ≠ .unassigned && ks.contains e.2.kid && e.2.kid ≠ 0).map Prod.fst
def State.slotHrgs (s : State) (i : Nat) : List Nat :=
  let ks := s.slotKids i
  (s.hth.rngs.cells.filter fun e => e.2.state ≠ .unassigned && ks.contains e.2.kid && e.2.kid ≠ 0).map Prod.fst

/-- A unit of the zero-fill: 2 MiB of a region, or 1 MiB of a hearth range. -/
inductive FillUnit where
  | region (ri u : Nat)
  | range (n u : Nat)
  deriving DecidableEq, Repr

/-- Unit `k` of a run of spans, each a region or a range with its size. -/
def unitAt : List (FillUnit × Nat) → Nat → Option FillUnit
  | [], _ => none
  | (x, n) :: r, k =>
    if k < n then some (match x with
      | .region ri _ => .region ri k
      | .range m _ => .range m k)
    else unitAt r (k - n)

/-- The next unit of a slot's zero-fill: its regions, then its hearth ranges. -/
def State.fillUnit (s : State) (i : Nat) : Option FillUnit :=
  unitAt ((s.slotRgns i).map (fun r => (.region r 0, (s.rgn r).size)) ++ (s.slotHrgs i).map fun n => (.range n 0, (s.hrg n).size))
    (s.slot i).tdFill

/-! ## Reseals (R196) -/

def Cmd.resealPages (c : Cmd) : Nat := c.f 1 59 32
def Cmd.resealObj (c : Cmd) : Nat := hIndex (c.f 1 31 0)

/-- First byte of a reseal's range as a byte address of its stack space: the object's base and the offset. -/
def State.resealAddr (s : State) (i : Nat) (c : Cmd) : Nat := (s.obj i c.resealObj).base + c.f 2 39 0

/-- Line address of an HBM object's byte address (R363). -/
def objLine (b : Nat) : Nat := bits b 37 36 * 2 ^ 30 + bits b 35 6

/-- The region of a reseal's range, and its first page. -/
def State.resealAt (s : State) (i : Nat) (c : Cmd) : Option (Nat × Nat) :=
  let a := objLine (s.resealAddr i c)
  match s.rgnAt a with
  | none => none
  | some ri => some (ri, (a - (s.rgn ri).line0) / 64)

/-! ## Jobs (R202) -/

/-- A background job that waits: its class in the order of R202, a number that tells the jobs of a class apart, and the
arbiters whose slots its next piece takes. -/
structure BgJob where
  cls : Nat
  id : Nat
  arbs : List Nat
  deriving DecidableEq, Repr

def clsEscalated : Nat := 1
def clsFill : Nat := 2
def clsInit : Nat := 3
def clsReseal : Nat := 4
def clsScrub : Nat := 5

/-- The number of a command's job. -/
def cmdJob (i q seq : Nat) : Nat := (i * 2 ^ 18 + q) * 2 ^ 64 + seq

def State.scrubJobs (s : State) : List BgJob :=
  ((List.range 12).filter s.scrubDue).map fun u =>
    { cls := if (s.scrub u).behind then clsEscalated else clsScrub, id := u, arbs := [s.scrubArb u] }

def State.fillJobs (s : State) : List BgJob :=
  (s.dom.slots.cells.filter fun e => e.2.state = .teardown && e.2.tdStep = 4).map fun e =>
    { cls := clsFill, id := e.1, arbs := match s.fillUnit e.1 with
        | some (.region r _) => s.stackArbs (s.rgn r).stack
        | some (.range _ _) => gateArbs
        | none => [] }

/-- Ranges whose initialisation goes on: under a key that still serves a KID that is `ACTIVE` (R186, R509). -/
def State.initJobs (s : State) : List BgJob :=
  (s.hth.rngs.cells.filter fun e => e.2.state = .initialising && s.kidServes e.2.kid && s.kidAdmits e.2.kid).map fun e =>
    { cls := clsInit, id := e.1, arbs := gateArbs }

def State.resealJobs (s : State) : List BgJob :=
  (s.allCmds.filter fun e => e.2.2.runs && e.2.2.rgn ≠ 0 && [0x12, 0x13, 0x64].contains e.2.2.opcode).map fun e =>
    let c := e.2.2
    let r := s.rgn (c.rgn - 1)
    let p := if c.opcode = 0x64 then r.watermark else ((s.resealAt e.1 c).map Prod.snd).getD 0 + c.progress
    { cls := clsReseal, id := cmdJob e.1 e.2.1 c.seq, arbs := [s.arbiter r.stack (r.stackPage p)] }

/-- Every background job that waits. -/
def State.bgJobs (s : State) : List BgJob := s.scrubJobs ++ s.fillJobs ++ s.initJobs ++ s.resealJobs

/-- The jobs that wait at an arbiter. -/
def State.bgAt (s : State) (a : Nat) : List BgJob := s.bgJobs.filter fun j => j.arbs.contains a

/-- An escalated job waits at an arbiter (R201, R207). -/
def State.escalatedAt (s : State) (a : Nat) : Bool := (s.bgAt a).any fun j => j.cls = clsEscalated

/-- The least of a list of numbers. -/
def least? : List Nat → Option Nat
  | [] => none
  | x :: r => some (r.foldl min x)

/-- The job an arbiter serves next: of the highest class that waits, the one that stands behind the job served last
(R202). -/
def State.bgNext (s : State) (a : Nat) : Option (Nat × Nat) :=
  let l := s.bgAt a
  (least? (l.map BgJob.cls)).bind fun c =>
    let ids := (l.filter fun j => j.cls = c).map BgJob.id
    let last := s.hth.bgLast.get 0 (8 * a + c)
    (match least? (ids.filter fun i => last ≤ i) with
      | some i => some i
      | none => least? ids).map fun i => (c, i)

/-- A job may take slots now: no job of a higher class waits at any of its arbiters, and at the first of them it is its turn
in its class (log 45). -/
def State.bgTurn (s : State) (cls id : Nat) : Bool :=
  match s.bgJobs.find? fun j => j.cls = cls && j.id = id with
  | none => false
  | some j => (j.arbs.all fun a => (s.bgNext a).any fun n => n.1 = cls) &&
      (match j.arbs with
        | [] => true
        | a :: _ => s.bgNext a = some (cls, id))

/-- A job has had its turn at every arbiter it waits at. -/
def State.bgTaken (s : State) (cls id : Nat) : State :=
  match s.bgJobs.find? fun j => j.cls = cls && j.id = id with
  | none => s
  | some j => { s with hth := { s.hth with bgLast := j.arbs.foldl (fun t a => t.set 0 (8 * a + cls) (id + 1)) s.hth.bgLast } }

/-! ## Fields of the crossing tag (R28) -/

def tagSite (t : Tag) : Nat := bits t.toNat 3 0
def tagSlice (t : Tag) : Nat := bits t.toNat 14 4
def tagDslot (t : Tag) : Nat := bits t.toNat 20 15
def tagDvalid (t : Tag) : Bool := bit t.toNat 21
def tagClass (t : Tag) : Nat := bits t.toNat 35 34
def tagPoison (t : Tag) : Bool := bit t.toNat 36
def tagHub (t : Tag) : Nat := bits t.toNat 39 37
def tagRsv (t : Tag) : Nat := bits t.toNat 47 40

/-! ## Slots (R201) -/

/-- Background work is owed the next slot of an arbiter: one in every 16, and four in every 16 while an escalated job
waits. -/
def State.bgOwed (s : State) (a : Nat) : Bool :=
  !(s.bgAt a).isEmpty && (if s.escalatedAt a then 3 else 15) ≤ s.hth.bgRun.get 0 a

/-- Whose slots a request takes: those of the walled slice its tag names, whatever its site (R436). -/
def State.tagSeat (s : State) (t : Tag) : Nat := if tagClass t = 1 then 0 else s.seatOf (tagSlice t)

/-- A request takes its slot of an arbiter; the slots of walled slices stand outside the background guarantee (R201,
R436). -/
def State.takeSlot (s : State) (a : Nat) (t : Tag) : State :=
  let v := s.tagSeat t
  if v ≠ 0 then s.foreSlots a 1 v
  else
    let bg := tagClass t = 1
    let run := if bg || (s.bgAt a).isEmpty then 0 else s.hth.bgRun.get 0 a + 1
    let s := s.slots a 1 bg
    { s with hth := { s.hth with bgRun := s.hth.bgRun.set 0 a run } }

/-- A request waits for its slot: background work is owed the next one of the common slots. -/
def State.slotBarred (s : State) (a : Nat) (t : Tag) : Bool := s.tagSeat t = 0 && s.bgOwed a

end Sys2Proof.Machine
end

