-- ==== Sys2Proof/Machine/Tree.lean ====
section
/-! DEFINITION. Sealed memory, its work: verified metadata and its caches, write-back, reads and writes of lines, and page
re-encryption (R148 to R171, R187 to R195). -/

namespace Sys2Proof.Machine
open Sys2Proof

/-! ## Cached items (R157) -/

/-- Mark a cached item as used now. -/
def State.touch (s : State) (a : Nat) (c : Cached) : State :=
  let s := { s with msl := { s.msl with stamp := s.msl.stamp + 1 } }
  s.setCached a (some { c with used := s.msl.stamp })

/-- Put a verified item in its cache, or a new value of it. -/
def State.cachePut (s : State) (ri level j : Nat) (d : Line) (dirty : Bool) : State :=
  let r := s.rgn ri
  let a := r.itemAddr level j
  let was := s.cached a
  s.touch a { data := d, kid := if ri = 64 then 0 else r.itemKid level j
              dirty := dirty || (was.map Cached.dirty).getD false, region := ri, level, index := j }

/-- Write a root block. -/
def State.setRoot (s : State) (ri : Nat) (v : Line) : State := { s with fbx := { s.fbx with roots := s.fbx.roots.set 0 ri v } }
def State.root (s : State) (ri : Nat) : Line := s.fbx.roots.get 0 ri

/-- Change the slot that covers an item, in its cached parent or in the root block. -/
def State.modParent (s : State) (ri level j : Nat) (f : Line → Nat → Line) : State :=
  let r := s.rgn ri
  if r.depth ≤ level then s.setRoot ri (f (s.root ri) (j % 8))
  else
    let a := r.itemAddr (level + 1) (j / 8)
    match s.cached a with
    | some c => s.setCached a (some { c with data := f c.data (j % 8), dirty := true })
    | none => s

/-- Drop the cached items that satisfy a test without writing them back. -/
def State.dropCached (s : State) (p : Cached → Bool) : State :=
  { s with msl := { s.msl with cache := s.msl.cache.filter fun _ c => !((c.map p).getD false) } }

/-! ## Verified items -/

/-- What the search of a metadata item gives. -/
inductive Got where
  | ok (l : Line)
  | missing (addrs : List Nat)
  | zero
  | lost (subtree : Nat)
  | badMac
  /-- The key an item of the path is under no longer serves (R509). -/
  | noKey
  deriving DecidableEq, Repr

/-- Steps enough for any path: a tree has at most seven levels above its counter blocks (R154). -/
def treeFuel : Nat := 10

/-- The key of a subtree in `treeLostAt`: region, level and index of the LOST item. -/
def subtreeKey (ri level j : Nat) : Nat := (ri * 16 + level) * 2 ^ 28 + j

/-- Discard what is cached of an item and of everything below it in the tree: a line below a LOST slot is not served from a
cache (R195). MAC lines have no slot. -/
def State.dropBelow (s : State) (ri level j : Nat) : State :=
  s.dropCached fun c => c.region = ri && c.level ≤ level && c.index / 8 ^ (level - c.level) = j

/-- Set LOST in the slot that covers an item the controller poisons (R194). -/
def State.setLost (s : State) (ri level j : Nat) : State :=
  let s := s.modParent ri level j fun l k => setFlag l k true
  let s := (s.dropBelow ri level j).memErr (s.rgn ri).stack 0 0 1
  s.record 0x51 srcMsl [(1, ri), (1, level), (4, j)]

/-- Set LOST in every used slot of a root block (R128, R194). -/
def State.rootLost (s : State) (ri : Nat) : State :=
  let s := s.setRoot ri ((List.range (s.rgn ri).rootSlots).foldl (fun l k => setFlag l k true) (s.root ri))
  s.dropCached fun c => c.region = ri && c.level ≠ 8

/-- A root block that fails its check value (R128, R135, R194). -/
def State.rootFault (s : State) (ri : Nat) : State :=
  if (List.range (s.rgn ri).rootSlots).all fun k => flagOf (s.root ri) k then s
  else
    let bad := if s.fbx.rootBad.contains ri then s.fbx.rootBad else ri :: s.fbx.rootBad
    (({ s with fbx := { s.fbx with rootBad := bad, alarm := s.fbx.alarm ||| 8 } }).record 0x60 srcFirebox
      [(1, 8), (1, 6)]).rootLost ri

/-- Verify an item that a source has answered against its slot in its parent `p`, and cache it (R157, R194). -/
def State.itemUnder (src : Src) (s : State) (ri level j : Nat) (p : Line) : Got × State :=
  let r := s.rgn ri
  let a := r.itemAddr level j
  if flagOf p (j % 8) then (.lost (subtreeKey ri level j), s)
  else if zeroOf p (j % 8) then (.zero, s)
  else
    match s.line? src a, s.memKey ri (r.itemKid level j) with
    | none, _ => (.missing [a], s)
    | some _, none => (.noKey, s)
    | some (d, poison), some key =>
      let s := s.fetched src a
      if poison then (.lost (subtreeKey ri level j), s.setLost ri level j)
      else if treeMac (macKey key) ri level j (r.itemSgen level j) d = macOf p (j % 8) then
        (.ok d, (s.cachePut ri level j d false).priv (8 * s.arbiter r.stack (r.stackPage j) + 5) (b2n (level = 0)))
      else (.badMac, s)

/-- Find and verify a metadata item, level by level up to a cached item or the root block (R157, R162, R194). -/
def State.item (src : Src) (ri : Nat) : Nat → Nat → Nat → State → Got × State
  | 0, _, _, s => (.badMac, s)
  | f + 1, level, j, s =>
    let r := s.rgn ri
    let a := r.itemAddr level j
    match s.cached a with
    | some c => (.ok c.data, s.touch a c)
    | none =>
      if r.depth ≤ level then s.itemUnder src ri level j (s.root ri)
      else
        match State.item src ri f (level + 1) (j / 8) s with
        | (.missing l, s) => (.missing (if (s.line? src a).isNone then a :: l else l), s)
        | (.ok p, s) => s.itemUnder src ri level j p
        | x => x

/-- An item, read from the stack at once where no cache holds it. -/
@[irreducible] def State.itemNow (s : State) (ri level j : Nat) : Got × State := State.item .copy ri treeFuel level j s

/-- Build the missing items below a ZERO slot down to an item (R156); the item and its ancestors are then cached. -/
def State.build (ri : Nat) : Nat → Nat → Nat → State → State
  | 0, _, _, s => s
  | f + 1, level, j, s =>
    let r := s.rgn ri
    if (s.cached (r.itemAddr level j)).isSome then s
    else
      let s := if r.depth ≤ level then s else State.build ri f (level + 1) (j / 8) s
      let p := if r.depth ≤ level then s.root ri else ((s.cached (r.itemAddr (level + 1) (j / 8))).map Cached.data).getD 0
      if zeroOf p (j % 8) then
        let s := s.modParent ri level j fun l k => setZero l k false
        s.cachePut ri level j (if level = 0 then 0 else freshNode) true
      else s

/-- The MAC line of data line i: cached, or as its stack returns it; it has no slot in the tree (R144, R150). One that the
controller poisons counts as uncorrectable metadata (R198). -/
def State.macLine (src : Src) (s : State) (ri i : Nat) : Got × State :=
  let r := s.rgn ri
  let a := r.itemAddr 8 (i / 8)
  match s.cached a with
  | some c => (.ok c.data, s.touch a c)
  | none =>
    match s.line? src a with
    | none => (.missing [a], s)
    | some (d, poison) =>
      let s := s.fetched src a
      if poison then (.lost 0, s.memErr r.stack 0 0 1)
      else (.ok d, (s.cachePut ri 8 (i / 8) d false).priv (8 * s.arbiter r.stack (r.stackPage (i / 64)) + 5) 1)

/-! ## Write-back (R158) -/

/-- Put the tree MAC of a cached item in its parent's slot; the parent is fetched and verified if it is not cached. None
where it cannot be had: then the item is not written. -/
def State.slotMac (s : State) (c : Cached) (key : List Byte) : Option State :=
  let r := s.rgn c.region
  if c.level = 8 then some s
  else
    let x : Bool × State := if r.depth ≤ c.level then (true, s) else match s.itemNow c.region (c.level + 1) (c.index / 8) with
      | (.ok _, s) => (true, s)
      | (_, s) => (false, s)
    if x.1 then some (x.2.modParent c.region c.level c.index fun l k =>
      setMac l k (treeMac (macKey key) c.region c.level c.index (r.itemSgen c.level c.index) c.data))
    else none

/-- Write a modified item back (R158): its tree MAC goes to its parent's slot first. An item whose key is gone is discarded
(R509), and so is one whose parent cannot be fetched and verified, since no item in HBM is newer than the slot that covers
it (DESIGN CHOICE, log 119). -/
def State.writeBack (s : State) (a : Nat) : State :=
  match s.cached a with
  | none => s
  | some c =>
    if !c.dirty then s
    else
      match s.memKey c.region ((s.rgn c.region).itemKid c.level c.index) with
      | none => s.setCached a none
      | some key =>
        match s.slotMac c key with
        | none => s.setCached a none
        | some s => (s.hbmWrite a c.data fullMask).setCached a (some { c with dirty := false })

/-- Levels from the lowest up, so that a parent is written after the children that change it. -/
def wbOrder (c : Cached) : Nat := if c.level = 8 then 0 else c.level

/-- Write back every modified item that satisfies a test, children before parents. -/
def State.writeBackAll (s : State) (p : Cached → Bool) : State :=
  (List.range 9).foldl (fun s k =>
    s.forEach s.msl.cache.keys fun s a =>
      match s.cached a with
      | some c => if wbOrder c = k && p c then s.writeBack a else s
      | none => s) s

/-- Which cache an item lies in: the tree cache of its stack (0 to 3), or the metadata cache of the group that serves its
page (4 to 19). -/
def State.cacheOf (s : State) (c : Cached) : Nat :=
  let r := s.rgn c.region
  if 1 ≤ c.level && c.level ≤ 7 then r.stack
  else 4 + s.arbiter r.stack (r.stackPage (if c.level = 8 then c.index / 8 else c.index))

/-- The set an item competes in: the whole tree cache of its stack, or one of the 512 sets of its group's metadata cache.
DESIGN CHOICE (log 120): the line address modulo 512 selects the set. -/
def State.cacheSet (s : State) (a : Nat) (c : Cached) : Nat × Nat := (s.cacheOf c, if s.cacheOf c < 4 then 0 else a % 512)

/-- Entries of a set: 2,048 nodes of a tree cache; eight ways of a metadata cache of 4,096 entries (R157). -/
def setSize (k : Nat) : Nat := if k < 4 then 2048 else 8

/-- The pinned items: the top stored level of a region (R157). -/
def State.pinned (s : State) (c : Cached) : Bool := c.level ≠ 8 && c.level = (s.rgn c.region).depth && c.level ≠ 0

/-- The items of a set, with their addresses. -/
def State.inSet (s : State) (k : Nat × Nat) : List (Nat × Cached) :=
  s.msl.cache.cells.filterMap fun e => e.2.bind fun c => if s.cacheSet e.1 c = k then some (e.1, c) else none

/-- The item replaced in a set: the least recently used that is not pinned (log 120). -/
def State.victim (s : State) (k : Nat × Nat) : Option Nat :=
  (((s.inSet k).filter fun e => !s.pinned e.2).foldl (fun (b : Option (Nat × Nat)) e =>
    match b with
    | some (_, u) => if e.2.used < u then some (e.1, e.2.used) else b
    | none => some (e.1, e.2.used)) none).map Prod.fst

/-- A set that holds more than its entries. -/
def State.overfull (s : State) : Option (Nat × Nat) :=
  s.msl.cache.cells.findSome? fun e => e.2.bind fun c =>
    let k := s.cacheSet e.1 c
    if setSize k.1 < (s.inSet k).length then some k else none

/-- Evict until every set holds no more than its entries; a modified item is written back first (R157, R158). -/
def State.trim : Nat → State → State
  | 0, s => s
  | f + 1, s =>
    if s.msl.cache.cells.length ≤ 8 then s
    else
      match s.overfull.bind s.victim with
      | none => s
      | some a => State.trim f ((s.writeBack a).setCached a none)

/-! ## Lines -/

/-- What a read of a line gives: data, the lines it waits for, or poison; `mac` tells whether a `MEM_MAC` alarm was
raised (R166). -/
inductive LineRes where
  | data (l : Line)
  | missing (addrs : List Nat)
  | bad (mac : Bool)
  deriving DecidableEq, Repr

/-- What a write of a line gives. -/
inductive WriteRes where
  | done
  | missing (addrs : List Nat)
  | bad (mac : Bool)
  | overflow
  deriving DecidableEq, Repr

/-- A `MEM_MAC` failure of a region: counted, recorded, charged to the slot of its KID (R166, R178). -/
def State.macAlarm (s : State) (ri addr kid row : Nat) : State :=
  ((s.macFailed ri).checkFail addr row).alarm alMemMac (if ri = 64 then none else s.kidSlot kid)

/-- The counter block of a page, verified (R157, R194, R195). A page below a ZERO slot has the block of zeros (R156). The
flag tells a write, which a `LOST` subtree discards with no alarm. A key that no longer serves gives no alarm (R509). -/
def State.counters (src : Src) (s : State) (ri page : Nat) (write : Bool) : LineRes × State :=
  let r := s.rgn ri
  let a := r.line0 + page * 64
  if (s.memKey ri (r.itemKid 0 page)).isNone then (.bad false, s)
  else
    match State.item src ri treeFuel 0 page s with
    | (.ok cb, s) => (.data cb, s)
    | (.zero, s) => (.data 0, s)
    | (.missing l, s) => (.missing l, s)
    | (.noKey, s) => (.bad false, s)
    | (.lost k, s) =>
      let s := s.checkFail a rowLost
      (.bad false, if write then s else s.alarmLost (s.kidSlot r.kid) k)
    | (.badMac, s) => (.bad true, s.macAlarm ri a (r.itemKid 0 page) rowTree)

/-- Addresses that a source has not answered and no cache holds. -/
def State.unread (s : State) (src : Src) (l : List Nat) : List Nat :=
  l.filter fun a => (s.line? src a).isNone && (s.cached a).isNone

/-- Data as a stack answers it, before any cipher: the controller's poison is counted and recorded (R166, R198, R511). -/
def State.rawLine (src : Src) (s : State) (addr : Nat) : LineRes × State :=
  match s.line? src addr with
  | none => (.missing [addr], s)
  | some (d, poison) =>
    let s := s.fetched src addr
    if poison then (.bad false, (s.memErr (addr / 2 ^ 30) 0 1 0).checkFail addr rowDataPoison) else (.data d, s)

/-- Read and check data line i of a region under given counters (R150, R151, R166). Controller poison comes before a MAC
mismatch. -/
def State.checkLine (src : Src) (s : State) (ri i major minor : Nat) : LineRes × State :=
  let r := s.rgn ri
  let a := r.line0 + i
  match s.macLine src ri i with
  | (.missing l, s) => (.missing (l ++ s.unread src [a]), s)
  | (.ok m, s) =>
    if flagOf m (i % 8) then (.bad false, s.checkFail a rowPoison)
    else
      match s.rawLine src a with
      | (.data ct, s) =>
        match s.memKey ri (r.itemKid 0 (i / 64)) with
        | none => (.bad false, s)
        | some key =>
          let g := r.itemSgen 0 (i / 64)
          if lineMac (macKey key) a minor g major ct = macOf m (i % 8) then
            (.data (ct ^^^ lineStream (encKey key) a minor g major), s)
          else (.bad true, s.macAlarm ri a (r.itemKid 0 (i / 64)) rowMac)
      | x => x
  | (_, s) => (.bad false, s.checkFail a rowMacPoison)

/-- A sealed read (R148, R160, R189): a line with minor counter 0 reads as zero, with no access to its data. A missing MAC
line is fetched alongside missing metadata (R162). -/
def State.readSealed (src : Src) (s : State) (ri i : Nat) : LineRes × State :=
  let r := s.rgn ri
  match s.counters src ri (i / 64) false with
  | (.data cb, s) =>
    if minorOf cb (i % 64) = 0 then (.data 0, s) else s.checkLine src ri i (majorOf cb) (minorOf cb (i % 64))
  | (.missing l, s) => (.missing (l ++ s.unread src [r.itemAddr 8 (i / 8)]), s)
  | res => res

/-- Change a cached item's data and mark it modified. -/
def State.modCached (s : State) (a : Nat) (f : Line → Line) : State :=
  match s.cached a with
  | some c => s.touch a { c with data := f c.data, dirty := true }
  | none => s

/-- Raise the high-water major of a stack (R191). -/
def State.raiseHw (s : State) (stack major : Nat) : State :=
  { s with hth := { s.hth with majorHw := s.hth.majorHw.set 0 stack (max (s.hth.majorHw.get 0 stack) major) } }

/-- Put a counter block in the cache, modified. -/
def State.putCounters (s : State) (ri page : Nat) (cb : Line) : State :=
  (s.cachePut ri 0 page cb true).raiseHw (s.rgn ri).stack (majorOf cb)

/-- Have the MAC line of data line i in the cache for a write: a MAC line that the controller poisons is replaced by one
with POISON set for every line it covers (R166). Where none of its eight lines has been written, nothing of it has been
written either: it starts as zeros and is not read (R156). -/
def State.macForWrite (src : Src) (s : State) (ri i : Nat) (fresh : Bool := false) : Option (List Nat) × State :=
  if fresh && ((s.cached ((s.rgn ri).itemAddr 8 (i / 8))).isNone) then (none, s.cachePut ri 8 (i / 8) 0 false)
  else match s.macLine src ri i with
  | (.missing l, s) => (some l, s)
  | (.ok _, s) => (none, s)
  | (_, s) => (none, (s.checkFail ((s.rgn ri).line0 + i) rowMacPoison).cachePut ri 8 (i / 8)
      (BitVec.ofNat 512 (0xFF * 2 ^ 448)) true)

/-- Encrypt a line under given counters, key and generation, write it, and put its MAC in the cached MAC line. -/
def State.storeLine (s : State) (ri i major minor : Nat) (key : List Byte) (sgen : Nat) (d : Line) : State :=
  let r := s.rgn ri
  let a := r.line0 + i
  let ct := d ^^^ lineStream (encKey key) a minor sgen major
  let s := s.hbmWrite a ct fullMask
  s.modCached (r.itemAddr 8 (i / 8)) fun m =>
    setFlag (setMac m (i % 8) (lineMac (macKey key) a minor sgen major ct)) (i % 8) false

/-- Rewrite a line that failed its check with POISON set: the bytes written are unstated (R170, R188; log 3). -/
def State.poisonLine (s : State) (ri i : Nat) : State :=
  let r := s.rgn ri
  let (d, s) := s.draw 512
  let s := s.hbmWrite (r.line0 + i) d fullMask
  s.modCached (r.itemAddr 8 (i / 8)) fun m => setFlag (setMac m (i % 8) 0) (i % 8) true

/-- A full-line sealed write (R153, R160). A minor counter at 127 answers `overflow` and changes nothing. -/
def State.writeSealed (src : Src) (s : State) (ri i : Nat) (d : Line) : WriteRes × State :=
  let r := s.rgn ri
  let p := i / 64
  if r.ro then (.bad false, s.checkFail (r.line0 + i) rowReadonly)
  else
    match s.counters src ri p true with
    | (.bad m, s) => (.bad m, s)
    | (.missing l, s) => (.missing (l ++ s.unread src [r.itemAddr 8 (i / 8)]), s)
    | (.data cb, s) =>
      match s.memKey ri (r.itemKid 0 p) with
      | none => (.bad false, s)
      | some key =>
        match s.macForWrite src ri i ((List.range 8).all fun k => minorOf cb (i % 64 / 8 * 8 + k) = 0) with
        | (some l, s) => (.missing l, s)
        | (none, s) =>
          if minorOf cb (i % 64) = 127 then (.overflow, s)
          else
            let s := State.build ri treeFuel 0 p s
            let m := minorOf cb (i % 64) + 1
            let s := s.putCounters ri p (setMinor cb (i % 64) m)
            (.done, s.storeLine ri i (majorOf cb) m key (r.itemSgen 0 p) d)

/-- The limits of a page's major (R192): 2^63 marks the region for re-key, 2^64 - 2^20 makes it `READONLY`; one that is
being re-keyed stays `REKEYING` and refuses writes until the sweep completes. -/
def State.majorLimits (s : State) (ri major : Nat) : State :=
  if major < 2 ^ 63 || ri = 64 then s
  else
    let s := s.modRgn ri fun r => { r with rekeyDue := true }
    let s := s.record 0x52 srcMsl [(1, ri), (1, 0)]
    if 2 ^ 64 - 2 ^ 20 ≤ major then
      (s.modRgn ri fun r => { r with ro := true, state := if r.state = .active then .readonly else r.state }).record 0x52 srcMsl [(1, ri), (1, 1)]
    else s

/-- Re-encrypt the page of line i under the next major and write the line with its new contents (R188, R189), in foreground
slots of `v` (R436): a read and a write for every other line that holds data. -/
def State.reencrypt (s : State) (ri i : Nat) (d : Line) (v : Nat) : State :=
  let r := s.rgn ri
  let p := i / 64
  match s.memKey ri (r.itemKid 0 p), s.cached (r.itemAddr 0 p) with
  | some key, some c =>
    let cb := c.data
    let g := r.itemSgen 0 p
    let major := majorOf cb
    let s := s.raiseHw r.stack (major + 1)
    let s := s.forEach (List.range 64) fun s u =>
      if minorOf cb u = 0 || u = i % 64 then s
      else
        let j := 64 * p + u
        let (res, s) := s.checkLine .copy ri j major (minorOf cb u)
        let s := (s.macForWrite .copy ri j).2
        match res with
        | .data x => s.storeLine ri j (major + 1) 1 key g x
        | _ => s.poisonLine ri j
    let s := (s.macForWrite .copy ri i).2
    let s := s.storeLine ri i (major + 1) 1 key g d
    let cb' := (List.range 64).foldl (fun b u => if minorOf cb u = 0 then b else setMinor b u 1) (setMajor 0 (major + 1))
    let s := s.putCounters ri p (setMinor cb' (i % 64) 1)
    let n := ((List.range 64).filter fun u => minorOf cb u ≠ 0 && u ≠ i % 64).length
    let a := s.arbiter r.stack (r.stackPage p)
    let s := (s.foreSlots a (2 * n) v).priv (8 * a + 4) 1
    s.majorLimits ri (major + 1)
  | _, _ => s

end Sys2Proof.Machine
end

