-- ==== Sys2Proof/Machine/Serve.lean ====
section
/-! DEFINITION. Requests to stack lines under a tag: the KID match, reads and writes of each mode, partial writes and their
merge-buffer entries, the order of requests to one line, and the accesses of Worha's own work (R140, R141, R159 to R166,
R171, R188 to R190, R201, R511). -/

namespace Sys2Proof.Machine
open Sys2Proof

/-! ## Requests under a tag (R140, R141) -/

/-- The slot a tag names. -/
def tagSlot (t : Tag) : Option Nat := if tagDvalid t then some (tagDslot t) else none

/-- A tag of Worha's own work: SITE 9, for a slice and its slot (R28, R31). -/
def ownTag (slice : Nat) (d : Option Nat) (kid cls : Nat) : Tag :=
  BitVec.ofNat 48 (packFields [(4, 9), (11, slice), (6, d.getD 0), (1, b2n d.isSome), (12, kid), (2, cls)])

/-- The tag of a response (R31). -/
def respTag (t : Tag) (poison : Bool) : Tag :=
  (t &&& 0xEFFFFFFFFF#48) ||| (if poison then 0x1000000000#48 else 0)

/-- Answer a hub-network request: data, or all-ones data with POISON (R30, R166). A request of Worha's own has no answer
there. -/
def State.netAnswer (s : State) (t : Tag) (d : Option Line) : State :=
  if tagSite t = 9 then s
  else match d with
  | some d => s.emit (.net (respTag t false) d false)
  | none => s.emit (.net (respTag t true) (BitVec.allOnes 512) true)

/-! ## Where a request goes (R140, R141, R171) -/

/-- The place of a line of a region, for a request that matches its KID. A page whose key belongs to a KID that has left
`ACTIVE` refuses it (R171). -/
def State.rgnRoute (s : State) (ri addr : Nat) : HbmRoute :=
  let r := s.rgn ri
  let i := addr - r.line0
  if r.mode = 1 && r.pages * 64 ≤ i then .carveOut
  else if r.keying && !s.kidAdmits (r.itemKid 0 (i / 64)) then .inactive
  else .region ri i

def State.hbmRoute (s : State) (t : Tag) (addr : Nat) : HbmRoute :=
  match s.rgnAt addr with
  | none => if !s.msl.defUnassigned && tagKid t = 0 && !tagDvalid t then .plain else .refused
  | some ri =>
    let r := s.rgn ri
    if ri = 64 || !(tagKid t = r.kid || (r.keying && tagKid t = r.newKid)) then .refused else s.rgnRoute ri addr

/-- Where the engine's own request goes: one that a release holds is judged as the release leaves it (R168). -/
def State.ownRoute (s : State) (t : Tag) (addr : Nat) : HbmRoute :=
  match s.rgnAt addr with
  | some ri =>
    if (s.rgn ri).state = .releasing then
      (if !s.msl.defUnassigned && tagKid t = 0 && !tagDvalid t then .plain else .refused)
    else s.hbmRoute t addr
  | none => s.hbmRoute t addr

/-- A request that fails the KID match (R141, R166). -/
def State.kidRefused (s : State) (t : Tag) (addr : Nat) : State :=
  (s.checkFail addr rowKid).alarm alMemMac (tagSlot t)

/-- A request to a page of a KID that has left `ACTIVE`: check 4 of R29 (R119, R171). -/
def State.kidInactive (s : State) (t : Tag) : State := s.alarm alTagCheck (tagSlot t)

/-! ## Reads and writes by route -/

/-- Read a stack line (R140 to R142, R147, R160). -/
def State.readRoute (src : Src) (s : State) (t : Tag) (addr : Nat) (route : HbmRoute) : LineRes × State :=
  match route with
  | .refused => (.bad true, (s.kidRefused t addr).poisonedAt addr)
  | .inactive => (.bad false, s.kidInactive t)
  | .carveOut => (.bad false, s)
  | .plain => s.rawLine src addr
  | .region ri i =>
    let r := s.rgn ri
    if r.mode = 1 then s.readSealed src ri i
    else if r.mode = 0 then s.rawLine src addr
    else
      match s.memKey ri r.kid with
      | none => (.bad false, s)
      | some key =>
        match s.rawLine src addr with
        | (.data d, s) => (.data (scramble (encKey key) addr d), s)
        | x => x

/-- A read of the network or of Worha's own: one answered poisoned for another cause than a MAC mismatch counts in its
region (R178). -/
def State.hbmReadVia (src : Src) (s : State) (t : Tag) (addr : Nat) (route : HbmRoute) : LineRes × State :=
  match s.readRoute src t addr route with
  | (.bad false, s) => (.bad false, s.poisonedAt addr)
  | x => x

/-- The write is a full-line write. -/
def fullWrite (m : BitVec 64) : Bool := m = fullMask

/-- Issue the reads a request waits for, each once (R162). -/
def State.issueReads (s : State) (l : List Nat) : State :=
  l.foldl (fun s a =>
    if s.msl.issued.contains a || (s.line? .arrived a).isSome then s
    else ({ s with msl := { s.msl with issued := s.msl.issued ++ [a] } }).emit (.hbmRead (a / 2 ^ 30) (a % 2 ^ 30))) s

/-- A page whose overflow waits for its turn to re-encrypt (R188). -/
def State.reencWait (s : State) (ri p : Nat) : State :=
  if s.msl.reenc.contains (ri, p) then s else { s with msl := { s.msl with reenc := s.msl.reenc ++ [(ri, p)] } }

/-- A page has had its turn. -/
def State.reencDone (s : State) (page : Option (Nat × Nat)) : State :=
  { s with msl := { s.msl with reenc := s.msl.reenc.filter fun p => some p ≠ page } }

/-- Write a whole line of a sealed region: what it then holds, nothing while it waits, or poison. `re` names whose
slots a re-encryption of the page takes, when an overflow may run it now. -/
def State.fullStore (src : Src) (s : State) (ri i : Nat) (re : Option Nat) (d : Line) : Option LineRes × State :=
  match s.writeSealed src ri i d with
  | (.done, s) => (some (.data d), s)
  | (.bad m, s) => (some (.bad m), s)
  | (.missing l, s) => (none, s.issueReads l)
  | (.overflow, s) => match re with
    | some v => (some (.data d), s.reencrypt ri i d v)
    | none => (none, s.reencWait ri (i / 64))

/-- Write a line, but for the partial writes of sealed regions: in `PLAIN` and `SCRAMBLED` regions the masked bytes alone
(R140, R160, R511). -/
def State.writeRoute (src : Src) (s : State) (r : MemReq) (route : HbmRoute) (re : Bool) : Option LineRes × State :=
  let a := r.addr
  let raw := (some (LineRes.data (mergeLine (s.msl.hbm.get 0 a) r.data r.mask)), s.hbmWrite a r.data r.mask)
  match route with
  | .refused => (some (.bad true), s.kidRefused r.tag a)
  | .inactive => (some (.bad false), s.kidInactive r.tag)
  | .carveOut => (some (.bad false), s)
  | .plain => raw
  | .region ri i =>
    let g := s.rgn ri
    if g.mode = 0 then raw
    else if g.mode = 1 then
      if g.ro then (some (.bad false), s.checkFail a rowReadonly) else s.fullStore src ri i (if re then some (s.tagSeat r.tag) else none) r.data
    else
      match s.memKey ri g.kid with
      | none => (some (.bad false), s)
      | some key =>
        (some (.data (mergeLine (scramble (encKey key) a (s.msl.hbm.get 0 a)) r.data r.mask)),
          s.hbmWrite a (scramble (encKey key) a r.data) r.mask)

/-! ## Answers -/

/-- The object-kind base of a stack line's first byte (R363). -/
def hbmBase (addr : Nat) : Nat := addr / 2 ^ 30 * 2 ^ 36 + addr % 2 ^ 30 * 64

/-- Count a slice's own read (R425). -/
def State.readCounted (s : State) (t : Tag) : LineRes → State
  | .bad mac => (s.count (tagSlice t) 9 1).count (tagSlice t) 0xA (b2n mac)
  | _ => s

/-- Answer a request's completion: read data, a write's acknowledgement, or poison; with the slice's counters. -/
def State.reply (s : State) (r : MemReq) (x : LineRes) : State :=
  match x with
  | .data d => s.netAnswer r.tag (some d)
  | _ => (if r.write then s else s.readCounted r.tag x).netAnswer r.tag none

/-- A served write: its tap and its acknowledgement (R160, R431). -/
def State.wrote (s : State) (r : MemReq) (d : Line) : State :=
  (s.tapWrite 0 (hbmBase r.addr) (tagKid r.tag) (tagClass r.tag) d).netAnswer r.tag (some 0)

/-- Answer a request with its result; that of a write is what the line holds after it. -/
def State.finish (s : State) (r : MemReq) (x : LineRes) : State :=
  match x with
  | .data d => if r.write then s.wrote r d else s.reply r x
  | _ => s.reply r x

/-- The results of the requests that share a merge-buffer entry. A read among them that is poisoned for another cause than a
MAC mismatch counts in its region (R178). -/
def State.finishAll (s : State) (l : List (MemReq × LineRes)) : State :=
  l.foldl (fun s e => (if !e.1.write && e.2 = .bad false then s.poisonedAt e.1.addr else s).finish e.1 e.2) s

/-! ## Partial writes of sealed regions (R163 to R165) -/

/-- The requests of a line that share one merge-buffer entry, with the line each leaves: what the line holds at the end,
and each request's result (R164). -/
def mergeGroup : Line → List MemReq → Line × List (MemReq × LineRes)
  | x, [] => (x, [])
  | x, r :: rest =>
    let y := if r.write then mergeLine x r.data r.mask else x
    let (z, l) := mergeGroup y rest
    (z, (r, .data y) :: l)

/-- The results where the line failed its check and the last full write makes it good: a read behind a full write sees that
write, a partial write is discarded (R165, R166). -/
def mergeGood (m : Bool) : Option Line → List MemReq → List (MemReq × LineRes)
  | _, [] => []
  | cur, r :: rest =>
    if r.write && fullWrite r.mask then (r, .data r.data) :: mergeGood m (some r.data) rest
    else (r, match r.write, cur with
      | false, some d => .data d
      | _, _ => .bad m) :: mergeGood m cur rest

/-- Every request of a group fails alike. -/
def allBad (m : Bool) (g : List MemReq) : List (MemReq × LineRes) := g.map fun r => (r, .bad m)

/-- Store the new contents of a group's line and answer with `l`. -/
def State.mergeStore (src : Src) (s : State) (ri i : Nat) (g : List MemReq) (re : Bool) (d : Line)
    (l : List (MemReq × LineRes)) : Option (List (MemReq × LineRes)) × State :=
  match s.fullStore src ri i (if re then some ((g.head?.map fun r => s.tagSeat r.tag).getD 0) else none) d with
  | (some (.data _), s) => (some l, s)
  | (some (.bad m), s) => (some (allBad m g), s)
  | (_, s) => (none, s)

/-- Every access behind the first to a page whose counters cannot be had fails on its own: a tree MAC mismatch raises its
alarm on each, a read below a `LOST` slot its own (R166, R195). -/
def State.chargeEach (src : Src) (ri page : Nat) : List MemReq → State → List (MemReq × LineRes) × State
  | [], s => ([], s)
  | r :: rest, s =>
    let x := s.counters src ri page r.write
    let res := match x.1 with
      | .bad m => LineRes.bad m
      | _ => .bad false
    let y := State.chargeEach src ri page rest x.2
    ((r, res) :: y.1, y.2)

/-- Serve the requests of one line of a sealed region whose first is a partial write (R163 to R165): their results, or
nothing while they wait. A page that must first re-encrypt waits before the line is read, which its re-encryption does
(R188). -/
def State.serveMerge (src : Src) (s : State) (ri i : Nat) (g : List MemReq) (re : Bool) :
    Option (List (MemReq × LineRes)) × State :=
  match s.counters src ri (i / 64) true with
  | (.bad m, s) =>
    let x := State.chargeEach src ri (i / 64) g.tail s
    (some (allBad m (g.take 1) ++ x.1), x.2)
  | (.missing l, s) => (none, s.issueReads (l ++ s.unread src [(s.rgn ri).itemAddr 8 (i / 8)]))
  | (.data cb, s) =>
    if minorOf cb (i % 64) = 127 && !re then (none, s.reencWait ri (i / 64))
    else
      match (if minorOf cb (i % 64) = 0 then (LineRes.data 0, s)
          else s.checkLine src ri i (majorOf cb) (minorOf cb (i % 64))) with
      | (.data old, s) =>
        let z := mergeGroup old g
        s.mergeStore src ri i g re z.1 z.2
      | (.missing l, s) => (none, s.issueReads l)
      | (.bad m, s) =>
        match (g.filter fun r => r.write && fullWrite r.mask).getLast? with
        | none => (some (allBad m g), s)
        | some f => s.mergeStore src ri i g re f.data (mergeGood m none g)

/-! ## Merge-buffer entries (R163) -/

/-- The memory sliver that serves a line. -/
def State.lineSliver (s : State) (a : Nat) : Nat × Nat := (a / 2 ^ 30, s.sliverOf (a / 2 ^ 30) (a % 2 ^ 30 / 64))

/-- No entry of the line's sliver is free, and the line holds none. -/
def State.entryFull (s : State) (a : Nat) : Bool :=
  !s.msl.merging.contains a && 8 ≤ (s.msl.merging.filter fun x => s.lineSliver x = s.lineSliver a).length

def State.holdEntry (s : State) (a : Nat) : State :=
  if s.msl.merging.contains a then s else { s with msl := { s.msl with merging := s.msl.merging ++ [a] } }

/-- Zero the entry of a line and free it. -/
def State.freeEntry (s : State) (a : Nat) : State := { s with msl := { s.msl with merging := s.msl.merging.filter fun x => x ≠ a } }

/-! ## Requests in order (R159, R164) -/

/-- The region and page of a line address, when a region holds it. -/
def State.pageOf (s : State) (a : Nat) : Option (Nat × Nat) :=
  (s.rgnAt a).map fun ri => (ri, (a - (s.rgn ri).line0) / 64)

/-- The page of a line waits for re-encryption: its writes are held (R188, R190). -/
def State.pageHeld (s : State) (a : Nat) : Bool := match s.pageOf a with
  | some p => s.msl.reenc.contains p
  | none => false

/-- Count a line operation of a request: LIGHT 3 and its arbiter's slot (R201, R423, R424). -/
def State.hbmOp (s : State) (t : Tag) (addr : Nat) : State :=
  (s.light 3 1).takeSlot (s.arbiter (addr / 2 ^ 30) (addr % 2 ^ 30 / 64)) t

/-- Where a request goes, as latched in its ingress cycle, or as judged now for one that was held. -/
def State.reqRoute (s : State) (r : MemReq) : HbmRoute := r.route.getD (s.hbmRoute r.tag r.addr)

/-- A request takes its slot, unless background work is owed it (R201). -/
def State.slotGrant (s : State) (r : MemReq) : Option (MemReq × State) :=
  let x := { r with route := some (s.reqRoute r), slot := false }
  if !r.slot then some (x, s)
  else if s.slotBarred (s.arbiter (r.addr / 2 ^ 30) (r.addr % 2 ^ 30 / 64)) r.tag then none
  else some (x, s.hbmOp r.tag r.addr)

/-- The request is a partial write of a sealed line, which takes a merge-buffer entry. -/
def State.merges (s : State) (r : MemReq) : Option (Nat × Nat) :=
  if r.write && !fullWrite r.mask then
    match s.reqRoute r with
    | .region ri i => if (s.rgn ri).mode = 1 && !(s.rgn ri).ro then some (ri, i) else none
    | _ => none
  else none

/-- Serve one request that no earlier request to its line precedes: its result, or nothing while it waits. The line a read
took has been used. -/
def State.serveOne (src : Src) (s : State) (r : MemReq) (re : Bool) : Option LineRes × State :=
  if r.write then s.writeRoute src r (s.reqRoute r) re
  else
    match s.hbmReadVia src r.tag r.addr (s.reqRoute r) with
    | (.missing l, s) => (none, s.issueReads l)
    | (x, s) => (some x, { s with msl := { s.msl with arrived := s.msl.arrived.filter fun e => e.1 ≠ r.addr } })

/-- The requests behind the first that share its merge-buffer entry: of the same line, matching its region's KID. -/
def State.sharesEntry (s : State) (a ri i : Nat) (x : MemReq) : Bool :=
  x.addr = a && !x.hold && !x.slot && s.reqRoute x = .region ri i

/-- Serve what can be served, in acceptance order for each line (R159, R164); `page` names the page whose overflow may
re-encrypt now. Requests that wait stay. -/
def State.serve (src : Src) (page : Option (Nat × Nat)) : Nat → List MemReq → List MemReq → State → List MemReq × State
  | 0, todo, kept, s => (kept ++ todo, s)
  | _ + 1, [], kept, s => (kept, s)
  | f + 1, r :: rest, kept, s =>
    let re := page.isSome && s.pageOf r.addr = page
    if r.hold || (kept.any fun k => k.addr = r.addr) || (r.write && !re && s.pageHeld r.addr) then
      State.serve src page f rest (kept ++ [r]) s
    else
      match s.slotGrant r with
      | none => State.serve src page f rest (kept ++ [r]) s
      | some (r, s) =>
        match s.merges r with
        | some (ri, i) =>
          if src = .arrived && s.entryFull r.addr then State.serve src page f rest (kept ++ [r]) s
          else
            let same := s.sharesEntry r.addr ri i
            let g := r :: rest.filter same
            match (s.holdEntry r.addr).serveMerge src ri i g re with
            | (some l, s) =>
              let s := (s.freeEntry r.addr).finishAll l
              State.serve src page f (rest.filter fun x => !same x) kept (if re then s.reencDone page else s)
            | (none, s) => State.serve src page f (rest.filter fun x => !same x) (kept ++ g) s
        | none =>
          match s.serveOne src r re with
          | (some x, s) =>
            let s := s.finish r x
            State.serve src page f rest kept (if re && r.write then s.reencDone page else s)
          | (none, s) => State.serve src page f rest (kept ++ [r]) s

/-- Serve the waiting requests of the stacks; the caches are trimmed, and a KID nothing names any more settles. -/
def State.runHbm (s : State) (page : Option (Nat × Nat) := none) : State :=
  let l := s.msl.pending
  let (k, s) := State.serve .arrived page (l.length + 1) l [] s
  let s := { s with msl := { s.msl with pending := k, arrived := if k.isEmpty then [] else s.msl.arrived } }
  (s.trim 64).kidSettle

/-! ## Accesses of Worha's own work

They come behind every request to their line that the front end has accepted (R159): those are completed first, out of the
copy of the stacks (log 6). -/

/-- Complete the requests in flight that satisfy a test. -/
def State.serveNow (s : State) (page : Option (Nat × Nat)) (p : MemReq → Bool) : State :=
  let mine := s.msl.pending.filter fun r => !r.hold && p r
  if mine.isEmpty then s
  else
    let s := (mine.filter MemReq.slot).foldl (fun s r => s.hbmOp r.tag r.addr) s
    let s := { s with msl := { s.msl with pending := s.msl.pending.filter fun r => r.hold || !p r } }
    let x := State.serve .copy page (mine.length + 1) (mine.map fun r => { r with slot := false }) [] s
    { x.2 with msl := { x.2.msl with pending := x.2.msl.pending ++ x.1 } }

/-- Re-encrypt the waiting pages of a sliver, in order (R190). -/
def State.drainSliver (s : State) (v : Nat × Nat) : State :=
  s.msl.reenc.foldl (fun s k =>
    if s.lineSliver ((s.rgn k.1).line0 + 64 * k.2) = v then
      (s.serveNow (some k) fun r => s.pageOf r.addr = some k).reencDone (some k)
    else s) s

/-- Complete what stands before an own access to a line. -/
def State.settleLine (s : State) (a : Nat) : State :=
  let s := s.serveNow none fun r => r.addr = a
  if s.msl.pending.any fun r => !r.hold && r.addr = a then
    (s.drainSliver (s.lineSliver a)).serveNow none fun r => r.addr = a
  else s

/-- Complete the requests in flight to a page, before the page's keys change; a write that must first re-encrypt the page
stays (the coincidences of R170). -/
def State.quietPage (s : State) (ri p : Nat) : State := s.serveNow none fun r => s.pageOf r.addr = some (ri, p)

/-- An own access to a line whose merge-buffer entry is held joins it; a partial write of a sealed line has an entry of its
own (R164). The result of the access is the last. -/
def State.ownMerge (s : State) (ri i : Nat) (r : MemReq) : LineRes × State :=
  let same := s.sharesEntry r.addr ri i
  let g := s.msl.pending.filter same
  let s := { s with msl := { s.msl with pending := s.msl.pending.filter fun x => !same x } }
  match s.serveMerge .copy ri i (g ++ [r]) true with
  | (some l, s) => ((l.getLast?.map Prod.snd).getD (.bad false), (s.freeEntry r.addr).finishAll l)
  | (none, s) => (.bad false, s)

/-- The own access `r`: what the line holds after it, or poison. -/
def State.ownAccess (s : State) (r : MemReq) : LineRes × State :=
  let route := s.ownRoute r.tag r.addr
  let r := { r with route := some route }
  let s := s.hbmOp r.tag r.addr
  let s := if r.write || s.pageHeld r.addr then s.drainSliver (s.lineSliver r.addr) else s
  let s := if s.msl.merging.contains r.addr then s else s.settleLine r.addr
  match s.merges r, route, s.msl.merging.contains r.addr with
  | some (ri, i), _, _ => s.ownMerge ri i r
  | none, .region ri i, true => s.ownMerge ri i r
  | none, _, _ =>
    match s.serveOne .copy r true with
    | (some x, s) => (x, s.finish r x)
    | (none, s) => (.bad false, s)

/-- The keys that a region is under are used (R116). -/
def State.useRgn (s : State) (ri : Nat) : State :=
  let r := s.rgn ri
  if ri = 64 then s.useCell .backing
  else
    let s := s.useCell (.kid r.kid)
    if r.keying then s.useCell (.kid r.newKid) else s

/-- The keys that a tagged request to a line needs are used (R116). -/
def State.useLine (s : State) (t : Tag) (addr : Nat) : State :=
  let s := s.useCell (.kid (tagKid t))
  match s.rgnAt addr with
  | none => s
  | some ri => s.useRgn ri

/-- The engine's own read of a stack line. -/
def State.ownRead (s : State) (t : Tag) (addr : Nat) : LineRes × State :=
  let (x, s) := (s.useLine t addr).ownAccess { tag := t, addr, write := false }
  (x, s.trim 64)

/-- The engine's own write of a stack line, with the re-encryption it may cause. -/
def State.ownWrite (s : State) (t : Tag) (addr : Nat) (d : Line) (m : BitVec 64) : WriteRes × State :=
  let (x, s) := (s.useLine t addr).ownAccess { tag := t, addr, write := true, data := d, mask := m }
  (match x with
    | .data _ => .done
    | .bad mac => .bad mac
    | .missing l => .missing l, s.trim 64)

end Sys2Proof.Machine
end

