-- ==== Sys2Proof/Machine/Hearth.lean ====
section
/-! DEFINITION. The hearth gates: the keyed mix, the KID-bound ECC, reads and writes of hearth lines and the range table
(R179 to R186). A hearth line is named by its line index A. -/

namespace Sys2Proof.Machine
open Sys2Proof

/-! ## The keyed mix (R182) -/

def rotl64 (x n : Nat) : Nat := (x * 2 ^ (n % 64) + x / 2 ^ (64 - n % 64)) % 2 ^ 64

/-- Mask of word `w` of hearth line `a` under key words `k`. -/
def mixMask (k : List Nat) (a w : Nat) : Nat :=
  let t := a * 8 + w
  let x := (t * 0x9E3779B97F4A7C15) % 2 ^ 64 ^^^ k.getD (w % 4) 0
  x ^^^ (x / 2 ^ 31) ^^^ rotl64 (k.getD ((w + 1) % 4) 0) (t % 64)

/-- The four key words. -/
def mixWords (key : List Byte) : List Nat := (List.range 4).map fun i => leNat (((mixKey key).drop (8 * i)).take 8)

/-- Word `w` of a line. -/
def lineWord (l : Line) (w : Nat) : Nat := lget l (64 * w + 63) (64 * w)

/-- A line from its eight words. -/
def ofWords (f : Nat → Nat) : Line := BitVec.ofNat 512 (packFields ((List.range 8).map fun w => (64, f w)))

/-- Mix or unmix a line; XOR is its own inverse. -/
def mixLine (key : List Byte) (a : Nat) (l : Line) : Line :=
  let k := mixWords key
  ofWords fun w => lineWord l w ^^^ mixMask k a w

/-! ## The SECDED code (R183, R184) -/

/-- Columns of data bits 0 to 63. -/
def dataCols : List Nat :=
  (List.range 256).filter (fun x => ((List.range 8).filter fun i => bit x i).length = 3) ++
    [0x1F, 0x2F, 0x37, 0x3B, 0x3D, 0x3E, 0x4F, 0x57]

/-- Column of KID bit `k` in word `w`. -/
def kidCol (w k : Nat) : Nat :=
  let c := [0x81, 0x82, 0x84, 0x88, 0x90, 0xA0, 0xC0]
  if w % 2 = 0 then (if k < 7 then c.getD k 0 else 0) else (if 5 ≤ k then c.getD (k - 5) 0 else 0)

/-- XOR of the columns of the set bits. -/
def xorCols : List Nat → Nat → Nat
  | [], _ => 0
  | c :: r, v => (if v % 2 = 1 then c else 0) ^^^ xorCols r (v / 2)

/-- Check bits of a stored word under a KID. -/
def checkBits (w word kid : Nat) : Nat := xorCols dataCols word ^^^ xorCols ((List.range 12).map (kidCol w)) kid

/-- Decode one stored word: the corrected word and whether a correction was made, or nothing (R184). -/
def decodeWord (w word chk kid : Nat) : Option (Nat × Bool) :=
  let syn := checkBits w word kid ^^^ chk
  if syn = 0 then some (word, false)
  else if (List.range 8).any fun i => syn = 2 ^ i then some (word, true)
  else (dataCols.findIdx? (· = syn)).map fun i => (word ^^^ 2 ^ i, true)

/-- Check byte of word `w`. -/
def eccOf (e : BitVec 64) (w : Nat) : Nat := bits e.toNat (8 * w + 7) (8 * w)

/-- Check bits of a whole stored line. -/
def lineEcc (l : Line) (kid : Nat) : BitVec 64 :=
  BitVec.ofNat 64 (packFields ((List.range 8).map fun w => (8, checkBits w (lineWord l w) kid)))

/-- Decode a stored line: its words and the number of corrections, or nothing when any word is uncorrectable. -/
def decodeLine (l : Line) (e : BitVec 64) (kid : Nat) : Option (Line × Nat) :=
  let ws := (List.range 8).map fun w => decodeWord w (lineWord l w) (eccOf e w) kid
  if ws.all Option.isSome then
    some (ofWords fun w => ((ws.getD w none).map Prod.fst).getD 0, (ws.filter fun x => (x.map Prod.snd).getD false).length)
  else none

/-! ## Ranges (R180, R181) -/

/-- The assigned range that holds a hearth line. -/
def State.hrgAt (s : State) (a : Nat) : Option Nat :=
  (s.hth.rngs.cells.find? fun e =>
    e.2.state ≠ .unassigned && e.2.base * 16384 ≤ a && a < (e.2.base + e.2.size) * 16384).map Prod.fst

/-- The stored form of a line under a KID, when its key serves: mixed unless the KID is null. -/
def State.hearthForm (s : State) (a kid : Nat) (l : Line) : Option Line :=
  if kid = 0 then some l else (s.cellKey (.kid kid) 96).map fun k => mixLine k a l

/-- Write masked words of a stored line with their check bits. -/
def State.hearthPut (s : State) (a : Nat) (l : Line) (kid : Nat) (words : BitVec 8) : State :=
  let m : BitVec 64 := BitVec.ofNat 64 (packFields ((List.range 8).map fun w => (8, if words.getLsbD w then 255 else 0)))
  let e := lineEcc l kid
  let old := s.hth.ecc.get 0 a
  let s := { s with hth := { s.hth with
    store := s.hth.store.set 0 a (mergeLine (s.hth.store.get 0 a) l m)
    ecc := s.hth.ecc.set 0 a ((old &&& ~~~m) ||| (e &&& m)) } }
  s.emit (.hearthWrite a l e words)

/-- Words a byte mask covers whole, and words it covers in part (R185). -/
def wholeWords (m : BitVec 64) : BitVec 8 :=
  BitVec.ofNat 8 (packFields ((List.range 8).map fun w => (1, b2n (bits m.toNat (8 * w + 7) (8 * w) = 255))))
def partWord (m : BitVec 64) : Bool :=
  (List.range 8).any fun w => let b := bits m.toNat (8 * w + 7) (8 * w); b ≠ 0 && b ≠ 255

/-! ## Reads and writes -/

/-- An uncorrectable line: counted, recorded and charged to the slot of the range's KID (R184). -/
def State.hearthBad (s : State) (a : Nat) : State :=
  let slot := match s.hrgAt a with
    | some r => s.kidSlot (s.hrg r).kid
    | none => none
  ((s.memErr (4 + tierOf a) 0 1 0).record 0x53 (0x10 + tierOf a) [(1, tierOf a), (5, a * 64)]).alarm alHearthKid slot

/-- Corrections on a slice's own read (R184, R198, R425). -/
def State.hearthCorrected (s : State) (a slice n : Nat) : State :=
  ((s.memErr (4 + tierOf a) n 0 0).count slice 8 n).priv 0x306 n

/-- How a tagged request to a hearth line is judged before the tier is read (R181, R186). -/
inductive HearthRoute where
  | serve (kid mode : Nat)
  | refused (alarm : Bool)
  deriving DecidableEq, Repr

def State.hearthRoute (s : State) (t : Tag) (a : Nat) (write : Bool) : HearthRoute :=
  match s.hrgAt a with
  | none => if !s.hth.defUnassigned && tagKid t = 0 && !tagDvalid t then .serve 0 0 else .refused true
  | some r =>
    let h := s.hrg r
    match h.state with
    | .initialising => .refused false
    | _ => if write && tagKid t ≠ h.kid then .refused true else .serve h.kid h.mode

/-- A line lies in a range being released (R186). -/
def State.hearthHeld (s : State) (a : Nat) : Bool := match s.hrgAt a with
  | some r => (s.hrg r).state = .releasing
  | none => false

/-- Where the engine's own request goes: one that a release holds is judged as the release leaves it. -/
def State.ownHearthRoute (s : State) (t : Tag) (a : Nat) (write : Bool) : HearthRoute :=
  if s.hearthHeld a then (if !s.hth.defUnassigned && tagKid t = 0 && !tagDvalid t then .serve 0 0 else .refused true)
  else s.hearthRoute t a write

/-- Decode a stored line as it returned, for a read under a tag (R182, R184). -/
def State.hearthDecode (s : State) (t : Tag) (a kid mode : Nat) (l : Line) (e : BitVec 64) : Option Line × State :=
  match decodeLine l e kid with
  | none => (none, s.hearthBad a)
  | some (x, n) =>
    let s := s.hearthCorrected a (tagSlice t) n
    (if mode = 2 then s.hearthForm a kid x else some x, s)

/-- Write the masked bytes over a decoded old line, or whole words with no read (R181, R185). -/
def State.hearthStore (s : State) (a kid mode : Nat) (d : Line) (m : BitVec 64) (old : Option Line) : State × Line :=
  let full := match old with
    | some o => mergeLine o d m
    | none => d
  let words : BitVec 8 := match old with
    | some _ => BitVec.allOnes 8
    | none => wholeWords m
  let form := if mode = 2 then (s.hearthForm a kid full).getD full else full
  (s.hearthPut a form kid words, full)

/-- Count a line operation on a gate: LIGHT 4 and the gate's slot. -/
def State.hearthOp (s : State) (t : Tag) (a : Nat) : State :=
  (s.light 4 1).takeSlot (16 + tierOf a) t

/-- A request refused by the gate (R30, R181). -/
def State.hearthRefused (s : State) (t : Tag) (alarm : Bool) : State :=
  if alarm then s.alarm alHearthKid (tagSlot t) else s

/-- The stored copy decoded as plaintext, for the tap of a write that leaves words unwritten. -/
def State.hearthPeek (s : State) (a kid mode : Nat) : Line :=
  match decodeLine (s.hth.store.get 0 a) (s.hth.ecc.get 0 a) kid with
  | some (x, _) => if mode = 2 then (s.hearthForm a kid x).getD 0 else x
  | none => 0

/-- The tap of a hearth write (R431). -/
def State.hearthTap (s : State) (t : Tag) (a : Nat) (d : Line) : State := s.tapWrite 1 (a * 64) (tagKid t) (tagClass t) d

/-- The engine's own read of a line stands at the tier interface (R1). -/
def State.tierLine? (s : State) (a : Nat) : (Line × BitVec 64) × State :=
  ((s.hth.store.get 0 a, s.hth.ecc.get 0 a), s.emit (.hearthRead a))

/-! ## Requests that wait for a tier -/

/-- Serve one hearth request: its result, or nothing while it waits; `line` is what the tier has returned for it. -/
def State.hearthServe (s : State) (r : MemReq) (line : Option (Line × BitVec 64)) : Option LineRes × State :=
  match s.hearthRoute r.tag r.addr r.write with
  | .refused al => (some (.bad false), s.hearthRefused r.tag al)
  | .serve kid mode =>
    let k := if r.write then kid else tagKid r.tag
    if !s.kidServes k then (some (.bad false), s)
    else if r.write && !partWord r.mask then
      let (s, _) := s.hearthStore r.addr kid mode r.data r.mask none
      (some (.data 0), s.hearthTap r.tag r.addr (s.hearthPeek r.addr kid mode))
    else
      match line with
      | none => (none, s.emit (.hearthRead r.addr))
      | some (l, e) =>
        match s.hearthDecode r.tag r.addr k mode l e with
        | (none, s) => (some (.bad false), s)
        | (some d, s) =>
          if r.write then
            let (s, full) := s.hearthStore r.addr kid mode r.data r.mask (some d)
            (some (.data 0), s.hearthTap r.tag r.addr full)
          else (some (.data d), s)

/-- Serve one hearth request and answer it. Answers whether it is done. -/
def State.serveHearth (s : State) (r : MemReq) (line : Option (Line × BitVec 64)) : Bool × State :=
  match s.hearthServe r line with
  | (some x, s) => (true, s.reply r x)
  | (none, s) => (false, s)

/-- Serve the requests that have not asked their tier, in acceptance order for each line; one that background work is owed
its slot waits (R201). -/
def State.runHearth : Nat → List MemReq → List MemReq → State → List MemReq × State
  | 0, todo, kept, s => (kept ++ todo, s)
  | _ + 1, [], kept, s => (kept, s)
  | f + 1, r :: rest, kept, s =>
    if r.hold || !r.slot || (kept.any fun k => k.addr = r.addr) || s.slotBarred (16 + tierOf r.addr) r.tag then
      State.runHearth f rest (kept ++ [r]) s
    else
      let r := { r with slot := false }
      match (s.hearthOp r.tag r.addr).serveHearth r none with
      | (true, s) => State.runHearth f rest kept s
      | (false, s) => State.runHearth f rest (kept ++ [r]) s

/-- The waiting requests of the tiers go on. -/
def State.wakeHearth (s : State) : State :=
  let (k, s) := State.runHearth (s.hth.pending.length + 1) s.hth.pending [] s
  { s with hth := { s.hth with pending := k } }

/-- Requests that waited for a slot go on once no background work is owed it any more. -/
def State.wakeSlots (s : State) : State :=
  if (s.msl.pending.any MemReq.slot) || (s.hth.pending.any MemReq.slot) then s.runHbm.wakeHearth else s

/-! ## Accesses of Worha's own work -/

/-- Complete the requests in flight to a line, before an own access to it: the tier's copy answers (R159, log 6). -/
def State.settleHearthLine (s : State) (a : Nat) : State :=
  let mine := s.hth.pending.filter fun r => r.addr = a && !r.hold
  let s := { s with hth := { s.hth with pending := s.hth.pending.filter fun r => !(r.addr = a && !r.hold) } }
  mine.foldl (fun s r =>
    let s := if r.slot then s.hearthOp r.tag a else s
    (s.serveHearth r (some (s.hth.store.get 0 a, s.hth.ecc.get 0 a))).2) s

/-- The engine's own read of a hearth line: the tier's copy answers at once (log 6). -/
def State.ownHearthRead (s : State) (t : Tag) (a : Nat) : LineRes × State :=
  let s := (s.useCell (.kid (tagKid t))).settleHearthLine a
  match s.ownHearthRoute t a false with
  | .serve _ mode =>
    if !s.kidServes (tagKid t) then (.bad false, s.readCounted t (.bad false))
    else
      let x := (s.hearthOp t a).tierLine? a
      match x.2.hearthDecode t a (tagKid t) mode x.1.1 x.1.2 with
      | (some d, s) => (.data d, s)
      | (none, s) => (.bad false, s.readCounted t (.bad false))
  | .refused al => (.bad false, (s.hearthRefused t al).readCounted t (.bad false))

/-- The engine's own write of a hearth line. -/
def State.ownHearthWrite (s : State) (t : Tag) (a : Nat) (d : Line) (m : BitVec 64) : WriteRes × State :=
  let s := (s.useCell (.kid (tagKid t))).settleHearthLine a
  match s.ownHearthRoute t a true with
  | .serve kid mode =>
    if !s.kidServes kid then (.bad false, s)
    else
      let s := s.hearthOp t a
      if partWord m then
        let x := s.tierLine? a
        match x.2.hearthDecode t a kid mode x.1.1 x.1.2 with
        | (some old, s) =>
          let (s, full) := s.hearthStore a kid mode d m (some old)
          (.done, s.hearthTap t a full)
        | (none, s) => (.bad false, s)
      else
        let (s, _) := s.hearthStore a kid mode d m none
        (.done, s.hearthTap t a (s.hearthPeek a kid mode))
  | .refused al => (.bad false, s.hearthRefused t al)

end Sys2Proof.Machine
end

