-- ==== Sys2Proof/Machine/Tags.lean ====
section
/-! DEFINITION. The crossing-tag checks of R29, with the slot states, KID states and site access windows they rest on, and
the tags of responses (R28 to R31, R46, R119, R400, R401). -/

namespace Sys2Proof.Machine
open Sys2Proof

/-- Traffic a slot state admits (the state table before R46). -/
def SlotState.admits (st : SlotState) (site cls : Nat) : Bool :=
  match st with
  | .live => true
  | .admitting => site = 9 || (site = 8 && cls = 2)
  | .quarantined => site = 9 || (site = 8 && cls = 2)
  | .teardown => site = 9
  | .empty => false

/-- What a request addresses, as the windows of R400 cover it: KIND, unit index. -/
inductive Place where
  | hbm (stack line : Nat)
  | hearth (line : Nat)
  | entry (e : Nat)
  deriving DecidableEq, Repr

/-- A window covers a place. -/
def SiteWin.covers (w : SiteWin) (p : Place) : Bool :=
  match p with
  | .hbm st l => w.kind = 0 && w.stack = st && w.base * 32768 ≤ l && l < (w.base + w.size) * 32768
  | .hearth l => w.kind = 1 && w.base * 16384 ≤ l && l < (w.base + w.size) * 16384
  | .entry e => w.kind = 2 && w.base ≤ e && e < w.base + w.size

/-- Check 5 of R29 (R400, R401). -/
def State.siteAdmits (s : State) (t : Tag) (p : Place) (write : Bool) : Bool :=
  let x := s.site (tagSite t)
  (match x.state with
    | .admitted => tagSlot t = (if x.inSlot then some x.dslot else none)
    | .failed => !tagDvalid t
    | _ => false) &&
  x.wins.cells.any fun w => w.2.set && w.2.kid = tagKid t && w.2.covers p && (if write then w.2.wr else w.2.rd)

/-- The first check of R29 a request fails, 0 when it passes all. -/
def State.tagCheck (s : State) (t : Tag) (p : Place) (write outside : Bool) : Nat :=
  let site := tagSite t
  if 0xB ≤ site || (outside && site = 9) then 1
  else if tagClass t = 3 || tagRsv t ≠ 0 || tagPoison t then 2
  else if (if tagDvalid t then !(s.slot (tagDslot t)).state.admits site (tagClass t) else tagDslot t ≠ 0) then 3
  else if !(s.kidBound (tagKid t) (tagSlot t) && s.kidAdmits (tagKid t)) then 4
  else if site < 8 && !s.siteAdmits t p write then 5
  else 0

/-- What a refusal records: a tag format error, or a `TAG_CHECK` alarm (R30, R46; log 16). -/
def State.tagRefused (s : State) (t : Tag) (check : Nat) : State :=
  if check ≤ 2 then { s with sys := { s.sys with tagFormat := s.sys.tagFormat + 1 } }
  else s.alarm alTagCheck (if tagDvalid t then some (tagDslot t) else none)

/-! ## Worha's own accesses -/

/-- Read a line for Worha's own work under a tag with SITE 9 (R29, R253). -/
def State.lineRead (s : State) (t : Tag) (p : Place) : LineRes × State :=
  match s.tagCheck t p false false with
  | 0 =>
    match p with
    | .hbm st l => s.ownRead t (st * 2 ^ 30 + l)
    | .hearth l => s.ownHearthRead t l
    | .entry _ => (.bad false, s)
  | n => (.bad false, (s.tagRefused t n).readCounted t (.bad false))

/-- Write a line for Worha's own work. -/
def State.lineWrite (s : State) (t : Tag) (p : Place) (d : Line) (m : BitVec 64) : WriteRes × State :=
  match s.tagCheck t p true false with
  | 0 =>
    match p with
    | .hbm st l => s.ownWrite t (st * 2 ^ 30 + l) d m
    | .hearth l => s.ownHearthWrite t l d m
    | .entry _ => (.bad false, s)
  | n => (.bad false, s.tagRefused t n)

end Sys2Proof.Machine
end

