-- ==== Sys2Proof/Machine/Memory.lean ====
section
/-! DEFINITION. Bytes of memory objects: handle lookups, reads and writes of HBM, hearth and host objects, and the
translation of host addresses (R90 to R92, R363, R381, R386, R388 to R391). -/

namespace Sys2Proof.Machine
open Sys2Proof

/-! ## Handles (R92) -/

/-- Entries of a slice's object table. -/
def Slice.otSize (l : Slice) : Nat := 2 ^ fld l.cfg 50 46

/-- Look a handle up: the status of the first rule that matches, 0 when it passes. Rights: READ, WRITE, ATOMIC. -/
def State.lookup (s : State) (i h off len : Nat) (rd wr at_ : Bool) : Nat :=
  let ix := hIndex h
  let g := hGen h
  let e := s.obj i ix
  if g = 0 || (s.slice i).otSize ≤ ix then stObjInvalid
  else if g < e.gen then stObjRevoked
  else if e.gen < g then stObjInvalid
  else match e.state with
    | .free => stObjInvalid
    | .revoked => stObjRevoked
    | .spent => stObjRevoked
    | .valid =>
      if e.size < off + len then stObjRange
      else if (rd && !e.rd) || (wr && !e.wr) || (at_ && !e.at_) then stObjRights
      else 0

/-! ## Lines of HBM and hearth objects (R363) -/

/-- The line that holds a byte of an object. -/
def ObjEntry.place (e : ObjEntry) (off : Nat) : Place :=
  let b := e.base + off
  if e.kind = 0 then .hbm (bits b 37 36) (bits b 35 6) else .hearth (bits b 32 6)

/-- The tag of a slice's own access to an object. -/
def State.objTag (s : State) (i : Nat) (e : ObjEntry) : Tag := ownTag i (s.slice i).domain e.kid 0

/-- The status that a poisoned operand read or a discarded operand write gives (R166). -/
def poisonStatus (mac : Bool) : Nat := if mac then stMemMacFail else stMemPoison

/-- Read `n` bytes at byte address `off` of an HBM or hearth object under a tag, line by line. On a poisoned line the bytes before it
are kept beside the status. -/
def State.objBytes (s : State) (t : Tag) (e : ObjEntry) : Nat → Nat → Nat → List Byte × Nat × State
  | 0, _, _ => ([], 0, s)
  | f + 1, off, n =>
    if n = 0 then ([], 0, s)
    else
      let k := min n (64 - (e.base + off) % 64)
      match s.lineRead t (e.place off) with
      | (.data l, s) =>
        let (r, st, s) := s.objBytes t e f (off + k) (n - k)
        (((lineBytes l).drop ((e.base + off) % 64)).take k ++ r, st, s)
      | (.bad mac, s) => ([], poisonStatus mac, s)
      | (.missing _, s) => ([], stMemPoison, s)

/-- A line and its byte mask for `b` placed at byte `o` of the line. -/
def placeBytes (o : Nat) (b : List Byte) : Line × BitVec 64 :=
  (BitVec.ofNat 512 (leNat b * 256 ^ o), BitVec.ofNat 64 ((2 ^ b.length - 1) * 2 ^ o))

/-- Write bytes at byte address `off` of an HBM or hearth object under a tag, line by line in ascending offset; answers how many bytes
of the leading part were written, and the status of the first discarded write. -/
def State.objPut (s : State) (t : Tag) (e : ObjEntry) : Nat → Nat → List Byte → Nat × Nat × State
  | 0, _, _ => (0, 0, s)
  | f + 1, off, b =>
    if b.isEmpty then (0, 0, s)
    else
      let o := (e.base + off) % 64
      let h := b.take (64 - o)
      let (l, m) := placeBytes o h
      match s.lineWrite t (e.place off) l m with
      | (.done, s) =>
        let (k, st, s) := s.objPut t e f (off + h.length) (b.drop (64 - o))
        (h.length + k, st, s)
      | (.bad mac, s) => (0, poisonStatus mac, s)
      | (_, s) => (0, stMemPoison, s)

/-! ## Host objects -/

/-- PASID of a slice (R73). -/
def Slice.pasid (l : Slice) : BitVec 20 := BitVec.ofNat 20 (fld l.cfg 19 0)

/-- The bound interface of a slice is open (R385, R386). -/
def State.ifaceOpen (s : State) (i : Nat) : Bool :=
  let l := s.slice i
  l.tdi = .run && (match l.stream with
    | some st => (s.hst.ide.any fun e => e.1 = st)
    | none => false)

/-- Worha may issue host requests for a slice (R381, R386). -/
def State.hostMay (s : State) (i : Nat) : Bool :=
  let l := s.slice i
  l.state = .active && (!l.bound || s.ifaceOpen i)

/-- A cached translation of a page with a permission. -/
def Xlat.covers (x : Xlat) (pasid : BitVec 20) (page : Nat) (write : Bool) : Bool :=
  x.pasid = pasid && x.base ≤ page * 4096 && page * 4096 < x.base + x.size && (if write then x.wr else x.rd)

/-- What a translation answers. -/
inductive Tr where
  | ok | wait | fault
  deriving DecidableEq, Repr

/-- Translate one page for a slice (R388, R389, R391): a hit is used at once and becomes the most recently used; a miss
shares or sends a Translation Request. -/
def State.translate (s : State) (i page : Nat) (write : Bool) : Tr × State :=
  if !s.hostMay i then (.fault, s)
  else if !s.hst.ats then (.ok, s)
  else
    let p := (s.slice i).pasid
    match s.hst.xlat.find? fun x => x.covers p page write with
    | some x => (.ok, { s with hst := { s.hst with xlat := x :: s.hst.xlat.filter fun y => y ≠ x } })
    | none =>
      let s := (s.count i 0xD 1).priv 0x303 1
      if s.hst.groups.any fun g => g.pasid = p && g.page = page && !g.retried && !g.void then (.wait, s) else
      if s.hst.xreqs.any fun r => r.1 = p && r.2.1 = page then
        (.wait, { s with hst := { s.hst with xreqs := s.hst.xreqs.map fun r =>
          if r.1 = p && r.2.1 = page then (r.1, r.2.1, r.2.2 || write) else r } })
      else if 1024 ≤ s.hst.xreqs.length then (.wait, s)
      else
        let s := { s with hst := { s.hst with xreqs := s.hst.xreqs ++ [(p, page, write)] } }
        (.wait, s.emit (.xlatRequest p page))

/-- Translate every page of a range, ascending; the first page that waits or faults decides. -/
def State.translateAll (s : State) (i : Nat) (write : Bool) : List Nat → Tr × Nat × State
  | [] => (.ok, 0, s)
  | p :: r =>
    match s.translate i p write with
    | (.ok, s) => s.translateAll i write r
    | (t, s) => (t, p, s)

def pagesOf (addr len : Nat) : List Nat := (List.range ((addr + len + 4095) / 4096 - addr / 4096)).map fun k => addr / 4096 + k

/-- What a fetch of operand bytes gives. -/
inductive Fetch where
  | got (b : List Byte)
  | wait
  | fail (st done : Nat)
  deriving DecidableEq, Repr

/-- Key of a host byte in the copy of host memory. -/
def hostKey (pasid : BitVec 20) (addr : Nat) : Nat := pasid.toNat * 2 ^ 64 + addr

/-- Background work is owed the next slot at the line that holds a byte of an object (R201). -/
def State.slotOwed (s : State) (e : ObjEntry) (off : Nat) : Bool :=
  match e.place off with
  | .hbm st l => s.bgOwed (s.arbiter st (l / 64))
  | .hearth l => s.bgOwed (16 + tierOf l)
  | .entry _ => false

/-- Read operand bytes of an object for a command. An access to a line where background work is owed the next slot waits for
it. A host read is issued once its pages are translated, and its bytes
arrive with `HOST_TRANSFER_COMPLETION`. -/
def State.fetchObj (s : State) (i q seq ix off len : Nat) : Fetch × State :=
  let e := s.obj i ix
  if e.kind ≠ 2 then
    if len ≠ 0 && s.slotOwed e off then (.wait, s) else
    match s.objBytes (s.objTag i e) e (len / 64 + 2) off len with
    | (b, 0, s) => (.got b, s)
    | (b, st, s) => (.fail st b.length, s)
  else
    let a := e.base + off
    match s.cmd? i q seq with
    | none => (.wait, s)
    | some c =>
      match c.hostGot.find? fun g => g.1 = a && g.2.length = len with
      | some g => (.got g.2, s)
      | none =>
        if c.xlatBad ≠ 0 && (pagesOf a len).contains (c.xlatBad - 1) then (.fail stXlatFault 0, s)
        else if c.hostOut ≠ 0 || c.xlatWait ≠ 0 then (.wait, s)
        else
          match s.translateAll i false (pagesOf a len) with
          | (.ok, _, s) =>
            let id := s.hst.nextXfer
            let p := (s.slice i).pasid
            let x : Xfer := { id, slice := i, queue := q, seq, pasid := p, addr := a, len, write := false }
            let s := { s with hst := { s.hst with nextXfer := id + 1, xfers := s.hst.xfers ++ [x] } }
            let s := s.modCmd i q seq fun c => { c with hostOut := c.hostOut + 1 }
            (.wait, s.emit (.hostRead p id a len))
          | (.wait, p, s) => (.wait, s.modCmd i q seq fun c => { c with xlatWait := p + 1 })
          | (.fault, _, s) => (.fail stXlatFault 0, s)

/-- What storing operand bytes gives: how much of the leading part was written, a wait, or a failure. -/
inductive Store where
  | done
  | wait
  | fail (st done : Nat)
  deriving DecidableEq, Repr

/-- Write bytes into the copy of host memory (log 6). -/
def State.hostPut (s : State) (pasid : BitVec 20) (a : Nat) (b : List Byte) : State :=
  { s with hst := { s.hst with mem :=
    (b.foldl (fun (m : Tbl Byte × Nat) x => (m.1.set 0 (hostKey pasid m.2) x, m.2 + 1)) (s.hst.mem, a)).1 } }

/-- Write operand bytes to an object for a command. A host write is posted once its pages are translated. -/
def State.storeObj (s : State) (i q seq ix off : Nat) (b : List Byte) : Store × State :=
  let e := s.obj i ix
  if e.kind ≠ 2 then
    if !b.isEmpty && s.slotOwed e off then (.wait, s) else
    match s.objPut (s.objTag i e) e (b.length / 64 + 2) off b with
    | (_, 0, s) => (.done, s)
    | (k, st, s) => (.fail st k, s)
  else
    let a := e.base + off
    let of (f : Cmd → Nat) : Nat := ((s.cmd? i q seq).map f).getD 0
    let bad := of Cmd.xlatBad
    if bad ≠ 0 && (pagesOf a b.length).contains (bad - 1) then (.fail stXlatFault 0, s)
    else if of Cmd.xlatWait ≠ 0 then (.wait, s)
    else match s.translateAll i true (pagesOf a b.length) with
    | (.ok, _, s) =>
      let p := (s.slice i).pasid
      (.done, (s.hostPut p a b).emit (.hostWrite p a b))
    | (.wait, p, s) => (.wait, s.modCmd i q seq fun c => { c with xlatWait := p + 1 })
    | (.fault, _, s) => (.fail stXlatFault 0, s)

end Sys2Proof.Machine
end

