-- ==== Sys2Proof/Machine/SyncOps.lean ====
section
/-! DEFINITION. The sync engine's shared operations: operands, the head checks of a command, waits, signals, posts,
orphaning, grants and notifiers (R85, R330 to R343). -/

namespace Sys2Proof.Machine
open Sys2Proof

/-! ## Objects and operands -/

/-- Sync objects of a slice. -/
def Slice.syncSize (l : Slice) : Nat := l.synCount * 256
/-- Global index of a slice's object. -/
def Slice.syncObj (l : Slice) (k : Nat) : Nat := l.synBase * 256 + k

/-- The slice whose range holds a global object, with the index in its range. -/
def State.syncOwner (s : State) (g : Nat) : Option (Nat × Nat) :=
  (s.qm.slices.cells.find? fun e => e.2.synBase * 256 ≤ g && g < e.2.synBase * 256 + e.2.syncSize).map
    fun e => (e.1, g - e.2.synBase * 256)

/-- The object an operand names, and the status that refuses it (R333 step 2, R339). -/
def State.resolveSync (s : State) (i : Nat) (o : SyncOpnd) : Nat × Nat :=
  if o.imported then
    let g := s.grant o.grantIx
    if !(g.used && g.gen = o.grantGen && g.grantee = i && o.object < g.count) then (stSyncInvalid, 0)
    else if !(if o.action ≤ 2 then g.wait else g.signal) then (stSyncRights, 0)
    else (0, g.first + o.object)
  else
    let l := s.slice i
    if o.object < l.syncSize then (0, l.syncObj o.object) else (stSyncInvalid, 0)

/-- Check one operand (R333): the status, and the object it names. -/
def State.checkSync (s : State) (i : Nat) (o : SyncOpnd) (isWait : Bool) : Nat × Nat :=
  if !(if isWait then o.action ≤ 2 else o.action = 0 || o.action = 3 || o.action = 4) || o.rsv ≠ 0 ||
      (o.action ≠ 1 && o.action ≠ 3 && o.value != 0) then (stSyncParam, 0)
  else if o.action = 0 then (0, 0)
  else
    match s.resolveSync i o with
    | (0, g) =>
      let k := (s.syncObj g).kind
      if k = (if o.action = 1 || o.action = 3 then SyncKind.fence else SyncKind.event) then (0, g) else (stSyncKind, 0)
    | (st, _) => (st, 0)

/-- The variant has no cipher engine (R506). -/
def State.cipherFused (s : State) : Bool := !s.boot.variant.getLsbD 8 || s.sys.pdFused.getLsbD 2

/-- Step 2 of R85: some reserved field of the command is not zero; the answer is its detail, that of the sync operand it lies
in or none (R361; log 132). Of an opcode that is not assigned, on this die or at all, only word 0 is examined (R352). -/
def Cmd.rsvNonzero (c : Cmd) (assigned : Bool) : Option Nat :=
  if c.rsvWords assigned then some dtNone
  else if assigned && c.waitOp.badRsv then some dtWait
  else if assigned && c.rsvSignal then some dtSignal
  else none

/-- Steps 1 to 5 of R85 and the sync-operand checks of R333: the status and detail of the first failure, 0 when the
command passes (R353). -/
def State.headCheck (s : State) (i q : Nat) (c : Cmd) : Nat × Nat :=
  let lvl := (s.slice i).level
  let assigned := opAssigned c.opcode && !(c.opcode = 0x14 && s.cipherFused)
  if c.level = 0 || lvl < c.level then (stLevelUnsupported, 0)
  else match c.rsvNonzero assigned with
  | some dt => (stRsvNonzero, dt)
  | none =>
    if !assigned then (stBadOpcode, 0)
    else if c.ctxnum ≠ (s.queue i q).ctxnum then (stCtxMismatch, 0)
    else if c.opcode / 16 = 6 && !(s.queue i q).param.getLsbD 12 then (stOpPrivilege, 0)
    else
      match (s.checkSync i c.waitOp true).1 with
      | 0 => if c.remoteSig then (0, 0) else
        match (s.checkSync i c.signalOp false).1 with
        | 0 => (0, 0)
        | st => (st, dtSignal)
      | st => (st, dtWait)

/-! ## The object cache (the performance note after R342, R343, R348) -/

/-- An object that holds waiters is pinned. -/
def State.pinnedObj (s : State) (g : Nat) : Bool := s.regWaits.any fun w => w.obj = g

/-- The cache holds the object or has an entry for it. -/
def State.cacheRoom (s : State) (g : Nat) : Bool :=
  s.syn.cache.contains g || s.syn.cache.length < 16384 || s.syn.cache.any fun x => !s.pinnedObj x

/-- Use an object: it is fetched into the cache, in place of the longest unused one that is not pinned (log 9). -/
def State.cacheObj (s : State) (g : Nat) : State :=
  let l := s.syn.cache
  let set (l : List Nat) : State := { s with syn := { s.syn with cache := g :: l } }
  if l.contains g then set (l.erase g)
  else if l.length < 16384 then set l
  else match l.reverse.find? fun x => !s.pinnedObj x with
    | some x => set (l.erase x)
    | none => s

/-! ## Waits (R334, R335, R338, R343) -/

/-- A wait on a broken object ends its command: flagged `PEER_BROKEN`, nothing executed (R338). -/
def Cmd.peerBroken (c : Cmd) : Cmd :=
  { c with stage := .finished, broken := true, status := stDoneFlagged, detail := dtPeerBroken, done := 0, issuedAll := true }

/-- Register a command's wait, or complete it at once. One that finds the table full stands behind the registered waits and
registers in order (R343; log 11); while every cache entry is pinned it holds its queue head. -/
def State.registerWait (s : State) (i q : Nat) (c : Cmd) : State :=
  let o := c.waitOp
  if o.action = 0 then s.modCmd i q c.seq fun c => { c with stage := .ready }
  else
    let g := (s.resolveSync i o).2
    let x := s.syncObj g
    if !s.cacheRoom g then
      if c.pinHeld then s
      else ({ s with syn := { s.syn with pinHolds := (s.syn.pinHolds + 1) % 65536 } }).modCmd i q c.seq fun c =>
        { c with pinHeld := true }
    else
    let s := s.cacheObj g
    if x.broken then s.modCmd i q c.seq Cmd.peerBroken
    else if o.action = 1 && o.value.toNat ≤ x.value.toNat then
      s.modCmd i q c.seq fun c => { c with stage := .ready, forced := c.forced || x.byForce }
    else
      let w : Wait := { who := .cmd i q c.seq, obj := g, take := o.action = 2, value := o.value, at_ := s.now }
      let s := { s with syn := { s.syn with waits := s.syn.waits ++ [w] } }
      s.modCmd i q c.seq fun c => { c with stage := .waiting }

/-- The command at the head of a queue: the first that has neither started nor ended. -/
def Queue.headCmd (x : Queue) : Option Cmd :=
  x.cmds.find? fun c => c.stage = .queued || c.stage = .waiting || c.stage = .ready

/-- Bring the head of a queue as far as its checks and its wait allow (R85, R333); one that fails or is broken makes way
for the next. -/
def State.advanceHead : Nat → Nat → Nat → State → State
  | 0, _, _, s => s
  | f + 1, i, q, s =>
    match (s.queue i q).headCmd with
    | none => s
    | some c =>
      if c.stage ≠ .queued then s
      else
        let (st, dt) := if c.checked then (0, 0) else s.headCheck i q c
        let s := s.modCmd i q c.seq fun c => { c with checked := true }
        if st ≠ 0 then State.advanceHead f i q (s.finishCmd i q c.seq st dt)
        else
          let so := c.signalOp
          let s := if c.remoteSig || so.action = 0 then s else
            s.modCmd i q c.seq fun c => { c with sigObj := (s.resolveSync i so).2 + 1 }
          State.advanceHead f i q (s.registerWait i q c)

/-- Advance a queue's head; the fuel is one more than the commands it holds. -/
def State.advance (s : State) (i q : Nat) : State := s.advanceHead ((s.queue i q).cmds.length + 1) i q

/-- What one registered wait does when its object is judged again. -/
def State.wakeOne (s : State) (x : SyncObj) (w : Wait) : State :=
  let drop (s : State) : State := s.dropWait w.who
  if x.broken then
    match w.who with
    | .cmd i q seq => (((drop s).modCmd i q seq Cmd.peerBroken)).advance i q
    | .step k _ => (drop s).endRun k stDoneFlagged dtPeerBroken
  else if x.kind = .fence && !w.take && w.value.toNat ≤ x.value.toNat then
    match w.who with
    | .cmd i q seq => (drop s).modCmd i q seq fun c => { c with stage := .ready, forced := c.forced || x.byForce }
    | .step k n => (drop s).modPlan k fun p => p.setSrun n { p.srun n with waitMet := true }
  else s

/-- Judge every wait on an object, in registration order. -/
def State.wake (s : State) (g : Nat) : State :=
  (s.syn.waits.filter fun w => w.obj = g).foldl (fun s w => s.wakeOne (s.syncObj g) w) s

/-- Waits registered on an object. -/
def State.waiters (s : State) (g : Nat) : Nat := (s.regWaits.filter fun w => w.obj = g).length

/-- A grant covers an object. -/
def State.granted (s : State) (g : Nat) : Bool :=
  s.syn.grants.cells.any fun e => e.2.used && e.2.first ≤ g && g < e.2.first + e.2.count

/-- An orphaned object that is to be freed becomes FREE once nothing waits on it and no grant covers it (R332, R337). -/
def State.settleObj (s : State) (g : Nat) : State :=
  if (s.syncObj g).freeing && s.waiters g = 0 && !s.granted g then s.setSyncObj g {} else s

/-- Settle every object that is to be freed. -/
def State.settleSync (s : State) : State := s.forEach s.syn.objs.keys State.settleObj

/-! ## Notifiers (R342) -/

/-- Flags of an object: REGRESS, OVERFLOW, BROKEN, FORCED from bit 0. -/
def SyncObj.flags (x : SyncObj) : Nat := b2n x.regress + 2 * b2n x.overflow + 4 * b2n x.broken + 8 * b2n x.forced

/-- The trigger of an armed notifier holds. -/
def SyncObj.triggered (x : SyncObj) : Bool :=
  x.broken || (match x.kind with
    | .fence => x.thresh.toNat ≤ x.value.toNat
    | .event => x.value != 0
    | .free => false)

/-- Send a slice's MSI-X vector (R342, R348); none is sent for a slice that is not `ACTIVE` (R381). -/
def State.sendVector (s : State) (i v : Nat) : State :=
  if (s.slice i).state = .active then s.emit (.msix ((s.slice i).vecBase + v)) else s

/-- Write a notification record, then send the interrupt. A host record whose translation is missing waits for it. -/
def State.notifyWrite (s : State) (i h off : Nat) (b : List Byte) (v : Option Nat) : State :=
  let irq (s : State) : State := match v with
    | some v => s.sendVector i v
    | none => s
  if s.lookup i h off 16 false true false ≠ 0 then irq (s.count i 0xC 1)
  else
    let e := s.obj i (hIndex h)
    if e.kind ≠ 2 then
      match s.objPut (s.objTag i e) e 2 off b with
      | (_, 0, s) => irq s
      | (_, _, s) => irq (s.count i 0xC 1)
    else
      let a := e.base + off
      match s.translate i (a / 4096) true with
      | (.ok, s) => irq ((s.hostPut (s.slice i).pasid a b).emit (.hostWrite (s.slice i).pasid a b))
      | (.wait, s) => { s with syn := { s.syn with notices := s.syn.notices ++ [{ slice := i, addr := a, bytes := b, vector := v }] } }
      | (.fault, s) => irq (s.count i 0xC 1)

/-- Fire an object's notifier when it is armed and its trigger holds. -/
def State.fireNotify (s : State) (g : Nat) : State :=
  let x := s.syncObj g
  if x.notify = 0 || !x.armed || !x.triggered then s
  else
    let s := s.setSyncObj g { x with armed := false }
    match s.syncOwner g with
    | none => s
    | some (i, k) =>
      let b := leBytes 8 x.value.toNat ++ leBytes 4 k ++ leBytes 4 x.flags
      let v := if 2 ≤ x.notify then some x.vector else none
      if x.notify % 2 = 1 then s.notifyWrite i x.ntHandle.toNat x.ntOff b v
      else match v with
        | some v => s.sendVector i v
        | none => s

/-- After a change of an object: note the time, judge its waits, fire its notifier. -/
def State.touchObj (s : State) (g : Nat) : State :=
  let s := { s with syn := { s.syn with changedAt := s.syn.changedAt.set 0 g s.now } }
  (s.wake g).fireNotify g

/-! ## Signals, posts, orphaning -/

/-- A fence signal (R334). -/
def State.signalObj (s : State) (g : Nat) (v : BitVec 64) : State :=
  let x := s.syncObj g
  let s := (s.progress unSync).cacheObj g
  if x.value.toNat < v.toNat then (s.setSyncObj g { x with value := v, byForce := false }).touchObj g
  else s.setSyncObj g { x with regress := true }

/-- An event post (R335). -/
def State.postObj (s : State) (g : Nat) : State :=
  let x := s.syncObj g
  let s := (s.progress unSync).cacheObj g
  if x.value = 0xFFFFFFFF then s.setSyncObj g { x with overflow := true }
  else (s.setSyncObj g { x with value := x.value + 1 }).touchObj g

/-- Orphan one object (R337). -/
def State.orphanObj (s : State) (g : Nat) (free : Bool) : State :=
  let x := s.syncObj g
  if x.kind = .free then s
  else
    let s := s.setSyncObj g { x with value := if x.kind = .fence then BitVec.allOnes 64 else x.value, broken := true
                                     freeing := x.freeing || free }
    (s.touchObj g).settleObj g

/-- Revoke a grant entry: its generation rises, or the entry is spent (R339). -/
def State.revokeGrant (s : State) (k : Nat) : State :=
  let g := s.grant k
  if !g.used then s
  else s.setGrant k (if g.gen = 255 then { gen := 255, spent := true } else { gen := g.gen + 1 })

/-- Revoke the grants that satisfy a test, then settle objects they covered. -/
def State.revokeGrants (s : State) (p : Grant → Bool) : State :=
  (s.forEach ((s.syn.grants.cells.filter fun e => e.2.used && p e.2).map Prod.fst) State.revokeGrant).settleSync

/-- Orphan every object of a slice and revoke the grants it issued (R337). -/
def State.orphanSlice (s : State) (i : Nat) (free : Bool) : State :=
  let l := s.slice i
  let gs := s.syn.objs.keys.filter fun g => l.synBase * 256 ≤ g && g < l.synBase * 256 + l.syncSize
  (s.forEach gs fun s g => s.orphanObj g free).revokeGrants fun g => g.owner = i

/-- Perform a committed command's signal operand (R88, R336, R338); the flag tells whether it was dropped. A broken command's
object is broken before its value wakes anyone. -/
def State.performSignal (s : State) (c : Cmd) : Bool × State :=
  if c.sigObj = 0 || c.remoteSig then (false, s)
  else
    let g := c.sigObj - 1
    let o := c.signalOp
    let x := s.syncObj g
    if x.kind = (if o.action = 3 then SyncKind.fence else SyncKind.event) then
      let s := if c.broken then s.setSyncObj g { x with broken := true } else s
      let s := if o.action = 3 then s.signalObj g o.value else s.postObj g
      (false, if c.broken && !x.broken then s.touchObj g else s)
    else (true, s)

end Sys2Proof.Machine
end

