-- ==== Sys2Proof/Machine/FabOps.lean ====
section
/-! DEFINITION. The fabric engine's shared operations: records, routing, issue, and the end of a record at its source
(R242, R247 to R252, R256 to R266). A flit built here carries one record (log 17). -/

namespace Sys2Proof.Machine
open Sys2Proof

/-! ## Records (R248 to R251) -/

def fkRead : Nat := 1
def fkWrite : Nat := 2
def fkAtomic : Nat := 3
def fkSignal : Nat := 4
def fkRsp : Nat := 8
def fkRspData : Nat := 9

/-- Word `k` of a record. -/
def recWord (b : List Byte) (k : Nat) : Nat := leNat ((b.drop (8 * k)).take 8)

/-- A request record's bytes. -/
def reqBytes (kind : Nat) (flag : Bool) (lines op tid srcMember window off key tally : Nat) (mask : BitVec 64)
    (data : List Byte) : List Byte :=
  leBytes 8 (packFields [(4, kind), (1, b2n flag), (2, lines), (1, 0), (4, op), (20, tid), (8, srcMember), (12, window)]) ++
  leBytes 8 (off % 2 ^ 48) ++ leBytes 8 (packFields [(32, key), (32, tally)]) ++ leBytes 8 mask.toNat ++ data

/-- A response record's bytes. -/
def rspBytes (kind rcode lines tid reqMember : Nat) (value : BitVec 64) (data : List Byte) : List Byte :=
  leBytes 8 (packFields [(4, kind), (4, rcode), (2, lines), (2, 0), (20, tid), (8, reqMember)]) ++ leBytes 8 value.toNat ++ data

/-- 16-byte units of a record from its first word; `none` for a reserved KIND (R249). -/
def recUnits (w0 : Nat) : Option Nat :=
  match bits w0 3 0 with
  | 0 => some 1
  | 1 => some 2
  | 2 => some (2 + 4 * (bits w0 6 5 + 1))
  | 3 => some 3
  | 4 => some 3
  | 8 => some 1
  | 9 => some (1 + 4 * (bits w0 9 8 + 1))
  | _ => none

/-- The records of a payload in order, and whether a reserved KIND cut it short (R247, R249). -/
def splitRecords : Nat → List Byte → List (List Byte) × Bool
  | 0, _ => ([], false)
  | f + 1, b =>
    if b.length < 16 || leNat (b.take 1) = 0 then ([], false)
    else
      match recUnits (recWord b 0) with
      | none => ([], true)
      | some n =>
        let (r, cut) := splitRecords f (b.drop (16 * n))
        (b.take (16 * n) :: r, cut)

/-- A payload of 240 bytes holding one record. -/
def padFlit (b : List Byte) : List Byte := (b ++ List.replicate 240 0).take 240

/-- RCODEs (R252). -/
def rcOk : Nat := 0
def rcDenied : Nat := 1
def rcRights : Nat := 2
def rcRange : Nat := 3
def rcFormat : Nat := 4
def rcPoison : Nat := 5
def rcMacFail : Nat := 6
def rcQuarantined : Nat := 7
def rcNoRoute : Nat := 8
def rcHoldFull : Nat := 9
def rcTallyFull : Nat := 10
def rcRecovering : Nat := 11

/-- The status that reports an RCODE (R252). -/
def rcodeStatus (rc : Nat) : Nat :=
  [0, stFabDenied, stFabRights, stFabRange, stFabFormat, stMemPoison, stMemMacFail, stFabQuarantined, stNoRoute, 0,
    stTallyFull, stPartnerRecovering].getD rc 0

/-! ## Pairs (R242, R260) -/

/-- The slot part of a pair's key. -/
def slotKey (slot : Option Nat) : Nat := match slot with
  | some d => d + 1
  | none => 0
def keySlot (k : Nat) : Option Nat := if k = 0 then none else some (k - 1)

def tallyOf (l : List (PairKey × Tally)) (p : PairKey) : Option Tally := (l.find? fun e => e.1 = p).map Prod.snd
def tallySet (l : List (PairKey × Tally)) (p : PairKey) (t : Tally) : List (PairKey × Tally) :=
  (p, t) :: l.filter fun e => e.1 ≠ p
/-- A pair's entry exists or one is left to allocate. -/
def tallyRoom (l : List (PairKey × Tally)) (p : PairKey) : Bool := (tallyOf l p).isSome || l.length < 1048576

def Rwin.slot (w : Rwin) : Option Nat := if w.dvalid then some w.dslot else none
def Rwin.pair (w : Rwin) : PairKey := (slotKey w.slot, w.node, w.member)

/-! ## Routing (R256 to R258) -/

/-- This die leads its group (R405). -/
def State.isLead (s : State) : Bool := s.hst.group ≠ .electing && s.hst.leadPos = s.sys.hubPos.toNat

/-- The session tag of a slot: bits 9:0 of its domain ID (R218). -/
def State.sessTag (s : State) (slot : Option Nat) : Nat := match slot with
  | some d => bits (s.slot d).domainId.toNat 9 0
  | none => 0

/-- A slot may send and accept flits: its tag is not zero, and no lower-numbered non-EMPTY slot uses it (R218). -/
def State.slotSends (s : State) (slot : Option Nat) : Bool := match slot with
  | none => true
  | some d => s.sessTag slot ≠ 0 &&
      !((List.range d).any fun e => (s.slot e).state ≠ .empty && s.sessTag (some e) = s.sessTag slot)

/-- Where a fabric flit goes. -/
inductive FabPath where
  | own
  | links (l : List Nat)
  | bridge (hub : Nat)
  | noRoute
  deriving DecidableEq, Repr

/-- Allowed links that may carry a flit: those UP, and those that left UP with unacknowledged flits (R258). -/
def State.usable (s : State) (links : BitVec 32) : List Nat :=
  (List.range 32).filter fun l => links.getLsbD l &&
    (let x := s.link l
     x.state = .up || (!x.replay.isEmpty && x.state ≠ .disabled && x.state ≠ .downFailed))

/-- A table entry's direction; an entry over the bridge to a lost die is invalid (R404). -/
def State.entryPath (s : State) (r : Route) : FabPath :=
  if !r.valid then .noRoute
  else if r.bridge then (if s.hst.lost.getLsbD r.hub then .noRoute else .bridge r.hub)
  else .links (s.usable r.links)

/-- The direction of a flit to a node and member path (R256, R257). -/
def State.fabPath (s : State) (dst member : Nat) : FabPath :=
  if dst ≠ s.fab.node then s.entryPath (s.fab.routes.get {} dst)
  else if member = s.fab.member then .own
  else if s.fab.mapGen ≠ s.fab.leadMapGen then .noRoute
  else s.entryPath (s.fab.mroutes.get {} member)

/-- Send a fabric flit on its way; nothing when it has no route. `key` feeds the hash of R256. -/
def State.sendFab (s : State) (f : FabFlit) (key : Nat) : Option State :=
  match s.fabPath f.dst f.member with
  | .noRoute => none
  | .own => some { (s.progress unFabric) with fab := { s.fab with loop := s.fab.loop ++ [f] } }
  | .bridge h => some (s.emit (.bridgeFab h f.ftype f.slot f.dst f.src f.payload))
  | .links [] => some { s with fab := { s.fab with waiting := s.fab.waiting ++ [f] } }
  | .links (l :: r) =>
    let cs := l :: r
    let x := if r.isEmpty then l else cs.getD (Config.linkHash f.dst f.member key % cs.length) l
    some (s.queueFlit x { ftype := f.ftype, slot := f.slot, dst := f.dst, src := f.src, payload := f.payload })

/-- Error counts of R271: 0 LATE_RSP, 1 NO_ROUTE, 2 DENIED, 3 TIMEOUTS, 4 HOLD_RESENDS, 5 TALLY_EXPIRED, 6 FORMAT,
7 PARSE_END. -/
def State.fabErr (s : State) (k n : Nat) : State :=
  { s with fab := { s.fab with errs := s.fab.errs.set 0 k (min 65535 (s.fab.errs.get 0 k + n)) } }

/-- The line index of a request record's offset, which the hash of R256 uses. -/
def recKey (b : List Byte) : Nat := if bits (recWord b 0) 3 0 < 8 then bits (recWord b 1) 39 6 else bits (recWord b 0) 31 12

/-- Member path a record goes to: the offset's member bits of a request, REQ_MEMBER of a response (R242, R247). -/
def recMember (b : List Byte) : Nat := if bits (recWord b 0) 3 0 < 8 then bits (recWord b 1) 47 40 else bits (recWord b 0) 39 32

/-- Send a response record to a die in the name of a node (R251). -/
def State.sendRspAs (s : State) (self : Nat) (slot : Option Nat) (node : Nat) (b : List Byte) : State :=
  let f : FabFlit := { ftype := 9, slot, dst := node, member := recMember b, src := self, payload := padFlit b }
  match s.sendFab f (recKey b) with
  | some s => s
  | none => s.fabErr 1 1

/-- Send a response record of this die. -/
def State.sendRsp (s : State) (slot : Option Nat) (node : Nat) (b : List Byte) : State := s.sendRspAs s.fab.node slot node b

/-- A flit of records that cannot go on: each request is answered `NO_ROUTE` in the name of the node it was bound for, which
is the SRC that R255 asks of its response (DEDUCED, log 124); responses are counted (R218, R255, R256). -/
def State.undeliverable (s : State) (ftype : Nat) (slot : Option Nat) (dst src : Nat) (payload : List Byte) : State :=
  let recs := (splitRecords 15 payload).1
  if ftype = 8 then recs.foldl (fun s b =>
    (s.fabErr 1 1).sendRspAs dst slot src
      (rspBytes fkRsp rcNoRoute 0 (bits (recWord b 0) 31 12) (bits (recWord b 0) 39 32) 0 [])) s
  else if ftype = 9 then s.fabErr 1 recs.length
  else s

/-! ## Issue (R242, R260, R264 to R266) -/

/-- What an issue answers: the record is on its way, it ended at its source with a status, or it waits (R266). -/
inductive Issue where
  | sent
  | ended (st : Nat)
  | full
  deriving DecidableEq, Repr

/-- The first TID free of outstanding and cooling records, from the next one tried (R266). -/
def State.freeTid (s : State) : Nat :=
  let n := s.fab.outs.length + s.fab.coolTids.length + 1
  let busy (t : Nat) : Bool := (s.fab.outs.any fun o => o.tid = t) || s.fab.coolTids.any fun c => c.1 = t && s.now < c.2
  (((List.range n).map fun k => (s.fab.nextTid + k) % 2 ^ 20).find? fun t => !busy t).getD s.fab.nextTid

/-- Issue one record under a remote window entry's values. A store takes or makes the pair's SENT entry; a flag store
takes TALLY (R260). -/
def State.issueRec (s : State) (owner : RecOwner) (rw : Rwin) (kind lines op : Nat) (flag : Bool) (off : Nat)
    (mask : BitVec 64) (data : List Byte) (dest : Nat) : Issue × State :=
  let pair := rw.pair
  let store := kind ≠ fkRead
  let t := (tallyOf s.fab.sent pair).getD {}
  if s.fab.node = 0 || !s.slotSends rw.slot then (.ended stNoRoute, s)
  else if s.fab.lost.contains pair then (.ended stPartnerLost, s)
  else if store && (!tallyRoom s.fab.sent pair || (flag && t.faulted)) then (.ended stTallyFull, s)
  else if 262144 ≤ s.fab.outs.length then (.full, s)
  else
    let tid := s.freeTid
    let b := reqBytes kind flag lines op tid s.fab.member rw.window (off % 2 ^ 40 + 2 ^ 40 * rw.member) rw.key.toNat
      (if flag then t.count.toNat else 0) mask data
    let f : FabFlit := { ftype := 8, slot := rw.slot, dst := rw.node, member := rw.member, src := s.fab.node, payload := padFlit b }
    match s.sendFab f (recKey b) with
    | none => (.ended stNoRoute, s.fabErr 1 1)
    | some s =>
      let o : OutRec := { tid, owner, pairSlot := slotKey rw.slot, node := rw.node, member := rw.member, kind
                          deadline := s.now + (if rw.timeout = 0 then 20 else rw.timeout) * ms, dest, lines, bytes := b }
      let s := { s with fab := { s.fab with
        outs := s.fab.outs ++ [o], nextTid := (tid + 1) % 2 ^ 20
        coolTids := s.fab.coolTids.filter fun c => s.now < c.2
        sent := if store then tallySet s.fab.sent pair { t with count := t.count + 1 } else s.fab.sent } }
      (.sent, s.count rw.slice 3 1)

/-- A request to a remote window entry becomes a record, or is refused under R30 or ends at its source; beyond the records
a die may hold it waits for issue (R246, R266). -/
def State.aperture (s : State) (x : ApReq) : State :=
  let w := s.rwin x.entry
  let right := w.rights.getLsbD (x.kind - 1)
  if !(w.set && w.aperture && w.slice = tagSlice x.tag && w.slot = tagSlot x.tag && right) then s.netAnswer x.tag none
  else
    match s.issueRec (.net x.tag) w x.kind 0 x.op false x.off x.mask x.data 0 with
    | (.sent, s) => s
    | (.ended _, s) => s.netAnswer x.tag none
    | (.full, s) => { s with fab := { s.fab with apWait := s.fab.apWait ++ [x] } }

/-- The accesses that wait for issue go on in order while there is room for a record (R266). -/
def State.apRun : List ApReq → State → State
  | [], s => { s with fab := { s.fab with apWait := [] } }
  | x :: r, s =>
    if 262144 ≤ s.fab.outs.length then { s with fab := { s.fab with apWait := x :: r } } else State.apRun r (s.aperture x)

def State.retryAps (s : State) : State := if s.fab.apWait.isEmpty then s else State.apRun s.fab.apWait s

/-! ## The end of a record at its source -/

/-- The unbroken leading part of an operand that its completed parts cover (R357). -/
def prefixOf : Nat → List (Nat × Nat) → Nat → Nat
  | 0, _, n => n
  | f + 1, l, n => match l.find? fun p => p.1 ≤ n && n < p.1 + p.2 with
    | some p => prefixOf f l (p.1 + p.2)
    | none => n

def Cmd.prefixDone (c : Cmd) : Nat := prefixOf c.parts.length c.parts 0

/-- Keep the first failure a command meets while it executes (R359). -/
def Cmd.fail (c : Cmd) (st dt : Nat) : Cmd := if c.status = 0 then { c with status := st, detail := dt } else c

/-- End an executing command whose issued work has all returned: as a stop decided, or by its own outcome. -/
def Cmd.settleWork (c : Cmd) : Cmd :=
  if c.stage ≠ .executing || c.outstanding then c
  else if c.stop ≠ 0 then ({ c with done := c.prefixDone }).settleStop
  else if !c.issuedAll || !c.hostGot.isEmpty then c
  else if c.status ≠ 0 then { c.finish c.status c.detail with done := c.prefixDone }
  else c.finishOk c.prefixDone c.result

/-- `FLUSH_REMOTE` commands of a queue that have begun end once no earlier command has a record outstanding (R262). -/
def flushDone : Bool → List Cmd → List Cmd
  | _, [] => []
  | clear, c :: r =>
    let c' := if c.opcode = 0x28 && c.runs && c.progress = 1 && clear then c.finishOk 0 else c
    c' :: flushDone (clear && c.recordsOut = 0) r

/-- After a record of a queue's command has ended: settle its commands and its flushes. -/
def State.settleFab (s : State) (i q : Nat) : State :=
  s.modQueue i q fun x => { x with cmds := flushDone true (x.cmds.map fun c =>
    if 0x24 ≤ c.opcode && c.opcode ≤ 0x27 then c.settleWork else c) }

/-- Lines of a `READ` answered to its command go to the destination object (R367); a host write that waits for its
translation is kept with the command. -/
def State.putRead (s : State) (i q seq dest : Nat) (b : List Byte) : State :=
  match s.cmd? i q seq with
  | none => s
  | some c =>
    match s.storeObj i q seq (hIndex (c.f 2 31 0)) (c.f 3 39 0 + dest) b with
    | (.done, s) => s.modCmd i q seq fun c => { c with parts := (dest, b.length) :: c.parts }
    | (.wait, s) => s.modCmd i q seq fun c => { c with hostGot := c.hostGot ++ [(dest, b)] }
    | (.fail st _, s) => s.modCmd i q seq fun c => c.fail st dtB

/-- End a record at its source with a status, 0 for `OK`, and what it returned (R252, R254, R263). -/
def State.endRec (s : State) (o : OutRec) (st : Nat) (value : BitVec 64) (data : List Byte) : State :=
  let s := { s with fab := { s.fab with outs := s.fab.outs.filter fun x => x.tid ≠ o.tid } }.retryAps
  match o.owner with
  | .net t =>
    if st ≠ 0 then s.netAnswer t none
    else s.netAnswer t (some (if o.kind = fkRead then lineOf data else BitVec.ofNat 512 value.toNat))
  | .cmd i q seq =>
    let s := s.modCmd i q seq fun c => { c with recordsOut := c.recordsOut - 1 }
    let s := if st ≠ 0 then (s.count i 4 1).modCmd i q seq fun c =>
        c.fail st (if o.kind = fkSignal && c.remoteSig then dtSignal else dtA)
      else if o.kind = fkRead then s.putRead i q seq o.dest data
      else s.modCmd i q seq fun c =>
        if c.opcode = 0x25 && o.kind = fkWrite then { c with parts := (o.dest, 64 * (o.lines + 1)) :: c.parts }
        else if c.opcode = 0x26 && o.kind = fkAtomic then { c with parts := (0, 8) :: c.parts, result := value }
        else c
    s.settleFab i q

end Sys2Proof.Machine
end

