-- ==== Sys2Proof/Machine/Network.lean ====
section
/-! DEFINITION. Requests of the hub network: the checks at ingress, what returns from stacks and tiers, and the releases and
changes of power groups that wait for requests in flight (R24, R26, R29 to R31, R35, R140, R168, R186, R246, R458). -/

namespace Sys2Proof.Machine
open Sys2Proof

/-! ## Releases and changes of power groups that wait for requests in flight -/

/-- End the executing commands of an opcode that act on a region or range. -/
def State.endRgnCmds (s : State) (op n done : Nat) (result : BitVec 64) : State :=
  s.allCmds.foldl (fun s e =>
    if e.2.2.opcode = op && e.2.2.rgn = n + 1 then
      s.modCmd e.1 e.2.1 e.2.2.seq fun c => if c.runs then c.finishOk done result else c
    else s) s

/-- Let the requests that satisfy a test go on. -/
def unhold (l : List MemReq) (p : MemReq → Bool) : List MemReq := l.map fun r => if p r then { r with hold := false } else r

/-- The last steps of a region's release (R168): cached metadata dropped without write-back, root block zeroed, entry
`UNASSIGNED`, and its answer. -/
def State.finishRelease (s : State) (ri : Nat) : State :=
  let r := s.rgn ri
  let inRgn (q : MemReq) : Bool := s.rgnAt q.addr = some ri
  let s := { s with msl := { s.msl with pending := unhold s.msl.pending inRgn
                                        reenc := s.msl.reenc.filter fun p => p.1 ≠ ri } }
  let s := (s.dropCached fun c => c.region = ri).setRoot ri 0
  let s := { s with fbx := { s.fbx with rootBad := s.fbx.rootBad.filter fun x => x ≠ ri } }
  let s := s.setRgn ri {}
  let s := if r.byReg then { s with msl := { s.msl with rres := 2 } } else s.endRgnCmds 0x63 ri 0 0
  s.kidSettle

/-- A change of a stack's power groups (R24, R26): what the leaving groups hold in their caches is written back and
dropped, and with it their arbiters' counts (R36); then the new set serves. Items of groups that stay powered stay cached. A
group that comes on serves at once: whether its slivers first take a new microcode broadcast the spec does not say
(DESIGN CHOICE, log 108). -/
def State.applyGroups (s : State) (st : Nat) : State :=
  let new := s.sys.stackGoal.get 0 st - 1
  let gone (c : Cached) : Bool :=
    (s.rgn c.region).stack = st && 4 ≤ s.cacheOf c && !bit new (s.cacheOf c % 4)
  let s := (s.writeBackAll gone).dropCached gone
  let pd := (List.range 4).foldl (fun t g => Tbl.set t PdState.on (14 + 4 * st + g) (if bit new g then .on else .off)) s.sys.pd
  { s with
    sys := { s.sys with pd, stackGoal := s.sys.stackGoal.set 0 st 0 }
    msl := { s.msl with pending := unhold s.msl.pending fun q => q.addr / 2 ^ 30 = st }
    hth := { s.hth with bgSlots := s.hth.bgSlots.filter fun a _ => !(a / 4 = st && a < 16 && !bit new (a % 4))
                        bgRun := s.hth.bgRun.filter fun a _ => !(a / 4 = st && a < 16 && !bit new (a % 4))
                        wallAt := s.hth.wallAt.filter fun a _ => !(a / 4 = st && a < 16 && !bit new (a % 4)) } }

/-- Complete the releases and changes of power groups that nothing in flight holds up any more. -/
def State.settleHbm (s : State) : State :=
  let free (p : MemReq → Bool) : Bool := !(s.msl.pending.any fun q => !q.hold && p q)
  let rel := (s.msl.rgns.cells.filter fun e => e.2.state = .releasing && free fun q => s.rgnAt q.addr = some e.1).map Prod.fst
  let sts := (List.range 4).filter fun st => s.sys.stackGoal.get 0 st ≠ 0 && free fun q => q.addr / 2 ^ 30 = st
  if rel.isEmpty && sts.isEmpty then s
  else ((s.forEach rel State.finishRelease).forEach sts State.applyGroups).runHbm

/-- Complete the releases of hearth ranges that nothing in flight holds up any more (R186). -/
def State.settleHearth (s : State) : State :=
  let rel := (s.hth.rngs.cells.filter fun e => e.2.state = .releasing &&
    !(s.hth.pending.any fun q => !q.hold && s.hrgAt q.addr = some e.1)).map Prod.fst
  let finish (s : State) (r : Nat) : State :=
    let h := s.hrg r
    let s := { s with hth := { s.hth with pending := unhold s.hth.pending fun q => s.hrgAt q.addr = some r } }
    let s := s.setHrg r {}
    let s := if h.byReg then { s with hth := { s.hth with rres := 2 } } else s.endRgnCmds 0x66 r 0 0
    s.kidSettle
  if rel.isEmpty then s
  else
    (s.forEach rel finish).wakeHearth

/-- A stack returns a line (R160, R162): the copy of the stack takes it, and the requests that waited go on. A line that
was not asked for has no effect; the data of one that has been written since its read was issued is not used, and those
that still wait read it again. -/
def State.lineReturned (s : State) (stack line : Nat) (d : Line) (poison corrected : Bool) : State :=
  let a := stack * 2 ^ 30 + line
  if !s.msl.issued.contains a then s
  else
    let old := s.msl.stale.contains a
    let s := { s with msl := { s.msl with
      issued := s.msl.issued.filter fun x => x ≠ a
      stale := s.msl.stale.filter fun x => x ≠ a } }
    let s := if old then s else { s with msl := { s.msl with
      arrived := (a, d, poison) :: s.msl.arrived.filter fun e => e.1 ≠ a
      hbm := s.msl.hbm.set 0 a d
      hbmPoison := s.msl.hbmPoison.set false a poison } }
    let s := if corrected then (s.memErr stack 1 0 0).priv 0x306 1 else s
    let s := match s.msl.pending.find? fun r => r.addr = a with
      | some r => s.count (tagSlice r.tag) 8 (b2n corrected)
      | none => s
    s.runHbm.settleHbm

/-! ## Ingress -/

/-- The network port serves: release step 3 has been reached, no fence has closed it, and ACLK runs (R35, R458). -/
def State.networkUp (s : State) : Bool := s.clkRuns .aclk && 3 ≤ s.rst.step && !(s.rst.phase = .fencing && 2 ≤ s.rst.fenceStep)

/-- The unit that serves a place is clocked: a stack interface by its MCLK (R35). -/
def State.placeRuns (s : State) : Place → Bool
  | .hbm st _ => s.clkRuns (.mclk st)
  | _ => true

/-- The place a request addresses. -/
def placeOf : NetTarget → Place
  | .hbm st l => .hbm st l
  | .hearth l => .hearth l
  | .aperture e _ => .entry e

/-- Accept a line request of an admitted tag. -/
def State.acceptLine (s : State) (t : Tag) (p : NetTarget) (write : Bool) (d : Line) (m : BitVec 64) : State :=
  match p with
  | .aperture e off =>
    let kind := if write then fkWrite else fkRead
    s.aperture { tag := t, entry := e, off := off / 64 * 64, kind, op := 0, mask := if write then m else 0
                 data := if write then lineBytes d else [] }
  | .hbm st l =>
    let a := st * 2 ^ 30 + l
    let hold := s.sys.stackGoal.get 0 st ≠ 0 || (match s.rgnAt a with
      | some ri => (s.rgn ri).state = .releasing
      | none => false)
    let s := s.useLine t a
    let route := s.hbmRoute t a
    let r : MemReq := { tag := t, addr := a, write, data := d, mask := m, hold, slot := true
                        route := if hold then none else some route }
    if !hold && (route = .refused || route = .inactive) then
      if write then
        let x := s.writeRoute .arrived r route false
        x.2.reply r (.bad false)
      else
        let x := s.hbmReadVia .arrived t a route
        x.2.reply r x.1
    else ({ s with msl := { s.msl with pending := s.msl.pending ++ [r] } }).runHbm
  | .hearth l =>
    let s := s.useCell (.kid (tagKid t))
    let r : MemReq := { tag := t, addr := l, write, data := d, mask := m, hold := s.hearthHeld l, slot := true }
    ({ s with hth := { s.hth with pending := s.hth.pending ++ [r] } }).wakeHearth

/-! ## Meanings -/

/-- `NETWORK_REQUEST` (R29, R30, R458): the checks in order, then the unit the request goes to. -/
def execNetworkRequest (tag : Tag) (rq : NetReq) (s : State) : Res :=
  .next <|
    let (p, write) : Place × Bool := match rq with
      | .read p => (placeOf p, false)
      | .write p _ _ => (placeOf p, true)
      | .atomic e _ _ _ _ => (.entry e, true)
    if !s.networkUp || !s.placeRuns p then s.emit (.net (respTag tag true) (BitVec.allOnes 512) true)
    else
      match s.tagCheck tag p write true with
      | 0 =>
        match rq with
        | .read p => s.acceptLine tag p false 0 0
        | .write p d m => s.acceptLine tag p true d m
        | .atomic e off op a b => s.aperture { tag, entry := e, off, kind := fkAtomic, op, mask := 0, data := leBytes 8 a.toNat ++ leBytes 8 b.toNat }
      | n => (s.tagRefused tag n).netAnswer tag none

/-- `HBM_READ_RETURN` (R160, R163, R166). -/
def execHbmReadReturn (stack line : Nat) (d : Line) (poison corrected : Bool) (s : State) : Res :=
  .next (s.lineReturned stack line d poison corrected)

/-- `METADATA_FETCH_RETURN` (R157, R162, R194); `rootOk` tells whether the root block above the line passes its check
(R128). -/
def execMetadataFetchReturn (stack line : Nat) (d : Line) (poison corrected rootOk : Bool) (s : State) : Res :=
  .next <|
    let a := stack * 2 ^ 30 + line
    let s := match s.rgnAt a with
      | some ri => if !rootOk && s.msl.issued.contains a && (s.rgn ri).mode = 1 then s.rootFault ri else s
      | none => s
    s.lineReturned stack line d poison corrected

/-- `HEARTH_READ_RETURN` (R184, R185): the tier's copy takes the stored line, the oldest request that waits for it is
served, and those behind it follow. -/
def execHearthReadReturn (line : Nat) (d : Line) (e : BitVec 64) (s : State) : Res :=
  .next <|
    match s.hth.pending.find? fun r => r.addr = line && !r.hold && !r.slot with
    | none => s
    | some r =>
      let s := { s with hth := { s.hth with store := s.hth.store.set 0 line d, ecc := s.hth.ecc.set 0 line e
                                            pending := s.hth.pending.erase r } }
      (s.serveHearth r (some (d, e))).2.wakeHearth.kidSettle.settleHearth

end Sys2Proof.Machine
end

