-- ==== Sys2Proof/Machine/Proup.lean ====
section
/-! DEFINITION. What the executing units share: the start checks' form, when a unit may work for a command, and the ways a
command's work ends (R84 to R86, R351, R354, R357, R359). -/

namespace Sys2Proof.Machine
open Sys2Proof

/-! ## Start checks (steps 6 and 7 of R85) -/

/-- A check's answer: the status and detail of the first failure, status 0 when it passes. -/
abbrev Chk := Nat × Nat

def chkOk : Chk := (0, 0)

/-- The first failure of a list of checks. -/
def firstFail : List Chk → Chk
  | [] => chkOk
  | c :: r => if c.1 ≠ 0 then c else firstFail r

/-- A rule that holds, or its status and detail. -/
def chkIf (ok : Bool) (st dt : Nat) : Chk := if ok then chkOk else (st, dt)

/-- A handle passes R92 for a range and rights. -/
def State.chkObj (s : State) (i h off len : Nat) (rd wr : Bool) (dt : Nat) : Chk := (s.lookup i h off len rd wr false, dt)

/-- The domain slot of a slice (R86). -/
def State.domainOf (s : State) (i : Nat) : Option Nat := (s.slice i).domain

/-! ## Work for a command -/

/-- ISSUE_AFTER (R351), in a unit whose clock runs (R35): every earlier command of the queue has issued all its work, and every earlier `FLUSH_REMOTE` has
completed. -/
def State.mayIssue (s : State) (i q : Nat) (c : Cmd) : Bool :=
  s.clkRuns .cclk && (!c.issueAfter || ((s.queue i q).cmds.takeWhile fun x => x.seq ≠ c.seq).all fun x =>
    x.stage = .finished || (x.stage = .executing && x.issuedAll && x.opcode ≠ 0x28))

/-- The switched domain an opcode's unit lies in (R36, R37): PD_CIPHER or PD_WITNESS, none for the other units. -/
def unitPd (op : Nat) : Option Nat :=
  if op = 0x14 then some 2 else if 0x50 ≤ op && op ≤ 0x53 then some 3 else none

/-- The unit of an opcode is switched on. -/
def State.unitOn (s : State) (op : Nat) : Bool := match unitPd op with
  | some p => s.sys.pd.get .on p = .on
  | none => true

/-- Run a unit's work for an executing command of an opcode; nothing when there is no such command, when a stop has ended
it, or when it must wait. -/
def State.unit (s : State) (i q seq op : Nat) (f : Cmd → State → State) : State :=
  match s.cmd? i q seq with
  | none => s
  | some c => if c.opcode = op && c.runs && s.mayIssue i q c && s.unitOn op then f c s else s

/-- End a command's work with a failure, and how much of its operand is done. -/
def State.failCmd (s : State) (i q seq st dt done : Nat) : State :=
  s.modCmd i q seq fun c => if c.runs then { c.finish st dt with done } else c

/-- End a command's work well. -/
def State.endCmd (s : State) (i q seq done : Nat) (result : BitVec 64 := 0) : State :=
  s.modCmd i q seq fun c => if c.runs then c.finishOk done result else c

/-- Note how far a command has come: its unit finished a block of it (R346). -/
def State.progressCmd (s : State) (i q seq n : Nat) : State :=
  (s.progress unQm).modCmd i q seq fun c => { c with progress := n, done := n, hostGot := [] }

/-- End a command that needs no work of its own but this: well, or with the status a rule gives. -/
def State.endWith (s : State) (i q seq : Nat) (r : Chk) (f : State → State) (result : BitVec 64 := 0) : State :=
  if r.1 ≠ 0 then s.failCmd i q seq r.1 r.2 0 else (f s).endCmd i q seq 0 result

end Sys2Proof.Machine
end

