-- ==== Sys2Proof/Machine/Fabric.lean ====
section
/-! DEFINITION. The fabric engine: flits that arrive, the records of a target, responses, timeouts, held flags and the
engine's registers (R242, R247 to R271, R340). -/

namespace Sys2Proof.Machine
open Sys2Proof

/-! ## Flits that arrive -/

/-- Credit class of a flit type (R217). -/
def flitClass (ftype : Nat) : Nat :=
  if ftype = 3 then 3 else if ftype = 8 then 0 else if ftype = 9 then 1 else 2

/-- Take the oldest accepted flit of a type from a link; it leaves the receive buffer, which returns its credit (R224). -/
def State.takeLink (s : State) (l ftype : Nat) : Option RxFlit × State :=
  let x := s.link l
  match x.accepted.find? fun f => f.ftype = ftype with
  | none => (none, s)
  | some f =>
    let c := flitClass ftype
    (some f, (s.progress (if ftype < 0x10 then unFabric else unPlan)).setLink l { x with
      accepted := x.accepted.erase f
      rxFreed := x.rxFreed.set 0 c (min (x.rxTaken.get 0 c) (x.rxFreed.get 0 c + 1)) })

/-- Something has arrived from a die of the package (R404). -/
def State.heard (s : State) (h : Nat) : State := { s with hst := { s.hst with heardAt := s.hst.heardAt.set 0 h s.now } }

/-- Take a flit of a type from where a command names it. A flit of a bridge comes whole. -/
def State.takeFlit (s : State) (f : FlitIn) (ftype : Nat) : Option RxFlit × State :=
  match f with
  | .link l => s.takeLink l ftype
  | .loop =>
    match s.fab.loop.find? fun x => x.ftype = ftype with
    | none => (none, s)
    | some x =>
      (some { ftype, slot := x.slot, dst := x.dst, src := x.src, payload := x.payload },
        { (s.progress unFabric) with fab := { s.fab with loop := s.fab.loop.erase x } })
  | .bridge h slot dst src payload =>
    if s.hst.lost.getLsbD h then (none, s) else (some { ftype, slot, dst, src, payload }, s.heard h)

/-- The engine serves: its release step has been reached, and its die has a node number (R242, R457). -/
def State.fabUp (s : State) : Bool := 5 ≤ s.rst.step && s.fab.node ≠ 0

/-! ## Fields of a request record (R248) -/

abbrev ReqRec := List Byte

def rqKind (b : ReqRec) : Nat := bits (recWord b 0) 3 0
def rqFlag (b : ReqRec) : Bool := bit (recWord b 0) 4
def rqLines (b : ReqRec) : Nat := bits (recWord b 0) 6 5
def rqOp (b : ReqRec) : Nat := bits (recWord b 0) 11 8
def rqTid (b : ReqRec) : Nat := bits (recWord b 0) 31 12
def rqSrcMember (b : ReqRec) : Nat := bits (recWord b 0) 39 32
def rqWindow (b : ReqRec) : Nat := bits (recWord b 0) 51 40
def rqOffset (b : ReqRec) : Nat := bits (recWord b 1) 39 0
def rqMember (b : ReqRec) : Nat := bits (recWord b 1) 47 40
def rqKey (b : ReqRec) : Nat := bits (recWord b 2) 31 0
def rqTally (b : ReqRec) : BitVec 32 := BitVec.ofNat 32 (bits (recWord b 2) 63 32)
def rqMask (b : ReqRec) : BitVec 64 := BitVec.ofNat 64 (recWord b 3)
def rqStore (b : ReqRec) : Bool := rqKind b ≠ fkRead

/-- The request is well formed (check 1 of R253, R248 to R250, R340). -/
def rqFormed (b : ReqRec) : Bool :=
  let k := rqKind b
  let off := rqOffset b
  bits (recWord b 0) 7 7 = 0 && bits (recWord b 0) 63 52 = 0 && bits (recWord b 1) 63 48 = 0 &&
  (if k = fkSignal then rqFlag b else k ≠ fkRead || !rqFlag b) &&
  (if k = fkRead || k = fkWrite then rqLines b ≤ 2 else rqLines b = 0) &&
  (if k = fkAtomic then rqOp b ≤ 7 else if k = fkSignal then rqOp b ≤ 1 else rqOp b = 0) &&
  (rqFlag b || rqTally b = 0) && ((k = fkWrite && rqLines b = 0) || rqMask b = 0) &&
  (if k = fkAtomic then off % 8 = 0 else k = fkSignal || off % 64 = 0) &&
  (k ≠ fkSignal || recWord b 5 = 0)

/-- The new value of an `ATOMIC` (R250). -/
def atomicResult (op : Nat) (old x cmp : BitVec 64) : BitVec 64 :=
  match op with
  | 0 => old + x
  | 1 => x
  | 2 => if old = cmp then x else old
  | 3 => if old.toNat < x.toNat then x else old
  | 4 => if x.toNat < old.toNat then x else old
  | 5 => old &&& x
  | 6 => old ||| x
  | _ => old ^^^ x

/-! ## Answers -/

/-- Answer a request record (R251), with its counts (R271). -/
def State.answerRec (s : State) (slot : Option Nat) (src : Nat) (b : ReqRec) (rc : Nat) (value : BitVec 64 := 0)
    (data : List Byte := []) : State :=
  let s := if rc = rcDenied then s.fabErr 2 1 else if rc = rcFormat then s.fabErr 6 1 else s
  let kind := if data.isEmpty then fkRsp else fkRspData
  s.sendRsp slot src (rspBytes kind rc (if data.isEmpty then 0 else rqLines b) (rqTid b) (rqSrcMember b) value data)

/-- RCODE of a memory failure (R252). -/
def memRcode (st : Nat) : Nat := if st = stMemMacFail then rcMacFail else rcPoison

/-- Count a store as applied (R254, R260). -/
def State.appliedOne (s : State) (p : PairKey) : State :=
  let t := (tallyOf s.fab.applied p).getD {}
  { s with fab := { s.fab with applied := tallySet s.fab.applied p { t with count := t.count + 1 } } }

/-- Answer a record; a store counts as applied with its answer, whatever that is (R254). -/
def State.settleRec (s : State) (slot : Option Nat) (src : Nat) (b : ReqRec) (rc : Nat) (value : BitVec 64 := 0)
    (data : List Byte := []) : State :=
  let s := s.answerRec slot src b rc value data
  if rqStore b then s.appliedOne (slotKey slot, src, rqSrcMember b) else s

/-! ## At the target (R253) -/

/-- The first check of R253 a record fails, as an RCODE, 0 when it passes; unspent member bits that are not zero fail with
the format (R242), and a wrong key raises its alarm. -/
def State.recCheck (s : State) (slot : Option Nat) (src : Nat) (b : ReqRec) : Nat × State :=
  let n := rqWindow b
  let w := s.win n
  let k := rqKind b
  let len := if k = fkAtomic then 8 else if k = fkSignal then 1 else 64 * (rqLines b + 1)
  let right := if k = fkRead then 0 else if k = fkWrite then 1 else if k = fkAtomic then 2 else 3
  if !rqFormed b || rqMember b ≠ rqMember b % 2 ^ s.fab.offBits then (rcFormat, s)
  else if (match slot with
      | none => false
      | some d => decide ((s.slot d).state = SlotState.quarantined)) then (rcQuarantined, s)
  else if (match slot with
      | none => false
      | some d => decide ((s.slot d).state ≠ SlotState.live)) then (rcDenied, s)
  else if !(w.state = WinState.opened && w.sync == decide (k = fkSignal) && slot = (if w.dvalid then some w.dslot else none) &&
      (w.srcNode = 0 || w.srcNode = src)) then (rcDenied, s)
  else if w.key.toNat ≠ rqKey b then (rcDenied, s.alarm alWindowKey (if w.dvalid then some w.dslot else none))
  else if !w.rights.getLsbD right then (rcRights, s)
  else if w.size < rqOffset b + len then (rcRange, s)
  else (rcOk, s)

/-- The tag of a record that has passed: the window's slice and slot, and the KID of its object (R253). -/
def Win.tag (w : Win) (e : ObjEntry) : Tag := ownTag w.slice (if w.dvalid then some w.dslot else none) e.kid 0

/-- Apply a `READ`, `WRITE` or `ATOMIC` to an HBM or hearth object and answer it. -/
def State.applyMem (s : State) (slot : Option Nat) (src : Nat) (b : ReqRec) : State :=
  let w := s.win (rqWindow b)
  let e := s.obj w.slice w.obj
  let t := w.tag e
  let off := w.objOff + rqOffset b
  let n := 64 * (rqLines b + 1)
  if rqKind b = fkRead then
    match s.objBytes t e 4 off n with
    | (d, 0, s) => s.settleRec slot src b rcOk 0 d
    | (_, st, s) => s.settleRec slot src b (memRcode st)
  else if rqKind b = fkWrite then
    if rqLines b = 0 then
      match s.lineWrite t (e.place off) (lineOf ((b.drop 32).take 64)) (rqMask b) with
      | (.done, s) => s.settleRec slot src b rcOk
      | (.bad mac, s) => s.settleRec slot src b (if mac then rcMacFail else rcPoison)
      | (_, s) => s.settleRec slot src b rcPoison
    else
      match s.objPut t e 4 off ((b.drop 32).take n) with
      | (_, 0, s) => s.settleRec slot src b rcOk
      | (_, st, s) => s.settleRec slot src b (memRcode st)
  else
    match s.objBytes t e 2 off 8 with
    | (d, 0, s) =>
      let old := BitVec.ofNat 64 (leNat d)
      let new := atomicResult (rqOp b) old (BitVec.ofNat 64 (recWord b 4)) (BitVec.ofNat 64 (recWord b 5))
      match s.objPut t e 2 off (leBytes 8 new.toNat) with
      | (_, 0, s) => s.settleRec slot src b rcOk old
      | (_, st, s) => s.settleRec slot src b (memRcode st)
    | (_, st, s) => s.settleRec slot src b (memRcode st)

/-- One record in flight of a window less; a closing window may become FREE (R244). -/
def State.winDone (s : State) (n : Nat) : State :=
  let w := s.win n
  let s := s.setWin n { w with inflight := w.inflight - 1 }
  if w.state = .closing then s.closeWin n else s

/-- Bytes of a masked `WRITE` line as runs of (offset, bytes), for a host object. -/
def maskedRuns (m : BitVec 64) (d : List Byte) : List (Nat × List Byte) :=
  ((List.range 64).filter fun i => m.getLsbD i).map fun i => (i, [d.getD i 0])

/-- A parked record leaves the list. -/
def State.unpark (s : State) (id : Nat) : State := { s with fab := { s.fab with parked := s.fab.parked.filter fun x => x.id ≠ id } }

/-- Ask the host for the bytes of a parked read. -/
def State.parkedAsk (s : State) (p : Parked) (slice a n : Nat) : State :=
  let pasid := (s.slice slice).pasid
  let x : Xfer := { id := p.id, slice, queue := 2 ^ 18, seq := p.id, pasid, addr := a, len := n, write := false }
  let s := { s with
    hst := { s.hst with xfers := s.hst.xfers ++ [x] }
    fab := { s.fab with parked := s.fab.parked.map fun (y : Parked) => if y.id = p.id then { y with sent := true } else y } }
  s.emit (.hostRead pasid p.id a n)

/-- Post the bytes of a parked write. -/
def State.parkedPost (s : State) (p : Parked) (slice a n : Nat) : State :=
  let b := p.bytes
  let pasid := (s.slice slice).pasid
  let d := (b.drop 32).take n
  if rqLines b = 0 then
    (maskedRuns (rqMask b) d).foldl (fun s r => (s.hostPut pasid (a + r.1) r.2).emit (.hostWrite pasid (a + r.1) r.2)) s
  else (s.hostPut pasid a d).emit (.hostWrite pasid a d)

/-- The pair of a parked record, and the host bytes it touches: slice, first line and lines. -/
def Parked.pair (p : Parked) : PairKey := (slotKey p.slot, p.src, rqSrcMember p.bytes)
def State.parkedAt (s : State) (p : Parked) : Nat :=
  let w := s.win p.win
  (s.obj w.slice w.obj).base + w.objOff + rqOffset p.bytes
def parkedLen (p : Parked) : Nat := 64 * (rqLines p.bytes + 1)

/-- A parked record waits for an earlier one of its pair to one of its lines, unless both are reads (R259). -/
def State.parkedWaits (s : State) (p : Parked) : Bool :=
  let clash (y : Parked) : Bool :=
    y.pair = p.pair && (s.win y.win).slice = (s.win p.win).slice && (rqStore y.bytes || rqStore p.bytes) &&
    s.parkedAt y < s.parkedAt p + parkedLen p && s.parkedAt p < s.parkedAt y + parkedLen y
  (s.fab.parked.takeWhile fun y => y.id ≠ p.id).any clash

/-- Work on a record over a host object (R386, R388, R391): a write is posted and answered once its pages are translated,
a read asks the host; a translation failure is answered as poison. -/
def State.workParked (s : State) (p : Parked) : State :=
  let b := p.bytes
  let w := s.win p.win
  let a := s.parkedAt p
  let n := parkedLen p
  if p.sent || s.parkedWaits p then s
  else
    match s.translateAll w.slice (rqKind b ≠ fkRead) (pagesOf a n) with
    | (.wait, _, s) => s
    | (.fault, _, s) => ((s.unpark p.id).settleRec p.slot p.src b rcPoison).winDone p.win
    | (.ok, _, s) =>
      if rqKind b = fkRead then s.parkedAsk p w.slice a n
      else (((s.parkedPost p w.slice a n).unpark p.id).settleRec p.slot p.src b rcOk).winDone p.win

/-- A `SIGNAL` that has passed R253 (R340). -/
def State.applySignal (s : State) (slot : Option Nat) (src : Nat) (b : ReqRec) : State :=
  let w := s.win (rqWindow b)
  let g := (s.slice w.slice).syncObj (w.syncBase + rqOffset b)
  let v := BitVec.ofNat 64 (recWord b 4)
  let k := (s.syncObj g).kind
  if rqOp b = 0 then
    if k = .fence then ((s.progress unFabric).signalObj g v).settleRec slot src b rcOk else s.settleRec slot src b rcFormat
  else if k = .event && v = 1 then ((s.progress unFabric).postObj g).settleRec slot src b rcOk
  else s.settleRec slot src b rcFormat

/-- Check and apply one record, and answer it. -/
def State.applyRec (s : State) (slot : Option Nat) (src : Nat) (b : ReqRec) : State :=
  let (rc, s) := s.recCheck slot src b
  if rc ≠ rcOk then s.settleRec slot src b rc
  else
    let w := s.win (rqWindow b)
    if rqKind b = fkSignal then s.applySignal slot src b
    else if (s.obj w.slice w.obj).kind = 2 then
      let id := s.hst.nextXfer
      let p : Parked := { id, slot, src, win := rqWindow b, bytes := b }
      let s := { s with hst := { s.hst with nextXfer := id + 1 }, fab := { s.fab with parked := s.fab.parked ++ [p] } }
      (s.setWin (rqWindow b) { w with inflight := w.inflight + 1 }).workParked p
    else s.applyMem slot src b

/-- A flag of a pair is due (R261). -/
def State.flagDue (s : State) (pair : PairKey) (tally : BitVec 32) : Bool :=
  (((tallyOf s.fab.applied pair).getD {}).count - tally).toNat < 2 ^ 31

/-- Apply the held flags of a pair that have become due, in TALLY order (R261). -/
def State.releaseFlags (pair : PairKey) : Nat → State → State
  | 0, s => s
  | f + 1, s =>
    let due := s.fab.held.filter fun h => h.pair = pair && s.flagDue pair h.tally
    let n := ((tallyOf s.fab.applied pair).getD {}).count
    match due.foldl (fun (m : Option Held) h => match m with
        | none => some h
        | some x => if (n - x.tally).toNat < (n - h.tally).toNat then some h else some x) none with
    | none => s
    | some h =>
      let s := { s with fab := { s.fab with held := s.fab.held.erase h } }
      State.releaseFlags pair f (s.applyRec (keySlot pair.1) pair.2.1 h.bytes)

/-- Apply what has become due of the held flags. -/
def State.releaseDue (s : State) : State :=
  (s.fab.held.map Held.pair).eraseDups.foldl (fun s p => State.releaseFlags p (s.fab.held.length + 1) s) s

/-- Go on with every parked record, oldest first, and with the flags they hold up. -/
def State.retryParked (s : State) : State := (s.fab.parked.foldl State.workParked s).releaseDue

/-- Bytes of a parked read have arrived, or its transfer failed. -/
def State.parkedData (s : State) (id : Nat) (d : Option (List Byte)) : State :=
  match s.fab.parked.find? fun p => p.id = id with
  | none => s
  | some p =>
    let s := s.unpark id
    let s := match d with
      | some d => s.settleRec p.slot p.src p.bytes rcOk 0 d
      | none => s.settleRec p.slot p.src p.bytes rcPoison
    (s.winDone p.win).retryParked

/-- A request record at its destination die (R253, R254, R260, R261, R267). A response record that a request flit brings
is no request and has no answer. -/
def State.requestRec (s : State) (slot : Option Nat) (src : Nat) (b : ReqRec) : State :=
  let pair : PairKey := (slotKey slot, src, rqSrcMember b)
  if 8 ≤ rqKind b then s
  else if s.fenced then
    let s := s.answerRec slot src b rcRecovering
    if rqStore b && tallyRoom s.fab.applied pair then s.appliedOne pair else s
  else if !rqStore b then s.applyRec slot src b
  else if !tallyRoom s.fab.applied pair then s.answerRec slot src b rcTallyFull
  else
    let s := if (tallyOf s.fab.applied pair).isSome then s
      else { s with fab := { s.fab with applied := tallySet s.fab.applied pair {} } }
    if rqFlag b && !s.flagDue pair (rqTally b) then
      if 4096 ≤ s.fab.held.length then s.answerRec slot src b rcHoldFull
      else { s with fab := { s.fab with held := s.fab.held ++ [{ pair, tally := rqTally b, bytes := b, expires := s.now + 100 * ms }] } }
    else
      let s := s.applyRec slot src b
      State.releaseFlags pair (s.fab.held.length + 1) s

/-- A flit's path at this die (R256, R257), and whether its records are applied here. -/
def State.flitHere (s : State) (dst member : Nat) : Bool :=
  dst = s.fab.node && (member % 2 ^ s.fab.offBits = s.fab.member || member / 2 ^ s.fab.offBits ≠ 0)

/-- A flit may be taken in where it came from: a die of a group that is not its lead takes in nothing addressed to the
group's node from outside the group (R33). DEDUCED (log 125): what a bridge brings, or a link to another die of the node, has
come through the lead. -/
def State.mayEnter (s : State) (f : FlitIn) (dst : Nat) : Bool :=
  dst ≠ s.fab.node || s.sys.pkgSize = 0 || s.isLead || (match f with
    | .link l => (s.link l).peerNode = s.fab.node
    | _ => true)

/-- Forward a flit whole, or find it undeliverable (R256). -/
def State.forward (s : State) (f : RxFlit) (recs : List (List Byte)) : State :=
  let r0 := recs.headD []
  match s.sendFab { ftype := f.ftype, slot := f.slot, dst := f.dst, member := recMember r0, src := f.src, payload := f.payload }
      (recKey r0) with
  | some s => s
  | none => s.undeliverable f.ftype f.slot f.dst f.src f.payload

/-! ## Meanings -/

/-- `FAB_REQUEST_RECEIVE` (R247, R249, R253, R256). -/
def execFabRequestReceive (f : FlitIn) (s : State) : Res :=
  .next <|
    if !s.fabUp then s
    else
      match s.takeFlit f 8 with
      | (none, s) => s
      | (some x, s) =>
        let (recs, cut) := splitRecords 15 x.payload
        let m := recMember (recs.headD [])
        if !s.mayEnter f x.dst then s.undeliverable 8 x.slot x.dst x.src x.payload
        else if !s.flitHere x.dst m then s.forward x recs
        else
          let s := recs.foldl (fun s b => s.requestRec x.slot x.src b) s
          if cut then (s.fabErr 7 1).record 0x80 srcFabric [(1, 2), (2, x.src)] else s

/-- A response record at its source die (R252, R255, R260, R261). -/
def State.responseRec (s : State) (slot : Option Nat) (src : Nat) (b : List Byte) : State :=
  let w := recWord b 0
  let rc := bits w 7 4
  match s.fab.outs.find? fun o => o.tid = bits w 31 12 with
  | none => s.fabErr 0 1
  | some o =>
    let dataOk := o.kind ≠ fkRead || rc ≠ 0 || (bits w 3 0 = fkRspData && bits w 9 8 = o.lines)
    if o.pairSlot ≠ slotKey slot || o.node ≠ src || 12 ≤ rc || !dataOk then s.fabErr 0 1
    else if rc = rcHoldFull then
      { s with fab := { s.fab with outs := s.fab.outs.map fun (x : OutRec) => if x.tid = o.tid then { x with resendAt := s.now + us } else x } }
    else
      let pair : PairKey := (o.pairSlot, o.node, o.member)
      let s := if rc = rcTallyFull then
          let t := (tallyOf s.fab.sent pair).getD {}
          { s with fab := { s.fab with sent := tallySet s.fab.sent pair { t with faulted := true } } }
        else s
      s.endRec o (rcodeStatus rc) (BitVec.ofNat 64 (recWord b 1)) (b.drop 16)

/-- `FAB_RESPONSE_RECEIVE` (R252, R255, R256). -/
def execFabResponseReceive (f : FlitIn) (s : State) : Res :=
  .next <|
    if !s.fabUp then s
    else
      match s.takeFlit f 9 with
      | (none, s) => s
      | (some x, s) =>
        let (recs, cut) := splitRecords 15 x.payload
        let m := recMember (recs.headD [])
        if !s.mayEnter f x.dst then s.undeliverable 9 x.slot x.dst x.src x.payload
        else if !(x.dst = s.fab.node && m = s.fab.member) then s.forward x recs
        else
          let s := recs.foldl (fun s b => s.responseRec x.slot x.src b) s
          if cut then (s.fabErr 7 1).record 0x80 srcFabric [(1, 2), (2, x.src)] else s

/-- Mark a partner `LOST` and report it (R265, R71). -/
def State.markLost (s : State) (pair : PairKey) : State :=
  if s.fab.lost.contains pair || 256 ≤ s.fab.lost.length then s
  else
    let key := if pair.1 = 0 then 64 else pair.1 - 1
    let s := { s with fab := { s.fab with lost := s.fab.lost ++ [pair], lastLost := s.fab.lastLost.set 0 key pair.2.1 } }
    let s := s.record 0x80 srcFabric [(1, 0), (2, pair.2.1)]
    if pair.1 = 0 then s else s.memberLost (keySlot pair.1) pair.2.1 pair.2.2

/-- `RECORD_TIMEOUT` (R264, R265): a record past its timeout ends, with every other record to its partner. -/
def execRecordTimeout (tid : Nat) (s : State) : Res :=
  .next <| match s.fab.outs.find? fun o => o.tid = tid with
  | none => s
  | some o =>
    if s.now < o.deadline then s
    else
      let pair : PairKey := (o.pairSlot, o.node, o.member)
      let mine : List OutRec := s.fab.outs.filter fun x => (x.pairSlot, x.node, x.member) = pair
      let s := { s with fab := { s.fab with
        coolTids := s.fab.coolTids ++ mine.map fun (x : OutRec) => (x.tid, s.now + 110 * ms) } }
      let s := mine.foldl (fun s x => s.endRec x stPartnerLost 0 []) (s.fabErr 3 mine.length)
      s.markLost pair

/-- `HOLD_RESEND` (R261): a record answered `HOLD_FULL` is sent again, unchanged, 1 µs later. -/
def execHoldResend (tid : Nat) (s : State) : Res :=
  .next <| match s.fab.outs.find? fun o => o.tid = tid with
  | none => s
  | some o =>
    if o.resendAt = 0 || s.now < o.resendAt then s
    else
      let s := { s with fab := { s.fab with outs := s.fab.outs.map fun (x : OutRec) => if x.tid = tid then { x with resendAt := 0 } else x } }
      match s.sendFab { ftype := 8, slot := keySlot o.pairSlot, dst := o.node, member := o.member, src := s.fab.node
                        payload := padFlit o.bytes } (recKey o.bytes) with
      | some s => s.fabErr 4 1
      | none => (s.fabErr 1 1).endRec o stNoRoute 0 []

/-- `FLAG_HOLD_EXPIRY` (R261): flags held for 100 ms are discarded without response. -/
def execFlagHoldExpiry (s : State) : Res :=
  .next <|
    let n := (s.fab.held.filter fun h => h.expires ≤ s.now).length
    { s with fab := { s.fab with held := s.fab.held.filter fun h => s.now < h.expires } }.fabErr 5 n

/-- `FAB_TCLR` (R268, R271). -/
def execFabTclr (r : Req) (v : BitVec 32) (s : State) : Res :=
  .next <| s.regWrite r 0xE0030 32 (kernelReq r) fun s =>
    let n := bits v.toNat 15 0
    let busy := (s.fab.outs.any fun o => o.node = n) || (s.fab.held.any fun h => h.pair.2.1 = n) ||
      s.fab.parked.any fun p => p.src = n
    let mine (e : PairKey) : Bool := e.1 = 0 && e.2.1 = n
    if busy then { s with fab := { s.fab with tclrRes := 3 } }
    else { s with fab := { s.fab with
      tclrRes := 2
      sent := s.fab.sent.filter fun e => !mine e.1
      applied := s.fab.applied.filter fun e => !mine e.1
      lost := s.fab.lost.filter fun e => !mine e } }

/-- A table entry from `FAB_RTDATA` or `FAB_MRDATA` (R270). -/
def routeOf (v : BitVec 64) : Route :=
  { links := v.extractLsb' 0 32, valid := v.getLsbD 32, bridge := v.getLsbD 33, hub := fld v 36 34 }

def Route.word (r : Route) : BitVec 64 :=
  BitVec.ofNat 64 (packFields [(32, r.links.toNat), (1, b2n r.valid), (1, b2n r.bridge), (3, r.hub)])

/-- `FAB_RTDATA` (R257, R270). -/
def State.writeRtdata (s : State) (r : Req) (v : BitVec 64) : State :=
  s.regWriteMgmt r 0xE0018 64 fun s =>
    { s with fab := { s.fab with routes := s.fab.routes.set {} s.fab.rtsel (routeOf v) } }

/-- `FAB_RTDATA_WRITE`. -/
def execFabRtdataWrite (r : Req) (v : BitVec 64) (s : State) : Res := .next (s.writeRtdata r v)

end Sys2Proof.Machine
end

