-- ==== Sys2Proof/Machine/Fec.lean ====
section
/-! DEFINITION. Physical coding of a link: the RS(544,514) code, the superframe with its scrambler, alignment codewords, and the
symbols of each lane (R211 to R215). PRESUMED (log 123): the field polynomial x^10 + x^3 + 1, the generator with the roots
alpha^0 to alpha^29 and message symbol 0 as the coefficient of the highest power are those of IEEE 802.3 clause 91, which
R211 names and the spec does not print. -/

namespace Sys2Proof.Machine
open Sys2Proof

/-! ## GF(2^10) -/

/-- Multiply an element by alpha. -/
def gfX (a : Nat) : Nat := if a < 512 then 2 * a else (2 * a) ^^^ 0x409

/-- Multiply over the low bits of the second factor. -/
def gfMulN : Nat → Nat → Nat → Nat
  | 0, _, _ => 0
  | f + 1, a, b => (if b % 2 = 1 then a else 0) ^^^ gfMulN f (gfX a) (b / 2)

def gfMul (a b : Nat) : Nat := gfMulN 10 a b

def gfPow (a : Nat) : Nat → Nat
  | 0 => 1
  | n + 1 => gfMul a (gfPow a n)

/-- The inverse of a non-zero element. -/
def gfInv (a : Nat) : Nat := gfPow a 1022

/-- alpha^n. -/
def gfAlpha : Nat → Nat
  | 0 => 1
  | n + 1 => gfX (gfAlpha n)

/-! ## The code (R211) -/

/-- XOR of two polynomials, lowest or highest coefficient first alike. -/
def polyAdd : List Nat → List Nat → List Nat
  | [], q => q
  | p, [] => p
  | a :: p, b :: q => (a ^^^ b) :: polyAdd p q

/-- The generator polynomial, highest coefficient first. -/
def genPoly : List Nat :=
  (List.range 30).foldl (fun p j => polyAdd (p ++ [0]) (0 :: p.map fun c => gfMul c (gfAlpha j))) [1]

/-- The 30 parity symbols of a message. -/
def parityOf (m : List (BitVec 10)) : List (BitVec 10) :=
  let g := genPoly.tail
  let r := m.foldl (fun (r : List Nat) c =>
    let fb := c.toNat ^^^ r.headD 0
    polyAdd (r.tail ++ [0]) (g.map fun x => gfMul fb x)) (List.replicate 30 0)
  r.map fun x => BitVec.ofNat 10 x

def encodeCw (m : List (BitVec 10)) : List (BitVec 10) := m ++ parityOf m

/-- A polynomial, lowest coefficient first, at a point. -/
def polyAt (p : List Nat) (x : Nat) : Nat := p.foldr (fun c acc => gfMul acc x ^^^ c) 0

/-- The 30 syndromes of a received word. -/
def syndromes (r : List (BitVec 10)) : List Nat :=
  (List.range 30).map fun j => r.foldl (fun acc c => gfMul acc (gfAlpha j) ^^^ c.toNat) 0

/-- State of the Berlekamp-Massey recursion: locator, last locator, length, shift and last discrepancy. -/
structure BmState where
  c : List Nat := [1]
  b : List Nat := [1]
  len : Nat := 0
  shift : Nat := 1
  disc : Nat := 1
  deriving DecidableEq, Repr

/-- One step of the recursion on syndrome `n`. -/
def bmStep (syn : List Nat) (t : BmState) (n : Nat) : BmState :=
  let d := (List.range (t.len + 1)).foldl (fun d i => d ^^^ gfMul (t.c.getD i 0) (syn.getD (n - i) 0)) 0
  if d = 0 then { t with shift := t.shift + 1 }
  else
    let q := gfMul d (gfInv t.disc)
    let c := polyAdd t.c (List.replicate t.shift 0 ++ t.b.map fun x => gfMul q x)
    if 2 * t.len ≤ n then { c, b := t.c, len := n + 1 - t.len, shift := 1, disc := d }
    else { t with c, shift := t.shift + 1 }

/-- The error locator of a received word, and how many errors it claims. -/
def locator (syn : List Nat) : List Nat × Nat :=
  let t := (List.range 30).foldl (bmStep syn) {}
  (t.c, t.len)

/-- The errors of a received word by Chien search and Forney's formula: symbol index and value. -/
def errorsOf (syn sigma : List Nat) : List (Nat × Nat) :=
  let omega := ((List.range 30).map fun k =>
    (List.range (k + 1)).foldl (fun a i => a ^^^ gfMul (sigma.getD i 0) (syn.getD (k - i) 0)) 0)
  let deriv := (List.range (sigma.length - 1)).map fun k => if k % 2 = 0 then sigma.getD (k + 1) 0 else 0
  (List.range 544).filterMap fun i =>
    let x := gfAlpha (543 - i)
    let y := gfAlpha ((1023 - (543 - i)) % 1023)
    if polyAt sigma y = 0 then some (i, gfMul x (gfMul (polyAt omega y) (gfInv (polyAt deriv y)))) else none

/-- Correct a word in the symbols named. -/
def correct (r : List (BitVec 10)) (es : List (Nat × Nat)) : List (BitVec 10) :=
  es.foldl (fun r e => r.set e.1 (r.getD e.1 0 ^^^ BitVec.ofNat 10 e.2)) r

/-- The word is a codeword. -/
def isCodeword (r : List (BitVec 10)) : Bool := r.length = 544 && parityOf (r.take 514) = r.drop 514

/-- Decode a received codeword (R211): its message and the symbols corrected, up to 15 of them; nothing when it is
uncorrectable. -/
def decodeCw (r : List (BitVec 10)) : Option (List (BitVec 10) × List Nat) :=
  if isCodeword r then some (r.take 514, [])
  else if r.length ≠ 544 then none
  else
    let syn := syndromes r
    let (sigma, n) := locator syn
    let es := errorsOf syn sigma
    let w := correct r es
    if n ≤ 15 && es.length = n && isCodeword w then some (w.take 514, es.map Prod.fst) else none

/-! ## Superframes (R212) -/

/-- Flits of a superframe, and message bits of a codeword and of a flit. -/
def sfFlits : Nat := 20560
def cwBits : Nat := 5140
def flitBits : Nat := 2048

/-- Symbols of a message given as its bits, and back: message bit 10s + b is bit b of symbol s. -/
def symsOf (m : Nat) : List (BitVec 10) := (List.range 514).map fun k => BitVec.ofNat 10 (m / 2 ^ (10 * k))
def msgOf (l : List (BitVec 10)) : Nat := l.foldr (fun c acc => c.toNat + 1024 * acc) 0

/-- One step of the PRBS31 register: x^31 + x^28 + 1. The bit that enters is the bit added to the data (log 123). -/
def prbsStep (st : Nat) : Bool × Nat :=
  let b := (st / 2 ^ 30 + st / 2 ^ 27) % 2
  (b = 1, (2 * st + b) % 2 ^ 31)

/-- `n` bits of the sequence from a state, first bit lowest, and the state after them. -/
def prbsRun : Nat → Nat → Nat × Nat
  | 0, st => (0, st)
  | n + 1, st =>
    let (b, st) := prbsStep st
    let (r, st) := prbsRun n st
    ((if b then 1 else 0) + 2 * r, st)

/-- The state at message bit 0 of data codeword 1: all ones. -/
def prbsInit : Nat := 2 ^ 31 - 1

/-- Rows 0 to 3 of the alignment pattern (R213). -/
def alignPattern : List (BitVec 10) := [0x2D5, 0x0F3, 0x3A6, 0x14B]

/-- The symbol of row `j` on a logical lane of an alignment codeword (R213). -/
def alignSymbol (j lane width superframe : Nat) : BitVec 10 :=
  if j < 4 then alignPattern.getD j 0
  else if j = 4 then BitVec.ofNat 10 (lane + 16 * width)
  else if j ≤ 7 then BitVec.ofNat 10 (superframe / 2 ^ (10 * (j - 5)))
  else 0

/-- The alignment codeword of a superframe on a link of `n` lanes (R213). -/
def alignCw (n width superframe : Nat) : List (BitVec 10) :=
  encodeCw ((List.range 514).map fun k => alignSymbol (k / n) (k % n) width superframe)

/-- The symbols of a codeword by logical lane: symbol s goes to lane s mod n (R213). -/
def stripe (n : Nat) (cw : List (BitVec 10)) : List (List (BitVec 10)) :=
  (List.range n).map fun k => (List.range ((cw.length + n - 1 - k) / n)).map fun j => cw.getD (n * j + k) 0

/-! ## Flits in a superframe (R212, R215) -/

/-- The data codewords, numbered from 0, that carry flit `f`: the first and the last. -/
def flitCws (f : Nat) : Nat × Nat := (flitBits * f / cwBits, (flitBits * f + flitBits - 1) / cwBits)

/-- The flit that first touches a codeword. -/
def cwFirst (c : Nat) : Nat := cwBits * c / flitBits

/-- What the receiver reads of flit `f` from the codewords that carry it: its bits as the link layer sees them, whether it is
damaged, how many of the uncorrectable codewords it is the first to touch, and the symbols corrected in those it is the
first to touch. -/
structure RxRead where
  data : Nat
  damaged : Bool
  badCw : Nat
  corrected : List Nat
  deriving DecidableEq, Repr

def readFlit (f scr : Nat) (cws : List (List (BitVec 10))) : RxRead :=
  let (a, b) := flitCws f
  let ds := (List.range (b + 1 - a)).map fun k => (a + k, decodeCw (cws.getD k []))
  let bits := ds.foldr (fun d acc => ((d.2.map fun x => msgOf x.1).getD 0) + 2 ^ cwBits * acc) 0
  let mine := ds.filter fun d => cwFirst d.1 = f
  { data := (bits / 2 ^ (flitBits * f - cwBits * a)) % 2 ^ flitBits ^^^ (prbsRun flitBits scr).1
    damaged := ds.any fun d => d.2.isNone
    badCw := (mine.filter fun d => d.2.isNone).length
    corrected := (mine.filterMap fun d => d.2.map Prod.snd).flatten }

end Sys2Proof.Machine
end

