-- ==== Sys2Proof/Machine/LinkOps.lean ====
section
/-! DEFINITION. Link ports: modes, flits and their tag fields, link states and what a lost link loses (R208 to R240, R258,
R324). -/

namespace Sys2Proof.Machine
open Sys2Proof

/-! ## Modes (R208, R220) -/

/-- Port and link index of a global link. -/
def portOf (l : Nat) : Nat := l / 4
def linkIx (l : Nat) : Nat := l % 4

/-- Links, lanes of a link, and the width code, of a mode (R208, R213). -/
def modeLinks (m : Nat) : Nat := [1, 2, 4].getD m 1
def modeLanes (m : Nat) : Nat := [16, 8, 4].getD m 16

def State.linkMode (s : State) (l : Nat) : Nat := (s.port (portOf l)).mode

/-- The link index exists in its port's mode, and the port in the variant (R208, R239). -/
def State.linkInMode (s : State) (l : Nat) : Bool :=
  l < 32 && linkIx l < modeLinks (s.linkMode l) && s.boot.variant.getLsbD (portOf l)

/-- The link exists, and its port is ready. -/
def State.linkPresent (s : State) (l : Nat) : Bool :=
  s.linkInMode l && (s.port (portOf l)).ready

/-- Capacity of the replay buffer and initial credits per class (R220). -/
def replayCap (m : Nat) : Nat := [2048, 1024, 512].getD m 2048
def creditInit (m : Nat) : List Nat := [[256, 256, 448, 64], [128, 128, 224, 32], [64, 64, 112, 16]].getD m []

/-- A link's port is out of reset, powered and clocked (R35, R36, R457), and the link exists. -/
def State.linkOn (s : State) (l : Nat) : Bool :=
  s.linkPresent l && 4 ≤ s.rst.step && s.pdOn (6 + portOf l) && s.clkRuns (.lclk (portOf l)) && s.clkRuns .aclk

/-- The slivers of a link in its port, receive and transmit alike (R27): a split port's links share them out evenly. -/
def linkSlivers (mode ix : Nat) : List Nat :=
  let n := 32 / modeLinks mode
  (List.range n).map fun k => n * ix + k

/-- The sliver numbers of a link's transmit slivers (R21, R27). -/
def State.txSlivers (s : State) (l : Nat) : List Nat :=
  (linkSlivers (s.linkMode l) (linkIx l)).map fun k => 512 + 64 * portOf l + 32 + k

/-- The sliver numbers of a link's receive slivers (R21, R27). -/
def State.rxSlivers (s : State) (l : Nat) : List Nat :=
  (linkSlivers (s.linkMode l) (linkIx l)).map fun k => 512 + 64 * portOf l + k

/-- Global lane numbers of a link. -/
def State.lanesOf (s : State) (l : Nat) : List Nat :=
  let n := modeLanes (s.linkMode l)
  (List.range n).map fun k => portOf l * 16 + linkIx l * n + k

/-- Change one lane. -/
def State.modLane (s : State) (g : Nat) (f : Lane → Lane) : State :=
  { s with lnk := { s.lnk with lanes := s.lnk.lanes.set {} g (f (s.lnk.lanes.get {} g)) } }

/-! ## Flits (R216 to R219, R226) -/

/-- A flit header with LSEQ zero (R216). -/
def flitHeader (ftype tag epoch dst src : Nat) : BitVec 64 :=
  BitVec.ofNat 64 (packFields [(6, ftype), (10, tag), (4, epoch), (16, dst), (16, src), (12, 0)])

/-- A header with its LSEQ. -/
def withLseq (h : BitVec 64) (n : Nat) : BitVec 64 := BitVec.ofNat 64 (bits h.toNat 51 0 + n % 4096 * 2 ^ 52)

/-- A header with LSEQ zero. -/
def noLseq (h : BitVec 64) : BitVec 64 := BitVec.ofNat 64 (bits h.toNat 51 0)

/-- The bytes a tag covers first: the header with LSEQ zero (R219, R226). -/
def headerBytes (h : BitVec 64) : List Byte := leBytes 8 (noLseq h).toNat

/-- The CRC-64 tag field (R219). -/
def crcField (h : BitVec 64) (pl : List Byte) : BitVec 64 := BitVec.ofNat 64 (crc64 (headerBytes h ++ pl))

/-- INV of R226. -/
def invOf (ctr link port member : Nat) : Nat := packFields [(48, ctr), (2, link), (3, port), (8, member), (3, 0)]

/-- The AES key of a pair key: its bytes 0 to 31. -/
def pairAes (k : BitVec 288) : Nat := beNat (leBytes 32 k.toNat)
/-- The 12-byte IV: salt bytes 32 to 35, then INV most significant byte first (R226). -/
def pairIv (k : BitVec 288) (inv : Nat) : Nat := beNat (leBytes 4 (k.toNat / 2 ^ 256)) * 2 ^ 64 + inv

/-- The tag field of a GCM tag: its first 8 bytes. -/
def gcmField (tag : Nat) : BitVec 64 := BitVec.ofNat 64 (leNat (beBytes 8 (tag / 2 ^ 64)))

/-- The tag field of a `START` (R226). -/
def startField (k : BitVec 288) (inv : Nat) (h : BitVec 64) (pl : List Byte) : BitVec 64 :=
  gcmField (gcmTag (pairAes k) (pairIv k inv) (headerBytes h ++ pl) [])

/-- Encrypt a payload: the bytes sent and the tag field (R226). -/
def sealFlit (k : BitVec 288) (inv : Nat) (h : BitVec 64) (pl : List Byte) : List Byte × BitVec 64 :=
  let (ct, t) := gcmEnc (pairAes k) (pairIv k inv) (headerBytes h) pl
  (ct, gcmField t)

/-- Decrypt a payload: the plaintext and the tag field computed. -/
def openFlit (k : BitVec 288) (inv : Nat) (h : BitVec 64) (ct : List Byte) : List Byte × BitVec 64 :=
  let (pt, t) := gcmDec (pairAes k) (pairIv k inv) (headerBytes h) ct
  (pt, gcmField t)

/-- Fields of a received flit. -/
def fHeader (b : List Byte) : BitVec 64 := BitVec.ofNat 64 (leNat (b.take 8))
def fPayload (b : List Byte) : List Byte := (b.drop 8).take 240
def fTag (b : List Byte) : BitVec 64 := BitVec.ofNat 64 (leNat ((b.drop 248).take 8))
def hType (h : BitVec 64) : Nat := fld h 5 0
def hSession (h : BitVec 64) : Nat := fld h 15 6
def hEpoch (h : BitVec 64) : Nat := fld h 19 16
def hDst (h : BitVec 64) : Nat := fld h 35 20
def hSrc (h : BitVec 64) : Nat := fld h 51 36
def hLseq (h : BitVec 64) : Nat := fld h 63 52

/-- The bytes of a flit. -/
def flitBytes (h : BitVec 64) (pl : List Byte) (t : BitVec 64) : List Byte := leBytes 8 h.toNat ++ pl ++ leBytes 8 t.toNat

/-- Assigned types, and those that are sequenced (R217). -/
def typeAssigned (t : Nat) : Bool := [0, 1, 2, 3, 8, 9, 0x10, 0x11].contains t

/-- The transmit side of a superframe takes a flit: the next state of the coding, and the codewords that go out. An
alignment codeword opens each superframe, and a data codeword goes out with the flit that completes it (R212, R213). -/
def Pcs.take (x : Pcs) (n width flit : Nat) : Pcs × List (List (BitVec 10)) :=
  let (seq, scr) := prbsRun flitBits (if x.txPos = 0 then prbsInit else x.txScr)
  let held := flitBits * x.txPos % cwBits
  let acc := x.txAcc + 2 ^ held * (flit ^^^ seq)
  let full := cwBits ≤ held + flitBits
  let last := x.txPos + 1 = sfFlits
  ({ x with txScr := scr, txAcc := if full then acc / 2 ^ cwBits else acc, txPos := if last then 0 else x.txPos + 1
            txFrame := if last then (x.txFrame + 1) % 2 ^ 30 else x.txFrame },
    (if x.txPos = 0 then [alignCw n width x.txFrame] else []) ++ (if full then [encodeCw (symsOf acc)] else []))

/-- The physical coding of a link sends a flit. -/
def State.codeFlit (s : State) (l : Nat) (flit : List Byte) : State :=
  let m := s.linkMode l
  let x := (s.link l).pcs.take (modeLanes m) m (leNat flit)
  x.2.foldl (fun s c => s.emit (.codeword l (stripe (modeLanes m) c))) (s.modLink l fun y => { y with pcs := x.1 })

/-- Put one flit on a link and count it (R423, R424). -/
def State.flitOut (s : State) (l : Nat) (h : BitVec 64) (pl : List Byte) (t : BitVec 64) : State :=
  (((s.emit (.flit l h pl t)).light 5 1).priv (0x100 + 8 * l) 1).codeFlit l (flitBytes h pl t)

/-- Send an unsequenced flit with a CRC. -/
def State.sendPlain (s : State) (l ftype : Nat) (pl : List Byte) : State :=
  let h := flitHeader ftype 0 0 0 0
  let pl := (pl ++ List.replicate 240 0).take 240
  s.flitOut l h pl (crcField h pl)

/-! ## The session cache (R233) -/

/-- The pair key of a session, if it is cached and its epoch key lives; the entry becomes the most recently used. -/
def State.sessKey (s : State) (slot : Nat) (e : BitVec 16) (src dst : Nat) : Option (BitVec 288 × State) :=
  match s.lnk.sess.find? fun x => x.slot = slot && x.epoch = e && x.src = src && x.dst = dst with
  | none => none
  | some x =>
    if s.cellLive (.epochKey slot e.toNat) then
      some (x.s0 ^^^ x.s1, { s with lnk := { s.lnk with sess := x :: s.lnk.sess.erase x } })
    else none

/-- Ask for a session's key on the session-miss path of a link (R108, R233, R424). -/
def State.askKey (s : State) (l slot : Nat) (e : BitVec 16) (src dst : Nat) : State :=
  let k := (slot, e, src, dst)
  if s.fbx.deriving_.contains k then s
  else ({ s with fbx := { s.fbx with deriving_ := s.fbx.deriving_ ++ [k] } }).priv (0x104 + 8 * l) 1

/-- The oldest entry nothing pins makes room when the cache is full (R233). -/
def evictSess (l : List Sess) : List Sess :=
  if l.length < 4096 then l
  else match l.reverse.find? fun x => !x.pinned with
    | some x => l.erase x
    | none => l

/-- Hold a derived session key as two shares under a fresh mask (R114). -/
def State.addSess (s : State) (slot : Nat) (epoch : BitVec 16) (src dst : Nat) (key : BitVec 288) (pinned : Bool) : State :=
  let (m, s) := s.draw 288
  { s with lnk := { s.lnk with sess := { slot, epoch, src, dst, s0 := m, s1 := m ^^^ key, pinned } :: evictSess s.lnk.sess } }

/-- Epoch a slot transmits under, and the epochs it accepts (R123). -/
def Slot.txEpoch (p : Slot) : BitVec 16 := if p.phase = .switched then p.epoch + 1 else p.epoch
def Slot.rxEpochs (p : Slot) : List (BitVec 16) := if p.phase = .steady then [p.epoch] else [p.epoch, p.epoch + 1]

/-- The slot that uses a session tag: the lowest-numbered non-`EMPTY` one (R218). -/
def State.tagSlot? (s : State) (tag : Nat) : Option Nat :=
  if tag = 0 then none else allSlots.find? fun i => (s.slot i).state ≠ .empty && s.sessTag (some i) = tag

/-! ## Link states (R237, R240) -/

def LinkState.code : LinkState → Nat
  | .disabled => 0 | .training => 1 | .locking => 2 | .negotiating => 3 | .up => 4 | .adapting => 5 | .downFailed => 6

def lcOperator : Nat := 1
def lcLockLost : Nat := 2
def lcRetryLimit : Nat := 3
def lcCredit : Nat := 4
def lcTrainFail : Nat := 5
def lcNegFormat : Nat := 6
def lcNegLevel : Nat := 7
def lcNegWidth : Nat := 8
def lcNegTimeout : Nat := 9
def lcSerRate : Nat := 10
def lcNodeChange : Nat := 11

/-- SerDes controls (the SerDes table of chapter 7): 0 `SD_RESET`, 1 `SD_TRAIN_COLD`, 2 `SD_APPLY`, 3 `SD_ADAPT`. -/
def State.serdes (s : State) (l c : Nat) : State := s.emit (.serdes l c)

/-- Record that a link has left a state (R238). -/
def State.linkMoved (s : State) (l : Nat) (old : LinkState) : State :=
  s.record 0x70 (0x20 + l) [(1, old.code), (1, (s.link l).state.code), (1, (s.link l).cause)]

/-- Move a link to a state; a transition without a cause of its own keeps `CAUSE`. -/
def State.moveLink (s : State) (l : Nat) (st : LinkState) (cause : Option Nat) : State :=
  let x := s.link l
  (s.setLink l { x with state := st, cause := cause.getD x.cause, since := s.now }).linkMoved l x.state

/-- A link enters `LOCKING`: its superframe number and its superframe start again (R213). -/
def State.toLocking (s : State) (l : Nat) (cause : Option Nat) : State :=
  (s.moveLink l .locking cause).modLink l fun x => { x with pcs := {} }

/-- Route flits again; one without a route is undeliverable (R256, R258). -/
def State.reroute (s : State) (fs : List FabFlit) : State :=
  fs.foldl (fun s f =>
    let r := ((splitRecords 15 f.payload).1).headD []
    match s.sendFab f (recKey r) with
    | some s => s
    | none => s.undeliverable f.ftype f.slot f.dst f.src f.payload) s

/-- Flits that wait for any allowed link are routed again once one is UP (R258). -/
def State.retryWaiting (s : State) : State :=
  let fs := s.fab.waiting
  if fs.isEmpty then s else { s with fab := { s.fab with waiting := [] } }.reroute fs

/-- The fabric flits that wait on a link are hashed over the remaining links (R258). -/
def State.rehash (s : State) (l : Nat) : State :=
  let x := s.link l
  let mine (w : WaitFlit) : Bool := w.ftype = 8 || w.ftype = 9
  let fs := (x.txQueue.filter mine).map fun (w : WaitFlit) =>
    { ftype := w.ftype, slot := w.slot, dst := w.dst, member := recMember (((splitRecords 15 w.payload).1).headD [])
      src := w.src, payload := w.payload : FabFlit }
  (s.setLink l { x with txQueue := x.txQueue.filter fun w => !mine w }).reroute fs

/-- Runs with a started step on a link end (R324). -/
def State.endRunsOn (s : State) (l : Nat) : State :=
  s.forEach s.col.plans.keys fun s k =>
    let p := s.plan k
    let hit := p.indices.any fun x => (p.srun x).stage = .started &&
      ((stRecv (p.step x) && stRxLink (p.step x) = l) || (stSend (p.step x) && stTxLink (p.step x) = l))
    if p.running && hit then s.endRun k stColLinkLost dtNone else s

/-- A link lost its state: unacknowledged flits and queued collective data are gone, runs over it end, and the records
that waited on it are hashed again (R236, R258, R324). -/
def State.linkLost (s : State) (l : Nat) : State :=
  let s := s.modLink l fun x => { x with
    replay := [], kept := false, txNext := 0, rxNext := 0, retries := 0, nakWait := false, tagFails := 0, rxHold := []
    txStarted := [], rxAwait := allSlots, txGranted := {}, txUsed := {}, rxFreed := {}, rxTaken := {}, rxGranted := {}
    txQueue := x.txQueue.filter fun w => w.ftype ≠ 0x10 }
  (s.endRunsOn l).rehash l

/-- A link leaves `UP` and keeps its state; with nothing unacknowledged its waiting records are hashed again at once
(R258). -/
def State.leaveUp (s : State) (l : Nat) : State := if (s.link l).replay.isEmpty then s.rehash l else s

/-- Enter `TRAINING`: from the saved record when one may be applied, cold otherwise (R234). -/
def State.toTraining (s : State) (l : Nat) (cause : Option Nat) (cold : Bool) : State :=
  let up := (s.link l).state = .up
  let saved := !cold && (s.port (portOf l)).useSaved && (s.link l).saved.isSome
  let s := (s.moveLink l .training cause).modLink l fun x => { x with savedUsed := saved }
  let s := (s.serdes l 0).serdes l (if saved then 2 else 1)
  if up then s.leaveUp l else s

/-- Enter `DOWN_FAILED` or `DISABLED`. -/
def State.toDown (s : State) (l : Nat) (st : LinkState) (cause : Nat) : State := (s.moveLink l st (some cause)).linkLost l

/-- A failed training, lock or negotiation: the third in a row takes the link down (R237). -/
def State.attemptFailed (s : State) (l cause : Nat) (cold : Bool) : State :=
  let s := s.modLink l fun x => { x with attempts := min 3 (x.attempts + 1) }
  if 3 ≤ (s.link l).attempts then s.toDown l .downFailed cause else s.toTraining l (some cause) cold

/-- The acknowledgement advances past a sequence (R220, R222). -/
def Link.ackTo (x : Link) (n now : Nat) : Link :=
  match x.replay.findIdx? fun f => f.lseq = n with
  | some i => { x with replay := x.replay.drop (i + 1), retries := 0, ackAt := now }
  | none => x

/-- Send flits again with the bytes first sent (R222). -/
def State.resend (s : State) (l : Nat) (fs : List SentFlit) : State :=
  fs.foldl (fun s f => s.flitOut l (withLseq f.header f.lseq) f.payload f.tagField) s

/-- One more NAK or timeout without an advance; the eighth retrains the link (R222). -/
def State.retry (s : State) (l : Nat) (fs : List SentFlit) : State :=
  let x := s.link l
  if 8 ≤ x.retries + 1 then (s.setLink l { x with retries := 0 }).toTraining l (some lcRetryLimit) false
  else (s.setLink l { x with retries := x.retries + 1, ackAt := s.now }).resend l fs

/-! ## LINK_CTL (R223) -/

/-- The payload of a `LINK_CTL`. -/
def ctlPayload (x : Link) (nak : Bool) : List Byte :=
  let any := !x.rxTaken.cells.isEmpty
  leBytes 2 (if any then (x.rxNext + 4095) % 4096 + 32768 else 0) ++ leBytes 2 (if nak then x.rxNext + 32768 else 0) ++
  ((List.range 4).map fun c => leBytes 2 (x.rxFreed.get 0 c % 65536)).flatten

/-- Send a `LINK_CTL`, with a NAK naming RX_NEXT or without. -/
def State.sendCtl (s : State) (l : Nat) (nak : Bool) : State :=
  let x := s.link l
  let s := s.sendPlain l 1 (ctlPayload x nak)
  s.setLink l { x with ctlSentAt := s.now, sinceCtl := 0, rxGranted := x.rxFreed
                       nakAt := if nak then s.now else x.nakAt, nakWait := x.nakWait || nak
                       naks := if nak then min 65535 (x.naks + 1) else x.naks }

/-- A running 16-bit count moves a total on. -/
def runTo (total new16 : Nat) : Nat := total + (new16 + 65536 - total % 65536) % 65536

/-- Take a `LINK_CTL` payload: credit counts, the acknowledgement, and a NAK (R222 to R224). -/
def State.takeCtl (s : State) (l : Nat) (pl : List Byte) : State :=
  let ack := leNat (pl.take 2)
  let nak := leNat ((pl.drop 2).take 2)
  let x := s.link l
  let g := (List.range 4).foldl (fun (t : Tbl Nat) c =>
    t.set 0 c (runTo (t.get 0 c) (leNat ((pl.drop (4 + 2 * c)).take 2)))) x.txGranted
  let x := { x with txGranted := g }
  let x := if bit ack 15 then x.ackTo (bits ack 11 0) s.now else x
  let s := s.setLink l x
  if bit nak 15 then s.retry l (x.replay.dropWhile fun f => f.lseq ≠ bits nak 11 0) else s

/-! ## NEGOTIATE (R235) -/

/-- The payload this end sends. -/
def State.negPayload (s : State) (l : Nat) : List Byte :=
  let x := s.link l
  let m := s.linkMode l
  leBytes 2 1 ++ leBytes 1 0x11 ++ leBytes 1 (packFields [(2, m), (2, linkIx l), (3, portOf l)]) ++ leBytes 2 s.fab.node ++
  leBytes 1 s.fab.member ++ leBytes 1 s.sys.hubPos.toNat ++ leBytes 8 s.lc.serial.toNat ++
  leBytes 2 (packFields [(12, x.rxNext), (2, 0), (1, b2n x.peerHeard), (1, b2n x.kept)]) ++ leBytes 2 x.txNext ++
  ((creditInit m).map fun c => leBytes 2 c).flatten

/-- What a peer's `NEGOTIATE` says. -/
structure Neg where
  format : Nat
  levelMin : Nat
  levelMax : Nat
  width : Nat
  link : Nat
  port : Nat
  node : Nat
  member : Nat
  hub : Nat
  serial : BitVec 64
  rxNext : Nat
  peerSeen : Bool
  resumeOk : Bool
  credits : List Nat
  deriving DecidableEq, Repr

def negOf (b : List Byte) : Neg :=
  let n (k c : Nat) : Nat := leNat ((b.drop k).take c)
  { format := n 0 2, levelMin := bits (n 2 1) 3 0, levelMax := bits (n 2 1) 7 4, width := bits (n 3 1) 1 0
    link := bits (n 3 1) 3 2, port := bits (n 3 1) 6 4, node := n 4 2, member := n 6 1, hub := bits (n 7 1) 2 0
    serial := BitVec.ofNat 64 (n 8 8), rxNext := bits (n 16 2) 11 0, peerSeen := bit (n 16 2) 14
    resumeOk := bit (n 16 2) 15, credits := (List.range 4).map fun c => n (20 + 2 * c) 2 }

/-- The link becomes `UP`, resumed or not (R235, R236). -/
def State.linkUp (s : State) (l : Nat) (n : Neg) : State :=
  let x := s.link l
  let resume := x.kept && n.resumeOk && n.serial = x.peerSerial && n.node = x.peerNode &&
    n.port = x.peerPort && n.link = x.peerLink && s.fab.node = x.upNode
  let s := if resume then s.modLink l fun y =>
      { y with replay := if y.replay.any (fun f => f.lseq = n.rxNext) then y.replay.dropWhile fun f => f.lseq ≠ n.rxNext else [] }
    else s.linkLost l
  let own := s.fab.node
  let s := s.modLink l fun y => { y with
    upNode := own, resumed := resume, attempts := 0, bringups := (y.bringups + 1) % 65536, level := min 1 n.levelMax, kept := true
    peerNode := n.node, peerMember := n.member, peerPort := n.port, peerLink := n.link, peerHub := n.hub, peerSerial := n.serial
    initCredit := if resume then y.initCredit else
      (List.range 4).foldl (fun (t : Tbl Nat) c => t.set 0 c (n.credits.getD c 0)) {}
    ackAt := s.now, retries := 0 }
  let s := s.moveLink l .up none
  let s := if resume then s.resend l (s.link l).replay else s
  s.retryWaiting

/-- A negotiating or `UP` end sends one `NEGOTIATE` (R235). -/
def State.sendNeg (s : State) (link : Nat) : State :=
  (s.sendPlain link 2 (s.negPayload link)).modLink link fun x => { x with negSentAt := s.now }

/-- A link whose node number changed at either end negotiates again (R236). -/
def State.renegotiate (s : State) (link : Nat) : State :=
  ((s.moveLink link .negotiating (some lcNodeChange)).leaveUp link).modLink link fun x => { x with peerHeard := false, negSentAt := 0 }

/-- Take a valid `NEGOTIATE` (R235, R236): refused, heard, or completing the negotiation; on an `UP` link a changed node
number reopens it. -/
def State.takeNeg (s : State) (link : Nat) (n : Neg) : State :=
  let x := s.link link
  if x.state = .up then (if n.node ≠ x.peerNode then s.renegotiate link else s)
  else if x.state ≠ .negotiating then s
  else if n.format ≠ 1 then s.attemptFailed link lcNegFormat false
  else if min 1 n.levelMax < max 1 n.levelMin then s.attemptFailed link lcNegLevel false
  else if n.width ≠ s.linkMode link then s.attemptFailed link lcNegWidth false
  else
    let s := s.modLink link fun x => { x with peerHeard := true }
    if n.peerSeen then (s.sendNeg link).linkUp link n else s

end Sys2Proof.Machine
end

