-- ==== Sys2Proof/Machine/Flit.lean ====
section
/-! DEFINITION. Flits on a link: reception, session handling, acknowledgement, resending and transmission (R215 to R233). -/

namespace Sys2Proof.Machine
open Sys2Proof

/-! ## Reception (R215, R221, R224, R230, R231) -/

/-- The next flit in order leaves the receiver: delivered, or discarded and its credit returned; the link acknowledges at
least once per 64 (R221, R223, R224). -/
def State.takeSeq (s : State) (l cls : Nat) (f : Option RxFlit) : State :=
  let x := s.link l
  let t := x.rxTaken.get 0 cls + 1
  let s := s.setLink l { x with
    rxNext := (x.rxNext + 1) % 4096, nakWait := false, tagFails := 0, sinceCtl := x.sinceCtl + 1
    rxTaken := x.rxTaken.set 0 cls t
    rxFreed := if f.isSome then x.rxFreed else x.rxFreed.set 0 cls (min t (x.rxFreed.get 0 cls + 1))
    accepted := match f with
      | some f => x.accepted ++ [f]
      | none => x.accepted }
  let s := match f with
    | some f => s.progress (if f.ftype < 0x10 then unFabric else unPlan)
    | none => s
  let s := (s.light 6 1).priv (0x101 + 8 * l) 1
  if 64 ≤ x.sinceCtl + 1 then s.sendCtl l false else s

/-- A new sequenced flit of a class lies beyond the credit granted (R224). -/
def State.overCredit (s : State) (l cls : Nat) : Bool :=
  let x := s.link l
  (creditInit (s.linkMode l)).getD cls 0 + x.rxGranted.get 0 cls ≤ x.rxTaken.get 0 cls

/-- Deliver or discard the next flit with what goes with it; a flit beyond the credit granted has no effect but the
link's return to `TRAINING`. -/
def State.endSeq (s : State) (l cls : Nat) (f : Option RxFlit) (eff : State → State := id) : State :=
  if s.overCredit l cls then s.toTraining l (some lcCredit) false else (eff s).takeSeq l cls f

/-- Counts of `LNK_L_ERR_l` (R238, R240). -/
def State.countDrop (s : State) (l : Nat) : State := s.modLink l fun x => { x with epochDrops := min 255 (x.epochDrops + 1) }
def State.countNoSession (s : State) (l : Nat) : State := s.modLink l fun x => { x with noSession := min 255 (x.noSession + 1) }

/-- A `LINK_TAG` alarm with its record (R230, R231, R451). -/
def State.linkTag (s : State) (l slot lseq row : Nat) : State :=
  (s.record 0x71 (0x20 + l) [(1, slot), (2, lseq), (1, row)]).alarm alLinkTag (some slot)

def State.rxCtr (s : State) (slot l : Nat) : RxCtr := s.fbx.rxCtr.get {} (slot * 32 + l)
def State.setRxCtr (s : State) (slot l : Nat) (v : RxCtr) : State :=
  { s with fbx := { s.fbx with rxCtr := s.fbx.rxCtr.set {} (slot * 32 + l) v } }

/-- The tag of the next flit fails: NAK, or the action of the fourth delivery (R221, R231). -/
def State.tagFailed (s : State) (l slot lseq cls : Nat) : State :=
  let x := s.link l
  let n := if x.tagFails ≠ 0 && x.tagFailSeq = lseq then x.tagFails + 1 else 1
  if n < 4 then (s.setLink l { x with tagFails := n, tagFailSeq := lseq }).sendCtl l true
  else
    s.endSeq l cls none fun s =>
      let c := s.rxCtr slot l
      ((s.setRxCtr slot l { c with next := c.next + 1 }).setLink l { x with tagUnrec := min 255 (x.tagUnrec + 1) }).linkTag l
        slot lseq 5

/-- A `START` whose tag passes (R230). -/
def State.takeStart (s : State) (l slot lseq : Nat) (e : BitVec 16) (c : Nat) : State :=
  let r := s.rxCtr slot l
  if !r.valid || e = r.epoch + 1 || (e = r.epoch && r.next ≤ c) then
    s.endSeq l 3 none fun s =>
      (s.setRxCtr slot l { valid := true, epoch := e, next := c + 1 }).modLink l fun x =>
        { x with rxAwait := x.rxAwait.filter fun i => i ≠ slot }
  else
    s.endSeq l 3 none fun s =>
      (s.modLink l fun x => { x with startStale := min 255 (x.startStale + 1) }).linkTag l slot lseq 6

/-- The transmitter's INV for a counter value: the peer's link, port and member path (R226). -/
def Link.peerInv (x : Link) (ctr : Nat) : Nat := invOf ctr x.peerLink x.peerPort x.peerMember

/-- A domain flit with the next LSEQ meets its session (R225, R230); `none` when it waits for its key. -/
def State.rxSession (s : State) (l : Nat) (refused : Bool) (h : BitVec 64) (pl : List Byte) (tag : BitVec 64) :
    Option State × State :=
  let x := s.link l
  let t := hType h
  let cls := flitClass t
  let lseq := hLseq h
  match s.tagSlot? (hSession h) with
  | none => (some (s.endSeq l cls none (·.countNoSession l)), s)
  | some i =>
    match (s.slot i).rxEpochs.find? fun e => e.toNat % 16 = hEpoch h with
    | none => (some (s.endSeq l cls none (·.countDrop l)), s)
    | some e =>
      if refused || s.fab.node = 0 || x.peerNode = 0 then (some (s.endSeq l cls none (·.countNoSession l)), s)
      else match s.sessKey i e x.peerNode s.fab.node with
      | none => (none, s.askKey l i e x.peerNode s.fab.node)
      | some (k, s) =>
        if t = 3 then
          let c := leNat (pl.take 6)
          if startField k (x.peerInv c) h pl ≠ tag then (some (s.tagFailed l i lseq cls), s)
          else (some (s.takeStart l i lseq e c), s)
        else
          let r := s.rxCtr i l
          if x.rxAwait.contains i || !r.valid || r.epoch ≠ e then (some (s.endSeq l cls none (·.countDrop l)), s)
          else
            let (pt, f) := openFlit k (x.peerInv r.next) h pl
            if f ≠ tag then (some (s.tagFailed l i lseq cls), s)
            else
              (some (s.endSeq l cls (some { ftype := t, slot := some i, dst := hDst h, src := hSrc h, payload := pt })
                (·.setRxCtr i l { r with next := r.next + 1 })), s)

/-- A damaged flit, or one whose CRC fails: a NAK, unless the receiver already waits for RX_NEXT (R221). DEDUCED (log 126):
a link that is not `UP` carries no NAK (R237), so its receiver waits and the NAK goes out once it is. -/
def State.rxDamaged (s : State) (l : Nat) : State :=
  if (s.link l).nakWait then s
  else if (s.link l).state = .up then s.sendCtl l true
  else s.modLink l fun x => { x with nakWait := true, nakAt := s.now }

/-- One received flit; `none` when it waits for its key (R215, R217, R219, R221). -/
def State.rxFlit (s : State) (l : Nat) (refused damaged : Bool) (b : List Byte) : Option State × State :=
  let h := fHeader b
  let pl := fPayload b
  let t := hType h
  let x := s.link l
  let crcOk := fTag b = crcField h pl
  if damaged || b.length ≠ 256 || !typeAssigned t then (some (s.rxDamaged l), s)
  else if t = 0 then (some s, s)
  else if t = 1 then (some (if crcOk then s.takeCtl l pl else s.rxDamaged l), s)
  else if t = 2 then (some (if crcOk then s.takeNeg l (negOf pl) else s.rxDamaged l), s)
  else
    let back := (x.rxNext + 4096 - hLseq h) % 4096
    if back ≠ 0 then
      if back ≤ 2048 then (some (s.sendCtl l false), s) else (some (s.rxDamaged l), s)
    else if hSession h ≠ 0 then s.rxSession l refused h pl (fTag b)
    else if !crcOk then (some (s.sendCtl l true), s)
    else if t = 8 || t = 9 then
      (some (s.endSeq l (flitClass t) (some { ftype := t, slot := none, dst := hDst h, src := hSrc h, payload := pl })), s)
    else (some (s.endSeq l (flitClass t) none (·.countNoSession l)), s)

/-- Take received flits in order until one waits for its key; the rest is held behind it (R233). `refused` says that the
key the first one waits for was refused. -/
def State.rxAll : Nat → Nat → Bool → List (Nat × Bool × List Byte) → State → State
  | _, _, _, [], s => s
  | 0, l, _, h, s => s.modLink l fun x => { x with rxHold := h }
  | f + 1, l, refused, (n, d, b) :: r, s =>
    if (s.link l).state ≠ .up then s
    else
      match s.rxFlit l refused d b with
      | (some s, _) => State.rxAll f l false r s
      | (none, s) => s.modLink l fun x => { x with rxHold := (n, d, b) :: r }

/-- Go on with a link's held flits after a derivation. -/
def State.rxResume (s : State) (l : Nat) (refused : Bool) : State :=
  let h := (s.link l).rxHold
  State.rxAll (h.length + 1) l refused h (s.modLink l fun x => { x with rxHold := [] })

/-! ## From codewords to flits (R211, R212, R215, R238) -/

/-- Count a symbol of a codeword that the decoder corrected, on the lane that brought it (R213, R238). -/
def State.symCorrected (s : State) (l sym : Nat) : State :=
  let n := modeLanes (s.linkMode l)
  match (s.lanesOf l).find? fun g => (s.lnk.lanes.get {} g).logical = sym % n with
  | some g => s.modLane g fun y => { y with corrected := min (2 ^ 32 - 1) (y.corrected + 1), window := y.window + 1 }
  | none => s

/-- The decoder and the descrambler of a link hand over the next flit of its superframe, with their counts (R238). -/
def State.rxDecode (s : State) (l : Nat) (cws : List (List (BitVec 10))) : RxRead × State :=
  let p := (s.link l).pcs
  let scr := if p.rxPos = 0 then prbsInit else p.rxScr
  let r := readFlit p.rxPos scr cws
  let s := s.modLink l fun x => { x with
    uncorrCw := min 65535 (x.uncorrCw + r.badCw)
    pcs := { p with rxPos := (p.rxPos + 1) % sfFlits, rxScr := (prbsRun flitBits scr).2 } }
  (r, r.corrected.foldl (fun s k => s.symCorrected l k) s)

/-- A link without lock trains or searches for it; a flit that arrives then is damaged (R215). -/
def LinkState.unlocked (x : LinkState) : Bool := x = .training || x = .locking || x = .adapting

/-- A flit arrives on a link in the codewords that carry it, those shared with the flits beside it included (R211 to R215).
An `UP` link takes it in order, behind the flits it holds (R233); a negotiating one takes `NEGOTIATE` flits only. -/
def State.arrive (s : State) (l : Nat) (cws : List (List (BitVec 10))) : State :=
  let st := (s.link l).state
  if !s.linkOn l then s
  else if st.unlocked then s.rxDamaged l
  else if st = .up then
    let (r, s) := s.rxDecode l cws
    let f : Nat × Bool × List Byte := (r.badCw, r.damaged, leBytes 256 r.data)
    let x := s.link l
    if x.rxHold.isEmpty then State.rxAll 1 l false [f] s else s.setLink l { x with rxHold := x.rxHold ++ [f] }
  else if st = .negotiating then
    let (r, s) := s.rxDecode l cws
    let b := leBytes 256 r.data
    if r.damaged || !typeAssigned (hType (fHeader b)) then s.rxDamaged l
    else if hType (fHeader b) ≠ 2 then s
    else if fTag b = crcField (fHeader b) (fPayload b) then s.takeNeg l (negOf (fPayload b))
    else s.rxDamaged l
  else s

/-- `FLIT_RECEIVE` (R215, R221, R230, R231, R238). -/
def execFlitReceive (link : Nat) (cws : List (List (BitVec 10))) (s : State) : Res := .next (s.arrive link cws)

/-- `LINK_CTL_RECEIVE` (R222, R223, R224): a `LINK_CTL` comes as every flit does. -/
def execLinkCtlReceive (link : Nat) (cws : List (List (BitVec 10))) (s : State) : Res := .next (s.arrive link cws)

/-- `NEGOTIATE_RECEIVE` (R219, R235, R236). -/
def execNegotiateReceive (link : Nat) (cws : List (List (BitVec 10))) (s : State) : Res := .next (s.arrive link cws)

/-- `LINK_CTL_SEND` (R223). -/
def execLinkCtlSend (link : Nat) (s : State) : Res :=
  .next <| if s.linkOn link && (s.link link).state = .up then s.sendCtl link false else s

/-- `NAK_REPEAT` (R221): every 2 µs while the receiver waits. -/
def execNakRepeat (link : Nat) (s : State) : Res :=
  .next <|
    let x := s.link link
    if s.linkOn link && x.state = .up && x.nakWait && x.nakAt + 2 * us ≤ s.now then s.sendCtl link true else s

/-- `REPLAY_TIMEOUT` (R222): 10 µs without an advance while flits are unacknowledged. -/
def execReplayTimeout (link : Nat) (s : State) : Res :=
  .next <|
    let x := s.link link
    if s.linkOn link && x.state = .up && !x.replay.isEmpty && x.ackAt + 10 * us ≤ s.now then s.retry link x.replay else s

/-! ## Transmission (R220, R224 to R229, R232) -/

/-- Credits of a class this transmitter holds (R224). -/
def Link.credit (x : Link) (cls : Nat) : Nat := x.initCredit.get 0 cls + x.txGranted.get 0 cls - x.txUsed.get 0 cls

def State.txCtr (s : State) (slot l : Nat) : Nat := s.fbx.txCtr.get 0 (slot * 32 + l)

/-- What a waiting flit may do now. -/
inductive TxGo where
  | wait | drop | plain | start (key : BitVec 288) | seal (key : BitVec 288)
  deriving DecidableEq, Repr

/-- Judge a waiting flit: its credit, its session's key, counter value and `START` (R218, R224, R225, R228, R229, R232). -/
def State.txJudge (s : State) (l : Nat) (f : WaitFlit) : TxGo × State :=
  let x := s.link l
  match f.slot with
  | none => (if 0 < x.credit (flitClass f.ftype) then .plain else .wait, s)
  | some i =>
    let p := s.slot i
    if p.state = .empty || !s.slotSends f.slot then (.drop, s)
    else if s.fab.node = 0 || x.peerNode = 0 then (.wait, s)
    else if 2 ^ 48 ≤ s.txCtr i l then
      if p.holdRecorded.contains l then (.wait, s)
      else (.wait, (s.setSlot i { p with holdRecorded := l :: p.holdRecorded }).record 0x62 srcStoker [(1, i), (1, l)])
    else
      let need := !x.txStarted.contains i
      if x.credit (if need then 3 else flitClass f.ftype) = 0 then (.wait, s)
      else match s.sessKey i p.txEpoch s.fab.node x.peerNode with
        | none => (.wait, s.askKey l i p.txEpoch s.fab.node x.peerNode)
        | some (k, s) => (if need then .start k else .seal k, s)

/-- Send one sequenced flit: LSEQ, replay buffer and credit (R220, R224). -/
def State.txSend (s : State) (l ftype : Nat) (h : BitVec 64) (pl : List Byte) (tag : BitVec 64)
    (col : Option (Nat × Nat) := none) : State :=
  let x := s.link l
  let cls := flitClass ftype
  let s := if ftype = 0x10 then s.priv (0x102 + 8 * l) 1 else s
  (s.setLink l { x with
    txNext := (x.txNext + 1) % 4096
    replay := x.replay ++ [{ lseq := x.txNext, header := h, payload := pl, tagField := tag, col }]
    txUsed := x.txUsed.set 0 cls (x.txUsed.get 0 cls + 1)
    ackAt := if x.replay.isEmpty then s.now else x.ackAt }).flitOut l (withLseq h x.txNext) pl tag

/-- Advance a session's counter; the warning threshold is reported once per epoch (R126, R228, R232). -/
def State.txAdvance (s : State) (slot l : Nat) : State :=
  let c := s.txCtr slot l + 1
  let s := { s with fbx := { s.fbx with txCtr := s.fbx.txCtr.set 0 (slot * 32 + l) c } }
  let p := s.slot slot
  if 2 ^ (s.port (portOf l)).warnLog2 ≤ c && !p.epochDue then
    (s.setSlot slot { p with epochDue := true }).emit (.domEvent slot evEpochDue 0 l)
  else s

/-- The payload of a `START`: the counter it starts from (R229). -/
def startPayload (ctr : Nat) : List Byte := leBytes 6 ctr ++ List.replicate 234 0

/-- Send a waiting flit, or the `START` its session needs first (R226, R228, R229); the flag says that the flit itself
went. -/
def State.txGo (s : State) (l : Nat) (f : WaitFlit) (g : TxGo) : Bool × State :=
  let inv (i : Nat) : Nat := invOf (s.txCtr i l) (linkIx l) (portOf l) s.fab.member
  match g, f.slot with
  | .plain, _ =>
    let h := flitHeader f.ftype 0 0 f.dst f.src
    (true, s.txSend l f.ftype h f.payload (crcField h f.payload))
  | .start k, some i =>
    let h := flitHeader 3 (s.sessTag f.slot) (s.slot i).txEpoch.toNat (s.link l).peerNode s.fab.node
    let pl := startPayload (s.txCtr i l)
    let s' := (s.txSend l 3 h pl (startField k (inv i) h pl)).txAdvance i l
    (false, s'.modLink l fun x => { x with txStarted := i :: x.txStarted })
  | .seal k, some i =>
    let h := flitHeader f.ftype (s.sessTag f.slot) (s.slot i).txEpoch.toNat f.dst f.src
    let (ct, t) := sealFlit k (inv i) h f.payload
    let col := if f.ftype = 0x10 then some (i, leNat (f.payload.take 2) % 4096) else none
    (true, (s.txSend l f.ftype h ct t col).txAdvance i l)
  | .start _, none | .seal _, none | .wait, _ | .drop, _ => (false, s)

/-- A held flit of a slot that may send no more is undeliverable; one of an `EMPTY` slot is gone with the slot (R218). -/
def State.txDrop (s : State) (l : Nat) (f : WaitFlit) : State :=
  let s := s.modLink l fun x => { x with txQueue := x.txQueue.erase f }
  match f.slot with
  | some i => if (s.slot i).state = .empty then s else s.undeliverable f.ftype f.slot f.dst f.src f.payload
  | none => s

/-- Send the first waiting flit that may go; the flag says that one went. Flits of one session and class keep their order;
the others pass a flit that waits (R228, R233). -/
def State.txFirst : List WaitFlit → List (Option Nat × Nat) → Nat → State → Bool × State
  | [], _, _, s => (false, s)
  | f :: r, blocked, l, s =>
    let key := (f.slot, flitClass f.ftype)
    if blocked.contains key then State.txFirst r blocked l s
    else
      let x := s.txJudge l f
      match x.1 with
      | .wait => State.txFirst r (key :: blocked) l x.2
      | .drop => State.txFirst r blocked l (x.2.txDrop l f)
      | .plain | .start _ | .seal _ =>
        let y := x.2.txGo l f x.1
        (true, if y.1 then y.2.modLink l fun x => { x with txQueue := x.txQueue.erase f } else y.2)

/-- A `NULL` flit: every bit zero but what the superframe adds (R217). -/
def State.sendNull (s : State) (l : Nat) : State := s.flitOut l 0 (List.replicate 240 0) 0

/-- `FLIT_TRANSMIT` (R217, R220, R228): while the replay buffer is full no sequenced flit is sent; a port with nothing else
to send sends `NULL`, from `LOCKING` on. -/
def execFlitTransmit (link : Nat) (s : State) : Res :=
  .next <|
    let x := s.link link
    if !s.linkOn link then s
    else if x.state = .up && x.replay.length < replayCap (s.linkMode link) then
      let y := State.txFirst x.txQueue [] link s
      if y.1 then y.2 else y.2.sendNull link
    else if x.state = .up || x.state = .negotiating || x.state = .locking then s.sendNull link
    else s

end Sys2Proof.Machine
end

