-- ==== Sys2Proof/Machine/Link.lean ====
section
/-! DEFINITION. The link-port rows: control writes, training, lock, negotiation and adaptation (R208, R213, R214, R234 to
R240), and `FAB_NODE` (R269). -/

namespace Sys2Proof.Machine
open Sys2Proof

/-- Offset of `LNK_CTL` of a port. -/
def lnkCtl (p : Nat) : Nat := 0xA0000 + 0x8000 * p + 8

/-! ## Control writes -/

/-- `LNK_CTL.ENABLE` of one link (R237, R239): set, a `DISABLED` link wakes its port's domain and trains; cleared, the
link is `DISABLED`. -/
def execLinkEnable (r : Req) (link : Nat) (on : Bool) (s : State) : Res :=
  .next <|
    let p := portOf link
    let s := if on && r.mgmt && 4 ≤ s.rst.step && s.linkInMode link && !s.sys.pdFused.getLsbD (6 + p) then
        { s with sys := { s.sys with pd := s.sys.pd.set .on (6 + p) .on } } else s
    s.regWriteMgmt r (lnkCtl p) 32 fun s =>
      if !s.linkPresent link then s
      else
        let s := s.modLink link fun x => { x with enable := on }
        if on then
          if (s.link link).state = .disabled then (s.modLink link fun x => { x with attempts := 0 }).toTraining link none false
          else s
        else if (s.link link).state = .disabled then s
        else s.toDown link .disabled lcOperator

/-- `LNK_CTL.RETRAIN` (R237, R239): cold training of an `UP` or a `DOWN_FAILED` link. -/
def execLinkRetrain (r : Req) (link : Nat) (s : State) : Res :=
  .next <| s.regWriteMgmt r (lnkCtl (portOf link)) 32 fun s =>
    let st := (s.link link).state
    if !s.linkPresent link then s
    else if st = .up then s.toTraining link (some lcOperator) true
    else if st = .downFailed then (s.modLink link fun x => { x with attempts := 0 }).toTraining link (some lcOperator) true
    else s

/-- An `UP` link enters `ADAPTING`. -/
def State.adapt (s : State) (link cause : Nat) : State :=
  ((s.moveLink link .adapting (some cause)).serdes link 3).leaveUp link

/-- `LNK_CTL.ADAPT` (R237, R239). -/
def execLinkAdapt (r : Req) (link : Nat) (s : State) : Res :=
  .next <| s.regWriteMgmt r (lnkCtl (portOf link)) 32 fun s =>
    if s.linkPresent link && (s.link link).state = .up then s.adapt link lcOperator else s

/-- Replace a link's saved record (R234, R505). -/
def State.saveRecord (s : State) (link : Nat) (settings : List (BitVec 512)) : State :=
  { s.modLink link fun x => { x with saved := some settings } with boot := { s.boot with trainDirty := true } }

/-- `LNK_CTL.SAVE` (R234, R239): the settings of an `UP` link replace its record. -/
def execLinkSave (r : Req) (link : Nat) (settings : List (BitVec 512)) (s : State) : Res :=
  .next <| s.regWriteMgmt r (lnkCtl (portOf link)) 32 fun s =>
    if s.linkPresent link && (s.link link).state = .up then s.saveRecord link settings else s

/-- `LNK_CTL.MODE` (R208, R239). -/
def execLnkModeWrite (r : Req) (port : Nat) (v : BitVec 2) (s : State) : Res :=
  .next <| s.regWriteMgmt r (lnkCtl port) 32 fun s =>
    if v = 3 || (List.range 4).any (fun k => (s.link (4 * port + k)).state ≠ .disabled) then s
    else s.setPort port { s.port port with mode := v.toNat }

/-- `LNK_SESS_CTL` (R239): WARN_LOG2 outside 32 to 47 is ignored. -/
def execLnkSessCtlWrite (r : Req) (port : Nat) (v : BitVec 32) (s : State) : Res :=
  .next <| s.regWriteMgmt r (0xA0000 + 0x8000 * port + 0x10) 32 fun s =>
    let n := bits v.toNat 5 0
    if 32 ≤ n && n ≤ 47 then s.setPort port { s.port port with warnLog2 := n } else s

/-! ## Training and lock -/

/-- Take lane readbacks: SNR and signal detection. -/
def State.laneReads (s : State) (link : Nat) (rs : List LaneTrain) : State :=
  ((s.lanesOf link).zip rs).foldl (fun s e => s.modLane e.1 fun y => { y with snr := e.2.snr % 65536, sigdet := e.2.sigdet }) s

/-- Saved settings count as good (R234): lock within 50 ms, and no lane above 1 corrected symbol in 10,000 over the next
1 ms. -/
def savedGood (lockNs : Nat) (lanes : List LaneTrain) : Bool :=
  lockNs ≤ 50 * ms && lanes.all fun y => y.corrected * 10000 ≤ y.symbols

/-- `TRAINING_DONE` (R234, R237): saved settings that prove good, or a cold training that succeeds, take the link to
`LOCKING`; saved settings that do not are followed by cold training; a failed cold training is an attempt. -/
def execTrainingDone (link : Nat) (ok : Bool) (lockNs : Nat) (settings : List (BitVec 512)) (lanes : List LaneTrain) (s : State) :
    Res :=
  .next <|
    if !s.linkOn link || (s.link link).state ≠ .training then s
    else
      let s := s.laneReads link lanes
      let saved := (s.link link).savedUsed
      if ok && (!saved || savedGood lockNs lanes) then
        let s := if saved then s else s.saveRecord link settings
        s.toLocking link none
      else if saved then (s.modLink link fun x => { x with savedUsed := false }).serdes link 1
      else s.attemptFailed link lcTrainFail true

/-- The rows of an alignment codeword as one lane of a link with this width sends them: logical lane, superframe number
and polarity, if they fit (R213, R214). -/
def readAlign (width : Nat) (rows : List (BitVec 10)) : Option (Nat × Nat × Bool) :=
  let inv := rows.take 4 = alignPattern.map (~~~·)
  let rows := if inv then rows.map (~~~·) else rows
  let r (j : Nat) : Nat := (rows.getD j 0).toNat
  if rows.take 4 = alignPattern && 8 ≤ rows.length && bits (r 4) 5 4 = width && bits (r 4) 9 6 = 0 then
    some (bits (r 4) 3 0, r 5 + 2 ^ 10 * r 6 + 2 ^ 20 * r 7, inv)
  else none

/-- The lanes arrive within 512 symbol times of one another (R214). -/
def deskewed (lanes : List LaneAlign) : Bool :=
  lanes.all fun a => lanes.all fun b => a.arrival ≤ b.arrival + 512

/-- What lock learns of each physical lane of a link: logical number and polarity (R214). -/
def lockLanes (width n : Nat) (lanes : List LaneAlign) : Option (List (Nat × Bool)) :=
  let rs := lanes.map fun a => match readAlign width a.first, readAlign width a.second with
    | some (l1, f1, i1), some (l2, f2, i2) => if l1 = l2 && i1 = i2 && f2 = (f1 + 1) % 2 ^ 30 then some (l1, f1, i1) else none
    | _, _ => none
  let ok := rs.filterMap id
  let f0 := (ok.headD (0, 0, false)).2.1
  if lanes.length = n && ok.length = n && (ok.all fun e => e.1 < n && e.2.1 = f0) && (ok.map Prod.fst).Nodup &&
      deskewed lanes then
    some (ok.map fun e => (e.1, e.2.2))
  else none

/-- `LOCK_ACQUIRED` (R213, R214, R237): two consecutive alignment codewords on every lane, with consecutive superframe
numbers and the expected width. -/
def execLockAcquired (link : Nat) (lanes : List LaneAlign) (s : State) : Res :=
  .next <|
    let m := s.linkMode link
    if !s.linkOn link || (s.link link).state ≠ .locking then s
    else match lockLanes m (modeLanes m) lanes with
      | none => s
      | some ls =>
        let s := ((s.lanesOf link).zip ls).foldl (fun s e =>
          s.modLane e.1 fun y => { y with logical := e.2.1, inverted := e.2.2 }) s
        (s.moveLink link .negotiating none).modLink link fun x =>
          { x with peerHeard := false, negSentAt := 0, pcs := { x.pcs with rxPos := 0, rxScr := 0 } }

/-- An alignment codeword fails on a lane: it does not read as that lane of the link did at lock. DEDUCED (log 126): the
superframe number takes no part. -/
def alignFails (width : Nat) (y : Lane) (rows : List (BitVec 10)) : Bool :=
  match readAlign width rows with
  | some (k, _, inv) => k ≠ y.logical || inv ≠ y.inverted
  | none => true

/-- `LOCK_LOST` (R214, R237): three consecutive alignment codewords, as a lane of an `UP` link brings them, have failed. -/
def execLockLost (link lane : Nat) (first second third : List (BitVec 10)) (s : State) : Res :=
  .next <|
    let m := s.linkMode link
    let y := s.lnk.lanes.get {} ((s.lanesOf link).getD lane 0)
    if s.linkOn link && (s.link link).state = .up && lane < modeLanes m && [first, second, third].all (alignFails m y) then
      (s.toLocking link (some lcLockLost)).leaveUp link
    else s

/-- `LOCK_TIMEOUT` (R237): no lock within 1 ms is a failed attempt. -/
def execLockTimeout (link : Nat) (s : State) : Res :=
  .next <|
    let x := s.link link
    if s.linkOn link && x.state = .locking && x.since + ms ≤ s.now then s.attemptFailed link lcTrainFail false else s

/-! ## Negotiation -/

/-- `NEGOTIATE_SEND` (R235): every 100 µs once lock is reached. -/
def execNegotiateSend (link : Nat) (s : State) : Res :=
  .next <|
    let x := s.link link
    if s.linkOn link && (x.state = .negotiating || x.state = .up) && (x.negSentAt = 0 || x.negSentAt + 100 * us ≤ s.now) then
      s.sendNeg link
    else s

/-- `NEG_TIMEOUT` (R235): a negotiation not complete within 100 ms is refused. -/
def execNegTimeout (link : Nat) (s : State) : Res :=
  .next <|
    let x := s.link link
    if s.linkOn link && x.state = .negotiating && x.since + 100 * ms ≤ s.now then s.attemptFailed link lcNegTimeout false else s

/-! ## Adaptation -/

/-- `ADAPT_DONE` (R237). -/
def execAdaptDone (link : Nat) (s : State) : Res :=
  .next <| if s.linkOn link && (s.link link).state = .adapting then s.toLocking link none else s

/-- `SER_RATE` (R234, R238, R240): the end of a lane's 1 ms, with the symbols it received and those corrected in codewords
that no receive row brought; more than 1 corrected in 10,000 on an `UP` link puts it into `ADAPTING`. -/
def execSerRate (link lane corrected symbols snr : Nat) (s : State) : Res :=
  .next <|
    if !s.linkOn link || modeLanes (s.linkMode link) ≤ lane then s
    else
      let g := (s.lanesOf link).getD lane 0
      let n := (s.lnk.lanes.get {} g).window + corrected
      let s := s.modLane g fun y =>
        { y with corrected := min (2 ^ 32 - 1) (y.corrected + corrected), window := 0, snr := snr % 65536 }
      if (s.link link).state = .up && symbols < n * 10000 then s.adapt link lcSerRate else s

/-! ## FAB_NODE (R236, R257, R269) -/

/-- The member route table as `BR_CTL` carries it: MAP_GEN, then path and entry pairs. -/
def State.routeVals (s : State) : List Nat :=
  s.fab.mapGen :: (s.fab.mroutes.cells.map fun e => [e.1, e.2.word.toNat]).flatten

/-- The lead takes a MAP_GEN: each member hears the number first, and lags behind it until the table it counts has come
(R257). -/
def State.giveRoutes (s : State) (gen : Nat) : State :=
  let s := { s with fab := { s.fab with mapGen := gen, leadMapGen := gen } }
  (s.toPeers bkMapGen [gen]).toPeers bkRoutes s.routeVals

/-- `FAB_NODE`: ignored and recorded while any slot is not `EMPTY`; a change of NODE or MEMBER sends `UP` links back to
`NEGOTIATING`, and the lead gives a new MAP_GEN to its members with the table it counts (R257). -/
def State.writeFabNode (s : State) (r : Req) (v : BitVec 64) : State :=
  s.regWriteMgmt r 0xE0008 64 fun s =>
    if allSlots.any fun i => (s.slot i).state ≠ .empty then s.record 0x80 srcFabric [(1, 1), (2, fld v 15 0)]
    else
      let ob := fld v 27 24
      let gen := if s.isLead then fld v 47 32 else s.fab.mapGen
      let change := fld v 15 0 ≠ s.fab.node || fld v 23 16 ≠ s.fab.member
      let s := { s with fab := { s.fab with
        node := fld v 15 0, member := fld v 23 16, offBits := if ob ≤ 8 then ob else s.fab.offBits } }
      let s := if gen = s.fab.mapGen then s else s.giveRoutes gen
      if !change then s
      else s.forEach ((List.range 32).filter fun l => (s.link l).state = .up) State.renegotiate

/-- `FAB_NODE_WRITE`. -/
def execFabNodeWrite (r : Req) (v : BitVec 64) (s : State) : Res := .next (s.writeFabNode r v)

end Sys2Proof.Machine
end

