-- ==== Sys2Proof/Machine/Crossing.lean ====
section
/-! DEFINITION. Crossing arithmetic: the arithmetic word, blocks, element encodings, scales, rounding, special values,
promotion and residuals (R272 to R302). FP32 values are 32-bit patterns held as numbers. -/

namespace Sys2Proof.Machine
open Sys2Proof

/-! ## The arithmetic word (R276, R277, R300) -/

def arBase (a : BitVec 64) : Nat := fld a 3 0
def arCeil (a : BitVec 64) : Nat := fld a 7 4
def arLog2 (a : BitVec 64) : Nat := fld a 12 8
def arReduce (a : BitVec 64) : Nat := fld a 14 13
def arStoch (a : BitVec 64) : Bool := a.getLsbD 15
def arFlush (a : BitVec 64) : Bool := a.getLsbD 16
def arFit (a : BitVec 64) : Bool := a.getLsbD 17
def arResid (a : BitVec 64) : Nat := fld a 19 18
def arOpnd (a : BitVec 64) : Nat := fld a 21 20
def arOut (a : BitVec 64) : Nat := fld a 23 22
def arMean (a : BitVec 64) : Nat := fld a 55 24

/-- The next wider format of the ladder (R300). -/
def nextWider : Nat → Option Nat
  | 9 => some 8 | 8 => some 6 | 6 => some 4 | 4 => some 2 | 5 => some 2 | 2 => some 1 | 3 => some 1 | 7 => some 1
  | _ => none

/-- The formats from one format up its ladder to another, none when the second does not lie on it. -/
def ladderTo : Nat → Nat → Nat → Option (List Nat)
  | 0, _, _ => none
  | n + 1, f, c => if f = c then some [f] else match nextWider f with
    | none => none
    | some g => (ladderTo n g c).map (f :: ·)

def ladder (a : BitVec 64) : Option (List Nat) := ladderTo 8 (arBase a) (arCeil a)

/-- The `FORMATS` map of R303. -/
def State.fmtMap (s : State) : Nat := fld s.boot.variant 47 32
def State.fmtOn (s : State) (f : Nat) : Bool := bit s.fmtMap f

/-- An FP32 factor is finite, positive and normal. -/
def posNormal (x : Nat) : Bool := !bit x 31 && bits x 30 23 ≠ 0 && bits x 30 23 ≠ 255

/-- R277, in its order: the status of the first failure, 0 when the word passes. Stochastic rounding that the variant
lacks is an inconsistent word (R303, R506). -/
def State.chkArith (s : State) (a : BitVec 64) : Nat :=
  let base := arBase a
  if fld a 63 56 ≠ 0 then stRsvNonzero
  else if 10 ≤ base || !s.fmtOn base then stFmtUnsupported
  else if (ladder a).isNone || (arLog2 a = 0 && arCeil a ≠ base) || 30 < arLog2 a then stArithParam
  else if !(((ladder a).getD []).all s.fmtOn) || (!arFlush a && base ≠ 0 && !s.fmtOn 1) then stFmtUnsupported
  else if arResid a = 3 || arOpnd a = 3 || 2 ≤ arOut a || (arResid a ≠ 0 && (2 ≤ arReduce a || base = 0)) then stArithParam
  else if (if arReduce a = 1 then !posNormal (arMean a) else arMean a ≠ 0) then stArithParam
  else if arStoch a && !s.boot.variant.getLsbD 10 then stArithParam
  else 0

/-! ## Blocks (R278, R279) -/

/-- Element width w in bits. -/
def fmtWidth (f : Nat) : Nat := [32, 16, 8, 8, 6, 6, 4, 8, 2, 1].getD f 0
/-- Bytes of a block. -/
def fmtBytes (f : Nat) : Nat := 2 + 4 * fmtWidth f

/-- Exponent and mantissa bits of the MX floating-point formats. -/
def mxBits : Nat → Option (Nat × Nat)
  | 2 => some (4, 3) | 3 => some (5, 2) | 4 => some (2, 3) | 5 => some (3, 2) | 6 => some (2, 1) | _ => none

def mxBias (eb : Nat) : Int := 2 ^ (eb - 1) - 1

/-- emax of R280. -/
def fmtEmax (f : Nat) : Int := match f with
  | 2 => 8 | 3 => 15 | 4 => 2 | 5 => 4 | 6 => 2 | _ => 0

/-- The largest magnitude and the bound of R280, in units of 1/128. -/
def fmtLargest (f : Nat) : Nat := match f with
  | 2 => 448 * 128 | 3 => 57344 * 128 | 4 => 960 | 5 => 28 * 128 | 6 => 6 * 128 | 7 => 254 | _ => 128
def fmtBound (f : Nat) : Nat := match f with
  | 2 => 464 * 128 | 3 => 61440 * 128 | 4 => 992 | 5 => 30 * 128 | 6 => 7 * 128 | 7 => 255 | _ => 192

/-! ## FP32 values -/

def f32Nan : Nat := 0x7FC00000
def f32Special (x : Nat) : Bool := bits x 30 23 = 255
def f32IsNan (x : Nat) : Bool := f32Special x && bits x 22 0 ≠ 0
def f32Abs (x : Nat) : Nat := x % 2 ^ 31

/-- Order of two finite or infinite values: x ≤ y. -/
def le32 (x y : Nat) : Bool := !f32IsNan x && !f32IsNan y && !lt32 y x

/-- FP32 subtraction. -/
def sub32 (x y : Nat) : Nat := add32 x (if bit y 31 then y - 2 ^ 31 else y + 2 ^ 31)

/-- FP32 division of two non-negative values, the divisor not zero. -/
def div32 (x y : Nat) : Nat :=
  match fdec 8 23 x, fdec 8 23 y with
  | .fin _ m1 e1, .fin _ m2 e2 =>
    let n := m1 * 2 ^ 64
    fenc 8 23 false (2 * (n / m2) + (if n % m2 = 0 then 0 else 1)) (e1 - e2 - 65)
  | .fin _ _ _, .inf _ => 0
  | .inf n, .fin _ _ _ => finf 8 23 n
  | _, _ => f32Nan

/-- IEEE 754-2019 maximum and minimum (R293). -/
def max32 (x y : Nat) : Nat :=
  if f32IsNan x || f32IsNan y then f32Nan
  else if f32Abs x = 0 && f32Abs y = 0 then (if bit x 31 then y else x)
  else if lt32 x y then y else x
def min32 (x y : Nat) : Nat :=
  if f32IsNan x || f32IsNan y then f32Nan
  else if f32Abs x = 0 && f32Abs y = 0 then (if bit x 31 then x else y)
  else if lt32 y x then y else x

/-- FP32 to BF16 (R294, R296): the code, and whether it was saturated. -/
def toBf16 (x : Nat) : Nat × Bool :=
  let sgn := if bit x 31 then 0x8000 else 0
  if f32IsNan x then (0x7FC0, false)
  else if f32Special x then (sgn + 0x7F80, false)
  else if 0x7F7F8000 ≤ f32Abs x then (sgn + 0x7F7F, true)
  else (sgn + (f32Abs x + 0x7FFF + bits x 16 16) / 2 ^ 16, false)

/-! ## Element encodings (R280 to R285) -/

/-- The unscaled value of an element code. -/
def elemVal (f c : Nat) : FVal :=
  match mxBits f with
  | some (eb, mb) =>
    let neg := bit c (eb + mb)
    let ex := bits c (eb + mb - 1) mb
    let man := bits c (mb - 1) 0
    if f = 2 && ex = 15 && man = 7 then .nan
    else if f = 3 && ex = 31 then (if man = 0 then .inf neg else .nan)
    else if ex = 0 then .fin neg man (1 - mxBias eb - mb)
    else .fin neg (man + 2 ^ mb) ((ex : Int) - mxBias eb - mb)
  | none =>
    if f = 7 then (if bit c 7 then .fin true (256 - c % 256) (-6) else .fin false (c % 256) (-6))
    else if f = 8 then (match c with
      | 0 => .fin false 0 0 | 1 => .fin false 1 0 | 3 => .fin true 1 0 | _ => .nan)
    else if f = 9 then .fin (c ≠ 0) 1 0
    else if f = 1 then fdec 8 7 c
    else fdec 8 23 c

/-- A value times 2^X, as FP32. -/
def scaled32 (v : FVal) (x : Int) : Nat := match v with
  | .fin n m e => fenc 8 23 n m (e + x)
  | v => fput 8 23 v

/-- A decoded block: its 32 FP32 values, whether it is valid, and whether it has a length. -/
structure DecBlk where
  vals : List Nat
  valid : Bool
  deriving DecidableEq, Repr

def badBlk : DecBlk := { vals := List.replicate 32 f32Nan, valid := false }

/-- FMT of a block whose first two bytes are given. -/
def hdrFmt (b : List Byte) : Nat := bits (leNat (b.take 2)) 11 8

/-- Decode a whole block by its own header (R279, R282). -/
def State.decodeBlk (s : State) (b : List Byte) : DecBlk :=
  let h := leNat (b.take 2)
  let f := bits h 11 8
  let sc := bits h 7 0
  let el := leNat (b.drop 2)
  let w := fmtWidth f
  let codes := (List.range 32).map fun i => bits el (w * i + w - 1) (w * i)
  if bit h 15 || 10 ≤ f || !s.fmtOn f || (f ≤ 1 && sc ≠ 0x7F) || (f = 8 && codes.contains 2) then badBlk
  else if 2 ≤ f && sc = 255 then { vals := List.replicate 32 f32Nan, valid := true }
  else { vals := codes.map fun c => scaled32 (elemVal f c) (if f ≤ 1 then 0 else (sc : Int) - 127), valid := true }

/-! ## Scales (R286, R287) -/

/-- ⌊log2⌋ of a non-zero m x 2^e. -/
def flog2 (m : Nat) (e : Int) : Int := (Nat.log2 m : Int) + e

def clampX (x : Int) : Int := max (-127) (min 127 x)

/-- Exponent of the grid step of a format about a magnitude m x 2^e (R288, R280). -/
def gridExp (f m : Nat) (e : Int) : Int :=
  match mxBits f with
  | some (eb, mb) => (if m = 0 then 1 - mxBias eb else max (flog2 m e) (1 - mxBias eb)) - mb
  | none => if f = 7 then -6 else 0

/-- m x 2^e in steps of 2^u: the whole steps, the rest, and the divisor of the rest. -/
def inSteps (m : Nat) (e u : Int) : Nat × Nat × Nat :=
  if u ≤ e then (m * 2 ^ (e - u).toNat, 0, 1) else
    let d := 2 ^ (u - e).toNat
    (m / d, m % d, d)

/-- Steps of the nearest grid point, ties to the even (R288). -/
def nearSteps (m : Nat) (e u : Int) : Nat :=
  let (k, r, d) := inSteps m e u
  if d < 2 * r || (2 * r = d && r ≠ 0 && k % 2 = 1) then k + 1 else k

/-- m x 2^e lies at or above n/128. -/
def geFrac (m : Nat) (e : Int) (n : Nat) : Bool :=
  let (k, _, _) := inSteps m e (-7)
  n ≤ k

/-- m x 2^e in steps lies above n/128. -/
def gtFrac (m : Nat) (e : Int) (n : Nat) : Bool :=
  let (k, r, _) := inSteps m e (-7)
  n < k || (n = k && r ≠ 0)

/-- The larger of two magnitudes, as patterns. -/
def amaxOf (vals : List Nat) : Nat := (vals.map f32Abs).foldl max 0

/-- X of a block of values without specials, whose mean magnitude is `mu` (R286, R287). -/
def scaleOf (a : BitVec 64) (f mu : Nat) (vals : List Nat) : Int :=
  if 8 ≤ f then
    if mu = 0 then -127
    else match fdec 8 23 (mul32 mu 0x3FB504F3) with
      | .fin _ m e => clampX (flog2 m e)
      | _ => 127
  else
    match fdec 8 23 (amaxOf vals) with
    | .fin _ m e =>
      if m = 0 then -127
      else
        let x := flog2 m e - fmtEmax f
        let u := gridExp f m (e - x)
        clampX (if arFit a && gtFrac (nearSteps m (e - x) u) u (fmtLargest f) then x + 1 else x)
    | _ => 127

/-! ## Rounding (R288 to R290, R296) -/

/-- One quantised element: its code, the FP32 value it decodes to, and whether it was saturated. -/
structure QElem where
  code : Nat
  val : Nat
  sat : Bool
  deriving DecidableEq, Repr

/-- Code of k steps of 2^u in an MX floating-point format. -/
def mxCode (eb mb : Nat) (k : Nat) (u : Int) : Nat :=
  let (k, u) := if 2 ^ (mb + 1) ≤ k then (k / 2, u + 1) else (k, u)
  if k < 2 ^ mb then k else (u + mb + mxBias eb).toNat * 2 ^ mb + (k - 2 ^ mb)

/-- Steps that a magnitude takes under nearest-even rounding, or stochastic rounding with a draw (R288, R289). -/
def roundSteps (draw : Option Nat) (m : Nat) (e u : Int) : Nat :=
  match draw with
  | none => nearSteps m e u
  | some r => let (k, rem, d) := inSteps m e u; if r < rem * 2 ^ 16 / d then k + 1 else k

/-- The sign code of K1S (R285, R289). -/
def signCode (draw : Option Nat) (neg : Bool) (m : Nat) (e : Int) : Nat :=
  match draw with
  | none => b2n neg
  | some r =>
    -- ⌊((1 + c) ÷ 2) x 2^16⌋ with c clamped to -1 to 1, counted in 2^-16: floor of 2^15 + c x 2^15
    let (k, rem, _) := inSteps m e (-15)
    let k := if geFrac m e 128 then 2 ^ 15 else k
    let rem := if geFrac m e 128 then 0 else rem
    let v := if neg then 2 ^ 15 - k - (if rem = 0 then 0 else 1) else 2 ^ 15 + k
    if r < v then 0 else 1

/-- Quantise one finite FP32 value in a format with exponent X. -/
def quantElem (f : Nat) (x : Int) (draw : Option Nat) (v : Nat) : QElem :=
  if f = 0 then { code := v, val := v, sat := false }
  else if f = 1 then
    let (c, sat) := toBf16 v
    { code := c, val := c * 2 ^ 16, sat }
  else match fdec 8 23 v with
    | .fin neg m e =>
      let es := e - x
      let sat := geFrac m es (fmtBound f)
      if f = 9 then
        let c := signCode draw neg m es
        { code := c, val := fenc 8 23 (c = 1) 1 x, sat }
      else
        let top := geFrac m es (fmtLargest f)
        let u : Int := if top then -7 else gridExp f m es
        let k := if top then fmtLargest f else roundSteps draw m es u
        let g := gridExp f k u
        let n := (inSteps k u g).1
        let code := match mxBits f with
          | some (eb, mb) => (if neg then 2 ^ (eb + mb) else 0) + mxCode eb mb n g
          | none => if f = 7 then (if neg then (256 - n) % 256 else n)
            else if n = 0 then 0 else if neg then 3 else 1
        { code, val := scaled32 (elemVal f code) x, sat }
    | _ => { code := 0, val := 0, sat := false }

/-- A candidate block of a group. -/
structure Cand where
  fmt : Nat
  scale : Nat
  elems : List QElem
  deriving DecidableEq, Repr

/-- Draws of a group: 16 bits per element (R289). -/
def drawAt (d : Option (BitVec 512)) (i : Nat) : Option Nat := d.map fun d => bits d.toNat (16 * i + 15) (16 * i)

def quantGroup (a : BitVec 64) (f mu : Nat) (d : Option (BitVec 512)) (vals : List Nat) : Cand :=
  let x := scaleOf a f mu vals
  { fmt := f, scale := if f ≤ 1 then 0x7F else (x + 127).toNat
    elems := vals.mapIdx fun i v => quantElem f x (drawAt d i) v }

/-- Pack a block (R278, R279): flags PROMOTED, SATURATED, SPECIALS. -/
def packBlk (c : Cand) (promoted saturated specials : Bool) : List Byte :=
  let h := c.scale + 256 * c.fmt + 0x1000 * b2n promoted + 0x2000 * b2n saturated + 0x4000 * b2n specials
  let w := fmtWidth c.fmt
  leBytes 2 h ++ leBytes (4 * w) (packFields (c.elems.map fun q => (w, q.code)))

/-! ## Special values (R291, R294, R295) -/

/-- A value and whether it is the NaN of an invalid block, or formed from one. -/
abbrev TVal := Nat × Bool

def capAdd (w a n : Nat) : Nat := min (2 ^ w - 1) (a + n)

/-- The counters of one group added to those of a run, each saturating at its width (R302). -/
def Stats.add (t g : Stats) : Stats :=
  { blocksIn := capAdd 48 t.blocksIn g.blocksIn, blocksOut := capAdd 48 t.blocksOut g.blocksOut
    promoted := capAdd 40 t.promoted g.promoted, steps := capAdd 40 t.steps g.steps
    ceilOver := capAdd 40 t.ceilOver g.ceilOver, saturated := capAdd 40 t.saturated g.saturated
    specials := capAdd 40 t.specials g.specials, flushed := capAdd 40 t.flushed g.flushed
    badBlocks := capAdd 32 t.badBlocks g.badBlocks
    errMax := if lt32 t.errMax.toNat g.errMax.toNat then g.errMax else t.errMax }

/-- Replace one value under `FLUSH`. -/
def flushVal (x : Nat) : Nat := if f32IsNan x then 0 else if f32Special x then (if bit x 31 then 2 ^ 31 else 0) else x

/-- Values of which some are specials that appear here: counted, but for those formed from an invalid block, and replaced
under `FLUSH`, where each counts in FLUSHED (R279, R295, R302). -/
def noteVals (flush : Bool) (l : List (TVal × Bool)) (t : Stats) : List TVal × Stats :=
  let new := l.filter fun e => e.2
  let t := { t with specials := t.specials + (new.filter fun e => !e.1.2).length }
  if flush then (l.map fun e => if e.2 then (flushVal e.1.1, e.1.2) else e.1, { t with flushed := t.flushed + new.length })
  else (l.map Prod.fst, t)

/-- Values that are read or decoded. -/
def meetVals (flush : Bool) (l : List TVal) (t : Stats) : List TVal × Stats :=
  noteVals flush (l.map fun v => (v, f32Special v.1)) t

/-- The result of an operation is a special that its operands were not: an overflow, or a NaN made of infinities. -/
def newSpecial (z x y : Nat) : Bool :=
  f32Special z && (!(f32Special x || f32Special y) || (f32IsNan z && !f32IsNan x && !f32IsNan y))

/-- One FP32 operation per element. -/
def opVals (flush : Bool) (f : Nat → Nat → Nat) (xs ys : List TVal) (t : Stats) : List TVal × Stats :=
  noteVals flush (List.zipWith (fun (x y : TVal) =>
    let z := f x.1 y.1
    ((z, x.2 || y.2), newSpecial z x.1 y.1)) xs ys) t

/-- The reduction of the arithmetic word (R293). -/
def reduceOp (a : BitVec 64) : Nat → Nat → Nat :=
  if arReduce a = 2 then max32 else if arReduce a = 3 then min32 else add32

/-- Multiply by MEAN_SCALE (R293, R320). -/
def meanVals (a : BitVec 64) (l : List TVal) (t : Stats) : List TVal × Stats :=
  if arReduce a = 1 then opVals (arFlush a) mul32 l (l.map fun _ => (arMean a, false)) t else (l, t)

/-- Bytes of one element of a storage format: 0 FP32, 1 BF16. -/
def elemSize (f : Nat) : Nat := if f = 0 then 4 else 2

/-- Elements of stored bytes. -/
def loadElems : Nat → List Byte → List Nat
  | _, [] => []
  | f, b => (List.range (b.length / elemSize f)).map fun i =>
    let v := leNat ((b.drop (elemSize f * i)).take (elemSize f))
    if f = 0 then v else v * 2 ^ 16

/-- Bytes of values in a storage format; BF16 saturations count (R296). -/
def storeElems (f : Nat) (l : List Nat) (t : Stats) : List Byte × Stats :=
  if f = 0 then (l.flatMap fun v => leBytes 4 (if f32IsNan v then f32Nan else v), t)
  else
    let c := l.map toBf16
    (c.flatMap fun v => leBytes 2 v.1, { t with saturated := t.saturated + (c.filter fun v => v.2).length })

/-! ## Transmission (R273, R294, R298, R301, R302) -/

/-- Σ of squares in ascending position order, in FP32. -/
def sumSq (l : List Nat) : Nat := l.foldl (fun t x => add32 t (mul32 x x)) 0

def Cand.errSq (c : Cand) (vals : List Nat) : Nat := sumSq (List.zipWith sub32 vals (c.elems.map fun q => q.val))

/-- FP32 2^-k. -/
def pow2neg (k : Nat) : Nat := (127 - k) * 2 ^ 23

/-- The mean magnitude of a group (R287): a sum that overflows is noted as every other value is. -/
def meanAbs (flush : Bool) (v : List TVal) (t : Stats) : Nat × Stats :=
  let taint := v.any fun x => x.2
  let abs := v.map fun x => f32Abs x.1
  let (sum, t) := (abs.drop 1).foldl (fun (x : Nat × Stats) y =>
    let r := opVals flush add32 [(x.1, taint)] [(y, false)] x.2
    ((r.1.headD (0, false)).1, r.2)) (abs.headD 0, t)
  (mul32 sum 0x3D000000, t)

/-- Climb the ladder: the candidate sent, the steps climbed, and whether CEIL_OVER counts (R301). -/
def climb (a : BitVec 64) (mu : Nat) (d : Option (BitVec 512)) (vals : List Nat) (limit : Nat) : List Nat → Cand × Nat × Bool
  | [] => (quantGroup a (arBase a) mu d vals, 0, false)
  | [f] =>
    let c := quantGroup a f mu d vals
    (c, 0, f ≠ arBase a || !le32 (c.errSq vals) limit)
  | f :: r =>
    let c := quantGroup a f mu d vals
    if le32 (c.errSq vals) limit then (c, 0, false)
    else let (c, n, o) := climb a mu d vals limit r; (c, n + 1, o)

/-- What a transmit sliver makes of a group. -/
structure Sent where
  bytes : List Byte
  resid : List Nat
  vals : List Nat
  stats : Stats
  deriving DecidableEq, Repr

/-- Note a block sent: PROMOTED, STEPS, CEIL_OVER, SATURATED, ERR_MAX (R302). -/
def Stats.sent (t : Stats) (promoted : Bool) (steps : Nat) (past : Bool) (sat : Nat) (err : Nat) : Stats :=
  { t with blocksOut := t.blocksOut + 1, promoted := t.promoted + b2n promoted, steps := t.steps + steps
           ceilOver := t.ceilOver + b2n past, saturated := t.saturated + sat
           errMax := if lt32 t.errMax.toNat err then BitVec.ofNat 32 err else t.errMax }

/-- The residuals of a group sent as `q` (R298), +0 where a position has none; a difference that overflows is noted. -/
def residVals (flush : Bool) (v : List TVal) (q : List Nat) (none_ : Nat → Bool) (t : Stats) : List Nat × Stats :=
  let r := opVals flush sub32 v (List.zipWith (fun (x : TVal) q => (if none_ x.1 then x.1 else q, false)) v q) t
  (List.zipWith (fun (x : TVal) (y : TVal) => if none_ x.1 then 0 else y.1) v r.1, r.2)

/-- Transmit one group of values after step 5 of R272; `met` says that a special was flushed from it. -/
def sendGroup (a : BitVec 64) (d : Option (BitVec 512)) (v : List TVal) (met : Bool) (t : Stats) : Sent :=
  let base := arBase a
  let fl := arFlush a
  let vals := v.map Prod.fst
  let special := !fl && vals.any f32Special
  let resid (q : List Nat) (t : Stats) : List Nat × Stats :=
    if arResid a = 0 then ([], t) else residVals fl v q (fun x => base = 0 || (!fl && f32Special x)) t
  if special then
    let f := if base = 0 then 0 else 1
    let elems := vals.map fun v => let v := if f32IsNan v then f32Nan else v; quantElem f 0 none v
    let c : Cand := { fmt := f, scale := 0x7F, elems }
    let sat := (elems.filter fun q => q.sat).length
    let (r, t) := resid (elems.map fun q => q.val) t
    { bytes := packBlk c (1 < base) (sat ≠ 0) true, resid := r, vals := elems.map fun q => q.val
      stats := t.sent (1 < base) (b2n (1 < base)) false sat 0 }
  else
    let (mu, t) := if 8 ≤ base then meanAbs fl v t else (0, t)
    let ss := sumSq vals
    let (c, steps, past) :=
      if arLog2 a = 0 || ss = 0 then (quantGroup a base mu d vals, 0, false)
      else climb a mu d vals (mul32 ss (pow2neg (arLog2 a))) ((ladder a).getD [base])
    let sat := (c.elems.filter fun q => q.sat).length
    let err := if ss = 0 then 0 else div32 (c.errSq vals) ss
    let (r, t) := resid (c.elems.map fun q => q.val) t
    { bytes := packBlk c (c.fmt ≠ base) (sat ≠ 0) met, resid := r, vals := c.elems.map fun q => q.val
      stats := t.sent (c.fmt ≠ base) steps past sat (if f32IsNan err then 0 else err) }

/-- The draws of one group from the generator of a transmit sliver, taken only where R289 rounds by them. -/
def State.drawGroup (s : State) (sliver : Nat) (a : BitVec 64) (vals : List Nat) : Option (BitVec 512) × State :=
  if arStoch a && (arFlush a || !vals.any f32Special) then
    let n := s.col.gens.get 0 sliver
    let d := packFields ((List.range 32).map fun i => (16, (Config.sliverBits s.col.genSeed sliver (n + i)).toNat))
    (some (BitVec.ofNat 512 d), { s with col := { s.col with gens := s.col.gens.set 0 sliver (n + 32) } })
  else (none, s)

/-- Reseed every generator from the Firebox TRNG; while the TRNG has failed they run on (R289). -/
def State.reseed (s : State) : State :=
  if s.fbx.trngFailed then s
  else
    let (x, s) := s.draw 64
    { s with col := { s.col with genSeed := x, gens := {} } }

/-! ## The statistics block and the flags (R302, R323) -/

/-- The 128-byte statistics block. -/
def statsBlock (t : Stats) (run ns opStall crStall wire flits : Nat) : List Byte :=
  leBytes 8 run ++ leBytes 8 t.blocksIn ++ leBytes 8 t.blocksOut ++ leBytes 8 t.promoted ++ leBytes 8 t.steps ++
  leBytes 8 t.ceilOver ++ leBytes 8 t.saturated ++ leBytes 8 t.specials ++ leBytes 8 t.flushed ++
  leBytes 4 t.badBlocks ++ leBytes 4 t.errMax.toNat ++ leBytes 8 ns ++ leBytes 8 opStall ++ leBytes 8 crStall ++
  leBytes 8 wire ++ leBytes 8 flits ++ leBytes 8 0

end Sys2Proof.Machine
end

