-- ==== Sys2Proof/Machine/Quantise.lean ====
section
/-! DEFINITION. The format commands `QUANTISE` and `DEQUANTISE` (R297 to R299, R370 to R372). -/

namespace Sys2Proof.Machine
open Sys2Proof

/-! ## The format descriptor (R371) -/

def dsArith (d : List (BitVec 64)) : BitVec 64 := d.getD 0 0
def dsSrc (d : List (BitVec 64)) : Nat := fld (d.getD 1 0) 31 0
def dsDst (d : List (BitVec 64)) : Nat := fld (d.getD 1 0) 63 32
def dsResid (d : List (BitVec 64)) : Nat := fld (d.getD 2 0) 31 0
def dsAccum (d : List (BitVec 64)) : Bool := (d.getD 2 0).getLsbD 32
def dsSrcOff (d : List (BitVec 64)) : Nat := fld (d.getD 3 0) 39 0
def dsDstOff (d : List (BitVec 64)) : Nat := fld (d.getD 4 0) 39 0
def dsResidElem (d : List (BitVec 64)) : Nat := fld (d.getD 5 0) 39 0
def dsCount (d : List (BitVec 64)) : Nat := fld (d.getD 6 0) 39 0
def dsStats (d : List (BitVec 64)) : Nat := fld (d.getD 7 0) 31 0
def dsUnit (d : List (BitVec 64)) : Nat := fld (d.getD 7 0) 63 32

/-- The eight words of 64 bytes. -/
def wordsOf (b : List Byte) : List (BitVec 64) :=
  (List.range (b.length / 8)).map fun i => BitVec.ofNat 64 (leNat ((b.drop (8 * i)).take 8))

/-- Bytes of a residual element: RESID 1 FP32, 2 BF16. -/
def residSize (r : Nat) : Nat := if r = 1 then 4 else 2

/-- The largest block any group of a `QUANTISE` could take (R372). -/
def worstBlk (a : BitVec 64) : Nat :=
  if arFlush a then fmtBytes (arCeil a) else max (fmtBytes (arCeil a)) (if arBase a = 0 then 130 else 66)

/-- The reserved bits of a descriptor are zero. -/
def dsRsvOk (d : List (BitVec 64)) : Bool :=
  fld (d.getD 2 0) 63 33 = 0 && [3, 4, 5, 6].all fun k => fld (d.getD k 0) 63 40 = 0

/-- The checks of R371 in their order. -/
def State.chkFmt (s : State) (i : Nat) (quant : Bool) (d : List (BitVec 64)) : Chk :=
  let a := dsArith d
  let n := dsCount d
  firstFail [
    chkIf (dsRsvOk d) stRsvNonzero dtDesc,
    (s.chkArith a, if s.chkArith a = 0 then 0 else dtDesc),
    chkIf (!(2 ≤ arReduce a) && ((dsResid d ≠ 0) = (arResid a ≠ 0)) &&
      (if quant then !dsAccum d && arOpnd a ≠ 2 else arResid a = 0 && !(dsStats d = 0 && dsUnit d ≠ 0)))
      stArithParam dtDesc,
    chkIf (n ≠ 0 && n % 32 = 0) stBadOperand dtDesc,
    s.chkObj i (dsSrc d) (dsSrcOff d) (if quant then n * elemSize (arOpnd a) else 0) true false dtA,
    s.chkObj i (dsDst d) (dsDstOff d) (if quant then n / 32 * worstBlk a else n * elemSize (arOut a)) (dsAccum d) true dtB,
    if arResid a = 0 then chkOk else
      s.chkObj i (dsResid d) (dsResidElem d * residSize (arResid a)) (n * residSize (arResid a)) true true dtC,
    if dsStats d = 0 then chkOk else s.chkObj i (dsStats d) (dsUnit d * 128) 128 false true dtDesc]

/-- The start check of both commands: the descriptor's own handle and its alignment (R370). -/
def State.chkFmtStart (s : State) (i : Nat) (c : Cmd) : Chk :=
  firstFail [s.chkObj i (c.f 1 31 0) (c.f 2 39 0) 64 true false dtDesc,
    chkIf (c.f 2 39 0 % 64 = 0) stBadOperand dtDesc]

/-- Hold one more object for a command, once for each it names (R90); the null handle names none. -/
def State.holdFor (s : State) (i q seq h : Nat) : State :=
  if h = 0 || (s.cmd? i q seq).any (fun c => c.held.contains (hIndex h)) then s
  else (s.objHold i (hIndex h)).modCmd i q seq fun c => { c with held := c.held ++ [hIndex h] }

/-- Read the descriptor of a started command, check it, and hold the objects it names (R371). A descriptor in host memory
arrives later. -/
def State.fmtLoad (s : State) (i q seq : Nat) : State :=
  match s.cmd? i q seq with
  | none => s
  | some c =>
    if !c.desc.isEmpty || !c.runs then s
    else match s.fetchObj i q seq (hIndex (c.f 1 31 0)) (c.f 2 39 0) 64 with
    | (.wait, s) => s
    | (.fail st _, s) => s.failCmd i q seq st dtDesc 0
    | (.got b, s) =>
      let d := wordsOf b
      let r := s.chkFmt i (c.opcode = 0x33) d
      if r.1 ≠ 0 then s.failCmd i q seq r.1 r.2 0
      else
        let s := s.modCmd i q seq fun c => { c with desc := d, hostGot := [] }
        [dsSrc d, dsDst d, dsResid d, dsStats d].foldl (fun s h => s.holdFor i q seq h) s

/-! ## Reads that poison does not end (R297) -/

/-- What a read gives: its bytes, the status of its first poisoned line (0 none); or it waits; or it fails. -/
inductive Thru where
  | got (b : List Byte) (bad : Nat)
  | wait
  | fail (st : Nat)
  deriving DecidableEq, Repr

/-- Read bytes of an HBM or hearth object, a poisoned line as all ones. -/
def State.objThrough (s : State) (i : Nat) (e : ObjEntry) : Nat → Nat → Nat → List Byte × Nat × State
  | 0, _, _ => ([], 0, s)
  | f + 1, off, n =>
    if n = 0 then ([], 0, s)
    else
      let k := min n (64 - (e.base + off) % 64)
      let (b, st, s) := s.objBytes (s.objTag i e) e 2 off k
      let (r, st', s) := s.objThrough i e f (off + k) (n - k)
      ((if st = 0 then b else List.replicate k (BitVec.allOnes 8)) ++ r, if st = 0 then st' else st, s)

/-- Read operand bytes of a command. -/
def State.readThru (s : State) (i q seq ix off len : Nat) : Thru × State :=
  let e := s.obj i ix
  if e.kind ≠ 2 then
    let (b, st, s) := s.objThrough i e (len / 64 + 2) off len
    (.got b st, s)
  else match s.fetchObj i q seq ix off len with
    | (.got b, s) => (.got b 0, s)
    | (.wait, s) => (.wait, s)
    | (.fail st _, s) => (.fail st, s)

/-! ## Ends -/

/-- Note the first failure of a format command; its statistics block follows (R372). -/
def State.fmtFail (s : State) (i q seq st dt : Nat) : State :=
  s.modCmd i q seq fun c => if c.fixed = 0 then { c with fixed := st + 256 * dt } else c

/-- The status of an ending format command: its noted failure, or `DONE`, flagged for a bad block. -/
def Cmd.fmtEnd (c : Cmd) : Cmd :=
  let c := { c with flags := c.flags ||| c.stats.flags }
  if c.fixed ≠ 0 then { c.finish (c.fixed % 256) (c.fixed / 256) with done := c.done }
  else
    let c := c.finishOk c.progress (BitVec.ofNat 64 (c.wire % 2 ^ 40))
    if c.stats.badBlocks ≠ 0 then c.flag dtBadBlock else c

/-- Write the statistics block, if one is asked for, and end the command. OPERAND_STALL is a free value (log 131). -/
def State.fmtFinish (s : State) (i q seq : Nat) : State :=
  match s.cmd? i q seq with
  | none => s
  | some c =>
    let fin (s : State) : State := s.modCmd i q seq Cmd.fmtEnd
    if dsStats c.desc = 0 then fin s
    else
      let (w, s) := s.draw 64
      match s.storeObj i q seq (hIndex (dsStats c.desc)) (dsUnit c.desc * 128)
        (statsBlock c.stats 0 (s.now - c.startedAt) w.toNat 0 c.wire 0) with
      | (.wait, s) => s
      | (.done, s) => fin s
      | (.fail st _, s) => fin (s.fmtFail i q seq st dtDesc)

/-- Note a group as done: its counters, its wire bytes and whether the rest of the source is lost. -/
def State.fmtGroup (s : State) (i q seq : Nat) (t : Stats) (wire : Nat) (lost : Bool) : State :=
  s.modCmd i q seq fun c => { c with stats := t, wire := c.wire + wire, badRest := lost, progress := c.progress + 32
                                     done := c.progress + 32, hostGot := [] }

/-! ## QUANTISE -/

/-- Read the residuals of a group, +0 where the step has none. -/
def State.readResid (s : State) (i q seq : Nat) (d : List (BitVec 64)) (g : Nat) : Thru × State :=
  let r := arResid (dsArith d)
  if r = 0 then (.got [] 0, s)
  else s.readThru i q seq (hIndex (dsResid d)) ((dsResidElem d + g) * residSize r) (32 * residSize r)

/-- The values of a group before it is transmitted (steps 1 to 4 of R372). -/
def quantVals (a : BitVec 64) (src resid : List Byte) (t : Stats) : List TVal × Stats :=
  let fl := arFlush a
  let (v, t) := meetVals fl ((loadElems (arOpnd a) src).map fun x => (x, false)) t
  let (v, t) := if arResid a = 0 then (v, t) else
    let (r, t) := meetVals fl ((loadElems (arResid a - 1) resid).map fun x => (x, false)) t
    opVals fl add32 v r t
  meanVals a v t

/-- The transmit sliver that takes a group of a format command. DESIGN CHOICE (log 127): those of port 0 in turn. -/
def fmtSliver (progress : Nat) : Nat := 544 + progress / 32 % 32

/-- One group of `QUANTISE`: read, quantise, write the block and the residuals. -/
def State.quantStep (s : State) (i q seq : Nat) (c : Cmd) : Option State × State :=
  let d := c.desc
  let a := dsArith d
  let es := elemSize (arOpnd a)
  match s.readThru i q seq (hIndex (dsSrc d)) (dsSrcOff d + c.progress * es) (32 * es) with
  | (.wait, s) => (none, s)
  | (.fail st, s) => (some (s.fmtFail i q seq st dtA), s)
  | (.got src st1, s) =>
    match s.readResid i q seq d c.progress with
    | (.wait, s) => (none, s)
    | (.fail st, s) => (some (s.fmtFail i q seq st dtC), s)
    | (.got res st2, s) =>
      let (v, t) := quantVals a src res {}
      let (dr, s) := s.drawGroup (fmtSliver c.progress) a (v.map Prod.fst)
      let x := sendGroup a dr v (t.flushed ≠ 0) t
      match s.storeObj i q seq (hIndex (dsDst d)) (dsDstOff d + c.wire) x.bytes with
      | (.wait, s) => (none, s)
      | (.fail st _, s) => (some (s.fmtFail i q seq st dtB), s)
      | (.done, s) =>
        let bad (s : State) : State := if st1 ≠ 0 then s.fmtFail i q seq st1 dtA else if st2 ≠ 0 then s.fmtFail i q seq st2 dtC else s
        if arResid a = 0 then (some (bad (s.fmtGroup i q seq (c.stats.add x.stats) x.bytes.length false)), s)
        else
          let (rb, t) := storeElems (arResid a - 1) x.resid x.stats
          match s.storeObj i q seq (hIndex (dsResid d)) ((dsResidElem d + c.progress) * residSize (arResid a)) rb with
          | (.wait, s) => (none, s)
          | (.fail st _, s) => (some ((bad s).fmtFail i q seq st dtC), s)
          | (.done, s) => (some (bad (s.fmtGroup i q seq (c.stats.add t) x.bytes.length false)), s)

/-! ## DEQUANTISE -/

/-- Read one block of the source: its bytes, all ones where a line is poisoned; past a header without a length nothing
is read. -/
def State.readBlk (s : State) (i q seq : Nat) (c : Cmd) : Thru × State :=
  if c.badRest then (.got [] 0, s)
  else
    let ix := hIndex (dsSrc c.desc)
    let off := dsSrcOff c.desc + c.wire
    let size := (s.obj i ix).size
    if size < off + 2 then (.fail stObjRange, s)
    else match s.readThru i q seq ix off 2 with
    | (.got h st, s) =>
      let f := hdrFmt h
      let n := fmtBytes f
      if st ≠ 0 || 10 ≤ f then (.got (h.map fun b => if st = 0 then b else BitVec.allOnes 8) st, s)
      else if size < off + n then (.fail stObjRange, s)
      else match s.readThru i q seq ix (off + 2) (n - 2) with
      | (.got b st, s) => (.got (if st = 0 then h ++ b else List.replicate n (BitVec.allOnes 8)) st, s)
      | r => r
    | r => r

/-- The values of a block before they are written back (R372), the operand added under ACCUM. -/
def State.dequantVals (s : State) (a : BitVec 64) (blk acc : List Byte) (accum : Bool) (t : Stats) : List TVal × Stats :=
  let fl := arFlush a
  let b := s.decodeBlk (if blk.isEmpty then List.replicate 2 (BitVec.allOnes 8) else blk)
  let t := { t with blocksIn := t.blocksIn + 1, badBlocks := t.badBlocks + b2n !b.valid }
  let (v, t) := meetVals fl (b.vals.map fun x => (x, !b.valid)) t
  let (v, t) := if !accum then (v, t) else
    let (r, t) := meetVals fl ((loadElems (arOut a) acc).map fun x => (x, false)) t
    opVals fl add32 v r t
  meanVals a v t

/-- One group of `DEQUANTISE`. -/
def State.dequantStep (s : State) (i q seq : Nat) (c : Cmd) : Option State × State :=
  let d := c.desc
  let a := dsArith d
  let es := elemSize (arOut a)
  let off := dsDstOff d + c.progress * es
  match s.readBlk i q seq c with
  | (.wait, s) => (none, s)
  | (.fail st, s) => (some (s.fmtFail i q seq st dtA), s)
  | (.got blk st1, s) =>
    match (if dsAccum d then s.readThru i q seq (hIndex (dsDst d)) off (32 * es) else (.got [] 0, s)) with
    | (.wait, s) => (none, s)
    | (.fail st, s) => (some (s.fmtFail i q seq st dtB), s)
    | (.got acc st2, s) =>
      let (v, t) := s.dequantVals a blk acc (dsAccum d) {}
      let (b, t) := storeElems (arOut a) (v.map Prod.fst) t
      match s.storeObj i q seq (hIndex (dsDst d)) off b with
      | (.wait, s) => (none, s)
      | (.fail st _, s) => (some (s.fmtFail i q seq st dtB), s)
      | (.done, s) =>
        let lost := c.badRest || 10 ≤ hdrFmt blk
        let s := s.fmtGroup i q seq (c.stats.add t) (if c.badRest || 10 ≤ hdrFmt blk then 0 else blk.length) lost
        (some (if st1 ≠ 0 then s.fmtFail i q seq st1 dtA else if st2 ≠ 0 then s.fmtFail i q seq st2 dtB else s), s)

/-! ## Meanings -/

/-- Group after group until the count is done, a group waits for the host, or one fails. -/
def State.fmtRun (i q seq : Nat) : Nat → State → State
  | 0, s => s
  | f + 1, s =>
    match s.cmd? i q seq with
    | none => s
    | some c =>
      if !c.runs then s
      else if c.desc.isEmpty then s
      else if c.fixed ≠ 0 || dsCount c.desc ≤ c.progress then s.fmtFinish i q seq
      else
        match (if c.opcode = 0x33 then s.quantStep i q seq c else s.dequantStep i q seq c) with
        | (none, s) => s
        | (some s, _) => State.fmtRun i q seq f s

/-- The work of a format command: its descriptor if it has not been read yet, then its groups. -/
def State.fmtWork (s : State) (i q seq : Nat) : State :=
  let s := s.fmtLoad i q seq
  State.fmtRun i q seq (match s.cmd? i q seq with
    | some c => dsCount c.desc / 32 + 2
    | none => 0) s

/-- `QUANTISE` (R372): reads, adds the residual, quantises and writes group after group. -/
def execQuantise (i q seq : Nat) (s : State) : Res := .next <| s.unit i q seq 0x33 fun _ s => s.fmtWork i q seq

/-- `DEQUANTISE` (R372): decodes block after block by its own header and writes the values back. -/
def execDequantise (i q seq : Nat) (s : State) : Res := .next <| s.unit i q seq 0x34 fun _ s => s.fmtWork i q seq

end Sys2Proof.Machine
end

