-- ==== Sys2Proof/Machine/Plan.lean ====
section
/-! DEFINITION. Plans: their descriptors, the checks and reservations of `PLAN_LOAD`, the demand estimate, and
`PLAN_UNLOAD` (R304 to R311). -/

namespace Sys2Proof.Machine
open Sys2Proof

/-! ## The descriptor header (R305) -/

abbrev HdrW := List (BitVec 64)
def hf (h : HdrW) (w hi lo : Nat) : Nat := fld (h.getD w 0) hi lo
def phIn (h : HdrW) : Nat := hf h 1 31 0
def phOut (h : HdrW) : Nat := hf h 1 63 32
def phResid (h : HdrW) : Nat := hf h 2 31 0
def phStats (h : HdrW) : Nat := hf h 2 63 32
def phStatsOff (h : HdrW) : Nat := hf h 3 39 0
def phSync (h : HdrW) : Nat := hf h 4 7 0
def phHome (h : HdrW) : Nat := hf h 4 20 16
/-- TIMEOUT in ns. -/
def phTimeout (h : HdrW) : Nat := (if hf h 4 15 8 = 0 then 20 else hf h 4 15 8) * ms

/-- The step reads local operands; the step has residuals. -/
def stOpnd (st : StepW) : Bool := [1, 5, 6, 7].contains (stKind st)
def stResid (st : StepW) : Bool := arResid (stArith st) ≠ 0
def stWaits (st : StepW) : Bool := (stWait st).getLsbD 21
def stSignals (st : StepW) : Bool := (stSignal st).getLsbD 21
/-- DELTA of a WAIT or SIGNAL word. -/
def gateDelta (w : BitVec 64) : BitVec 64 := BitVec.ofNat 64 (fld w 63 32)

/-- The link fields a step names. -/
def stLinks (st : StepW) : List Nat := (if stRecv st then [stRxLink st] else []) ++ (if stSend st then [stTxLink st] else [])

/-- The link whose pools serve a link field (R328). -/
def poolOf (h : HdrW) (f : Nat) : Nat := if f < 32 then f else phHome h

/-! ## Check 1: format -/

def hdrOk (lvl : Nat) (h : HdrW) : Bool :=
  hf h 0 15 0 = 1 && 1 ≤ hf h 0 19 16 && hf h 0 19 16 ≤ lvl && 1 ≤ hf h 0 30 20 && hf h 0 30 20 ≤ 1024 &&
  hf h 0 63 31 = 0 && hf h 3 63 40 = 0 && phStatsOff h % 128 = 0 && hf h 4 15 8 ≤ 100 && hf h 4 63 21 = 0 &&
  [5, 6, 7].all fun k => h.getD k 0 = 0

/-- A WAIT or SIGNAL word: zero, or a fence of the plan or of the slice (R306, R326). -/
def State.gateOk (s : State) (i n : Nat) (w : BitVec 64) : Bool :=
  if !w.getLsbD 21 then w = 0
  else fld w 31 22 = 0 && (if w.getLsbD 20 then fld w 19 0 < n
    else fld w 19 0 < (s.slice i).syncSize && (s.syncObj ((s.slice i).syncObj (fld w 19 0))).kind = .fence)

/-- A field is zero where the kind does not use it. -/
def unused (used : Bool) (v : Nat) : Bool := used || v = 0

def State.stepOk (s : State) (i : Nat) (h : HdrW) (k : Nat) (st : StepW) : Bool :=
  let kd := stKind st
  (1 ≤ kd && kd ≤ 7) && !(k = 0 && stWithPrev st) &&
  !(stLastReduce st && !stOpnd st) && !(stStoreSent st && kd ≠ 6) && !(stFromOut st && !stOpnd st) &&
  unused (stRecv st) (stRxLink st) && unused (stRecv st) (stRxStream st) && unused (stRecv st) (sf st 0 51 49) &&
  unused (stSend st) (stTxLink st) && unused (stSend st) (stTxStream st) && unused (stSend st) (sf st 0 54 52) &&
  (stLinks st).all (fun f => f < 40) && 1 ≤ stShare st && stShare st ≤ 16 && stHint st ≠ 3 && sf st 0 63 57 = 0 &&
  [2, 3, 4, 5].all (fun w => sf st w 63 40 = 0) && stCount st ≠ 0 && stCount st % 32 = 0 &&
  unused (stOpnd st) (stSrcElem st) && unused (stStore st) (stDstElem st) && unused (stResid st) (stResidElem st) &&
  s.gateOk i (phSync h) (stWait st) && s.gateOk i (phSync h) (stSignal st)

/-! ## Check 2: arithmetic (R277, R307) -/

def passthrough (a : BitVec 64) : Bool :=
  arReduce a = 0 && arLog2 a = 0 && arCeil a = arBase a && arResid a = 0 && arOpnd a = 2

def kindArithOk (st : StepW) : Bool :=
  let a := stArith st
  if stOpnd st then arOpnd a ≠ 2 && !(stKind st = 7 && arResid a ≠ 0) else passthrough a

def State.stepArith (s : State) (st : StepW) : Nat :=
  if s.chkArith (stArith st) ≠ 0 then s.chkArith (stArith st) else if kindArithOk st then 0 else stPlanFormat

/-! ## Check 3: objects -/

/-- A handle that the plan names, with the rights it needs; the null handle only where no step needs the object. -/
def State.planHandle (s : State) (i h : Nat) (needed rd wr : Bool) (off len dt : Nat) : Chk :=
  if h = 0 && !needed then chkOk else s.chkObj i h off len rd wr dt

/-- The object is of HBM or hearth kind. -/
def State.planKind (s : State) (i h dt : Nat) : Chk :=
  chkIf (h = 0 || (s.obj i (hIndex h)).kind ≠ 2) stPlanObject dt

/-- RESID lies in a `SEALED` region or in a hearth range. -/
def State.residPlace (s : State) (i h : Nat) : Chk :=
  if h = 0 then chkOk
  else
    let e := s.obj i (hIndex h)
    let a := bits e.base 37 36 * 2 ^ 30 + bits e.base 35 6
    let z := bits e.base 32 6
    let n := (e.size - 1) / 64
    chkIf (if e.kind = 0 then (match s.rgnAt a with
      | some r => (s.rgn r).mode = 1 && s.rgnAt (a + n) = some r
      | none => false) else (s.hrgAt z).isSome && s.hrgAt (z + n) = s.hrgAt z) stPlanObject dtC

/-- A run of elements lies within its object. -/
def State.runIn (s : State) (i h first count size dt : Nat) : Chk :=
  chkIf ((first + count) * size ≤ (s.obj i (hIndex h)).size) stObjRange dt

/-- The element runs of a step over IN and OUT, and over RESID. -/
def State.stepRuns (s : State) (i inH outH residH : Nat) (st : StepW) : Chk :=
  let a := stArith st
  let n := stCount st
  firstFail [
    if stOpnd st then s.runIn i (if stFromOut st then outH else inH) (stSrcElem st) n (elemSize (arOpnd a))
      (if stFromOut st then dtB else dtA) else chkOk,
    if stStore st then s.runIn i outH (stDstElem st) n (elemSize (arOut a)) dtB else chkOk,
    if stResid st then s.runIn i residH (stResidElem st) n (residSize (arResid a)) dtC else chkOk]

/-- What steps need of IN and OUT. -/
def needIn (steps : List StepW) : Bool := steps.any fun st => stOpnd st && !stFromOut st
def needFrom (steps : List StepW) : Bool := steps.any stFromOut
def needOut (steps : List StepW) : Bool := steps.any fun st => stStore st || stFromOut st

/-- IN and OUT pass R92, and are of HBM or hearth kind (steps 3 of R309 and R321). -/
def State.chkInOut (s : State) (i inH outH : Nat) (steps : List StepW) (dIn dOut : Nat) : Chk :=
  firstFail [
    s.planHandle i inH (needIn steps) true false 0 0 dIn,
    s.planHandle i outH (needOut steps) (needFrom steps) true 0 0 dOut]

def State.kindInOut (s : State) (i inH outH dIn dOut : Nat) : Chk :=
  firstFail [s.planKind i inH dIn, s.planKind i outH dOut]

/-! ## Check 6: resources -/

/-- Loaded plans. -/
def State.loaded (s : State) : List (Nat × Plan) := s.col.plans.cells.filter fun e => e.2.loaded

def rxStreams (steps : List StepW) : List (Nat × Nat) := (steps.filter stRecv).map fun st => (stRxLink st, stRxStream st)
def txStreams (steps : List StepW) : List (Nat × Nat) := (steps.filter stSend).map fun st => (stTxLink st, stTxStream st)

def nodup (l : List (Nat × Nat)) : Bool := match l with
  | [] => true
  | a :: r => !r.contains a && nodup r

/-- SHARE a plan takes on a receive or transmit pool. -/
def rxShare (h : HdrW) (steps : List StepW) (pool : Nat) : Nat :=
  ((steps.filter fun st => stRecv st && poolOf h (stRxLink st) = pool).map stShare).sum
def txShare (h : HdrW) (steps : List StepW) (pool : Nat) : Nat :=
  ((steps.filter fun st => stSend st && poolOf h (stTxLink st) = pool).map stShare).sum
/-- Flits a plan's receive buffers take of a pool. -/
def rxFlits (h : HdrW) (steps : List StepW) (pool : Nat) : Nat :=
  ((steps.filter fun st => stRecv st && poolOf h (stRxLink st) = pool).map stRxBuf).sum

/-- Stream-buffer flits of a link's receive pool (R309). -/
def bufPool (mode : Nat) : Nat := [4096, 2048, 1024].getD mode 4096

/-- The distinct (slot, peer) pairs that loaded plans pin. -/
def State.pins (s : State) : List (Nat × Nat) :=
  ((s.loaded.map fun e => e.2.peers.map fun p => (e.2.dslot, p.2)).flatten).eraseDups

/-- Residual ranges of steps, as first element and end. -/
def residRanges (steps : List StepW) : List (Nat × Nat × Nat) :=
  (steps.filter stResid).map fun st => (residSize (arResid (stArith st)), stResidElem st, stResidElem st + stCount st)

/-- Two residual ranges of one object entry overlap, in bytes. -/
def rangesMeet (a b : Nat × Nat × Nat) : Bool := a.2.1 * a.1 < b.2.2 * b.1 && b.2.1 * b.1 < a.2.2 * a.1

/-- Plan slots in service: empty and not spent. -/
def State.freePlan (s : State) : Option Nat := lowest 256 fun k => let p := s.plan k; !p.loaded && !p.spent

/-- The first index of a run of `n` FREE objects of a slice, as its private fences are allocated. -/
def State.freeFences (s : State) (i n : Nat) : Option Nat :=
  let l := s.slice i
  lowest (l.syncSize + 1 - n) fun k => (List.range n).all fun j => (s.syncObj (l.syncObj (k + j))).kind = .free

/-- The peers of the global links a plan names. -/
def State.planPeers (s : State) (steps : List StepW) : List (Nat × Nat) :=
  (((steps.map stLinks).flatten.filter fun f => f < 32).eraseDups).map fun f => (f, (s.link f).peerNode)

/-- Pools a plan uses. -/
def poolsOf (h : HdrW) (steps : List StepW) : List Nat := ((steps.map stLinks).flatten.map (poolOf h)).eraseDups

/-- The table of R309, in the order of its rows. -/
def State.chkResources (s : State) (i d : Nat) (h : HdrW) (steps : List StepW) : Nat :=
  let others := s.loaded.map Prod.snd
  let sum (f : HdrW → List StepW → Nat → Nat) (p : Nat) : Nat := f h steps p + (others.map fun o => f o.header o.steps p).sum
  let pools := poolsOf h steps
  let mine := residRanges steps
  let peers := ((s.planPeers steps).map fun p => (d, p.2)).eraseDups
  if s.freePlan.isNone then stPlanNoSlot
  else if !nodup (rxStreams steps) || (rxStreams steps).any (fun x => others.any fun o => (rxStreams o.steps).contains x) then
    stPlanStreamBusy
  else if !nodup (txStreams steps) || (txStreams steps).any (fun x => others.any fun o => (txStreams o.steps).contains x) then
    stPlanStreamBusy
  else if others.any (fun o => o.slice = i && o.objs.getD 2 0 = hIndex (phResid h) + 1 &&
      (residRanges o.steps).any fun b => mine.any fun a => rangesMeet a b) then stPlanResidBusy
  else if pools.any (fun p => 16 < sum rxShare p || 16 < sum txShare p) then stPlanNoShare
  else if pools.any (fun p => bufPool (s.linkMode p) < sum rxFlits p) then stPlanNoBuffer
  else if phSync h ≠ 0 && (s.freeFences i (phSync h)).isNone then stPlanNoSync
  else if 2048 < 4 * (s.pins.length + (peers.filter fun p => !s.pins.contains p).length) then stPlanNoSession
  else 0

/-! ## The checks in order (R309) -/

/-- Step index that stands for the header and for check 6 (R358). -/
def planHdrIx : Nat := 0x7FF

/-- The first step that fails a test, with the test's answer. -/
def firstStep (f : Nat → StepW → Chk) : Nat → List StepW → Nat × Chk
  | _, [] => (planHdrIx, chkOk)
  | k, st :: r => if (f k st).1 ≠ 0 then (k, f k st) else firstStep f (k + 1) r

/-- A link field's own check (step 5 of R309). -/
def State.linkFieldUp (s : State) (h : HdrW) (f : Nat) : Bool :=
  if f < 32 then (s.link f).state = .up && (s.link f).peerNode ≠ 0
  else s.hst.present.getLsbD (f - 32) && f - 32 ≠ s.sys.hubPos.toNat && (s.link (phHome h)).state = .up

/-- Checks 1 to 6: the step index to report, and the status and detail of the first failure. -/
def State.chkPlan (s : State) (i : Nat) (h : HdrW) (steps : List StepW) : Nat × Chk :=
  let all : List (Nat × Chk) := [
    (planHdrIx, chkIf (hdrOk (s.slice i).level h) stPlanFormat dtDesc),
    firstStep (fun k st => chkIf (s.stepOk i h k st) stPlanFormat dtDesc) 0 steps,
    firstStep (fun _ st => (s.stepArith st, dtDesc)) 0 steps,
    (planHdrIx, firstFail [
      s.chkInOut i (phIn h) (phOut h) steps dtA dtB,
      s.planHandle i (phResid h) (steps.any stResid) true true 0 0 dtC,
      s.planHandle i (phStats h) false false true (phStatsOff h) 128 dtDesc,
      s.kindInOut i (phIn h) (phOut h) dtA dtB, s.planKind i (phResid h) dtC, s.residPlace i (phResid h)]),
    firstStep (fun _ st => s.stepRuns i (phIn h) (phOut h) (phResid h) st) 0 steps,
    (planHdrIx, chkIf (match s.domainOf i with
      | some d => (s.slot d).state = .live
      | none => false) stPlanDomain dtNone),
    firstStep (fun _ st => chkIf ((stLinks st).all (s.linkFieldUp h)) stPlanLink dtDesc) 0 steps,
    (planHdrIx, (s.chkResources i ((s.slice i).dslot) h steps, dtNone))]
  (all.find? fun e => e.2.1 ≠ 0).getD (planHdrIx, chkOk)

/-! ## Session pins (R309) -/

/-- Pin the pair key of one direction, deriving it if it is not cached. -/
def State.pinKey (s : State) (d : Nat) (e : BitVec 16) (src dst : Nat) : State :=
  let mine (x : Sess) : Bool := x.slot = d && x.epoch = e && x.src = src && x.dst = dst
  if s.lnk.sess.any mine then
    { s with lnk := { s.lnk with sess := s.lnk.sess.map fun x => if mine x then { x with pinned := true } else x } }
  else
    let s := s.useCell (.epochKey d e.toNat)
    match s.pairKey d e.toNat src dst with
    | some k => s.addSess d e src dst k true
    | none => s

/-- Pin both directions with a peer for the epochs a slot accepts. -/
def State.pinPeer (s : State) (d node : Nat) : State :=
  (s.slot d).rxEpochs.foldl (fun s e => (s.pinKey d e s.fab.node node).pinKey d e node s.fab.node) s

/-- Pin every peer of a slot's loaded plans. -/
def State.pinSlot (s : State) (d : Nat) : State :=
  (s.pins.filter fun p => p.1 = d).foldl (fun s p => s.pinPeer d p.2) s

/-- Release the pins that no loaded plan needs. -/
def State.unpin (s : State) : State :=
  let need := s.pins
  { s with lnk := { s.lnk with sess := s.lnk.sess.map fun x =>
    { x with pinned := x.pinned && (need.contains (x.slot, x.dst) || need.contains (x.slot, x.src)) } } }

/-! ## The demand estimate (R310) -/

/-- A non-negative fraction, numerator and denominator. -/
abbrev Frac := Nat × Nat
def Frac.min (a b : Frac) : Frac := if a.1 * b.2 ≤ b.1 * a.2 then a else b
def Frac.add (a b : Frac) : Frac :=
  let n := a.1 * b.2 + b.1 * a.2
  let d := a.2 * b.2
  let g := Nat.gcd n d
  if g = 0 then (n, d) else (n / g, d / g)

/-- Rate of a step in elements per second. -/
def State.stepRate (s : State) (h : HdrW) (steps : List StepW) (st : StepW) : Frac :=
  let rate (pool sum : Nat) : Frac :=
    let m := s.linkMode pool
    -- F x 7,424 ÷ block bytes, and A, both x SHARE ÷ S
    let r : Frac := (2952615000 * modeLanes m * 7424, 16 * fmtBytes (arBase (stArith st)))
    let a : Frac := (60800000000 * (2 * modeLanes m), 1)
    let x := Frac.min r a
    (x.1 * stShare st, x.2 * Nat.max 1 sum)
  let rx := rate (poolOf h (stRxLink st)) (rxShare h steps (poolOf h (stRxLink st)))
  let tx := rate (poolOf h (stTxLink st)) (txShare h steps (poolOf h (stTxLink st)))
  if stRecv st && stSend st then Frac.min rx tx else if stRecv st then rx else tx

/-- Bytes per second of all steps on objects of a kind. -/
def State.demand (s : State) (i : Nat) (h : HdrW) (steps : List StepW) (kind : Nat) : Frac :=
  let kindOf (hd : Nat) : Nat := (s.obj i (hIndex hd)).kind
  steps.foldl (fun t st =>
    let a := stArith st
    let r := s.stepRate h steps st
    let b := (if stOpnd st && kindOf (if stFromOut st then phOut h else phIn h) = kind then elemSize (arOpnd a) else 0) +
      (if stResid st && kindOf (phResid h) = kind then 2 * residSize (arResid a) else 0) +
      (if stStore st && kindOf (phOut h) = kind then elemSize (arOut a) else 0)
    Frac.add t (r.1 * b, r.2)) (0, 1)

/-- The demand exceeds a limit of R310. -/
def State.overDemand (s : State) (i : Nat) (h : HdrW) (steps : List StepW) : Bool :=
  let d0 := s.demand i h steps 0
  let d1 := s.demand i h steps 1
  2240000000000 * d0.2 < d0.1 || 48000000000000 * d1.2 < d1.1

/-! ## PLAN_LOAD -/

/-- The entry a handle names plus 1, 0 for the null handle. -/
def entryOf (h : Nat) : Nat := if h = 0 then 0 else hIndex h + 1

def planHandleOf (k gen : Nat) : Nat := k + 256 * gen

/-- Load a checked plan: hold its objects, take its fences, record its peers, pin their keys and reseed the generators. -/
def State.loadPlan (s : State) (i k : Nat) (h : HdrW) (steps : List StepW) : State :=
  let f0 := (s.freeFences i (phSync h)).getD 0
  let d := (s.slice i).dslot
  let objs := [phIn h, phOut h, phResid h, phStats h].map entryOf
  let p : Plan := { gen := (s.plan k).gen, loaded := true, slice := i, dslot := d, header := h, steps, objs
                    peers := s.planPeers steps, fence0 := f0, fences := phSync h }
  let s := s.setPlan k p
  let s := objs.foldl (fun s e => if e = 0 then s else s.objHold i (e - 1)) s
  let s := s.forEach (List.range (phSync h)) fun s j =>
    s.setSyncObj ((s.slice i).syncObj (f0 + j)) { kind := .fence, plan := k + 1 }
  (s.pinSlot d).reseed

/-- The start check of `PLAN_LOAD`. -/
def State.chkPlanLoad (s : State) (i : Nat) (c : Cmd) : Chk :=
  firstFail [s.chkObj i (c.f 1 31 0) (c.f 2 39 0) 64 true false dtDesc, chkIf (c.f 2 39 0 % 64 = 0) stBadOperand dtDesc]

/-- End a `PLAN_LOAD` with a failure at a step (R358). -/
def State.failLoad (s : State) (i q seq k : Nat) (r : Chk) : State :=
  (s.failCmd i q seq r.1 r.2 0).modCmd i q seq fun c => { c with result := BitVec.ofNat 64 k }

/-- Load a plan whose descriptor has been read. -/
def State.planAccept (s : State) (i q seq : Nat) (h : HdrW) (steps : List StepW) : State :=
  let (k, r) := s.chkPlan i h steps
  if r.1 ≠ 0 then s.failLoad i q seq k r
  else match s.freePlan with
  | none => s.failLoad i q seq planHdrIx (stPlanNoSlot, dtNone)
  | some p =>
    let warn := s.overDemand i h steps
    let s := s.loadPlan i p h steps
    let s := s.endCmd i q seq 0 (BitVec.ofNat 64 (planHandleOf p (s.plan p).gen + 2 ^ 32 * (s.plan p).fence0))
    if warn then s.modCmd i q seq fun c => c.flag dtPlanBwWarn else s

/-- `PLAN_LOAD` (R309): reads the descriptor, checks it and reserves what the plan needs, or nothing. -/
def execPlanLoad (i q seq : Nat) (s : State) : Res :=
  .next <| s.unit i q seq 0x30 fun c s =>
    let ix := hIndex (c.f 1 31 0)
    let off := c.f 2 39 0
    match s.fetchObj i q seq ix off 64 with
    | (.wait, s) => s
    | (.fail st _, s) => s.failLoad i q seq planHdrIx (st, dtDesc)
    | (.got b, s) =>
      let h := wordsOf b
      if !hdrOk (s.slice i).level h then s.failLoad i q seq planHdrIx (stPlanFormat, dtDesc)
      else
        let n := hf h 0 30 20
        if (s.obj i ix).size < off + 64 * (n + 1) then s.failLoad i q seq planHdrIx (stObjRange, dtDesc)
        else match s.fetchObj i q seq ix (off + 64) (64 * n) with
        | (.wait, s) => s
        | (.fail st _, s) => s.failLoad i q seq planHdrIx (st, dtDesc)
        | (.got b, s) =>
          let w := wordsOf b
          s.planAccept i q seq h ((List.range n).map fun k => (w.drop (8 * k)).take 8)

/-! ## PLAN_UNLOAD -/

/-- The slot a plan handle names for a slice (R304). -/
def State.planOf (s : State) (i h : Nat) : Option Nat :=
  let k := bits h 7 0
  let p := s.plan k
  if p.loaded && p.gen = bits h 31 8 && p.slice = i then some k else none

/-- Unload a plan: every reservation goes, its private fences are orphaned and returned, and its slot's generation rises
(R304, R311). -/
def State.unloadPlan (s : State) (k : Nat) : State :=
  let p := s.plan k
  if !p.loaded then s
  else
    let s := s.setPlan k (if p.gen = 0xFFFFFF then { gen := p.gen, spent := true } else { gen := p.gen + 1 })
    let s := p.objs.foldl (fun s e => if e = 0 then s else s.objDrop p.slice (e - 1)) s
    let s := s.forEach (List.range p.fences) fun s j => s.orphanObj ((s.slice p.slice).syncObj (p.fence0 + j)) true
    s.unpin

/-- Unload the plans that satisfy a test. -/
def State.unloadPlans (s : State) (f : Plan → Bool) : State :=
  s.forEach ((s.loaded.filter fun e => f e.2).map Prod.fst) State.unloadPlan

def State.chkPlanUnload (s : State) (i : Nat) (c : Cmd) : Chk :=
  match s.planOf i (c.f 1 31 0) with
  | none => (stPlanInvalid, dtA)
  | some k => chkIf (!(s.plan k).running) stPlanBusy dtA

/-- `PLAN_UNLOAD` (R311). -/
def execPlanUnload (i q seq : Nat) (s : State) : Res :=
  .next <| s.unit i q seq 0x32 fun c s =>
    s.endWith i q seq (s.chkPlanUnload i c) fun s => s.unloadPlan (bits (c.f 1 31 0) 7 0)

end Sys2Proof.Machine
end

