-- ==== Sys2Proof/Machine/Group.lean ====
section
/-! DEFINITION. The group of hub dies: messages to a lead, statements and composites, and what the lead forwards to its
members (R48, R54 to R61, R123, R124, R129 to R132). -/

namespace Sys2Proof.Machine
open Sys2Proof

/-- A message addressed to a lead (R59): `BUSY` until the election closes; a member that is not the lead answers an SPDM
error. -/
def State.leadMsg (s : State) (m : Mgmt) (f : State → State) : State :=
  s.domMsg m false fun s =>
    if s.hst.group = .electing then s.answer .busy
    else if !s.isLead then s.spdmError spdmUnsupported
    else f s

/-! ## Statements (R129 to R132) -/

/-- Bytes 0x000 to 0x13F of the member statement (R129). -/
def State.stmtBytes (s : State) (nonce : BitVec 256) : List Byte :=
  let flags := b2n s.sys.tamperLatch + 2 * b2n s.lc.debugOpen + 4 * b2n s.fbx.warm
  leBytes 2 1 ++ leBytes 1 1 ++ leBytes 1 1 ++ leBytes 1 s.lcCode ++ leBytes 1 flags ++ leBytes 1 s.pos ++
  leBytes 1 s.sys.pkgSize.toNat ++ leBytes 8 s.lc.serial.toNat ++
  leBytes 8 (packFields [(40, s.sys.opSeconds.toNat), (24, s.sys.powerCycles.toNat)]) ++ leBytes 32 nonce.toNat ++
  ((s.boot.digests ++ [s.lc.dFuse]).map fun d => leBytes 48 d.toNat).flatten ++
  leBytes 4 s.boot.versions.1 ++ leBytes 4 s.boot.versions.2 ++ List.replicate 16 0

/-- The member statement, signed with the alias key (R129, R130). -/
def State.memberStatement (s : State) (nonce : BitVec 256) : List Byte × State :=
  let b := s.stmtBytes nonce
  let (sig, s) := (s.useCell .aliasKey).sign .aliasKey b
  (b ++ sig, s)

/-- The site bits of a member entry (R131, R399). -/
def State.siteBits (s : State) : Nat :=
  packFields ((List.range 8).map fun n =>
    let t := s.site n
    (2, match t.state with
      | .admitted => if t.inSlot then 3 else 1
      | .failed => 2
      | .suspended => 2
      | _ => 0))

/-- A 64-byte member entry (R131). -/
def memberEntry (pos : Nat) (ok : Bool) (sites node : Nat) (digest : BitVec 384) : List Byte :=
  leBytes 1 pos ++ leBytes 1 (if ok then 1 else 2) ++ leBytes 2 sites ++ leBytes 2 node ++ List.replicate 10 0 ++
  leBytes 48 digest.toNat

/-- Every byte of a composite before its signature (R131). -/
def State.compositeBytes (s : State) (level offBits : Nat) (nonce : BitVec 256) (entries : List (List Byte)) : List Byte :=
  leBytes 2 1 ++ leBytes 1 1 ++ leBytes 1 2 ++ leBytes 1 level ++ leBytes 1 offBits ++ leBytes 2 entries.length ++
  leBytes 2 s.fab.node ++ List.replicate 6 0 ++ leBytes 32 nonce.toNat ++ entries.flatten

/-- SHA-384 of bytes as a number with digest byte 0 at bits 7:0. -/
def shaBits (b : List Byte) : BitVec 384 := BitVec.ofNat 384 (leNat (sha384 b))

/-- A statement's signature verifies against the identity certificate that comes with it (R60, R61). -/
def stmtVerified (x : MemberStmt) : Bool := x.chainOk && ecVerify x.key x.sig x.stmt
/-- The whole statement, signature included. -/
def stmtWhole (x : MemberStmt) : List Byte := x.stmt ++ sigBytes x.sig

/-- A measurement block of the DMTF format (R132). -/
def measBlock (index type : Nat) (b : List Byte) : List Byte :=
  leBytes 1 index ++ leBytes 1 1 ++ leBytes 2 (b.length + 3) ++ leBytes 1 type ++ leBytes 2 b.length ++ b

/-- Answer `MEASUREMENTS` with its blocks. -/
def State.measAnswer (s : State) (blocks : List (List Byte)) : State :=
  let r := blocks.flatten
  s.emit (.spdm 0x60 (leBytes 1 blocks.length ++ leBytes 3 r.length ++ r))

/-- Blocks of indices 1 to 7 (R132): value types immutable ROM 0, mutable firmware 1, hardware configuration 2, firmware
version 6; bit 7 marks a raw bit stream. -/
def State.measOf (s : State) (index : Nat) : Option (List Byte) :=
  let d (k : Nat) : List Byte := leBytes 48 (s.boot.digests.getD k 0).toNat
  match index with
  | 1 => some (measBlock 1 0 (d 0))
  | 2 => some (measBlock 2 1 (d 1))
  | 3 => some (measBlock 3 1 (d 2))
  | 4 => some (measBlock 4 2 (d 3))
  | 5 => some (measBlock 5 2 (leBytes 48 s.lc.dFuse.toNat))
  | 6 => some (measBlock 6 0x86 (leBytes 4 s.boot.versions.1 ++ leBytes 4 s.boot.versions.2))
  | 7 => some (measBlock 7 0x82 ((s.stmtBytes 0).drop 4 |>.take 4))
  | _ => none

/-- Value type of indices 0x10 and 0x11: a raw bit stream. DESIGN CHOICE (log 113): its low bits say freeform manifest. -/
def measRaw : Nat := 0x84

/-- No composite is being collected any more. -/
def State.dropComposite (s : State) : State :=
  { s with dom := { s.dom with stmtPending := [], stmtResults := [], stmtSites := [], stmtBy := 0, stmtNonce := 0 } }

/-- The composite of the package: every statement has arrived, or is UNVERIFIED (R60, R131); its requester is told `Busy` if
the TRNG has failed meanwhile (R130). DESIGN CHOICE (log 113): a member that returned no statement has a digest and site
bits of zero. -/
def State.finishComposite (s : State) : State :=
  if s.fbx.trngFailed then s.dropComposite.spdmError spdmBusy else
  let (own, s) := s.memberStatement s.dom.stmtNonce
  let all : List (Bool × List Byte) := (List.range (2 ^ s.sys.pkgSize.toNat)).map fun p =>
    if p = s.pos then (true, memberEntry p true s.siteBits 0 (shaBits own))
    else match s.dom.stmtResults.find? fun e => e.1 = p with
      | some e => (e.2.1, memberEntry p e.2.1 (((s.dom.stmtSites.find? fun x => x.1 = p).map Prod.snd).getD 0) 0 e.2.2)
      | none => (false, memberEntry p false 0 0 0)
  let b := s.compositeBytes 1 s.sys.pkgSize.toNat s.dom.stmtNonce (all.map Prod.snd)
  let (sig, s) := (s.useCell .groupKey).sign .groupKey b
  let s := { s with dom := { s.dom with compositeOk := all.all Prod.fst } }
  s.dropComposite.measAnswer [measBlock 0x11 measRaw (b ++ sig)]

/-- A member's statement arrives (R60); measurements that differ from those last verified raise a `MEASURE` alarm in every
`LIVE` slot (R62, R64). -/
def State.takeStatement (s : State) (x : MemberStmt) (sites : Nat) : State :=
  if !s.dom.stmtPending.contains x.pos then s
  else
    let ok := stmtVerified x
    let meas := shaBits ((x.stmt.drop 0x38).take 0xF8)
    let old := (s.dom.memberMeas.find? fun e => e.1 = x.pos).map Prod.snd
    let s := { s with dom := { s.dom with
      stmtPending := s.dom.stmtPending.filter fun p => p ≠ x.pos
      stmtResults := s.dom.stmtResults ++ [(x.pos, ok, shaBits (stmtWhole x))]
      stmtSites := s.dom.stmtSites ++ [(x.pos, sites)]
      memberMeas := if ok then (x.pos, meas) :: s.dom.memberMeas.filter fun e => e.1 ≠ x.pos else s.dom.memberMeas } }
    let s := if ok && old.isSome && old ≠ some meas then s.forEach allSlots State.measureAlarm else s
    if s.dom.stmtPending.isEmpty then s.finishComposite else s

/-- `GET_MEASUREMENTS` for the composite (R59, R60). DESIGN CHOICE (log 113): a second request while one is being collected
is answered `Busy`. -/
def State.askComposite (s : State) (nonce : BitVec 256) : State :=
  if s.hst.group = .electing then s.spdmError spdmBusy
  else if !s.isLead then s.spdmError spdmUnsupported
  else if s.fbx.trngFailed || !s.dom.stmtPending.isEmpty then s.spdmError spdmBusy
  else
    let ps := s.peers
    let s := { s with dom := { s.dom with stmtNonce := nonce, stmtPending := ps, stmtResults := [], stmtSites := []
                                          stmtBy := s.now + 10 * ms } }
    if ps.isEmpty then s.finishComposite else s.toPeers bkStatementRequest [nonce.toNat]

/-- `GET_MEASUREMENTS` (R60, R132): index 0 asks their number, 0xFF indices 1 to 7, 0x10 the member statement, 0x11 the
composite. DESIGN CHOICE (log 113): the number answered is that of the indices 0xFF gives, 7. -/
def State.measurements (s : State) (index : Nat) (nonce : BitVec 256) : State :=
  match index with
  | 0 => s.emit (.spdm 0x60 [7])
  | 0xFF => s.measAnswer ((List.range 7).filterMap fun k => s.measOf (k + 1))
  | 0x10 =>
    if s.fbx.trngFailed then s.spdmError spdmBusy
    else
      let (b, s) := s.memberStatement nonce
      s.measAnswer [measBlock 0x10 measRaw b]
  | 0x11 => s.askComposite nonce
  | k => match s.measOf k with
    | some b => s.measAnswer [b]
    | none => s.spdmError spdmInvalid

/-! ## Slots on every member (R48, R54 to R56) -/

/-- A slot number names a slot this die has (R506). -/
def State.slotCount (s : State) : Nat := fld s.boot.variant 17 11

/-- Record the session-tag conflicts a new slot makes, once per slot (R218). -/
def State.noteConflicts (s : State) : State :=
  s.forEach allSlots fun s i =>
    let p := s.slot i
    let other := (List.range i).find? fun e => (s.slot e).state ≠ .empty && s.sessTag (some e) = s.sessTag (some i)
    match other with
    | some e =>
      if p.state ≠ .empty && s.sessTag (some i) ≠ 0 && !p.tagConflict then
        (s.setSlot i { p with tagConflict := true }).record 0x72 srcStoker [(1, e), (1, i), (2, s.sessTag (some i))]
      else s
    | none => s

/-- Some non-`EMPTY` slot carries a domain ID. -/
def State.idCarried (s : State) (id : BitVec 64) : Bool := allSlots.any fun i => (s.slot i).state ≠ .empty && (s.slot i).domainId = id

/-- Open an `EMPTY` slot (R47, R48): a profile word of zero selects the default, and the admission timeout starts. -/
def State.openSlot (s : State) (i : Nat) (id : BitVec 64) (profile : BitVec 32) : State :=
  let s := s.setSlot i { domainId := id, profile := if profile = 0 then defaultProfile else profile
                         deadline := s.now + 30 * sec }
  (s.moveSlot i .admitting .domOpen).noteConflicts

/-- The Firebox loads a domain secret: no known-answer test has failed (R133). -/
def State.loadsSecrets (s : State) : Bool := !s.fbx.selftestFail

/-- Load a domain secret: PRK_DOM by Extract, and EK_0 (R109, R123). -/
def State.loadSecret (s : State) (i : Nat) (secret : List Byte) : State :=
  let s := s.cellPut (.prkDom i) none (hkdfExtract (ascii "KLY-WRH-W1 dom") secret)
  let s := s.expandCell (.epochKey i 0) (.prkDom i) (epochInfo 0) 48
  s.modSlot i fun p => { p with hasSecret := true, epoch := 0, phase := .steady, epochDue := false, holdRecorded := [] }

/-- A slot becomes `LIVE` and its lease starts (R51, R56). -/
def State.activateSlot (s : State) (i : Nat) : State :=
  (s.moveSlot i .live .activate).modSlot i fun p => { p with leaseEnd := s.now + p.leaseSecs * sec }

/-! ## Epochs (R123, R124) -/

/-- The epoch message fits the slot's phase. -/
def epochFits (p : Slot) (op : Nat) (e : BitVec 16) : Bool :=
  match op with
  | 0 => p.phase = .steady && p.epoch ≠ 0xFFFF && e = p.epoch + 1
  | 1 => p.phase = .prepared && e = p.epoch + 1
  | _ => p.phase = .switched && e = p.epoch

/-- Apply an epoch message: PREPARE derives EK_E+1 and the keys plans pin, SWITCH zeroes the transmit counters, RETIRE
destroys EK_E and its sessions (R117, R118, R123, R227, R232). -/
def State.applyEpoch (s : State) (i op : Nat) (e : BitVec 16) : State :=
  let s := s.record 0x61 srcFirebox [(1, i), (1, op), (2, e.toNat)]
  match op with
  | 0 =>
    let s := (s.useCell (.prkDom i)).expandCell (.epochKey i e.toNat) (.prkDom i) (epochInfo e.toNat) 48
    (s.modSlot i fun p => { p with phase := .prepared }).pinSlot i
  | 1 => (s.modSlot i fun p => { p with phase := .switched, epochDue := false, holdRecorded := [] }).zeroCounters i false
  | _ => (s.modSlot i fun p => { p with phase := .steady, epoch := p.epoch + 1 }).cellDrop (.epochKey i e.toNat)

/-! ## Confirmations (R55, R124) -/

/-- Wait for every other member: the message is answered at once when there is none. `kind` is 1 for a secret, 2 for an
epoch message, 3 for an activation. -/
def State.awaitPeers (s : State) (i kind : Nat) : State :=
  if s.peers.isEmpty then s.answer .ok
  else s.modSlot i fun p => { p with awaiting := kind, unconfirmed := s.peers, confirmBy := s.now + 10 * ms }

/-- A member fails to confirm: the slot is torn down on every member, and the message is answered `MEMBER_UNVERIFIED`. -/
def State.confirmFails (s : State) (i : Nat) : State := (s.toPeers bkTeardown [i]).enterTeardown i .memberUnverified

/-- A member confirms, or fails to. -/
def State.takeConfirm (s : State) (pos i : Nat) (ok : Bool) : State :=
  let p := s.slot i
  if p.awaiting = 0 || !p.unconfirmed.contains pos then s
  else if !ok then s.confirmFails i
  else
    let left := p.unconfirmed.filter fun x => x ≠ pos
    if left.isEmpty then (s.setSlot i { p with awaiting := 0, unconfirmed := [], confirmBy := 0 }).answer .ok
    else s.setSlot i { p with unconfirmed := left }

end Sys2Proof.Machine
end

