-- ==== Sys2Proof/Machine/Bridge.lean ====
section
/-! DEFINITION. Package bridges: heartbeats, the election of the lead, rejoin, and the transfers of the control class
(R48, R55, R60, R124, R257, R403 to R406). -/

namespace Sys2Proof.Machine
open Sys2Proof

/-! ## Heartbeats and hellos (R404 to R406) -/

/-- The bridge control path runs once Kindling has completed (R405). -/
def State.bridgeUp (s : State) : Bool := s.boot.phase = 4 && 2 ≤ s.rst.step

/-- The positions of the package (R41). -/
def State.positions (s : State) : Nat := 2 ^ s.sys.pkgSize.toNat

/-- The values of a hello: position, serial, PKG_SIZE, life-cycle code; then the group record of a recovered die. -/
def State.helloVals (s : State) (rejoin : Bool) : List Nat :=
  [s.pos, s.lc.serial.toNat, s.sys.pkgSize.toNat, s.lcCode] ++
  (if rejoin then [s.hst.leadPos, s.hst.leadSerial.toNat, s.hst.present.toNat] else [])

/-- `BRIDGE_HEARTBEAT_SEND`: once every 1 ms heartbeats go to the present dies from release step 5 on, and hellos while an
election or a rejoin is open. -/
def execBridgeHeartbeatSend (s : State) : Res :=
  .next <|
    if !s.bridgeUp || s.now < s.hst.beatAt + ms then s
    else
      let s := { s with hst := { s.hst with beatAt := s.now } }
      let s := if s.hst.electing then
          s.forEach ((List.range s.positions).filter fun h => h ≠ s.pos) fun s h => s.toPeer h bkHello (s.helloVals false)
        else s
      if s.rst.step < 5 then s
      else
        let s := s.forEach s.hst.rejoinWait fun s h => s.toPeer h bkHello (s.helloVals true)
        s.toPeers bkHeartbeat [s.pos]

/-- Open an election (R405). -/
def State.openElection (s : State) : State :=
  { s with hst := { s.hst with group := .electing, electing := true, electBy := s.now + 2 * sec, hellos := [] } }

/-- Something arrives from a position (R404). -/
def State.heardPos (s : State) (h : Nat) : State :=
  let s := s.heard h
  { s with hst := { s.hst with rejoinWait := s.hst.rejoinWait.filter fun x => x ≠ h } }

/-- Re-admit a recovered die (R406). -/
def State.readmitDie (s : State) (h : Nat) : State :=
  let s := { s with hst := { s.hst with
    lost := s.hst.lost &&& ~~~((1 : BitVec 8) <<< h)
    group := if h = s.hst.leadPos && s.hst.group = GroupState.leadLost then
        (if s.hst.present = BitVec.ofNat 8 (2 ^ s.positions - 1) then .formed else .partialGroup)
      else s.hst.group } }
  if s.isLead then s.toPeer h bkRoutes s.routeVals else s

/-- A hello of a recovered die matches the record (R406). -/
def State.rejoins (s : State) (h : Hello) (lead : Nat) (serial : BitVec 64) : Bool :=
  s.hst.lost.getLsbD h.pos && lead = s.hst.leadPos && serial = s.hst.leadSerial &&
  (s.hst.hellos.any fun e => e = (h.pos, h.serial, h.pkgSize, h.lc))

/-- `BRIDGE_HELLO_RECEIVE`: a hello of an election is noted; one of a recovered die re-admits it; one of a die outside the
present membership opens an election once every slot is `EMPTY`. -/
def execBridgeHelloReceive (h : Hello) (s : State) : Res :=
  .next <|
    if !s.bridgeUp || 8 ≤ h.pos || h.pos = s.pos then s
    else
      let note (s : State) : State := { s with hst := { s.hst with
        hellos := (h.pos, h.serial, h.pkgSize, h.lc) :: s.hst.hellos.filter fun e => e.1 ≠ h.pos } }
      match h.rejoin with
      | some (lead, serial, _) =>
        if s.rejoins h lead serial then (s.heardPos h.pos).readmitDie h.pos
        else if s.hst.lost.getLsbD h.pos then s else s.heardPos h.pos
      | none =>
        if s.hst.electing then note (s.heardPos h.pos)
        else if (!s.hst.present.getLsbD h.pos || s.hst.lost.getLsbD h.pos) && allSlots.all fun i => (s.slot i).state = .empty then
          note (s.openElection.heardPos h.pos)
        else s

/-- `ELECTION_CLOSE` (R405): hellos of every position have been heard, or 2 s have passed. -/
def execElectionClose (s : State) : Res :=
  .next <|
    if !s.hst.electing || (s.hst.hellos.length + 1 < s.positions && s.now < s.hst.electBy) then s
    else
      let agrees (e : Nat × BitVec 64 × Nat × Nat) : Bool := e.2.2.1 = s.sys.pkgSize.toNat && e.2.2.2 = s.lcCode && e.1 < s.positions
      let good := s.hst.hellos.filter agrees
      let bad := s.hst.hellos.filter fun e => !agrees e
      let all := (s.pos, s.lc.serial) :: good.map fun e => (e.1, e.2.1)
      let lead := all.foldl (fun (a b : Nat × BitVec 64) => if b.1 < a.1 then b else a) (s.pos, s.lc.serial)
      let present : BitVec 8 := BitVec.ofNat 8 ((all.map fun e => 2 ^ e.1).sum)
      let s := bad.foldl (fun s e => s.record 0xA1 srcStoker [(1, 1), (1, 2 ^ e.1)]) s
      let s := { s with
        hst := { s.hst with
          group := if all.length = s.positions then .formed else .partialGroup
          leadPos := lead.1, leadSerial := lead.2, present, lost := 0, hellos := good
          elections := (s.hst.elections + 1) % 2 ^ 16, electing := false
          heardAt := good.foldl (fun (t : Tbl Nat) (e : Nat × BitVec 64 × Nat × Nat) => t.set 0 e.1 s.now) s.hst.heardAt }
        dom := { s.dom with compositeOk := false } }
      s.record 0xA1 srcStoker [(1, 1), (1, present.toNat)]

/-! ## A lost die (R60, R71, R404) -/

/-- Statements that a lost die has not returned appear UNVERIFIED. -/
def State.dropStatement (s : State) (h : Nat) : State :=
  if !s.dom.stmtPending.contains h then s
  else
    let s := { s with dom := { s.dom with stmtPending := s.dom.stmtPending.filter fun p => p ≠ h } }
    if s.dom.stmtPending.isEmpty then s.finishComposite else s

/-- `BRIDGE_PEER_LOST`: nothing has arrived from a present die for 20 ms. -/
def execBridgePeerLost (pos : Nat) (s : State) : Res :=
  .next <|
    if !s.peers.contains pos || s.hst.electing || s.now < s.hst.heardAt.get 0 pos + 20 * ms then s
    else
      let s := { s with
        hst := { s.hst with lost := s.hst.lost ||| ((1 : BitVec 8) <<< pos)
                            group := if pos = s.hst.leadPos then .leadLost else s.hst.group }
        dom := { s.dom with compositeOk := false } }
      let s := s.record 0xA1 (0x50 + pos) [(1, 0), (1, 2 ^ pos)]
      let s := s.forEach (allSlots.filter fun i => (s.slot i).awaiting ≠ 0 && (s.slot i).unconfirmed.contains pos) State.confirmFails
      let s := s.dropStatement pos
      s.forEach (allSlots.filter fun i => (s.slot i).state ≠ .empty) fun s i => s.memberLost (some i) s.fab.node pos

/-! ## The control class (R48, R55, R56, R60, R124, R257, R485) -/

/-- Position of the die a transfer comes from. -/
def brPos : BrCtl → Nat
  | .heartbeat p => p
  | .demand p _ => p
  | .slotOpen p _ _ _ => p
  | .slotActivate p _ => p
  | .slotTeardown p _ => p
  | .secret p _ _ => p
  | .confirm p _ _ => p
  | .statementRequest p _ => p
  | .statement x _ => x.pos
  | .epoch p _ _ _ => p
  | .memberRoutes p _ _ => p
  | .mapGen p _ => p

/-- Confirm to the lead, or fail to. -/
def State.confirmTo (s : State) (h slot : Nat) (ok : Bool) : State := s.toPeer h bkConfirm [s.pos, slot, b2n ok]

/-- What a member does at the lead's word. It opens no slot under a domain ID one of its slots carries (R49) or while its
tamper latch is set (R68); the lead then finds that it confirms no secret. -/
def State.memberDoes (s : State) (msg : BrCtl) : State :=
  match msg with
  | .slotOpen _ i id pr =>
    if i < s.slotCount && (s.slot i).state = .empty && !s.idCarried id && !s.sys.tamperLatch then s.openSlot i id pr else s
  | .slotActivate h i =>
    if (s.slot i).state = .admitting && (s.slot i).hasSecret then (s.activateSlot i).confirmTo h i true
    else s.confirmTo h i false
  | .slotTeardown _ i => s.enterTeardown i .memberUnverified
  | .secret h i x =>
    if (s.slot i).state = .admitting && !(s.slot i).hasSecret && !s.sys.tamperLatch && x.length = 48 && s.loadsSecrets then
      (s.loadSecret i x).confirmTo h i true
    else s.confirmTo h i false
  | .epoch h i op e =>
    let p := s.slot i
    if (p.state = .live || p.state = .quarantined) && epochFits p op e then (s.applyEpoch i op e).confirmTo h i true
    else s.confirmTo h i false
  | .statementRequest h n =>
    if s.fbx.trngFailed then s
    else
      let (b, s) := s.memberStatement n
      s.toPeer h bkStatement (s.pos :: s.siteBits :: b.map BitVec.toNat)
  | .mapGen _ g => { s with fab := { s.fab with leadMapGen := g % 2 ^ 16 } }
  | .memberRoutes _ g l =>
    { s with fab := { s.fab with mapGen := g % 2 ^ 16, leadMapGen := g % 2 ^ 16
                                 mroutes := l.foldl (fun t e => t.set {} (e.1 % 256) (routeOf e.2)) {} } }
  | _ => s

/-- `BR_CTL_RECEIVE`: the lead's word to its members, and the members' answers; a die that is not present, or is lost, is
not heard. -/
def execBrCtlReceive (msg : BrCtl) (s : State) : Res :=
  .next <|
    if !s.bridgeUp || !s.peers.contains (brPos msg) then s
    else
      let s := s.heardPos (brPos msg)
      match msg with
      | .heartbeat _ => s
      | .demand h w => if s.isLead then { s with pwr := { s.pwr with demands := s.pwr.demands.set 0 h w } } else s
      | .confirm h i ok => s.takeConfirm h i ok
      | .statement x sites => s.takeStatement x sites.toNat
      | m => if brPos m = s.hst.leadPos then s.memberDoes m else s

/-- `FAB_MRDATA` (R257, R270): the lead raises MAP_GEN and gives the table to its members. -/
def State.writeMrdata (s : State) (r : Req) (v : BitVec 64) : State :=
  s.regWriteMgmt r 0xE0028 64 fun s =>
    let s := { s with fab := { s.fab with mroutes := s.fab.mroutes.set {} s.fab.mrsel (routeOf v) } }
    if s.isLead then s.giveRoutes ((s.fab.mapGen + 1) % 2 ^ 16) else s

/-- `FAB_MRDATA_WRITE`. -/
def execFabMrdataWrite (r : Req) (v : BitVec 64) (s : State) : Res := .next (s.writeMrdata r v)

end Sys2Proof.Machine
end

