-- ==== Sys2Proof/Machine/ProupMem.lean ====
section
/-! DEFINITION. The memory and seal group but for the cipher engine: `COPY`, `FILL`, `RESEAL_ZERO`, `RESEAL_FILL` and their
pages (R191 to R197, R364, R365). -/

namespace Sys2Proof.Machine
open Sys2Proof

/-! ## COPY -/

def Cmd.copyLen (c : Cmd) : Nat := c.f 3 55 40 * 2 ^ 24 + c.f 2 63 40

/-- `COPY`: both ranges, then the length (R354, R364). -/
def State.chkCopy (s : State) (i : Nat) (c : Cmd) : Chk :=
  firstFail [s.chkObj i (c.f 1 31 0) (c.f 2 39 0) c.copyLen true false dtA,
    s.chkObj i (c.f 1 63 32) (c.f 3 39 0) c.copyLen false true dtB, chkIf (c.copyLen ≠ 0) stBadOperand dtNone]

/-- Bytes from an offset of an object to the end of its line, or of its 4 KiB page for a host object. -/
def ObjEntry.unitLeft (e : ObjEntry) (off : Nat) : Nat :=
  if e.kind = 2 then 4096 - (e.base + off) % 4096 else 64 - (e.base + off) % 64

/-- The length of the next piece of a copy: up to the end of a line of both sides, or of a page where a side is a host
object. -/
def copyPiece (a b : ObjEntry) (offA offB left : Nat) : Nat :=
  if a.kind = 2 && b.kind ≠ 2 then min left (a.unitLeft offA)
  else if b.kind = 2 && a.kind ≠ 2 then min left (b.unitLeft offB)
  else min left (min (a.unitLeft offA) (b.unitLeft offB))

/-- Copy piece after piece in ascending offset until the range is done, a piece waits for the host, or one fails. -/
def State.copyRun (i q seq : Nat) : Nat → State → State
  | 0, s => s
  | f + 1, s =>
    match s.cmd? i q seq with
    | none => s
    | some c =>
      if !c.runs then s
      else
        let p := c.progress
        let len := c.copyLen
        if len ≤ p then s.endCmd i q seq len
        else
          let (ea, eb) := (hIndex (c.f 1 31 0), hIndex (c.f 1 63 32))
          let (oa, ob) := (c.f 2 39 0 + p, c.f 3 39 0 + p)
          let n := copyPiece (s.obj i ea) (s.obj i eb) oa ob (len - p)
          match s.fetchObj i q seq ea oa n with
          | (.wait, s) => s
          | (.fail st k, s) => s.failCmd i q seq st dtA (p + k)
          | (.got b, s) =>
            match s.storeObj i q seq eb ob b with
            | (.wait, s) => s
            | (.fail st k, s) => s.failCmd i q seq st dtB (p + k)
            | (.done, s) => State.copyRun i q seq f (s.progressCmd i q seq (p + n))

/-- `COPY` (R365). -/
def execCopy (i q seq : Nat) (s : State) : Res :=
  .next <| s.unit i q seq 0x10 fun c s => State.copyRun i q seq (c.copyLen + 1) s

/-! ## FILL -/

def Cmd.fillLen (c : Cmd) : Nat := c.f 2 47 40 * 2 ^ 32 + c.f 1 63 32

def State.chkFill (s : State) (i : Nat) (c : Cmd) : Chk :=
  firstFail [s.chkObj i (c.f 1 31 0) (c.f 2 39 0) c.fillLen false true dtA, chkIf (c.fillLen ≠ 0) stBadOperand dtNone]

/-- `n` bytes of a pattern from byte `p` of the range on (R365). -/
def patternBytes (pat : BitVec 64) (p n : Nat) : List Byte :=
  (List.range n).map fun j => BitVec.ofNat 8 (pat.toNat / 256 ^ ((p + j) % 8))

def State.fillRun (i q seq : Nat) : Nat → State → State
  | 0, s => s
  | f + 1, s =>
    match s.cmd? i q seq with
    | none => s
    | some c =>
      if !c.runs then s
      else
        let p := c.progress
        let len := c.fillLen
        if len ≤ p then s.endCmd i q seq len
        else
          let e := hIndex (c.f 1 31 0)
          let n := min (len - p) ((s.obj i e).unitLeft (c.f 2 39 0 + p))
          match s.storeObj i q seq e (c.f 2 39 0 + p) (patternBytes (c.w 3) p n) with
          | (.wait, s) => s
          | (.fail st k, s) => s.failCmd i q seq st dtA (p + k)
          | (.done, s) => State.fillRun i q seq f (s.progressCmd i q seq (p + n))

/-- `FILL` (R365). -/
def execFill (i q seq : Nat) (s : State) : Res :=
  .next <| s.unit i q seq 0x11 fun c s => State.fillRun i q seq (c.fillLen + 1) s

/-! ## Items of the counter tree that a command rebuilds -/

/-- Pages of a region that an item of a level covers: first, and one past the last. -/
def Region.pagesOf (r : Region) (level j : Nat) : Nat × Nat := (j * 8 ^ level, min r.pages ((j + 1) * 8 ^ level))

/-- An item's pages lie wholly within a range of pages. -/
def Region.within (r : Region) (level j lo hi : Nat) : Bool :=
  let (a, b) := r.pagesOf level j
  lo ≤ a && b ≤ hi

/-- The highest item on the path to a page that is `LOST` or fails its tree MAC: its level, index and whether it is
`LOST`. -/
def State.badOnPath (s : State) (ri p : Nat) : Nat → Option (Nat × Nat × Bool) × State
  | 0 => match s.itemNow ri 0 p with
    | (.lost _, s) => (some (0, p, true), s)
    | (.badMac, s) => (some (0, p, false), s)
    | (_, s) => (none, s)
  | k + 1 =>
    let j := p / 8 ^ (k + 1)
    match s.itemNow ri (k + 1) j with
    | (.lost _, s) => (some (k + 1, j, true), s)
    | (.badMac, s) => (some (k + 1, j, false), s)
    | (.ok _, s) => State.badOnPath s ri p k
    | (_, s) => (none, s)

/-- An item is verified or stands below a ZERO slot, so that a new child can be attached under it. -/
def State.itemUsable (s : State) (ri level j : Nat) : Bool × State :=
  if (s.rgn ri).depth < level then (true, s)
  else match s.itemNow ri level j with
    | (.ok _, s) => (true, s)
    | (.zero, s) => (true, State.build ri treeFuel level j s)
    | (.missing _, s) | (.lost _, s) | (.badMac, s) | (.noKey, s) => (false, s)

/-- Put a rebuilt item in place: under a usable parent it is cached and its slot cleared of LOST and ZERO; otherwise it is
written to its stack, for the parent to be rebuilt over it. -/
def State.placeItem (s : State) (ri level j : Nat) (d : Line) : State :=
  let (ok, s) := s.itemUsable ri (level + 1) (j / 8)
  if ok then
    let s := s.modParent ri level j fun l k => setZero (setFlag l k false) k false
    s.cachePut ri level j d true
  else
    let a := (s.rgn ri).itemAddr level j
    (s.setCached a none).hbmWrite a d fullMask

/-- A node made anew over the items it covers as they are stored, LOST and ZERO clear. -/
def State.nodeOver (s : State) (ri level j : Nat) : Line × State :=
  let r := s.rgn ri
  let below := if level = 1 then r.pages else (levelsOf 10 r.pages).getD (level - 2) 0
  (List.range 8).foldl (fun (x : Line × State) k =>
    let c := 8 * j + k
    if below ≤ c then (setZero x.1 k true, x.2)
    else
      let a := r.itemAddr (level - 1) c
      let (d, s) := match x.2.cached a with
        | some i => (i.data, x.2)
        | none => (x.2.msl.hbm.get 0 a, x.2.fetched .copy a)
      match s.memKey ri (r.itemKid (level - 1) c) with
      | none => (x.1, s)
      | some key => (setMac x.1 k (treeMac (macKey key) ri (level - 1) c (r.itemSgen (level - 1) c) d), s)) (0, s)

/-- Rebuild the nodes above page p that a range covers wholly and whose last page p is, from the lowest up, where they are
`LOST` or fail their MAC (step 4 of R196, step 4 of R170). -/
def State.rebuildUp (s : State) (ri p lo hi : Nat) : State :=
  let r := s.rgn ri
  (List.range r.depth).foldl (fun s k =>
    let level := k + 1
    let j := p / 8 ^ level
    if r.within level j lo hi && (r.pagesOf level j).2 = p + 1 then
      match s.itemNow ri level j with
      | (.ok _, s) => s
      | (.zero, s) => s
      | (.missing _, s) | (.lost _, s) | (.badMac, s) | (.noKey, s) =>
        let x := s.nodeOver ri level j
        x.2.placeItem ri level j x.1
    else s) s

/-! ## RESEAL_ZERO and RESEAL_FILL -/

/-- The major a reseal fixes (R191, R196). -/
def State.resealMajor (s : State) (ri : Nat) : Nat := s.hth.majorHw.get 0 (s.rgn ri).stack + 1

/-- The handle, then the order of R197. -/
def State.chkReseal (s : State) (i : Nat) (c : Cmd) : Chk × State :=
  let o := s.obj i c.resealObj
  let c1 := firstFail [s.chkObj i (c.f 1 31 0) (c.f 2 39 0) (c.resealPages * 4096) false true dtA,
    chkIf (o.kind = 0) stObjKind dtA, chkIf (c.resealPages ≠ 0 && c.f 2 39 0 % 4096 = 0) stBadOperand dtA]
  if c1.1 ≠ 0 then (c1, s)
  else
    match s.resealAt i c with
    | none => ((stRgnState, dtA), s)
    | some (ri, p) =>
      let r := s.rgn ri
      let c2 := firstFail [
        chkIf ((objLine (s.resealAddr i c) - r.line0) % 64 = 0) stBadOperand dtA,
        chkIf (ri ≠ 64 && r.mode = 1 && p + c.resealPages ≤ r.pages) stRgnState dtA,
        chkIf (o.kid = r.kid) stRgnKid dtA, chkIf (r.state = .active) stRgnState dtA]
      if c2.1 ≠ 0 then (c2, s)
      else
        let hi := p + c.resealPages
        let part (b : Option (Nat × Nat × Bool)) : Bool := match b with
          | some (k, j, _) => !r.within k j p hi
          | none => false
        let (b1, s) := s.badOnPath ri p r.depth
        let (b2, s) := s.badOnPath ri (hi - 1) r.depth
        if part b1 || part b2 then ((stResealSpan, dtA), s)
        else if 2 ^ 64 - 2 ^ 20 ≤ s.resealMajor ri then ((stRgnState, dtA), s)
        else (chkOk, s)

/-- The start of a reseal: the major it fixes is the stack's highest, and one of 2^63 or more asks for a re-key (R191,
R192, R197). -/
def State.startReseal (s : State) (i q : Nat) (c : Cmd) : State :=
  match s.resealAt i c with
  | none => s
  | some (ri, _) =>
    let m := s.resealMajor ri
    let s := s.raiseHw (s.rgn ri).stack m
    let s := if 2 ^ 63 ≤ m then (s.modRgn ri fun r => { r with rekeyDue := true }).record 0x52 srcMsl [(1, ri), (1, 0)] else s
    s.modCmd i q c.seq fun c => { c with fixed := m, rgn := ri + 1 }

/-- One page of a reseal (R196): new counters under the fixed major, the data lines of a fill, the MAC lines, and the
nodes the range covers. Requests in flight to the page end first, under its old counters; a write that would re-encrypt the
page follows once the page is done. -/
def State.resealPage (s : State) (ri p major : Nat) (fill : Option (BitVec 64)) (lo hi : Nat) : State :=
  let s := s.quietPage ri p
  let r := s.rgn ri
  match s.memKey ri r.kid with
  | none => s
  | some key =>
    let s := s.forEach (List.range 8) fun s k => s.cachePut ri 8 (8 * p + k) 0 true
    let s := match fill with
      | none => s
      | some pat => s.forEach (List.range 64) fun s u =>
          s.storeLine ri (64 * p + u) major 1 key r.sgen (lineOf (patternBytes pat 0 64))
    let cb := setMajor (if fill.isSome then (List.range 64).foldl (fun b u => setMinor b u 1) 0 else 0) major
    let s := (s.placeItem ri 0 p cb).raiseHw r.stack major
    let s := s.rebuildUp ri p lo hi
    let s := s.slots (s.arbiter r.stack (r.stackPage p)) (if fill.isSome then 73 else 9) true
    (s.reencDone (some (ri, p))).trim 64

/-- The pages left of a reseal, up to a number of them, each in its turn among the background jobs (R202). The command ends
once all are done; a KID that left `ACTIVE` ends it (R197). -/
def State.resealRun (i q seq : Nat) : Nat → State → State
  | 0, s => s
  | f + 1, s =>
    match s.cmd? i q seq with
    | none => s
    | some c =>
      if !c.runs || c.rgn = 0 then s
      else
        let ri := c.rgn - 1
        let n := c.progress
        let (lo, hi) := match s.resealAt i c with
          | some (_, p) => (p, p + c.resealPages)
          | none => (0, 0)
        let s := s.useRgn ri
        if (s.kid (s.rgn ri).kid).state ≠ .active then s.failCmd i q seq stRgnKid dtA (4096 * n)
        else if !s.bgTurn clsReseal (cmdJob i q seq) then s
        else
          let s := s.bgTaken clsReseal (cmdJob i q seq)
          let s := s.resealPage ri (lo + n) c.fixed (if c.opcode = 0x13 then some (c.w 3) else none) lo hi
          let s := s.modCmd i q seq fun c => { c with progress := n + 1, done := 4096 * (n + 1) }
          let s := s.runHbm.settleHbm.wakeHearth
          if c.resealPages ≤ n + 1 then s.endCmd i q seq (4096 * c.resealPages)
          else State.resealRun i q seq f s

/-- `RESEAL_ZERO` (R196): every page left. -/
def execResealZero (i q seq : Nat) (s : State) : Res :=
  .next <| s.unit i q seq 0x12 fun c s => State.resealRun i q seq c.resealPages s

/-- `RESEAL_FILL` (R196): every page left. -/
def execResealFill (i q seq : Nat) (s : State) : Res :=
  .next <| s.unit i q seq 0x13 fun c s => State.resealRun i q seq c.resealPages s

/-- `RESEAL_PAGE` (R196): one page of a `RESEAL_ZERO` or `RESEAL_FILL`. -/
def execResealPage (i q seq : Nat) (s : State) : Res :=
  let op := if (s.cmd? i q seq).any fun c => c.opcode = 0x12 then 0x12 else 0x13
  .next <| s.unit i q seq op fun _ s => State.resealRun i q seq 1 s

end Sys2Proof.Machine
end

