-- ==== Sys2Proof/Machine/Regions.lean ====
section
/-! DEFINITION. Assigning, releasing and re-keying sealed regions and hearth ranges: the checks and effects that the Proup
commands and the register commands share (R143, R149, R156, R167 to R171, R176, R186, R206). -/

namespace Sys2Proof.Machine
open Sys2Proof

/-! ## Assignment checks (R167, R186) -/

/-- The first rule of R167 an assignment breaks: 0 none, 1 the entry is taken, 2 a parameter, 3 an overlap, 4 the KID, 5 a
domain KID named on the register path. -/
abbrev AsgFault := Nat

/-- Fields of `MSL_RCFG` (R175) as a region entry. -/
def rgnOf (w : BitVec 64) : Region :=
  { mode := fld w 1 0, stack := fld w 3 2, base := fld w 18 4, size := fld w 34 19, kid := fld w 46 35 }

/-- Fields of `HTH_RCFG` (R205) as a range entry. -/
def hrgOf (w : BitVec 64) : HRange := { mode := fld w 1 0, base := fld w 14 2, size := fld w 27 15, kid := fld w 39 28 }

/-- Rule 4: the KID on a path; `d` is the slice's slot on the Proup path, none on the register path. -/
def State.asgKid (s : State) (mode kid : Nat) (d : Option (Option Nat)) (sealed : Bool) : AsgFault :=
  let e := s.kid kid
  let spent := sealed && 2 ^ 21 ≤ e.sgen
  match d with
  | some d => if e.state = .active && e.dvalid && some e.dslot = d && kid ≠ 0 && !spent then 0 else 4
  | none =>
    if mode = 0 then 0
    else if s.kidDomain kid then 5
    else if s.kidPlain kid && e.state = .active && !spent then 0 else 4

def Region.overlaps (a b : Region) : Bool :=
  b.state ≠ .unassigned && a.stack = b.stack && a.base < b.base + b.size && b.base < a.base + a.size

/-- Rules 2 to 4 for a region. -/
def State.asgRgn (s : State) (r : Region) (d : Option (Option Nat)) : AsgFault :=
  if r.mode = 3 || r.size = 0 || 32768 < r.size || 32768 < r.base + r.size || (r.mode = 0 && r.kid ≠ 0) ||
      (r.mode ≠ 0 && r.kid = 0) then 2
  else if s.msl.rgns.cells.any fun e => r.overlaps e.2 then 3
  else s.asgKid r.mode r.kid d (r.mode = 1)

/-- An accepted assignment (R149, R156, R167): the entry is `ACTIVE`; a sealed one takes a seal generation and its root
block has every used slot ZERO. -/
def State.assignRgn (s : State) (n : Nat) (r : Region) : State :=
  let g := (s.kid r.kid).sgen
  if r.mode = 1 then
    let r := { r with state := RgnState.active, sgen := g }
    let s := (s.setRgn n r).modKid r.kid fun e => { e with sgen := g + 1 }
    s.setRoot n ((List.range r.rootSlots).foldl (fun l k => setZero l k true) 0)
  else s.setRgn n { r with state := .active }

/-- The lowest `UNASSIGNED` region entry. -/
def State.freeRgn (s : State) : Option Nat := lowest 64 fun n => (s.rgn n).state = .unassigned

/-- Rules 2 to 4 for a hearth range (R186). -/
def HRange.overlaps (a b : HRange) : Bool := b.state ≠ .unassigned && a.base < b.base + b.size && b.base < a.base + a.size

def State.asgHrg (s : State) (r : HRange) (d : Option (Option Nat)) : AsgFault :=
  if r.mode = 1 || r.mode = 3 || r.size = 0 || 6656 < r.base + r.size || (r.mode = 0 && r.kid ≠ 0) || (r.mode ≠ 0 && r.kid = 0) then 2
  else if s.hth.rngs.cells.any fun e => r.overlaps e.2 then 3
  else s.asgKid r.mode r.kid d false

def State.freeHrg (s : State) : Option Nat := lowest 16 fun n => (s.hrg n).state = .unassigned

/-! ## Releases -/

/-- A re-key or reseal command for a region is between its start and its commit (R168, R170). -/
def State.rgnBusy (s : State) (ri : Nat) : Bool :=
  s.allCmds.any fun e => e.2.2.rgn = ri + 1 && [0x12, 0x13, 0x64].contains e.2.2.opcode

/-- The first rule of R168 a release breaks: 0 none, 1 `UNASSIGNED`, 2 the KID, 3 busy. -/
def State.relRgn (s : State) (n : Nat) (d : Option (Option Nat)) : Nat :=
  let r := s.rgn n
  if r.state = .unassigned then 1
  else if !(match d with
      | some d => let e := s.kid r.kid; r.kid ≠ 0 && e.state ≠ .free && e.dvalid && some e.dslot = d
      | none => r.kid = 0 || s.kidPlain r.kid) then 2
  else if r.state = .releasing || s.rgnBusy n then 3 else 0

/-- The release begins: new requests are held, and it ends once those in flight have completed, under the keys that served
them when they came (R168). -/
def State.releaseRgn (s : State) (n : Nat) (byReg : Bool) : State :=
  (s.modRgn n fun r => { r with state := .releasing, byReg }).settleHbm

def State.relHrg (s : State) (n : Nat) (d : Option (Option Nat)) : Nat :=
  let r := s.hrg n
  if r.state = .unassigned then 1
  else if !(match d with
      | some d => let e := s.kid r.kid; r.kid ≠ 0 && e.state ≠ .free && e.dvalid && some e.dslot = d
      | none => r.kid = 0 || s.kidPlain r.kid) then 2
  else if r.state = .releasing || r.state = .initialising then 3 else 0

def State.releaseHrg (s : State) (n : Nat) (byReg : Bool) : State :=
  (s.setHrg n { s.hrg n with state := .releasing, byReg }).settleHearth

/-! ## Zero-fill of hearth lines (R186, R69) -/

/-- Replace a run of keys of a table, keeping the canonical form. -/
def fillTbl {α : Type} [DecidableEq α] (t : Tbl α) (d : α) (lo n : Nat) (f : Nat → α) : Tbl α :=
  ⟨(t.cells.filter fun e => e.1 < lo) ++
    ((List.range n).filterMap fun k => let v := f (lo + k); if v = d then none else some (lo + k, v)) ++
    t.cells.filter fun e => lo + n ≤ e.1⟩

/-- Write `n` lines as zero under a KID, as background work of the eight gates (R186, R201). -/
def State.hearthZero (s : State) (lo n kid mode : Nat) : State :=
  let form (a : Nat) : Line := if mode = 2 then (s.hearthForm a kid 0).getD 0 else 0
  let outs := (List.range n).map fun k => Out.hearthWrite (lo + k) (form (lo + k)) (lineEcc (form (lo + k)) kid) (BitVec.allOnes 8)
  let s := gateArbs.foldl (fun s a => s.slots a (n / 8) true) s
  { s with
    hth := { s.hth with store := fillTbl s.hth.store 0 lo n form
                        ecc := fillTbl s.hth.ecc 0 lo n fun a => lineEcc (form a) kid }
    out := outs.reverse ++ s.out }

/-! ## The re-key sweep (R170, R171) -/

/-- The check of R170 at a start. -/
def State.chkRekey (s : State) (d : Option Nat) (n new : Nat) : Nat × Nat :=
  let r := s.rgn n
  let resumed := r.state = .rekeying && r.newKid = new
  let mine (k : Nat) : Bool := let e := s.kid k; k ≠ 0 && e.state = .active && e.dvalid && some e.dslot = d
  if !(r.state ≠ .unassigned && r.mode = 1 && (r.state = .active || r.state = .readonly || resumed) && !s.rgnBusy n) then
    (stRgnState, dtNone)
  else if !mine r.kid then (stRgnKid, dtNone)
  else if !(mine new && new ≠ r.kid && (resumed || (s.kid new).sgen < 2 ^ 21)) then (stRgnKid, dtNone)
  else (0, 0)

/-- The start of a sweep, or its resumption at the watermark (R149, R170). A `READONLY` region goes on refusing writes until
the sweep completes (R192). -/
def State.startRekey (s : State) (i q seq n new : Nat) : State :=
  let r := s.rgn n
  let s := if r.state = .rekeying then s
    else
      let g := (s.kid new).sgen
      (s.setRgn n { r with state := .rekeying, keying := true, newKid := new, newSgen := g, watermark := 0 }).modKid new fun e =>
        { e with sgen := g + 1 }
  s.modCmd i q seq fun c => { c with rgn := n + 1, progress := (s.rgn n).watermark, done := 4096 * (s.rgn n).watermark }

/-- Rewrite every line of a page whose counters cannot be trusted as poisoned, under fresh MAC lines, each minor 1 (R170
step 2); the alarm is raised once for each failing item. -/
def State.sweepBad (s : State) (ri p : Nat) (alarm : Bool) : Line × State :=
  let r := s.rgn ri
  let s := if alarm then s.macAlarm ri (r.line0 + 64 * p) r.kid rowTree else s
  let s := s.forEach (List.range 8) fun s k => s.cachePut ri 8 (8 * p + k) 0 true
  ((List.range 64).foldl (fun b u => setMinor b u 1) 0, s.forEach (List.range 64) fun s u => s.poisonLine ri (64 * p + u))

/-- Rewrite one line under the new key; a line that fails its check is rewritten poisoned (R170 step 2). -/
def State.sweepLine (s : State) (ri i : Nat) (key : List Byte) (cb : Line) : State :=
  let x := s.checkLine .copy ri i (majorOf cb) (minorOf cb (i % 64))
  let s := (x.2.macForWrite .copy ri i).2
  match x.1 with
  | .data d => s.storeLine ri i 0 1 key (s.rgn ri).newSgen d
  | _ => s.poisonLine ri i

/-- Rewrite the written lines of a page under the new key; the counters they then have (R170 steps 2 and 3). -/
def State.sweepGood (s : State) (ri p : Nat) (key : List Byte) (cb : Line) : Line × State :=
  ((List.range 64).foldl (fun b u => if minorOf cb u = 0 then b else setMinor b u 1) 0,
   s.forEach (List.range 64) fun s u => if minorOf cb u = 0 then s else s.sweepLine ri (64 * p + u) key cb)

/-- The lines of a page, and the counter block it then has: none for a page of a `LOST` or `ZERO` subtree. -/
def State.sweepLines (s : State) (ri p : Nat) (key : List Byte) : Option Line × State :=
  let r := s.rgn ri
  let bad := s.badOnPath ri p r.depth
  let prev := if p = 0 then (none, bad.2) else bad.2.badOnPath ri (p - 1) r.depth
  let s := prev.2
  match bad.1 with
  | some (_, _, true) => (none, s)
  | some (k, j, false) =>
    let x := s.sweepBad ri p (p = j * 8 ^ k || prev.1 ≠ bad.1)
    (some x.1, x.2)
  | none =>
    match s.itemNow ri 0 p with
    | (.ok cb, s) =>
      let x := s.sweepGood ri p key cb
      (some x.1, x.2)
    | (.missing _, s) | (.zero, s) | (.lost _, s) | (.badMac, s) | (.noKey, s) => (none, s)

/-- The nodes whose last page a page is: level, index, whether it is verified, whether it fails its MAC. -/
def State.sweepNodes (s : State) (ri p : Nat) : List (Nat × Nat × Bool × Bool) × State :=
  let r := s.rgn ri
  let ends := ((List.range r.depth).map fun k => (k + 1, p / 8 ^ (k + 1))).filter fun e => (r.pagesOf e.1 e.2).2 = p + 1
  ends.foldl (fun (a : List (Nat × Nat × Bool × Bool) × State) e =>
    let x := a.2.itemNow ri e.1 e.2
    (a.1 ++ [(e.1, e.2, (match x.1 with
      | .ok _ => true
      | _ => false), decide (x.1 = .badMac))], x.2)) ([], s)

/-- A cached item of a level takes its new tree MAC: it is written again. -/
def State.redirty (s : State) (ri level j : Nat) : State :=
  match s.cached ((s.rgn ri).itemAddr level j) with
  | some c => s.cachePut ri level j c.data true
  | none => s

/-- One page of a sweep (R170): its lines under the new key, its counter block, the watermark, and the nodes whose last
page it is. Requests in flight to the page end first, under the old key; a write that would re-encrypt the page is held by the
sweep instead and follows under NEW_KID (the coincidences of R170 and R190). -/
def State.sweepPage (s : State) (ri : Nat) : State :=
  let s := s.quietPage ri (s.rgn ri).watermark
  let r := s.rgn ri
  let p := r.watermark
  match s.memKey ri r.newKid with
  | none => s
  | some key =>
    let x := s.sweepLines ri p key
    let nodes := x.2.sweepNodes ri p
    let s := nodes.2.modRgn ri fun r => { r with watermark := p + 1 }
    let s := s.forEach (List.range 8) fun s k => s.redirty ri 8 (8 * p + k)
    let s := match x.1 with
      | some cb => s.placeItem ri 0 p cb
      | none => s
    let s := nodes.1.foldl (fun s e =>
      if e.2.2.1 && (s.cached (r.itemAddr e.1 e.2.1)).isSome then s.redirty ri e.1 e.2.1
      else if e.2.2.2 then (let x := s.nodeOver ri e.1 e.2.1; x.2.placeItem ri e.1 e.2.1 x.1) else s) s
    let n := ((x.1.map fun cb => ((List.range 64).filter fun u => minorOf cb u ≠ 0).length)).getD 0
    let s := s.slots (s.arbiter r.stack (r.stackPage p)) (2 * n + 1) true
    (s.reencDone (some (ri, p))).trim 64

/-- The end of a sweep (R170): the region is under its new KID. -/
def State.endSweep (s : State) (ri : Nat) : State :=
  (s.modRgn ri fun r => { r with state := .active, kid := r.newKid, sgen := r.newSgen, newKid := 0, newSgen := 0
                                 rekeyDue := false, ro := false, keying := false }).kidSettle

end Sys2Proof.Machine
end

