-- ==== Sys2Proof/Machine/Pages.lean ====
section
/-! DEFINITION. Which requests the per-slice pages and the pages of the kernel driver admit (R72, R341, R386). -/

namespace Sys2Proof.Machine
open Sys2Proof

/-- A global page of the queue manager, the sync engine or the counters admits requests without a PASID and management
requests (R72). -/
def globalPage (r : Req) : Bool := r.mgmt || kernelReq r

/-- A request arrived over the open TDISP interface of a slice (R386). -/
def State.overIface (s : State) (i : Nat) (r : Req) : Bool := s.ifaceOpen i && r.stream = (s.slice i).stream && r.tbit

/-- A request carries the PASID of a slice that is not `FREE`. -/
def State.ownReq (s : State) (i : Nat) (r : Req) : Bool :=
  i < 2048 && !r.mgmt && (s.slice i).state ≠ .free && r.pasid = some (s.slice i).pasid

/-- A slice's page admits a write of its owner; a bound slice's only over the bound interface (R72). -/
def State.pageWrite (s : State) (i : Nat) (r : Req) : Bool := s.ownReq i r && (!(s.slice i).bound || s.overIface i r)

/-- A slice's page admits a read: of its owner, or without a PASID (R72). -/
def State.pageRead (s : State) (i : Nat) (r : Req) : Bool := i < 2048 && (s.ownReq i r || kernelReq r)

/-- Offset of a slice page of the queue manager (the slice page table before R77). -/
def slicePage (i : Nat) : Nat := 0x180000 + i * 0x100

/-- Offset of a host signal page (the table before R348). -/
def signalPage (i : Nat) : Nat := 0x300000 + i * 0x200

end Sys2Proof.Machine
end

