-- ==== Sys2Proof/Machine/Slice.lean ====
section
/-! DEFINITION. Slices: configuration, enabling and disabling, the actions of `QM_SL_CTL` and the slice reset (R73, R74, R94,
R100, R101, R106). -/

namespace Sys2Proof.Machine
open Sys2Proof

/-! ## Configuration (R73, R74) -/

def Slice.granBase (l : Slice) : Nat := fld l.cfg 32 21
def Slice.granCount (l : Slice) : Nat := fld l.cfg 45 33
def Slice.otLog2 (l : Slice) : Nat := fld l.cfg 50 46

/-- Other slices that are not `FREE`. -/
def State.otherSlices (s : State) (i : Nat) : List Slice :=
  (s.qm.slices.cells.filter fun e => e.1 ≠ i && e.2.state ≠ .free).map Prod.snd

/-- Bytes of a slice's object table. -/
def Slice.tableBytes (l : Slice) : Nat := 32 * 2 ^ l.otLog2

/-- What `ENABLE` of a `FREE` slice refuses first: 2 `BAD_PARAM`, 3 `DUP_PASID`, 4 `OVERLAP`, 5 `NO_SPACE`, 0 none. -/
def State.enableRefusal (s : State) (i : Nat) : Nat :=
  let l := s.slice i
  let o := s.otherSlices i
  if l.granCount = 0 || 4096 < l.granCount || 4096 < l.granBase + l.granCount then 2
  else if l.otLog2 < 10 || 22 < l.otLog2 then 2
  else if o.any fun x => x.pasid = l.pasid then 3
  else if o.any fun x => l.granBase < x.granBase + x.granCount && x.granBase < l.granBase + l.granCount then 4
  else if s.qm.objArea < (o.map Slice.tableBytes).sum + l.tableBytes then 5
  else 0

/-- `SLICE_ENABLE` (R74): `ENABLE` through `QM_SLCMD`. -/
def execSliceEnable (r : Req) (s : State) : Res :=
  .next <| s.regWrite r 0x100010 32 (globalPage r) fun s =>
    let i := s.qm.slsel
    let n := if (s.slice i).state ≠ .free then 1 else s.enableRefusal i
    s.modSlice i fun l => if n = 0 then { l with state := .active, pagedSince := false } else { l with refuse := n }

/-- `QM_SLCFG_WRITE` (R73, R74); the configuration stands while the slice's TDI is not `CONFIG_UNLOCKED` (R383). -/
def State.writeSlcfg (s : State) (r : Req) (v : BitVec 64) : State :=
  s.regWrite r 0x100008 64 (globalPage r) fun s =>
    s.modSlice s.qm.slsel fun l =>
      if l.state = .free && l.tdi = .unlocked then { l with cfg := v &&& BitVec.ofNat 64 (ones 50 0) } else { l with refuse := 1 }

/-- `QM_SLCFG_WRITE`. -/
def execQmSlcfgWrite (r : Req) (v : BitVec 64) (s : State) : Res := .next (s.writeSlcfg r v)

/-! ## Actions (R94, R100, R101) -/

/-- Every queue of a slice has stopped. -/
def State.allStopped (s : State) (i : Nat) : Bool := (s.queuesOf i).all fun q => (s.queue i q).state ≠ .stopping

/-- Every entry of a slice has left `REVOKED`. -/
def State.noneRevoked (s : State) (i : Nat) : Bool := (s.slice i).objs.cells.all fun e => e.2.state ≠ .revoked

/-- BUSY falls once the action is complete. -/
def State.settleRstat (s : State) (i : Nat) : State :=
  let l := s.slice i
  let done := match l.rop with
    | 1 => s.noneRevoked i
    | 2 => s.allStopped i
    | _ => l.state ≠ .resetting
  if l.rbusy && done then s.modSlice i fun l => { l with rbusy := false } else s

/-- The TDI of a slice that is disabled or reset enters `ERROR` (R383, R385). -/
def Slice.tdiError (l : Slice) : Slice := if l.tdi = .locked || l.tdi = .run then { l with tdi := .error } else l

/-- Start an action: OP, BUSY and the counts of commands it ends. -/
def State.startAction (s : State) (i op squashed : Nat) : State :=
  s.modSlice i fun l => { l with rop := op, rbusy := true, rsquashed := min squashed (2 ^ 24 - 1), raborted := 0 }

/-- The page requests outstanding for a slice are answered to nobody once it is reset (the coincidences of
13_host_chiplets.md). -/
def State.voidGroups (s : State) (i : Nat) : State :=
  { s with hst := { s.hst with groups := s.hst.groups.map fun (g : PageGroup) =>
      if g.pasid = (s.slice i).pasid then { g with void := true } else g } }

/-- Put an `ACTIVE` slice into `RESETTING`, with step 1 of its reset. -/
def State.startReset (s : State) (i : Nat) (toFree : Bool) : State :=
  let s := s.modSlice i fun l => { l.tdiError with state := .resetting, rstStep := 1, toFree }
  (s.squashSlice i dtBySlice 0).voidGroups i

/-- Step 2 of a slice reset, with the plans and windows that go with the slice, and `REVOKE_ALL` of step 3. -/
def State.resetStep2 (s : State) (i : Nat) : State :=
  let s := s.forEach (s.queuesOf i) fun s q => s.disableQueue i q
  let s := s.disarmAll fun w => w.slice = i
  let s := s.unloadPlans fun p => p.slice = i
  let s := s.closeWins fun w => w.slice = i
  (s.revokeAll i).modSlice i fun l => { l with rstStep := 3 }

/-- Steps 4 to 6. -/
def State.resetStep4 (s : State) (i : Nat) : State :=
  let s := (s.orphanSlice i true).revokeGrants fun g => g.grantee = i
  let l := s.slice i
  let s := if l.toFree then
      s.forEach ((s.ce.pages.cells.filter fun e => e.2.state ≠ .free && e.2.slice = i).map Prod.fst) fun s n => s.modCePage n CePage.freed
    else s.zeroPages fun x => x = i
  let s := if l.pagedSince then s.emit (.stopMarker l.pasid) else s
  let s := s.modSlice i fun l =>
    let l := { l with objs := {}, ctrs := {}, rstStep := 0, rbusy := l.rbusy && l.rop ≠ 3 }
    if l.toFree then { l with state := .free, toFree := false, bound := false, dslot := 0 } else { l with state := .active }
  s.kidSettle

/-- Windows of a slice that have not closed yet hold its object entries. -/
def State.winsClosing (s : State) (i : Nat) : Bool := s.fab.wins.cells.any fun e => e.2.slice = i && e.2.state ≠ .free

/-- Carry a slice reset as far as its waits allow. -/
def State.advanceReset (s : State) (i : Nat) : State :=
  let l := s.slice i
  if l.state ≠ .resetting then s
  else
    let s := if l.rstStep = 1 && s.allStopped i then s.resetStep2 i else s
    if (s.slice i).rstStep = 3 && s.inflight i = 0 && !s.winsClosing i then s.resetStep4 i else s

/-- `SLICE_RESET_ADVANCE` (R100). -/
def execSliceResetAdvance (slice : Nat) (s : State) : Res := .next <| (s.advanceReset slice).settleRstat slice

/-- `SLICE_DISABLE` (R74): `DISABLE` through `QM_SLCMD`. -/
def execSliceDisable (r : Req) (s : State) : Res :=
  .next <| s.regWrite r 0x100010 32 (globalPage r) fun s =>
    let i := s.qm.slsel
    match (s.slice i).state with
    | .free => s
    | .active => s.startReset i true
    | .resetting => s.modSlice i fun l => { l with toFree := true }

/-- `QM_SL_CTL` of a slice; its owner may write any action, the kernel driver `SQUASH_ALL` and `RESET` (R72). -/
def State.slCtl (s : State) (r : Req) (i : Nat) (kernel : Bool) (f : State → State) : State :=
  s.regWrite r (slicePage i + 0x10) 32 (s.pageWrite i r || (kernel && i < 2048 && kernelReq r)) fun s => f (s.settleRstat i)

/-- `REVOKE_ALL` (R94). -/
def execRevokeAll (r : Req) (slice : Nat) (s : State) : Res :=
  .next <| s.slCtl r slice false fun s =>
    if (s.slice slice).rbusy then s else ((s.startAction slice 1 0).revokeAll slice).kidSettle.settleRstat slice

/-- `SQUASH_ALL` (R100). -/
def execSquashAll (r : Req) (slice : Nat) (s : State) : Res :=
  .next <| s.slCtl r slice true fun s =>
    if (s.slice slice).rbusy then s
    else ((s.startAction slice 2 (s.squashable slice)).squashSlice slice dtBySlice 0).settleRstat slice

/-- `SLICE_RESET` (R100): `RESET` supersedes another action; of a `FREE` slice it has nothing to reset, and a reset that
`DISABLE` started runs on. -/
def execSliceReset (r : Req) (slice : Nat) (s : State) : Res :=
  .next <| s.slCtl r slice true fun s =>
    let l := s.slice slice
    if l.rbusy && l.rop = 3 then s
    else
      let s := s.startAction slice 3 (if l.state = .active then s.squashable slice else 0)
      (if l.state = .active then s.startReset slice false else s).settleRstat slice

/-! ## Level (R106) -/

/-- `QM_SL_LEVEL_WRITE`: LEVEL_MAX and LEVEL_MIN are both 1. -/
def execQmSlLevelWrite (r : Req) (slice : Nat) (v : BitVec 32) (s : State) : Res :=
  .next <| s.regWrite r (slicePage slice + 8) 32 (s.pageWrite slice r) fun s =>
    if !(s.queuesOf slice).isEmpty then s
    else s.modSlice slice fun l => { l with level := if bits v.toNat 3 0 = 0 then 0 else 1 }

end Sys2Proof.Machine
end

