-- ==== Sys2Proof/Machine/Domain.lean ====
section
/-! DEFINITION. Domain messages and the timeouts of slots (R46 to R71). -/

namespace Sys2Proof.Machine
open Sys2Proof

/-! ## Opening (R48 to R50, R53) -/

/-- Life cycle and debug let domains open (R53 step 2): INTEGRATOR or FIELDED, no transition past its first step, debug
neither opening nor open, and a configuration copy in use. -/
def State.domainsAllowed (s : State) : Bool :=
  (s.lcCode = 2 || s.lcCode = 3) && !s.lc.begun && !s.lc.opening && !s.lc.debugOpen && s.boot.config ≠ 0

/-- `DOM_OPEN` (R48, R53): `memberEmpty` has a bit for each slot that is `EMPTY` on every other member. -/
def execDomOpen (m : Mgmt) (domainId : BitVec 64) (profile : BitVec 32) (memberEmpty : BitVec 64) (s : State) : Res :=
  .next <| s.domMsg m false fun s =>
    if s.hst.group ≠ .electing && !s.isLead then s.spdmError spdmUnsupported
    else if s.sys.tamperLatch then s.answer .tampered
    else if !s.domainsAllowed then s.answer .lcState
    else if s.pwr.testHold then s.answer .badState
    else if s.hst.group = .electing then s.answer .busy
    else if domainId = 0 || s.idCarried domainId then s.answer .badParam
    else if !profileOk profile then s.answer .badProfile
    else
      match lowest s.slotCount fun i => (s.slot i).state = .empty && memberEmpty.getLsbD i with
      | none => s.answer .noSlot
      | some i =>
        ((s.toPeers bkOpen [i, domainId.toNat, profile.toNat]).openSlot i domainId profile).answer .ok [i]

/-! ## Higher levels (R32, R61) -/

/-- Insert a member before the first of a higher node number. -/
def insMember (x : MemberStmt) : List MemberStmt → List MemberStmt
  | [] => [x]
  | y :: r => if x.pos < y.pos then x :: y :: r else y :: insMember x r

/-- Members in ascending order of node number (R131). -/
def byNode (l : List MemberStmt) : List MemberStmt := l.foldr insMember []

/-- `DOM_GROUP_LEVEL` (R61): the next level above those formed, of the members given; its entries stand in the order of the
members' node numbers (R131). DESIGN CHOICE (log 111): the bits are judged before the members' statements, and the
requester nonce of the composite, which the message does not carry, is zero. -/
def execDomGroupLevel (m : Mgmt) (level count : Nat) (members : List MemberStmt) (s : State) : Res :=
  .next <| s.leadMsg m fun s =>
    let k := clog2 count
    let bits := s.sys.pkgSize.toNat + s.dom.levelBits
    if level ≠ s.dom.levels.length + 2 || count ≠ members.length || count = 0 then s.answer .badParam
    else if 8 < bits + k then s.answer .levelRefused
    else if s.fbx.trngFailed then s.spdmError spdmBusy
    else if !members.all stmtVerified then s.answer .memberUnverified
    else
      let entries := (byNode members).map fun x => memberEntry 0 true 0 x.pos (shaBits (stmtWhole x))
      let b := s.compositeBytes level (bits + k) 0 entries
      let (sig, s) := (s.useCell .groupKey).sign .groupKey b
      let s := { s with dom := { s.dom with levelBits := s.dom.levelBits + k, levels := s.dom.levels ++ [(level, count)] } }
      s.answer .ok ((b ++ sig).map BitVec.toNat)

/-! ## Admission (R54 to R57) -/

/-- `DOM_SECRET` (R54, R55). A lead whose Firebox uses no key (R133) fails to load it as a member does. -/
def execDomSecret (m : Mgmt) (slot : Nat) (secret : List Byte) (s : State) : Res :=
  .next <| s.leadMsg m fun s =>
    if s.sys.tamperLatch then s.answer .tampered
    else if 64 ≤ slot || secret.length ≠ 48 then s.answer .badParam
    else if (s.slot slot).state ≠ .admitting || (s.slot slot).hasSecret then s.answer .badState
    else if !s.dom.compositeOk then s.answer .memberUnverified
    else
      let s := s.toPeers bkSecret (slot :: secret.map BitVec.toNat)
      if s.loadsSecrets then (s.loadSecret slot secret).awaitPeers slot 1
      else (s.confirmFails slot).answer .memberUnverified

/-- A message for a slot while an earlier one is in progress, or for a slot number out of range (R52). -/
def State.slotMsg (s : State) (slot : Nat) (f : State → State) : State :=
  if 64 ≤ slot then s.answer .badParam
  else if (s.slot slot).awaiting ≠ 0 then s.answer .busy
  else f s

/-- `MEMBER_CONFIRM_TIMEOUT` (R55, R124): 10 ms without every confirmation. -/
def execMemberConfirmTimeout (slot : Nat) (s : State) : Res :=
  .next <|
    let p := s.slot slot
    if s.stokerRuns && p.awaiting ≠ 0 && p.confirmBy ≤ s.now then s.confirmFails slot else s

/-- The slot takes sites and slices (R57). -/
def Slot.joinable (p : Slot) : Bool := p.state = .admitting || p.state = .live

/-- `DOM_BIND_SLICE` (R57, R387). -/
def execDomBindSlice (m : Mgmt) (slot slice : Nat) (s : State) : Res :=
  .next <| s.domMsg m false fun s => s.slotMsg slot fun s =>
    let l := s.slice slice
    if 2048 ≤ slice then s.answer .badParam
    else if !(s.slot slot).joinable then s.answer .badState
    else if (l.bound && l.dslot ≠ slot) || !(l.tdi = .locked || l.tdi = .run) then s.answer .badParam
    else (s.setSlice slice { l with bound := true, dslot := slot }).answer .ok

/-- `DOM_ADD_SITE` (R57, R399): every window of the site is cleared. -/
def execDomAddSite (m : Mgmt) (slot site : Nat) (digest : BitVec 384) (s : State) : Res :=
  .next <| s.domMsg m false fun s => s.slotMsg slot fun s =>
    let t := s.site site
    if 8 ≤ site then s.answer .badParam
    else if !(s.slot slot).joinable then s.answer .badState
    else if t.inSlot && t.dslot ≠ slot then s.answer .badParam
    else if t.state ≠ .admitted || t.digest ≠ digest then s.answer .notAdmitted
    else (s.setSite site { t with inSlot := true, dslot := slot, wins := {} }).kidSettle.answer .ok

/-- `DOM_ACTIVATE` (R56): the lead moves the slot and answers `OK` once every member has confirmed that it did. DESIGN CHOICE
(log 112): a member that does not confirm within 10 ms fails the message as one does under R55. -/
def execDomActivate (m : Mgmt) (slot : Nat) (s : State) : Res :=
  .next <| s.leadMsg m fun s => s.slotMsg slot fun s =>
    let p := s.slot slot
    if p.state ≠ .admitting || !p.hasSecret then s.answer .badState
    else ((s.toPeers bkActivate [slot]).activateSlot slot).awaitPeers slot 3

/-! ## Leases and timeouts (R47, R51) -/

/-- A lease runs in `LIVE` and `QUARANTINED`. -/
def Slot.leased (p : Slot) : Bool := p.state = .live || p.state = .quarantined

/-- `DOM_LEASE` (R51). -/
def execDomLease (m : Mgmt) (slot : Nat) (s : State) : Res :=
  .next <| s.domMsg m false fun s => s.slotMsg slot fun s =>
    let p := s.slot slot
    if !p.leased then s.answer .badState
    else (s.setSlot slot { p with leaseEnd := s.now + p.leaseSecs * sec }).answer .ok

/-- `LEASE_LAPSE` (R51). -/
def execLeaseLapse (slot : Nat) (s : State) : Res :=
  .next <|
    let p := s.slot slot
    if s.stokerRuns && p.leased && p.leaseSecs ≠ 0 && p.leaseEnd ≤ s.now then s.enterTeardown slot .lease else s

/-- `ADMISSION_TIMEOUT` (R47). -/
def execAdmissionTimeout (slot : Nat) (s : State) : Res :=
  .next <|
    let p := s.slot slot
    if s.stokerRuns && p.state = .admitting && p.deadline ≤ s.now then s.enterTeardown slot .admitTimeout else s

/-- `QUARANTINE_TIMEOUT` (R47). -/
def execQuarantineTimeout (slot : Nat) (s : State) : Res :=
  .next <|
    let p := s.slot slot
    if s.stokerRuns && p.state = .quarantined && p.deadline ≤ s.now then s.enterTeardown slot .quarantineTimeout else s

/-- `DOM_RESUME` (R47, R52): the timeout wins over a resume at its end. -/
def execDomResume (m : Mgmt) (slot : Nat) (s : State) : Res :=
  .next <| s.domMsg m true fun s => s.slotMsg slot fun s =>
    let p := s.slot slot
    if p.state ≠ .quarantined || p.deadline ≤ s.now then s.answer .badState
    else (s.moveSlot slot .live .resume).answer .ok

/-- `DOM_TEARDOWN` (R47, R70): of a slot already in `TEARDOWN` it is recorded and has no other effect. -/
def execDomTeardown (m : Mgmt) (slot : Nat) (s : State) : Res :=
  .next <| s.domMsg m false fun s =>
    if 64 ≤ slot then s.answer .badParam
    else match (s.slot slot).state with
    | .empty => s.answer .badState
    | .teardown => (s.record 0x40 srcStoker [(1, slot), (1, 4), (1, 4), (1, SlotCause.domTeardown.code)]).answer .badState
    | _ => (s.enterTeardown slot .domTeardown).answer .ok

/-- `DOM_QUERY` (R52): state, domain ID, profile, cause, and the alarm counts of classes 1 to 10. -/
def execDomQuery (m : Mgmt) (slot : Nat) (s : State) : Res :=
  .next <| s.domMsg m false fun s =>
    if 64 ≤ slot then s.answer .badParam
    else
      let p := s.slot slot
      s.answer .ok ([p.state.code, p.domainId.toNat, p.profile.toNat, p.cause.code] ++
        (List.range 10).map fun k => p.alarmCounts.get 0 (k + 1))

/-! ## Alarms and tamper (R42, R43, R66, R68) -/

/-- `ALARM_ACK` (R66): acknowledges every pin-driving record numbered at or before a known number. -/
def execAlarmAck (m : Mgmt) (seq : BitVec 32) (s : State) : Res :=
  .next <| s.domMsg m true fun s =>
    if 2 ^ 31 ≤ (s.rcd.nextSeq - 1 - seq).toNat then s.answer .badParam
    else
      let s := { s with dom := { s.dom with unacked := s.dom.unacked.filter fun u => 2 ^ 31 ≤ (seq - u).toNat } }
      s.answer .ok

/-- `TAMPER_CLEAR` (R68). -/
def execTamperClear (m : Mgmt) (s : State) : Res :=
  .next <| s.domMsg m true fun s =>
    if s.sys.tamperLow then s.answer .badState
    else
      let s := s.record 0x23 srcStoker [(12, 0), (4, leafPrefix m)]
      ({ s with sys := { s.sys with tamperLatch := false } }).answer .ok

/-! ## Teardown (R69, R70) -/

/-- Step 3: the slot's `ACTIVE` KIDs enter `RETIRING`; the step ends once their flushes have made every one `COOLING` (R120). -/
def State.tdCool (s : State) (i : Nat) : State :=
  let ks := s.slotKids i
  if ks.all fun k => (s.kid k).state = .cooling then s.modSlot i fun p => { p with tdStep := 4 }
  else s.forEach (ks.filter fun k => (s.kid k).state = .active) fun s k => s.modKid k fun e => { e with state := .retiring }

/-- Each line of 2 MiB of a region takes a background slot of the arbiter of its page. -/
def State.fillSlots (s : State) (r : Region) (u : Nat) : State :=
  s.forEach (List.range 512) fun s k => s.slots (s.arbiter r.stack (r.stackPage (512 * u + k))) 64 true

/-- Write the lines of 2 MiB from a line as raw zeros: no cipher, no MAC, no counter (R69 step 4). -/
def State.rawZeros (s : State) (lo : Nat) : State :=
  let n := 32768
  let outs := (List.range n).map fun k => Out.hbmWrite ((lo + k) / 2 ^ 30) ((lo + k) % 2 ^ 30) 0 fullMask
  { s with
    msl := { s.msl with hbm := fillTbl s.msl.hbm 0 lo n fun _ => 0, hbmPoison := fillTbl s.msl.hbmPoison false lo n fun _ => false
                        stale := s.msl.stale ++ s.msl.issued.filter fun a => lo ≤ a && a < lo + n && !s.msl.stale.contains a }
    out := outs.reverse ++ s.out }

/-- Zero 2 MiB of a region. -/
def State.zeroRegion (s : State) (ri u : Nat) : State :=
  (s.rawZeros ((s.rgn ri).line0 + u * 32768)).fillSlots (s.rgn ri) u

/-- One unit of the zero-fill of a slot. -/
def State.fillOne (s : State) (i : Nat) (x : FillUnit) : State :=
  let s := s.bgTaken clsFill i
  let s := match x with
    | .region ri u => s.zeroRegion ri u
    | .range n u => let h := s.hrg n; s.hearthZero ((h.base + u) * 16384) 16384 h.kid 0
  (s.modSlot i fun p => { p with tdFill := p.tdFill + 1 }).runHbm.wakeHearth

/-- Step 4: the zero-fill, unit by unit, each in its turn among the background jobs (R69, R202). -/
def State.tdScrub (i : Nat) : Nat → State → State
  | 0, s => s
  | f + 1, s =>
    match s.fillUnit i with
    | none => s.modSlot i fun p => { p with tdStep := 5 }
    | some x => if s.bgTurn clsFill i then State.tdScrub i f (s.fillOne i x) else s

/-- Units of a slot's zero-fill. -/
def State.fillSize (s : State) (i : Nat) : Nat :=
  ((s.slotRgns i).map fun r => (s.rgn r).size).sum + ((s.slotHrgs i).map fun n => (s.hrg n).size).sum

/-- A queue context that step 5 has zeroed: it keeps its state, its commands and the ring objects it holds, which step 6
needs. It fetches and commits nothing more (`State.ctxZeroed`). -/
def Queue.zeroed (x : Queue) : Queue :=
  { state := x.state, squash := x.squash, cmds := x.cmds, ringObjs := x.ringObjs, bound := x.bound }

/-- Step 5: with SCRUB `FIRMWARE`, queue contexts, sync objects, residual buffers, translations and sessions of the slot are
zeroed; the residual buffers lie in the lines of step 4. -/
def State.tdFirmware (s : State) (i : Nat) : State :=
  let s := if !(s.slot i).scrubFw then s
    else
      let ls := s.boundSlices i
      let s := s.forEach ls fun s l => s.orphanSlice l true
      let s := s.forEach ls fun s l => s.modSlice l fun x =>
        { x with qring := {}, qcpl := {}, qparam := {}, queues := ⟨x.queues.cells.map fun e => (e.1, e.2.zeroed)⟩ }
      let pasids := ls.map fun l => (s.slice l).pasid
      { s with hst := { s.hst with xlat := s.hst.xlat.filter fun x => !pasids.contains x.pasid }
               lnk := { s.lnk with sess := s.lnk.sess.filter fun e => e.slot ≠ i } }
  s.modSlot i fun p => { p with tdStep := 6 }

/-- A queue has no command with work outstanding. -/
def Queue.quiet (x : Queue) : Bool := x.cmds.all fun c => c.stage ≠ .executing

/-- Free the tally entries of a slot (R260). -/
def State.freeTallies (s : State) (i : Nat) : State :=
  { s with fab := { s.fab with sent := s.fab.sent.filter fun e => e.1.1 ≠ i + 1
                               applied := s.fab.applied.filter fun e => e.1.1 ≠ i + 1 } }

/-- Step 6: plans go once their runs have ended (R311), quiet queues are disabled, and once every queue of the slot's slices
is, their entries of the slot's KIDs are revoked, the slot's tally entries are freed (R260), the regions and ranges become
unassigned, and slices and sites are unbound. -/
def State.tdRelease (s : State) (i : Nat) : State :=
  let ls := s.boundSlices i
  let s := s.unloadPlans fun p => ls.contains p.slice && !p.running
  let s := s.forEach ls fun s l => s.forEach (s.queuesOf l) fun s q =>
    if (s.queue l q).quiet then
      let s := s.disableQueue l q
      if (s.slot i).scrubFw then s.setQueue l q {} else s
    else s
  if !(ls.all fun l => (s.queuesOf l).isEmpty) then s
  else
    let ks := s.slotKids i
    let s := s.freeTallies i
    let s := s.forEach ls fun s l =>
      s.forEach (((s.slice l).objs.cells.filter fun e => e.2.state = .valid && ks.contains e.2.kid).map Prod.fst) fun s e => s.freeObj l e
    let s := s.forEach (s.slotRgns i) State.finishRelease
    let s := s.forEach (s.slotHrgs i) fun s n => s.setHrg n {}
    let s := s.forEach ls fun s l => s.modSlice l fun x => { x with bound := false, dslot := 0 }
    let s := s.forEach s.hst.sites.keys fun s n => s.modSite n fun t =>
      if t.inSlot && t.dslot = i then { t with inSlot := false, dslot := 0, wins := {} } else t
    s.modSlot i fun p => { p with tdStep := 7 }

/-- Step 7: once every KID of the slot is `FREE` the slot is `EMPTY`, its `LOST` marks end (R265), and Jarmir is told the
scrub result. -/
def State.tdEnd (s : State) (i : Nat) : State :=
  let s := s.kidSettle
  if !(s.slotKids i).isEmpty then s
  else
    let s := { s with fab := { s.fab with lost := s.fab.lost.filter fun p => p.1 ≠ i + 1 } }
    let s := (s.moveSlot i .empty .done).setSlot i { cause := .done }
    s.emit (.domEvent i evTeardownEnd SlotCause.done.code 0)

/-- One step of a teardown when its condition holds. -/
def State.tdOnce (s : State) (i : Nat) : State :=
  match (s.slot i).tdStep with
  | 1 => s.teardownSteps12 i
  | 3 => s.tdCool i
  | 4 => if 3 ≤ s.rst.step then State.tdScrub i (s.fillSize i + 1) s else s
  | 5 => s.tdFirmware i
  | 6 => s.tdRelease i
  | 7 => s.tdEnd i
  | _ => s

/-- `TEARDOWN_ADVANCE` (R69): the sequence moves on from the step it waits in. -/
def execTeardownAdvance (slot : Nat) (s : State) : Res :=
  .next <| if s.stokerRuns && (s.slot slot).state = .teardown then (s.tdOnce slot).wakeSlots else s

/-! ## SPDM (R58 to R60, R130) -/

/-- `GET_MEASUREMENTS` (R60, R132). -/
def execGetMeasurements (_m : Mgmt) (index : BitVec 8) (nonce : BitVec 256) (s : State) : Res :=
  .next <| s.spdmServe fun s => s.measurements index.toNat nonce

/-- `MEMBER_STATEMENT_TIMEOUT` (R60): the missing statements appear UNVERIFIED. -/
def execMemberStatementTimeout (s : State) : Res :=
  .next <| if s.stokerRuns && !s.dom.stmtPending.isEmpty && s.dom.stmtBy ≤ s.now then s.finishComposite else s

/-! ### The subset of R58. PRESUMED (log 115): the places of bits and fields are those of DMTF DSP0274 1.2; a body is what
stands behind the request or response code, its two parameter bytes first. -/

/-- Capability flags: CERT, CHAL, MEAS with signature, ENCRYPT, MAC, MUT_AUTH, KEY_EX, HBEAT and KEY_UPD. -/
def spdmCaps : Nat := 0x63D6

/-- The algorithms of the subset: ECDSA P-384, SHA-384, SHA-384 measurements, secp384r1 and AES-256-GCM. -/
def algAsym : Nat := 0x80
def algHash : Nat := 2
def algMeasHash : Nat := 4
def algDhe : Nat := 0x10
def algAead : Nat := 2

/-- The algorithm structures of an offer: type and supported algorithms of each. -/
def algStructs : Nat → List Byte → List (Nat × Nat)
  | 0, _ => []
  | _, [] => []
  | f + 1, l => (leNat (l.take 1), leNat ((l.drop 2).take 2)) :: algStructs f (l.drop (4 + 4 * (leNat ((l.drop 1).take 1) % 16)))

/-- Every algorithm of an offer is there that the subset needs. -/
def algOffered (p1 : Nat) (body : List Byte) : Bool :=
  let ext := leNat ((body.drop 24).take 1) + leNat ((body.drop 25).take 1)
  let st := algStructs p1 (body.drop (28 + 4 * ext))
  leNat ((body.drop 4).take 4) &&& algAsym ≠ 0 && leNat ((body.drop 8).take 4) &&& algHash ≠ 0 &&
  (st.any fun e => e.1 = 2 && e.2 &&& algDhe ≠ 0) && (st.any fun e => e.1 = 3 && e.2 &&& algAead ≠ 0)

/-- The answer `ALGORITHMS`: what is selected. -/
def algAnswer : List Byte :=
  let sel (ty v : Nat) : List Byte := leBytes 1 ty ++ leBytes 1 0x20 ++ leBytes 2 v
  leBytes 2 2 ++ leBytes 2 48 ++ leBytes 1 1 ++ leBytes 1 0 ++ leBytes 4 algMeasHash ++ leBytes 4 algAsym ++
  leBytes 4 algHash ++ List.replicate 16 0 ++ sel 2 algDhe ++ sel 3 algAead

/-- Certificate slots provisioned: 0 on every die, 1 on the lead (R58). -/
def State.certSlots (s : State) : List Nat := if s.isLead then [0, 1] else [0]

/-- `n` free bytes (log 3). -/
def State.drawBytes (s : State) (n : Nat) : List Byte × State :=
  let (x, s) := s.draw (8 * n)
  (leBytes n x.toNat, s)

/-- A portion of a certificate chain (`GET_CERTIFICATE`): its length, what remains, the bytes. -/
def certPortion (chain : List Byte) (off len : Nat) : Option (List Byte) :=
  if chain.length ≤ off then none
  else
    let part := (chain.drop off).take len
    some (leBytes 2 part.length ++ leBytes 2 (chain.length - off - part.length) ++ part)

/-- The digest of a slot's chain. -/
def certDigest (slot : Nat) : List Byte := sha384 (Config.certChain slot)

/-- What a supported request answers behind its code (R58), or the SPDM error it meets. What the spec states no value of is
free: sizes and times of the capabilities, chains, nonces, exchange data, and signatures over transcripts. -/
def State.spdmBody (s : State) (code p1 : Nat) (body : List Byte) : Except Nat (List Byte × State) :=
  match code with
  | 0x84 => .ok ([0, 0, 0, 1] ++ leBytes 2 0x1200, { s with dom := { s.dom with algs := false } })
  | 0xE1 =>
    let (ct, s) := s.drawBytes 1
    let (sz, s) := s.drawBytes 8
    .ok ([0, 0, 0] ++ ct ++ [0, 0] ++ leBytes 4 spdmCaps ++ sz, s)
  | 0xE3 => if algOffered p1 body then .ok (algAnswer, { s with dom := { s.dom with algs := true } }) else .error spdmInvalid
  | 0x81 => .ok ([0, if s.isLead then 3 else 1] ++ (s.certSlots.map certDigest).flatten, s)
  | 0x82 =>
    if !s.certSlots.contains p1 then .error spdmInvalid
    else match certPortion (Config.certChain p1) (leNat (body.take 2)) (leNat ((body.drop 2).take 2)) with
      | some b => .ok (leBytes 1 p1 ++ [0] ++ b, s)
      | none => .error spdmInvalid
  | 0x83 =>
    if !s.certSlots.contains p1 then .error spdmInvalid
    else if s.fbx.trngFailed then .error spdmBusy
    else
      let (n, s) := s.drawBytes 32
      let (sig, s) := s.drawBytes 96
      .ok (leBytes 1 p1 ++ [if s.isLead then 3 else 1] ++ certDigest p1 ++ n ++ leBytes 2 0 ++ sig, s)
  | 0xE4 =>
    if 4 ≤ s.dom.sessions then .error spdmSessions
    else if s.fbx.trngFailed then .error spdmBusy
    else if !s.dom.algs then .error spdmUnexpected
    else
      let (id, s) := s.drawBytes 2
      let (x, s) := s.drawBytes 128
      let (v, s) := s.drawBytes 144
      .ok ([0, 0] ++ id ++ [1, 0] ++ x ++ leBytes 2 0 ++ v, { s with dom := { s.dom with sessions := s.dom.sessions + 1 } })
  | 0xE5 => .ok ([0, 0], s)
  | 0xE8 => .ok ([0, 0], s)
  | 0xE9 => .ok ([BitVec.ofNat 8 p1, 0], s)
  | 0xEC => .ok ([0, 0], { s with dom := { s.dom with sessions := s.dom.sessions - 1 } })
  | 0xFE => .ok ([0, 0], s)
  | _ => .error spdmUnsupported

/-- `SPDM_REQUEST` (R4, R58): a request of the subset is answered with its response code; any other, one for a slot that is
not provisioned, and an offer without the algorithms of the subset, with an error. Four secure sessions may be open. -/
def execSpdmRequest (_m : Mgmt) (code param1 param2 : BitVec 8) (body : List Byte) (s : State) : Res :=
  .next <| s.spdmServe fun s =>
    if code = 0xE0 then s.measurements param2.toNat (BitVec.ofNat 256 (leNat (body.take 32)))
    else match s.spdmBody code.toNat param1.toNat body with
    | .ok (b, s) => s.emit (.spdm (code.toNat - 0x80) b)
    | .error e => s.spdmError e

end Sys2Proof.Machine
end

