-- ==== Sys2Proof/Machine/KeyCmds.lean ====
section
/-! DEFINITION. The key and domain group: KIDs, sealed regions and hearth ranges of a slot (R120 to R122, R167 to R171, R186,
R375, R376). -/

namespace Sys2Proof.Machine
open Sys2Proof

/-! ## KIDs -/

/-- The lowest FREE KID of the domain range. -/
def State.freeKid (s : State) : Option Nat :=
  (((List.range (s.fbx.kids.cells.length + 1)).map fun k => s.fbx.plainKidMax.toNat + 1 + k).find? fun k =>
    (s.kid k).state = .free).filter fun k => k < 4096

/-- The slot binds KIDs: `LIVE`, or `ADMITTING` with its secret loaded (R122). -/
def State.slotBinds (s : State) (d : Option Nat) : Bool := match d with
  | none => false
  | some d => (s.slot d).state = .live || ((s.slot d).state = .admitting && (s.slot d).hasSecret)

/-! The rules of this group are judged when a command starts (R353). DESIGN CHOICE (log 45): its unit judges them once more
before it acts, since another command may have taken a KID, an entry or a range in between; what then fails ends with the
same status. -/

/-- The rules of `KID_BIND` (R376). -/
def State.chkKidBind (s : State) (i : Nat) : Chk :=
  firstFail [chkIf (s.slotBinds (s.domainOf i)) stDomState dtNone, chkIf s.freeKid.isSome stKidNone dtNone,
    chkIf (!s.fbx.trngFailed) stNoEntropy dtNone]

/-- `KID_BIND` (R113, R122, R376). -/
def execKidBind (i q seq : Nat) (s : State) : Res :=
  .next <| s.unit i q seq 0x60 fun _ s =>
    let s := s.useCell (.prkDom ((s.domainOf i).getD 0))
    let k := s.freeKid.getD 0
    s.endWith i q seq (s.chkKidBind i) (fun s => s.bindKid k (s.domainOf i)) (BitVec.ofNat 64 k)

/-- The rule of `KID_RETIRE` (R376). -/
def State.chkKidRetire (s : State) (i : Nat) (c : Cmd) : Chk :=
  let k := c.f 1 11 0
  let e := s.kid k
  chkIf (k ≠ 0 && e.state = .active && e.dvalid && some e.dslot = s.domainOf i) stKidState dtNone

/-- `KID_RETIRE` (R120, R376). -/
def execKidRetire (i q seq : Nat) (s : State) : Res :=
  .next <| s.unit i q seq 0x61 fun c s =>
    s.endWith i q seq (s.chkKidRetire i c) fun s => s.modKid (c.f 1 11 0) fun e => { e with state := .retiring }

/-! ## Regions -/

/-- Status of an assignment's first fault (R167). -/
def asgStatus (f : AsgFault) : Nat := [0, stNoRgn, stRgnParam, stRgnOverlap, stRgnKid, stRgnKid].getD f 0

/-- The rules of `RGN_ASSIGN` (R167). -/
def State.chkRgnAssign (s : State) (i : Nat) (c : Cmd) : Chk :=
  if s.freeRgn.isNone then (stNoRgn, dtNone) else (asgStatus (s.asgRgn (rgnOf (c.w 1)) (some (s.domainOf i))), dtNone)

/-- `RGN_ASSIGN` (R156, R167, R375): the entry, its depth and its pages. -/
def execRgnAssign (i q seq : Nat) (s : State) : Res :=
  .next <| s.unit i q seq 0x62 fun c s =>
    let n := s.freeRgn.getD 0
    let r := rgnOf (c.w 1)
    s.endWith i q seq (s.chkRgnAssign i c) (fun s => s.assignRgn n r) (BitVec.ofNat 64 (n + 64 * r.depth + 512 * r.pages))

/-- Status of a release's first fault (R168). -/
def relStatus (f : Nat) : Nat := if f = 0 then 0 else if f = 2 then stRgnKid else stRgnState

/-- The rules of `RGN_RELEASE` (R168). -/
def State.chkRgnRelease (s : State) (i : Nat) (c : Cmd) : Chk :=
  (relStatus (s.relRgn (c.f 1 5 0) (some (s.domainOf i))), dtNone)

/-- `RGN_RELEASE` (R168). -/
def execRgnRelease (i q seq : Nat) (s : State) : Res :=
  .next <| s.unit i q seq 0x63 fun c s =>
    let n := c.f 1 5 0
    let r := s.chkRgnRelease i c
    if c.rgn ≠ 0 then s
    else if r.1 ≠ 0 then s.failCmd i q seq r.1 r.2 0
    else (s.modCmd i q seq fun c => { c with rgn := n + 1 }).releaseRgn n false

/-- The start check of `RESEAL_KEY` (R170). -/
def State.chkResealKey (s : State) (i : Nat) (c : Cmd) : Chk := s.chkRekey (s.domainOf i) (c.f 1 5 0) (c.f 1 17 6)

/-- Pages left of a sweep, up to a number of them, each in its turn among the background jobs (R202); a KID that leaves
`ACTIVE` stops it (R171). -/
def State.sweepRun (i q seq : Nat) : Nat → State → State
  | 0, s => s
  | f + 1, s =>
    match s.cmd? i q seq with
    | none => s
    | some c =>
      if !c.runs || c.rgn = 0 then s
      else
        let ri := c.rgn - 1
        let s := s.useRgn ri
        let r := s.rgn ri
        if (s.kid r.kid).state ≠ .active || (s.kid r.newKid).state ≠ .active then
          s.failCmd i q seq stRgnKid dtNone (4096 * r.watermark)
        else if !s.bgTurn clsReseal (cmdJob i q seq) then s
        else
          let s := (s.bgTaken clsReseal (cmdJob i q seq)).sweepPage ri
          let w := (s.rgn ri).watermark
          let s := s.modCmd i q seq fun c => { c with progress := w, done := 4096 * w }
          if r.pages ≤ w then ((s.endSweep ri).endCmd i q seq (4096 * r.pages)).runHbm.settleHbm
          else State.sweepRun i q seq f s.runHbm.settleHbm

/-- `RESEAL_KEY` (R170): every page left of its sweep. -/
def execResealKey (i q seq : Nat) (s : State) : Res :=
  .next <| s.unit i q seq 0x64 fun c s => State.sweepRun i q seq ((s.rgn (c.rgn - 1)).pages + 1) s

/-- `REKEY_SWEEP_PAGE` (R170): one page of the sweep that runs on a region. -/
def execRekeySweepPage (region : Nat) (s : State) : Res :=
  .next <| match s.allCmds.find? fun e => e.2.2.rgn = region + 1 && e.2.2.opcode = 0x64 && e.2.2.runs with
  | none => s
  | some (i, q, c) => s.unit i q c.seq 0x64 fun c s => State.sweepRun i q c.seq 1 s

/-! ## Hearth ranges -/

/-- The rules of `HRG_ASSIGN` and `HRG_RELEASE` (R186). -/
def State.chkHrgAssign (s : State) (i : Nat) (c : Cmd) : Chk :=
  if s.freeHrg.isNone then (stNoRgn, dtNone) else (asgStatus (s.asgHrg (hrgOf (c.w 1)) (some (s.domainOf i))), dtNone)
def State.chkHrgRelease (s : State) (i : Nat) (c : Cmd) : Chk :=
  (relStatus (s.relHrg (c.f 1 3 0) (some (s.domainOf i))), dtNone)

/-- `HRG_ASSIGN` (R186): the entry enters `INITIALISING`; `HEARTH_INIT_DONE` ends the command. -/
def execHrgAssign (i q seq : Nat) (s : State) : Res :=
  .next <| s.unit i q seq 0x65 fun c s =>
    let n := s.freeHrg.getD 0
    let r := s.chkHrgAssign i c
    if c.rgn ≠ 0 then s
    else if r.1 ≠ 0 then s.failCmd i q seq r.1 r.2 0
    else (s.setHrg n { hrgOf (c.w 1) with state := .initialising }).modCmd i q seq fun c => { c with rgn := n + 1 }

/-- `HRG_RELEASE` (R186). -/
def execHrgRelease (i q seq : Nat) (s : State) : Res :=
  .next <| s.unit i q seq 0x66 fun c s =>
    let n := c.f 1 3 0
    let r := s.chkHrgRelease i c
    if c.rgn ≠ 0 then s
    else if r.1 ≠ 0 then s.failCmd i q seq r.1 r.2 0
    else (s.modCmd i q seq fun c => { c with rgn := n + 1 }).releaseHrg n false

/-- Every line of a range is zero: it becomes `ACTIVE` and its assignment is answered (R186). -/
def State.initEnd (s : State) (n : Nat) : State :=
  let r := s.hrg n
  let s := s.setHrg n { r with state := .active, byReg := false }
  if r.byReg then { s with hth := { s.hth with rres := 2 } } else s.endRgnCmds 0x65 n 0 (BitVec.ofNat 64 n)

/-- One MiB of an initialisation (R186, R206): its lines are written as zero under the range's KID. -/
def State.initMib (s : State) (n : Nat) : State :=
  let r := s.hrg n
  let s := (s.bgTaken clsInit n).hearthZero ((r.base + r.initDone) * 16384) 16384 r.kid r.mode
  (s.setHrg n { r with initDone := r.initDone + 1 }).wakeHearth

/-- The MiB left of an initialisation, each in its turn among the background jobs (R202). -/
def State.initRun (n : Nat) : Nat → State → State
  | 0, s => s
  | f + 1, s =>
    if (s.hrg n).size ≤ (s.hrg n).initDone then s.initEnd n
    else if !s.bgTurn clsInit n then s
    else State.initRun n f (s.initMib n)

/-- `HEARTH_INIT_DONE` (R186, R206): the lines left of an `INITIALISING` range are written as zero under its KID, the range
becomes `ACTIVE`, and its assignment is answered. A MiB that must wait for its turn stays for another command, and
`INIT_DONE` shows how many are done. Initialisation under a key that no longer serves has stopped. -/
def execHearthInitDone (n : Nat) (s : State) : Res :=
  .next <|
    let s := s.useCell (.kid (s.hrg n).kid)
    let r := s.hrg n
    if r.state ≠ .initialising || !s.kidServes r.kid || !s.kidAdmits r.kid then s
    else State.initRun n (r.size + 1) s

end Sys2Proof.Machine
end

