-- ==== Sys2Proof/Machine/MemRegs.lean ====
section
/-! DEFINITION. The register commands of sealed memory and hearth memory, and the scrub engines (R167, R168, R173, R176, R186,
R199, R200, R204, R206, R207). -/

namespace Sys2Proof.Machine
open Sys2Proof

/-! ## MSL -/

def State.setMslRes (s : State) (n : Nat) : State := { s with msl := { s.msl with rres := n } }

/-- Register reports of an assignment's first fault (R167, R176). -/
def asgReport (f : AsgFault) : Nat := [2, 3, 4, 5, 6, 7].getD f 0
/-- Register reports of a release's first fault (R168). -/
def relReport (f : Nat) : Nat := [2, 3, 7, 3].getD f 0

/-- `MSL_RCMD` `ASSIGN` (R167, R176). -/
def execMslAssign (r : Req) (s : State) : Res :=
  .next <| s.regWrite r 0x40028 32 true fun s =>
    let n := s.msl.rsel
    let x := rgnOf s.msl.rcfg
    if s.msl.rres = 1 then s
    else if (s.rgn n).state ≠ .unassigned then s.setMslRes 3
    else match s.asgRgn x none with
      | 0 => (s.assignRgn n x).setMslRes 2
      | f => s.setMslRes (asgReport f)

/-- `MSL_RCMD` `RELEASE` (R168, R176): `PENDING` until the requests in flight have completed. -/
def execMslRelease (r : Req) (s : State) : Res :=
  .next <| s.regWrite r 0x40028 32 true fun s =>
    let n := s.msl.rsel
    if s.msl.rres = 1 then s
    else match s.relRgn n none with
      | 0 => (s.setMslRes 1).releaseRgn n true
      | f => s.setMslRes (relReport f)

/-- `MSL_CTL` (R15, R173). -/
def execMslCtlWrite (r : Req) (v : BitVec 32) (s : State) : Res :=
  .next <| s.regWrite r 0x40008 32 true fun s =>
    { s with msl := { s.msl with
      defUnassigned := if s.msl.lock then s.msl.defUnassigned else v.getLsbD 1
      lock := s.msl.lock || v.getLsbD 0 } }

/-! ## HTH -/

def State.setHthRes (s : State) (n : Nat) : State := { s with hth := { s.hth with rres := n } }

/-- `HTH_RCMD` `ASSIGN` (R186, R206): `PENDING` lasts through initialisation. -/
def execHthAssign (r : Req) (s : State) : Res :=
  .next <| s.regWrite r 0x80020 32 true fun s =>
    let n := s.hth.rsel
    let x := hrgOf s.hth.rcfg
    if s.hth.rres = 1 then s
    else if (s.hrg n).state ≠ .unassigned then s.setHthRes 3
    else match s.asgHrg x none with
      | 0 => (s.setHrg n { x with state := .initialising, byReg := true }).setHthRes 1
      | f => s.setHthRes (asgReport f)

/-- `HTH_RCMD` `RELEASE` (R186, R206). -/
def execHthRelease (r : Req) (s : State) : Res :=
  .next <| s.regWrite r 0x80020 32 true fun s =>
    let n := s.hth.rsel
    if s.hth.rres = 1 then s
    else match s.relHrg n none with
      | 0 => (s.setHthRes 1).releaseHrg n true
      | f => s.setHthRes (relReport f)

/-- `HTH_CTL` (R15, R204). -/
def execHthCtlWrite (r : Req) (v : BitVec 32) (s : State) : Res :=
  .next <| s.regWrite r 0x80008 32 true fun s =>
    { s with hth := { s.hth with
      defUnassigned := if s.hth.lock then s.hth.defUnassigned else v.getLsbD 1
      lock := s.hth.lock || v.getLsbD 0 } }

/-- `HTH_SCRUB_CTL` (R18, R207): a PERIOD above 168 is ignored. -/
def execHthScrubCtlWrite (r : Req) (v : BitVec 32) (s : State) : Res :=
  .next <| s.regWriteMgmt r 0x80200 32 fun s =>
    let p := bits v.toNat 7 0
    if 168 < p then s else ({ s with hth := { s.hth with period := p } }).wakeSlots

/-! ## Scrub (R199 to R201) -/

/-- The n-th line of a tier (R179). -/
def tierLine (t n : Nat) : Nat := n / 8 * 64 + t * 8 + n % 8

/-- What a stack line is: the region, level and index of a metadata item of a sealed region (8 for a MAC line), none for data
and lines outside sealed regions. -/
def State.metaAt (s : State) (a : Nat) : Option (Nat × Nat × Nat) :=
  match s.rgnAt a with
  | none => none
  | some ri =>
    let r := s.rgn ri
    let i := a - r.line0
    if r.mode ≠ 1 || i < r.pages * 64 then none
    else if i < r.pages * 72 then some (ri, 8, i - r.pages * 64)
    else if i < r.pages * 73 then some (ri, 0, i - r.pages * 72)
    else
      (List.range r.depth).findSome? fun k =>
        let b := r.itemAddr (k + 1) 0
        if b ≤ a && a < b + (levelsOf 10 r.pages).getD k 0 then some (ri, k + 1, a - b) else none

/-- The scrub finds a counter block or node uncorrectable: its subtree is `LOST`, whether or not a copy is cached (R194,
R199), unless an item above it cannot be verified. -/
def State.scrubLost (s : State) (ri level j : Nat) : State :=
  let (g, s) := if (s.rgn ri).depth ≤ level then (Got.ok 0, s) else s.itemNow ri (level + 1) (j / 8)
  match g with
  | .ok _ => s.setLost ri level j
  | _ => s.memErr (s.rgn ri).stack 0 0 1

/-- One line of a stack: a corrected line is written back unless a modified copy is cached; an uncorrectable data line is
counted, recorded and stays poisoned; an uncorrectable metadata item loses its subtree, but for a MAC line, which has no slot
in the tree (R194, R198, R199). -/
def State.scrubStack (s : State) (st n : Nat) (corrected poison : Bool) : State :=
  let a := st * 2 ^ 30 + n
  let s := ((s.light 3 1).slots (s.arbiter st (n / 64)) 1 true).emit (.hbmRead st n)
  if poison then
    let s := { s with msl := { s.msl with hbmPoison := s.msl.hbmPoison.set false a true } }
    match s.metaAt a with
    | none => (s.memErr st 0 1 0).checkFail a rowDataPoison
    | some (ri, level, j) => if level = 8 then (s.memErr st 0 0 1).checkFail a rowMacPoison else s.scrubLost ri level j
  else if corrected then
    let s := (s.memErr st 1 0 0).priv 0x306 1
    if (s.cached a).any Cached.dirty then s else s.hbmWrite a (s.msl.hbm.get 0 a) fullMask
  else s

/-- One line of a tier, under the KID of its range (R184, R199). -/
def State.scrubTier (s : State) (t n : Nat) (corrected poison : Bool) : State :=
  let a := tierLine t n
  let kid := match s.hrgAt a with
    | some r => (s.hrg r).kid
    | none => 0
  let s := ((s.light 4 1).slots (16 + t) 1 true).emit (.hearthRead a)
  match decodeLine (s.hth.store.get 0 a) (s.hth.ecc.get 0 a) kid with
  | none => s.hearthBad a
  | some (x, k) =>
    if poison then s.hearthBad a
    else if corrected || k ≠ 0 then
      ((s.memErr (4 + t) (max k 1) 0 0).priv 0x306 (max k 1)).hearthPut a x kid (BitVec.allOnes 8)
    else s

/-- The engine has scrubbed its line; the last line ends the pass (R199, R200). -/
def State.scrubNext (s : State) (u : Nat) : State :=
  let e := s.scrub u
  if scrubLines u ≤ e.progress + 1 then
    s.setScrub u { progress := 0, passes := min 65535 (e.passes + 1), behind := false, startAt := s.now, lineAt := s.now }
  else s.setScrub u { e with progress := e.progress + 1, lineAt := s.now }

/-- The class of an engine's job (R202). -/
def State.scrubClass (s : State) (u : Nat) : Nat := if (s.scrub u).behind then clsEscalated else clsScrub

/-- `SCRUB_ISSUE` (R199 to R202): the engine's next line, no sooner than its pace allows and in its turn among the background
jobs. Requests that waited for a slot go on. -/
def execScrubIssue (u : Nat) (corrected poison : Bool) (s : State) : Res :=
  .next <|
    if !s.scrubDue u || !s.bgTurn (s.scrubClass u) u then s
    else
      let n := (s.scrub u).progress
      let s := s.bgTaken (s.scrubClass u) u
      let s := if u < 4 then s.scrubStack u n corrected poison else s.scrubTier (u - 4) n corrected poison
      (s.scrubNext u).runHbm.wakeHearth

/-- `SCRUB_DEADLINE` (R200): a pass past its deadline is escalated. -/
def execScrubDeadline (u : Nat) (s : State) : Res :=
  .next <|
    let e := s.scrub u
    if 12 ≤ u || s.hth.period = 0 || s.now ≤ e.startAt + s.scrubPeriod then s else s.setScrub u { e with behind := true }

end Sys2Proof.Machine
end

