-- ==== Sys2Proof/Machine/Firebox.lean ====
section
/-! DEFINITION. The Firebox's register commands, flushes, sweeps, derivations and epoch messages (R108 to R126, R134 to R137,
R509). -/

namespace Sys2Proof.Machine
open Sys2Proof

/-! ## Plain KIDs (R120, R122, R137) -/

def State.setFbxRes (s : State) (n : Nat) : State := { s with fbx := { s.fbx with kres := n } }

/-- A command of `FBX_KCMD`, ignored while the last one is pending. -/
def State.fbxCmd (s : State) (r : Req) (f : State → State) : State :=
  s.regWrite r 0x20028 32 true fun s => if s.fbx.kres = 1 then s else f s

/-- `BIND_PLAIN` (R113, R122). -/
def execBindPlain (r : Req) (kid : Kid) (s : State) : Res :=
  .next <| s.fbxCmd r fun s =>
    let k := kid.toNat
    if k = 0 then s.setFbxRes 5
    else if !s.kidPlain k then s.setFbxRes 4
    else if (s.kid k).state ≠ .free then s.setFbxRes 3
    else if s.fbx.trngFailed then s.setFbxRes 6
    else ((s.useCell .bootRoot).bindKid k none).setFbxRes 2

/-- `RETIRE` through `FBX_KCMD` (R120). -/
def execFbxRetire (r : Req) (kid : Kid) (s : State) : Res :=
  .next <| s.fbxCmd r fun s =>
    let k := kid.toNat
    if k = 0 then s.setFbxRes 5
    else if !s.kidPlain k then s.setFbxRes 4
    else if (s.kid k).state ≠ .active then s.setFbxRes 3
    else (s.modKid k fun e => { e with state := .retiring }).setFbxRes 2

/-- Every KID but the null one is `FREE`. -/
def State.allKidsFree (s : State) : Bool := s.fbx.kids.cells.all fun e => e.2.state = .free

/-- `FBX_CTL` (R15, R134). -/
def execFbxCtlWrite (r : Req) (v : BitVec 32) (s : State) : Res :=
  .next <| s.regWrite r 0x20008 32 true fun s =>
    if s.fbx.lock then s
    else
      { s with fbx := { s.fbx with
        lock := v.getLsbD 0
        plainKidMax := if s.allKidsFree then v.extractLsb' 1 12 else s.fbx.plainKidMax
        remaskLog2 := v.extractLsb' 13 4 } }

/-! ## Flush, sweep -/

/-- Cached items under a KID's key. -/
def Cached.under (k : Nat) (c : Cached) : Bool := c.region ≠ 64 && c.kid = k

/-- A request that Worha has accepted still needs a KID's key: it waits in a merge-buffer entry, for a re-encryption or for
a stack or tier (the coincidences of R163 and R190). -/
def State.kidInUse (s : State) (k : Nat) : Bool :=
  (s.msl.pending.any fun r => !r.hold && (tagKid r.tag = k || match s.pageOf r.addr with
    | some (ri, p) => (s.rgn ri).itemKid 0 p = k
    | none => false)) || s.hth.pending.any fun r => !r.hold && tagKid r.tag = k

/-- `KID_FLUSH_COMPLETE` (R120, R509): once the requests accepted under a `RETIRING` KID are complete, what is cached under
it is written back, or dropped once its key is orphaned; then the key is invalidated and the KID is `COOLING`, and `FREE` once
nothing names it. -/
def execKidFlushComplete (kid : Kid) (s : State) : Res :=
  .next <|
    let k := kid.toNat
    if !s.stokerRuns || (s.kid k).state ≠ .retiring || s.kidInUse k then s
    else
      let s := if s.kidKeyed k then s.writeBackAll (Cached.under k) else s
      let s := (s.dropCached (Cached.under k)).cellDrop (.kid k)
      (s.modKid k fun e => { e with state := .cooling }).kidSettle

/-- KIDs whose key has been orphaned or invalidated. -/
def State.deadKids (s : State) : List Nat := s.fbx.kids.keys.filter fun k => k ≠ 0 && !s.cellBound (.kid k)

/-- `ORPHAN_SWEEP` (R117, R509): every orphaned cell is zeroed, and what was cached under a key that no longer serves is
invalidated without write-back. -/
def execOrphanSweep (s : State) : Res :=
  .next <|
    let dead := s.deadKids
    (s.dropCached fun c => c.region ≠ 64 && dead.contains c.kid).sweepOrphans

/-! ## Derivations of session keys (R108, R112, R117, R135) -/

/-- The session the first held flit of a link waits for: slot, epoch, source and destination. -/
def State.holdKey (s : State) (l : Nat) : Option (Nat × BitVec 16 × Nat × Nat) :=
  match (s.link l).rxHold with
  | [] => none
  | (_, _, b) :: _ =>
    match s.tagSlot? (hSession (fHeader b)) with
    | none => none
    | some i => ((s.slot i).rxEpochs.find? fun e => e.toNat % 16 = hEpoch (fHeader b)).map fun e =>
        (i, e, (s.link l).peerNode, s.fab.node)

/-- Every link's flits that wait for a key go on; the flit that waits for a refused one is dropped as having no session. -/
def State.resumeLinks (s : State) (refused : Option (Nat × BitVec 16 × Nat × Nat)) : State :=
  s.forEach ((s.lnk.links.cells.filter fun e => !e.2.rxHold.isEmpty).map Prod.fst) fun s l =>
    s.rxResume l (refused.isSome && s.holdKey l = refused)

/-- `KEY_DERIVE_DONE`: the oldest derivation asked for ends. An orphaned or invalid parent yields nothing and the miss is
refused; a failed self-check of the ladder engine discards the result. -/
def execKeyDeriveDone (ok : Bool) (s : State) : Res :=
  .next <| match s.fbx.deriving_ with
  | [] => s
  | (slot, e, src, dst) :: rest =>
    let s := { s with fbx := { s.fbx with deriving_ := rest } }
    if !ok then
      (({ s with fbx := { s.fbx with alarm := s.fbx.alarm ||| 4 } }).record 0x60 srcFirebox [(1, 4), (1, 0)]).resumeLinks none
    else
      let s := s.useCell (.epochKey slot e.toNat)
      match s.pairKey slot e.toNat src dst with
      | some key => (s.addSess slot e src dst key false).resumeLinks none
      | none => s.resumeLinks (some (slot, e, src, dst))

/-- `TRNG_FAULT` (R113, R135). -/
def execTrngFault (s : State) : Res :=
  .next <|
    ({ s with fbx := { s.fbx with trngFailed := true, trngOk := false, alarm := s.fbx.alarm ||| 2 } }).record 0x60 srcFirebox
      [(1, 2), (1, 0)]

/-! ## Epoch messages (R123, R124) -/

/-- An epoch message for a slot: 0 `EPOCH_PREPARE`, 1 `EPOCH_SWITCH`, 2 `EPOCH_RETIRE`. -/
def State.epochMsg (s : State) (m : Mgmt) (slot op : Nat) (e : BitVec 16) : State :=
  s.leadMsg m fun s => s.slotMsg slot fun s =>
    let p := s.slot slot
    if !(p.state = .live || p.state = .quarantined) then s.answer .badState
    else if op = 0 && p.phase = .steady && p.epoch = 0xFFFF then s.answer .badParam
    else if !epochFits p op e then s.answer .badState
    else ((s.toPeers bkEpoch [slot, op, e.toNat]).applyEpoch slot op e).awaitPeers slot 2

/-- `EPOCH_PREPARE`: the epoch after the present one. -/
def execEpochPrepare (m : Mgmt) (slot : Nat) (epoch : BitVec 16) (s : State) : Res := .next (s.epochMsg m slot 0 epoch)

/-- `EPOCH_SWITCH`. -/
def execEpochSwitch (m : Mgmt) (slot : Nat) (epoch : BitVec 16) (s : State) : Res := .next (s.epochMsg m slot 1 epoch)

/-- `EPOCH_RETIRE`: the epoch left behind. -/
def execEpochRetire (m : Mgmt) (slot : Nat) (epoch : BitVec 16) (s : State) : Res := .next (s.epochMsg m slot 2 epoch)

end Sys2Proof.Machine
end

