-- ==== Sys2Proof/Machine/PwrOps.lean ====
section
/-! DEFINITION. What the Damper reads of the rest of the machine: hints, preferred points, pacing and the limits of a budget
(R485, R488, R490, R492, R495). -/

namespace Sys2Proof.Machine
open Sys2Proof

/-- Hints of the steps that run (R327, R488). -/
def State.planHints (s : State) : List Nat :=
  (s.col.plans.cells.map fun e =>
    if e.2.running then (e.2.indices.filter fun k => (e.2.srun k).stage = .started).map fun k => stHint (e.2.step k) else []).flatten

/-- The prevailing hint: 0 `NONE`, 1 `LINK_BOUND`, 2 `OPERAND_BOUND` (R488). -/
def State.prevailingHint (s : State) : Nat :=
  let l := s.planHints ++ (s.pwr.hints.filter fun h => s.now < h.2.2).map fun h => h.2.1
  if l.contains 2 then 2 else if l.contains 1 then 1 else 0

/-- The pacing fraction in percent (R492). -/
def State.pacing (s : State) : Nat := ((s.pwr.pacing.take 100).filter id).length

/-- Preferred points of the slices with queued or executing commands (R490). -/
def State.busyPrefs (s : State) : List Nat :=
  (s.qm.slices.cells.filter fun e => e.2.queues.cells.any fun q => !q.2.cmds.isEmpty).map fun e => e.2.prefOpp

/-- The hub's unlimited point: the lowest preferred point, one lower while the die paces on a slower member (R490, R492). -/
def State.hubPoint (s : State) : Nat :=
  let p := s.busyPrefs.min?.getD 5
  if 50 ≤ s.pacing && s.prevailingHint = 1 && p < 3 then p + 1 else p

/-- Site level of a site: 15 until the Damper has raised it (R484, R498). -/
def State.siteLevel (s : State) (n : Nat) : Nat := 15 - s.pwr.siteUp.get 0 n
def State.setSiteLevel (s : State) (n l : Nat) : State :=
  { s with pwr := { s.pwr with siteUp := s.pwr.siteUp.set 0 n (15 - min 15 l) } }

/-- The package limit: the least of the configured limit, the persistent limit and the budget, those that are set (R485,
R501). -/
def State.pkgLimit (s : State) : Nat :=
  let l := s.pwr.cfgLimit
  let l := if s.pwr.pkgLimit ≠ 0 then min l s.pwr.pkgLimit else l
  if s.pwr.budget ≠ 0 then min l s.pwr.budget else l

/-- The group lead holds the package figure; a single die is its own lead (R485). -/
def State.pkgFigure (s : State) : Nat := if s.isLead then s.pkgLimit else 0

/-! ## Points and holds (R484, R489, R491, R493 to R496) -/

/-- Site numbers. -/
def allSites : List Nat := List.range 8

/-- A stage has been silent for 10 ms, and for 100 ms (R496). -/
def State.stageStop (s : State) : Bool := s.pwr.stale ≠ 0
def State.stageHold (s : State) : Bool :=
  (List.range 16).any fun k => s.pwr.stale.getLsbD k && s.pwr.stageAt.get 0 k + 100 * ms ≤ s.now

/-- The lowest point, and the greatest number, that the ceiling and the present holds leave the hub. -/
def State.hubFloor (s : State) : Nat :=
  let p := s.pwr
  let f (b : Bool) (n : Nat) : Nat := if b then n else 0
  [f p.thermTrip 7, f p.vinFault 5, f s.stageHold 5, f (s.boot.phase = 4 && s.boot.config = 0) 5,
    f (0 < p.hubHold) p.hubHoldOpp].foldl max p.ceil

/-- Normal service: the reset is complete and the sites are released (R491). -/
def State.inService (s : State) : Bool := s.rst.phase = .ready && 7 ≤ s.rst.step

/-- VIN as last read lies within 46 to 58 V (R496). -/
def vinOk (v : Nat) : Bool := 4600 ≤ v && v ≤ 5800

/-- The hub's point and the sites' level that hints, preferences and test holds give (R490, R491). -/
def State.wanted (s : State) : Nat × Nat :=
  if !s.inService then
    (if s.rst.source = .powerOn || s.rst.source = .pin || s.rst.source = .recoveryFail then (if vinOk s.pwr.vin then 0 else 5) else max s.pwr.opp s.pwr.recoveryOpp, 15)
  else if s.pwr.testHold then (s.pwr.testOpp, s.pwr.testLevel)
  else (s.hubPoint, 0)

/-- Some unit runs below the point that hints, preferences and test holds alone would give it (R489). -/
def State.runsThrottled (s : State) : Bool :=
  s.pwr.halved || s.wanted.1 < s.pwr.opp || allSites.any fun n => s.wanted.2 < s.siteLevel n

/-- Executing commands carry THROTTLED (R355). -/
def Cmd.flagThrottled (c : Cmd) : Cmd := if c.stage = .executing then { c with flags := c.flags ||| flThrottled } else c

/-- Throttling is noted: every executing command's record will carry it, and for an interval that ran throttled so do the
die and the slices with executing commands (R435). -/
def State.noteThrottle (s : State) (interval : Bool) : State :=
  let s := { s with qm := { s.qm with slices := ⟨s.qm.slices.cells.map fun (e : Nat × Slice) => (e.1, { e.2 with
    throttled := e.2.throttled || (interval && e.2.queues.cells.any fun (q : Nat × Queue) => q.2.cmds.any fun c => c.stage = .executing)
    queues := ⟨e.2.queues.cells.map fun (q : Nat × Queue) => (q.1, { q.2 with cmds := q.2.cmds.map Cmd.flagThrottled })⟩ })⟩ } }
  if interval then { s with tel := { s.tel with throttled := true } } else s

/-- Request a site's level; its acknowledgement is due in 100 µs (R484). -/
def State.requestLevel (s : State) (n l : Nat) : State :=
  let l := min 15 l
  if s.siteLevel n = l then s
  else
    let s := (s.setSiteLevel n l).emit (.actuator n l)
    { s with pwr := { s.pwr with siteWait := (n, s.now + 100 * us) :: s.pwr.siteWait.filter fun e => e.1 ≠ n } }

/-- Move the hub to a point: a lower one at once, a higher one when its voltage is acknowledged (R483). -/
def State.setHub (s : State) (p : Nat) : State :=
  if p = s.pwr.opp then { s with pwr := { s.pwr with raising := none } }
  else if s.pwr.opp < p then ({ s with pwr := { s.pwr with opp := p, raising := none } }).emit (.actuator 8 p)
  else if s.pwr.raising = some p then s
  else ({ s with pwr := { s.pwr with raising := some p } }).emit (.actuator 8 p)

/-- The level a site is held at or above: 15 under a trip or a VIN fault, and its level while a droop holds it. -/
def State.siteFloor (s : State) (n : Nat) : Nat :=
  if s.pwr.thermTrip || s.pwr.vinFault then 15 else if 0 < s.pwr.siteHold.get 0 n then s.siteLevel n else 0

/-- Outside normal service, and under a test hold, the points are set and not stepped to (R491); ceiling and holds apply. -/
def State.applyPoints (s : State) : State :=
  let w := s.wanted
  allSites.foldl (fun s n => s.requestLevel n (max w.2 (s.siteFloor n))) (s.setHub (max w.1 s.hubFloor))

/-- Force the hub and the sites down to what the holds demand at once (R494, R496); a raise that is under way goes no higher
than they allow. -/
def State.applyFloors (s : State) : State :=
  let s := if s.pwr.raising.getD s.pwr.opp < s.hubFloor then s.setHub s.hubFloor else s
  allSites.foldl (fun s n => if s.siteLevel n < s.siteFloor n then s.requestLevel n (s.siteFloor n) else s) s

end Sys2Proof.Machine
end

