-- ==== Sys2Proof/Machine/Cipher.lean ====
section
/-! DEFINITION. The cipher engine: modes, usage limits, start checks, the `CIPHER` opcode and its register pages
(14_cipher_engine, R366). -/

namespace Sys2Proof.Machine
open Sys2Proof

/-! ## Key wrapping (SP 800-38F) -/

/-- The six rounds of the wrapping function over semiblocks: the integrity register and the semiblocks. -/
def wrapRound (ks : List (List Nat)) (n : Nat) (ar : Nat × List Nat) (j : Nat) : Nat × List Nat :=
  (List.range n).foldl (fun (x : Nat × List Nat) i =>
    let b := aesEncK ks (x.1 * 2 ^ 64 + x.2.getD i 0)
    ((b / 2 ^ 64) ^^^ (n * j + i + 1), x.2.set i (b % 2 ^ 64))) ar

def kwWrap (key icv : Nat) (r : List Nat) : Nat × List Nat := (List.range 6).foldl (wrapRound (aesKeys key) r.length) (icv, r)

/-- One unwrapping round, downward. -/
def unwrapRound (key n : Nat) (ar : Nat × List Nat) (j : Nat) : Nat × List Nat :=
  (List.range n).reverse.foldl (fun (x : Nat × List Nat) i =>
    let b := aesDec key ((x.1 ^^^ (n * j + i + 1)) * 2 ^ 64 + x.2.getD i 0)
    (b / 2 ^ 64, x.2.set i (b % 2 ^ 64))) ar

def kwUnwrap (key a : Nat) (r : List Nat) : Nat × List Nat := (List.range 6).reverse.foldl (unwrapRound key r.length) (a, r)

/-- Big-endian semiblocks of bytes, the last padded with zeros. -/
def semis (l : List Byte) : List Nat :=
  (List.range ((l.length + 7) / 8)).map fun i => let c := (l.drop (8 * i)).take 8; beNat c * 256 ^ (8 - c.length)
def semiBytes (r : List Nat) : List Byte := (r.map (beBytes 8)).flatten

def kwIcv : Nat := 0xA6A6A6A6A6A6A6A6
def kwpIcv (len : Nat) : Nat := 0xA65959A6 * 2 ^ 32 + len

/-- `KW` encryption. -/
def kwEnc (key : Nat) (l : List Byte) : List Byte := let (a, r) := kwWrap key kwIcv (semis l); semiBytes (a :: r)

/-- `KW` decryption: whether the check held, and the key data. -/
def kwDec (key : Nat) (l : List Byte) : Bool × List Byte :=
  let (a, r) := kwUnwrap key ((semis l).getD 0 0) ((semis l).drop 1)
  (a = kwIcv, semiBytes r)

/-- `KWP` encryption. -/
def kwpEnc (key : Nat) (l : List Byte) : List Byte :=
  if l.length ≤ 8 then beBytes 16 (aesEnc key (kwpIcv l.length * 2 ^ 64 + (semis l).getD 0 0))
  else let (a, r) := kwWrap key (kwpIcv l.length) (semis l); semiBytes (a :: r)

/-- `KWP` decryption: whether the checks held, the padded data and the unpadded length. -/
def kwpDec (key : Nat) (l : List Byte) : Bool × List Byte × Nat :=
  let (a, r) := if l.length = 16 then let b := aesDec key (beNat l); (b / 2 ^ 64, [b % 2 ^ 64])
    else kwUnwrap key ((semis l).getD 0 0) ((semis l).drop 1)
  let n := a % 2 ^ 32
  let p := semiBytes r
  (a / 2 ^ 32 = 0xA65959A6 && n ≤ p.length && p.length < n + 8 && (p.drop n).all (fun b => b = 0), p, n)

/-! ## The command (R366, R415) -/

def Cmd.cePage (c : Cmd) : Nat := c.f 1 5 0
def Cmd.ceMode (c : Cmd) : Nat := c.f 1 9 6
def Cmd.ceDec (c : Cmd) : Bool := c.f 1 10 10 = 1
def Cmd.ceHw (c : Cmd) : Bool := c.f 1 11 11 = 1
def Cmd.ceLen (c : Cmd) : Nat := c.f 1 23 12
def Cmd.ceDstOff (c : Cmd) : Nat := c.f 1 63 24
def Cmd.ceSrc (c : Cmd) : Nat := c.f 2 31 0
def Cmd.ceDst (c : Cmd) : Nat := c.f 2 63 32
def Cmd.ceSrcOff (c : Cmd) : Nat := c.f 3 39 0
/-- The mode is `KEY_LOAD`. -/
def Cmd.ceLoad (c : Cmd) : Bool := c.ceMode = 6

/-- MODE, DIR, LEN and A are allowed (R415). -/
def ceAllowed (mode : Nat) (dec : Bool) (len a : Nat) : Bool :=
  match mode, dec with
  | 1, false => len % 8 = 0 && 16 ≤ len && len ≤ 4080 && a = 0
  | 1, true => len % 8 = 0 && 24 ≤ len && len ≤ 4088 && a = 0
  | 2, false => 1 ≤ len && len ≤ 4080 && a = 0
  | 2, true => len % 8 = 0 && 16 ≤ len && len ≤ 4088 && a = 0
  | 3, false => a ≤ len
  | 3, true => a + 28 ≤ len
  | 4, false => a = 0
  | 4, true => 17 ≤ len && a = 0
  | 5, false => a = 0
  | 5, true => 16 ≤ len && a = 0
  | 6, false => len = 32 && a = 0
  | _, _ => false

/-- Output length (R415); 0 for what the table does not list and where nothing is written. -/
def ceOut (mode : Nat) (dec : Bool) (len : Nat) : Nat :=
  match mode, dec with
  | 1, false => len + 8
  | 1, true => len - 8
  | 2, false => (len + 7) / 8 * 8 + 8
  | 2, true => len - 8
  | 3, false => len + 28
  | 3, true => len - 28
  | 4, false => len + 16
  | 4, true => len - 16
  | 5, false => 16
  | 6, false => 16
  | _, _ => 0

/-- Blocks charged (R415). -/
def ceBlocks (mode : Nat) (dec : Bool) (len a : Nat) : Nat :=
  match mode, dec with
  | 1, false => 6 * (len / 8)
  | 1, true => 6 * (len / 8 - 1)
  | 2, false => if len ≤ 8 then 1 else 6 * ((len + 7) / 8)
  | 2, true => if len = 16 then 1 else 6 * (len / 8 - 1)
  | 3, false => (len - a + 15) / 16 + 2
  | 3, true => (len - a - 28 + 15) / 16 + 2
  | 4, false => (len + 15) / 16
  | 4, true => (len - 16 + 15) / 16
  | 5, false => max 1 ((len + 15) / 16)
  | 5, true => max 1 ((len - 16 + 15) / 16)
  | _, _ => 1

/-- The command draws an IV: an encryption under `GCM` or `CTR` (R414). -/
def Cmd.ceDraws (c : Cmd) : Bool := !c.ceDec && (c.ceMode = 3 || c.ceMode = 4)

/-- The IV and whether it is a fallback (R414); the IV may pass 2^96 - 1. -/
def CePage.takeIv (p : CePage) (hw : Bool) : Nat × Bool :=
  if hw then (p.nhw.toNat + 1, false)
  else if p.nhw.toNat < p.iv.toNat then (p.iv.toNat, false) else (p.nhw.toNat + 1, true)

/-- The reservation of a command stays within the limits (R417). `KEY_LOAD` needs none (log 22). -/
def CePage.fits (p : CePage) (c : Cmd) : Bool :=
  c.ceLoad || (p.invs + 1 ≤ 2 ^ p.invLog2 && p.blks + ceBlocks c.ceMode c.ceDec c.ceLen p.aadLen ≤ 2 ^ 36)

/-- Steps 6 and 7 of R85 for `CIPHER` (R418). A mode that the table does not list has no output length to judge, and
`CMAC` verification writes nothing: only the handle's rights are judged there. -/
def State.chkCipher (s : State) (i : Nat) (c : Cmd) : Chk :=
  let p := s.cePage c.cePage
  let out := ceOut c.ceMode c.ceDec c.ceLen
  firstFail [
    s.chkObj i c.ceSrc c.ceSrcOff c.ceLen true false dtA,
    s.chkObj i c.ceDst (if out = 0 then 0 else c.ceDstOff) out false true dtB,
    chkIf (c.ceLen ≠ 0) stBadOperand dtNone,
    chkIf (ceAllowed c.ceMode c.ceDec c.ceLen p.aadLen) stCeMode dtNone,
    chkIf (p.state ≠ .free && !p.leaving && p.slice = i) stCePage dtNone,
    chkIf (c.ceLoad || p.state ≠ .empty) stCeNoKey dtNone,
    chkIf (c.ceLoad || p.state ≠ .limit) stCeKeyLimit dtNone,
    chkIf (p.fits c && (!c.ceDraws || (p.takeIv c.ceHw).1 < 2 ^ 96)) stCeKeyLimit dtNone,
    chkIf (!(c.ceLoad && s.fbx.trngFailed)) stNoEntropy dtNone]

/-- A reservation that would carry a count past its limit puts the page into `LIMIT` (R417). -/
def State.cipherRefused (s : State) (i : Nat) (c : Cmd) (st : Nat) : State :=
  let p := s.cePage c.cePage
  if st = stCeKeyLimit && p.state = .keyed && p.slice = i && !p.fits c then s.setCePage c.cePage { p with state := .limit } else s

/-- The start of a `CIPHER` command: its reservation, key, IV and the re-mask of the page's shares (R413, R414, R417). -/
def State.startCipher (s : State) (i q : Nat) (c : Cmd) : State :=
  let p := s.cePage c.cePage
  let (m, s) := s.draw 256
  let key := p.k0 ^^^ p.k1
  let s := s.priv 0x305 (ceBlocks c.ceMode c.ceDec c.ceLen p.aadLen)
  if c.ceLoad then (if p.state = .empty then s else s.setCePage c.cePage { p with k0 := m, k1 := key ^^^ m })
  else
    let (iv, fb) := p.takeIv c.ceHw
    let n := p.blks + ceBlocks c.ceMode c.ceDec c.ceLen p.aadLen
    let p' := { p with k0 := m, k1 := key ^^^ m, invs := p.invs + 1, blks := n
                       nhw := if c.ceDraws then BitVec.ofNat 96 iv else p.nhw
                       state := if p.invs + 1 = 2 ^ p.invLog2 || n = 2 ^ 36 then .limit else p.state }
    (s.setCePage c.cePage p').modCmd i q c.seq fun c =>
      { c with latchKey := key, latchIv := BitVec.ofNat 96 iv, result := if c.ceDraws && fb then 2 else 0, fixed := p.aadLen }

/-- What a command writes, or nothing when an integrity check fails, and the bits of RESULT it adds (R415, R416). -/
def ceCompute (mode : Nat) (dec : Bool) (a key iv : Nat) (l : List Byte) : Option (List Byte) × Nat :=
  let auth (ok : Bool) (b : List Byte) (res : Nat) : Option (List Byte) × Nat := if ok then (some b, res) else (none, 1)
  match mode, dec with
  | 1, false => (some (kwEnc key l), 0)
  | 1, true => let (ok, b) := kwDec key l; auth ok b 0
  | 2, false => (some (kwpEnc key l), 0)
  | 2, true => let (ok, b, n) := kwpDec key l; auth ok b (n * 2 ^ 12)
  | 3, false =>
    let (ct, t) := gcmEnc key iv (l.take a) (l.drop a)
    (some (beBytes 12 iv ++ l.take a ++ ct ++ beBytes 16 t), 0)
  | 3, true =>
    let aad := (l.drop 12).take a
    let ct := (l.drop (12 + a)).take (l.length - a - 28)
    let (pt, t) := gcmDec key (beNat (l.take 12)) aad ct
    auth (beBytes 16 t = l.drop (l.length - 16)) (aad ++ pt) 0
  | 4, false => (some (beBytes 16 (iv * 2 ^ 32 + 1) ++ aesCtr key (iv * 2 ^ 32 + 1) l), 0)
  | 4, true => (some (aesCtr key (beNat (l.take 16)) (l.drop 16)), 0)
  | 5, false => (some (beBytes 16 (cmac key l)), 0)
  | 5, true => auth (beBytes 16 (cmac key (l.take (l.length - 16))) = l.drop (l.length - 16)) [] 0
  | _, _ => (some [], 0)

/-- Input bytes whose output is in place once `k` bytes of the output are written (R357). -/
def ceDone (mode : Nat) (dec : Bool) (len k : Nat) : Nat :=
  if mode = 3 || mode = 4 then
    let h := if mode = 3 then 12 else 16
    if dec then (if k = 0 then 0 else min len (k + h)) else min len (k - h)
  else 0

/-- Fetch the input, then go on. -/
def State.cipherInput (s : State) (i q seq : Nat) (c : Cmd) (f : List Byte → State → State) : State :=
  match s.fetchObj i q seq (hIndex c.ceSrc) c.ceSrcOff c.ceLen with
  | (.wait, s) => s
  | (.fail st _, s) => s.failCmd i q seq st dtA 0
  | (.got b, s) => f b s

/-- Store the output and end the command. -/
def State.cipherOutput (s : State) (i q seq : Nat) (c : Cmd) (out : List Byte) (result : BitVec 64) : State :=
  if out.isEmpty then s.endCmd i q seq c.ceLen result
  else
    match s.storeObj i q seq (hIndex c.ceDst) c.ceDstOff out with
    | (.wait, s) => s
    | (.fail st k, s) => s.failCmd i q seq st dtB (ceDone c.ceMode c.ceDec c.ceLen k)
    | (.done, s) => s.endCmd i q seq c.ceLen result

/-- `CIPHER` in the modes other than `KEY_LOAD` (R366, R415, R416). -/
def execCipher (i q seq : Nat) (s : State) : Res :=
  .next <| s.unit i q seq 0x14 fun c s =>
    if c.ceLoad then s
    else s.cipherInput i q seq c fun b s =>
      match ceCompute c.ceMode c.ceDec c.fixed (beNat (leBytes 32 c.latchKey.toNat)) c.latchIv.toNat b with
      | (none, r) => s.endCmd i q seq c.ceLen (c.result + BitVec.ofNat 64 r)
      | (some out, r) => s.cipherOutput i q seq c out (c.result + BitVec.ofNat 64 r)

/-- Load a key into a page: two shares under a fresh mask, a drawn fixed field, counts and staging zero (R410, R412). -/
def State.loadPage (s : State) (n : Nat) (key : BitVec 256) : State :=
  let (m, s) := s.draw 256
  let (f, s) := s.draw 32
  s.modCePage n fun p =>
    { p with state := .keyed, k0 := m, k1 := key ^^^ m, staged := 0, invs := 0, blks := 0, nhw := f.setWidth 96 <<< 64 }

/-- `CIPHER_KEY_LOAD`: the `KEY_LOAD` mode (R413, R415). -/
def execCipherKeyLoad (i q seq : Nat) (s : State) : Res :=
  .next <| s.unit i q seq 0x14 fun c s =>
    if !c.ceLoad then s
    else if s.fbx.trngFailed && c.progress = 0 then s.failCmd i q seq stNoEntropy dtNone 0
    else s.cipherInput i q seq c fun b s =>
      let key := if c.progress = 0 then BitVec.ofNat 256 (leNat b) else c.latchKey
      let s := if c.progress = 0 then
          (s.loadPage c.cePage key).modCmd i q seq fun c => { c with progress := 1, latchKey := key }
        else s
      s.cipherOutput i q seq c (beBytes 16 (aesEnc (beNat (leBytes 32 key.toNat)) 0)) 0

/-! ## Register pages (R409 to R413, R420, R421) -/

/-- Offset of a page. -/
def cePageAt (p : Nat) : Nat := 0x400000 + p * 0x1000

/-- The owner half of a page admits its slice's requests. -/
def State.ceOwner (s : State) (r : Req) (p : Nat) : Bool := p < 64 && s.ownReq (s.cePage p).slice r

/-- The kernel half admits requests without a PASID. -/
def ceKernel (r : Req) (p : Nat) : Bool := p < 64 && kernelReq r

/-- A command of a page has started and not committed. -/
def State.pageBusy (s : State) (p : Nat) : Bool :=
  s.allCmds.any fun e => let c := e.2.2; c.opcode = 0x14 && c.started && c.cePage = p

/-- Pages whose `UNASSIGN` waits become `FREE` once no command of theirs is executing (R410). -/
def State.settlePages (s : State) : State :=
  s.forEach s.ce.pages.keys fun s n => if (s.cePage n).leaving && !s.pageBusy n then s.modCePage n CePage.freed else s

/-- An `ASSIGN` wakes PD_CIPHER (R411). -/
def State.wakeCipher (s : State) (r : Req) (p : Nat) : State :=
  if ceKernel r p && 5 ≤ s.rst.step && !s.sys.pdFused.getLsbD 2 then
    { s with sys := { s.sys with pd := s.sys.pd.set .on 2 .on } }
  else s

/-- `CE_ASSIGN` (R410, R411). -/
def execCeAssign (r : Req) (page : Nat) (s : State) : Res :=
  .next <| (s.wakeCipher r page).regWrite r (cePageAt page + 0x808) 32 (ceKernel r page) fun s =>
    s.modCePage page fun p =>
      if p.pgRes = 1 then p
      else if p.state ≠ .free then { p with pgRes := 3 }
      else if (s.slice p.pgCfg).state ≠ .active then { p with pgRes := 4 }
      else { p with state := .empty, slice := p.pgCfg, pgRes := 2 }

/-- `CE_UNASSIGN` (R410): `PENDING` until the page is `FREE`. -/
def execCeUnassign (r : Req) (page : Nat) (s : State) : Res :=
  .next <| s.regWrite r (cePageAt page + 0x808) 32 (ceKernel r page) fun s =>
    let p := s.cePage page
    if p.pgRes = 1 then s
    else if p.state = .free then s.setCePage page { p with pgRes := 2 }
    else (s.setCePage page { p with leaving := true, pgRes := 1 }).settlePages

/-- `CE_LOAD` (R412, R413). -/
def execCeLoad (r : Req) (page : Nat) (s : State) : Res :=
  .next <| s.regWrite r (cePageAt page + 0x40) 32 (s.ceOwner r page) fun s =>
    let p := s.cePage page
    let res (n : Nat) (s : State) : State := s.modCePage page fun p => { p with kres := n }
    if p.state = .free then res 5 s
    else if (s.slice p.slice).bound then res 4 s
    else if s.fbx.trngFailed then res 3 s
    else res 2 (s.loadPage page p.staged)

/-- `CE_ZERO` (R410). -/
def execCeZero (r : Req) (page : Nat) (s : State) : Res :=
  .next <| s.regWrite r (cePageAt page + 0x40) 32 (s.ceOwner r page) fun s =>
    s.modCePage page fun p => if p.state = .free then { p with kres := 5 } else { p.zeroed with kres := 2 }

/-- `CE_CTL_WRITE` (R15, R421). -/
def execCeCtlWrite (r : Req) (v : BitVec 32) (s : State) : Res :=
  .next <| s.regWriteMgmt r 0x400F00 32 fun s =>
    { s with ce := { s.ce with dummy := if s.ce.lock then s.ce.dummy else v.extractLsb' 1 2, lock := s.ce.lock || v.getLsbD 0 } }

/-- `CE_PARAM_WRITE` (R415, R417, R421): an INV_LOG2 outside 8 to 32 is ignored. -/
def execCeParamWrite (r : Req) (page : Nat) (v : BitVec 32) (s : State) : Res :=
  .next <| s.regWrite r (cePageAt page + 8) 32 (s.ceOwner r page) fun s =>
    let n := bits v.toNat 13 8
    s.modCePage page fun p => { p with aadLen := bits v.toNat 7 0, invLog2 := if 8 ≤ n && n ≤ 32 then n else p.invLog2 }

end Sys2Proof.Machine
end

