-- ==== Sys2Proof/Machine/Collective.lean ====
section
/-! DEFINITION. Running a plan: its steps, the blocks they process, the flits of its streams, its credits, timeouts and
end (R308, R312 to R328). -/

namespace Sys2Proof.Machine
open Sys2Proof

/-! ## Steps of a run -/

/-- A step is started and not completed. -/
def Plan.live (p : Plan) (x : Nat) : Bool := p.running && p.fail = 0 && (p.srun x).stage = .started

def State.modSrun (s : State) (k x : Nat) (f : StepRun → StepRun) : State :=
  s.modPlan k fun p => p.setSrun x (f (p.srun x))

/-- The object entry of the run: a replacement, or the loaded object (R321). -/
def Plan.inObj (p : Plan) : Nat := (if p.repl.1 ≠ 0 then p.repl.1 else p.objs.getD 0 0) - 1
def Plan.outObj (p : Plan) : Nat := (if p.repl.2 ≠ 0 then p.repl.2 else p.objs.getD 1 0) - 1
def Plan.residObj (p : Plan) : Nat := p.objs.getD 2 0 - 1

/-- The global object of a WAIT or SIGNAL word (R326). -/
def State.gateObj (s : State) (p : Plan) (w : BitVec 64) : Nat :=
  (s.slice p.slice).syncObj (if w.getLsbD 20 then p.fence0 + fld w 19 0 else fld w 19 0)

/-- The earlier steps allow the step to start (R308). -/
def Plan.startable (p : Plan) (x : Nat) : Bool :=
  (p.srun x).stage = .waiting &&
    (x = 0 || (if stWithPrev (p.step x) then (p.srun (x - 1)).stage ≠ .waiting
      else (List.range x).all fun y => (p.srun y).stage = .completed))

/-- Register the waits of the steps that have become startable (R343); one met on a broken fence ends the run (R338). -/
def State.registerSteps (s : State) (k : Nat) : State :=
  s.forEach (s.plan k).indices fun s x =>
    let p := s.plan k
    let w := p.step x
    if !p.running || p.fail ≠ 0 || !stWaits w || (p.srun x).waitMet || !p.startable x ||
        s.syn.waits.any (fun y => y.who = .step k x) then s
    else
      let g := s.gateObj p (stWait w)
      let o := s.syncObj g
      let v := p.run + gateDelta (stWait w)
      if !s.cacheRoom g then s
      else
        let s := s.cacheObj g
        if o.broken then s.endRun k stDoneFlagged dtPeerBroken
        else if v.toNat ≤ o.value.toNat then s.modSrun k x fun r => { r with waitMet := true }
        else { s with syn := { s.syn with waits := s.syn.waits ++
          [{ who := .step k x, obj := g, take := false, value := v, at_ := s.now }] } }

/-! ## Transmission (R312, R315, R317) -/

/-- Flits sent and not freed as far as the sender knows, modulo 2^64. -/
def StepRun.unfreed (r : StepRun) : Nat := (r.sent + 2 ^ 64 - r.freedLast % 2 ^ 64) % 2 ^ 64

/-- Credit left on a transmit stream. -/
def stCredit (w : StepW) (r : StepRun) : Nat := stTxBuf w - r.unfreed

/-- A count modulo 2^64 moves on. -/
def count64 (a n : Nat) : Nat := (a + n) % 2 ^ 64

/-- The payload of a `COL_DATA` flit (R312). -/
def colPayload (stream run first : Nat) (data : List Byte) : List Byte :=
  leBytes 2 (stream % 4096) ++ leBytes 2 run ++ leBytes 2 first ++ leBytes 2 data.length ++
    (data ++ List.replicate 232 0).take 232

/-- Send one flit of a transmit stream with the bytes at hand, or note that it has no credit. -/
def State.sendColFlit (s : State) (k x : Nat) : State :=
  let p := s.plan k
  let w := p.step x
  let r := p.srun x
  if r.txBytes.isEmpty then s
  else if stCredit w r = 0 then s.modSrun k x fun r => { r with stallAt := if r.stallAt = 0 then s.now + 1 else r.stallAt }
  else
    let d := r.txBytes.take 232
    let first := (r.txHeads.find? fun n => n < 232).getD 0xFFFF
    let pl := colPayload (stTxStream w) p.run.toNat first d
    let s := s.setPlan k ({ p with flits := p.flits + 1 }.setSrun x { r with
      sent := count64 r.sent 1, txBytes := r.txBytes.drop 232, txHeads := (r.txHeads.filter fun n => 232 ≤ n).map fun n => n - 232
      stallAt := 0 })
    if stTxLink w < 32 then
      s.queueFlit (stTxLink w) { ftype := 0x10, slot := some p.dslot, dst := p.peer (stTxLink w), src := s.fab.node, payload := pl }
    else s.emit (.bridgeCol (stTxLink w - 32) p.dslot pl)

/-- Send whole flits, and the last one once every block is packed. -/
def State.sendCol (k x : Nat) : Nat → State → State
  | 0, s => s
  | f + 1, s =>
    let p := s.plan k
    let r := p.srun x
    let last := r.blocks = stBlocks (p.step x)
    if r.txBytes.isEmpty || !(232 ≤ r.txBytes.length || last) then s
    else if stCredit (p.step x) r = 0 then s.sendColFlit k x
    else State.sendCol k x f (s.sendColFlit k x)

/-- Hand a packed block to the transmit stream. -/
def State.packCol (s : State) (k x : Nat) (b : List Byte) : State :=
  let s := s.modPlan k fun p => { p with wireBytes := p.wireBytes + b.length }
  if b.isEmpty then s else s.modSrun k x fun r => { r with txHeads := r.txHeads ++ [r.txBytes.length], txBytes := r.txBytes ++ b, txAt := s.now }

/-! ## Blocks (R272 to R274, R307, R318 to R320) -/

/-- Buffered bytes of the current run, oldest first. -/
def StepRun.bytesOf (r : StepRun) (run : Nat) : List Byte := ((r.buf.takeWhile fun e => e.1 = run).map fun e => e.2.2).flatten

/-- Use `n` buffered bytes; a flit whose bytes are all used leaves the buffer (R315). -/
def useBytes : Nat → List (Nat × Nat × List Byte) → List (Nat × Nat × List Byte) × Nat
  | _, [] => ([], 0)
  | n, (r, f, b) :: t =>
    if n < b.length then ((r, f, b.drop n) :: t, 0)
    else let (l, k) := useBytes (n - b.length) t; (l, k + 1)

/-- Pass over the bytes of a record that a block without a length has ended, up to the first header that begins in a later
flit of the run (R279, R312): whether one was found, the buffer then, and the flits that leave it. -/
def skipRecord (run : Nat) : List (Nat × Nat × List Byte) → Bool × List (Nat × Nat × List Byte) × Nat
  | [] => (false, [], 0)
  | (r, f, b) :: t =>
    if r ≠ run then (false, (r, f, b) :: t, 0)
    else if f < b.length then (true, (r, f, b.drop f) :: t, 0)
    else
      let (ok, l, n) := skipRecord run t
      (ok, l, n + 1)

/-- The next header once a record that has no length is passed over. -/
def StepRun.resync (r : StepRun) (run : Nat) : StepRun :=
  if r.badRest && r.lost = 0 then
    let (ok, l, n) := skipRecord run r.buf
    { r with buf := l, freed := count64 r.freed n, badRest := !ok }
  else r

/-- The next block that a receive stream holds whole: its bytes, empty for one that is invalid with an earlier one of its
record. -/
def StepRun.nextBlk (r : StepRun) (run : Nat) : Option (List Byte) :=
  if r.lost ≠ 0 then some []
  else if r.badRest then none
  else
    let b := r.bytesOf run
    if b.length < 2 then none
    else if 10 ≤ hdrFmt b then some (b.take 2)
    else if b.length < fmtBytes (hdrFmt b) then none else some (b.take (fmtBytes (hdrFmt b)))

/-- Take a block out of the buffer. One without a length takes the rest of its record, the flit its header began in, with
it; how many later blocks that held is a free value, within the bytes left (R279, log 127). -/
def StepRun.takeBlk (r : StepRun) (b : List Byte) : StepRun :=
  if r.lost ≠ 0 then { r with lost := r.lost - 1 }
  else if 10 ≤ hdrFmt b then
    let left := ((r.buf.headD (0, 0, [])).2.2).length - 2
    { r with buf := r.buf.drop 1, freed := count64 r.freed 1, badRest := true, lost := Config.lostBlocks left % (left / 6 + 1) }
  else
    let (l, n) := useBytes b.length r.buf
    { r with buf := l, freed := count64 r.freed n }

/-- Operand or residual elements of a block: bytes through poison, and the status of a poisoned read. -/
def State.planRead (s : State) (p : Plan) (e off n : Nat) : List Byte × Nat × State :=
  s.objThrough p.slice (s.obj p.slice e) (n / 64 + 2) off n

/-- Store bytes of a run; the status of a discarded write. -/
def State.planWrite (s : State) (p : Plan) (e off : Nat) (b : List Byte) : Nat × State :=
  let (_, st, s) := s.objPut (s.objTag p.slice (s.obj p.slice e)) (s.obj p.slice e) (b.length / 64 + 2) off b
  (st, s)

/-- Of two statuses met in one cycle the lower that is not zero (R359). -/
def orStatus (a b : Nat) : Nat := if a = 0 then b else if b = 0 then a else min a b

/-- The value of a reduction: received values, local operand, residual and MEAN_SCALE (R272, R320). -/
def State.reduceVals (s : State) (p : Plan) (x n : Nat) (got : List TVal) (hasGot : Bool) (t : Stats) :
    List TVal × Stats × Nat × State :=
  let w := p.step x
  let a := stArith w
  let fl := arFlush a
  let es := elemSize (arOpnd a)
  let (ob, st1, s) := s.planRead p (if stFromOut w then p.outObj else p.inObj) ((stSrcElem w + 32 * n) * es) (32 * es)
  let (ov, t) := meetVals fl ((loadElems (arOpnd a) ob).map fun v => (v, false)) t
  let (v, t) := if hasGot then opVals fl (reduceOp a) got ov t else (ov, t)
  let (v, t, st2, s) :=
    if arResid a = 0 then (v, t, 0, s)
    else
      let rs := residSize (arResid a)
      let (rb, st, s) := s.planRead p p.residObj ((stResidElem w + 32 * n) * rs) (32 * rs)
      let (rv, t) := meetVals fl ((loadElems (arResid a - 1) rb).map fun v => (v, false)) t
      let (v, t) := opVals fl add32 v rv t
      (v, t, st, s)
  let (v, t) := if stLastReduce w then meanVals a v t else (v, t)
  (v, t, orStatus st1 st2, s)

/-- Write values back to OUT (R319). -/
def State.writeOut (s : State) (p : Plan) (x n : Nat) (vals : List Nat) (t : Stats) : Nat × Stats × State :=
  let w := p.step x
  let f := arOut (stArith w)
  let (b, t) := storeElems f vals t
  let (st, s) := s.planWrite p p.outObj ((stDstElem w + 32 * n) * elemSize f) b
  (st, t, s)

/-- The transmit sliver that takes block `n` of a step, of its link's pool (R316). DESIGN CHOICE (log 127): in turn. -/
def State.stepSliver (s : State) (p : Plan) (w : StepW) (n : Nat) : Nat :=
  let l := s.txSlivers (poolOf p.header (stTxLink w))
  l.getD (n % l.length) 0

/-- Process block `n` of a step: `blk` is the block received, none for a `SEND`. The status of a poisoned access ends
the run once the block is done (R297, R324). -/
def State.stepBlock (s : State) (k x n : Nat) (blk : Option (List Byte)) : State :=
  let p := s.plan k
  let w := p.step x
  let a := stArith w
  let done (s : State) (t : Stats) (st : Nat) : State :=
    let s := s.modPlan k fun p => { p with stats := p.stats.add t }
    let s := s.modSrun k x fun r => { r with blocks := n + 1 }
    let s := s.progress unPlan
    if st ≠ 0 then s.endRun k st dtNone else s
  let b := blk.getD []
  let d := s.decodeBlk (if b.isEmpty then List.replicate 2 (BitVec.allOnes 8) else b)
  if !stReduce w && blk.isSome then
    -- passthrough: bit for bit onward, dequantised where it is stored; only RECV_STORE counts
    let t1 : Stats := { blocksIn := 1, badBlocks := b2n !d.valid }
    let s := if stSend w then s.packCol k x b else s
    if stStore w then
      let (v, t) := meetVals (arFlush a) (d.vals.map fun y => (y, !d.valid)) t1
      let (st, t, s) := s.writeOut p x n (v.map Prod.fst) t
      done s (if stSend w then {} else t) st
    else done s {} 0
  else
    let t : Stats := {}
    let (got, t) := if blk.isSome then
        let t := { t with blocksIn := 1, badBlocks := b2n !d.valid }
        meetVals (arFlush a) (d.vals.map fun y => (y, !d.valid)) t
      else ([], t)
    let (v, t, st1, s) := s.reduceVals p x n got blk.isSome t
    let vals := v.map Prod.fst
    if stSend w then
      let (dr, s) := s.drawGroup (s.stepSliver p w n) a vals
      let y := sendGroup a dr v (t.flushed ≠ 0) t
      let s := s.packCol k x y.bytes
      let (st2, t, s) := if stStore w then s.writeOut p x n (if stStoreSent w then y.vals else vals) y.stats else (0, y.stats, s)
      let (st3, t, s) := if arResid a = 0 then (0, t, s) else
        let (rb, t) := storeElems (arResid a - 1) y.resid t
        let (st, s) := s.planWrite p p.residObj ((stResidElem w + 32 * n) * residSize (arResid a)) rb
        (st, t, s)
      done s t (orStatus st1 (orStatus st2 st3))
    else
      let (st2, t, s) := s.writeOut p x n vals t
      done s t (orStatus st1 st2)

/-- Work through the blocks a step can take: of a receive stream those whose last byte is in the buffer, of a `SEND` all;
a transmit stream takes no more blocks while a flit of it waits for credit (R317). -/
def State.pumpStep (k x : Nat) : Nat → State → State
  | 0, s => s
  | f + 1, s =>
    let s := if (s.plan k).live x && stSend ((s.plan k).step x) then State.sendCol k x 4 s else s
    let p := s.plan k
    let w := p.step x
    let r := p.srun x
    if !p.live x || r.blocks = stBlocks w || (stSend w && 232 ≤ r.txBytes.length) then s
    else if !stRecv w then State.pumpStep k x f (s.stepBlock k x r.blocks none)
    else
      let run := p.run.toNat % 65536
      let r := r.resync run
      match r.nextBlk run with
      | none => s.modSrun k x fun _ => r
      | some b =>
        let s := s.modSrun k x fun _ => { r.takeBlk b with activeAt := s.now }
        State.pumpStep k x f (s.stepBlock k x r.blocks (some b))

/-- Work a step as far as it goes. A walled slice's steps take the block slots of their share, as time brings them (R316,
R437). -/
def State.pump (s : State) (k x : Nat) : State :=
  if (s.slice (s.plan k).slice).wallServed then s else State.pumpStep k x (stBlocks ((s.plan k).step x) + 1) s

/-! ## Starting a run and its steps (R308, R321, R327) -/

/-- Buffered flits of runs behind the new one leave the buffer (R314). -/
def StepRun.forRun (r : StepRun) (run now : Nat) : StepRun :=
  let keep := r.buf.filter fun e => (e.1 + 65536 - run) % 65536 < 32768
  { sent := r.sent, freed := count64 r.freed (r.buf.length - keep.length), freedLast := r.freedLast, freedSent := r.freedSent
    creditAt := r.creditAt, buf := keep, activeAt := now }

/-- The checks of `PLAN_RUN` at its start (R321). -/
def State.chkPlanRun (s : State) (i : Nat) (c : Cmd) : Chk :=
  match s.planOf i (c.f 1 31 0) with
  | none => (stPlanInvalid, dtA)
  | some k =>
    let p := s.plan k
    let (inH, outH) := (c.f 1 63 32, c.f 3 31 0)
    firstFail [
      chkIf (!p.running) stPlanBusy dtA,
      if inH ≠ 0 then s.planHandle i inH true true false 0 0 dtB else chkOk,
      if outH ≠ 0 then s.planHandle i outH true (needFrom p.steps) true 0 0 dtC else chkOk,
      s.kindInOut i inH outH dtB dtC,
      firstFail (p.steps.map fun st =>
        let a := stArith st
        firstFail [
          if stOpnd st && !stFromOut st && inH ≠ 0 then s.runIn i inH (stSrcElem st) (stCount st) (elemSize (arOpnd a)) dtB else chkOk,
          if stOpnd st && stFromOut st && outH ≠ 0 then s.runIn i outH (stSrcElem st) (stCount st) (elemSize (arOpnd a)) dtC else chkOk,
          if stStore st && outH ≠ 0 then s.runIn i outH (stDstElem st) (stCount st) (elemSize (arOut a)) dtC else chkOk]),
      chkIf (p.peers.all fun e => (s.link e.1).state = .up && (s.link e.1).peerNode = e.2) stColLinkLost dtNone]

/-- A run begins: its state is fresh, and its steps wait for their starts. -/
def State.startRun (s : State) (i q : Nat) (c : Cmd) : State :=
  let k := bits (c.f 1 31 0) 7 0
  let p := s.plan k
  let run := c.w 2
  let p := { p with running := true, ran := true, runQ := i * 2 ^ 18 + q, runSeq := c.seq, run
                    repl := (entryOf (c.f 1 63 32), entryOf (c.f 3 31 0)), runAt := s.now, fail := 0, failDetail := 0
                    stats := {}, creditStall := 0, wireBytes := 0, flits := 0, hint := 0 }
  let p := p.indices.foldl (fun (p : Plan) x => p.setSrun x ((p.srun x).forRun (run.toNat % 65536) s.now)) p
  (s.setPlan k p).registerSteps k

/-- Start one step: its hint goes to the Damper, and its stream begins to move. -/
def State.startStep (s : State) (k x : Nat) : State :=
  let h := stHint ((s.plan k).step x)
  let s := s.modPlan k fun p => { p.setSrun x { p.srun x with stage := .started, activeAt := s.now } with
    hint := if h ≠ 0 then h else p.hint }
  s.pump k x

/-- Start a step and the WITH_PREV steps behind it that need not wait. -/
def State.startChain (k : Nat) : Nat → Nat → State → State
  | 0, _, s => s
  | f + 1, x, s =>
    let p := s.plan k
    if p.running && p.fail = 0 && x < p.steps.length && p.startable x && (!stWaits (p.step x) || (p.srun x).waitMet) then
      let s := (s.startStep k x).registerSteps k
      if stWithPrev ((s.plan k).step (x + 1)) then State.startChain k f (x + 1) s else s
    else s

/-- `STEP_START` (R308). -/
def execStepStart (plan step : Nat) (s : State) : Res :=
  .next <| State.startChain plan (s.plan plan).steps.length step (s.registerSteps plan)

/-! ## Completion (R322, R323) -/

/-- Flits of a stream that its link has not sent or not had acknowledged. -/
def State.streamOut (s : State) (p : Plan) (w : StepW) : Bool :=
  stTxLink w < 32 && (let x := s.link (stTxLink w)
    x.txQueue.any (fun f => f.ftype = 0x10 && f.slot = some p.dslot && leNat (f.payload.take 2) % 4096 = stTxStream w) ||
    x.replay.any fun f => f.col = some (p.dslot, stTxStream w))

/-- A started step has done all its work. -/
def State.stepDone (s : State) (p : Plan) (x : Nat) : Bool :=
  let w := p.step x
  let r := p.srun x
  p.live x && r.blocks = stBlocks w && (!stSend w || (r.txBytes.isEmpty && !s.streamOut p w))

/-- Every step has completed: the `PLAN_RUN` command's work is done. -/
def State.settleRun (s : State) (k : Nat) : State :=
  let p := s.plan k
  if p.running && p.fail = 0 && p.indices.all (fun x => (p.srun x).stage = .completed) then
    s.modCmd (p.runQ / 2 ^ 18) (p.runQ % 2 ^ 18) p.runSeq fun c => if c.runs then c.finishOk p.elementsDone else c
  else s

/-- `STEP_COMPLETE` (R322): the step's SIGNAL fence takes RUN + DELTA; a fence that has left its kind takes nothing. -/
def execStepComplete (plan step : Nat) (s : State) : Res :=
  .next <|
    let p := s.plan plan
    if s.stepDone p step then
      let s := s.modSrun plan step fun r => { r with stage := .completed }
      let w := stSignal (p.step step)
      let g := s.gateObj p w
      let s := if w.getLsbD 21 && (s.syncObj g).kind = .fence then s.signalObj g (p.run + gateDelta w) else s
      (s.registerSteps plan).settleRun plan
    else s

/-- `PLAN_RUN` (R321): the executor works every started step as far as it goes, and ends the command once every step has
completed. -/
def execPlanRun (i q seq : Nat) (s : State) : Res :=
  .next <| s.unit i q seq 0x31 fun c s =>
    let k := bits (c.f 1 31 0) 7 0
    let s := s.registerSteps k
    let s := s.forEach (s.plan k).indices fun s x => s.pump k x
    s.settleRun k

/-- ACLK cycles of a span at the top operating point, 1.9 GHz. -/
def aclkOf (ns : Nat) : Nat := ns * 19 / 10

/-- CREDIT_STALL of a run so far, in ns (R323). -/
def State.creditStall (s : State) (p : Plan) : Nat :=
  p.indices.foldl (fun t x => let r := p.srun x
    if r.stallAt = 0 then t else t + (s.now + 1 - r.stallAt)) p.creditStall

/-- The statistics block of a run (R323). The ACLK cycles in which its blocks stalled for operands or residuals (R318) hang on
the latency of the memory, and are a free value (log 131). -/
def State.runStats (s : State) (p : Plan) : List Byte × State :=
  let block (w : Nat) : List Byte :=
    statsBlock p.stats p.run.toNat (s.now - p.runAt) w (aclkOf (s.creditStall p)) p.wireBytes p.flits
  if p.steps.any fun st => stOpnd st || stResid st then
    let (w, s) := s.draw 64
    (block w.toNat, s)
  else (block 0, s)

/-- The end of a run whose command commits: the hint goes back to `NONE`, the plan is idle again, and the command takes its
flags and its RESULT from the counters (R302, R323, R325, R327). -/
def State.closeRun (s : State) (i q seq k stall : Nat) (t : Stats) : State :=
  let s := s.modPlan k fun p => { p with running := false, hint := 0, repl := (0, 0), creditStall := stall }
  s.modCmd i q seq fun c =>
    let c := { c with flags := c.flags ||| t.flags, result := BitVec.ofNat 64 (t.saturated % 2 ^ 32 + 2 ^ 32 * t.errMax.toNat) }
    if t.badBlocks ≠ 0 then c.flag dtBadBlock else c

/-- The committing `PLAN_RUN`: the statistics block is written, and the run closes (R323). Nothing while the block waits for
the host. -/
def State.commitRun (s : State) (i q : Nat) (c : Cmd) : Option State × State :=
  let k := bits (c.f 1 31 0) 7 0
  let p := s.plan k
  if !p.running || p.runSeq ≠ c.seq || p.runQ ≠ i * 2 ^ 18 + q then (some s, s)
  else
    let stall := s.creditStall p
    let (b, s) := s.runStats p
    let e := p.objs.getD 3 0
    if e = 0 then (some (s.closeRun i q c.seq k stall p.stats), s)
    else match s.storeObj i q c.seq (e - 1) (phStatsOff p.header) b with
    | (.wait, s) => (none, s)
    | (.done, s) => (some (s.closeRun i q c.seq k stall p.stats), s)
    | (.fail st _, s) =>
      (some ((s.modCmd i q c.seq fun c => if stOk c.status then { c with status := st, detail := dtDesc } else c).closeRun
        i q c.seq k stall p.stats), s)

/-! ## Flits that arrive (R312 to R315, R324) -/

/-- The loaded receiving step of a stream on a link field, for a slot. -/
def State.rxStep (s : State) (link : Nat) (slot : Option Nat) (stream : Nat) : Option (Nat × Nat) :=
  (s.loaded.flatMap fun e => (e.2.indices.filter fun x =>
    slot = some e.2.dslot && stRecv (e.2.step x) && stRxLink (e.2.step x) = link && stRxStream (e.2.step x) = stream).map
      fun x => (e.1, x)).head?

/-- The loaded transmitting step of a stream. -/
def State.txStep (s : State) (link : Nat) (slot : Option Nat) (stream : Nat) : Option (Nat × Nat) :=
  (s.loaded.flatMap fun e => (e.2.indices.filter fun x =>
    slot = some e.2.dslot && stSend (e.2.step x) && stTxLink (e.2.step x) = link && stTxStream (e.2.step x) = stream).map
      fun x => (e.1, x)).head?

/-- The link field a flit came over. -/
def flitField : FlitIn → Nat
  | .link l => l
  | .loop => 64
  | .bridge h _ _ _ _ => 32 + h

/-- A stray collective flit (R314, R424). -/
def State.strayFlit (s : State) (link : Nat) : State := if link < 32 then s.priv (0x103 + 8 * link) 1 else s

/-- Place a `COL_DATA` flit (R314, R315). -/
def State.placeCol (s : State) (link : Nat) (f : RxFlit) : State :=
  let b := f.payload
  let stream := leNat (b.take 2) % 4096
  let run := leNat ((b.drop 2).take 2)
  let first := leNat ((b.drop 4).take 2)
  let len := min 232 (leNat ((b.drop 6).take 2))
  let data := (b.drop 8).take len
  match s.rxStep link f.slot stream with
  | none => s.strayFlit link
  | some (k, x) =>
    let p := s.plan k
    let r := p.srun x
    let ahead := (run + 65536 - p.run.toNat % 65536) % 65536
    if (s.slot p.dslot).state = .quarantined || (p.ran && 32768 ≤ ahead) || (p.ran && p.fail ≠ 0 && ahead = 0) then
      s.strayFlit link
    else if p.live x && ahead ≠ 0 then s.endRun k stColProtocol dtNone
    else if stRxBuf (p.step x) ≤ r.buf.length then
      if p.running then s.endRun k stColProtocol dtNone else s.strayFlit link
    else (s.modSrun k x fun r => { r with buf := r.buf ++ [(run, first, data)] }).pump k x

/-- `COL_DATA_RECEIVE` (R314, R315): the flit leaves the link's receive buffer, and its credit returns, on arrival. -/
def execColDataReceive (f : FlitIn) (s : State) : Res :=
  .next <| if 5 ≤ s.rst.step then
      (match s.takeFlit f 0x10 with
        | (some x, s) => s.placeCol (flitField f) x
        | (none, s) => s)
    else s

/-- Entries of a `COL_CTL` payload: stream, run, op, value; parsing ends at an op that is zero or reserved (R313). -/
def ctlEntries : Nat → List Byte → List (Nat × Nat × Nat × Nat)
  | 0, _ => []
  | f + 1, b =>
    let op := leNat ((b.drop 4).take 1)
    if b.length < 16 || op = 0 || 2 < op then []
    else (leNat (b.take 2) % 4096, leNat ((b.drop 2).take 2), op, leNat ((b.drop 8).take 8)) :: ctlEntries f (b.drop 16)

/-- A `CREDIT` entry: the largest FREED received counts (R315). -/
def State.takeCredit (s : State) (link : Nat) (slot : Option Nat) (stream v : Nat) : State :=
  match s.txStep link slot stream with
  | none => s
  | some (k, x) =>
    let p := s.plan k
    let r := p.srun x
    if v ≤ r.freedLast then s
    else
      let stalled := if r.stallAt = 0 then 0 else s.now + 1 - r.stallAt
      let s := s.setPlan k ({ p with creditStall := p.creditStall + stalled }.setSrun x
        { r with freedLast := v, stallAt := 0 })
      s.pump k x

/-- An `ABORT` entry for a receive stream of a running step (R324). -/
def State.takeAbort (s : State) (link : Nat) (slot : Option Nat) (stream run : Nat) : State :=
  match s.rxStep link slot stream with
  | none => s
  | some (k, x) =>
    let p := s.plan k
    if p.live x && run = p.run.toNat % 65536 then s.endRun k stColPeerAbort dtNone else s

def State.takeEntry (s : State) (link : Nat) (slot : Option Nat) (e : Nat × Nat × Nat × Nat) : State :=
  if e.2.2.1 = 1 then s.takeCredit link slot e.1 e.2.2.2 else s.takeAbort link slot e.1 e.2.1

/-- The oldest accepted flit of a type from where a command names it, left in place. -/
def State.peekFlit (s : State) (f : FlitIn) (ftype : Nat) : Option (List Byte) := ((s.takeFlit f ftype).1).map fun x => x.payload

/-- Take a `COL_CTL` flit when its first entry is an `ABORT` as wanted, and act on its entries in order. -/
def State.takeColCtl (s : State) (f : FlitIn) (abort : Bool) : State :=
  match s.peekFlit f 0x11 with
  | none => s
  | some pl =>
    let es := ctlEntries 15 pl
    if 5 ≤ s.rst.step && (match es with
      | e :: _ => e.2.2.1 = 2
      | [] => false) == abort then
      match s.takeFlit f 0x11 with
      | (some x, s) => es.foldl (fun s e => s.takeEntry (flitField f) x.slot e) s
      | (none, s) => s
    else s

/-- `COL_CREDIT_RECEIVE` (R313, R315). -/
def execColCreditReceive (f : FlitIn) (s : State) : Res := .next <| s.takeColCtl f false

/-- `COL_ABORT_RECEIVE` (R313, R324). -/
def execColAbortReceive (f : FlitIn) (s : State) : Res := .next <| s.takeColCtl f true

/-- `COL_CREDIT_SEND` (R315): once FREED has risen by a quarter of the buffer, or 1 µs after the last entry while it has
changed. -/
def execColCreditSend (plan step : Nat) (s : State) : Res :=
  .next <|
    let p := s.plan plan
    let w := p.step step
    let r := p.srun step
    if p.loaded && step < p.steps.length && stRecv w && r.freed ≠ r.freedSent &&
        (stRxBuf w ≤ 4 * ((r.freed + 2 ^ 64 - r.freedSent) % 2 ^ 64) || r.creditAt + us ≤ s.now) then
      (s.modSrun plan step fun r => { r with freedSent := r.freed, creditAt := s.now }).sendColCtl (stRxLink w) p.dslot
        (p.peer (stRxLink w)) (stRxStream w) p.run.toNat 1 r.freed
    else s

/-! ## Walled slices (R316, R437) -/

/-- Block slots of a pool of slivers that a share has had by a time, at one block per sliver and ACLK cycle. -/
def shareSlots (slivers share now : Nat) : Nat := aclkOf now * slivers * share / 16

/-- The links whose pools a step uses: receive, transmit. -/
def stepPools (p : Plan) (w : StepW) : List Nat :=
  (if stRecv w then [poolOf p.header (stRxLink w)] else []) ++ (if stSend w then [poolOf p.header (stTxLink w)] else [])

/-- Slots of a link's pool that fall to a share in the nanosecond that ends at `now`. -/
def State.newSlots (s : State) (l share now : Nat) : Nat :=
  let n := (linkSlivers (s.linkMode l) (linkIx l)).length
  shareSlots n share now - shareSlots n share (now - 1)

/-- A walled step takes the slots of its share in the last nanosecond; those that carry no block stay idle, and count in
privileged counter 5 of their link. -/
def State.wallStep (s : State) (k x : Nat) : State :=
  let p := s.plan k
  let w := p.step x
  if !p.live x || !(s.slice p.slice).wallServed then s
  else
    let pools := stepPools p w
    let slots (l : Nat) : Nat := s.newSlots l (stShare w) s.now
    let t := State.pumpStep k x ((pools.map slots).foldl min (slots (pools.headD 0))) s
    let used := ((t.plan k).srun x).blocks - (p.srun x).blocks
    pools.foldl (fun s l => s.priv (0x105 + 8 * l) (slots l - used)) t

/-- Every started step of a walled slice takes its slots. -/
def State.wallSteps (s : State) : State :=
  if s.clkRuns .aclk then s.loaded.foldl (fun s e => s.forEach e.2.indices fun s x => s.wallStep e.1 x) s else s

/-- `COL_FLUSH_TIMER` (R317): a partly filled flit goes after 64 idle ACLK cycles. -/
def execColFlushTimer (plan step : Nat) (s : State) : Res :=
  .next <|
    let p := s.plan plan
    let r := p.srun step
    if p.live step && !r.txBytes.isEmpty && r.txAt + 34 ≤ s.now then s.sendColFlit plan step else s

/-- `RUN_TIMEOUT` (R324): a started step without a block, or with a packed block and no credit, for TIMEOUT. -/
def execRunTimeout (plan step : Nat) (s : State) : Res :=
  .next <|
    let p := s.plan plan
    let w := p.step step
    let r := p.srun step
    let t := phTimeout p.header
    let rx := stRecv w && r.blocks < stBlocks w && (r.nextBlk (p.run.toNat % 65536)).isNone && r.activeAt + t ≤ s.now
    let tx := stSend w && r.stallAt ≠ 0 && r.stallAt - 1 + t ≤ s.now
    if p.live step && (rx || tx) then
      let l := if tx then stTxLink w else stRxLink w
      let s := s.endRun plan stPartnerLost dtNone
      if l < 32 then s.memberLost (some p.dslot) (p.peer l) 0 else s.memberLost (some p.dslot) s.fab.node (l - 32)
    else s

end Sys2Proof.Machine
end

