-- ==== Sys2Proof/Machine/PowerCmds.lean ====
section
/-! DEFINITION. The power opcodes (R377, R488, R490). -/

namespace Sys2Proof.Machine
open Sys2Proof

/-- HINT code 3 fails. -/
def chkPhaseHint (c : Cmd) : Chk := chkIf (c.f 1 1 0 ≠ 3) stBadOperand dtNone

/-- `PHASE_HINT` (R488): counts for its slot (64 the plain domain) for 100 ms, or until the slot's next hint. -/
def execPhaseHint (i q seq : Nat) (s : State) : Res :=
  .next <| s.unit i q seq 0x70 fun c s => s.endWith i q seq (chkPhaseHint c) fun s =>
    let k := (s.domainOf i).getD 64
    { s with pwr := { s.pwr with hints := (k, c.f 1 1 0, s.now + 100 * ms) :: s.pwr.hints.filter fun h => h.1 ≠ k } }

/-- `OPP_REQUEST` (R490): a value above 7 acts as 7. -/
def execOppRequest (i q seq : Nat) (s : State) : Res :=
  .next <| s.unit i q seq 0x71 fun c s =>
    (s.modSlice i fun l => { l with prefOpp := min 7 (c.f 1 3 0) }).endCmd i q seq 0

end Sys2Proof.Machine
end

