-- ==== Sys2Proof/Machine/ProupCore.lean ====
section
/-! DEFINITION. The control group: `OBJ_DEFINE`, `OBJ_FREE`, `TIME_READ` (R91 to R93, R362, R363). -/

namespace Sys2Proof.Machine
open Sys2Proof

/-! ## OBJ_DEFINE -/

def Cmd.defBase (c : Cmd) : Nat := c.f 1 47 0
def Cmd.defKind (c : Cmd) : Nat := c.f 1 49 48
def Cmd.defRights (c : Cmd) : Nat := c.f 1 52 50
def Cmd.defSize (c : Cmd) : Nat := c.f 2 39 0
def Cmd.defKid (c : Cmd) : Nat := c.f 2 51 40

/-- The range keeps its kind's bound (the table of R363). -/
def defRangeOk (kind base size : Nat) : Bool :=
  if kind = 0 then base < 2 ^ 38 && base % 2 ^ 36 + size ≤ 2 ^ 36
  else if kind = 1 then base < 2 ^ 33 && base + size ≤ 0x1A0000000
  else base + size ≤ 2 ^ 48

/-- The rules of R363. -/
def State.chkObjDefine (s : State) (i : Nat) (c : Cmd) : Chk :=
  firstFail [
    chkIf (c.defKind ≠ 3 && c.defRights ≠ 0 && c.defBase % 64 = 0 && c.defSize % 64 = 0 && c.defSize ≠ 0 &&
      defRangeOk c.defKind c.defBase c.defSize) stBadOperand dtNone,
    chkIf (if c.defKind = 2 then c.defKid = 0
      else s.kidBound c.defKid (s.domainOf i) && (c.defKid = 0 || (s.kid c.defKid).state = .active)) stKidState dtNone,
    chkIf (!(c.defKind = 2 && bit c.defRights 2)) stObjKind dtNone]

/-- The lowest FREE entry of a slice's table. -/
def State.freeObjEntry (s : State) (i : Nat) : Option Nat :=
  lowest (min (s.slice i).otSize ((s.slice i).objs.cells.length + 1)) fun e => (s.obj i e).state = .free

/-- `OBJ_DEFINE` (R91, R362, R363). -/
def execObjDefine (i q seq : Nat) (s : State) : Res :=
  .next <| s.unit i q seq 0x01 fun c s =>
    match s.freeObjEntry i with
    | none => s.failCmd i q seq stNoObjSlot dtNone 0
    | some e =>
      let g := (s.obj i e).gen
      let o : ObjEntry := { state := .valid, gen := g, kind := c.defKind, base := c.defBase, size := c.defSize
                            kid := c.defKid, rd := bit c.defRights 0, wr := bit c.defRights 1, at_ := bit c.defRights 2 }
      (s.setObj i e o).endCmd i q seq 0 (BitVec.ofNat 64 (mkHandle e g))

/-! ## OBJ_FREE -/

/-- The handle of `OBJ_FREE` is looked up like any other. -/
def State.chkObjFree (s : State) (i : Nat) (c : Cmd) : Chk := s.chkObj i (c.f 1 31 0) 0 0 false false dtA

/-- `OBJ_FREE` (R93): the entry is `REVOKED`; the windows over it close. A handle that another command has freed since the
start fails as R92 says. -/
def execObjFree (i q seq : Nat) (s : State) : Res :=
  .next <| s.unit i q seq 0x02 fun c s =>
    s.endWith i q seq (s.chkObjFree i c) fun s => s.freeObj i (hIndex (c.f 1 31 0))

/-! ## TIME_READ -/

/-- `TIME_READ` (R362): its value is taken by the commit. -/
def execTimeRead (i q seq : Nat) (s : State) : Res :=
  .next <| s.unit i q seq 0x03 fun _ s => s.endCmd i q seq 0 (BitVec.ofNat 64 s.now)

end Sys2Proof.Machine
end

