-- ==== Sys2Proof/Machine/ProupFab.lean ====
section
/-! DEFINITION. The fabric group: windows, remote window entries and the records that commands issue (R243 to R245, R259,
R260, R262, R264, R367 to R369). -/

namespace Sys2Proof.Machine
open Sys2Proof

/-! ## Windows -/

def Cmd.winSync (c : Cmd) : Bool := (c.w 1).getLsbD 32
def Cmd.winRights (c : Cmd) : Nat := c.f 1 36 33
def Cmd.winSize (c : Cmd) : Nat := c.f 3 40 0

/-- KIND, RIGHTS and HANDLE of a `WIN_OPEN` agree, and its fields keep the bounds of R243. -/
def Cmd.winOk (c : Cmd) : Bool :=
  if c.winSync then c.f 1 31 0 = 0 && c.winRights = 8 && 1 ≤ c.winSize && c.winSize ≤ 65536
  else c.f 1 31 0 ≠ 0 && c.winRights ≠ 0 && c.winRights < 8 && c.f 2 39 0 % 64 = 0 && c.winSize % 64 = 0 &&
    64 ≤ c.winSize && c.winSize ≤ 2 ^ 40

/-- The checks of R244 and R367. -/
def State.chkWinOpen (s : State) (i : Nat) (c : Cmd) : Chk :=
  if !c.winOk then (stBadOperand, dtNone)
  else if c.winSync then chkIf (c.f 2 19 0 + c.winSize ≤ (s.slice i).syncSize) stSyncInvalid dtNone
  else
    let h := c.f 1 31 0
    firstFail [(s.lookup i h (c.f 2 39 0) c.winSize (bit c.winRights 0) (bit c.winRights 1) (bit c.winRights 2), dtA),
      chkIf (!(bit c.winRights 2 && (s.obj i (hIndex h)).kind = 2)) stObjKind dtA]

/-- The lowest FREE window. -/
def State.freeWin (s : State) : Option Nat :=
  lowest (min 4096 (s.fab.wins.cells.length + 1)) fun w => (s.win w).state = .free

/-- A fresh window key, never zero (R243). -/
def State.drawKey (s : State) : BitVec 32 × State :=
  let (k, s) := s.draw 32
  (BitVec.ofNat 32 (1 + k.toNat % (2 ^ 32 - 1)), s)

/-- `WIN_OPEN` (R244, R367). -/
def execWinOpen (i q seq : Nat) (s : State) : Res :=
  .next <| s.unit i q seq 0x20 fun c s =>
    match s.freeWin with
    | none => s.failCmd i q seq stNoWindow dtNone 0
    | some n =>
      if s.fbx.trngFailed then s.failCmd i q seq stNoEntropy dtNone 0
      else
        let (key, s) := s.drawKey
        let d := s.domainOf i
        let w : Win := { state := .opened, sync := c.winSync, dvalid := d.isSome, dslot := d.getD 0, slice := i
                         obj := hIndex (c.f 1 31 0), objOff := if c.winSync then 0 else c.f 2 39 0
                         syncBase := if c.winSync then c.f 2 19 0 else 0, size := c.winSize
                         rights := BitVec.ofNat 4 c.winRights, key, srcNode := c.f 1 52 37 }
        let s := s.setWin n w
        let s := if c.winSync then s else s.objHold i w.obj
        s.endCmd i q seq 0 (BitVec.ofNat 64 (key.toNat + 2 ^ 32 * n))

/-- `WIN_CLOSE` of a window this slice opened (R367). -/
def State.chkWinClose (s : State) (i : Nat) (c : Cmd) : Chk :=
  let w := s.win (c.f 1 11 0)
  chkIf (w.state ≠ .free && w.slice = i) stBadOperand dtNone

/-- `WIN_CLOSE` (R244, R367): it ends when the window is FREE. -/
def execWinClose (i q seq : Nat) (s : State) : Res :=
  .next <| s.unit i q seq 0x21 fun c s =>
    let n := c.f 1 11 0
    if (s.win n).state = .free then s.endCmd i q seq 0
    else (s.modCmd i q seq fun c => { c with progress := 1 }).closeWin n

/-! ## Remote window entries -/

/-- `RWIN_SET`: TIMEOUT and KEY (R367). -/
def State.chkRwinSet (_s : State) (c : Cmd) : Chk := chkIf (c.f 1 61 55 ≤ 100 && c.f 2 31 0 ≠ 0) stRwinParam dtNone

/-- The lowest FREE entry. -/
def State.freeRwin (s : State) : Option Nat :=
  lowest (min 16384 (s.fab.rwins.cells.length + 1)) fun e => !(s.rwin e).set

/-- `RWIN_SET` (R245, R367). -/
def execRwinSet (i q seq : Nat) (s : State) : Res :=
  .next <| s.unit i q seq 0x22 fun c s =>
    match s.freeRwin with
    | none => s.failCmd i q seq stNoWindow dtNone 0
    | some n =>
      let d := s.domainOf i
      let e : Rwin := { set := true, dvalid := d.isSome, dslot := d.getD 0, slice := i, node := c.f 1 34 19
                        member := c.f 1 42 35, window := c.f 1 54 43, key := BitVec.ofNat 32 (c.f 2 31 0)
                        rights := BitVec.ofNat 4 (c.f 1 18 15), timeout := c.f 1 61 55, aperture := (c.w 1).getLsbD 14 }
      (s.setRwin n e).endCmd i q seq 0 (BitVec.ofNat 64 n)

/-- The entry a fabric command names is SET for its slice and grants the record's kind (R368); `right` is the bit of
RIGHTS, none for `RWIN_CLEAR`. -/
def State.chkEntry (s : State) (i e : Nat) (right : Option Nat) (dt : Nat) : Chk :=
  let w := s.rwin e
  if !w.set || w.slice ≠ i then (stFabDenied, dt)
  else match right with
    | some k => chkIf (w.rights.getLsbD k) stFabRights dt
    | none => chkOk

def State.chkRwinClear (s : State) (i : Nat) (c : Cmd) : Chk := s.chkEntry i (c.f 1 13 0) none dtA

/-- `RWIN_CLEAR` (R367). -/
def execRwinClear (i q seq : Nat) (s : State) : Res :=
  .next <| s.unit i q seq 0x23 fun c s =>
    s.endWith i q seq (s.chkRwinClear i c) fun s => s.setRwin (c.f 1 13 0) {}

/-! ## Start checks of the record commands -/

/-- Fields of a remote signal, or of `SIG_REMOTE` with its operand word (R367, R369). -/
def sigEntry (w : BitVec 64) : Nat := fld w 13 0
def sigPost (w : BitVec 64) : Bool := w.getLsbD 14
def sigObject (w : BitVec 64) : Nat := fld w 31 16

/-- A remote signal's entry and value. -/
def State.chkSig (s : State) (i : Nat) (w v : BitVec 64) (dt : Nat) : Chk :=
  firstFail [s.chkEntry i (sigEntry w) (some 3) dt, chkIf (!sigPost w || v = 1) stBadOperand dt]

def State.chkRemoteSig (s : State) (i : Nat) (c : Cmd) : Chk :=
  if c.remoteSig then s.chkSig i (c.w 6) (c.w 7) dtSignal else chkOk

def Cmd.fabLines (c : Cmd) : Nat := c.f 2 63 32
def Cmd.fabEntry (c : Cmd) : Nat := c.f 1 13 0

/-- `FAB_READ` and `FAB_WRITE` (R367, R368). -/
def State.chkFabRw (s : State) (i : Nat) (c : Cmd) (write : Bool) : Chk :=
  firstFail [s.chkObj i (c.f 2 31 0) (c.f 3 39 0) (64 * c.fabLines) write (!write) dtB,
    s.chkEntry i c.fabEntry (some (b2n write)) dtA,
    chkIf (c.fabLines ≠ 0 && c.f 1 55 16 % 64 = 0 && c.f 3 39 0 % 64 = 0) stBadOperand dtNone, s.chkRemoteSig i c]

/-- `FAB_ATOMIC`. -/
def State.chkFabAtomic (s : State) (i : Nat) (c : Cmd) : Chk :=
  firstFail [s.chkEntry i c.fabEntry (some 2) dtA,
    chkIf (c.f 1 57 18 % 8 = 0 && (c.f 1 17 14 = 2 || c.w 3 = 0)) stBadOperand dtNone, s.chkRemoteSig i c]

/-- `SIG_REMOTE`. -/
def State.chkSigRemote (s : State) (i : Nat) (c : Cmd) : Chk := s.chkSig i (c.w 1) (c.w 2) dtA

/-! ## Issue -/

/-- Take an issue's outcome for a command: the record is out, it ended at its source, or it waits. Answers whether the next
record may follow. -/
def State.tookIssue (s : State) (i q seq : Nat) (r : Issue) (dt : Nat) : Bool × State :=
  match r with
  | .sent => (true, s.modCmd i q seq fun c => { c with recordsOut := c.recordsOut + 1 })
  | .ended st => (false, (s.count i 4 1).modCmd i q seq fun c => { c.fail st dt with issuedAll := true })
  | .full => (false, s)

/-- The command has nothing more to issue. -/
def State.allIssued (s : State) (i q seq : Nat) : State :=
  (s.modCmd i q seq fun c => { c with issuedAll := true }).settleFab i q

/-- The trailing remote signal, then the end of issue (R259, R369). -/
def State.trailSignal (s : State) (i q seq : Nat) : State :=
  match s.cmd? i q seq with
  | none => s
  | some c =>
    if !c.remoteSig || c.sigIssued then s.allIssued i q seq
    else
      let w := s.rwin (sigEntry (c.w 6))
      if (s.chkRemoteSig i c).1 ≠ 0 then
        (s.modCmd i q seq fun c => c.fail (s.chkRemoteSig i c).1 dtSignal).allIssued i q seq
      else
        let (r, s) := s.issueRec (.cmd i q seq) w fkSignal 0 (b2n (sigPost (c.w 6))) true (sigObject (c.w 6)) 0
          (leBytes 8 (c.w 7).toNat ++ leBytes 8 0) 0
        match s.tookIssue i q seq r dtSignal with
        | (true, s) => (s.modCmd i q seq fun c => { c with sigIssued := true }).allIssued i q seq
        | (false, s) => s.settleFab i q

/-- Issue the line records of a `FAB_READ` or `FAB_WRITE` in ascending offset, up to three lines each (R249, R259). -/
def State.issueLines (i q seq : Nat) : Nat → State → State
  | 0, s => s
  | f + 1, s =>
    match s.cmd? i q seq with
    | none => s
    | some c =>
      if !c.runs then s
      else if c.issuedAll then s.settleFab i q
      else if c.status ≠ 0 && c.progress < c.fabLines then s.allIssued i q seq
      else
        let p := c.progress
        let n := min 3 (c.fabLines - p)
        let write := c.opcode = 0x25
        let ck := s.chkEntry i c.fabEntry (some (b2n write)) dtA
        if n = 0 then s.trailSignal i q seq
        else if ck.1 ≠ 0 then (s.modCmd i q seq fun c => c.fail ck.1 dtA).allIssued i q seq
        else
          let (fetched, s) := if write then s.fetchObj i q seq (hIndex (c.f 2 31 0)) (c.f 3 39 0 + 64 * p) (64 * n)
            else (Fetch.got [], s)
          match fetched with
          | .wait => s
          | .fail st _ => (s.modCmd i q seq fun c => c.fail st dtB).allIssued i q seq
          | .got b =>
            let mask : BitVec 64 := if write && n = 1 then fullMask else 0
            let (r, s) := s.issueRec (.cmd i q seq) (s.rwin c.fabEntry) (if write then fkWrite else fkRead) (n - 1) 0 false
              (c.f 1 55 16 + 64 * p) mask b (64 * p)
            match s.tookIssue i q seq r dtA with
            | (true, s) => State.issueLines i q seq f (s.modCmd i q seq fun c => { c with progress := p + n, hostGot := [] })
            | (false, s) => s.settleFab i q

/-- Lines that arrived for a host destination and waited for its translation are stored. -/
def State.storeArrived (s : State) (i q seq : Nat) : State :=
  match s.cmd? i q seq with
  | none => s
  | some c =>
    if c.xlatWait ≠ 0 || c.opcode ≠ 0x24 then s
    else c.hostGot.foldl (fun s g => s.putRead i q seq g.1 g.2) (s.modCmd i q seq fun c => { c with hostGot := [] })

/-- `FAB_READ` (R259, R264, R367). -/
def execFabRead (i q seq : Nat) (s : State) : Res :=
  .next <| s.unit i q seq 0x24 fun c s =>
    (State.issueLines i q seq (c.fabLines + 2) (s.storeArrived i q seq)).settleFab i q

/-- `FAB_WRITE` (R259, R260, R367, R369). -/
def execFabWrite (i q seq : Nat) (s : State) : Res :=
  .next <| s.unit i q seq 0x25 fun c s => State.issueLines i q seq (c.fabLines + 2) s

/-- Issue a command's one record unless it has been issued. -/
def State.issueOne (s : State) (i q seq entry right kind op : Nat) (flag : Bool) (off : Nat) (data : List Byte) : State :=
  match s.cmd? i q seq with
  | none => s
  | some c =>
    let ck := s.chkEntry i entry (some right) dtA
    if c.issuedAll then s.settleFab i q
    else if c.progress = 1 then s.trailSignal i q seq
    else if c.status ≠ 0 then s.allIssued i q seq
    else if ck.1 ≠ 0 then (s.modCmd i q seq fun c => c.fail ck.1 dtA).allIssued i q seq
    else
      let (r, s) := s.issueRec (.cmd i q seq) (s.rwin entry) kind 0 op flag off 0 data 0
      match s.tookIssue i q seq r dtA with
      | (true, s) => (s.modCmd i q seq fun c => { c with progress := 1 }).trailSignal i q seq
      | (false, s) => s.settleFab i q

/-- `FAB_ATOMIC` (R250, R367). -/
def execFabAtomic (i q seq : Nat) (s : State) : Res :=
  .next <| s.unit i q seq 0x26 fun c s =>
    s.issueOne i q seq c.fabEntry 2 fkAtomic (c.f 1 17 14) false (c.f 1 57 18)
      (leBytes 8 (c.w 2).toNat ++ leBytes 8 (c.w 3).toNat)

/-- `SIG_REMOTE`: a flag store (R260, R367). -/
def execSigRemote (i q seq : Nat) (s : State) : Res :=
  .next <| s.unit i q seq 0x27 fun c s =>
    s.issueOne i q seq (sigEntry (c.w 1)) 3 fkSignal (b2n (sigPost (c.w 1))) true (sigObject (c.w 1))
      (leBytes 8 (c.w 2).toNat ++ leBytes 8 0)

/-- `FLUSH_REMOTE` (R262): it ends once no earlier command of its queue has a record outstanding. -/
def execFlushRemote (i q seq : Nat) (s : State) : Res :=
  .next <| s.unit i q seq 0x28 fun _ s => (s.modCmd i q seq fun c => { c with progress := 1 }).settleFab i q

end Sys2Proof.Machine
end

