-- ==== Sys2Proof/Machine/Sync.lean ====
section
/-! DEFINITION. The sync opcodes, the sync engine's registers and the host signal pages (R330, R332, R339, R341, R342, R347
to R349, R373). -/

namespace Sys2Proof.Machine
open Sys2Proof

/-! ## Opcodes (R332, R373) -/

/-- The object that bits 19:0 of word 1 name. -/
def State.opObj (s : State) (i : Nat) (c : Cmd) : Nat := (s.slice i).syncObj (c.f 1 19 0)

/-- An OBJECT outside the slice's range. -/
def State.chkRange (s : State) (i : Nat) (c : Cmd) : Chk := chkIf (c.f 1 19 0 < (s.slice i).syncSize) stSyncInvalid dtNone

/-- Checks of `SYNC_INIT`. -/
def State.chkSyncInit (s : State) (i : Nat) (c : Cmd) : Chk :=
  firstFail [s.chkRange i c, chkIf ((s.syncObj (s.opObj i c)).kind = .free) stSyncBusy dtNone,
    chkIf (c.f 1 20 20 = 0 || (c.w 2).toNat ≤ 0xFFFFFFFF) stSyncParam dtNone]

/-- `SYNC_INIT`. -/
def execSyncInit (i q seq : Nat) (s : State) : Res :=
  .next <| s.unit i q seq 0x40 fun c s => s.endWith i q seq (s.chkSyncInit i c) fun s =>
    (s.setSyncObj (s.opObj i c) { kind := if c.f 1 20 20 = 1 then .event else .fence, value := c.w 2 }).touchObj (s.opObj i c)

/-- Checks of `SYNC_FREE`; a `FREE` object is of no kind that can be freed (log 20). -/
def State.chkSyncFree (s : State) (i : Nat) (c : Cmd) : Chk :=
  let x := s.syncObj (s.opObj i c)
  firstFail [s.chkRange i c, chkIf (x.kind ≠ .free) stSyncKind dtNone, chkIf (x.plan = 0) stSyncBusy dtNone]

/-- `SYNC_FREE` (R337). -/
def execSyncFree (i q seq : Nat) (s : State) : Res :=
  .next <| s.unit i q seq 0x41 fun c s => s.endWith i q seq (s.chkSyncFree i c) fun s => s.orphanObj (s.opObj i c) true

def Cmd.notify (c : Cmd) : Nat := c.f 1 21 20
def Cmd.ntOff (c : Cmd) : Nat := c.f 1 63 24
def Cmd.ntHandle (c : Cmd) : Nat := c.f 3 31 0
def Cmd.vector (c : Cmd) : Nat := c.f 3 42 32
/-- `SYNC_NOTIFY` uses its NTARGET handle: required when NOTIFY writes memory, optional otherwise. -/
def Cmd.usesTarget (c : Cmd) : Bool := c.notify % 2 = 1 || c.ntHandle ≠ 0

/-- Checks of `SYNC_NOTIFY`: the handle's are those of step 6, the rest are its own. -/
def State.chkSyncNotify (s : State) (i : Nat) (c : Cmd) : Chk :=
  firstFail [
    if c.usesTarget then s.chkObj i c.ntHandle c.ntOff 16 false false dtA else chkOk,
    s.chkRange i c, chkIf ((s.syncObj (s.opObj i c)).kind ≠ .free) stSyncKind dtNone,
    chkIf (c.notify < 2 || c.vector < (s.slice i).vecCount) stSyncParam dtNone,
    chkIf (!c.usesTarget || ((s.obj i (hIndex c.ntHandle)).wr && c.ntOff % 16 = 0)) stSyncParam dtA]

/-- `SYNC_NOTIFY` (R342). -/
def execSyncNotify (i q seq : Nat) (s : State) : Res :=
  .next <| s.unit i q seq 0x42 fun c s => s.endWith i q seq (s.chkSyncNotify i c) fun s =>
    (s.modSyncObj (s.opObj i c) fun x =>
      { x with notify := c.notify, thresh := c.w 2, ntHandle := BitVec.ofNat 32 c.ntHandle, ntOff := c.ntOff
               vector := c.vector, armed := true }).fireNotify (s.opObj i c)

/-- Checks of `SYNC_GRANT` (R339, R373). -/
def State.chkSyncGrant (s : State) (i : Nat) (c : Cmd) : Chk :=
  let n := c.f 1 36 20
  firstFail [
    chkIf (n ≠ 0 && n ≤ 65536 && c.f 1 19 0 + n ≤ (s.slice i).syncSize && c.f 1 49 48 ≠ 0) stSyncParam dtNone,
    chkIf ((s.slice i).domain = (s.slice (c.f 1 47 37)).domain) stSyncRights dtNone]

/-- The lowest free grant entry. -/
def State.freeGrant (s : State) : Option Nat :=
  lowest (min 65536 (s.syn.grants.cells.length + 1)) fun k => !(s.grant k).used && !(s.grant k).spent

/-- `SYNC_GRANT` (R339): the lowest free entry, or `SYNC_NO_GRANT`. -/
def execSyncGrant (i q seq : Nat) (s : State) : Res :=
  .next <| s.unit i q seq 0x43 fun c s =>
    match s.freeGrant, s.chkSyncGrant i c with
    | some k, (0, _) =>
      let g := s.grant k
      (s.setGrant k { g with used := true, owner := i, first := (s.slice i).syncObj (c.f 1 19 0), count := c.f 1 36 20
                             grantee := c.f 1 47 37, wait := c.f 1 48 48 = 1, signal := c.f 1 49 49 = 1 }).endCmd i q seq 0
        (BitVec.ofNat 64 (k + 65536 * g.gen))
    | none, (0, _) => s.failCmd i q seq stSyncNoGrant dtNone 0
    | _, (st, dt) => s.failCmd i q seq st dt 0

/-- Checks of `SYNC_UNGRANT`: the entry is the slice's own, at this generation. -/
def State.chkSyncUngrant (s : State) (i : Nat) (c : Cmd) : Chk :=
  let g := s.grant (c.f 1 15 0)
  chkIf (g.used && g.owner = i && g.gen = c.f 1 23 16) stSyncInvalid dtNone

/-- `SYNC_UNGRANT` (R339). -/
def execSyncUngrant (i q seq : Nat) (s : State) : Res :=
  .next <| s.unit i q seq 0x44 fun c s => s.endWith i q seq (s.chkSyncUngrant i c) fun s =>
    (s.revokeGrant (c.f 1 15 0)).settleSync

/-- `SYNC_OP`: nothing beyond its sync operands. -/
def execSyncOp (i q seq : Nat) (s : State) : Res := .next <| s.unit i q seq 0x45 fun _ s => s.endCmd i q seq 0

/-! ## Global registers (R330, R348) -/

def slGranBase (v : BitVec 64) : Nat := fld v 11 0
def slGranCount (v : BitVec 64) : Nat := fld v 24 12
def slVecBase (v : BitVec 64) : Nat := fld v 35 25
def slVecCount (v : BitVec 64) : Nat := fld v 47 36

/-- Non-`FREE` objects of a slice's range. -/
def State.liveObjs (s : State) (i : Nat) : List Nat :=
  let l := s.slice i
  (s.syn.objs.cells.filter fun e => l.synBase * 256 ≤ e.1 && e.1 < l.synBase * 256 + l.syncSize && e.2.kind ≠ .free).map Prod.fst

/-- The slice waits for an unlock before its configuration may change (R385). -/
def State.cfgLocked (s : State) (i : Nat) : Bool := (s.slice i).tdi ≠ .unlocked

/-- What a write of `SYN_SLCFG` reports: 2 `BUSY`, 4 `BAD_PARAM`, 3 `OVERLAP`, 1 `OK`. -/
def State.slcfgResult (s : State) (i : Nat) (v : BitVec 64) : Nat :=
  if !(s.liveObjs i).isEmpty || s.cfgLocked i then 2
  else if 4096 < slGranBase v + slGranCount v || 4096 < slGranCount v || 2048 < slVecBase v + slVecCount v then 4
  else if s.qm.slices.cells.any fun e => e.1 ≠ i && e.2.synCount ≠ 0 && slGranCount v ≠ 0 && slGranBase v < e.2.synBase + e.2.synCount &&
      e.2.synBase < slGranBase v + slGranCount v then 3
  else 1

/-- `SYN_SLCFG_WRITE` (R330): for the slice of `SYN_SLSEL`. -/
def State.writeSynSlcfg (s : State) (r : Req) (v : BitVec 64) : State :=
  s.regWrite r 0x200018 64 (globalPage r) fun s =>
    let n := s.slcfgResult s.syn.slsel v
    let s := { s with syn := { s.syn with slres := n } }
    if n ≠ 1 then s
    else s.modSlice s.syn.slsel fun l =>
      { l with synBase := slGranBase v, synCount := slGranCount v, vecBase := slVecBase v, vecCount := slVecCount v }

/-- `SYN_SLCFG_WRITE`. -/
def execSynSlcfgWrite (r : Req) (v : BitVec 64) (s : State) : Res := .next (s.writeSynSlcfg r v)

/-- `SYN_CTL_WRITE` (R348): a DL_WINDOW outside 2 to 100 is ignored. -/
def execSynCtlWrite (r : Req) (v : BitVec 32) (s : State) : Res :=
  .next <| s.regWriteMgmt r 0x200008 32 fun s =>
    let w := bits v.toNat 6 0
    { s with syn := { s.syn with window := if 2 ≤ w && w ≤ 100 then w else s.syn.window, breakEn := v.getLsbD 7 } }

/-! ## Host signal pages (R341, R349) -/

/-- `HOST_SIGNAL`: a write to `SYN_P_SIGNAL_p` performs the port's action, or is counted as refused. -/
def State.hostSignal (s : State) (r : Req) (slice port : Nat) (v : BitVec 64) : State :=
  s.regWrite r (signalPage slice + 0x28 + port * 0x20) 64 (port < 15 && s.pageWrite slice r) fun s =>
    let l := s.slice slice
    let sel := l.psel.get 0 port
    let k := bits sel.toNat 19 0
    let post := sel.getLsbD 20
    let g := l.syncObj k
    if k < l.syncSize && (s.syncObj g).kind = (if post then SyncKind.event else SyncKind.fence) then
      if post then s.postObj g else s.signalObj g v
    else s.count slice 0xB 1

/-- `HOST_SIGNAL`. -/
def execHostSignal (r : Req) (slice port : Nat) (v : BitVec 64) (s : State) : Res := .next (s.hostSignal r slice port v)

/-- `ORPHAN_ALL` (R337): a write of 0b01 to `SYN_H_CTL`. -/
def execOrphanAll (r : Req) (slice : Nat) (s : State) : Res :=
  .next <| s.regWrite r (signalPage slice) 32 (s.pageWrite slice r || (slice < 2048 && kernelReq r)) fun s =>
    s.orphanSlice slice false

/-! ## Setting objects by hand (R347, R349) -/

/-- The operator debug level: open over management to an authorised operator session in every state (the levels of
*Life-Cycle and Debug Authorisation*); the registers are reached over management only. -/
def State.dbgObj (s : State) : Nat × Nat := (fld s.syn.dbgSel 10 0, fld s.syn.dbgSel 30 11)

/-- What `SYN_DBG_RES` reports: RESULT, KIND, FLAGS, WAITERS. -/
def State.dbgResult (s : State) (res : Nat) (g : Nat) : BitVec 32 :=
  let x := s.syncObj g
  BitVec.ofNat 32 (packFields [(3, res), (2, match x.kind with
    | .free => 0
    | .fence => 1
    | .event => 2), (4, x.flags), (17, s.waiters g)])

/-- The refusal of a debug operation: 3 `BOUND`, 4 `FREE_OBJ`, 0 none. -/
def State.dbgRefusal (s : State) : Nat :=
  let (i, k) := s.dbgObj
  let l := s.slice i
  if l.bound then 3 else if l.syncSize ≤ k || (s.syncObj (l.syncObj k)).kind = .free then 4 else 0

/-- `SYNC_DEBUG_READ`: `READ` of `SYN_DBG_CMD`. -/
def execSyncDebugRead (r : Req) (s : State) : Res :=
  .next <| s.regWriteMgmt r 0x200040 32 fun s =>
    let (i, k) := s.dbgObj
    let g := (s.slice i).syncObj k
    match s.dbgRefusal with
    | 0 => { s with syn := { s.syn with dbgRes := s.dbgResult 2 g, dbgData := (s.syncObj g).value } }
    | n => { s with syn := { s.syn with dbgRes := BitVec.ofNat 32 n } }

/-- Judge the waits on a forced object: those met by the forced value end flagged, and a wait on an object that is still
broken ends `PEER_BROKEN`. -/
def State.forceObj (s : State) (g : Nat) (v : BitVec 64) (clear : Bool) : State :=
  let x := s.syncObj g
  let x' := { x with value := if x.kind = .event then v.setWidth 32 |>.setWidth 64 else v, forced := true, byForce := true }
  let x' := if clear then { x' with regress := false, overflow := false, broken := false } else x'
  (s.setSyncObj g x').touchObj g

/-- `SYNC_FORCE`: `FORCE` of `SYN_DBG_CMD`, with its record. -/
def execSyncForce (r : Req) (clear : Bool) (s : State) : Res :=
  .next <| s.regWriteMgmt r 0x200040 32 fun s =>
    let (i, k) := s.dbgObj
    let g := (s.slice i).syncObj k
    match s.dbgRefusal with
    | 0 =>
      let s := s.record 0x91 srcSync [(2, i), (4, k), (8, s.syn.dbgData.toNat)]
      let s := s.forceObj g s.syn.dbgData clear
      { s with syn := { s.syn with dbgRes := s.dbgResult 2 g } }
    | n => { s with syn := { s.syn with dbgRes := BitVec.ofNat 32 n } }

end Sys2Proof.Machine
end

