-- ==== Sys2Proof/Machine/WitnessCmds.lean ====
section
/-! DEFINITION. The witness opcodes: counter samples, watch windows and witness statements (R374, R426, R427, R430, R434). -/

namespace Sys2Proof.Machine
open Sys2Proof

/-! ## CTR_SAMPLE (R427) -/

def Cmd.smFirst (c : Cmd) : Nat := c.f 3 15 0
def Cmd.smCount (c : Cmd) : Nat := c.f 3 31 16

/-- Start checks of `CTR_SAMPLE`. -/
def State.chkCtrSample (s : State) (i : Nat) (c : Cmd) : Chk :=
  firstFail [s.chkObj i (c.f 1 31 0) (c.f 2 39 0) (16 * c.smCount) false true dtA,
    chkIf (c.smCount ≠ 0 && c.smFirst + c.smCount ≤ 0x11 && c.f 2 39 0 % 64 = 0) stBadOperand dtNone]

/-- The entries of a sample, taken in the start cycle. -/
def Slice.sample (l : Slice) (c : Cmd) : List Byte :=
  ((List.range c.smCount).map fun k => let n := c.smFirst + k
    leBytes 8 (l.ctrs.get 0 n).toNat ++ leBytes 6 c.seq ++ leBytes 1 n ++ leBytes 1 (b2n l.telEn)).flatten

/-- The values a sample takes at its start. -/
def State.startSample (s : State) (i q : Nat) (c : Cmd) : State :=
  s.modCmd i q c.seq fun x => { x with latch := (s.slice i).sample c }

/-- Write what a command latched, and end it; DONE counts the bytes written. -/
def State.putLatch (s : State) (i q seq ix off : Nat) (b : List Byte) : State :=
  match s.storeObj i q seq ix off b with
  | (.wait, s) => s
  | (.fail st k, s) => s.failCmd i q seq st dtA k
  | (.done, s) => s.endCmd i q seq b.length

/-- `CTR_SAMPLE` (R427). -/
def execCtrSample (i q seq : Nat) (s : State) : Res :=
  .next <| s.unit i q seq 0x50 fun c s => s.putLatch i q seq (hIndex (c.f 1 31 0)) (c.f 2 39 0) c.latch

/-! ## Watch windows (R430) -/

def Cmd.waMode (c : Cmd) : Nat := c.f 1 5 4
def Cmd.waLen (c : Cmd) : Nat := c.f 1 63 24
def Cmd.waObj (c : Cmd) : Nat := c.f 2 31 0
def Cmd.waOff (c : Cmd) : Nat := c.f 3 39 0

/-- The lowest free watch window. -/
def State.freeWatch (s : State) : Option Nat := lowest 16 fun n => !(s.watch n).armed

/-- Windows a slice holds. -/
def State.watchesOf (s : State) (i : Nat) : Nat := (s.tel.watch.cells.filter fun e => e.2.armed && e.2.slice = i).length

/-- The checks of `WATCH_ARM`, in the order of R430. -/
def State.chkWatchArm (s : State) (i : Nat) (c : Cmd) : Chk :=
  firstFail [
    chkIf (c.waMode ≠ 3 && !(c.waMode = 2 && !s.boot.variant.getLsbD 9) && c.waOff % 64 = 0 && c.waLen ≠ 0 && c.waLen % 64 = 0) stBadOperand dtNone,
    s.chkObj i c.waObj c.waOff c.waLen true false dtA,
    chkIf ((s.obj i (hIndex c.waObj)).kind ≠ 2) stObjKind dtA,
    chkIf (s.freeWatch.isSome && s.watchesOf i < (s.slice i).watchMax) stNoWatch dtNone]

/-- `WATCH_ARM` (R430): the lowest free window, which holds its object. -/
def execWatchArm (i q seq : Nat) (s : State) : Res :=
  .next <| s.unit i q seq 0x51 fun c s =>
    match s.chkWatchArm i c, s.freeWatch with
    | (0, _), some n =>
      let e := s.obj i (hIndex c.waObj)
      let w : Watch := { armed := true, mode := c.waMode, slice := i, obj := hIndex c.waObj, kind := e.kind, kid := e.kid
                         base := e.base + c.waOff, len := c.waLen, armedAt := s.now }
      ((s.objHold i (hIndex c.waObj)).setWatch n w |>.priv (0x202 + 4 * n) 1).endCmd i q seq 0 (BitVec.ofNat 64 n)
    | (0, _), none => s.failCmd i q seq stNoWatch dtNone 0
    | (st, dt), _ => s.failCmd i q seq st dt 0

/-- The window of bits 3:0 of word 1 was armed by the slice. -/
def State.chkWatch (s : State) (i : Nat) (c : Cmd) : Chk :=
  let w := s.watch (c.f 1 3 0)
  chkIf (w.armed && w.slice = i) stBadOperand dtNone

/-- `WATCH_DISARM` (R430). -/
def execWatchDisarm (i q seq : Nat) (s : State) : Res :=
  .next <| s.unit i q seq 0x52 fun c s => s.endWith i q seq (s.chkWatch i c) fun s => s.disarm (c.f 1 3 0)

/-! ## Witness statements (R434) -/

/-- Bytes of a statement's body. -/
def Watch.bodyLen (w : Watch) : Nat := if w.mode = 1 then 1024 else 64

def Watch.body (w : Watch) : List Byte :=
  if w.mode = 0 then
    leBytes 8 w.elements ++ leBytes 8 w.zeros ++ leBytes 4 w.nans ++ leBytes 4 w.infs ++ leBytes 4 w.least.toNat ++
    leBytes 4 w.greatest.toNat ++ leBytes 8 w.sum.toNat ++ leBytes 8 w.sumsq.toNat ++ leBytes 8 w.subs ++ leBytes 8 0
  else if w.mode = 1 then ((List.range 256).map fun e => leBytes 4 (w.hist.get 0 e)).flatten
  else sha384 w.digested ++ leBytes 8 w.next ++ leBytes 8 0

/-- The header of a statement. -/
def State.watchHeader (s : State) (i : Nat) (c : Cmd) (n : Nat) : List Byte :=
  let w := s.watch n
  let l := s.slice i
  let flags := c.f 1 4 4 + 2 * b2n w.gap + 4 * b2n w.rewritten + 8 * b2n w.droppedFlag +
    16 * b2n (w.mode = 2 && w.next = w.len / 64)
  leBytes 2 1 ++ leBytes 1 1 ++ leBytes 1 3 ++ leBytes 1 w.mode ++ leBytes 1 flags ++ leBytes 1 n ++ leBytes 1 0 ++
  leBytes 8 s.lc.serial.toNat ++ leBytes 8 (s.sys.opSeconds.toNat + 2 ^ 40 * s.sys.powerCycles.toNat) ++
  leBytes 8 (if l.bound then (s.slot l.dslot).domainId.toNat else 0) ++
  leBytes 8 (packFields [(48, w.base), (2, w.kind), (12, w.kid)]) ++ leBytes 8 w.len ++ leBytes 8 w.tapped ++
  leBytes 8 w.dropped ++ leBytes 8 c.seq ++ leBytes 8 (c.ctxnum + 2 ^ 24 * i) ++ leBytes 8 w.armedAt ++
  leBytes 8 s.now ++ List.replicate 32 0

/-- Start checks of `WATCH_REPORT`; the destination is judged against the statement's length when the window is the
slice's own. -/
def State.chkWatchReport (s : State) (i : Nat) (c : Cmd) : Chk :=
  let w := s.watch (c.f 1 3 0)
  let n := if (s.chkWatch i c).1 = 0 then 128 + w.bodyLen + 96 * c.f 1 4 4 else 0
  firstFail [s.chkObj i (c.f 2 31 0) (c.f 3 39 0) n false true dtA, s.chkWatch i c,
    chkIf (!(c.f 1 4 4 = 1 && s.fbx.trngFailed)) stNoEntropy dtNone]

/-- The statement a report takes at its start, signed with the alias key when SIGN is 1. -/
def State.startReport (s : State) (i q : Nat) (c : Cmd) : State :=
  let n := c.f 1 3 0
  let b := s.watchHeader i c n ++ (s.watch n).body
  if c.f 1 4 4 = 1 then
    let (g, s) := (s.useCell .aliasKey).sign .aliasKey b
    s.modCmd i q c.seq fun x => { x with latch := b ++ g }
  else s.modCmd i q c.seq fun x => { x with latch := b }

/-- `WATCH_REPORT` (R434). -/
def execWatchReport (i q seq : Nat) (s : State) : Res :=
  .next <| s.unit i q seq 0x53 fun c s => s.putLatch i q seq (hIndex (c.f 2 31 0)) (c.f 3 39 0) c.latch

end Sys2Proof.Machine
end

