-- ==== Sys2Proof/Machine/Start.lean ====
section
/-! DEFINITION. The start of a command: which queue may start, steps 6 and 7 of R85 by opcode, the objects a command holds
and what its unit takes in the start cycle (R37, R84, R85, R90, R335, R351). -/

namespace Sys2Proof.Machine
open Sys2Proof

/-! ## Start checks -/

/-- Steps 6 and 7 of R85 for an opcode. Opcodes judged wholly in execution pass. -/
def State.chkStart (s : State) (i : Nat) (c : Cmd) : Chk × State :=
  match c.opcode with
  | 0x01 => (s.chkObjDefine i c, s)
  | 0x02 => (s.chkObjFree i c, s)
  | 0x10 => (s.chkCopy i c, s)
  | 0x11 => (s.chkFill i c, s)
  | 0x12 => s.chkReseal i c
  | 0x13 => s.chkReseal i c
  | 0x14 => let r := s.chkCipher i c; (r, s.cipherRefused i c r.1)
  | 0x20 => (s.chkWinOpen i c, s)
  | 0x21 => (s.chkWinClose i c, s)
  | 0x22 => (s.chkRwinSet c, s)
  | 0x23 => (s.chkRwinClear i c, s)
  | 0x24 => (s.chkFabRw i c false, s)
  | 0x25 => (s.chkFabRw i c true, s)
  | 0x26 => (s.chkFabAtomic i c, s)
  | 0x27 => (s.chkSigRemote i c, s)
  | 0x30 => (s.chkPlanLoad i c, s)
  | 0x31 => (s.chkPlanRun i c, s)
  | 0x32 => (s.chkPlanUnload i c, s)
  | 0x33 => (s.chkFmtStart i c, s)
  | 0x34 => (s.chkFmtStart i c, s)
  | 0x40 => (s.chkSyncInit i c, s)
  | 0x41 => (s.chkSyncFree i c, s)
  | 0x42 => (s.chkSyncNotify i c, s)
  | 0x43 => (s.chkSyncGrant i c, s)
  | 0x44 => (s.chkSyncUngrant i c, s)
  | 0x50 => (s.chkCtrSample i c, s)
  | 0x51 => (s.chkWatchArm i c, s)
  | 0x52 => (s.chkWatch i c, s)
  | 0x53 => (s.chkWatchReport i c, s)
  | 0x60 => (s.chkKidBind i, s)
  | 0x61 => (s.chkKidRetire i c, s)
  | 0x62 => (s.chkRgnAssign i c, s)
  | 0x63 => (s.chkRgnRelease i c, s)
  | 0x64 => (s.chkResealKey i c, s)
  | 0x65 => (s.chkHrgAssign i c, s)
  | 0x66 => (s.chkHrgRelease i c, s)
  | 0x70 => (chkPhaseHint c, s)
  | _ => (chkOk, s)

/-- Handles of a command's operand area; a format command's other handles stand in its descriptor. -/
def Cmd.handles (c : Cmd) : List Nat :=
  match c.opcode with
  | 0x02 => [c.f 1 31 0]
  | 0x10 => [c.f 1 31 0, c.f 1 63 32]
  | 0x11 => [c.f 1 31 0]
  | 0x12 => [c.f 1 31 0]
  | 0x13 => [c.f 1 31 0]
  | 0x14 => [c.f 2 31 0, c.f 2 63 32]
  | 0x20 => [c.f 1 31 0]
  | 0x24 => [c.f 2 31 0]
  | 0x25 => [c.f 2 31 0]
  | 0x30 => [c.f 1 31 0]
  | 0x31 => [c.f 1 63 32, c.f 3 31 0]
  | 0x33 => [c.f 1 31 0]
  | 0x34 => [c.f 1 31 0]
  | 0x42 => if c.usesTarget then [c.ntHandle] else []
  | 0x50 => [c.f 1 31 0]
  | 0x51 => [c.f 2 31 0]
  | 0x53 => [c.f 2 31 0]
  | _ => []

/-- Count a started command once for each distinct handle it names (R90). -/
def State.holdHandles (s : State) (i q : Nat) (c : Cmd) : State :=
  (c.handles.filter fun h => h ≠ 0).eraseDups.foldl (fun s h => s.holdFor i q c.seq h) s

/-- Opcodes that make no memory, translation, fabric or cipher request: all their work is issued at their start (R84). -/
def requestFree (op : Nat) : Bool :=
  [0x01, 0x02, 0x03, 0x20, 0x21, 0x22, 0x23, 0x28, 0x32, 0x40, 0x41, 0x42, 0x43, 0x44, 0x45, 0x51, 0x52, 0x60, 0x61, 0x70,
   0x71].contains op

/-- What the unit of an opcode takes in the start cycle. -/
def State.onStart (s : State) (i q : Nat) (c : Cmd) : State :=
  match c.opcode with
  | 0x12 => s.startReseal i q c
  | 0x13 => s.startReseal i q c
  | 0x14 => s.startCipher i q c
  | 0x31 => s.startRun i q c
  | 0x33 => s.fmtLoad i q c.seq
  | 0x34 => s.fmtLoad i q c.seq
  | 0x50 => s.startSample i q c
  | 0x53 => s.startReport i q c
  | 0x64 => s.startRekey i q c.seq (c.f 1 5 0) (c.f 1 17 6)
  | _ => s

/-! ## Which queue may start -/

/-- The registered wait of a command. -/
def State.waitOf (s : State) (i q seq : Nat) : Option Wait := s.syn.waits.find? fun w => w.who = .cmd i q seq

/-- A waiting `TAKE` is served: fewer takes registered on its object before it than its count (R335). -/
def State.takeServed (s : State) (w : Wait) : Bool :=
  w.take && (((s.syn.waits.filter fun x => x.obj = w.obj && x.take).takeWhile fun x => x.who ≠ w.who).length <
    (s.syncObj w.obj).value.toNat)

/-- A queue's commands may start: it is not stopped. Commands fetched before an error still run. -/
def Queue.open (x : Queue) : Bool := x.state = .enabled || x.state = .error || (x.state = .stopping && !x.squash)

/-- A queue's head command whose wait is met and that no flag or limit holds back (R84, R351). -/
def State.startable (s : State) (i q : Nat) : Option Cmd :=
  let x := s.queue i q
  if !x.open || 64 ≤ x.outstanding then none
  else match x.headCmd with
  | none => none
  | some c =>
    let met := c.stage = .ready || (c.stage = .waiting && (match s.waitOf i q c.seq with
      | some w => s.takeServed w
      | none => false))
    if met && (!c.serial || (x.cmds.head?.map Cmd.seq) = some c.seq) then some c else none

def Queue.prio (x : Queue) : Nat := fld x.param 11 10

/-- How far a queue stands behind the round-robin place of its PRIO (R84). -/
def State.rrBehind (s : State) (prio i q : Nat) : Nat := (i * 2 ^ 18 + q + 2 ^ 29 - s.qm.rrPlace.get 0 prio) % 2 ^ 29

/-- A queue of higher PRIO can start, or one of equal PRIO that comes before it in the round-robin order (R84). -/
def State.outranked (s : State) (i q : Nat) : Bool :=
  let p := (s.queue i q).prio
  s.qm.slices.cells.any fun e => e.2.queues.cells.any fun x =>
    (p < x.2.prio || (p = x.2.prio && s.rrBehind p e.1 x.1 < s.rrBehind p i q)) && (s.startable e.1 x.1).isSome

/-- The round-robin place of a queue's PRIO moves behind it (R84). -/
def State.rrMove (s : State) (i q : Nat) : State :=
  { s with qm := { s.qm with rrPlace := s.qm.rrPlace.set 0 (s.queue i q).prio (i * 2 ^ 18 + q + 1) } }

/-- A `TAKE` subtracts one in the cycle in which its command starts (R335). -/
def State.serveTake (s : State) (i q : Nat) (c : Cmd) : State :=
  match s.waitOf i q c.seq with
  | none => s
  | some w =>
    let x := s.syncObj w.obj
    let s := s.dropWait w.who
    let s := s.setSyncObj w.obj { x with value := x.value - 1, byForce := x.byForce && x.value ≠ 1 }
    let s := { s with syn := { s.syn with changedAt := s.syn.changedAt.set 0 w.obj s.now } }
    (s.modCmd i q c.seq fun c => { c with forced := c.forced || x.byForce }).settleObj w.obj

/-- A command that needs PD_CIPHER or PD_WITNESS wakes it (R37). -/
def State.wakeFor (s : State) (op : Nat) : State := match unitPd op with
  | some p => if s.sys.pdFused.getLsbD p then s else { s with sys := { s.sys with pd := s.sys.pd.set .on p .on } }
  | none => s

/-- Start one command (R84, R85): its take, its checks, its objects and what its unit takes. -/
def State.startCmd (s : State) (i q : Nat) (c : Cmd) : State :=
  let s := (s.serveTake i q c).progress unQm
  let s := s.wakeFor c.opcode
  let (r, s) := s.chkStart i c
  if r.1 ≠ 0 then s.finishCmd i q c.seq r.1 r.2
  else
    let s := s.modCmd i q c.seq fun c =>
      { c with stage := .executing, started := true, startedAt := s.now, issuedAll := requestFree c.opcode
               flags := if s.runsThrottled then c.flags ||| flThrottled else c.flags }
    let s := s.holdHandles i q c
    s.onStart i q c

/-- `COMMAND_START` (R84): the head of a queue, unless a queue of higher PRIO, or one of equal PRIO whose turn comes first,
can start. -/
def execCommandStart (slice queue : Nat) (s : State) : Res :=
  .next <|
    let s := s.advance slice queue
    match s.startable slice queue with
    | none => s
    | some c => if s.outranked slice queue then s else ((s.rrMove slice queue).startCmd slice queue c).advance slice queue

end Sys2Proof.Machine
end

