-- ==== Sys2Proof/Machine/Queue.lean ====
section
/-! DEFINITION. Queues: their commands, doorbells, fetch, abort and commit (R77 to R84, R87, R88, R95 to R99, R355, R356). -/

namespace Sys2Proof.Machine
open Sys2Proof

/-! ## Queue commands (R82, R83, R98, R99) -/

def Queue.entries (x : Queue) : Nat := 2 ^ (fld x.param 3 0 + 6)
def Queue.cplEntries (x : Queue) : Nat := 2 ^ (fld x.param 7 4 + 6)
def Queue.ringObj (x : Queue) : Bool := x.param.getLsbD 8
def Queue.cplObj (x : Queue) : Bool := x.param.getLsbD 9

/-- A ring base is aligned, and an object ring gives its right and covers the ring (R83 step 2). -/
def State.ringOk (s : State) (i : Nat) (base : BitVec 64) (obj : Bool) (bytes : Nat) (rd wr : Bool) : Bool :=
  if obj then fld base 31 0 % 4096 = 0 && s.lookup i (fld base 63 32) (fld base 31 0) bytes rd wr false = 0
  else base.toNat % 4096 = 0

/-- What queue `ENABLE` refuses first (R83): 1 `BAD_STATE`, 2 `BAD_PARAM`, 5 `NO_LEVEL`, 3 `CTX_DUP`, 4 `NOT_BOUND`. -/
def State.queueRefusal (s : State) (i q : Nat) (r : Req) : Nat :=
  let l := s.slice i
  let x : Queue := { ring := l.qring.get 0 q, cpl := l.qcpl.get 0 q, param := l.qparam.get 0 q }
  if (s.queue i q).state ≠ .disabled then 1
  else if l.granCount * 64 ≤ q || 10 < fld x.param 3 0 || 10 < fld x.param 7 4 || x.ctxnum = 0 ||
      !s.ringOk i x.ring x.ringObj (64 * x.entries) true false || !s.ringOk i x.cpl x.cplObj (32 * x.cplEntries) false true then 2
  else if l.level = 0 then 5
  else if (s.queuesOf i).any fun k => (s.queue i k).ctxnum = x.ctxnum then 3
  else if x.param.getLsbD 12 && !(l.bound && s.overIface i r) then 4
  else 0

/-- A write of `QM_QCMD`, for the queue that `QM_QSEL` selects. -/
def State.qcmd (s : State) (r : Req) (i : Nat) (f : Nat → State → State) : State :=
  s.regWrite r (slicePage i + 0x40) 32 (s.pageWrite i r) fun s => f (s.slice i).qsel s

/-- Report a refusal, 0 when accepted. -/
def State.qrefuse (s : State) (i q n : Nat) : State := s.modQueue i q fun x => { x with refuse := n }

/-- A command of the state table: refused with `BAD_STATE` without a row, or while the slice is `RESETTING` (R82). -/
def State.qmove (s : State) (i q : Nat) (row : Bool) (f : State → State) : State :=
  if (s.slice i).state = .resetting || !row then s.qrefuse i q 1 else f (s.qrefuse i q 0)

/-- `QUEUE_ENABLE` (R83, R87). DESIGN CHOICE (log 117): the context starts afresh, so that CAUSE and MODE of the last stop
read 0 as well. -/
def execQueueEnable (r : Req) (slice : Nat) (s : State) : Res :=
  .next <| s.qcmd r slice fun q s =>
    if (s.slice slice).state = .resetting then s.qrefuse slice q 1
    else match s.queueRefusal slice q r with
    | 0 =>
      let l := s.slice slice
      let x : Queue := { ring := l.qring.get 0 q, cpl := l.qcpl.get 0 q, param := l.qparam.get 0 q, state := .enabled
                         nextSeq := 1, bound := s.overIface slice r }
      let objs := ((if x.ringObj then [hIndex (fld x.ring 63 32)] else []) ++
        (if x.cplObj then [hIndex (fld x.cpl 63 32)] else [])).eraseDups
      objs.foldl (fun s e => s.objHold slice e) (s.setQueue slice q { x with ringObjs := objs })
    | n => s.qrefuse slice q n

/-- `STOP_DRAIN` (R98). -/
def execStopDrain (r : Req) (slice : Nat) (s : State) : Res :=
  .next <| s.qcmd r slice fun q s => s.qmove slice q ((s.queue slice q).state = .enabled) fun s =>
    s.modQueue slice q fun x => Queue.settle { x with state := .stopping, squash := false, stopTail := x.tail }

/-- `STOP_SQUASH` (R99). -/
def execStopSquash (r : Req) (slice : Nat) (s : State) : Res :=
  .next <| s.qcmd r slice fun q s =>
    let x := s.queue slice q
    s.qmove slice q (x.state = .enabled || x.state = .error || (x.state = .stopping && !x.squash)) fun s =>
      (s.squashQueue slice q dtByStop 0).settleSync

/-- A tail that lies farther from the head than the ring holds (R78). -/
def Queue.tailBad (x : Queue) : Bool := x.entries < (x.tail - x.head).toNat

/-- Judge the tail of an enabled queue. -/
def Queue.judgeTail (x : Queue) : Queue := if x.state = .enabled && x.tailBad then { x with state := .error, cause := 1 } else x

/-- `QUEUE_RESUME` (R78, R82, R87). -/
def execQueueResume (r : Req) (slice : Nat) (s : State) : Res :=
  .next <| s.qcmd r slice fun q s =>
    let l := s.slice slice
    let s := s.settleRstat slice
    s.qmove slice q ((s.queue slice q).state = .stopped && !(l.bound && (s.slot l.dslot).state = .quarantined)) fun s =>
      s.modQueue slice q fun x => Queue.judgeTail { x with state := .enabled }

/-- `QUEUE_DISABLE` (R82, R83). -/
def execQueueDisable (r : Req) (slice : Nat) (s : State) : Res :=
  .next <| s.qcmd r slice fun q s => s.qmove slice q ((s.queue slice q).state = .stopped) fun s =>
    ((s.disableQueue slice q).kidSettle).settleRstat slice

/-! ## Doorbells (R75, R77 to R79) -/

/-- The slice whose granules hold a queue of the die, with the queue's number in the slice. -/
def State.doorbell (s : State) (queue : Nat) : Option (Nat × Nat) :=
  (s.qm.slices.cells.find? fun e => e.2.state ≠ .free && e.2.granBase ≤ queue / 64 && queue / 64 < e.2.granBase + e.2.granCount).map
    fun e => (e.1, queue - e.2.granBase * 64)

/-- A write of a queue's doorbell, admitted as the slice's own page (log 23). -/
def State.dbWrite (s : State) (r : Req) (queue off : Nat) (f : Nat → Nat → State → State) : State :=
  match s.doorbell queue with
  | none => s.regWrite r (0x1000000 + queue * 0x40 + off) 32 false id
  | some (i, q) => s.regWrite r (0x1000000 + queue * 0x40 + off) 32 (s.pageWrite i r) (f i q)

/-- `QM_DB_TAIL_WRITE` (R78). -/
def execQmDbTailWrite (r : Req) (queue : Nat) (v : BitVec 32) (s : State) : Res :=
  .next <| s.dbWrite r queue 0 fun i q s =>
    s.modQueue i q fun x => if x.state = .disabled then x else Queue.judgeTail { x with tail := v }

/-- `QM_DB_CPL_HEAD_WRITE` (R78). -/
def execQmDbCplHeadWrite (r : Req) (queue : Nat) (v : BitVec 32) (s : State) : Res :=
  .next <| s.dbWrite r queue 0x10 fun i q s =>
    s.modQueue i q fun x => if (x.cplTail - v).toNat ≤ x.cplEntries then { x with cplHead := v } else x

/-! ## Abort (R95 to R97) -/

/-- The outcome of an abort: 2 `ACCEPTED`, 3 `ABORT_LATE`, 4 `ABORT_UNKNOWN` (R96). -/
def State.abortResult (s : State) (i q seq : Nat) : Nat :=
  let x := s.queue i q
  if seq = 0 || x.nextSeq ≤ seq || x.state = .disabled then 4
  else match s.cmd? i q seq with
  | none => 3
  | some c => if c.stop = 2 then 3 else 2

/-- `QM_ABORT` (R95): bits 17:0 name the queue; the sequence number stands in `QM_ABORT_SEQ`. It is evaluated at once, so
that the result never reads `PENDING` afterwards. -/
def execQmAbort (r : Req) (slice : Nat) (v : BitVec 32) (s : State) : Res :=
  .next <| s.regWrite r (slicePage slice + 0x58) 32 (s.pageWrite slice r) fun s =>
    let q := bits v.toNat 17 0
    let seq := (s.slice slice).abortSeq
    let n := s.abortResult slice q seq
    let s := s.modSlice slice fun l => { l with abortStat := n }
    match n, s.cmd? slice q seq with
    | 2, some c => ((s.stopCmd slice q c 1 dtByAbort).settleSync).advance slice q
    | _, _ => s

/-! ## Fetch (R84, R87) -/

/-- A fault of a queue: an `ENABLED` queue enters `ERROR`; a `STOPPING` one only records the cause (R82). -/
def Queue.faulted (x : Queue) (cause : Nat) : Queue :=
  if x.state = .enabled then { x with state := .error, cause } else if x.state = .stopping then { x with cause } else x

/-- A queue fetches: it is `ENABLED`, or draining up to its stop tail. -/
def Queue.fetches (x : Queue) : Bool :=
  (x.state = .enabled && x.head ≠ x.tail) || (x.state = .stopping && !x.squash && x.head ≠ x.stopTail)

/-- The fetched words of the ring slot at HEAD: from an object ring out of memory, from a host ring as the host answers. -/
def State.ringWords (s : State) (i : Nat) (x : Queue) (words : Option (List (BitVec 64))) : Option (List (BitVec 64)) × State :=
  let o := hIndex (fld x.ring 63 32)
  let e := s.obj i o
  if x.ringObj && e.kind ≠ 2 then
    match s.objBytes (s.objTag i e) e 3 (fld x.ring 31 0 + 64 * (x.head.toNat % x.entries)) 64 with
    | (b, 0, s) => (some (wordsOf b), s)
    | (_, _, s) => (none, s)
  else (words, s)

/-- `COMMAND_FETCH` (R84, R87): the next command of the ring takes the next sequence number; `words` is what the host read
returns for a ring in host memory, none when the read faults. -/
def execCommandFetch (slice queue : Nat) (words : Option (List (BitVec 64))) (s : State) : Res :=
  .next <|
    let x := s.queue slice queue
    let host := !x.ringObj || (s.obj slice (hIndex (fld x.ring 63 32))).kind = 2
    if !x.fetches || s.fenced || s.ctxZeroed slice || !s.clkRuns .cclk || (host && !s.hostMay slice) then s
    else if 2 ^ 48 ≤ x.nextSeq then s.modQueue slice queue fun x => x.faulted 5
    else match s.ringWords slice x words with
    | (none, s) => s.modQueue slice queue fun x => x.faulted 2
    | (some w, s) =>
      let c : Cmd := { seq := x.nextSeq, words := (List.range 8).map fun k => w.getD k 0, fetchedAt := s.now }
      let s := (s.progress unQm).modQueue slice queue fun x =>
        let x := { x with cmds := x.cmds ++ [c], head := x.head + 1, nextSeq := x.nextSeq + 1 }
        if c.seq = 2 ^ 48 - 1 then x.faulted 5 else x
      s.advance slice queue

/-! ## Commit (R79, R88, R355, R356) -/

/-- The completion ring has room (R79). -/
def Queue.cplRoom (x : Queue) : Bool := (x.cplTail - x.cplHead).toNat < x.cplEntries

/-- Write one completion record: whether it waits for a translation, whether it faulted. -/
def State.cplWrite (s : State) (i : Nat) (x : Queue) (b : List Byte) : Bool × Bool × State :=
  let slot := 32 * (x.cplTail.toNat % x.cplEntries)
  let e := s.obj i (hIndex (fld x.cpl 63 32))
  if x.cplObj && e.kind ≠ 2 then
    match s.objPut (s.objTag i e) e 2 (fld x.cpl 31 0 + slot) b with
    | (_, 0, s) => (false, false, s)
    | (_, _, s) => (false, true, s)
  else
    let a := if x.cplObj then e.base + fld x.cpl 31 0 + slot else x.cpl.toNat + slot
    if x.xlatBad = a / 4096 + 1 then (false, true, s)
    else match s.translate i (a / 4096) true with
    | (.ok, s) => (false, false, (s.hostPut (s.slice i).pasid a b).emit (.hostWrite (s.slice i).pasid a b))
    | (.wait, s) => (true, false, s)
    | (.fault, s) => (false, true, s)

/-- Whether the signal operand finds its object gone from its kind (R336). -/
def State.signalLost (s : State) (c : Cmd) : Bool :=
  c.sigObj ≠ 0 && !c.remoteSig && (s.syncObj (c.sigObj - 1)).kind ≠ (if c.signalOp.action = 3 then SyncKind.fence else SyncKind.event)

/-- What the commit cycle settles in the command's record. -/
def State.commitForm (s : State) (c : Cmd) : Cmd :=
  if !stOk c.status then c
  else
    let c := if c.opcode = 0x03 && !c.broken then { c with result := BitVec.ofNat 64 s.now } else c
    if s.signalLost c then c.flag dtSignalDropped else c

/-- Counters of a committed command (R423 to R425, R428). -/
def State.commitCounts (s : State) (i q : Nat) (c : Cmd) : State :=
  let s := (((s.light 2 1).priv 0x300 1).count i 0 1).count i 1 (b2n (!stOk c.status))
  let s := if 0x10 ≤ c.opcode && c.opcode ≤ 0x14 then s.count i 2 c.recDone else s
  let s := if c.opcode = 0x31 then s.count i 5 c.recDone else s
  let s := if c.flags &&& flThrottled ≠ 0 then s.count i 7 1 else s
  s.modQueue i q fun x => { x with lastCounters := (c.recDone, c.throttle, if c.started then (s.now - c.startedAt) / us else 0) }

/-- The commit of the first command of a queue whose record has been written. -/
def State.committed (s : State) (i q : Nat) (c : Cmd) : State :=
  let s := (s.progress unQm).modQueue i q fun x =>
    { x with cmds := x.cmds.filter fun y => y.seq ≠ c.seq, committed := c.seq, cplTail := x.cplTail + 1 }
  let s := s.commitCounts i q c
  let s := c.held.foldl (fun s e => s.objDrop i e) s
  let s := if stOk c.status then (s.performSignal c).2 else s
  let s := s.modQueue i q Queue.settle
  ((s.settlePages).kidSettle.settleSync.settleRstat i).advance i q

end Sys2Proof.Machine
end

