-- ==== Sys2Proof/Machine/RegRead.lean ====
section
/-! DEFINITION. The register map: which register lies at an offset, its width, who may read it and what it reads (the register
maps of every chapter; R10 to R18, R104, R105). -/

namespace Sys2Proof.Machine
open Sys2Proof

/-- A register as one requester finds it. -/
structure Reg where
  /-- 32 or 64 bits (R9). -/
  width : Nat
  /-- What it reads; a write-only one reads zero. -/
  val : Nat := 0
  /-- Management-only: zero from the host link, unrecorded (R18). -/
  mgmt : Bool := false
  /-- The requester reaches it; otherwise its offset is unassigned to that requester. -/
  ok : Bool := true
  deriving DecidableEq, Repr

def rr64 (v : Nat) : Option Reg := some { width := 64, val := v % 2 ^ 64 }
def rr32 (v : Nat) : Option Reg := some { width := 32, val := v % 2 ^ 32 }
def rm64 (v : Nat) : Option Reg := some { width := 64, val := v % 2 ^ 64, mgmt := true }
def rm32 (v : Nat) : Option Reg := some { width := 32, val := v % 2 ^ 32, mgmt := true }
/-- The same register for a requester that reaches it or not. -/
def Reg.when (ok : Bool) (x : Option Reg) : Option Reg := x.map fun g => { g with ok }

/-- Register `k` of an array of registers at `base` with a stride. -/
def regIdx (o base stride n : Nat) : Option Nat :=
  if base ≤ o && o < base + stride * n && (o - base) % stride = 0 then some ((o - base) / stride) else none

/-! ## CAP (R104, R105) -/

/-- An entry: its header word and its value. -/
def capEntry (type : Nat) (ws : List Nat) : List Nat := packFields [(16, type), (8, 1), (8, ws.length)] :: ws

/-- Ports present after fusing. -/
def State.portMap (s : State) : Nat := fld s.boot.variant 7 0

/-- Words of the `OPCODES` map (R379): the opcodes the variant lacks are clear. -/
def State.opcodeMap (s : State) : List Nat :=
  [if s.cipherFused then 0x001F01FF000F000E else 0x001F01FF001F000E, 0x0003007F000F003F, 0, 0]

/-- What `DIE` holds (R105): slivers, ports, stacks, tiers, domain slots and KIDs; of the slivers 512 are memory slivers and
64 belong to each port (R22, R506). -/
def State.dieCounts (s : State) : List Nat :=
  let ports := onesIn (BitVec.ofNat 32 s.portMap)
  [512 + 64 * ports, ports, 4, 8, s.slotCount, 4096]

/-- What `QUEUES` holds (R105, R510): queues, granules, cached contexts, the highest OT_LOG2, the object area in bytes, and
the commands that execute at once per queue. -/
def State.queueCounts (s : State) : List Nat := [262144, 4096, 4096, 22, s.qm.objArea, 64]

/-- The entries. How `DIE` and `QUEUES` lay out what they hold is unstated, and so is the variant ID (log 3). -/
def State.capWords (s : State) : List Nat :=
  capEntry 1 [(Config.capWord 1 0 s.dieCounts).toNat] ++
  capEntry 2 ((List.range 2).map fun k => (Config.capWord 2 k s.queueCounts).toNat) ++
  capEntry 3 s.opcodeMap ++
  capEntry 4 [packFields [(16, s.fmtMap), (4, 5), (4, 1), (1, 1), (1, b2n (s.boot.variant.getLsbD 10)), (4, 15), (1, 1), (1, 0),
    (8, 16), (8, 32)]] ++
  capEntry 5 [packFields [(21, 1048576), (15, 16384), (17, 65536), (4, 15), (7, 8)]] ++
  capEntry 6 [packFields [(16, 4096), (8, 64), (5, 16), (3, 4), (16, 4096), (8, 4)], packFields [(16, 1), (8, 65)]] ++
  capEntry 7 [packFields [(8, onesIn (BitVec.ofNat 32 s.portMap)), (8, 16), (16, 400), (3, 7)],
    packFields [(16, 2048), (16, 1024), (8, s.portMap)]] ++
  capEntry 8 [s.boot.variant.toNat, (Config.capWord 8 1 []).toNat % 2 ^ 32] ++ [0]

def State.capReg (s : State) (o : Nat) : Option Reg :=
  let ws := s.capWords
  if o = 0 then rr64 (packFields [(16, 0x4B57), (4, 1), (4, 1), (16, 8 * ws.length)])
  else if o = 8 then rr32 (crc32c (ws.map (leBytes 8)).flatten)
  else match regIdx o 0x10 8 ws.length with
  | some k => rr64 (ws.getD k 0)
  | none => none

/-! ## STK (R407, R408) -/

def GroupState.code : GroupState → Nat
  | .electing => 0 | .formed => 1 | .partialGroup => 2 | .leadLost => 3
def SiteState.code : SiteState → Nat
  | .empty => 0 | .probing => 1 | .admitted => 2 | .failed => 3 | .suspended => 4

def State.stkGroup (s : State) : Nat :=
  packFields [(2, s.hst.group.code), (1, b2n s.isLead), (3, s.hst.leadPos), (8, s.hst.present.toNat), (8, s.hst.lost.toNat),
    (16, s.hst.elections)]

def State.siteReg (s : State) (n : Nat) : Nat :=
  let t := s.site n
  packFields [(3, t.state.code), (4, t.cause), (1, b2n t.inSlot), (6, t.dslot),
    (16, packFields ((List.range 16).map fun w => (1, b2n (t.wins.get {} w).set))), (8, t.admissions)]

def State.stkReg (s : State) (r : Req) (o : Nat) : Option Reg :=
  if o = 0x7F00 then Reg.when (globalPage r) (rr64 s.stkGroup)
  else if o = 0x7F08 then rm32 s.hst.prqTimeout
  else if o = 0x7F10 then
    rm64 (packFields [(15, s.hst.xlat.length), (6, s.hst.invals.length), (13, (s.hst.groups.filter fun g => !g.retried).length), (16, s.hst.squashes),
      (14, s.hst.lateCpl)])
  else if o = 0x7F80 then Reg.when (globalPage r) (rr64 s.hst.swkRange.toNat)
  else if o = 0x7F88 then Reg.when (globalPage r) (rr32 0)
  else if o = 0x7F8C then Reg.when (globalPage r) (rr32 s.hst.swkRes)
  else match regIdx o 0x7F40 8 8 with
  | some n => Reg.when (globalPage r) (rr64 (s.siteReg n))
  | none => match regIdx o 0x8000 0x10 2048 with
    | some i => Reg.when (s.pageRead i r) (rr64 (s.slice i).swRange.toNat)
    | none => match regIdx o 0x8008 0x10 2048 with
      | some i => Reg.when (s.pageRead i r) (rr32 0)
      | none => match regIdx o 0x800C 0x10 2048 with
        | some i => Reg.when (s.pageRead i r) (rr32 (s.slice i).swRes)
        | none => none

/-! ## FBX (R133 to R138) -/

def KidState.code : KidState → Nat
  | .free => 0 | .active => 1 | .retiring => 2 | .cooling => 3
def EpochPhase.code : EpochPhase → Nat
  | .steady => 0 | .prepared => 1 | .switched => 2

/-- Slots that hold a PRK_DOM. -/
def State.keyedSlots (s : State) : List Nat := allSlots.filter fun i => (s.cellOf (.prkDom i)).isSome

def State.fbxStatus (s : State) : Nat :=
  packFields [(1, b2n s.fbx.ready), (1, b2n s.fbx.selftestFail), (1, b2n s.fbx.trngOk), (3, s.lcCode), (1, b2n s.fbx.diceDone),
    (1, b2n s.fbx.warm), (13, 4095 - (s.fbx.kids.cells.filter fun e => e.1 ≠ 0 && e.2.state ≠ .free).length),
    (7, s.keyedSlots.length)]

def State.fbxKstat (s : State) (k : Nat) : Nat :=
  let e := s.kid k
  packFields [(2, e.state.code), (1, b2n e.dvalid), (6, e.dslot), (1, b2n (s.msl.rgns.cells.any fun r => r.2.names k)),
    (1, b2n (s.hth.rngs.cells.any fun r => r.2.names k)), (24, min (2 ^ 24 - 1) (s.tagCount k)), (21, min (2 ^ 21 - 1) e.sgen),
    (1, b2n (2 ^ 21 ≤ e.sgen))]

def State.fbxEpoch (s : State) (i : Nat) : Nat :=
  let p := s.slot i
  if (s.cellOf (.prkDom i)).isNone then 0
  else
    let other := match p.phase with
      | .steady => p.epoch
      | .prepared => p.epoch + 1
      | .switched => p.epoch
    packFields [(16, p.txEpoch.toNat), (16, other.toNat), (2, p.phase.code)]

def State.fbxReg (s : State) (o : Nat) : Option Reg :=
  match o with
  | 0x00 => rr64 s.fbxStatus
  | 0x08 => rr32 (packFields [(1, b2n s.fbx.lock), (12, s.fbx.plainKidMax.toNat), (4, s.fbx.remaskLog2.toNat)])
  | 0x10 => rr32 s.fbx.alarm.toNat
  | 0x18 => rr32 s.fbx.ksel.toNat
  | 0x20 => rr64 (s.fbxKstat s.fbx.ksel.toNat)
  | 0x28 => rr32 0
  | 0x30 => rr32 s.fbx.kres
  | o => (regIdx o 0x1000 0x10 64).bind fun i => rm64 (s.fbxEpoch i)

/-! ## MSL (R172 to R178) -/

def RgnState.code : RgnState → Nat
  | .unassigned => 0 | .active => 1 | .rekeying => 2 | .readonly => 3 | .releasing => 4

/-- Entries 0 to 63 that satisfy a test. -/
def State.rgnCount (s : State) (p : Region → Bool) : Nat := (s.msl.rgns.cells.filter fun e => e.1 < 64 && p e.2).length

def State.mslStatus (s : State) : Nat :=
  packFields [(1, b2n s.msl.ready), (7, s.rgnCount fun x => x.state ≠ .unassigned),
    (7, s.rgnCount fun x => x.state ≠ .unassigned && x.mode = 1), (1, b2n (0 < s.rgnCount fun x => x.state = .rekeying))]

def Region.cfgWord (x : Region) : Nat :=
  if x.state = .unassigned then 0 else packFields [(2, x.mode), (2, x.stack), (15, x.base), (16, x.size), (12, x.kid)]

/-- Root slots with LOST set. -/
def State.lostSlots (s : State) (n : Nat) : Nat := ((List.range 8).filter fun k => flagOf (s.root n) k).length

def State.rgnStat (s : State) (n : Nat) : Nat :=
  let x := s.rgn n
  if x.state = .unassigned then 0
  else packFields [(3, x.state.code), (3, x.depth), (24, x.pages), (1, b2n x.rekeyDue), (1, b2n (s.kidDomain x.kid)),
    (7, s.lostSlots n), (21, x.sgen), (1, x.pages / 2 ^ 24)]

def Region.rekeyWord (x : Region) : Nat :=
  if x.state = .rekeying then packFields [(12, x.newKid), (24, x.watermark), (21, x.newSgen)]
  else packFields [(12, 0), (24, x.watermark), (21, 0)]

/-- `MSL_GRP_STAT_g` (R178). -/
def State.grpStat (s : State) (g : Nat) : Nat :=
  let l := s.msl.cache.cells.filterMap Prod.snd |>.filter fun c => s.cacheOf c = 4 + g
  packFields [(13, l.length), (13, (l.filter fun c => c.dirty).length),
    (9, (s.msl.merging.filter fun a => s.arbiter (a / 2 ^ 30) (a % 2 ^ 30 / 64) = g).length)]

def State.mslReg (s : State) (o : Nat) : Option Reg :=
  match o with
  | 0x00 => rr64 s.mslStatus
  | 0x08 => rr32 (b2n s.msl.lock + 2 * b2n s.msl.defUnassigned)
  | 0x10 => rr64 s.msl.bstore.toNat
  | 0x18 => rr32 s.msl.rsel
  | 0x20 => rr64 s.msl.rcfg.toNat
  | 0x28 => rr32 0
  | 0x30 => rr32 s.msl.rres
  | o => match regIdx o 0x1000 8 256 with
    | some k =>
      let x := s.rgn (k / 4)
      match k % 4 with
      | 0 => rr64 x.cfgWord
      | 1 => rr64 (s.rgnStat (k / 4))
      | 2 => rr64 x.rekeyWord
      | _ => rm64 (packFields [(32, x.macFails), (32, x.poisoned)])
    | none => (regIdx o 0x2000 0x40 16).bind fun g => Reg.when (s.pdOn (14 + g)) (rr64 (s.grpStat g))

/-! ## HTH (R204 to R207) -/

def HrgState.code : HrgState → Nat
  | .unassigned => 0 | .initialising => 1 | .active => 2 | .releasing => 3

def State.scrubBehind (s : State) : Bool := s.hth.scrub.cells.any fun e => e.2.behind

def State.hthStatus (s : State) : Nat :=
  packFields [(1, b2n s.hth.ready), (5, (s.hth.rngs.cells.filter fun e => e.2.state ≠ .unassigned).length),
    (1, b2n s.scrubBehind)]

def State.hthReg (s : State) (o : Nat) : Option Reg :=
  match o with
  | 0x00 => rr64 s.hthStatus
  | 0x08 => rr32 (b2n s.hth.lock + 2 * b2n s.hth.defUnassigned)
  | 0x10 => rr32 s.hth.rsel
  | 0x18 => rr64 s.hth.rcfg.toNat
  | 0x20 => rr32 0
  | 0x28 => rr32 s.hth.rres
  | 0x200 => rm32 s.hth.period
  | o => match regIdx o 0x100 8 32 with
    | some k =>
      let x := s.hrg (k / 2)
      if k % 2 = 0 then
        rr64 (if x.state = .unassigned then 0 else packFields [(2, x.mode), (13, x.base), (13, x.size), (12, x.kid)])
      else
        rr64 (packFields [(2, x.state.code), (1, b2n (x.state ≠ .unassigned && s.kidDomain x.kid)),
          (13, if x.state = .initialising then x.initDone else 0)])
    | none => match regIdx o 0x210 8 12 with
      | some u =>
        let e := s.scrub u
        rr64 (packFields [(32, e.progress), (16, e.passes), (1, b2n e.behind)])
      | none => match regIdx o 0x300 8 12 with
        | some u =>
          let e := s.hth.errs.get {} u
          rm64 (packFields [(32, e.corrected), (16, e.uncorrData), (16, e.uncorrMeta)])
        | none => match regIdx o 0x400 8 24 with
          | some a =>
            Reg.when (16 ≤ a || s.pdOn (14 + a)) <| rr64 (packFields [(32, s.hth.bgSlots.get 0 a), (1, b2n (s.escalatedAt a)), (8, min 255 (s.bgAt a).length)])
          | none => (regIdx o 0x600 8 4).bind fun n => rr64 (s.hth.majorHw.get 0 n)

/-! ## LNK (R239, R240) -/

def State.lnkLStat (s : State) (l : Nat) : Nat :=
  let x := s.link l
  packFields [(3, x.state.code), (4, x.cause), (4, x.level), (1, b2n x.resumed), (1, b2n x.savedUsed), (2, x.attempts),
    (16, x.bringups)]
def State.lnkLSeq (s : State) (l : Nat) : Nat :=
  let x := s.link l
  packFields [(12, x.txNext), (12, ((x.replay.head?).map SentFlit.lseq).getD x.txNext), (12, x.rxNext), (12, x.replay.length)]
def State.lnkStatus (s : State) (p : Nat) : Nat :=
  packFields [(1, b2n (s.port p).ready), (2, (s.port p).mode),
    (4, packFields ((List.range 4).map fun k => (1, b2n ((s.link (4 * p + k)).state = .up)))),
    (4, packFields ((List.range 4).map fun k => (1, b2n (s.link (4 * p + k)).saved.isSome)))]

def State.lnkReg (s : State) (p o : Nat) : Option Reg :=
  let x := s.port p
  match o with
  | 0x00 => rr64 (s.lnkStatus p)
  | 0x08 => rm32 (packFields [(2, x.mode), (4, packFields ((List.range 4).map fun k => (1, b2n (s.link (4 * p + k)).enable))),
      (8, 0), (1, b2n x.useSaved)])
  | 0x10 => rm32 x.warnLog2
  | o => match regIdx o 0x100 8 32 with
    | some k =>
      let l := 4 * p + k / 8
      let y := s.link l
      match k % 8 with
      | 0 => rr64 (s.lnkLStat l)
      | 1 => rr64 (packFields [(16, y.peerNode), (8, y.peerMember), (3, y.peerPort), (2, y.peerLink), (3, y.peerHub),
          (32, y.peerSerial.toNat)])
      | 2 => rr64 (s.lnkLSeq l)
      | 3 => rm64 (packFields [(16, y.uncorrCw), (16, y.naks), (8, y.tagUnrec), (8, y.epochDrops), (8, y.noSession),
          (8, y.startStale)])
      | _ => none
    | none => (regIdx o 0x1000 8 16).bind fun k =>
        let n := s.lnk.lanes.get {} (16 * p + k)
        rm64 (packFields [(32, n.corrected), (16, n.snr), (1, b2n n.sigdet), (1, b2n n.inverted), (4, n.logical)])

/-! ## FAB (R269 to R271) -/

def State.fabStatus (s : State) : Nat :=
  packFields [(1, b2n s.fab.ready), (13, (s.fab.wins.cells.filter fun e => e.2.state ≠ .free).length),
    (15, (s.fab.rwins.cells.filter fun e => e.2.set).length), (13, s.fab.held.length), (19, s.fab.outs.length)]

/-- `FAB_SLOT_s`, s = 64 for the plain domain. -/
def State.fabSlot (s : State) (i : Nat) : Nat :=
  let k := if i = 64 then 0 else i + 1
  packFields [(8, min 255 (s.fab.lost.filter fun p => p.1 = k).length), (16, s.fab.lastLost.get 0 i),
    (19, (s.fab.outs.filter fun o => o.pairSlot = k).length), (13, (s.fab.held.filter fun h => h.pair.1 = k).length)]

def State.fabErrWord (s : State) (k : Nat) : Nat := packFields ((List.range 4).map fun j => (16, s.fab.errs.get 0 (k + j)))

def State.fabReg (s : State) (r : Req) (o : Nat) : Option Reg :=
  match o with
  | 0x00 => rr64 s.fabStatus
  | 0x08 => rm64 (packFields [(16, s.fab.node), (8, s.fab.member), (4, s.fab.offBits), (4, 0), (16, s.fab.mapGen)])
  | 0x10 => rm32 s.fab.rtsel
  | 0x18 => rm64 (s.fab.routes.get {} s.fab.rtsel).word.toNat
  | 0x20 => rm32 s.fab.mrsel
  | 0x28 => rm64 (s.fab.mroutes.get {} s.fab.mrsel).word.toNat
  | 0x30 => Reg.when (kernelReq r) (rr32 0)
  | 0x38 => rr32 s.fab.tclrRes
  | 0x40 => rm64 (s.fabErrWord 0)
  | 0x48 => rm64 (s.fabErrWord 4)
  | o => (regIdx o 0x100 8 65).bind fun i => rm64 (s.fabSlot i)

/-! ## QM (the tables before R73, R77 and R106; R76, R81, R101) -/

def SliceState.code : SliceState → Nat
  | .free => 0 | .active => 1 | .resetting => 2
def QState.code : QState → Nat
  | .disabled => 0 | .enabled => 1 | .stopping => 2 | .stopped => 3 | .error => 4

def State.slStat (s : State) (i : Nat) : Nat :=
  let l := s.slice i
  packFields [(2, l.state.code), (4, l.refuse), (1, b2n l.bound), (6, if l.bound then l.dslot else 0), (1, b2n l.walled),
    (24, s.inflight i), (23, (l.objs.cells.filter fun o => o.2.state = .spent).length)]

def Queue.stat (x : Queue) : Nat :=
  packFields [(3, x.state.code), (4, x.cause), (4, x.refuse), (1, b2n x.squash), (48, x.committed)]

/-- BUSY of `QM_SL_RSTAT` as it stands: an action whose condition holds is complete. -/
def State.rstat (s : State) (i : Nat) : Nat :=
  let l := (s.settleRstat i).slice i
  packFields [(2, l.rop), (1, b2n l.rbusy), (24, l.rsquashed), (24, l.raborted)]

def State.slicePageReg (s : State) (i o : Nat) : Option Reg :=
  let l := s.slice i
  let q := l.qsel
  match o with
  | 0x00 => rr64 (s.slStat i)
  | 0x08 => rr32 l.level
  | 0x10 => rr32 0
  | 0x18 => rr64 (s.rstat i)
  | 0x20 => rr32 q
  | 0x28 => rr64 (l.qring.get 0 q).toNat
  | 0x30 => rr64 (l.qcpl.get 0 q).toNat
  | 0x38 => rr64 (l.qparam.get 0 q).toNat
  | 0x40 => rr32 0
  | 0x48 => rr64 (s.queue i q).stat
  | 0x50 => rr64 l.abortSeq
  | 0x58 => rr32 0
  | 0x60 => rr32 l.abortStat
  | _ => none

def State.qmReg (s : State) (r : Req) (o : Nat) : Option Reg :=
  if o < 0x80000 then
    Reg.when (globalPage r) (match o with
      | 0x00 => rr32 s.qm.slsel
      | 0x08 => rr64 (s.slice s.qm.slsel).cfg.toNat
      | 0x10 => rr32 0
      | 0x18 => rr64 (s.slStat s.qm.slsel)
      | _ => none)
  else
    let i := (o - 0x80000) / 0x100
    Reg.when (s.pageRead i r) (s.slicePageReg i ((o - 0x80000) % 0x100))

/-- A queue's doorbell; the offsets its table does not list read as zero (R75, R77). -/
def State.doorbellReg (s : State) (r : Req) (o : Nat) : Option Reg :=
  match s.doorbell (o / 64) with
  | none => none
  | some (i, q) =>
    let x := s.queue i q
    Reg.when (s.pageRead i r) (match o % 64 with
      | 0x00 => rr32 x.tail.toNat
      | 0x08 => rr32 x.head.toNat
      | 0x10 => rr32 x.cplHead.toNat
      | 0x18 => rr32 x.cplTail.toNat
      | 0x20 => rr32 x.state.code
      | _ => if o % 4 = 0 then rr32 0 else none)

/-! ## SYN (R348, R349) -/

def SyncKind.code : SyncKind → Nat
  | .free => 0 | .fence => 1 | .event => 2

def State.synStatus (s : State) : Nat :=
  packFields [(1, b2n s.syn.ready), (15, s.syn.cache.length), (17, s.regWaits.length), (16, s.syn.pinHolds),
    (1, b2n s.syn.escalated)]

/-- The objects of a slice that are not `FREE`, and those orphaned that still drain. -/
def State.hStat (s : State) (i : Nat) : Nat :=
  let l := s.slice i
  let mine := s.syn.objs.cells.filter fun e => l.syncObj 0 ≤ e.1 && e.1 < l.syncObj 0 + l.syncSize && e.2.kind ≠ .free
  packFields [(21, mine.length), (21, (mine.filter fun e => e.2.freeing).length), (1, 0)]

/-- A port's selected object, if it lies in the slice's range. -/
def State.portObj (s : State) (i p : Nat) : Option SyncObj :=
  let l := s.slice i
  let k := bits (l.psel.get 0 p).toNat 19 0
  if k < l.syncSize && (s.syncObj (l.syncObj k)).kind ≠ .free then some (s.syncObj (l.syncObj k)) else none

def State.signalPageReg (s : State) (i o : Nat) : Option Reg :=
  match o with
  | 0x00 => rr32 0
  | 0x08 => rr64 (s.hStat i)
  | o => match regIdx o 0x20 8 60 with
    | none => none
    | some k => match k % 4 with
      | 0 => rr32 ((s.slice i).psel.get 0 (k / 4)).toNat
      | 1 => rr64 0
      | 2 => rr64 (((s.portObj i (k / 4)).map fun x => x.value.toNat).getD 0)
      | _ => rr32 (((s.portObj i (k / 4)).map fun x => packFields [(2, x.kind.code), (4, x.flags)]).getD 0)

def State.synReg (s : State) (r : Req) (o : Nat) : Option Reg :=
  if o < 0x100000 then
    Reg.when (globalPage r) (match o with
      | 0x00 => rr64 s.synStatus
      | 0x08 => rm32 (packFields [(7, s.syn.window), (1, b2n s.syn.breakEn)])
      | 0x10 => rr32 s.syn.slsel
      | 0x18 =>
        let l := s.slice s.syn.slsel
        rr64 (packFields [(12, l.synBase), (13, l.synCount), (11, l.vecBase), (12, l.vecCount)])
      | 0x20 => rr32 s.syn.slres
      | 0x28 => rr64 s.syn.dlStat.toNat
      | 0x30 => rm64 s.syn.dbgSel.toNat
      | 0x38 => rm64 s.syn.dbgData.toNat
      | 0x40 => rm32 0
      | 0x48 => rm32 s.syn.dbgRes.toNat
      | _ => none)
  else
    let i := (o - 0x100000) / 0x200
    Reg.when (s.pageRead i r) (s.signalPageReg i ((o - 0x100000) % 0x200))

/-! ## CE (R421) -/

def PageState.code : PageState → Nat
  | .free => 0 | .empty => 1 | .keyed => 2 | .limit => 3

/-- A `CIPHER` command of a page's slice executes on the page. -/
def State.ceBusy (s : State) (p : Nat) : Bool := s.pageBusy p

def State.ceReg (s : State) (r : Req) (o : Nat) : Option Reg :=
  let n := o / 0x1000
  let p := s.cePage n
  let own (x : Option Reg) : Option Reg := Reg.when (s.ceOwner r n) x
  let ker (x : Option Reg) : Option Reg := Reg.when (ceKernel r n) x
  match o % 0x1000 with
  | 0x000 => own (rr64 (packFields [(2, p.state.code), (1, b2n (p.state ≠ .free && (s.slice p.slice).bound)), (1, b2n (s.ceBusy n)),
      (11, p.slice)]))
  | 0x008 => own (rr32 (packFields [(8, p.aadLen), (6, p.invLog2)]))
  | 0x010 => own (rr64 p.iv.toNat)
  | 0x018 => own (rr32 (p.iv.toNat / 2 ^ 64))
  | 0x020 => own (rr64 0)
  | 0x028 => own (rr64 0)
  | 0x030 => own (rr64 0)
  | 0x038 => own (rr64 0)
  | 0x040 => own (rr32 0)
  | 0x048 => own (rr32 p.kres)
  | 0x050 => own (rr64 p.nhw.toNat)
  | 0x058 => own (rr32 (p.nhw.toNat / 2 ^ 64))
  | 0x060 => own (rr64 p.invs)
  | 0x068 => own (rr64 p.blks)
  | 0x800 => ker (rr32 p.pgCfg)
  | 0x808 => ker (rr32 0)
  | 0x810 => ker (rr32 p.pgRes)
  | 0xF00 => if n = 0 then rm32 (packFields [(1, b2n s.ce.lock), (2, s.ce.dummy.toNat)]) else none
  | _ => none

/-! ## TEL (R423, R424, R428, R439) -/

/-- LIGHT k (R423). -/
def State.lightVal (s : State) (k : Nat) : Nat :=
  if k = 0 then s.now
  else if k = 1 then packFields [(40, s.sys.opSeconds.toNat), (24, s.sys.powerCycles.toNat)]
  else (s.tel.light.get 0 k).toNat

/-- A privileged counter (R424). -/
def State.privVal (s : State) (i : Nat) : Nat :=
  if i < 0xC0 then (if i % 8 < 6 then (s.tel.priv.get 0 i).toNat else 0)
  else if 0x100 ≤ i && i < 0x200 then (if i % 8 < 6 then (s.tel.priv.get 0 i).toNat else 0)
  else if 0x200 ≤ i && i < 0x240 then (if i % 4 < 3 then (s.tel.priv.get 0 i).toNat else 0)
  else if 0x300 ≤ i && i < 0x307 then (s.tel.priv.get 0 i).toNat
  else if 0x10000 ≤ i && i < 0x20000 && i % 0x20 ≤ 0x10 then ((s.slice ((i - 0x10000) / 0x20)).ctrs.get 0 (i % 0x20)).toNat
  else 0

/-- The sum of the wall shares that count (R436). -/
def State.wallSum (s : State) : Nat :=
  ((s.qm.slices.cells.filter fun e => e.2.state ≠ .free && e.2.walled).map fun e => e.2.wallShare).sum

/-- The DONE that a command would carry if it committed now (R428): of a running `PLAN_RUN` that of its plan (R323). -/
def State.progressOf (s : State) (c : Cmd) : Nat :=
  let p := s.plan (c.f 1 7 0)
  if c.opcode = 0x31 && c.stage = .executing && p.running && p.runSeq = c.seq then p.elementsDone else c.recDone

/-- The view command of a queue (R428): its three counters, its sequence number, IDLE and NONE. A queue that has committed
nothing shows NONE alone, as the register's reset value has it (R17, R439; DEDUCED, log 110). -/
def State.viewCmd (s : State) (i q : Nat) : (Nat × Nat × Nat) × Nat × Bool × Bool :=
  let x := s.queue i q
  match x.cmds.find? fun c => c.started with
  | some c => ((s.progressOf c, c.throttle, (s.now - c.startedAt) / us), c.seq, false, false)
  | none =>
    if x.state = .disabled || x.committed = 0 then ((0, 0, 0), 0, false, true) else (x.lastCounters, x.committed, true, false)

def State.telQval (s : State) (i : Nat) : Nat :=
  let sel := (s.slice i).tqsel.toNat
  let v := (s.viewCmd i (bits sel 17 0)).1
  match bits sel 19 18 with
  | 0 => v.1
  | 1 => v.2.1
  | 2 => v.2.2
  | _ => 0

def State.telQseq (s : State) (i : Nat) : Nat :=
  let (_, q, idle, gone) := s.viewCmd i (bits (s.slice i).tqsel.toNat 17 0)
  packFields [(48, q), (1, b2n idle), (1, b2n gone)]

def State.watchStat (s : State) (n : Nat) : Nat :=
  let w := s.watch n
  packFields [(1, b2n w.armed), (2, w.mode), (11, w.slice), (1, b2n w.gap), (1, b2n w.rewritten), (1, b2n w.droppedFlag), (40, w.next)]

def State.telStatus (s : State) : Nat :=
  packFields [(1, b2n (s.blockUp ⟨5, some 3, .cclk⟩)), (16, packFields ((List.range 16).map fun w => (1, b2n (s.watch w).armed))), (8, s.wallSum),
    (12, min 0xFFF (s.qm.slices.cells.filter fun e => e.2.telEn).length)]

/-- `TEL_STATUS` and the light counters lie in AON, the others in PD_WITNESS. -/
def State.telReg (s : State) (r : Req) (o : Nat) : Option Reg :=
  if o < 0x10000 then
    match o with
    | 0x000 => rr64 s.telStatus
    | 0x200 => rm32 s.tel.gsel
    | 0x208 => rm64 (s.privVal s.tel.gsel)
    | o => match regIdx o 0x100 8 8 with
      | some k => Reg.when (globalPage r) (rr64 (s.lightVal k))
      | none => (regIdx o 0x300 8 16).bind fun w => rm64 (s.watchStat w)
  else
    let i := (o - 0x10000) / 0x40
    let l := s.slice i
    Reg.when (s.pageRead i r) (match (o - 0x10000) % 0x40 with
      | 0x00 => rr32 (packFields [(8, l.wallShare), (5, l.watchMax)])
      | 0x08 => rr32 (b2n l.telEn)
      | 0x10 => rr32 l.tqsel.toNat
      | 0x18 => rr64 (s.telQval i)
      | 0x20 => rr64 (s.telQseq i)
      | _ => none)

/-! ## REC, RST, LC, PWR, BOOT (R452, R469, R482, R498, R507) -/

def State.recReg (s : State) (o : Nat) : Option Reg :=
  match o with
  | 0x00 => rr64 (packFields [(32, s.rcd.nextSeq.toNat), (13, s.rcd.valid), (9, s.rcd.perm.length), (5, min 16 s.rcd.permQ.length)])
  | 0x08 => rm32 (packFields [(8, s.rcd.rate), (8, s.rcd.burst)])
  | 0x10 => rm32 s.rcd.sel
  | 0x40 => rm64 s.rcd.drops.toNat
  | o => (regIdx o 0x20 8 4).bind fun k => rm64 (s.recSelected.getD k 0).toNat

/-- PHASE as `RST_STATUS` reports it: 0 while the reset is asserted (R469). -/
def RstPhase.code : RstPhase → Nat
  | .ready => 0 | .fencing => 1 | .held => 0 | .recovering => 2

def State.rstStatus (s : State) : Nat := packFields [(2, s.rst.phase.code), (1, b2n s.rst.dumpHeld), (32, s.rst.lastMs)]
def State.rstCause (s : State) : Nat :=
  packFields [(4, s.rst.lastSource), (3, s.rst.lastLevel), (1, b2n s.rst.forced), (11, s.rst.sources.toNat), (16, s.rst.warmCount.toNat),
    (16, s.rst.coreCount.toNat), (8, s.rst.dumpsLost)]
def State.rstCtl (s : State) : Nat :=
  packFields [(1, b2n s.rst.lock), (1, b2n s.rst.warmEn), (1, b2n s.rst.hostReqEn), (1, b2n s.rst.dumpEn)]

/-- The dump word that `RST_DUMP_SEL` selects. -/
def State.dumpWord (s : State) : Nat := if s.rst.dumpHeld then (s.rst.dump.getD s.rst.dumpSel 0).toNat else 0

def State.rstReg (s : State) (r : Req) (o : Nat) : Option Reg :=
  match o with
  | 0x00 => rr64 s.rstStatus
  | 0x08 => rr64 s.rstCause
  | 0x10 => rm32 s.rstCtl
  | 0x18 => Reg.when (kernelReq r) (rr32 0)
  | 0x20 => rm32 s.rst.dumpSel
  | 0x28 => rm64 s.dumpWord
  | 0x30 => rm32 0
  | _ => none

def Anchor.word (a : Anchor) (j : Nat) : Nat := match a with
  | .empty => 0
  | .valid d => bits d.toNat (64 * j + 63) (64 * j)
  | .wiped => 2 ^ 64 - 1

def State.lcStatus (s : State) : Nat :=
  packFields [(3, s.lcCode), (1, b2n s.lc.pending), (3, s.lc.target), (3, s.lc.step), (1, b2n s.lc.fault), (1, b2n s.lc.debugOpen),
    (3, (s.lc.anchors.filter fun a => match a with
      | .valid _ => true
      | _ => false).length)]

def State.lcReg (s : State) (o : Nat) : Option Reg :=
  match o with
  | 0x000 => rr64 s.lcStatus
  | 0x008 => rm32 0
  | 0x00C => rm32 s.lc.tres
  | 0x010 => rm32 0
  | 0x014 => rm32 s.lc.ares
  | 0x300 => rm32 0
  | 0x304 => rm32 s.lc.dres
  | o => match regIdx o 0x100 8 32 with
    | some k => if k % 8 < 6 then rm64 ((s.lc.anchors.getD (k / 8) .empty).word (k % 8)) else none
    | none => match regIdx o 0x200 8 8 with
      | some j => rm64 (bits s.lc.chal.toNat (64 * j + 63) (64 * j))
      | none => (regIdx o 0x280 8 12).bind fun j => rm64 (bits s.lc.resp.toNat (64 * j + 63) (64 * j))

def State.pwrStatus (s : State) : Nat :=
  packFields [(3, s.pwr.opp), (3, s.pwr.ceil), (2, s.prevailingHint), (32, packFields ((List.range 8).map fun n => (4, s.siteLevel n))),
    (1, b2n s.pwr.throttled), (1, b2n s.pwr.thermWarn), (1, b2n s.pwr.thermTrip), (1, b2n s.pwr.vinFault)]
def State.pwrDomain (s : State) : Nat :=
  packFields [(30, packFields ((List.range 30).map fun p => (1, b2n (s.pdOn p)))), (30, s.sys.pdFused.toNat)]
def State.pwrBudgetStat (s : State) : Nat :=
  packFields [(16, s.pwr.pkgW), (16, s.pwr.shareW), (16, s.pwr.demandW), (7, s.pacing)]

def State.pwrReg (s : State) (o : Nat) : Option Reg :=
  match o with
  | 0x00 => rr64 s.pwrStatus
  | 0x08 => rr64 s.pwrDomain
  | 0x10 => rm32 (packFields [(1, b2n s.pwr.lock), (3, s.pwr.recoveryOpp), (1, b2n s.pwr.testHold), (3, s.pwr.testOpp), (4, s.pwr.testLevel)])
  | 0x18 => rm64 s.pwrBudgetStat
  | 0x20 => rm64 (packFields [(16, s.pwr.vin), (16, s.pwr.pW), (16, s.pwr.stale.toNat)])
  | 0x28 => rm64 (packFields [(16, s.pwr.hottest), (8, s.pwr.trips)])
  | _ => none

def State.bootStatus (s : State) : Nat :=
  packFields [(3, s.boot.phase), (3, s.boot.fault), (2, s.boot.config), (32, s.boot.cfgSeq), (1, b2n s.boot.vbatLost),
    (1, s.boot.fwSlot), (1, s.boot.ucSlot), (10, s.boot.sliversOff), (1, b2n s.boot.trainLoaded)]

/-- Battery-backed words 0 to 30 (R503). -/
def State.bbWord (s : State) (k : Nat) : Nat :=
  match k with
  | 0 => s.boot.bbOpsec.toNat
  | 1 => s.boot.bbPcycle.toNat
  | 2 => s.boot.cfgHint.toNat
  | 3 => b2n s.sys.tamperLatch
  | 4 => packFields [(3, s.pwr.ceil), (8, s.pwr.tripsCounted), (40, s.pwr.firstTrip.toNat)]
  | 5 => s.pwr.pkgLimit
  | _ => 0

/-- `CHECK`: the CRC-32C over words 0 to 2 and 4 to 30 (R503). -/
def State.bbCheck (s : State) : Nat :=
  crc32c (((List.range 31).filter fun k => k ≠ 3).map fun k => leBytes 8 (s.bbWord k)).flatten

def State.bootReg (s : State) (o : Nat) : Option Reg :=
  if o = 0 then rr64 s.bootStatus
  else (regIdx o 0x100 8 32).bind fun k => rm64 (if k = 31 then s.bbCheck else s.bbWord k)

/-! ## The whole window -/

/-- The register that starts at an offset. -/
def State.regAt (s : State) (r : Req) (off : Nat) : Option Reg :=
  if off < 0x10000 then s.capReg off
  else if off < 0x20000 then s.stkReg r (off - 0x10000)
  else if off < 0x40000 then s.fbxReg (off - 0x20000)
  else if off < 0x80000 then s.mslReg (off - 0x40000)
  else if off < 0x90000 then s.hthReg (off - 0x80000)
  else if off < 0xA0000 then none
  else if off < 0xE0000 then s.lnkReg ((off - 0xA0000) / 0x8000) ((off - 0xA0000) % 0x8000)
  else if off < 0x100000 then s.fabReg r (off - 0xE0000)
  else if off < 0x200000 then s.qmReg r (off - 0x100000)
  else if off < 0x400000 then s.synReg r (off - 0x200000)
  else if off < 0x440000 then s.ceReg r (off - 0x400000)
  else if off < 0x480000 then s.telReg r (off - 0x440000)
  else if off < 0x490000 then s.recReg (off - 0x480000)
  else if off < 0x4A0000 then s.rstReg r (off - 0x490000)
  else if off < 0x4B0000 then s.lcReg (off - 0x4A0000)
  else if off < 0x4C0000 then s.pwrReg (off - 0x4B0000)
  else if off < 0x4D0000 then s.bootReg (off - 0x4C0000)
  else if 0x1000000 ≤ off && off < 0x2000000 then s.doorbellReg r (off - 0x1000000)
  else none

/-- The Stoker mailbox, whose contents the spec does not state. -/
def inMailbox (off : Nat) : Bool := 0x10000 ≤ off && off < 0x17F00

/-- Part of a register an access names. -/
inductive Part where
  | whole | low | high
  deriving DecidableEq, Repr

/-- The register and part that an access of a width at an offset names (R9). -/
def State.regOf (s : State) (r : Req) (off width : Nat) : Option (Reg × Part) :=
  match s.regAt r off with
  | some g =>
    if g.width = width && off % (width / 8) = 0 then some (g, .whole)
    else if g.width = 64 && width = 32 && off % 8 = 0 then some (g, .low)
    else none
  | none =>
    if width = 32 && off % 8 = 4 then
      match s.regAt r (off - 4) with
      | some g => if g.width = 64 then some (g, .high) else none
      | none => none
    else none

end Sys2Proof.Machine
end

