-- ==== Sys2Proof/Machine/Dump.lean ====
section
/-! DEFINITION. The crash dump: its header, its sections and the record that goes with it (R462 to R464). -/

namespace Sys2Proof.Machine
open Sys2Proof

/-! ## Codes (R453, R469) -/

def Level.code : Level → Nat
  | .porst => 1 | .sysrst => 2 | .warm => 3 | .core => 4

def Source.code : Source → Nat
  | .powerOn => 1 | .pin => 2 | .mgmt => 3 | .host => 4 | .watchdog => 5 | .deadlock => 6 | .keyFault => 7
  | .majorLimit => 8 | .thermal => 9 | .lc => 10 | .recoveryFail => 11

/-! ## Sections -/

/-- A section: its ID and its body. The order of the fields inside a body is the model's (log 25). -/
abbrev Section := Nat × List Byte

/-- What the operator reads at an offset. -/
def State.mgmtWord (s : State) (off : Nat) : List Byte :=
  leBytes 8 (((s.regAt { mgmt := true } off).map Reg.val).getD 0)

/-- Section 0x01: the RST registers, and the last fencing step begun. -/
def State.dumpRst (s : State) : Section :=
  (1, ((List.range 7).map fun k => s.mgmtWord (0x490000 + 8 * k)).flatten ++ leBytes 8 s.rst.fenceStep)

/-- Offsets of the `*_STATUS` registers, `STK_GROUP` and `PWR_DOMAIN`. -/
def dumpStatusOffsets : List Nat :=
  [0x17F00, 0x20000, 0x40000, 0x80000] ++ ((List.range 8).map fun p => 0xA0000 + 0x8000 * p) ++
  [0xE0000, 0x200000] ++ ((List.range 64).map fun p => 0x400000 + 0x1000 * p) ++ [0x440000, 0x480000, 0x490000, 0x4A0000, 0x4B0000, 0x4B0008, 0x4C0000]

/-- Section 0x02: the status words of every block. -/
def State.dumpStatus (s : State) : Section := (2, (dumpStatusOffsets.map s.mgmtWord).flatten)

/-- 32 bytes about one queue that has an executing command. -/
def dumpQueue (i q : Nat) (x : Queue) (c : Cmd) : List Byte :=
  leBytes 2 i ++ leBytes 4 q ++ leBytes 1 x.state.code ++ leBytes 6 x.committed ++ leBytes 4 x.head.toNat ++
  leBytes 4 x.tail.toNat ++ leBytes 1 c.opcode ++ leBytes 6 c.seq ++ List.replicate 4 0

/-- Section 0x03: queues with executing commands, up to 4,096. -/
def State.dumpQueues (s : State) : Section :=
  let l := (s.qm.slices.cells.map fun e => e.2.queues.cells.filterMap fun q =>
    (q.2.cmds.find? fun c => c.stage = .executing).map fun c => dumpQueue e.1 q.1 q.2 c).flatten
  (3, (l.take 4096).flatten)

/-- Section 0x04: `LNK_L_STAT_l` and `LNK_L_SEQ_l` of every link. -/
def State.dumpLinks (s : State) : Section :=
  (4, ((List.range 32).map fun l => leBytes 8 (s.lnkLStat l) ++ leBytes 8 (s.lnkLSeq l)).flatten)

/-- Section 0x05: `FAB_SLOT_s`, and up to 1,024 pairs with outstanding records. -/
def State.dumpFab (s : State) : Section :=
  let pairs := (s.fab.outs.map fun o => (o.pairSlot, o.node, o.member)).eraseDups.take 1024
  (5, ((List.range 65).map fun i => leBytes 8 (s.fabSlot i)).flatten ++
    (pairs.map fun p => leBytes 1 p.1 ++ leBytes 2 p.2.1 ++ leBytes 1 p.2.2 ++
      leBytes 4 (s.fab.outs.filter fun o => (o.pairSlot, o.node, o.member) = p).length).flatten)

/-- 16 bytes about one edge of the wait-for graph: the object, then the waiter. -/
def dumpEdge (w : Wait) : List Byte :=
  leBytes 4 w.obj ++ (match w.who with
    | .cmd i q seq => leBytes 2 i ++ leBytes 4 q ++ leBytes 6 seq
    | .step p k => leBytes 2 p ++ leBytes 4 k ++ List.replicate 6 0xFF)

/-- Section 0x06: up to 4,096 edges. -/
def State.dumpWaits (s : State) : Section := (6, ((s.regWaits.take 4096).map dumpEdge).flatten)

/-- Sections 0x07 and 0x08, whose bodies the spec leaves undocumented: 64 free bytes each (log 3, log 25). -/
def State.dumpOpaque (s : State) : List Section × State :=
  let (a, s) := s.draw 512
  let (b, s) := s.draw 512
  ([(7, lineBytes a), (8, lineBytes b)], s)

/-- A section with its 16-byte header. -/
def sectionBytes (x : Section) : List Byte :=
  leBytes 2 x.1 ++ leBytes 2 0 ++ leBytes 4 x.2.length ++ List.replicate 8 0 ++ x.2

/-- The dump (R463): header and sections; `stoker` says whether the Stoker's sections are present. -/
def State.dumpBytes (s : State) (secs : List Section) (stoker : Bool) (seq : Nat) : List Byte :=
  let body := (secs.map sectionBytes).flatten
  let head := leBytes 2 1 ++ leBytes 1 (1 + 2 * b2n stoker + 4 * b2n s.rst.forced) ++ leBytes 1 s.rst.level.code ++
    leBytes 1 s.rst.source.code ++ List.replicate 3 0 ++ leBytes 4 seq ++ leBytes 4 (64 + body.length) ++
    leBytes 8 (packFields [(40, s.sys.opSeconds.toNat), (24, s.sys.powerCycles.toNat)]) ++ leBytes 8 s.rst.fenceAt ++
    leBytes 2 secs.length ++ List.replicate 26 0
  head ++ leBytes 4 (crc32c (head ++ body)) ++ body

/-- 64-bit words of a byte string. -/
def dumpWords (b : List Byte) : List (BitVec 64) :=
  (List.range ((b.length + 7) / 8)).map fun k => BitVec.ofNat 64 (leNat ((b.drop (8 * k)).take 8))

/-- Causes that take a dump by themselves (R462). -/
def Source.dumps (x : Source) : Bool := 5 ≤ x.code && x.code ≤ 9

/-- Fencing step 7 (R462): a dump of a cause that takes one, and its `CRASH_DUMP` record; while a dump is held the record
says that none was written. For `WATCHDOG` only sections 0x01 and 0x02 are written, by the reset controller, which then writes
the record (log 133). -/
def State.takeDump (s : State) : State :=
  let stoker := s.rst.source ≠ .watchdog
  let unit := if stoker then srcStoker else srcReset
  if !((s.rst.source.dumps || s.rst.wantDump) && s.rst.dumpEn) then s
  else if s.rst.dumpHeld then
    ({ s with rst := { s.rst with dumpsLost := min 255 (s.rst.dumpsLost + 1) } }).record 0x16 unit [(4, 0), (1, 1)]
  else
    let base := [s.dumpRst, s.dumpStatus]
    let (secs, s) := if stoker then
        let (o, s') := s.dumpOpaque
        (base ++ [s.dumpQueues, s.dumpLinks, s.dumpFab, s.dumpWaits] ++ o, s')
      else (base, s)
    let size := 64 + ((secs.map sectionBytes).flatten).length
    let r := s.record 0x16 unit [(4, size), (1, 0)]
    let seq := (r.rcd.nextSeq - 1).toNat
    { r with rst := { r.rst with dump := dumpWords (s.dumpBytes secs stoker seq), dumpHeld := true } }

end Sys2Proof.Machine
end

