-- ==== Sys2Proof/Machine/Host.lean ====
section
/-! DEFINITION. The host link: translation, page requests, invalidation, transfers, IDE, TDISP, function level reset and MCTP
control (R380 to R393, R455, R497). -/

namespace Sys2Proof.Machine
open Sys2Proof

/-! ## Waiters of a page (R388 to R391) -/

/-- The host port of the function serves, with HCLK running (R35); until then configuration requests are retried and invalidations discarded (R458). -/
def State.hostServes (s : State) : Bool := s.hostUp && s.pdOn 4 && s.clkRuns .hclk

/-- Slices whose requests carry a PASID. -/
def State.pasidSlices (s : State) (p : BitVec 20) : List Nat :=
  (s.qm.slices.cells.filter fun e => e.2.state ≠ .free && e.2.pasid = p).map Prod.fst

/-- The page of a queue's next completion record, when it goes to host memory. -/
def State.cplPage (s : State) (i : Nat) (x : Queue) : Option Nat :=
  let slot := 32 * (x.cplTail.toNat % x.cplEntries)
  let e := s.obj i (hIndex (fld x.cpl 63 32))
  if x.cplObj && e.kind ≠ 2 then none
  else some ((if x.cplObj then e.base + fld x.cpl 31 0 + slot else x.cpl.toNat + slot) / 4096)

/-- Commands that wait for a page go on; where the host refused it, they find so when their unit uses the page. -/
def State.wakeCmds (s : State) (i page : Nat) (bad : Bool) : State :=
  s.modSlice i fun l => { l with queues := ⟨l.queues.cells.map fun e => (e.1, { e.2 with cmds := e.2.cmds.map fun c =>
    if c.xlatWait = page + 1 then { c with xlatWait := 0, xlatBad := if bad then page + 1 else c.xlatBad } else c })⟩ }

/-- A queue whose finished command waits to write its record into a refused page. -/
def State.wakeRings (s : State) (i page : Nat) : State :=
  s.forEach (s.queuesOf i) fun s q =>
    let x := s.queue i q
    if s.cplPage i x = some page && ((x.cmds.head?).map fun c => decide (c.stage = .finished)).getD false then
      s.setQueue i q { x with xlatBad := page + 1 }
    else s

/-- Notification writes that wait: tried again, or refused (R342, R389). -/
def State.wakeNotices (s : State) (i page : Nat) (bad : Bool) : State :=
  let mine (n : Notice) : Bool := n.slice = i && n.addr / 4096 = page
  let l := s.syn.notices.filter mine
  let s := { s with syn := { s.syn with notices := s.syn.notices.filter fun n => !mine n } }
  l.foldl (fun s n =>
    let irq (s : State) : State := match n.vector with
      | some v => s.sendVector i v
      | none => s
    if bad then irq (s.count i 0xC 1)
    else match s.translate i page true with
      | (.ok, s) => irq ((s.hostPut (s.slice i).pasid n.addr n.bytes).emit (.hostWrite (s.slice i).pasid n.addr n.bytes))
      | (.wait, s) => { s with syn := { s.syn with notices := s.syn.notices ++ [n] } }
      | (.fault, s) => irq (s.count i 0xC 1)) s

/-- Host pages a parked record touches. -/
def State.parkedPages (s : State) (p : Parked) : List Nat := pagesOf (s.parkedAt p) (parkedLen p)

/-- Parked records that touch a refused page are answered as poison (R253, R389). -/
def State.failParked (s : State) (i page : Nat) : State :=
  (s.fab.parked.filter fun p => (s.win p.win).slice = i && !p.sent && (s.parkedPages p).contains page).foldl
    (fun s p => s.parkedData p.id none) s

/-- Everything that waits for a page of a PASID goes on, with its translation or refused. -/
def State.settlePage (s : State) (p : BitVec 20) (page : Nat) (bad : Bool) : State :=
  let s := s.forEach (s.pasidSlices p) fun s i =>
    let s := (s.wakeCmds i page bad).wakeNotices i page bad
    if bad then (s.wakeRings i page).failParked i page else s
  s.retryParked

/-- Waits for a page that no Translation Request and no page request covers: their units ask again (R388, R389). -/
def State.wakeStarved (s : State) : State :=
  { s with qm := { s.qm with slices := ⟨s.qm.slices.cells.map fun e => (e.1, { e.2 with queues :=
      ⟨e.2.queues.cells.map fun q => (q.1, { q.2 with cmds := q.2.cmds.map fun c =>
        let asked := (s.hst.xreqs.any fun r => r.1 = e.2.pasid && r.2.1 + 1 = c.xlatWait) ||
          (s.hst.groups.any fun g => g.pasid = e.2.pasid && g.page + 1 = c.xlatWait && !g.void)
        if c.xlatWait ≠ 0 && !asked then { c with xlatWait := 0 } else c })⟩ })⟩ } }

/-! ## The translation cache -/

/-- A transfer in flight under an entry (R388, R392). -/
def Xlat.carries (x : Xlat) (t : Xfer) : Bool :=
  t.pasid = x.pasid && !t.abandoned && t.addr < x.base + x.size && x.base < t.addr + t.len

/-- Remove the least recently used entry that no transfer uses; the list is most recently used first. -/
def dropLru (busy : Xlat → Bool) : List Xlat → Option (List Xlat)
  | [] => none
  | x :: r => match dropLru busy r with
    | some r' => some (x :: r')
    | none => if busy x then none else some r

/-- Fill an entry: a full cache replaces one, and keeps none when every entry has a transfer in flight. -/
def State.fillXlat (s : State) (x : Xlat) : State :=
  let l := s.hst.xlat.filter fun y => !(y.pasid = x.pasid && y.base = x.base && y.size = x.size)
  if l.length < 16384 then { s with hst := { s.hst with xlat := x :: l } }
  else match dropLru (fun y => s.hst.xfers.any y.carries) l with
    | some l => { s with hst := { s.hst with xlat := x :: l } }
    | none => s

/-- The lowest free page-request group of a PASID, of 512; 4,096 groups in all (R380). -/
def State.freeGroup (s : State) (p : BitVec 20) : Option Nat :=
  if 4096 ≤ s.hst.groups.length then none
  else lowest 512 fun g => !s.hst.groups.any fun x => x.pasid = p && x.group = g

/-- Ask the host for a page (R390), which counts (R424, R425). Without a free group the waiters ask for their translation
again. -/
def State.askPage (s : State) (p : BitVec 20) (page : Nat) (write : Bool) : State :=
  match s.freeGroup p with
  | none => s
  | some g =>
    let x : PageGroup := { group := g, pasid := p, page, write, due := s.now + s.hst.prqTimeout * ms }
    let s := { s with hst := { s.hst with groups := s.hst.groups ++ [x] } }
    let s := s.forEach (s.pasidSlices p) fun s i => (s.modSlice i fun l => { l with pagedSince := true }).count i 0xE 1
    (s.priv 0x304 1).emit (.pageRequest p page g)

/-- `TRANSLATION_COMPLETION` (R389, R390): a completion of a request that is not outstanding has no effect. -/
def execTranslationCompletion (pasid : BitVec 20) (page : Nat) (c : XlatCpl) (s : State) : Res :=
  .next <|
    match s.hst.xreqs.find? fun r => r.1 = pasid && r.2.1 = page with
    | none => s
    | some (_, _, write) =>
      let again := s.hst.groups.any fun g => g.pasid = pasid && g.page = page && g.retried
      let s := { s with hst := { s.hst with
        xreqs := s.hst.xreqs.filter fun r => !(r.1 = pasid && r.2.1 = page)
        groups := s.hst.groups.filter fun g => !(g.pasid = pasid && g.page = page && g.retried) } }
      match c with
      | .refused => (s.settlePage pasid page true).wakeStarved
      | .success base size xb rd wr =>
        if (if write then wr else rd) then
          ((s.fillXlat { pasid, base, size, trans := xb, rd, wr }).settlePage pasid page false).wakeStarved
        else if s.hst.pri && !s.hst.priBlocked && !again then (s.askPage pasid page write).wakeStarved
        else (s.settlePage pasid page true).wakeStarved

/-- `TRANSLATION_TIMEOUT` (R389): the host has not completed a Translation Request. -/
def execTranslationTimeout (pasid : BitVec 20) (page : Nat) (s : State) : Res :=
  .next <|
    if s.hst.xreqs.any fun r => r.1 = pasid && r.2.1 = page then
      let s := { s with hst := { s.hst with
        xreqs := s.hst.xreqs.filter fun r => !(r.1 = pasid && r.2.1 = page)
        groups := s.hst.groups.filter fun g => !(g.pasid = pasid && g.page = page && g.retried) } }
      (s.settlePage pasid page true).wakeStarved
    else s

/-! ## Page requests (R390) -/

/-- A group that is outstanding. -/
def State.groupOf (s : State) (p : BitVec 20) (g : Nat) : Option PageGroup :=
  s.hst.groups.find? fun x => x.pasid = p && x.group = g && !x.retried

/-- A group ends and its page is refused; one whose slice has been reset ends without effect. -/
def State.failGroup (s : State) (x : PageGroup) : State :=
  let s := { s with hst := { s.hst with groups := s.hst.groups.erase x } }
  if x.void then s else (s.settlePage x.pasid x.page true).wakeStarved

/-- `PAGE_RESPONSE`: code 0 Success, 1 Invalid Request, any other Response Failure. -/
def execPageResponse (pasid : BitVec 20) (group code : Nat) (s : State) : Res :=
  .next <|
    match s.groupOf pasid group with
    | none => s
    | some x =>
      if x.void then s.failGroup x
      else if code = 0 then
        let s := { s with hst := { s.hst with
          groups := s.hst.groups.map fun (y : PageGroup) => if y = x then { y with retried := true } else y
          xreqs := s.hst.xreqs ++ [(pasid, x.page, x.write)] } }
        s.emit (.xlatRequest pasid x.page)
      else if code = 1 then s.failGroup x
      else ({ s with hst := { s.hst with priBlocked := true } }).failGroup x

/-- `PRQ_TIMEOUT`. -/
def execPrqTimeout (pasid : BitVec 20) (group : Nat) (s : State) : Res :=
  .next <|
    match s.groupOf pasid group with
    | none => s
    | some x => if x.due ≤ s.now then s.failGroup x else s

/-- `STK_XLAT_CTL` (R407). -/
def execStkXlatCtlWrite (r : Req) (v : BitVec 32) (s : State) : Res :=
  .next <| s.regWriteMgmt r 0x17F08 32 fun s =>
    let n := bits v.toNat 6 0
    if 1 ≤ n && n ≤ 100 then { s with hst := { s.hst with prqTimeout := n } } else s

/-! ## Invalidation (R392, R393) -/

/-- Return the completions of invalidations that have drained. -/
def State.settleInvals (s : State) : State :=
  let done := s.hst.invals.filter fun v => v.xfers.isEmpty
  done.foldl (fun s v => s.emit (.invalidationDone v.itag))
    { s with hst := { s.hst with invals := s.hst.invals.filter fun v => !v.xfers.isEmpty } }

/-- Transfers that drain no longer. -/
def State.drainXfers (s : State) (ids : List Nat) : State :=
  ({ s with hst := { s.hst with invals := s.hst.invals.map fun (v : Inval) => { v with xfers := v.xfers.filter fun x => !ids.contains x } } }).settleInvals

/-- A transfer in flight that an invalidation matches: one issued under an entry that an earlier invalidation has removed
counts again (R392 and the coincidences of 13_host_chiplets.md). -/
def Xfer.matched (t : Xfer) (pasid : BitVec 20) (global : Bool) (addr size : Nat) : Bool :=
  !t.abandoned && (global || t.pasid = pasid) && t.addr < addr + size && addr < t.addr + t.len

/-- `ATS_INVALIDATION`: matching entries go, and the transfers issued under them are counted. -/
def execAtsInvalidation (itag : Nat) (pasid : BitVec 20) (global : Bool) (addr size : Nat) (s : State) : Res :=
  .next <|
    if !s.hostServes || 32 ≤ s.hst.invals.length then s
    else
      let hit (x : Xlat) : Bool := (global || x.pasid = pasid) && x.base < addr + size && addr < x.base + x.size
      let gone := s.hst.xlat.filter hit
      let ids := (s.hst.xfers.filter fun t => t.matched pasid global addr size || gone.any fun x => x.carries t).map Xfer.id
      let v : Inval := { itag, xfers := ids, due := s.now + 2 * ms }
      ({ s with hst := { s.hst with xlat := s.hst.xlat.filter fun x => !hit x, invals := s.hst.invals ++ [v] } }).settleInvals

/-- Abandon a transfer: its command is squashed, its parked record answered as poison. -/
def State.abandonXfer (s : State) (id : Nat) : State :=
  match s.hst.xfers.find? fun t => t.id = id with
  | none => s
  | some t =>
    let s := { s with hst := { s.hst with xfers := s.hst.xfers.map fun (x : Xfer) => if x.id = id then { x with abandoned := true } else x } }
    if t.queue = 2 ^ 18 then s.parkedData id none
    else match s.cmd? t.slice t.queue t.seq with
      | none => s
      | some c =>
        let s := if c.stop = 0 then { s with hst := { s.hst with squashes := (s.hst.squashes + 1) % 2 ^ 16 } } else s
        let s := if c.stop = 0 then s.stopCmd t.slice t.queue c 3 0 else s
        (s.modCmd t.slice t.queue t.seq fun c => ({ c with hostOut := c.hostOut - 1 }).settleStop).settleFab t.slice t.queue

/-- `INVALIDATION_TIMEOUT` (R393): 2 ms after receipt, what is still counted is abandoned. -/
def execInvalidationTimeout (itag : Nat) (s : State) : Res :=
  .next <|
    match s.hst.invals.find? fun v => v.itag = itag && v.due ≤ s.now with
    | none => s
    | some v => (s.forEach v.xfers State.abandonXfer).drainXfers v.xfers

/-! ## Transfers (R391, R392) -/

/-- `HOST_TRANSFER_COMPLETION`: the bytes of a host read arrive, or the read is refused; one that comes late for an abandoned
transfer is counted. -/
def execHostTransferCompletion (id : Nat) (data : List Byte) (ok : Bool) (s : State) : Res :=
  .next <|
    match s.hst.xfers.find? fun t => t.id = id with
    | none => s
    | some t =>
      let s := { s with hst := { s.hst with xfers := s.hst.xfers.filter fun x => x.id ≠ id } }
      if t.abandoned then { s with hst := { s.hst with lateCpl := (s.hst.lateCpl + 1) % 2 ^ 14 } }
      else
        let b := (data ++ List.replicate t.len 0).take t.len
        let s := s.drainXfers [id]
        let s := if ok then s.hostPut t.pasid t.addr b else s
        if t.queue = 2 ^ 18 then s.parkedData id (if ok then some b else none)
        else
          let s := s.modCmd t.slice t.queue t.seq fun c =>
            (if ok then { c with hostOut := c.hostOut - 1, hostGot := c.hostGot ++ [(t.addr, b)] }
             else { c with hostOut := c.hostOut - 1, xlatBad := t.addr / 4096 + 1 }).settleStop
          s.settleFab t.slice t.queue

/-! ## Configuration, IDE (R380, R383, R385, R388 to R391) -/

/-- Without ATS the cache is empty and nothing waits for a translation. -/
def State.atsOff (s : State) : State :=
  let s := { s with hst := { s.hst with ats := false, xlat := [], xreqs := [], groups := [] } }
  let l := s.syn.notices
  (s.wakeStarved.forEach ((l.map fun n => n.slice * 2 ^ 52 + n.addr / 4096).eraseDups) fun s k =>
    s.wakeNotices (k / 2 ^ 52) (k % 2 ^ 52) false).retryParked

/-- `HOST_CONFIG_WRITE`. -/
def execHostConfigWrite (c : HostCfg) (s : State) : Res :=
  .next <|
    if !s.hostServes then s.emit (.hostAnswer 1)
    else match c with
    | .ats true => { s with hst := { s.hst with ats := true } }
    | .ats false => s.atsOff
    | .pri on => { s with hst := { s.hst with pri := on } }
    | .priReset => { s with hst := { s.hst with priBlocked := false } }

/-- Effects of leaving `CONFIG_LOCKED` or `RUN` on the slice (R385). -/
def State.tdiLeave (s : State) (i : Nat) (st : TdiState) : State :=
  let old := (s.slice i).tdi
  let live := if st = .unlocked then old ≠ .unlocked else old = .locked || old = .run
  let s := s.modSlice i fun l => { l with tdi := st, stream := if st = .unlocked then none else l.stream, tdiNonce := 0 }
  if live then s.squashSlice i dtBySlice 0 else s

/-- A stream leaves the Secure state: every TDI locked to it enters `ERROR` (R385). -/
def State.ideDrop (s : State) (stream : Nat) : State :=
  let s := { s with hst := { s.hst with ide := s.hst.ide.filter fun e => e.1 ≠ stream } }
  s.forEach ((s.qm.slices.cells.filter fun e => e.2.stream = some stream && (e.2.tdi = .locked || e.2.tdi = .run)).map Prod.fst)
    fun s i => s.tdiLeave i .error

/-- `IDE_STREAM_INSECURE`. -/
def execIdeStreamInsecure (stream : Nat) (s : State) : Res :=
  .next <| if s.hst.ide.any fun e => e.1 = stream then s.ideDrop stream else s

/-- IDE_KM object codes. -/
def kmQueryResp : Nat := 1
def kmKpAck : Nat := 3
def kmGoStopAck : Nat := 6

/-- `IDE_KM_MESSAGE` (R380): 64 selective streams and the link stream 64; keys first, then the stream may start. -/
def execIdeKmMessage (m : Mgmt) (k : IdeKm) (s : State) : Res :=
  .next <|
    if !s.hostServes || !m.secure then s
    else match k with
    | .query st => s.emit (.ideKm kmQueryResp [st, b2n (s.hst.ideKeys.contains st), b2n (s.hst.ide.any fun e => e.1 = st)])
    | .keyProg st =>
      if 64 < st then s.emit (.ideKm kmKpAck [st, 1])
      else ({ s with hst := { s.hst with ideKeys := st :: s.hst.ideKeys.filter fun x => x ≠ st } }).emit (.ideKm kmKpAck [st, 0])
    | .start st rid =>
      if s.hst.ideKeys.contains st then
        ({ s with hst := { s.hst with ide := (st, rid) :: s.hst.ide.filter fun e => e.1 ≠ st } }).emit (.ideKm kmGoStopAck [st])
      else s.emit (.ideKm kmGoStopAck [st])
    | .stop st => (s.ideDrop st).emit (.ideKm kmGoStopAck [st])

/-! ## TDISP (R382 to R386) -/

/-- TDISP error codes and interface states. -/
def tdInvalidRequest : Nat := 0x01
def tdInvalidState : Nat := 0x04
def tdInvalidInterface : Nat := 0x101
def tdInvalidNonce : Nat := 0x102
def tdNoEntropy : Nat := 0x103

def TdiState.code : TdiState → Nat
  | .unlocked => 0 | .locked => 1 | .run => 2 | .error => 3

def State.tdError (s : State) (e : Nat) : State := s.emit (.tdisp 0x7F [e])

/-- A TDISP message travels in a secure session of the DOE mailbox, and names a slice (R380, R382). -/
def State.tdMsg (s : State) (m : Mgmt) (slice : Nat) (f : State → State) : State :=
  if !s.hostServes || !m.secure then s
  else if 2048 ≤ slice then s.tdError tdInvalidInterface
  else f s

/-- Lock flags that ask for an option R380 does not list: every one but the cache line size, bit 1; bit 2 locks the MSI-X
table. PRESUMED (log 116): the bits are those of the standard. -/
def lockFlagsOk (flags : BitVec 16) : Bool := flags &&& ~~~2 = 0

/-- `LOCK_INTERFACE_REQUEST` (R4, R380, R383). -/
def execLockInterfaceRequest (m : Mgmt) (slice stream rid : Nat) (flags : BitVec 16) (s : State) : Res :=
  .next <| s.tdMsg m slice fun s =>
    let l := s.slice slice
    if l.tdi ≠ .unlocked || l.state ≠ .active then s.tdError tdInvalidState
    else if !lockFlagsOk flags then s.tdError tdInvalidRequest
    else if 64 ≤ stream || !s.hst.ide.contains (stream, rid) then s.tdError tdInvalidRequest
    else if s.qm.slices.cells.any fun e => e.2.stream = some stream && e.2.bound && l.bound && e.2.dslot ≠ l.dslot then
      s.tdError tdInvalidRequest
    else if s.fbx.trngFailed then s.tdError tdNoEntropy
    else
      let (n, s) := s.draw 256
      (s.modSlice slice fun l => { l with tdi := .locked, stream := some stream, tdiNonce := n }).emit (.tdisp 0x03 [n.toNat])

/-- `START_INTERFACE_REQUEST` (R382, R385): the nonce is the one the lock gave. -/
def execStartInterfaceRequest (m : Mgmt) (slice : Nat) (nonce : BitVec 256) (s : State) : Res :=
  .next <| s.tdMsg m slice fun s =>
    let l := s.slice slice
    if l.tdi ≠ .locked then s.tdError tdInvalidState
    else if l.tdiNonce ≠ nonce then s.tdError tdInvalidNonce
    else (s.setSlice slice { l with tdi := .run, tdiNonce := 0 }).emit (.tdisp 0x06 [])

/-- `STOP_INTERFACE_REQUEST` (R385). -/
def execStopInterfaceRequest (m : Mgmt) (slice : Nat) (s : State) : Res :=
  .next <| s.tdMsg m slice fun s => (s.tdiLeave slice .unlocked).emit (.tdisp 0x07 [])

/-- A 4 KiB page of the register window. -/
def pageNo (off : Nat) : Nat := off / 4096

/-- The ranges of a slice's interface report (R384): first page, pages, shared with other slices. -/
def State.tdReport (s : State) (i : Nat) : List Nat :=
  let l := s.slice i
  let dbs := if l.granCount = 0 then [] else [pageNo 0x1000000 + l.granBase, l.granCount, 0]
  dbs ++ [pageNo (slicePage i), 1, 1, pageNo (signalPage i), 1, 1, pageNo (0x18000 + 0x10 * i), 1, 1]

/-- `GET_DEVICE_INTERFACE_REPORT` (R384). -/
def execGetDeviceInterfaceReport (m : Mgmt) (slice : Nat) (s : State) : Res :=
  .next <| s.tdMsg m slice fun s =>
    let t := (s.slice slice).tdi
    if t = .locked || t = .run then s.emit (.tdisp 0x04 (s.tdReport slice)) else s.tdError tdInvalidState

/-- `GET_DEVICE_INTERFACE_STATE`. -/
def execGetDeviceInterfaceState (m : Mgmt) (slice : Nat) (s : State) : Res :=
  .next <| s.tdMsg m slice fun s => s.emit (.tdisp 0x05 [(s.slice slice).tdi.code])

/-- `GET_TDISP_VERSION`: version 1.0. -/
def execGetTdispVersion (m : Mgmt) (s : State) : Res := .next <| s.tdMsg m 0 fun s => s.emit (.tdisp 0x01 [1, 0x10])

/-- `GET_TDISP_CAPABILITIES`: the requests supported, as a map of their low code bits. -/
def execGetTdispCapabilities (m : Mgmt) (s : State) : Res := .next <| s.tdMsg m 0 fun s => s.emit (.tdisp 0x02 [0xFE])

/-! ## Function level reset (R455) -/

/-- `FUNCTION_LEVEL_RESET`: `SQUASH_ALL` and `DISABLE` of every slice, every TDI unlocked, every stream out of Secure, the
translation cache empty. -/
def execFunctionLevelReset (s : State) : Res :=
  .next <|
    if !s.hostServes then s.emit (.hostAnswer 1)
    else
      let act := (s.qm.slices.cells.filter fun e => e.2.state ≠ .free).map Prod.fst
      let s := s.forEach act fun s i =>
        let n := s.squashable i
        let s := if (s.slice i).state = .active then (s.startAction i 2 n).startReset i true
          else s.modSlice i fun l => { l with toFree := true }
        s.modSlice i fun l => { l with tdi := .unlocked, stream := none, tdiNonce := 0 }
      let s := { s with hst := { s.hst with ide := [], xlat := [] } }
      s.emit (.hostAnswer 2)

/-! ## MCTP control (R497) -/

/-- MCTP control codes and completion codes. -/
def mcSetEid : Nat := 1
def mcGetEid : Nat := 2
def mcGetVersion : Nat := 4
def mcGetTypes : Nat := 5

/-- `MCTP_CONTROL_MESSAGE`: one endpoint ID, types 0x00, 0x05 and 0x06, version 1.3; any other command is unsupported. -/
def execMctpControlMessage (command : BitVec 8) (body : List Byte) (s : State) : Res :=
  .next <|
    let b (k : Nat) : Nat := (body.getD k 0).toNat
    if s.rst.step < 2 then s
    else match command.toNat with
    | 1 =>
      if body.length < 2 then s.emit (.mctp mcSetEid [3])
      else if b 1 = 0 || b 1 = 0xFF || b 1 < 8 then s.emit (.mctp mcSetEid [2])
      else ({ s with hst := { s.hst with eid := b 1 } }).emit (.mctp mcSetEid [0, 0, b 1, 0])
    | 2 => s.emit (.mctp mcGetEid [0, s.hst.eid, 0, 0])
    | 4 =>
      if body.length < 1 then s.emit (.mctp mcGetVersion [3])
      else if [0xFF, 0, 5, 6].contains (b 0) then s.emit (.mctp mcGetVersion [0, 1, 0xF1, 0xF3, 0xF0, 0])
      else s.emit (.mctp mcGetVersion [0x80])
    | 5 => s.emit (.mctp mcGetTypes [0, 3, 0, 5, 6])
    | n => s.emit (.mctp n [5])

end Sys2Proof.Machine
end

