-- ==== Sys2Proof/Machine/Site.lean ====
section
/-! DEFINITION. Chiplet sites: admission over the site sideband, suspension, and the access windows (R395 to R402). -/

namespace Sys2Proof.Machine
open Sys2Proof

/-! ## Admission (R395 to R398) -/

/-- Failure causes (the table after R400). -/
def scNoResponse : Nat := 1
def scVersion : Nat := 2
def scAlgorithm : Nat := 3
def scChain : Nat := 4
def scSignature : Nat := 5
def scProtocol : Nat := 6
def scEntropy : Nat := 7
def scChanged : Nat := 8

/-- The `SITE_ADMISSION` record of a site as it stands (R451). -/
def State.siteRecord (s : State) (n : Nat) : State :=
  let t := s.site n
  let code := match t.state with
    | .empty => 0 | .probing => 1 | .admitted => 2 | .failed => 3 | .suspended => 4
  s.record 0xA0 (0x40 + n) [(1, n), (1, code), (1, t.cause)]

/-- How long a request waits for its answer: 100 ms until the capabilities are answered, then 2^CT µs, at most 1 s (R397). -/
def Site.wait (t : Site) : Nat := match t.ctExp with
  | none => 100 * ms
  | some e => if 20 ≤ e then sec else min sec (2 ^ e * us)

/-- SPDM code of the request of a step. -/
def siteRequest (step : Nat) : Nat := [0, 0x84, 0xE1, 0xE3, 0x81, 0x82, 0xE0].getD step 0

/-- Send the request of the site's step. -/
def State.siteSend (s : State) (n : Nat) : State :=
  let t := s.site n
  (s.setSite n { t with due := s.now + t.wait, sends := t.sends + 1 }).emit
    (.siteSpdm n (siteRequest t.step) (if t.step = 6 then leBytes 32 t.nonce.toNat else []))

/-- Begin the admission of a site. -/
def State.startAdmission (s : State) (n : Nat) : State :=
  (s.modSite n fun t => { t with state := .probing, was := decide (t.state = .suspended), step := 1, sends := 0, ctExp := none
                                 admissions := (t.admissions + 1) % 256 }).siteSend n

/-- Admission fails, and Jarmir is told (R52): one that follows a suspension clears the windows and is `CHANGED`, with an
alarm for its slot. -/
def State.siteFail (s : State) (n cause : Nat) : State :=
  let t := s.site n
  let told (s : State) (c : Nat) : State := (s.siteRecord n).emit (.domEvent (if t.inSlot then t.dslot else 0xFF) evAdmissionFailed c n)
  if t.was then
    let s := told ((s.setSite n { t with state := .failed, cause := scChanged, wins := {}, step := 0, was := false }).kidSettle) scChanged
    if t.inSlot then s.measureAlarm t.dslot else s
  else told (s.setSite n { t with state := .failed, cause, step := 0 }) cause

/-- Admission succeeds with a digest (R395 steps 7 and 8, R398). -/
def State.sitePass (s : State) (n : Nat) (digest : BitVec 384) : State :=
  let t := s.site n
  if t.was && digest ≠ t.digest then s.siteFail n scChanged
  else (s.setSite n { t with state := .admitted, digest, step := 0, was := false }).siteRecord n

/-- The next step of an admission; the last draws its nonce. -/
def State.siteNext (s : State) (n : Nat) : State :=
  let k := (s.site n).step + 1
  if k = 6 then
    if s.fbx.trngFailed then s.siteFail n scEntropy
    else
      let (x, s) := s.draw 256
      (s.modSite n fun t => { t with step := 6, sends := 0, nonce := x }).siteSend n
  else (s.modSite n fun t => { t with step := k, sends := 0 }).siteSend n

/-- Sites are admitted from release step 7, once Kindling has completed (R457, R499). -/
def State.siteUp (s : State) : Bool := 7 ≤ s.rst.step && s.boot.phase = 4

/-- `SITE_LINK_ACTIVE` (R395). -/
def execSiteLinkActive (site : Nat) (s : State) : Res :=
  .next <|
    let t := s.site site
    if 8 ≤ site || t.linkUp then s
    else
      let s := s.setSite site { t with linkUp := true }
      if s.siteUp && s.clkRuns (.dclk site) && t.state ≠ .probing then s.startAdmission site else s

/-- A chain is acceptable (R396). -/
def State.chainAccepted (s : State) (bytes certs : Nat) (root : BitVec 384) (verifies leafSigns : Bool) : Bool :=
  bytes ≤ 16384 && certs ≤ 6 && s.boot.anchors.contains root && verifies && leafSigns

/-- The bytes a chiplet signs for its measurements (R395, DSP0274; log 115): the standard's lead, and the digest of the
transcript, which holds the nonce drawn for the request and the measurement record. -/
def Site.signed (t : Site) (record lead head mid tail : List Byte) : List Byte :=
  lead ++ sha384 (head ++ leBytes 32 t.nonce.toNat ++ mid ++ record ++ tail)

/-- `SITE_SPDM_RESPONSE` (R395 to R398). -/
def execSiteSpdmResponse (site : Nat) (rsp : SiteRsp) (s : State) : Res :=
  .next <|
    let t := s.site site
    if t.state ≠ .probing then s
    else match t.step, rsp with
    | 1, .version ok => if ok then s.siteNext site else s.siteFail site scVersion
    | 2, .capabilities cert meas e =>
      if cert && meas then (s.setSite site { t with ctExp := some e }).siteNext site else s.siteFail site scProtocol
    | 3, .algorithms ok => if ok then s.siteNext site else s.siteFail site scAlgorithm
    | 4, .digests => s.siteNext site
    | 5, .certificate bytes certs root verifies leafSigns key =>
      if s.chainAccepted bytes certs root verifies leafSigns then (s.setSite site { t with leafKey := key }).siteNext site
      else s.siteFail site scChain
    | 6, .measurements record lead head mid tail sig =>
      if ecVerify t.leafKey sig (t.signed record lead head mid tail) then
        s.sitePass site (BitVec.ofNat 384 (leNat (sha384 record)))
      else s.siteFail site scSignature
    | _, _ => s.siteFail site scProtocol

/-- `SITE_SPDM_TIMEOUT` (R397): a request is sent three times in all. -/
def execSiteSpdmTimeout (site : Nat) (s : State) : Res :=
  .next <|
    let t := s.site site
    if t.state ≠ .probing || s.now < t.due then s
    else if t.sends < 3 then s.siteSend site
    else s.siteFail site scNoResponse

/-- `SITE_LINK_INACTIVE` (R398). -/
def execSiteLinkInactive (site : Nat) (s : State) : Res :=
  .next <|
    let t := { s.site site with linkUp := false }
    s.setSite site (match t.state with
      | .admitted => { t with state := .suspended }
      | .probing => { t with state := .empty, step := 0, was := false }
      | _ => t)

/-! ## Windows (R400 to R402, R408) -/

/-- Fields of a window command. -/
def swSite (v : BitVec 32) : Nat := bits v.toNat 2 0
def swWindow (v : BitVec 32) : Nat := bits v.toNat 6 3
def swKid (v : BitVec 32) : Nat := bits v.toNat 18 7
def swOp (v : BitVec 32) : Nat := bits v.toNat 21 19

/-- The window a range register describes, for a KID. -/
def winOfRange (w : BitVec 64) (kid : Nat) : SiteWin :=
  { set := true, kind := fld w 1 0, stack := fld w 3 2, base := fld w 19 4, size := fld w 36 20, kid
    rd := w.getLsbD 37, wr := w.getLsbD 38 }

/-- Its fields lie within bounds and grant a right. -/
def SiteWin.okFields (w : SiteWin) : Bool :=
  let fits (n : Nat) : Bool := w.base < n && 1 ≤ w.size && w.base + w.size ≤ n
  (w.rd || w.wr) && (match w.kind with
    | 0 => fits 32768
    | 1 => fits 6656 && w.stack = 0
    | 2 => fits 16384 && w.stack = 0
    | _ => false)

/-- The command register of a path: the kernel driver's, or a slice's. -/
def swCmdOff (path : Option Nat) : Nat := match path with
  | none => 0x17F88
  | some i => 0x18008 + 0x10 * i

/-- The path admits the request. -/
def State.swAdmits (s : State) (r : Req) (path : Option Nat) : Bool := match path with
  | none => globalPage r
  | some i => s.pageWrite i r

/-- Report a result on a path. -/
def State.swResult (s : State) (path : Option Nat) (n : Nat) : State := match path with
  | none => { s with hst := { s.hst with swkRes := n } }
  | some i => s.modSlice i fun l => { l with swRes := n }

/-- The range register of a path. -/
def State.swRangeOf (s : State) (path : Option Nat) : BitVec 64 := match path with
  | none => s.hst.swkRange
  | some i => (s.slice i).swRange

/-- Check 1 of R402. -/
def State.swOwns (s : State) (path : Option Nat) (t : Site) : Bool := match path with
  | none => !t.inSlot
  | some i => (s.slice i).bound && t.inSlot && t.dslot = (s.slice i).dslot

/-- Check 3 of R402. -/
def State.swKidOk (s : State) (path : Option Nat) (k : Nat) : Bool := match path with
  | none => k = 0 || ((s.kid k).state = .active && s.kidPlain k)
  | some i => (s.kid k).state = .active && s.kidBound k (some (s.slice i).dslot)

/-- A window command of an operation; a command whose OP field names another operation is not this one. -/
def State.swCommand (s : State) (r : Req) (path : Option Nat) (v : BitVec 32) (op : Nat) (f : Site → State → State) : State :=
  s.regWrite r (swCmdOff path) 32 (s.swAdmits r path) fun s =>
    if swOp v ≠ op then s
    else
      let t := s.site (swSite v)
      if s.swOwns path t then f t s else s.swResult path 3

/-- `SITE_WINDOW_SET` (R402). -/
def execSiteWindowSet (r : Req) (path : Option Nat) (v : BitVec 32) (s : State) : Res :=
  .next <| s.swCommand r path v 1 fun t s =>
    let w := winOfRange (s.swRangeOf path) (swKid v)
    if !w.okFields then s.swResult path 5
    else if !s.swKidOk path w.kid then s.swResult path 4
    else ((s.setSite (swSite v) { t with wins := t.wins.set {} (swWindow v) w }).kidSettle).swResult path 2

/-- `SITE_WINDOW_CLEAR` (R402). -/
def execSiteWindowClear (r : Req) (path : Option Nat) (v : BitVec 32) (s : State) : Res :=
  .next <| s.swCommand r path v 2 fun t s =>
    ((s.setSite (swSite v) { t with wins := t.wins.set {} (swWindow v) {} }).kidSettle).swResult path 2

/-- `SITE_WINDOW_CLEAR_KID` (R402). -/
def execSiteWindowClearKid (r : Req) (path : Option Nat) (v : BitVec 32) (s : State) : Res :=
  .next <| s.swCommand r path v 3 fun t s =>
    ((s.setSite (swSite v) { t with wins := t.wins.filter fun _ w => w.kid ≠ swKid v }).kidSettle).swResult path 2

/-- `READMIT` (R402): the kernel path only. -/
def execReadmit (r : Req) (path : Option Nat) (v : BitVec 32) (s : State) : Res :=
  .next <| s.swCommand r path v 4 fun t s =>
    if path.isSome then s.swResult path 5
    else if t.state = .probing then s.swResult path 6
    else (s.startAdmission (swSite v)).swResult path 2

end Sys2Proof.Machine
end

