-- ==== Sys2Proof/Machine/ResetOps.lean ====
section
/-! DEFINITION. The reset controller: what each level clears and keeps, the taking over of one source by another, and the
fencing sequence (R453, R456 to R462, R466 to R468). -/

namespace Sys2Proof.Machine
open Sys2Proof

/-- Levels rank by how much they clear (R456). -/
def Level.rank (l : Level) : Nat := 5 - l.code

/-- A level after which nothing of the domains is left: PORST or SYSRST. -/
def Level.cold (l : Level) : Bool := l = .porst || l = .sysrst

/-- Sources before which the fencing sequence runs (R453). -/
def Source.fenced (x : Source) : Bool := !(x = .powerOn || x = .pin || x = .recoveryFail)

/-! ## Requests that a reset leaves unanswered -/

/-- Every request of the hub network that waits inside the block is answered all-ones with POISON (R458). -/
def State.answerDead (s : State) : State :=
  let waiting := (s.msl.pending.map MemReq.tag) ++ (s.hth.pending.map MemReq.tag) ++
    s.fab.outs.filterMap fun o => match o.owner with
      | .net t => some t
      | .cmd _ _ _ => none
  let waiting := waiting ++ s.fab.apWait.map ApReq.tag
  waiting.foldl (fun s t => s.netAnswer t none) s

/-! ## What a level clears (R466, R468) -/

/-- Domain states after a level that clears them: on, but for those fused off (R36, R506). -/
def State.pdReset (s : State) : Tbl PdState :=
  (List.range 30).foldl (fun (t : Tbl PdState) p => if s.sys.pdFused.getLsbD p then t.set .on p .off else t) {}

def State.clearSys (s : State) (l : Level) : State :=
  let s := { s with sys := { s.sys with lowHeld := [], highCap := [], stackGoal := {} } }
  let s := if l.cold then { s with sys := { s.sys with pd := s.pdReset, selfRefresh := {} } } else s
  if l = .porst then { s with sys := { s.sys with now := 0, opSeconds := 0, powerCycles := 0, tagFormat := 0 } } else s

/-- Slots are `EMPTY` after PORST and SYSRST; after the other levels R67 settles them at release. -/
def State.clearDom (s : State) (l : Level) : State :=
  if l.cold then { s with dom := { unacked := if l = .porst then [] else s.dom.unacked } }
  else
    let s := { s with dom := { s.dom with
      stmtPending := [], stmtResults := [], stmtSites := [], stmtNonce := 0, stmtBy := 0, compositeOk := false, sessions := 0, algs := false } }
    s.forEach allSlots fun s i => s.modSlot i fun p => { p with awaiting := 0, unconfirmed := [], confirmBy := 0 }

/-- The Firebox keeps its cells through the warm levels, but for CDI_FW and the keys below it (R107). -/
def State.clearFbx (s : State) (l : Level) : State :=
  if l.cold then
    { s with fbx := { scramble := s.fbx.scramble, uds := s.fbx.uds, udsWiped := s.fbx.udsWiped, remaskAt := s.now } }
  else
    let s := ((s.cellDrop .cdiFw).cellDrop .aliasKey).cellDrop .groupKey
    let s := { s with fbx := { s.fbx with
      ready := false, selftestFail := false, trngOk := false, trngFailed := false, diceDone := false
      warm := s.fbx.warm || l = .warm, ksel := 0, kres := 0, deriving_ := [], remaskAt := s.now } }
    if l = .core then s
    else { s with fbx := { s.fbx with lock := false, plainKidMax := 0x100, remaskLog2 := 0xA, alarm := 0 } }

/-- A queue after a warm level (R466). -/
def Queue.recovered (x : Queue) : Queue :=
  if x.state = .disabled then x else { x with state := .stopped, squash := true, cmds := [], xlatBad := 0 }

/-- A slice after a warm level: configuration, binding, objects and sync range stay; registers of its page and its counters
do not, and TDISP state only at CORERST. -/
def Slice.recovered (x : Slice) (l : Level) : Slice :=
  let x := { x with
    queues := ⟨x.queues.cells.map fun e => (e.1, e.2.recovered)⟩
    qsel := 0, abortSeq := 0, abortStat := 0, psel := {}, tqsel := 0, ctrs := {}, telEn := false, swRange := 0, swRes := 0
    prefOpp := 0, throttled := false }
  if l = .core then x else { x with tdi := .unlocked, stream := none, tdiNonce := 0 }

/-- The queue manager. Objects that the lost commands held are released first. -/
def State.clearQm (s : State) (l : Level) : State :=
  if l.cold then { s with qm := { objArea := s.qm.objArea } }
  else
    let s := s.allCmds.foldl (fun s e => e.2.2.held.foldl (fun s o => s.objDrop e.1 o) s) s
    let s := { s with qm := { s.qm with slsel := 0, slices := ⟨s.qm.slices.cells.map fun (e : Nat × Slice) => (e.1, e.2.recovered l)⟩ } }
    s.forEach s.qm.slices.keys fun s i => s.settleRstat i

/-- Sealed memory: the caches are empty in every case; region table and roots go at the cold levels. -/
def State.clearMsl (s : State) (l : Level) : State :=
  let m := { s.msl with ready := false, cache := {}, arrived := [], pending := [], reenc := [], issued := [], stale := []
                        merging := [], rsel := 0, rcfg := 0
                        rres := 0 }
  let m := if l = .core then m else { m with lock := false, defUnassigned := false }
  let m := if l.cold then { m with rgns := {}, bstore := 0, groupBad := {} } else m
  { s with msl := if l = .porst then { m with hbm := {}, hbmPoison := {} } else m }

/-- Hearth gates, scrub engines and arbiters; `HTH_ERR_u` is cleared only by PORST (R207). -/
def State.clearHth (s : State) (l : Level) : State :=
  let h := { s.hth with ready := false, pending := [], rsel := 0, rcfg := 0, rres := 0, scrub := {}, bgSlots := {}
                        bgRun := {}, bgLast := {}, wallAt := {} }
  let h := if l = .core then h else { h with lock := false, defUnassigned := false, period := 0x18 }
  let h := if l.cold then { h with rngs := {}, majorHw := {} } else h
  { s with hth := if l = .porst then { h with errs := {} } else h }

/-- What a reset keeps of a link: its counts, its last peer and its saved record. -/
def Link.residue (x : Link) : Link :=
  { bringups := x.bringups, peerNode := x.peerNode, peerMember := x.peerMember, peerPort := x.peerPort, peerLink := x.peerLink
    peerHub := x.peerHub, peerSerial := x.peerSerial, uncorrCw := x.uncorrCw, naks := x.naks, tagUnrec := x.tagUnrec
    epochDrops := x.epochDrops, noSession := x.noSession, startStale := x.startStale, saved := x.saved }

/-- Links. CORERST keeps the lock of a PCS: an `UP` link goes back to negotiation. -/
def Link.afterReset (x : Link) (l : Level) (now : Nat) : Link :=
  match l with
  | .porst => {}
  | .sysrst => x.residue
  | .warm => { x.residue with enable := x.enable }
  | .core => { x.residue with enable := x.enable, since := now, pcs := x.pcs
                              state := if x.state = .up || x.state = .adapting then .negotiating else x.state }

/-- The link ports; a link whose state the reset changes is recorded (R238). -/
def State.clearLnk (s : State) (l : Level) : State :=
  let old := s.lnk.links.cells
  let ports : Tbl Port := if l.cold then {} else ⟨s.lnk.ports.cells.map fun e => (e.1, { e.2 with ready := e.2.ready && l = .core })⟩
  let s := { s with lnk := { s.lnk with
    ports, sess := [], lanes := if l = .porst then {} else s.lnk.lanes
    links := Tbl.filter ⟨old.map fun e => (e.1, e.2.afterReset l s.now)⟩ fun _ x => x ≠ {} } }
  old.foldl (fun s e => if e.2.state = (s.link e.1).state then s else s.linkMoved e.1 e.2.state) s

/-- The fabric engine: held flags, outstanding and waiting records are lost; windows, routes, tallies and the node number
stay at the warm levels; its error counts are cleared only by PORST (R271). -/
def State.clearFab (s : State) (l : Level) : State :=
  if l.cold then { s with fab := if l = .porst then {} else { errs := s.fab.errs, lastLost := s.fab.lastLost } }
  else
    let s := { s with fab := { s.fab with
      outs := [], loop := [], waiting := [], held := [], parked := [], apWait := [], ready := false, rtsel := 0, mrsel := 0, tclrRes := 0
      wins := ⟨s.fab.wins.cells.map fun (e : Nat × Win) => (e.1, { e.2 with inflight := 0 })⟩ } }
    s.forEach ((s.fab.wins.cells.filter fun (e : Nat × Win) => e.2.state = .closing).map Prod.fst) State.closeWin

/-- Every plan is unloaded (R311). -/
def State.clearCol (s : State) (l : Level) : State := if l.cold then { s with col := {} } else s.unloadPlans fun _ => true

/-- The sync engine: waits are lost, values and grants stay at the warm levels; ESCALATED is cleared only by PORST. -/
def State.clearSyn (s : State) (l : Level) : State :=
  if l.cold then { s with syn := { escalated := s.syn.escalated && l ≠ .porst, scanAt := s.now } }
  else
    ({ s with syn := { s.syn with
      waits := [], notices := [], cache := [], slsel := 0, slres := 0, dlStat := 0, dbgSel := 0, dbgData := 0, dbgRes := 0
      changedAt := {}, reported := [], pinHolds := 0, ready := false, window := 5, breakEn := true } }).settleSync

/-- A site after a warm level is admitted again (R466). -/
def Site.recovered (t : Site) : Site :=
  match t.state with
  | .admitted => { t with state := .suspended, step := 0 }
  | .probing => { t with state := if t.was then .suspended else .empty, step := 0, was := false }
  | _ => t

/-- Host link, sites and group. IDE and TDISP state stay at CORERST; the group record stays at the warm levels (R467). -/
def State.clearHst (s : State) (l : Level) : State :=
  let h : Hst := { s.hst with xlat := [], xreqs := [], groups := [], invals := [], swkRange := 0, swkRes := 0, eid := 0, electing := false
                              xfers := if l = .core then s.hst.xfers.map fun (x : Xfer) => { x with abandoned := true } else [] }
  let h := if l = .core then h
    else { h with ats := false, pri := false, priBlocked := false, ide := [], ideKeys := [], prqTimeout := 0x64, squashes := 0
                  lateCpl := 0 }
  let h := if l.cold then
      { h with group := .electing, leadPos := 0, leadSerial := 0, present := 0, lost := 0, elections := 0, hellos := []
               rejoinWait := [], heardAt := {}, electBy := 0, beatAt := 0
               sites := Tbl.filter ⟨h.sites.cells.map fun (e : Nat × Site) => (e.1, { linkUp := e.2.linkUp : Site })⟩
                 fun _ (t : Site) => decide (t ≠ {}) }
    else { h with sites := ⟨h.sites.cells.map fun (e : Nat × Site) => (e.1, e.2.recovered)⟩ }
  { s with hst := h }

/-- Light counters but 0 and 1, the other counters and the watch windows are cleared at every level (R423, R430). -/
def State.clearTel (s : State) : State :=
  let s := s.disarmAll fun _ => true
  { s with tel := { intervalAt := s.now } }

/-- The recorder: every level fills the buckets; PORST empties the ember area and resets the numbering; after the
cold levels records wait until Kindling has loaded the battery-backed registers (R443, R444, R447, R452). -/
def State.clearRcd (s : State) (l : Level) : State :=
  let s := s.recReset
  match l with
  | .porst => { s with rcd := { perm := s.rcd.perm } }
  | .sysrst => { s with rcd := { s.rcd with rate := 8, burst := 0x20, sel := 0, loaded := false } }
  | _ => s

/-- Life cycle and debug: authorisation, challenge and results end. A transition whose record word is programmed is found
again by Kindling (R474, R475, R480); one that has not begun is gone. -/
def State.clearLc (s : State) : State :=
  { s with lc := { s.lc with
    debugOpen := false, opening := false, retired := 0, tres := 0, ares := 0, dres := 0, chal := 0, chalLive := false, resp := 0
    pending := false, begun := false, fault := false, target := 0, step := 0, next := 0, attempts := 0 } }

/-- The Damper: VBAT keeps ceiling, trip count and persistent limit; `PWR_CTL` lies in AON and is cleared by PORST and
SYSRST; the loop begins anew with the Stoker. -/
def State.clearPwr (s : State) (l : Level) : State :=
  let p := s.pwr
  let p := if l = .porst then
      { ceil := p.ceil, tripsCounted := p.tripsCounted, firstTrip := p.firstTrip, pkgLimit := p.pkgLimit : Pwr }
    else
      { p with raising := none, siteUp := {}, siteWait := [], coolSince := none, pkgW := 0, shareW := 0, demandW := 0, pacing := []
               budget := 0, budgetEnd := 0, demands := {}, shareAt := s.now, lowRun := 0, hints := [], reportAt := s.now
               reallocAt := s.now, intervalAt := s.now, throttled := false, stallSeen := 0, reportThr := 0 }
  let p := if l = .sysrst then
      { p with lock := false, recoveryOpp := 0, testHold := false, testOpp := 0, testLevel := 0, cfgLimit := 0, defaultW := 0
               floorW := 0, therm := (95, 105, 115), stages := [], stageAt := {}, stale := 0, vinBadSince := none }
    else p
  { s with pwr := p }

/-- Boot registers: what the warm recovery selects is measured again from the same copies and slots. -/
def State.clearBoot (s : State) (l : Level) : State :=
  let b := { s.boot with phase := 0, fault := 0 }
  let cold : Boot := { cfgHint := b.cfgHint, bbOpsec := b.bbOpsec, bbPcycle := b.bbPcycle, minVersions := b.minVersions
                       trainSeq := b.trainSeq, trainSlot := b.trainSlot, trainAt := b.trainAt, trainDirty := b.trainDirty, variant := b.variant }
  { s with boot := match l with
    | .porst => { cold with trainAt := 0, trainDirty := false }
    | .sysrst => { cold with trainLoaded := b.trainLoaded }
    | _ => b }

/-- The reset controller's own registers (R469). -/
def State.clearRst (s : State) (l : Level) : State :=
  let r := s.rst
  let r : Rst := match l with
    | .porst => { level := r.level, source := r.source }
    | .sysrst => { r with lock := false, warmEn := true, hostReqEn := true, dumpEn := true, dumpSel := 0 }
    | .warm => { r with warmCount := r.warmCount + 1 }
    | .core => { r with coreCount := r.coreCount + 1 }
  { s with rst := { r with phase := .held, step := 0, fenceStep := 0, srWait := [], assertAt := s.now, sourceEnd := s.now
                           lastSource := r.source.code, lastLevel := r.level.code } }

/-- Fencing step 8, or the assertion of an unfenced source (R457): every unit the level clears, in one instant. -/
def State.assertLevel (s : State) : State :=
  let l := s.rst.level
  let s := s.answerDead
  let s := (s.clearTel.clearCol l).clearFab l
  let s := (((s.clearQm l).clearSyn l).clearDom l).clearFbx l
  let s := ((s.clearMsl l).clearHth l).clearLnk l
  let s := { (s.clearHst l) with ce := {} }
  let s := ((s.clearRcd l).clearLc.clearPwr l).clearBoot l
  (s.clearSys l).clearRst l

/-! ## Fencing (R459 to R461) -/

/-- Records still outstanding are abandoned: their commands end as their stops decided. -/
def State.abandonRecords (s : State) : State :=
  let cs := s.allCmds.filter fun e => e.2.2.recordsOut ≠ 0
  let s := s.fab.outs.foldl (fun s o => match o.owner with
    | .net t => s.netAnswer t none
    | .cmd _ _ _ => s) s
  let s := s.fab.apWait.foldl (fun s x => s.netAnswer x.tag none) s
  let s := { s with fab := { s.fab with outs := [], apWait := [] } }
  cs.foldl (fun s e => (s.modCmd e.1 e.2.1 e.2.2.seq fun c => ({ c with recordsOut := 0 }).settleWork.settleStop).settleFab e.1 e.2.1) s

/-- The write of one command's completion record and its commit (R79, R88, R323). -/
def State.tryCommit (s : State) (slice queue : Nat) : State :=
  let x := s.queue slice queue
  match x.cmds with
  | [] => s
  | c :: _ =>
    if c.stage ≠ .finished || !x.cplRoom || s.ctxZeroed slice then s
    else match (if c.opcode = 0x31 then s.commitRun slice queue c else (some s, s)) with
    | (none, s) => s
    | (some s, _) =>
      match s.cmd? slice queue c.seq with
      | none => s
      | some c =>
        let c := s.commitForm c
        let b := c.record x.ctxnum s.now
        match s.cplWrite slice x b with
        | (true, _, s) => s
        | (_, fault, s) =>
          let s := if fault then s.modQueue slice queue fun x => { x.faulted 3 with xlatBad := 0 } else s.emit (.record slice queue b)
          s.committed slice queue c

/-- Commit the commands of a queue as far as its ring takes them. -/
def State.commitQueue (s : State) (i q : Nat) : State :=
  (s.queue i q).cmds.foldl (fun s _ => s.tryCommit i q) s

/-- Slices that are `ACTIVE`. -/
def State.activeSlices (s : State) : List Nat := (s.qm.slices.cells.filter fun e => e.2.state = .active).map Prod.fst

/-- Step 3: draining invalidations are squashed and completed, every queue of every `ACTIVE` slice stops in squash mode, and
what can commit does. -/
def State.fenceQueues (s : State) : State :=
  let s := s.hst.invals.foldl (fun s v => (s.forEach v.xfers State.abandonXfer).drainXfers v.xfers) s
  let s := s.forEach s.activeSlices fun s i => s.squashSlice i dtByRecovery 0
  let s := s.abandonRecords.settleSync
  s.forEach s.activeSlices fun s i => s.forEach (s.queuesOf i) fun s q => s.commitQueue i q

/-- No command of an `ACTIVE` slice is left between fetch and commit. -/
def State.fenceQuiet (s : State) : Bool :=
  s.qm.slices.cells.all fun e => e.2.state ≠ .active || e.2.queues.cells.all fun q => q.2.cmds.isEmpty

/-- Serve the waiting requests of the stacks out of their copies, page re-encryptions among them (log 6). -/
def State.drainHbm : Nat → State → State
  | 0, s => s
  | f + 1, s =>
    if s.msl.pending.isEmpty then s
    else
      let s := s.serveNow none fun _ => true
      let s := match s.msl.reenc with
        | [] => s
        | k :: _ => (s.serveNow (some k) fun r => s.pageOf r.addr = some k).reencDone (some k)
      State.drainHbm f s.settleHbm

/-- Serve the waiting requests of the tiers out of their copies. -/
def State.drainHearth : Nat → State → State
  | 0, s => s
  | f + 1, s =>
    let l := s.hth.pending.filter fun r => !r.hold
    let s := { s with hth := { s.hth with pending := s.hth.pending.filter MemReq.hold } }
    let s := l.foldl (fun s r => (s.serveHearth r (some (s.hth.store.get 0 r.addr, s.hth.ecc.get 0 r.addr))).2) s
    State.drainHearth f s.settleHearth

/-- Steps 7 and 8: the dump, and the assertion. -/
def State.fenceEnd (s : State) : State := s.takeDump.assertLevel

/-- Steps 4 to 6: accepted writes complete, the caches write back, and at SYSRST_WARM the stacks are asked into
self-refresh. At SYSRST steps 5 and 6 are skipped. -/
def State.fenceMemory (s : State) : State :=
  let l := s.rst.level
  let s := { s with rst := { s.rst with fenceStep := 4 } }
  let s := (s.drainHbm (16 * (s.msl.pending.length + 1))).drainHearth 3
  if l = .sysrst then s.fenceEnd
  else
    let s := { (s.writeBackAll fun _ => true) with rst := { s.rst with fenceStep := 5 } }
    if l = .warm then
      let s := { s with rst := { s.rst with fenceStep := 6, srWait := [0, 1, 2, 3] } }
      s.forEach [0, 1, 2, 3] fun s st => s.emit (.selfRefresh st)
    else s.fenceEnd

/-- The fence goes on when the step it waits in is done, or the level no longer needs it. -/
def State.fenceAdvance (s : State) : State :=
  if s.rst.phase ≠ .fencing then s
  else if s.rst.fenceStep ≤ 3 then (if s.fenceQuiet then s.fenceMemory else s)
  else if s.rst.level ≠ .warm || s.rst.srWait.isEmpty then s.fenceEnd
  else s

/-- Steps 1 to 3 of a fence. The Stoker writes the `RESET` record; one whose watchdog expired writes none. -/
def State.fenceBegin (s : State) : State :=
  let r := s.rst
  let s := if r.source = .watchdog then s else s.record 0x11 srcStoker [(1, r.level.code), (1, r.source.code)]
  let again := r.level = .warm && (r.source = .watchdog || r.source = .deadlock)
  let s := { s with
    rst := { s.rst with phase := .fencing, fenceStep := 2, fenceAt := s.now, forced := false
                        lastWarmAt := if again then some s.now else s.rst.lastWarmAt }
    pwr := { s.pwr with siteUp := {}, opp := max s.pwr.opp s.pwr.recoveryOpp, raising := none } }
  let s := s.fenceQueues
  ({ s with rst := { s.rst with fenceStep := 3 } }).fenceAdvance

/-! ## Sources (R453, R456) -/

/-- The level a source reaches: a second SYSRST_WARM of `WATCHDOG` or `DEADLOCK` within 60 s is SYSRST, and without
WARM_EN every SYSRST_WARM is. -/
def State.levelFor (s : State) (src : Source) (l : Level) : Level :=
  let soon := match s.rst.lastWarmAt with
    | some t => s.now < t + 60 * sec
    | none => false
  if l = .warm && ((!s.rst.warmEn) || ((src = .watchdog || src = .deadlock) && soon)) then .sysrst else l

/-- Note a source in `RST_CAUSE.SOURCES`. -/
def State.noteSource (s : State) (src : Source) : State :=
  { s with rst := { s.rst with sources := s.rst.sources ||| ((1 : BitVec 11) <<< (src.code - 1)) } }

/-- Run a reset of a source: at once when it is unfenced or the units are held already, else behind the fence. -/
def State.runReset (s : State) (src : Source) (l : Level) (dump : Bool) : State :=
  let s := { s with rst := { s.rst with source := src, level := l, wantDump := dump
                                        escalated := !src.fenced && s.rst.escalated } }
  if !src.fenced || s.rst.phase = .held then s.assertLevel
  else if s.rst.phase = .fencing then s.fenceAdvance
  else s.fenceBegin

/-- A source arises (R456): while a reset or a recovery runs, only a higher level takes over, or an unfenced source of the
fence's own level, which cuts the fence short; another leaves its bit. -/
def State.beginReset (s : State) (src : Source) (l : Level) (dump : Bool := false) : State :=
  let l := s.levelFor src l
  let s := s.noteSource src
  let cuts := s.rst.phase = .fencing && !src.fenced && s.rst.level.rank ≤ l.rank
  if s.rst.phase = .ready || cuts || s.rst.level.rank < l.rank then s.runReset src l dump else s

end Sys2Proof.Machine
end

