-- ==== Sys2Proof/Machine/Advance.lean ====
section
/-! DEFINITION. Two rows on which a reset can hang: the commit of a command, which a fence waits for, and the re-encryption of
a page, which for the backing store may end in SYSRST (R88, R188 to R193, R459). -/

namespace Sys2Proof.Machine
open Sys2Proof

/-- `COMMAND_COMMIT` (R88): in sequence order, when the completion ring has room. A `PLAN_RUN` first writes its statistics
block (R323). A fence that waited for the command goes on. -/
def execCommandCommit (slice queue : Nat) (s : State) : Res :=
  .next (s.tryCommit slice queue).wakeSlots.fenceAdvance

/-- The overflow of a backing-store page (R193): of the lowest line whose minor counter is at its end, written again with what
it holds. The Stoker's tables are State and their lines have no address in the spec, so that the overflow itself is this row
(log 6). A page that would reach 2^64 - 2^20 begins SYSRST instead. -/
def State.backingReencrypt (s : State) (p : Nat) : State :=
  match s.itemNow 64 0 p with
  | (.ok cb, s) =>
    match (List.range 64).find? fun t => minorOf cb t = 127 with
    | none => s
    | some t =>
      if 2 ^ 64 - 2 ^ 20 ≤ majorOf cb + 1 then s.beginReset .majorLimit .sysrst
      else match s.checkLine .copy 64 (64 * p + t) (majorOf cb) 127 with
        | (.data d, s) => (s.reencrypt 64 (64 * p + t) d 0).trim 64
        | (_, s) => s
  | (_, s) => s

/-- No write to its line waits before a read. -/
def State.firstReads (s : State) (r : MemReq) : Bool :=
  (s.msl.pending.takeWhile fun x => x ≠ r).all fun x => x.addr ≠ r.addr || !x.write

/-- `PAGE_REENCRYPT` (R188 to R190): the page's overflow is served, unless an earlier page on its sliver comes first, and
the held writes follow. Reads in flight to the page end first, under the counters of their ingress (R189). -/
def execPageReencrypt (region page : Nat) (s : State) : Res :=
  .next <|
    if region = 64 then (if page < (s.rgn 64).pages then (s.useCell .backing).backingReencrypt page else s)
    else
      let key := (region, page)
      let sliver (p : Nat × Nat) : Nat × Nat := s.lineSliver ((s.rgn p.1).line0 + 64 * p.2)
      let before := s.msl.reenc.takeWhile fun p => p ≠ key
      if !s.msl.reenc.contains key || before.any (fun p => sliver p = sliver key) then s
      else
        let s := (s.useRgn region).serveNow none fun r => !r.write && s.pageOf r.addr = some key && s.firstReads r
        (s.runHbm (some key)).runHbm.settleHbm

end Sys2Proof.Machine
end

