-- ==== Sys2Proof/Machine/Deadlock.lean ====
section
/-! DEFINITION. The wait-for graph, its scan, and the whole-die watchdog (R344 to R346). -/

namespace Sys2Proof.Machine
open Sys2Proof

/-! ## The graph (R344) -/

/-- Slice and in-slice queue of a waiter; for a plan step those of its `PLAN_RUN`. -/
def State.waitPlace (s : State) (w : Wait) : Nat × Nat := match w.who with
  | .cmd i q _ => (i, q)
  | .step k _ => ((s.plan k).slice, (s.plan k).runQ % 2 ^ 18)

/-- The wait is a node: it is not met and its queue has not stopped. -/
def State.waitNode (s : State) (w : Wait) : Bool :=
  let (i, q) := s.waitPlace w
  (s.queue i q).open && !s.takeServed w

/-- Since when a command later than a wait holds a signal or post for an object, if one does. -/
def State.cmdSignals (s : State) (i q seq g : Nat) : Option Nat :=
  ((s.queue i q).cmds.find? fun c => seq < c.seq && !c.remoteSig && c.signalOp.action ≠ 0 && s.resolveSync i c.signalOp = (0, g)).map
    Cmd.fetchedAt

/-- The same for a later step of the wait's run. -/
def State.stepSignals (s : State) (k n g : Nat) : Option Nat :=
  let p := s.plan k
  let hit := p.indices.any fun x => n < x && (p.srun x).stage ≠ .completed && stSignals (p.step x) && s.gateObj p (stSignal (p.step x)) = g
  if hit then some p.runAt else none

/-- Since when an edge runs from a wait's object to another wait: both waits are registered, the object keeps its value, and
the other wait's queue or run holds the signal. -/
def State.edgeSince (s : State) (w x : Wait) : Option Nat :=
  let since := match x.who with
    | .cmd i q seq => s.cmdSignals i q seq w.obj
    | .step k n => s.stepSignals k n w.obj
  since.map fun t => max (max t (s.syn.changedAt.get 0 w.obj)) (max w.at_ x.at_)

/-- Waits one edge pair away that have stood for the window (R345). -/
def State.nextWaits (s : State) (ws : List Wait) (w : Wait) : List Wait :=
  ws.filter fun x => match s.edgeSince w x with
    | some t => t + s.syn.window * 100 * ms ≤ s.now
    | none => false

/-- A shortest cycle through a wait, by breadth: each path holds its newest wait first. -/
def State.cycleFrom (s : State) (ws : List Wait) (w : Wait) : Nat → List (List Wait) → List Wait → Option (List Wait)
  | 0, _, _ => none
  | f + 1, paths, seen =>
    let ends := paths.find? fun p => match p with
      | [] => false
      | h :: _ => (s.nextWaits ws h).contains w
    match ends with
    | some p => some p
    | none =>
      let grow := paths.foldl (fun (a : List (List Wait) × List Wait) p => match p with
        | [] => a
        | h :: _ =>
          let new := (s.nextWaits ws h).filter fun x => !a.2.contains x
          (a.1 ++ new.map (· :: p), a.2 ++ new)) ([], seen)
      if grow.1.isEmpty then none else State.cycleFrom s ws w f grow.1 grow.2

/-- A wait registered before another; of two registered in the same instant the one of the higher slice and queue counts as
the earlier, so that the victim is the lower (R345). -/
def State.waitBefore (s : State) (a b : Wait) : Bool :=
  let (i, q) := s.waitPlace a
  let (j, r) := s.waitPlace b
  a.at_ < b.at_ || (a.at_ = b.at_ && (j < i || (i = j && r < q)))

/-- Insert a wait into a list in registration order. -/
def State.insWait (s : State) (w : Wait) : List Wait → List Wait
  | [] => [w]
  | x :: r => if s.waitBefore w x then w :: x :: r else x :: State.insWait s w r

/-- The waits that are nodes, in registration order. -/
def State.graphWaits (s : State) : List Wait := (s.regWaits.filter s.waitNode).foldl (fun l w => s.insWait w l) []

/-- The declared cycles, each with its victim first: every wait that closes a cycle of waits registered before it, taken in
registration order and each time without the victims found so far. -/
def State.cycles (s : State) : List Wait → List Wait → List (List Wait) → List (List Wait)
  | [], _, found => found
  | w :: rest, ws, found =>
    let ws' := ws ++ [w]
    match s.cycleFrom ws' w (ws'.length + 1) [[w]] [w] with
    | some p => State.cycles s rest ws (found ++ [w :: (p.filter fun x => x ≠ w)])
    | none => State.cycles s rest ws' found

/-! ## Breaking (R345) -/

/-- The report of a cycle: `SYN_DL_STAT`, its record, the counters of its slices and the privileged one. -/
def State.reportCycle (s : State) (c : List Wait) (broken : Bool) : State :=
  match c with
  | [] => s
  | v :: _ =>
    let (i, q) := s.waitPlace v
    let slices := (c.map fun w => (s.waitPlace w).1).eraseDups
    let ctx := match v.who with
      | .cmd _ _ _ => (s.queue i q).ctxnum
      | .step _ _ => 0
    let breaks := fld s.syn.dlStat 63 54 + b2n broken
    let stat := packFields [(2, if slices.length ≤ 1 then 1 else 2), (11, i), (24, ctx), (17, c.length), (10, breaks)]
    let s := { s with syn := { s.syn with dlStat := BitVec.ofNat 64 stat } }
    let s := s.record 0x90 srcSync [(8, stat)]
    if broken then (s.forEach slices fun s k => s.count k 0xF 1).priv 0x302 1 else s

/-- End the victim: its command commits `SYNC_DEADLOCK` with nothing done and no signal, or its run ends. -/
def State.endVictim (s : State) (v : Wait) : State :=
  match v.who with
  | .cmd i q seq => ((s.dropWait v.who).finishCmd i q seq stSyncDeadlock 0).advance i q
  | .step k _ => (s.dropWait v.who).endRun k stSyncDeadlock 0

/-- Break a declared cycle, or report it once while BREAK_EN is 0. -/
def State.settleCycle (s : State) (c : List Wait) : State :=
  let key := c.map fun w => w.obj
  match c with
  | [] => s
  | v :: _ =>
    if s.syn.breakEn then (s.reportCycle c true).endVictim v
    else if s.syn.reported.contains key then s
    else
      let s := s.reportCycle c false
      { s with syn := { s.syn with reported := key :: s.syn.reported } }

/-- Detection runs: recovery has completed, and no fence is running (R346). -/
def State.watching (s : State) : Bool := s.rst.phase = .ready && 5 ≤ s.rst.step

/-- `DEADLOCK_SCAN`: every 100 ms. -/
def execDeadlockScan (s : State) : Res :=
  .next <|
    if !s.watching || s.now < s.syn.scanAt + 100 * ms then s
    else
      let cs := s.cycles s.graphWaits [] []
      let keys := cs.map fun c => c.map fun w => w.obj
      let s := { s with syn := { s.syn with scanAt := s.now, reported := s.syn.reported.filter fun k => keys.contains k } }
      cs.foldl State.settleCycle s

/-! ## The whole-die watchdog (R346) -/

/-- Work of a queue that waits on nothing the rule excepts: a command ready to start, one finished with ring room, or one in
execution without records outstanding; a run is the plan executor's. -/
def Queue.hasWork (x : Queue) : Bool :=
  x.open && ((x.cmds.any fun c => c.stage = .ready || (c.stage = .executing && c.recordsOut = 0 && c.opcode ≠ 0x31)) ||
    (x.cplRoom && (x.cmds.head?.map fun c => decide (c.stage = .finished)).getD false))

/-- A unit holds accepted work. -/
def State.unitWork (s : State) (u : Nat) : Bool :=
  match u with
  | 0 => s.qm.slices.cells.any fun e => e.2.state = .active && e.2.queues.cells.any fun q => q.2.hasWork
  | 1 => !s.syn.notices.isEmpty
  | 2 => !s.fab.loop.isEmpty || !s.fab.parked.isEmpty || s.lnk.links.cells.any fun e => e.2.accepted.any fun f => f.ftype = 8 || f.ftype = 9
  | _ => s.col.plans.cells.any fun e => e.2.running && e.2.fail = 0 && e.2.indices.any fun k =>
      (e.2.srun k).stage = .started && !(e.2.srun k).buf.isEmpty

/-- The lowest unit that has held work for the window without an item of progress. -/
def State.stalledUnit (s : State) : Option Nat :=
  lowest 4 fun u => s.unitWork u && s.syn.progressAt.get 0 u + s.syn.window * 100 * ms ≤ s.now

/-- `DEADLOCK_ESCALATE`: recorded, reported, and a fenced reset with its dump. -/
def execDeadlockEscalate (s : State) : Res :=
  .next <|
    match s.stalledUnit with
    | none => s
    | some u =>
      if !s.watching then s
      else
        let l := s.levelFor .deadlock .warm
        let s := s.record 0x15 srcStoker [(1, u), (1, l.code)]
        let stat := packFields [(2, 3), (52, 0), (10, fld s.syn.dlStat 63 54)]
        let s := { s with syn := { s.syn with escalated := true, dlStat := BitVec.ofNat 64 stat } }
        s.beginReset .deadlock .warm

end Sys2Proof.Machine
end

