-- ==== Sys2Proof/Machine/Reset.lean ====
section
/-! DEFINITION. The reset rows: sources, the fence's waits and bounds, the release steps, the dump and the RST registers
(R40, R41, R67, R453 to R469), and the re-mask of the Firebox cells, whose faults may end in SYSRST (R115, R116). -/

namespace Sys2Proof.Machine
open Sys2Proof

/-! ## Pins and supply (R40, R453) -/

/-- `POWER_ON`: the main supply rises, or falls below the AON threshold. -/
def execPowerOn (present : Bool) (s : State) : Res :=
  .next <|
    let s := s.runReset .powerOn .porst false
    { s with sys := { s.sys with mainPower := present } }

/-- `HUB_RST_N_LOW`: a pulse of `ns` nanoseconds; between 10 and 100 ns it resets or does not, whichever is free (log 3). -/
def execHubRstNLow (ns : Nat) (s : State) : Res :=
  .next <|
    let (b, s) : BitVec 1 × State := if 10 ≤ ns && ns < 100 then s.draw 1 else (1, s)
    if !s.sys.mainPower || ns < 10 || b = 0 then s
    else
      let s := s.beginReset .pin .sysrst
      if s.rst.source = .pin && s.rst.phase = .held then { s with rst := { s.rst with sourceEnd := max s.rst.sourceEnd (s.now + ns) } } else s

/-! ## Requests (R454) -/

/-- A reset or a recovery is in progress. -/
def State.resetting (s : State) : Bool := s.rst.phase ≠ .ready

/-- `RESET_REQ`: 2 SYSRST, 3 SYSRST_WARM, 4 CORERST. -/
def execResetReq (m : Mgmt) (level : Nat) (dump : Bool) (s : State) : Res :=
  .next <| s.domMsg m true fun s =>
    let go (l : Level) : State := if s.resetting || s.lc.begun then s.answer .busy else (s.answer .ok).beginReset .mgmt l dump
    match level with
    | 2 => go .sysrst
    | 3 => go .warm
    | 4 => go .core
    | _ => s.answer .badParam

/-- `RST_REQ`: 3 SYSRST_WARM, 4 CORERST, other values ignored; bit 3 asks for a dump. -/
def execRstReqWrite (r : Req) (v : BitVec 32) (s : State) : Res :=
  .next <| s.regWrite r 0x490018 32 (kernelReq r) fun s =>
    if !s.rst.hostReqEn || s.resetting then s
    else match bits v.toNat 2 0 with
    | 3 => s.beginReset .host .warm (v.getLsbD 3)
    | 4 => s.beginReset .host .core (v.getLsbD 3)
    | _ => s

/-- `WATCHDOG_EXPIRY`: of a Stoker that runs. -/
def execWatchdogExpiry (s : State) : Res := .next <| if s.rst.step < 2 then s else s.beginReset .watchdog .warm

/-! ## Waits of a fence (R459, R460) -/

/-- `SELF_REFRESH_ACK`: a stack's controller has entered self-refresh. -/
def execSelfRefreshAck (stack : Nat) (s : State) : Res :=
  .next <|
    if !s.rst.srWait.contains stack then s
    else
      let s := { s with
        rst := { s.rst with srWait := s.rst.srWait.filter fun x => x ≠ stack }
        sys := { s.sys with selfRefresh := s.sys.selfRefresh.set false stack true } }
      s.fenceAdvance

/-- A sealed region whose write-back a forced fence cut off is `LOST` (R128, R460). -/
def State.loseUnwritten (s : State) : State :=
  let dirty := (s.msl.cache.cells.filterMap fun e => e.2.bind fun (c : Cached) => if c.dirty then some c.region else none).eraseDups
  s.forEach dirty fun s ri => ({ s with fbx := { s.fbx with rootBad := ri :: s.fbx.rootBad } }).rootLost ri

/-- Sealed regions of stacks whose self-refresh was not acknowledged are released (R460). -/
def State.releaseStacks (s : State) (l : List Nat) : State :=
  s.forEach ((s.msl.rgns.cells.filter fun e => e.1 < 64 && e.2.state ≠ .unassigned && e.2.mode = 1 && l.contains e.2.stack).map Prod.fst)
    State.finishRelease

/-- `FENCE_TIMEOUT`: 20 ms after step 2 the fence is forced. -/
def execFenceTimeout (s : State) : Res :=
  .next <|
    if s.rst.phase ≠ .fencing || s.now < s.rst.fenceAt + 20 * ms then s
    else
      let unwritten := s.rst.fenceStep < 5
      let left := if s.rst.fenceStep < 6 then [0, 1, 2, 3] else s.rst.srWait
      let s := { s with rst := { s.rst with forced := true } }
      let s := if unwritten then s.loseUnwritten else s
      (if s.rst.level = .warm then s.releaseStacks left else s).fenceEnd

/-! ## Release (R457, R67) -/

/-- 32 cycles of KCLK, in ns. -/
def holdNs : Nat := 976563

/-- Domains that the fuses of the variant, and the fuse lines, have taken out: absent ports, an absent cipher engine, and
what the lines name (R506). -/
def State.fusedOff (s : State) : BitVec 30 :=
  let v := s.boot.variant
  let ports := ((List.range 8).map fun p => if v.getLsbD p then 0 else 2 ^ (6 + p)).sum
  s.sys.fuses ||| BitVec.ofNat 30 (ports + if v.getLsbD 8 then 0 else 4)

/-- FUSED is sampled at reset release, and the domains it names are off (R17, R498, R506). -/
def State.sampleFuses (s : State) : State :=
  let s := { s with sys := { s.sys with pdFused := s.fusedOff } }
  s.forEach ((List.range 30).filter fun p => s.sys.pdFused.getLsbD p) fun s p =>
    { s with sys := { s.sys with pd := s.sys.pd.set .on p .off } }

/-- `RESET_HOLD_EXPIRY`: step 1, once KCLK runs; after PORST the straps are sampled (R41). -/
def execResetHoldExpiry (hubPos : BitVec 3) (pkgSize : BitVec 2) (s : State) : Res :=
  .next <|
    if s.rst.phase ≠ .held || s.rst.step ≠ 0 || !s.sys.mainPower || s.sys.kclkStopped || s.now < s.rst.sourceEnd + holdNs then s
    else
      let s := ({ s with rst := { s.rst with step := 1 } }).sampleFuses
      if s.rst.level = .porst then { s with sys := { s.sys with hubPos, pkgSize } } else s

/-- The `BOOT` record (R451): reset cause, configuration copy and sequence, VBAT_LOST. -/
def State.bootRecord (s : State) : State :=
  s.record 0x10 srcKindling [(8, s.rstCause), (4, packFields [(2, s.boot.config), (30, s.boot.cfgSeq)]), (1, b2n s.boot.vbatLost)]

/-- A `RECOVERY` alarm of a slot (R62, R66, R67). -/
def State.recoveryAlarm (s : State) (i : Nat) : State :=
  (s.countAlarm i alRecovery).record 0x30 srcStoker [(1, alRecovery), (1, i), (1, 0)]

/-- The slots after a warm level (R67), with a tamper latch that was set meanwhile (R68). -/
def State.recoverSlots (s : State) : State :=
  let s := s.forEach allSlots fun s i =>
    match (s.slot i).state with
    | .live => ((s.recoveryAlarm i).emit (.domEvent i evQuarantine 4 alRecovery)).quarantine i (.alarm alRecovery)
    | .quarantined => (s.recoveryAlarm i).quarantine i (.alarm alRecovery)
    | .admitting =>
      ((s.moveSlot i .teardown .recovery).emit (.domEvent i evTeardownStart SlotCause.recovery.code 0)).modSlot i fun p => { p with tdStep := 1 }
    | .teardown => s.modSlot i fun p => { p with tdStep := 1 }
    | .empty => s
  if s.sys.tamperLatch then s.teardownAll alTamper .tamper else s

/-- Step 2: the Stoker. After the warm levels the first record is `BOOT`, and the slots are settled. -/
def State.release2 (s : State) : State :=
  let s := { s with rst := { s.rst with step := 2, phase := .recovering } }
  if s.rst.level.cold then s else s.bootRecord.recoverSlots

/-- The backing store after a cold level: a sealed region at the top of stack 0 with every used slot ZERO (R143, R146, R174). -/
def State.placeBacking (s : State) : State :=
  let r : Region := { state := .active, mode := 1, stack := 0, base := 30720, size := 2048 }
  let s := (s.setRgn 64 r).setRoot 64 ((List.range r.rootSlots).foldl (fun l k => setZero l k true) 0)
  { s with msl := { s.msl with bstore := BitVec.ofNat 64 (packFields [(2, 0), (15, 30720), (16, 2048)]) } }

/-- Step 3: stacks, front end, slivers and gates. After a cold level the hearth is zero-filled and the backing store new. -/
def State.release3 (s : State) : State :=
  let s := { s with
    rst := { s.rst with step := 3 }
    sys := { s.sys with selfRefresh := {} }
    msl := { s.msl with ready := true }
    hth := { s.hth with ready := true
                        scrub := (List.range 12).foldl (fun (t : Tbl Scrub) u => t.set {} u { startAt := s.now, lineAt := s.now }) {} } }
  if s.rst.level.cold then { s.placeBacking with hth := { s.hth with store := {}, ecc := {} } } else s

/-- Step 4: the ports; links that are enabled begin to train, but for those that CORERST left negotiating. -/
def State.release4 (s : State) : State :=
  let s := { s with rst := { s.rst with step := 4 } }
  s.forEach s.lnk.links.keys fun s l =>
    if (s.link l).enable && (s.link l).state = .disabled && s.linkPresent l then s.toTraining l none false else s

/-- Step 5: the engines. A die that kept its group record asks its peers to re-admit it (R406, R467). -/
def State.release5 (s : State) : State :=
  let s := { s with
    rst := { s.rst with step := 5 }
    fab := { s.fab with ready := true }
    syn := { s.syn with ready := true, scanAt := s.now, progressAt := (List.range 4).foldl (fun (t : Tbl Nat) u => t.set 0 u s.now) {} } }
  if s.rst.level.cold then s
  else { s with hst := { s.hst with
    rejoinWait := s.peers, heardAt := s.peers.foldl (fun (t : Tbl Nat) h => t.set 0 h s.now) s.hst.heardAt } }

/-- Step 6: the host port; the recovery is complete. The timeout of the slots that recovery quarantined runs from here
(R67). -/
def State.release6 (s : State) : State :=
  let s := { s with rst := { s.rst with step := 6, phase := .ready, lastMs := (s.now - s.rst.assertAt) / ms % 2 ^ 32 } }
  if s.rst.level.cold then s
  else s.forEach allSlots fun s i => s.modSlot i fun p =>
    if p.state = .quarantined && p.cause = .alarm alRecovery then { p with deadline := s.now + 60 * sec } else p

/-- Step 7: the sites; they leave level 15, and their admission begins (R395, R491). -/
def State.release7 (s : State) : State :=
  let s := { s with rst := { s.rst with step := 7 } }
  let s := s.forEach allSites fun s n => s.requestLevel n (max s.wanted.2 (s.siteFloor n))
  s.forEach (List.range 8) fun s n =>
    if (s.site n).linkUp && (s.site n).state ≠ .probing && (s.site n).state ≠ .admitted then s.startAdmission n else s

/-- `RESET_RELEASE_STEP`: the condition of a step holds and the next one begins; step 3 waits for Kindling to complete
(R499). -/
def execResetReleaseStep (s : State) : Res :=
  .next <|
    if s.rst.phase = .fencing || s.sys.kclkStopped then s
    else match s.rst.step with
    | 1 => s.release2
    | 2 => if s.boot.phase = 4 then s.release3 else s
    | 3 => s.release4
    | 4 => s.release5
    | 5 => s.release6
    | 6 => s.release7
    | _ => s

/-- `RECOVERY_TIMEOUT` (R465): at most once per fenced source. -/
def execRecoveryTimeout (s : State) : Res :=
  .next <|
    let late := (s.rst.phase = .held || s.rst.phase = .recovering) && s.rst.assertAt + 10 * sec ≤ s.now
    if !late || !s.rst.source.fenced || s.rst.escalated then s
    else
      let s := s.noteSource .recoveryFail
      ({ s with rst := { s.rst with source := .recoveryFail, level := .sysrst, escalated := true, wantDump := false } }).assertLevel

/-! ## RST registers (R462, R469) -/

/-- `RST_DUMP_ACK`: releases the held dump. -/
def execRstDumpAck (r : Req) (s : State) : Res :=
  .next <| s.regWriteMgmt r 0x490030 32 fun s => { s with rst := { s.rst with dumpHeld := false, dump := [] } }

/-- The read of `RST_DUMP_DATA`: the selected word; the selector advances (R469). -/
def State.readDump (s : State) : BitVec 64 × State :=
  (BitVec.ofNat 64 s.dumpWord, { s with rst := { s.rst with dumpSel := (s.rst.dumpSel + 1) % 2 ^ 16 } })

/-- `RST_DUMP_DATA_READ`. -/
def execRstDumpDataRead (r : Req) (s : State) : Res :=
  .next <|
    if !r.mgmt then s.emit (.regRead (if s.hostUp then 0 else BitVec.allOnes 64))
    else if !s.mgmtServes 0x490028 then s
    else if s.lcBars 0x490028 then (s.regBad r 0x490028 64).emit (.regRead 0)
    else
      let (v, s) := s.readDump
      s.emit (.regRead v)

/-- `RST_CTL_WRITE`: once LOCK is set, the fields it locks keep their values until PORST or SYSRST (R15). -/
def execRstCtlWrite (r : Req) (v : BitVec 32) (s : State) : Res :=
  .next <| s.regWriteMgmt r 0x490010 32 fun s =>
    if s.rst.lock then s
    else { s with rst := { s.rst with lock := v.getLsbD 0, warmEn := v.getLsbD 1, hostReqEn := v.getLsbD 2, dumpEn := v.getLsbD 3 } }

/-! ## Re-masking (R115, R116) -/

/-- A cell's shares under a fresh mask. -/
def State.remaskCell (s : State) (id : CellId) : State :=
  let (m, s) := s.draw 768
  { s with fbx := { s.fbx with cells := s.fbx.cells.map fun (c : Cell) => if c.id = id then { c with s0 := c.s0 ^^^ m, s1 := c.s1 ^^^ m } else c } }

/-- The Stoker begins SYSRST once the boot root or the backing-store key has failed its check. -/
def State.takeRootFault (s : State) : State := if s.fbx.rootFault then s.beginReset .keyFault .sysrst else s

/-- A cell whose check value fails on a re-mask: its fault, and for the boot root and the backing-store key SYSRST. -/
def State.cellFault (s : State) (id : CellId) : State := (s.shareFault id).takeRootFault

/-- `REMASK`: every 2^REMASK_LOG2 µs; `bad` names the cells, by their places, whose check value fails now. -/
def execRemask (bad : List Nat) (s : State) : Res :=
  .next <|
    if s.rst.step < 2 || s.now < s.fbx.remaskAt + 2 ^ s.fbx.remaskLog2.toNat * us then s
    else
      let s := { s with fbx := { s.fbx with remaskAt := s.now } }
      let hit (k : Nat) : Bool := bad.contains k
      let ids := s.fbx.cells.zipIdx.map fun e => (e.1.id, !e.1.checkOk || hit e.2)
      let s := (ids.filter fun e => !e.2).foldl (fun s e => s.remaskCell e.1) s
      ((ids.filter fun e => e.2).foldl (fun s e => s.cellFault e.1) s).takeRootFault

end Sys2Proof.Machine
end

