-- ==== Sys2Proof/Machine/LifeCycle.lean ====
section
/-! DEFINITION. Life cycle and debug authorisation: transitions and their steps, operator anchors, challenges, and the opening
of intrusive debug (R470 to R482). -/

namespace Sys2Proof.Machine
open Sys2Proof

/-! ## Sessions and responses (R470, R472, R480) -/

/-- A Kilyen session. -/
def kilyenOk (m : Mgmt) : Bool := m.secure && m.kilyen

/-- Purposes of a challenge. -/
def puDebug : Nat := 1
def puReturn : Nat := 2

/-- The 64 bytes of a challenge (R480). -/
def State.challengeBytes (s : State) (purpose : Nat) (nonce : BitVec 256) : List Byte :=
  leBytes 2 1 ++ leBytes 1 purpose ++ leBytes 1 s.lcCode ++ leBytes 4 0 ++ leBytes 8 s.lc.serial.toNat ++
  leBytes 8 (packFields [(40, s.sys.opSeconds.toNat), (24, s.sys.powerCycles.toNat)]) ++ leBytes 32 nonce.toNat ++ leBytes 8 0

/-- The signature that `LC_RESP` holds: r and s, big-endian (R129). -/
def State.response (s : State) : Nat × Nat :=
  let b := leBytes 96 s.lc.resp.toNat
  (beNat (b.take 48), beNat (b.drop 48))

/-- A Halaro response is good for an action: the challenge is live, names the purpose, and the signature verifies. -/
def State.responseOk (s : State) (purpose : Nat) : Bool :=
  s.lc.chalLive && bits s.lc.chal.toNat 23 16 = purpose && ecVerify Config.halaroKey s.response (leBytes 64 s.lc.chal.toNat)

/-- The challenge has been used. -/
def State.useChallenge (s : State) : State := { s with lc := { s.lc with chalLive := false } }

/-! ## Transitions (R472, R473) -/

/-- The transitions that exist: from, to. -/
def lcRow (src dst : Nat) : Bool := [(1, 2), (2, 3), (3, 4), (2, 5), (3, 5), (1, 5), (4, 5)].contains (src, dst)

/-- The session meets the row's column. -/
def State.lcAuth (s : State) (m : Mgmt) (dst : Nat) : Bool :=
  if s.lcCode = 1 || (s.lcCode = 4 && dst = 5) then kilyenOk m else s.operatorOk m

/-- Valid anchors (R478). -/
def Anchor.isValid : Anchor → Bool
  | .valid _ => true
  | _ => false
def State.validAnchors (s : State) : Nat := (s.lc.anchors.filter Anchor.isValid).length

/-- Steps of a target; the last programs the state word (R474). -/
def lcSteps (target : Nat) : Nat := [0, 0, 2, 2, 3, 5].getD target 0

/-- Every slot is `EMPTY`. -/
def State.slotsEmpty (s : State) : Bool := allSlots.all fun i => (s.slot i).state = .empty

/-- Every slot is `EMPTY` or has completed steps 1 and 2 of its teardown (R473, R481). -/
def State.slotsQuiet (s : State) : Bool :=
  allSlots.all fun i => (s.slot i).state = .empty || ((s.slot i).state = .teardown && 3 ≤ (s.slot i).tdStep)

/-- The first clear mark of a target's area, from a step on. -/
def State.nextMark (s : State) (target k : Nat) : Nat :=
  ((List.range (lcSteps target)).find? fun j => k ≤ j + 1 && !bit (s.lc.marks.get 0 target) j).elim (lcSteps target + 1) (· + 1)

/-- The last step whose mark is programmed. -/
def State.lastMark (s : State) (target : Nat) : Nat :=
  ((List.range (lcSteps target)).filter fun j => bit (s.lc.marks.get 0 target) j).foldl (fun a j => max a (j + 1)) 0

/-- A transition runs from its first clear mark. -/
def State.startTransition (s : State) (target : Nat) : State :=
  { s with lc := { s.lc with
    pending := true, target, step := s.lastMark target, next := s.nextMark target 1, attempts := 0, fault := false } }

def State.setTres (s : State) (n : Nat) : State := { s with lc := { s.lc with tres := n } }

/-- `LC_TRANS`: the first check that fails is reported. A die that stopped at a step accepts only scrapping (R476). -/
def execLcTransitionRequest (r : Req) (m : Mgmt) (v : BitVec 32) (s : State) : Res :=
  .next <| s.regWriteMgmt r 0x4A0008 32 fun s =>
    let t := bits v.toNat 2 0
    if s.lc.tres = 1 then s
    else if !lcRow s.lcCode t then s.setTres 3
    else if !s.lcAuth m t then s.setTres 4
    else if t = 3 && s.validAnchors = 0 then s.setTres 6
    else
      let ok := t ≠ 4 || s.responseOk puReturn
      let s := if t = 4 then s.useChallenge else s
      if !ok then s.setTres 7
      else if s.lc.fault && t ≠ 5 then s.setTres 8
      else if s.lc.pending || s.lc.opening || (s.resetting && !s.lc.fault) || (t = 3 && !s.slotsEmpty) then s.setTres 5
      else
        let s := (s.startTransition t).setTres 1
        if s.lcCode = 1 || t = 3 then s
        else s.forEach (allSlots.filter fun i => (s.slot i).state ≠ .empty) fun s i => s.enterTeardown i .lifeCycle

/-! ## Steps (R474 to R477) -/

/-- Wipe the integrator fields. -/
def State.wipeInteg (s : State) : State := { s with lc := { s.lc with integWiped := true } }

/-- Wipe the four operator anchors. -/
def State.wipeAnchors (s : State) : State := { s with lc := { s.lc with anchors := s.lc.anchors.map fun _ => Anchor.wiped } }

/-- Program the state word of a target: every bit to 1. -/
def State.programState (s : State) (target : Nat) : State :=
  { s with lc := { s.lc with words := s.lc.words.set (target - 2) (BitVec.allOnes 32) } }

/-- What a step of a target programs. -/
def State.programStep (s : State) (target k : Nat) : State :=
  if k = lcSteps target then s.programState target
  else match target, k with
  | 2, _ => { s with lc := { s.lc with makerLock := true } }
  | 3, _ => { s with lc := { s.lc with anchors := s.lc.anchors.map fun a => if a = .empty then .wiped else a } }
  | 4, 1 => s.wipeAnchors
  | 4, _ => s.wipeInteg
  | _, 1 => { s with fbx := { s.fbx with uds := BitVec.allOnes 384, udsWiped := true } }
  | _, 2 => s.wipeAnchors.wipeInteg
  | _, 3 => { s with lc := { s.lc with trimWiped := true } }
  | _, _ => { s with rcd := { s.rcd with perm := List.replicate 256 none, permQ := [] } }

/-- After the last step: fenced SYSRST with cause `LC`, also out of Kindling. -/
def State.endTransition (s : State) : State :=
  ({ s with lc := { s.lc with tres := 2, pending := false, next := 0 } }).noteSource .lc |>.runReset .lc .sysrst false

/-- Go on behind a step. -/
def State.afterStep (s : State) (target k : Nat) : State :=
  let s := { s with lc := { s.lc with attempts := 0, next := s.nextMark target (k + 1) } }
  if lcSteps target < s.lc.next then s.endTransition else s

/-- A step cannot be programmed: the transition stops, and a Kindling that resumed it releases nothing further (R476). -/
def State.lcStops (s : State) : State :=
  let s := { s with lc := { s.lc with fault := true, pending := false, next := 0, attempts := 0, tres := 8 } }
  if s.boot.phase = 4 then s else ({ s with boot := { s.boot with phase := 5, fault := 4 } }).recLoaded id

/-- The Stoker may run a step now (R473, R475). -/
def State.lcMayStep (s : State) : Bool :=
  s.lc.pending && 2 ≤ s.rst.step && s.rst.phase ≠ .fencing && (s.lc.begun || s.slotsQuiet)

/-- `LC_STEP`: one programming of the present step, its read-back good or not (`ok`). A step of scrapping that fails three
times is left; another transition stops there. -/
def execLcStep (ok : Bool) (s : State) : Res :=
  .next <|
    if !s.lcMayStep then s
    else
      let t := s.lc.target
      let k := s.lc.next
      let from_ := s.lcCode
      let s := { s with lc := { s.lc with begun := true, records := if s.lc.records.contains t then s.lc.records else t :: s.lc.records } }
      if ok then
        let s := s.programStep t k
        let m := s.lc.marks.get 0 t ||| 2 ^ (k - 1)
        let s := { s with lc := { s.lc with marks := s.lc.marks.set 0 t m, step := k } }
        (s.record 0x20 srcStoker [(1, from_), (1, t), (1, k), (1, 1)]).afterStep t k
      else if s.lc.attempts < 2 then { s with lc := { s.lc with attempts := s.lc.attempts + 1 } }
      else if t = 5 then s.afterStep t k
      else s.lcStops

/-- The transition that an area leaves pending, scrapping before any other (R475, R477). -/
def State.pendingArea (s : State) : Option Nat :=
  if s.lcCode = 5 then none
  else [5, 4, 3, 2].find? fun t => s.lc.records.contains t && !wordSet (s.lc.words.getD (t - 2) 0)

/-! ## Operator anchors (R478) -/

def State.setAres (s : State) (n : Nat) : State := { s with lc := { s.lc with ares := n } }
def State.setAnchor (s : State) (k : Nat) (a : Anchor) : State := { s with lc := { s.lc with anchors := s.lc.anchors.set k a } }
def acmdSlot (v : BitVec 32) : Nat := bits v.toNat 1 0
def acmdOp (v : BitVec 32) : Nat := bits v.toNat 3 2

/-- `LC_ACMD` `SET`: the first anchor by any mutually authenticated session, a later one by a chain that ends in an anchor. -/
def execAnchorSet (r : Req) (m : Mgmt) (v : BitVec 32) (s : State) : Res :=
  .next <| s.regWriteMgmt r 0x4A0010 32 fun s =>
    let k := acmdSlot v
    if acmdOp v ≠ 1 then s
    else if !(if s.validAnchors = 0 then m.secure else s.chainOk m) then s.setAres 3
    else if s.lcCode ≠ 2 then s.setAres 4
    else if s.lc.anchors.getD k .empty ≠ .empty then s.setAres 5
    else (s.setAnchor k (.valid m.root)).setAres 2

/-- `LC_ACMD` `REVOKE`: never the last valid anchor, nor the one the session's own chain ends in. -/
def execAnchorRevoke (r : Req) (m : Mgmt) (v : BitVec 32) (s : State) : Res :=
  .next <| s.regWriteMgmt r 0x4A0010 32 fun s =>
    let k := acmdSlot v
    let a := s.lc.anchors.getD k .empty
    if acmdOp v ≠ 2 then s
    else if !s.operatorOk m then s.setAres 3
    else if !(s.lcCode = 2 || s.lcCode = 3) then s.setAres 4
    else if a.isValid && s.validAnchors = 1 then s.setAres 6
    else if a = .valid m.root then s.setAres 3
    else (s.setAnchor k .wiped).setAres 2

/-! ## Debug (R479 to R481) -/

def State.setDres (s : State) (n : Nat) : State := { s with lc := { s.lc with dres := n } }

/-- `LC_DCMD` `CHALLENGE`: a fresh challenge voids the one before it. -/
def execDebugChallenge (r : Req) (_m : Mgmt) (v : BitVec 32) (s : State) : Res :=
  .next <| s.regWriteMgmt r 0x4A0300 32 fun s =>
    let p := bits v.toNat 3 2
    if s.lc.dres = 1 || bits v.toNat 1 0 ≠ 1 then s
    else if !(p = puDebug || p = puReturn) then s.setDres 4
    else if s.fbx.trngFailed then s.setDres 6
    else
      let (n, s) := s.nonce
      ({ s with lc := { s.lc with chal := BitVec.ofNat 512 (leNat (s.challengeBytes p n)), chalLive := true } }).setDres 2

/-- The session that may open intrusive debug in the present state (R470). -/
def State.debugAuth (s : State) (m : Mgmt) : Bool := if s.lcCode = 1 || s.lcCode = 4 then kilyenOk m else s.operatorOk m

/-- `LC_DCMD` `OPEN`: FIELDED and RETURNED need a response; every slot is torn down. -/
def execDebugOpen (r : Req) (m : Mgmt) (s : State) : Res :=
  .next <| s.regWriteMgmt r 0x4A0300 32 fun s =>
    if s.lc.dres = 1 then s
    else if s.lcCode = 5 || s.lc.pending || s.lc.begun then s.setDres 5
    else if !s.debugAuth m then s.setDres 3
    else
      let need := s.lcCode = 3 || s.lcCode = 4
      let ok := !need || s.responseOk puDebug
      let s := if need then s.useChallenge else s
      if !ok then s.setDres 4
      else
        let n := (allSlots.filter fun i => (s.slot i).state ≠ .empty).length
        let s := s.teardownAll alDebugOpen .debugOpen
        ({ s with lc := { s.lc with opening := true, retired := n } }).setDres 1

/-- CDI_FW and the keys below it, from the measured digests, the life-cycle code and a debug state (R109). -/
def State.deriveFw (s : State) (dbg : Nat) : State :=
  let s := s.useCell .cdiRom
  match s.cellKey .cdiRom 48 with
  | none => s
  | some ikm =>
    let d (k : Nat) : BitVec 384 := s.boot.digests.getD k 0
    let s := ((s.cellDrop .cdiFw).cellDrop .aliasKey).cellDrop .groupKey
    let s := s.cellPut .cdiFw (some .cdiRom) (hkdfExtract (fwSalt (d 1) (d 2) (d 3) s.lcCode dbg) ikm)
    let s := s.expandCell .aliasKey .cdiFw (ascii "KLY-WRH-W1 alias") 56
    s.expandCell .groupKey .cdiFw (ascii "KLY-WRH-W1 group") 56

/-- `DEBUG_OPEN_COMPLETE`: every slot is quiet. -/
def execDebugOpenComplete (s : State) : Res :=
  .next <|
    if !s.lc.opening || s.rst.step < 2 || s.rst.phase = .fencing || !s.slotsQuiet then s
    else
      let s := s.deriveFw 1
      let s := { s with lc := { s.lc with debugOpen := true, opening := false, dres := 2 } }
      s.record 0x21 srcStoker [(1, 1), (1, s.lc.retired)]

end Sys2Proof.Machine
end

