-- ==== Sys2Proof/Machine/Kindling.lean ====
section
/-! DEFINITION. Kindling: the boot from the straps to the verified slivers (R41, R499 to R507), and the training slots (R505). -/

namespace Sys2Proof.Machine
open Sys2Proof

/-! ## The configuration copy (R501) -/

/-- LENGTH, SEQ and SIGNER of a copy. -/
def cfLen (b : List Byte) : Nat := leNat ((b.drop 12).take 4)
def cfSeq (b : List Byte) : Nat := leNat ((b.drop 8).take 4)
def cfSigner (b : List Byte) : Nat := leNat ((b.drop 6).take 1)

/-- A copy is valid. -/
def State.cfValid (s : State) (c : FlashConfig) : Bool :=
  let b := c.bytes
  let n := cfLen b
  let signed := b.take (68 + n)
  let sig := (b.drop (68 + n)).take 96
  b.take 4 = [0x4B, 0x57, 0x43, 0x46] && leNat ((b.drop 4).take 2) = 1 && cfSeq b ≠ 0 && cfSeq b ≠ 2 ^ 32 - 1 &&
    n ≤ 261976 && n % 8 = 0 && 164 + n ≤ b.length && crc32c (b.take (64 + n)) = leNat ((b.drop (64 + n)).take 4) &&
    ecVerify c.key (beNat (sig.take 48), beNat (sig.drop 48)) signed && c.keyOk &&
    (cfSigner b = 1 || (cfSigner b = 2 && (s.lcCode = 2 || s.lcCode = 3) && !s.lc.integWiped))

/-- 64-bit words of a copy's body. -/
def cfWords (b : List Byte) : List Nat :=
  let body := (b.drop 64).take (cfLen b)
  (List.range (body.length / 8)).map fun k => leNat ((body.drop (8 * k)).take 8)

/-- Entries of a body: type and value words; TYPE 0 ends them (R105). -/
def cfEntries : Nat → List Nat → List (Nat × List Nat)
  | 0, _ => []
  | _, [] => []
  | f + 1, h :: r => if bits h 15 0 = 0 then [] else (bits h 15 0, r.take (bits h 31 24)) :: cfEntries f (r.drop (bits h 31 24))

/-- The thresholds of a `THERMAL` entry, or the defaults. -/
def thermOf (w : Nat) : Nat × Nat × Nat :=
  let a := bits w 7 0
  let b := bits w 15 8
  let c := bits w 23 16
  if a < b && b < c then (a, b, c) else (95, 105, 115)

/-- Digests of six words each. -/
def digestsOf (ws : List Nat) : List (BitVec 384) :=
  (List.range (min 16 (ws.length / 6))).map fun k => BitVec.ofNat 384 (leNat (((ws.drop (6 * k)).take 6).map (leBytes 8)).flatten)

/-- Apply one entry; the field widths of a `PMBUS_MAP` stage are the model's (log 19). -/
def State.cfApply (s : State) (e : Nat × List Nat) : State :=
  let w := e.2.getD 0 0
  match e.1 with
  | 1 => { s with pwr := { s.pwr with cfgLimit := bits w 15 0, defaultW := bits w 31 16, floorW := bits w 47 32 } }
  | 2 => { s with pwr := { s.pwr with stages := (e.2.take 16).map fun w => (bits w 7 0, bits w 15 8, bits w 23 16) } }
  | 3 => { s with boot := { s.boot with anchors := digestsOf e.2 } }
  | 4 => { s with pwr := { s.pwr with therm := thermOf w } }
  | _ => s

/-- Step 6: the valid copy with the higher SEQ, copy A when both are equal; its entries take effect. -/
def State.selectConfig (s : State) (env : BootEnv) : State :=
  let a := s.cfValid env.copyA
  let b := s.cfValid env.copyB
  let base := { s with
    pwr := { s.pwr with cfgLimit := 0, defaultW := 0, floorW := 0, therm := (95, 105, 115), stages := [] }
    boot := { s.boot with anchors := [], phase := 1 } }
  let pick (which : Nat) (c : FlashConfig) : State :=
    let s := { base with boot := { base.boot with
      config := which + 1, cfgSeq := cfSeq c.bytes, cfgHint := BitVec.ofNat 64 (packFields [(1, which), (31, 0), (32, cfSeq c.bytes)])
      digests := base.boot.digests.set 3 (shaBits (c.bytes.take (164 + cfLen c.bytes))) } }
    (cfEntries 32748 (cfWords c.bytes)).foldl State.cfApply s
  if b && (!a || cfSeq env.copyA.bytes < cfSeq env.copyB.bytes) then pick 1 env.copyB
  else if a then pick 0 env.copyA
  else { base with boot := { base.boot with config := 0, cfgSeq := 0, digests := base.boot.digests.set 3 (shaBits []) } }

/-! ## Straps, battery-backed registers, self-tests (R41, R133, R444, R503) -/

/-- PKG_SIZE 0, or a HUB_POS that does not fit it. -/
def State.strapFault (s : State) : Bool := s.sys.pkgSize = 0 || 2 ^ s.sys.pkgSize.toNat ≤ s.sys.hubPos.toNat

/-- Kindling stops with a fault. -/
def State.bootStops (s : State) (fault : Nat) : State := { s with boot := { s.boot with phase := 5, fault } }

/-- Step 3: a failed check zeroes every word but the tamper latch's, and both counts start from zero; a power-on raises the
power-cycle count. -/
def State.loadVbat (s : State) (ok powerOn : Bool) : State :=
  let s := if ok then { s with boot := { s.boot with vbatLost := false } }
    else { s with
      boot := { s.boot with vbatLost := true, cfgHint := 0, bbOpsec := 0, bbPcycle := 0 }
      pwr := { s.pwr with ceil := 0, tripsCounted := 0, firstTrip := 0, pkgLimit := 0 }
      sys := { s.sys with opSeconds := 0, powerCycles := 0 } }
  if !powerOn || !ok then s
  else
    let n := s.boot.bbPcycle + 1
    { s with boot := { s.boot with bbPcycle := n }, sys := { s.sys with opSeconds := s.boot.bbOpsec, powerCycles := n } }

/-- A tamper latch that was set on VBAT alone is recorded (R508). -/
def State.noteTamper (s : State) : State :=
  if s.sys.tamperUnrec then ({ s with sys := { s.sys with tamperUnrec := false } }).record 0x22 srcReset [(1, 0)] else s

/-- The scramble key of the cell array is drawn at each cold boot (R114). -/
def State.drawScramble (s : State) : State :=
  let (k, s) := s.draw 128
  { s with fbx := { s.fbx with scramble := k } }

/-- Step 4: known-answer tests and TRNG health tests. -/
def State.selfTests (s : State) (ok trng : Bool) : State :=
  let s := { s with fbx := { s.fbx with selftestFail := !ok, trngOk := trng, trngFailed := !trng } }
  if trng then s else ({ s with fbx := { s.fbx with alarm := s.fbx.alarm ||| 2 } }).record 0x60 srcFirebox [(1, 2), (1, 0)]

/-! ## The ladder (R109) -/

/-- The label and code that salt LCR. -/
def lcrSalt (code : Nat) : List Byte := ascii "KLY-WRH-W1 lc" ++ leBytes 1 code

/-- Step 5: the cells made from the UDS, and with a fresh boot nonce the boot root and the backing-store key. A failed
known-answer test uses no key; failed health tests refuse the nonce (R113, R133). -/
def State.deriveBoot (s : State) (rom : BitVec 384) : State :=
  let s := { s with boot := { s.boot with digests := s.boot.digests.set 0 rom } }
  if s.fbx.selftestFail then s
  else
    let uds := leBytes 48 s.fbx.uds.toNat
    let s := s.cellPut .cdiRom none (hkdfExtract (leBytes 48 rom.toNat) uds)
    let s := s.expandCell .deviceId .cdiRom (ascii "KLY-WRH-W1 devid") 56
    let s := s.cellPut .lcr none (hkdfExtract (lcrSalt s.lcCode) uds)
    if s.fbx.trngFailed then s
    else
      let (n, s) := s.nonce
      let s := { s with fbx := { s.fbx with bootNonce := n } }
      let s := s.expandCell .bootRoot .lcr (ascii "KLY-WRH-W1 boot" ++ leBytes 32 n.toNat) 48
      s.expandCell .backing .bootRoot (ascii "KLY-WRH-W1 bsk") 96

/-- Step 8: CDI_FW and its keys; READY and DICE_DONE say what the ladder holds. -/
def State.deriveIdentity (s : State) : State :=
  let s := if s.fbx.selftestFail then s else s.deriveFw 0
  { s with fbx := { s.fbx with
    diceDone := s.cellLive .aliasKey && s.cellLive .groupKey
    ready := !s.fbx.selftestFail && s.cellLive .bootRoot && s.cellLive .backing && s.cellLive .cdiFw } }

/-! ## Images (R504) -/

/-- The valid slot with the higher security version, slot 0 when they are equal. -/
def pickImage (least : Nat) (x : FlashImage × FlashImage) : Option (Nat × FlashImage) :=
  let ok (i : FlashImage) : Bool := i.signed && least ≤ i.version
  if ok x.1 && (!ok x.2 || x.2.version ≤ x.1.version) then some (0, x.1)
  else if ok x.2 then some (1, x.2)
  else none

/-- Step 7: select and verify; none is a fault. -/
def State.selectImages (s : State) (env : BootEnv) : Option State × State :=
  let s := { s with boot := { s.boot with phase := 2 } }
  match pickImage s.boot.minVersions.1 env.firmware, pickImage s.boot.minVersions.2 env.microcode with
  | none, _ => (none, s.bootStops 2)
  | _, none => (none, s.bootStops 3)
  | some (i, f), some (j, u) =>
    let s := { s with boot := { s.boot with
      fwSlot := i, ucSlot := j, versions := (f.version, u.version)
      digests := (s.boot.digests.set 1 f.digest).set 2 u.digest } }
    (some s, s)

/-- Power group, 0 to 15, of a memory sliver; port of a link sliver (R21). -/
def sliverGroup (n : Nat) : Option Nat := if n < 512 then some (n / 32) else none
def sliverPort (n : Nat) : Option Nat := if 512 ≤ n && n < 1024 then some ((n - 512) / 64) else none

/-- A sliver that still fails is recorded; the spec names no code for it (log 15). -/
def State.recordSliver (s : State) (n : Nat) : State :=
  s.record 0x54 (0x400 + n) [(1, if n < 512 then n / 128 else (n - 512) / 64), (1, if n < 512 then n / 32 % 4 else 0xFF)]

/-- Step 9: a group with a failed sliver is off, and a port with one is not ready; groups that passed this time come on. -/
def State.broadcast (s : State) (bad : List Nat) : State :=
  let bad := bad.filter fun n => n < 1024
  let groups := bad.filterMap sliverGroup
  let ports := bad.filterMap sliverPort
  let s := { s with boot := { s.boot with phase := 3, sliversOff := bad.eraseDups.length } }
  let s := s.forEach (List.range 16) fun s g =>
    let was := s.msl.groupBad.get false g
    let now := groups.contains g
    let s := { s with msl := { s.msl with groupBad := s.msl.groupBad.set false g now } }
    if now then { s with sys := { s.sys with pd := s.sys.pd.set .on (14 + g) .off } }
    else if was && !s.sys.pdFused.getLsbD (14 + g) then { s with sys := { s.sys with pd := s.sys.pd.set .on (14 + g) .on } }
    else s
  let s := s.forEach (List.range 8) fun s p =>
    s.setPort p { s.port p with ready := !ports.contains p && s.boot.variant.getLsbD p && !s.sys.pdFused.getLsbD (6 + p) }
  bad.eraseDups.foldl State.recordSliver s

/-- A stack has lost its four groups. -/
def State.stackLost (s : State) : Bool :=
  (List.range 4).any fun st => (List.range 4).all fun g => s.msl.groupBad.get false (4 * st + g) || s.sys.pdFused.getLsbD (14 + 4 * st + g)

/-! ## Training slots (R505) -/

/-- The valid slot with the higher SEQ whose serial is this die's. -/
def State.pickTraining (s : State) (x : FlashTraining × FlashTraining) : Option (Nat × FlashTraining) :=
  let ok (t : FlashTraining) : Bool := t.crcOk && t.serial = s.lc.serial
  if ok x.1 && (!ok x.2 || x.2.seq ≤ x.1.seq) then some (0, x.1)
  else if ok x.2 then some (1, x.2)
  else none

/-- Step 10: on PORST the saved records come from flash; the stages of the map begin to be polled. -/
def State.loadTraining (s : State) (env : BootEnv) (porst : Bool) : State :=
  let s := { s with pwr := { s.pwr with stageAt := (List.range s.pwr.stages.length).foldl (fun (t : Tbl Nat) k => t.set 0 k s.now) {} } }
  if !porst then s
  else match s.pickTraining env.training with
  | none => s
  | some (k, t) =>
    let s := { s with boot := { s.boot with trainLoaded := true, trainSeq := t.seq, trainSlot := k } }
    t.records.foldl (fun s e => if e.1 < 32 then s.modLink e.1 fun x => { x with saved := some e.2 } else s) s

/-- `TRAINING_SLOT_WRITE`: the older slot, at most once per 10 s. -/
def execTrainingSlotWrite (s : State) : Res :=
  .next <|
    let b := s.boot
    if s.rst.step < 2 || !b.trainDirty || (b.trainAt ≠ 0 && s.now + 1 < b.trainAt + 10 * sec) then s
    else
      let slot := 1 - b.trainSlot
      let seq := b.trainSeq + 1
      let recs := s.lnk.links.cells.filterMap fun e => e.2.saved.map fun r => (e.1, r)
      ({ s with boot := { b with trainSlot := slot, trainSeq := seq, trainAt := s.now + 1, trainDirty := false } }).emit
        (.flashWrite slot seq s.lc.serial recs)

/-! ## The boot (R475, R477, R499) -/

/-- Steps 8 to 10; the election opens after a cold level (R405). -/
def State.bootTail (s : State) (env : BootEnv) : State :=
  let s := s.deriveIdentity.broadcast env.badSlivers
  if s.stackLost then s.bootStops 3
  else
    let s := (s.loadTraining env (s.rst.level = .porst))
    let s := { s with boot := { s.boot with phase := 4 } }
    if s.rst.level.cold then s.openElection else s

/-- Steps 3 to 10 after a cold level. -/
def State.bootCold (s : State) (env : BootEnv) : State :=
  let s := (s.drawScramble.loadVbat env.vbatOk (s.rst.level = .porst)).noteTamper
  let s := (s.selfTests env.selftestOk env.trngOk).deriveBoot env.rom
  let s := (s.selectConfig env).recLoaded State.bootRecord
  match s.selectImages env with
  | (none, s) => s
  | (some s, _) => s.bootTail env

/-- `KINDLING_BOOT`: runs on the Stoker just released. A pending transition comes first, and `LC_STEP` carries it on; after
SCRAPPED only the counts and the recorder are served; a strap fault stops. After the warm levels steps 4, 6 and 8 to 10 run. -/
def execKindlingBoot (env : BootEnv) (s : State) : Res :=
  .next <|
    if s.rst.step ≠ 2 || s.rst.phase ≠ .recovering || s.boot.phase ≠ 0 || s.lc.pending then s
    else match s.pendingArea with
    | some t => let s := s.startTransition t; { s with lc := { s.lc with begun := true } }
    | none =>
      let cold := s.rst.level.cold
      if s.lcCode = 5 then (((s.loadVbat env.vbatOk (s.rst.level = .porst)).noteTamper).recLoaded id).bootStops 0
      else if cold && s.strapFault then
        ((s.record 0x12 srcKindling [(1, s.sys.hubPos.toNat), (1, s.sys.pkgSize.toNat)]).recLoaded id).bootStops 1
      else if cold then s.bootCold env
      else (((s.selfTests env.selftestOk env.trngOk).selectConfig env)).bootTail env

end Sys2Proof.Machine
end

