-- ==== Sys2Proof/Machine/Power.lean ====
section
/-! DEFINITION. The Damper: the 1 ms loop, budgets and shares, droop and heat, PMBus telemetry, and the power messages and
registers (R483 to R498). -/

namespace Sys2Proof.Machine
open Sys2Proof

/-! ## Steps of the loop (R487, R488) -/

/-- Every site one level deeper. -/
def State.sitesDown (s : State) : State := allSites.foldl (fun s n => s.requestLevel n (s.siteLevel n + 1)) s

/-- Every site one level up, but for those that a droop holds. -/
def State.sitesUp (s : State) : State := allSites.foldl (fun s n => s.requestLevel n (max (s.siteFloor n) (s.siteLevel n - 1))) s

/-- Some site is not at its deepest level. -/
def State.sitesCanDown (s : State) : Bool := allSites.any fun n => s.siteLevel n < 15
/-- Some site stands below level 0 and is not held. -/
def State.sitesCanUp (s : State) : Bool := allSites.any fun n => s.siteFloor n < s.siteLevel n

/-- One step down in the order of the prevailing hint. -/
def State.stepDown (s : State) : State :=
  let o := s.pwr.opp
  if s.prevailingHint = 0 && o < 3 then s.setHub (o + 1)
  else if s.sitesCanDown then s.sitesDown
  else if o < 7 then s.setHub (o + 1)
  else s

/-- One step up, in the reverse order, never past the unlimited point or a hold. -/
def State.stepUp (s : State) : State :=
  let o := s.pwr.opp
  let lim := max s.hubPoint s.hubFloor
  if lim < o && (s.prevailingHint ≠ 0 || 3 < o) then s.setHub (o - 1)
  else if s.sitesCanUp then s.sitesUp
  else if lim < o then s.setHub (o - 1)
  else s

/-- The loop's choice at the end of an interval in normal service: power over the share, or a reading at WARN, steps down; a
hub above its preferred point follows the preference; ten low intervals step up. -/
def State.loopStep (s : State) : State :=
  let limited := s.boot.config ≠ 0
  let above := (limited && 10 * s.pwr.shareW < s.pwr.pW) || s.pwr.thermWarn
  if above then s.stepDown
  else if s.pwr.opp < s.hubPoint then s.setHub (s.pwr.opp + 1)
  else if 10 ≤ s.pwr.lowRun && !s.pwr.thermHold && !s.stageStop then s.stepUp
  else s

/-! ## Pacing (R492) -/

/-- Transmit steps that run. -/
def State.txRunning (s : State) : Nat :=
  (s.col.plans.cells.map fun e =>
    if e.2.running then (e.2.indices.filter fun k => (e.2.srun k).stage = .started && stSend (e.2.step k)).length else 0).sum

/-- Credit stall of the plans so far, in ns. -/
def State.stallTotal (s : State) : Nat :=
  (s.col.plans.cells.map fun e => if e.2.running then s.creditStall e.2 else 0).sum

/-- Note for one interval whether its transmit steps spent half of it or more in credit stall. -/
def State.notePacing (s : State) (ns : Nat) : State :=
  let t := s.stallTotal
  let n := s.txRunning
  let b := 0 < n && n * ns ≤ 2 * (t - s.pwr.stallSeen)
  { s with pwr := { s.pwr with pacing := (b :: s.pwr.pacing).take 100, stallSeen := t } }

/-! ## The interval (R487 to R494) -/

/-- Counted intervals of the droop holds go down; a second of cool readings ends the hold of WARN, and 100 ms of good supply
the hold of a VIN fault. -/
def State.endHolds (s : State) : State :=
  let past (t : Option Nat) (d : Nat) : Bool := match t with
    | some x => x + d ≤ s.now
    | none => false
  { s with pwr := { s.pwr with
    hubHold := s.pwr.hubHold - 1
    siteHold := Tbl.filter ⟨s.pwr.siteHold.cells.map fun e => (e.1, e.2 - 1)⟩ fun _ x => x ≠ 0
    thermHold := s.pwr.thermHold && !past s.pwr.coolSince sec
    vinFault := s.pwr.vinFault && !past s.pwr.vinOkSince (100 * ms) } }

/-- The demand: the measured power while nothing throttles; otherwise an estimate the spec does not state (log 3). -/
def State.noteDemand (s : State) (throttled : Bool) (p : Nat) : State :=
  let (d, s) : Nat × State := if throttled then (let (x, s) := s.draw 16; (x.toNat, s)) else (min 65535 (p / 10), s)
  { s with pwr := { s.pwr with demandW := d } }

/-- `DAMPER_INTERVAL`: the end of a 1 ms interval with its measured power in 0.1 W. -/
def execDamperInterval (p : Nat) (s : State) : Res :=
  .next <|
    if s.rst.step < 2 || s.now < s.pwr.intervalAt + ms then s
    else
      let ns := s.now - s.pwr.intervalAt
      let thr := s.runsThrottled
      let s := if thr then s.noteThrottle true else s
      let p := min 65535 p
      let low := 10 * p ≤ 90 * s.pwr.shareW
      let s := { s with pwr := { s.pwr with
        intervalAt := s.now, pW := p, throttled := thr, lowRun := if low then min 10 (s.pwr.lowRun + 1) else 0 } }
      let s := ((s.noteDemand thr p).notePacing ns).applyFloors.endHolds
      let s := if s.inService && !s.pwr.testHold then s.loopStep.applyFloors else s.applyPoints
      if s.runsThrottled then s.noteThrottle false else s

/-- `OPP_VOLTAGE_ACK` (R483): the clocks change to the point that was asked for. -/
def execOppVoltageAck (s : State) : Res :=
  .next <| match s.pwr.raising with
  | none => s
  | some p => { s with pwr := { s.pwr with opp := p, raising := none } }

/-- `SITE_LEVEL_TIMEOUT` (R484): recorded, and the site counts as being at level 15. -/
def execSiteLevelTimeout (site : Nat) (s : State) : Res :=
  .next <|
    if !(s.pwr.siteWait.any fun e => e.1 = site && e.2 ≤ s.now) then s
    else
      let s := { s with pwr := { s.pwr with siteWait := s.pwr.siteWait.filter fun e => e.1 ≠ site } }
      (s.setSiteLevel site 15).record 0xB1 srcDamper [(1, site), (1, 0xFF)]

/-! ## Budgets (R485, R486) -/

/-- One member's share of a figure. -/
def shareOf (b floor n total d : Nat) : Nat :=
  if b < n * floor || total = 0 then b / n else max (b * d / total) floor

/-- The members that share the figure, this die first. -/
def State.shares (s : State) : List (Nat × Nat) :=
  let ds := (s.pos, s.pwr.demandW) :: s.peers.map fun h => (h, s.pwr.demands.get 0 h)
  ds.map fun e => (e.1, shareOf s.pkgFigure s.pwr.floorW ds.length ((ds.map Prod.snd).sum) e.2)

/-- `BUDGET_REALLOCATE`: every 10 ms the lead divides the package figure; a member reports its demand. -/
def execBudgetReallocate (s : State) : Res :=
  .next <|
    if s.rst.step < 2 || s.boot.phase ≠ 4 || s.hst.group = .electing || s.now < s.pwr.reallocAt + 10 * ms then s
    else
      let s := { s with pwr := { s.pwr with reallocAt := s.now } }
      if s.isLead then
        let sh := s.shares
        let s := sh.foldl (fun s e => if e.1 = s.pos then s else s.toPeer e.1 bkShare [e.2]) s
        { s with pwr := { s.pwr with pkgW := s.pkgFigure, shareW := ((sh.head?).map Prod.snd).getD 0, shareAt := s.now } }
      else ({ s with pwr := { s.pwr with pkgW := 0 } }).toPeer s.hst.leadPos bkDemand [s.pos, s.pwr.demandW]

/-- `SHARE_RECEIVE`: a member's share from the lead. -/
def execShareReceive (w : Nat) (s : State) : Res :=
  .next <|
    if s.rst.step < 2 || s.hst.group = .electing || s.isLead then s
    else { s with pwr := { s.pwr with shareW := w % 65536, shareAt := s.now } }

/-- `SHARE_TIMEOUT`: 50 ms without a share. -/
def execShareTimeout (s : State) : Res :=
  .next <|
    if s.rst.step < 2 || s.isLead || s.now < s.pwr.shareAt + 50 * ms then s
    else { s with pwr := { s.pwr with shareW := s.pwr.floorW } }

/-- `PWR_BUDGET`: the effective figure is returned. -/
def execPwrBudget (m : Mgmt) (w lease : Nat) (s : State) : Res :=
  .next <| s.leadMsg m fun s =>
    if 65536 ≤ w || 3600 < lease then s.answer .badParam
    else
      let s := { s with pwr := { s.pwr with budget := w, budgetEnd := if lease = 0 then 0 else s.now + lease * sec } }
      s.answer .ok [s.pkgLimit]

/-- Domain number of the records that note a VIN fault and a lapsed budget; the spec names no code for them (log 15). -/
def drVin : Nat := 9
def drLapse : Nat := 10

/-- `PWR_BUDGET_LAPSE`. -/
def execPwrBudgetLapse (s : State) : Res :=
  .next <|
    if s.rst.step < 2 || s.pwr.budgetEnd = 0 || s.now < s.pwr.budgetEnd then s
    else ({ s with pwr := { s.pwr with budget := s.pwr.defaultW, budgetEnd := 0 } }).record 0xB1 srcStoker [(1, drLapse), (1, 0)]

/-- `PWR_QUERY`. -/
def execPwrQuery (m : Mgmt) (s : State) : Res := .next <| s.domMsg m false fun s => s.answer .ok [s.pwrStatus, s.pwrBudgetStat]

/-- `PWR_LIMIT`: the persistent limit, 0 to clear it; CLEAR_CEIL clears the ceiling. -/
def execPwrLimit (m : Mgmt) (limit : Nat) (clearCeil : Bool) (s : State) : Res :=
  .next <| s.domMsg m true fun s =>
    if 65536 ≤ limit then s.answer .badParam
    else ({ s with pwr := { s.pwr with pkgLimit := limit, ceil := if clearCeil then 0 else s.pwr.ceil } }).answer .ok

/-- `PWR_REPORT`: every 100 ms while any slot is `LIVE`. -/
def execPwrReport (s : State) : Res :=
  .next <|
    if s.rst.step < 2 || s.now < s.pwr.reportAt + 100 * ms || !(allSlots.any fun i => (s.slot i).state = .live) then s
    else
      let c := s.tel.light.get 0 7
      let s' := { s with pwr := { s.pwr with reportAt := s.now, reportThr := c } }
      s'.emit (.pwrReport [s.pwr.pW / 10, s.pwr.demandW, s.pwr.opp, (c - s.pwr.reportThr).toNat, s.pacing])

/-! ## Droop (R493) -/

/-- `DROOP_TRIP`: 0 to 7 a site's detector, 8 the hub core's. -/
def execDroopTrip (src : Nat) (s : State) : Res :=
  .next <|
    if !s.sys.mainPower || 9 ≤ src then s
    else if src = 8 then
      let s := { s with pwr := { s.pwr with halved := true, hubHold := 100, hubHoldOpp := min 7 (s.pwr.opp + 1) } }
      (s.record 0xB1 srcDamper [(1, 8), (1, 1)]).noteThrottle true
    else
      let s := s.requestLevel src (s.siteLevel src + 4)
      let s := { s with pwr := { s.pwr with siteHold := s.pwr.siteHold.set 0 src 100 } }
      (s.record 0xB1 srcDamper [(1, src), (1, 4)]).noteThrottle true

/-- `DROOP_RECOVER`: the halved clocks return to the operating point. -/
def execDroopRecover (s : State) : Res := .next { s with pwr := { s.pwr with halved := false } }

/-! ## Heat (R494, R495) -/

/-- A temperature in °C as `PWR_THERM` codes it. -/
def thermCode (c : Nat) : Nat := (c + 40) * 100

/-- Take the highest reading. -/
def State.takeReading (s : State) (hottest : Nat) : State :=
  let h := min 65535 hottest
  let w := s.pwr.therm.1
  let warn := thermCode w ≤ h
  { s with pwr := { s.pwr with
    hottest := h, thermWarn := warn, thermHold := s.pwr.thermHold || warn
    coolSince := if h < thermCode w - 500 then some (s.pwr.coolSince.getD s.now) else none } }

/-- A trip counts in `BOOT_BB_4`: a third within 86,400 operating seconds of the first counted raises the ceiling, to at most
4, and the count restarts. -/
def State.countTrip (s : State) : State :=
  let o := s.sys.opSeconds
  let fresh := s.pwr.tripsCounted = 0 || s.pwr.firstTrip.toNat + 86400 < o.toNat
  let n := if fresh then 1 else s.pwr.tripsCounted + 1
  let f := if fresh then o else s.pwr.firstTrip
  if n = 3 then { s with pwr := { s.pwr with tripsCounted := 0, firstTrip := 0, ceil := min 4 (s.pwr.ceil + 1) } }
  else { s with pwr := { s.pwr with tripsCounted := n, firstTrip := f } }

/-- TRIP: the hub goes to OPP 7 and every site to level 15. Which sensor tripped is a free value (log 3). -/
def State.tripNow (s : State) : State :=
  if s.pwr.thermTrip || s.pwr.hottest < thermCode s.pwr.therm.2.1 then s
  else
    let (x, s) := s.draw 8
    let s := { s with pwr := { s.pwr with thermTrip := true, trips := min 255 (s.pwr.trips + 1) } }
    let s := s.countTrip.applyFloors.record 0xB0 srcDamper [(1, x.toNat), (2, s.pwr.hottest)]
    s.noteThrottle true

/-- `THERMAL_WARN`: a reading at WARN or above. -/
def execThermalWarn (hottest : Nat) (s : State) : Res :=
  .next <| if !s.sys.mainPower || hottest < thermCode s.pwr.therm.1 then s else (s.takeReading hottest).tripNow

/-- `THERMAL_TRIP`: a reading at TRIP or above. -/
def execThermalTrip (hottest : Nat) (s : State) : Res :=
  .next <| if !s.sys.mainPower || hottest < thermCode s.pwr.therm.2.1 then s else (s.takeReading hottest).tripNow

/-- `THERMAL_CRIT`: SYSRST with cause `THERMAL`. -/
def execThermalCrit (hottest : Nat) (s : State) : Res :=
  .next <|
    if !s.sys.mainPower || hottest < thermCode s.pwr.therm.2.2 then s
    else (s.takeReading hottest).tripNow.beginReset .thermal .sysrst

/-- `THERMAL_CLEAR`: every reading is below WARN, and an active trip clears. -/
def execThermalClear (hottest : Nat) (s : State) : Res :=
  .next <|
    if !s.sys.mainPower || thermCode s.pwr.therm.1 ≤ hottest then s
    else
      let s := s.takeReading hottest
      { s with pwr := { s.pwr with thermTrip := false } }

/-! ## PMBus (R496) -/

/-- A LINEAR11 value in hundredths. -/
def linear11 (v : Nat) : Nat :=
  let y := bits v 10 0
  let n := bits v 15 11
  if 1024 ≤ y then 0 else if n < 16 then 100 * y * 2 ^ n else 100 * y / 2 ^ (32 - n)

def pmReadVin : Nat := 0x88

/-- The module input is one stage of the map. -/
def State.isInput (s : State) (stage : Nat) : Bool := (s.pwr.stages[stage]?).any fun x => x.2.2 = 0

/-- Take a reading of the module input. -/
def State.takeVin (s : State) (v : Nat) : State :=
  let v := min 65535 v
  let ok := vinOk v
  { s with pwr := { s.pwr with
    vin := v
    vinOkSince := if ok then some (s.pwr.vinOkSince.getD s.now) else none
    vinBadSince := if ok then none else some (s.pwr.vinBadSince.getD s.now) } }

/-- `PMBUS_POLL`: what the stages answer: stage, command and value. -/
def execPmbusPoll (readings : List (Nat × Nat × Nat)) (s : State) : Res :=
  .next <|
    if s.rst.step < 2 then s
    else readings.foldl (fun s x =>
      if s.pwr.stages.length ≤ x.1 then s
      else
        let s := { s.emit (.pmbus x.1 x.2.1) with pwr := { s.pwr with
          stageAt := s.pwr.stageAt.set 0 x.1 s.now, stale := s.pwr.stale &&& ~~~((1 : BitVec 16) <<< x.1) } }
        if s.isInput x.1 && x.2.1 = pmReadVin then s.takeVin (linear11 x.2.2) else s) s

/-- `VIN_FAULT`: VIN out of range for 10 ms. -/
def execVinFault (s : State) : Res :=
  .next <|
    let late := match s.pwr.vinBadSince with
      | some t => t + 10 * ms ≤ s.now
      | none => false
    if !late || s.pwr.vinFault then s
    else (({ s with pwr := { s.pwr with vinFault := true } }).applyFloors.record 0xB1 srcDamper [(1, drVin), (1, 5)])

/-- `PMBUS_STAGE_TIMEOUT`: a stage silent for 10 ms stops every step up, and from 100 ms on holds OPP 5. -/
def execPmbusStageTimeout (stage : Nat) (s : State) : Res :=
  .next <|
    if s.rst.step < 2 || s.pwr.stages.length ≤ stage || s.now < s.pwr.stageAt.get 0 stage + 10 * ms then s
    else ({ s with pwr := { s.pwr with stale := s.pwr.stale ||| ((1 : BitVec 16) <<< stage) } }).applyFloors

/-! ## Registers (R491, R498) -/

/-- `PWR_CTL`: RECOVERY_OPP is locked by LOCK; a TEST_HOLD of 1 is ignored while any slot is not `EMPTY`. -/
def execPwrCtlWrite (r : Req) (v : BitVec 32) (s : State) : Res :=
  .next <| s.regWriteMgmt r 0x4B0010 32 fun s =>
    let p := s.pwr
    let empty := allSlots.all fun i => (s.slot i).state = .empty
    let s := { s with pwr := { p with
      lock := p.lock || v.getLsbD 0
      recoveryOpp := if p.lock then p.recoveryOpp else bits v.toNat 3 1
      testHold := if v.getLsbD 4 && !empty then p.testHold else v.getLsbD 4
      testOpp := bits v.toNat 7 5, testLevel := bits v.toNat 11 8 } }
    if s.pwr.testHold && s.inService then s.applyPoints else s

end Sys2Proof.Machine
end

