-- ==== Sys2Proof/Machine/RecRegs.lean ====
section
/-! DEFINITION. The register commands of the event recorder (R449, R452). -/

namespace Sys2Proof.Machine
open Sys2Proof

/-- `REC_RL_WRITE` (R452): a zero RATE or BURST is ignored. Tokens returned so far stand. -/
def execRecRlWrite (r : Req) (v : BitVec 32) (s : State) : Res :=
  .next <| s.regWriteMgmt r 0x480008 32 fun s =>
    let rate := bits v.toNat 7 0
    let burst := bits v.toNat 15 8
    let bs := Tbl.mk (s.rcd.buckets.cells.map fun e =>
      (e.1, let b := e.2.refill s.rcd.rate s.now; { b with base := if b.taken = 0 then 0 else s.now, returned := 0 }))
    { s with rcd := { s.rcd with
      rate := if rate = 0 then s.rcd.rate else rate
      burst := if burst = 0 then s.rcd.burst else burst
      buckets := Tbl.filter bs fun _ b => b ≠ {} } }

/-- A read of `REC_DATA_0` captures words 1 to 3 for the requester. -/
def State.recCapture (s : State) (r : Req) : State :=
  let w := s.recSelected
  ((s.capture r 0x480028 (w.getD 1 0)).capture r 0x480030 (w.getD 2 0)).capture r 0x480038 (w.getD 3 0)

/-- `REC_DATA_READ` (R18, R449): a read of `REC_DATA_0` answers word 0. -/
def execRecDataRead (r : Req) (s : State) : Res :=
  .next <|
    if !r.mgmt then s.emit (.regRead (if s.hostUp then 0 else BitVec.allOnes 64))
    else if !s.mgmtServes 0x480020 then s
    else (s.recCapture r).emit (.regRead (s.recSelected.getD 0 0))

end Sys2Proof.Machine
end

