-- ==== Sys2Proof/Machine/Telemetry.lean ====
section
/-! DEFINITION. Throttled intervals and the telemetry registers of a slice (R425, R426, R428, R429, R435, R436, R439). -/

namespace Sys2Proof.Machine
open Sys2Proof

/-! ## Throttled intervals (R435) -/

/-- A command that executed in a throttled interval: its counter advances, and its record will carry THROTTLED (R355). -/
def Cmd.throttled (c : Cmd) : Cmd :=
  if c.stage = .executing then { c with throttle := c.throttle + 1, flags := c.flags ||| flThrottled } else c

/-- The end of an interval for one slice. -/
def State.endInterval (s : State) (i : Nat) : State :=
  if !(s.slice i).throttled then s
  else (s.count i 6 1).modSlice i fun l => { l with
    throttled := false
    queues := ⟨l.queues.cells.map fun (e : Nat × Queue) => (e.1, { e.2 with cmds := e.2.cmds.map Cmd.throttled })⟩ }

/-- `THROTTLE_INTERVAL`: 1 ms of powered time has passed. -/
def execThrottleInterval (s : State) : Res :=
  .next <|
    if s.now < s.tel.intervalAt + ms then s
    else
      let s := if s.tel.throttled then (s.light 7 1).priv 0x301 1 else s
      let s := { s with tel := { s.tel with throttled := false, intervalAt := s.now } }
      s.forEach s.qm.slices.keys State.endInterval

/-! ## Registers of a slice -/

/-- Offset of a slice's telemetry registers. -/
def telPage (i : Nat) : Nat := 0x450000 + 0x40 * i

/-- `TEL_S_CTL` (R426): setting EN zeroes the counters. -/
def execTelSCtlWrite (r : Req) (slice : Nat) (v : BitVec 32) (s : State) : Res :=
  .next <| s.regWrite r (telPage slice + 8) 32 (s.pageWrite slice r) fun s =>
    s.modSlice slice fun l => { l with telEn := v.getLsbD 0, ctrs := if v.getLsbD 0 && !l.telEn then {} else l.ctrs }

/-- The sum of WALL_SHARE over the slices but one (R436). -/
def State.otherShares (s : State) (i : Nat) : Nat := ((s.qm.slices.cells.filter fun e => e.1 ≠ i).map fun e => e.2.wallShare).sum

/-- `TEL_S_CFG` (R436, R439): requests without a PASID. WALL_SHARE changes only while the slice is `FREE` and the sum of all
stays at most 192; a WATCH_MAX above 16 is ignored. -/
def execTelSCfgWrite (r : Req) (slice : Nat) (v : BitVec 32) (s : State) : Res :=
  .next <| s.regWrite r (telPage slice) 32 (slice < 2048 && r.pasid = none) fun s =>
    let w := bits v.toNat 7 0
    let m := bits v.toNat 12 8
    s.modSlice slice fun l => { l with
      wallShare := if l.state = .free && s.otherShares slice + w ≤ 192 then w else l.wallShare
      watchMax := if m ≤ 16 then m else l.watchMax }

/-- The read of `TEL_S_QVAL`: the value, with `TEL_S_QSEQ` captured for the requester (R429). -/
def State.readQval (s : State) (r : Req) (i : Nat) : BitVec 64 × State :=
  (BitVec.ofNat 64 (s.telQval i), s.capture r (telPage i + 0x20) (BitVec.ofNat 64 (s.telQseq i)))

/-- `TEL_S_QVAL_READ`: a requester the page does not admit finds an unassigned offset. -/
def execTelSQvalRead (r : Req) (slice : Nat) (s : State) : Res :=
  .next <|
    if !r.mgmt && !s.hostUp then s.emit (.regRead (BitVec.allOnes 64))
    else if r.mgmt && !s.mgmtServes (telPage slice + 0x18) then s
    else if s.pageRead slice r && s.blockUp ⟨5, some 4, .cclk⟩ then
      let (v, s) := s.readQval r slice
      s.emit (.regRead v)
    else (s.regBad r (telPage slice + 0x18) 64).emit (.regRead 0)

end Sys2Proof.Machine
end

