-- ==== Sys2Proof/Machine/Registers.lean ====
section
/-! DEFINITION. Register accesses by offset: reads, the registers that have no command of their own, the halves of 64-bit
registers, and the accesses that are answered as unassigned (R9 to R18, R38, R44, R508). -/

namespace Sys2Proof.Machine
open Sys2Proof

/-! ## Reads (R10, R12, R18) -/

/-- The value that the read of a register answers, with what the read does (R429, R449, R469). -/
def State.readVal (s : State) (r : Req) (off : Nat) (g : Reg) : BitVec 64 × State :=
  let v : BitVec 64 := BitVec.ofNat 64 g.val
  if 0x450000 ≤ off && off < 0x480000 && off % 0x40 = 0x18 then s.readQval r ((off - 0x450000) / 0x40)
  else if 0x450000 ≤ off && off < 0x480000 && off % 0x40 = 0x20 then ((s.captured r off).getD v, s)
  else if off = 0x480020 then (v, s.recCapture r)
  else if off = 0x480028 || off = 0x480030 || off = 0x480038 then ((s.captured r off).getD v, s)
  else if off = 0x490028 then s.readDump
  else (v, s)

/-- An access reaches its block. -/
def State.reaches (s : State) (off : Nat) : Bool :=
  !s.lcBars off && (match blockOf off with
    | some b => s.blockUp b
    | none => false)

/-- A mailbox access of a register width, aligned. -/
def mailboxOk (off width : Nat) : Bool := inMailbox off && (width = 32 || width = 64) && off % (width / 8) = 0

/-- The access cannot be served yet: the host port before its release, the Stoker before its own (R458). -/
def State.unserved (s : State) (r : Req) (off : Nat) : Bool := if r.mgmt then !s.mgmtServes off else !s.hostUp

/-- A read of a width in bits at an offset. What the mailbox holds is a free value (log 3). -/
def State.readReg (s : State) (r : Req) (off width : Nat) : State :=
  if s.unserved r off then (if r.mgmt then s else s.emit (.regRead (BitVec.allOnes 64)))
  else if s.reaches off && mailboxOk off width then
    let (v, s) := s.draw 64
    s.emit (.regRead (if width = 64 then v else BitVec.ofNat 64 (v.toNat % 2 ^ 32)))
  else match s.regOf r off width with
  | none => (s.regBad r off width).emit (.regRead 0)
  | some (g, p) =>
    if !s.reaches off || !g.ok then (s.regBad r off width).emit (.regRead 0)
    else if g.mgmt && !r.mgmt then s.emit (.regRead 0)
    else match p with
    | .whole =>
      let (v, s) := s.readVal r off g
      s.emit (.regRead v)
    | .low =>
      let (v, s) := s.readVal r off g
      (s.capture r (off + 4) (BitVec.ofNat 64 (v.toNat / 2 ^ 32))).emit (.regRead (BitVec.ofNat 64 (v.toNat % 2 ^ 32)))
    | .high => s.emit (.regRead ((s.captured r off).getD (BitVec.ofNat 64 (g.val / 2 ^ 32))))

/-- `REGISTER_LOW_HALF_READ`: the low half is answered, and the high half is captured for the requester. -/
def execRegisterLowHalfRead (r : Req) (off : Nat) (s : State) : Res := .next (s.readReg r off 32)

/-! ## Writes by access code (R13 to R16) -/

/-- The low bits of a written value. -/
def low (v : BitVec 64) (n : Nat) : Nat := v.toNat % 2 ^ n

/-- One page of 32 or more registers: the page number and the offset inside it. -/
def pageAt (off base stride n : Nat) : Option (Nat × Nat) :=
  if base ≤ off && off < base + stride * n then some ((off - base) / stride, (off - base) % stride) else none

/-- A register of a slice page of the queue manager that has no command of its own. -/
def State.writeSlicePage (s : State) (r : Req) (off i o : Nat) (v : BitVec 64) : State :=
  let w (width : Nat) (f : Slice → Slice) : State := s.regWrite r off width (s.pageWrite i r) fun s => s.modSlice i f
  match o with
  | 0x20 => w 32 fun l => { l with qsel := low v 18 }
  | 0x28 => w 64 fun l => { l with qring := l.qring.set 0 l.qsel v }
  | 0x30 => w 64 fun l => { l with qcpl := l.qcpl.set 0 l.qsel v }
  | 0x38 => w 64 fun l => { l with qparam := l.qparam.set 0 l.qsel (v &&& 0xFFFFFF1FFF#64) }
  | 0x50 => w 64 fun l => { l with abortSeq := low v 48 }
  | _ => w 64 id

/-- A register of a cipher page's halves: an IV, staged key bytes, or the slice for `ASSIGN`. A bound owner's key bytes are
ignored, and the result says so (R413). -/
def State.writeCePage (s : State) (r : Req) (off n o : Nat) (v : BitVec 64) : State :=
  let own (width : Nat) (f : CePage → CePage) : State := s.regWrite r off width (s.ceOwner r n) fun s => s.modCePage n f
  match o with
  | 0x010 => own 64 fun p => { p with iv := BitVec.ofNat 96 (p.iv.toNat / 2 ^ 64 * 2 ^ 64 + v.toNat) }
  | 0x018 => own 32 fun p => { p with iv := BitVec.ofNat 96 (p.iv.toNat % 2 ^ 64 + 2 ^ 64 * low v 32) }
  | 0x800 => s.regWrite r off 32 (ceKernel r n) fun s => s.modCePage n fun p => { p with pgCfg := low v 11 }
  | o =>
    if 0x020 ≤ o && o ≤ 0x038 && o % 8 = 0 then
      own 64 fun p =>
        let k := 64 * ((o - 0x020) / 8)
        if p.state ≠ .free && (s.slice p.slice).bound then { p with kres := 4 }
        else { p with staged := BitVec.ofNat 256 (packFields [(k, p.staged.toNat), (64, v.toNat), (192 - k, p.staged.toNat / 2 ^ (k + 64))]) }
    else own 64 id

/-- A write of a whole 64-bit register, committed in one step. The registers that have a command take it here too when
their halves are written (R11); a read-only one ignores it. -/
def State.write64 (s : State) (r : Req) (off : Nat) (v : BitVec 64) : State :=
  match off with
  | 0x100008 => s.writeSlcfg r v
  | 0xE0008 => s.writeFabNode r v
  | 0xE0018 => s.writeRtdata r v
  | 0xE0028 => s.writeMrdata r v
  | 0x200018 => s.writeSynSlcfg r v
  | 0x40020 => s.regWrite r off 64 true fun s => { s with msl := { s.msl with rcfg := BitVec.ofNat 64 (low v 47) } }
  | 0x80018 => s.regWrite r off 64 true fun s => { s with hth := { s.hth with rcfg := BitVec.ofNat 64 (low v 40) } }
  | 0x200000 => s.regWriteMgmt r off 64 fun s => if v.getLsbD 49 then { s with syn := { s.syn with escalated := false } } else s
  | 0x200030 => s.regWriteMgmt r off 64 fun s => { s with syn := { s.syn with dbgSel := BitVec.ofNat 64 (low v 31) } }
  | 0x200038 => s.regWriteMgmt r off 64 fun s => { s with syn := { s.syn with dbgData := v } }
  | 0x17F80 => s.regWrite r off 64 (globalPage r) fun s => { s with hst := { s.hst with swkRange := BitVec.ofNat 64 (low v 39) } }
  | 0x490008 => s.regWriteMgmt r off 64 fun s =>
    { s with rst := { s.rst with sources := s.rst.sources &&& ~~~(v.extractLsb' 8 11) } }
  | off =>
    match pageAt off 0x180000 0x100 2048 with
    | some (i, o) => s.writeSlicePage r off i o v
    | none => match pageAt off 0x400000 0x1000 64 with
      | some (n, o) => s.writeCePage r off n o v
      | none => match pageAt off 0x300000 0x200 2048 with
        | some (i, o) => match regIdx o 0x28 0x20 15 with
          | some p => s.hostSignal r i p v
          | none => s.regWrite r off 64 (s.pageWrite i r) id
        | none => match regIdx off 0x18000 0x10 2048 with
          | some i => s.regWrite r off 64 (s.pageWrite i r) fun s => s.modSlice i fun l => { l with swRange := BitVec.ofNat 64 (low v 39) }
          | none => match regIdx off 0x4A0280 8 12 with
            | some j => s.regWriteMgmt r off 64 fun s =>
              let x := s.lc.resp.toNat
              let y := packFields [(64 * j, x), (64, v.toNat), (704 - 64 * j, x / 2 ^ (64 * j + 64))]
              { s with lc := { s.lc with resp := BitVec.ofNat 768 y } }
            | none => s.regWrite r off 64 true id

/-- A write of a 32-bit register that has no command of its own; one that has a command is written by that command. -/
def State.write32 (s : State) (r : Req) (off : Nat) (v : BitVec 64) : State :=
  match off with
  | 0x100000 => s.regWrite r off 32 (globalPage r) fun s => { s with qm := { s.qm with slsel := low v 11 } }
  | 0x20010 => s.regWrite r off 32 true fun s => { s with fbx := { s.fbx with alarm := s.fbx.alarm &&& ~~~(v.extractLsb' 0 4) } }
  | 0x20018 => s.regWrite r off 32 true fun s => { s with fbx := { s.fbx with ksel := v.extractLsb' 0 12 } }
  | 0x40018 => s.regWrite r off 32 true fun s => { s with msl := { s.msl with rsel := low v 6 } }
  | 0x80010 => s.regWrite r off 32 true fun s => { s with hth := { s.hth with rsel := low v 4 } }
  | 0xE0010 => s.regWriteMgmt r off 32 fun s => { s with fab := { s.fab with rtsel := low v 16 } }
  | 0xE0020 => s.regWriteMgmt r off 32 fun s => { s with fab := { s.fab with mrsel := low v 8 } }
  | 0x200010 => s.regWrite r off 32 (globalPage r) fun s => { s with syn := { s.syn with slsel := low v 11 } }
  | 0x440200 => s.regWriteMgmt r off 32 fun s => { s with tel := { s.tel with gsel := low v 20 } }
  | 0x480010 => s.regWriteMgmt r off 32 fun s => { s with rcd := { s.rcd with sel := low v 13 } }
  | 0x490020 => s.regWriteMgmt r off 32 fun s => { s with rst := { s.rst with dumpSel := low v 16 } }
  | off =>
    match regIdx off 0xA0008 0x8000 8 with
    | some p => s.regWriteMgmt r off 32 fun s => s.setPort p { s.port p with useSaved := v.getLsbD 14 }
    | none => match pageAt off 0x180000 0x100 2048 with
      | some (i, 0x20) => s.writeSlicePage r off i 0x20 v
      | some (i, _) => s.regWrite r off 32 (s.pageWrite i r) id
      | none => match pageAt off 0x400000 0x1000 64 with
        | some (n, 0x018) => s.writeCePage r off n 0x018 v
        | some (n, 0x800) => s.writeCePage r off n 0x800 v
        | some (n, _) => s.regWrite r off 32 (s.ceOwner r n || ceKernel r n) id
        | none => match pageAt off 0x300000 0x200 2048 with
          | some (i, o) => s.regWrite r off 32 (s.pageWrite i r) fun s => match regIdx o 0x20 0x20 15 with
            | some p => s.modSlice i fun l => { l with psel := l.psel.set 0 p (BitVec.ofNat 32 (low v 21)) }
            | none => s
          | none => match pageAt off 0x450000 0x40 2048 with
            | some (i, o) => s.regWrite r off 32 (s.pageWrite i r) fun s =>
              if o = 0x10 then s.modSlice i fun l => { l with tqsel := BitVec.ofNat 20 (low v 20) } else s
            | none => s.regWrite r off 32 true id

/-! ## Halves (R11) -/

/-- The low half a requester holds for the register that starts at an offset. -/
def State.heldLow (s : State) (r : Req) (off : Nat) : Option (BitVec 32) :=
  (s.sys.lowHeld.find? fun e => e.1 = r.who && e.2.1 = off).map fun e => e.2.2

/-- What keeps the present low half of a register when its high half is written alone (R11): what it reads; the staged
bytes of a write-only key register; zeros for `RST_CAUSE`, whose SOURCES a written one would clear. -/
def State.presentLow (s : State) (off : Nat) (g : Reg) : Nat :=
  if off = 0x490008 then 0
  else match pageAt off 0x400000 0x1000 64 with
  | some (n, o) => if 0x020 ≤ o && o ≤ 0x038 then (s.cePage n).staged.toNat / 2 ^ (64 * ((o - 0x020) / 8)) % 2 ^ 32 else g.val % 2 ^ 32
  | none => g.val % 2 ^ 32

/-- Hold a low half; the requester's earlier one is gone. -/
def State.holdLow (s : State) (r : Req) (off : Nat) (v : BitVec 32) : State :=
  let s := s.dropHeld r
  { s with sys := { s.sys with lowHeld := (r.who, off, v) :: s.sys.lowHeld } }

/-- A write of a width in bits at an offset: whole, a low half to hold, or a high half that commits both. -/
def State.writeReg (s : State) (r : Req) (off width : Nat) (v : BitVec 64) : State :=
  if s.unserved r off then s
  else if s.reaches off && mailboxOk off width then s.dropHeld r
  else match s.regOf r off width with
  | none => s.regWrite r off width false id
  | some (g, p) =>
    if !g.ok || !s.reaches off then s.regWrite r off width false id
    else if g.mgmt && !r.mgmt then s.dropHeld r
    else match p with
    | .whole => if width = 64 then s.write64 r off v else s.write32 r off v
    | .low => s.holdLow r off (v.extractLsb' 0 32)
    | .high =>
      let lo := ((s.heldLow r (off - 4)).map BitVec.toNat).getD (s.presentLow (off - 4) g)
      s.write64 r (off - 4) (BitVec.ofNat 64 (lo + 2 ^ 32 * low v 32))

/-- `REGISTER_LOW_HALF_WRITE`: held without effect. -/
def execRegisterLowHalfWrite (r : Req) (off : Nat) (v : BitVec 32) (s : State) : Res :=
  .next <| match s.regOf r off 32 with
  | some (_, .low) => s.writeReg r off 32 (v.setWidth 64)
  | _ => if s.unserved r off then s else s.regWrite r off 32 false id

/-- `REGISTER_WRITE`. -/
def execRegisterWrite (r : Req) (off width : Nat) (v : BitVec 64) (s : State) : Res := .next (s.writeReg r off width v)

/-! ## Any access (R12, R18, R38, R508) -/

/-- `REG_ACCESS`: a read is answered; a write that reaches no register, or a management-only one from the host link, is
ignored. A write that reaches one carries its value in a command of its own. -/
def execRegAccess (r : Req) (off width : Nat) (write : Bool) (s : State) : Res :=
  .next <|
    if !write then s.readReg r off width
    else if s.unserved r off then s
    else if s.reaches off && mailboxOk off width then s.dropHeld r
    else match s.regOf r off width with
    | none => s.regWrite r off width false id
    | some (g, _) =>
      if !g.ok || !s.reaches off then s.regWrite r off width false id
      else if g.mgmt && !r.mgmt then s.dropHeld r
      else s

end Sys2Proof.Machine
end

