-- ==== Sys2Proof/Machine/System.lean ====
section
/-! DEFINITION. Power domains, clocks, operating seconds and tamper (R24 to R26, R35 to R39, R43, R68, R503). -/

namespace Sys2Proof.Machine
open Sys2Proof

/-! ## Power groups of a stack (R24 to R26) -/

/-- The stack's last group would be switched off while its controller is out of self-refresh: refused and recorded (R25).
Where the request would remove several powered groups, the record names the lowest of them, which the spec leaves open
(DESIGN CHOICE, log 108). -/
def State.groupRefused (s : State) (stack : Nat) : State :=
  let g := (lowest 4 fun g => s.pdOn (14 + 4 * stack + g)).getD 0
  s.record 0x54 srcDamper [(1, stack), (1, g)]

/-- Of a set of a stack's groups, those that may be on: a group with a disabled sliver and a group fused off stay off
(R504, R506). -/
def State.allowedGroups (s : State) (stack mask : Nat) : Nat :=
  ((List.range 4).map fun g =>
    if bit mask g && !s.msl.groupBad.get false (4 * stack + g) && !s.sys.pdFused.getLsbD (14 + 4 * stack + g) then 2 ^ g else 0).sum

/-- Begin a change to a set of groups (R26): new requests of the stack are held until those in flight have completed. -/
def State.changeGroups (s : State) (stack mask : Nat) : State :=
  let mask := s.allowedGroups stack mask
  if 4 ≤ stack || s.rst.step < 3 || s.sys.stackGoal.get 0 stack ≠ 0 || mask = s.poweredGroups stack then s
  else if mask = 0 && !s.sys.selfRefresh.get false stack then s.groupRefused stack
  else ({ s with sys := { s.sys with stackGoal := s.sys.stackGoal.set 0 stack (mask + 1) } }).settleHbm

/-- `POWER_GROUP_CHANGE`: the groups to be powered, as a mask. -/
def execPowerGroupChange (stack : Nat) (powered : BitVec 4) (s : State) : Res := .next (s.changeGroups stack powered.toNat)

/-! ## Switched domains (R36 to R39) -/

def State.setPd (s : State) (p : Nat) (v : PdState) : State := { s with sys := { s.sys with pd := s.sys.pd.set .on p v } }

/-- The Damper may switch a domain off: the condition of the domain table before R36 holds. -/
def State.mayOff (s : State) (p : Nat) : Bool :=
  match p with
  | 2 => s.ce.pages.cells.all fun e => e.2.state = .free
  | 3 => (s.tel.watch.cells.all fun e => !e.2.armed) && s.qm.slices.cells.all fun e => !e.2.telEn
  | p => 6 ≤ p && p < 14 && (List.range 4).all fun k => (s.link (4 * (p - 6) + k)).state = .disabled

/-- A command accepted for the unit of a domain has started and has not finished: it holds the domain on (R39). -/
def State.pdBusy (s : State) (p : Nat) : Bool := s.allCmds.any fun e => unitPd e.2.2.opcode = some p && e.2.2.runs

/-- What a link keeps when its port's domain is switched off: its saved training record, which the Stoker holds (R234). -/
def Link.poweredOff (x : Link) : Link := { saved := x.saved, rxAwait := x.rxAwait }

/-- A domain that is switched off discards its state (R36): the cipher engine its pages and its control register, the
witness its counters, windows and registers, a port its links, lanes, sessions of its links and registers. A port keeps
READY: whether its slivers take a new broadcast the spec does not say (DESIGN CHOICE, log 108). -/
def State.loseDomain (s : State) (p : Nat) : State :=
  match p with
  | 2 => { s with ce := {} }
  | 3 => { s with tel := { s.tel with priv := {}, watch := {}, gsel := 0 }
                  qm := { s.qm with slices := ⟨s.qm.slices.cells.map fun (e : Nat × Slice) =>
                    (e.1, { e.2 with ctrs := {}, telEn := false, wallShare := 0, watchMax := 1 })⟩ } }
  | p =>
    let k := p - 6
    let s := s.forEach (List.range 4) fun s j => (s.linkLost (4 * k + j)).modLink (4 * k + j) Link.poweredOff
    let s := { s with lnk := { s.lnk with lanes := s.lnk.lanes.filter fun a _ => a / 16 ≠ k } }
    s.setPort k { ready := (s.port k).ready }

/-- The domain number under which a `DROOP` record notes that the switching off of a domain was abandoned; the spec names no
code for that record (log 15). -/
def drAbandon : Nat := 0x20

/-- `DOMAIN_SWITCH_OFF`: numbers as `PWR_DOMAIN.ON` has them; a memory group goes under R26. A command accepted for the
domain holds it on, and the switching off is abandoned and recorded (R39, the coincidences of 01_architecture.md). -/
def execDomainSwitchOff (pd : Nat) (s : State) : Res :=
  .next <|
    if 30 ≤ pd || !s.pdOn pd then s
    else if 14 ≤ pd then
      let st := (pd - 14) / 4
      s.changeGroups st (s.poweredGroups st - 2 ^ ((pd - 14) % 4))
    else if s.pdBusy pd then s.record 0xB1 srcDamper [(1, drAbandon + pd), (1, 0)]
    else if s.mayOff pd then (s.loseDomain pd).setPd pd .off
    else s

/-- `DOMAIN_WAKE` (R37): a domain that is fused off stays off (R506). -/
def execDomainWake (pd : Nat) (s : State) : Res :=
  .next <|
    if 30 ≤ pd || s.pdOn pd || s.sys.pdFused.getLsbD pd then s
    else if 14 ≤ pd then
      let st := (pd - 14) / 4
      s.changeGroups st (s.poweredGroups st + 2 ^ ((pd - 14) % 4))
    else s.setPd pd .on

/-! ## Clocks and operating seconds (R35, R39) -/

/-- Number of KCLK in the clock table (log 15). -/
def clkK : Nat := 6

/-- `CLOCK_FAULT`: KCLK is found stopped; operating seconds are held. Of another clock the command tells that it has stopped
or runs again, as it is seen by the units that it clocks (R35; log 109). -/
def execClockFault (clk : Clock) (running : Bool) (s : State) : Res :=
  .next <|
    if !s.sys.mainPower then s
    else if clk = .kclk then
      if s.sys.kclkStopped || running then s
      else ({ s with sys := { s.sys with kclkStopped := true } }).record 0x13 srcStoker [(1, clkK)]
    else
      let others := s.sys.stopped.filter fun c => c ≠ clk
      { s with sys := { s.sys with stopped := if running then others else clk :: others } }

/-- `KCLK_RESUME`. -/
def execKclkResume (s : State) : Res := .next { s with sys := { s.sys with kclkStopped := false } }

/-- `OPSEC_COPY`: the battery-backed register takes the operating seconds; the count advances with main power and KCLK only. -/
def execOpsecCopy (s : State) : Res :=
  .next <|
    if s.sys.mainPower && !s.sys.kclkStopped && s.rcd.loaded then { s with boot := { s.boot with bbOpsec := s.sys.opSeconds } }
    else s

/-! ## Tamper (R43, R68) -/

/-- The least low level on TAMPER_N that passes the filter, in ns: 2 cycles of KCLK with main power, 100 µs on VBAT (R43). -/
def State.tamperFilter (s : State) : Nat := if s.sys.mainPower then 61036 else 100 * us

/-- `TAMPER_SET`: a low level on TAMPER_N, of so many ns or one that still lasts; a shorter one than the filter passes has
no effect but that the pin is high. The latch is set; with main power every non-`EMPTY` slot is torn down, at release step
2 if a reset holds the Stoker. On VBAT alone only the latch is set, and recorded at the next power-on. -/
def execTamperSet (lowNs : Option Nat) (s : State) : Res :=
  .next <|
    let old := s.sys.tamperLatch
    let passes := lowNs.all fun n => s.tamperFilter ≤ n
    let s := { s with sys := { s.sys with tamperLow := lowNs.isNone, tamperLatch := old || passes } }
    if old || !passes then s
    else if !s.sys.mainPower then { s with sys := { s.sys with tamperUnrec := true } }
    else
      let s := s.record 0x22 srcReset [(1, 1)]
      if 2 ≤ s.rst.step then s.teardownAll alTamper .tamper else s

/-! ## Time (R6, R35; log 1) -/

/-- What an idle block does: with main power a nanosecond of powered time passes, and at the end of each second an operating
second, unless KCLK is found stopped; the steps of walled slices take the slots of the nanosecond (R437). -/
def State.tick (s : State) : State :=
  if !s.sys.mainPower then s
  else
    let t := s.sys.now + 1
    let second := t % sec = 0 && !s.sys.kclkStopped
    { s with sys := { s.sys with now := t, opSeconds := if second then s.sys.opSeconds + 1 else s.sys.opSeconds } }.wallSteps

end Sys2Proof.Machine
end

