-- ==== Sys2Proof/Machine/Dispatch.lean ====
section
/-! DEFINITION. The dispatch of every command to its meaning. -/

namespace Sys2Proof.Machine

def exec (i : Instr) (s : State) : Host.Outcome State Fault Refusal :=
  match i with
  | .powerOn present => Sys2Proof.Machine.execPowerOn present s
  | .hubRstNLow ns => Sys2Proof.Machine.execHubRstNLow ns s
  | .resetHoldExpiry hubPos pkgSize => Sys2Proof.Machine.execResetHoldExpiry hubPos pkgSize s
  | .resetReleaseStep => Sys2Proof.Machine.execResetReleaseStep s
  | .kindlingBoot env => Sys2Proof.Machine.execKindlingBoot env s
  | .networkRequest tag rq => Sys2Proof.Machine.execNetworkRequest tag rq s
  | .hbmReadReturn stack line data poison corrected => Sys2Proof.Machine.execHbmReadReturn stack line data poison corrected s
  | .metadataFetchReturn stack line data poison corrected rootOk => Sys2Proof.Machine.execMetadataFetchReturn stack line data poison corrected rootOk s
  | .pageReencrypt region page => Sys2Proof.Machine.execPageReencrypt region page s
  | .hearthReadReturn line data ecc => Sys2Proof.Machine.execHearthReadReturn line data ecc s
  | .powerGroupChange stack powered => Sys2Proof.Machine.execPowerGroupChange stack powered s
  | .domainSwitchOff pd => Sys2Proof.Machine.execDomainSwitchOff pd s
  | .domainWake pd => Sys2Proof.Machine.execDomainWake pd s
  | .clockFault clk running => Sys2Proof.Machine.execClockFault clk running s
  | .kclkResume => Sys2Proof.Machine.execKclkResume s
  | .opsecCopy => Sys2Proof.Machine.execOpsecCopy s
  | .tamperSet lowNs => Sys2Proof.Machine.execTamperSet lowNs s
  | .domOpen m domainId profile memberEmpty => Sys2Proof.Machine.execDomOpen m domainId profile memberEmpty s
  | .domGroupLevel m level count members => Sys2Proof.Machine.execDomGroupLevel m level count members s
  | .domSecret m slot secret => Sys2Proof.Machine.execDomSecret m slot secret s
  | .memberConfirmTimeout slot => Sys2Proof.Machine.execMemberConfirmTimeout slot s
  | .domBindSlice m slot slice => Sys2Proof.Machine.execDomBindSlice m slot slice s
  | .domAddSite m slot site digest => Sys2Proof.Machine.execDomAddSite m slot site digest s
  | .domActivate m slot => Sys2Proof.Machine.execDomActivate m slot s
  | .domLease m slot => Sys2Proof.Machine.execDomLease m slot s
  | .leaseLapse slot => Sys2Proof.Machine.execLeaseLapse slot s
  | .admissionTimeout slot => Sys2Proof.Machine.execAdmissionTimeout slot s
  | .quarantineTimeout slot => Sys2Proof.Machine.execQuarantineTimeout slot s
  | .domResume m slot => Sys2Proof.Machine.execDomResume m slot s
  | .domTeardown m slot => Sys2Proof.Machine.execDomTeardown m slot s
  | .domQuery m slot => Sys2Proof.Machine.execDomQuery m slot s
  | .alarmAck m seq => Sys2Proof.Machine.execAlarmAck m seq s
  | .tamperClear m => Sys2Proof.Machine.execTamperClear m s
  | .teardownAdvance slot => Sys2Proof.Machine.execTeardownAdvance slot s
  | .spdmRequest m code param1 param2 body => Sys2Proof.Machine.execSpdmRequest m code param1 param2 body s
  | .getMeasurements m index nonce => Sys2Proof.Machine.execGetMeasurements m index nonce s
  | .memberStatementTimeout => Sys2Proof.Machine.execMemberStatementTimeout s
  | .sliceEnable r => Sys2Proof.Machine.execSliceEnable r s
  | .sliceDisable r => Sys2Proof.Machine.execSliceDisable r s
  | .qmSlcfgWrite r v => Sys2Proof.Machine.execQmSlcfgWrite r v s
  | .revokeAll r slice => Sys2Proof.Machine.execRevokeAll r slice s
  | .squashAll r slice => Sys2Proof.Machine.execSquashAll r slice s
  | .sliceReset r slice => Sys2Proof.Machine.execSliceReset r slice s
  | .sliceResetAdvance slice => Sys2Proof.Machine.execSliceResetAdvance slice s
  | .qmSlLevelWrite r slice v => Sys2Proof.Machine.execQmSlLevelWrite r slice v s
  | .queueEnable r slice => Sys2Proof.Machine.execQueueEnable r slice s
  | .stopDrain r slice => Sys2Proof.Machine.execStopDrain r slice s
  | .stopSquash r slice => Sys2Proof.Machine.execStopSquash r slice s
  | .queueResume r slice => Sys2Proof.Machine.execQueueResume r slice s
  | .queueDisable r slice => Sys2Proof.Machine.execQueueDisable r slice s
  | .qmDbTailWrite r queue v => Sys2Proof.Machine.execQmDbTailWrite r queue v s
  | .qmDbCplHeadWrite r queue v => Sys2Proof.Machine.execQmDbCplHeadWrite r queue v s
  | .qmAbort r slice v => Sys2Proof.Machine.execQmAbort r slice v s
  | .commandFetch slice queue words => Sys2Proof.Machine.execCommandFetch slice queue words s
  | .commandStart slice queue => Sys2Proof.Machine.execCommandStart slice queue s
  | .commandCommit slice queue => Sys2Proof.Machine.execCommandCommit slice queue s
  | .objDefine slice queue seq => Sys2Proof.Machine.execObjDefine slice queue seq s
  | .objFree slice queue seq => Sys2Proof.Machine.execObjFree slice queue seq s
  | .timeRead slice queue seq => Sys2Proof.Machine.execTimeRead slice queue seq s
  | .copy slice queue seq => Sys2Proof.Machine.execCopy slice queue seq s
  | .fill slice queue seq => Sys2Proof.Machine.execFill slice queue seq s
  | .resealZero slice queue seq => Sys2Proof.Machine.execResealZero slice queue seq s
  | .resealFill slice queue seq => Sys2Proof.Machine.execResealFill slice queue seq s
  | .resealPage slice queue seq => Sys2Proof.Machine.execResealPage slice queue seq s
  | .cipher slice queue seq => Sys2Proof.Machine.execCipher slice queue seq s
  | .cipherKeyLoad slice queue seq => Sys2Proof.Machine.execCipherKeyLoad slice queue seq s
  | .winOpen slice queue seq => Sys2Proof.Machine.execWinOpen slice queue seq s
  | .winClose slice queue seq => Sys2Proof.Machine.execWinClose slice queue seq s
  | .rwinSet slice queue seq => Sys2Proof.Machine.execRwinSet slice queue seq s
  | .rwinClear slice queue seq => Sys2Proof.Machine.execRwinClear slice queue seq s
  | .fabRead slice queue seq => Sys2Proof.Machine.execFabRead slice queue seq s
  | .fabWrite slice queue seq => Sys2Proof.Machine.execFabWrite slice queue seq s
  | .fabAtomic slice queue seq => Sys2Proof.Machine.execFabAtomic slice queue seq s
  | .sigRemote slice queue seq => Sys2Proof.Machine.execSigRemote slice queue seq s
  | .flushRemote slice queue seq => Sys2Proof.Machine.execFlushRemote slice queue seq s
  | .planLoad slice queue seq => Sys2Proof.Machine.execPlanLoad slice queue seq s
  | .planRun slice queue seq => Sys2Proof.Machine.execPlanRun slice queue seq s
  | .planUnload slice queue seq => Sys2Proof.Machine.execPlanUnload slice queue seq s
  | .quantise slice queue seq => Sys2Proof.Machine.execQuantise slice queue seq s
  | .dequantise slice queue seq => Sys2Proof.Machine.execDequantise slice queue seq s
  | .syncInit slice queue seq => Sys2Proof.Machine.execSyncInit slice queue seq s
  | .syncFree slice queue seq => Sys2Proof.Machine.execSyncFree slice queue seq s
  | .syncNotify slice queue seq => Sys2Proof.Machine.execSyncNotify slice queue seq s
  | .syncGrant slice queue seq => Sys2Proof.Machine.execSyncGrant slice queue seq s
  | .syncUngrant slice queue seq => Sys2Proof.Machine.execSyncUngrant slice queue seq s
  | .syncOp slice queue seq => Sys2Proof.Machine.execSyncOp slice queue seq s
  | .ctrSample slice queue seq => Sys2Proof.Machine.execCtrSample slice queue seq s
  | .watchArm slice queue seq => Sys2Proof.Machine.execWatchArm slice queue seq s
  | .watchDisarm slice queue seq => Sys2Proof.Machine.execWatchDisarm slice queue seq s
  | .watchReport slice queue seq => Sys2Proof.Machine.execWatchReport slice queue seq s
  | .kidBind slice queue seq => Sys2Proof.Machine.execKidBind slice queue seq s
  | .kidRetire slice queue seq => Sys2Proof.Machine.execKidRetire slice queue seq s
  | .rgnAssign slice queue seq => Sys2Proof.Machine.execRgnAssign slice queue seq s
  | .rgnRelease slice queue seq => Sys2Proof.Machine.execRgnRelease slice queue seq s
  | .resealKey slice queue seq => Sys2Proof.Machine.execResealKey slice queue seq s
  | .rekeySweepPage region => Sys2Proof.Machine.execRekeySweepPage region s
  | .hrgAssign slice queue seq => Sys2Proof.Machine.execHrgAssign slice queue seq s
  | .hrgRelease slice queue seq => Sys2Proof.Machine.execHrgRelease slice queue seq s
  | .hearthInitDone range => Sys2Proof.Machine.execHearthInitDone range s
  | .phaseHint slice queue seq => Sys2Proof.Machine.execPhaseHint slice queue seq s
  | .oppRequest slice queue seq => Sys2Proof.Machine.execOppRequest slice queue seq s
  | .bindPlain r kid => Sys2Proof.Machine.execBindPlain r kid s
  | .fbxRetire r kid => Sys2Proof.Machine.execFbxRetire r kid s
  | .fbxCtlWrite r v => Sys2Proof.Machine.execFbxCtlWrite r v s
  | .kidFlushComplete kid => Sys2Proof.Machine.execKidFlushComplete kid s
  | .remask bad => Sys2Proof.Machine.execRemask bad s
  | .orphanSweep => Sys2Proof.Machine.execOrphanSweep s
  | .keyDeriveDone ok => Sys2Proof.Machine.execKeyDeriveDone ok s
  | .trngFault => Sys2Proof.Machine.execTrngFault s
  | .epochPrepare m slot epoch => Sys2Proof.Machine.execEpochPrepare m slot epoch s
  | .epochSwitch m slot epoch => Sys2Proof.Machine.execEpochSwitch m slot epoch s
  | .epochRetire m slot epoch => Sys2Proof.Machine.execEpochRetire m slot epoch s
  | .mslAssign r => Sys2Proof.Machine.execMslAssign r s
  | .mslRelease r => Sys2Proof.Machine.execMslRelease r s
  | .mslCtlWrite r v => Sys2Proof.Machine.execMslCtlWrite r v s
  | .hthAssign r => Sys2Proof.Machine.execHthAssign r s
  | .hthRelease r => Sys2Proof.Machine.execHthRelease r s
  | .hthCtlWrite r v => Sys2Proof.Machine.execHthCtlWrite r v s
  | .hthScrubCtlWrite r v => Sys2Proof.Machine.execHthScrubCtlWrite r v s
  | .scrubIssue engine corrected poison => Sys2Proof.Machine.execScrubIssue engine corrected poison s
  | .scrubDeadline engine => Sys2Proof.Machine.execScrubDeadline engine s
  | .linkEnable r link on => Sys2Proof.Machine.execLinkEnable r link on s
  | .linkRetrain r link => Sys2Proof.Machine.execLinkRetrain r link s
  | .linkAdapt r link => Sys2Proof.Machine.execLinkAdapt r link s
  | .linkSave r link settings => Sys2Proof.Machine.execLinkSave r link settings s
  | .lnkModeWrite r port v => Sys2Proof.Machine.execLnkModeWrite r port v s
  | .lnkSessCtlWrite r port v => Sys2Proof.Machine.execLnkSessCtlWrite r port v s
  | .trainingDone link ok lockNs settings lanes => Sys2Proof.Machine.execTrainingDone link ok lockNs settings lanes s
  | .lockAcquired link lanes => Sys2Proof.Machine.execLockAcquired link lanes s
  | .lockLost link lane first second third => Sys2Proof.Machine.execLockLost link lane first second third s
  | .lockTimeout link => Sys2Proof.Machine.execLockTimeout link s
  | .negotiateReceive link cws => Sys2Proof.Machine.execNegotiateReceive link cws s
  | .negotiateSend link => Sys2Proof.Machine.execNegotiateSend link s
  | .negTimeout link => Sys2Proof.Machine.execNegTimeout link s
  | .adaptDone link => Sys2Proof.Machine.execAdaptDone link s
  | .serRate link lane corrected symbols snr => Sys2Proof.Machine.execSerRate link lane corrected symbols snr s
  | .flitReceive link cws => Sys2Proof.Machine.execFlitReceive link cws s
  | .linkCtlReceive link cws => Sys2Proof.Machine.execLinkCtlReceive link cws s
  | .linkCtlSend link => Sys2Proof.Machine.execLinkCtlSend link s
  | .nakRepeat link => Sys2Proof.Machine.execNakRepeat link s
  | .replayTimeout link => Sys2Proof.Machine.execReplayTimeout link s
  | .flitTransmit link => Sys2Proof.Machine.execFlitTransmit link s
  | .fabRequestReceive f => Sys2Proof.Machine.execFabRequestReceive f s
  | .fabResponseReceive f => Sys2Proof.Machine.execFabResponseReceive f s
  | .recordTimeout tid => Sys2Proof.Machine.execRecordTimeout tid s
  | .holdResend tid => Sys2Proof.Machine.execHoldResend tid s
  | .flagHoldExpiry => Sys2Proof.Machine.execFlagHoldExpiry s
  | .fabTclr r v => Sys2Proof.Machine.execFabTclr r v s
  | .fabNodeWrite r v => Sys2Proof.Machine.execFabNodeWrite r v s
  | .fabRtdataWrite r v => Sys2Proof.Machine.execFabRtdataWrite r v s
  | .fabMrdataWrite r v => Sys2Proof.Machine.execFabMrdataWrite r v s
  | .colDataReceive f => Sys2Proof.Machine.execColDataReceive f s
  | .colCreditReceive f => Sys2Proof.Machine.execColCreditReceive f s
  | .colAbortReceive f => Sys2Proof.Machine.execColAbortReceive f s
  | .colCreditSend plan step => Sys2Proof.Machine.execColCreditSend plan step s
  | .colFlushTimer plan step => Sys2Proof.Machine.execColFlushTimer plan step s
  | .stepStart plan step => Sys2Proof.Machine.execStepStart plan step s
  | .stepComplete plan step => Sys2Proof.Machine.execStepComplete plan step s
  | .runTimeout plan step => Sys2Proof.Machine.execRunTimeout plan step s
  | .synSlcfgWrite r v => Sys2Proof.Machine.execSynSlcfgWrite r v s
  | .synCtlWrite r v => Sys2Proof.Machine.execSynCtlWrite r v s
  | .hostSignal r slice port v => Sys2Proof.Machine.execHostSignal r slice port v s
  | .orphanAll r slice => Sys2Proof.Machine.execOrphanAll r slice s
  | .deadlockScan => Sys2Proof.Machine.execDeadlockScan s
  | .deadlockEscalate => Sys2Proof.Machine.execDeadlockEscalate s
  | .syncDebugRead r => Sys2Proof.Machine.execSyncDebugRead r s
  | .syncForce r clear => Sys2Proof.Machine.execSyncForce r clear s
  | .atsInvalidation itag pasid global addr size => Sys2Proof.Machine.execAtsInvalidation itag pasid global addr size s
  | .invalidationTimeout itag => Sys2Proof.Machine.execInvalidationTimeout itag s
  | .translationCompletion pasid page c => Sys2Proof.Machine.execTranslationCompletion pasid page c s
  | .pageResponse pasid group code => Sys2Proof.Machine.execPageResponse pasid group code s
  | .prqTimeout pasid group => Sys2Proof.Machine.execPrqTimeout pasid group s
  | .stkXlatCtlWrite r v => Sys2Proof.Machine.execStkXlatCtlWrite r v s
  | .hostTransferCompletion id data ok => Sys2Proof.Machine.execHostTransferCompletion id data ok s
  | .functionLevelReset => Sys2Proof.Machine.execFunctionLevelReset s
  | .lockInterfaceRequest m slice stream rid flags => Sys2Proof.Machine.execLockInterfaceRequest m slice stream rid flags s
  | .startInterfaceRequest m slice nonce => Sys2Proof.Machine.execStartInterfaceRequest m slice nonce s
  | .stopInterfaceRequest m slice => Sys2Proof.Machine.execStopInterfaceRequest m slice s
  | .getDeviceInterfaceReport m slice => Sys2Proof.Machine.execGetDeviceInterfaceReport m slice s
  | .getDeviceInterfaceState m slice => Sys2Proof.Machine.execGetDeviceInterfaceState m slice s
  | .getTdispVersion m => Sys2Proof.Machine.execGetTdispVersion m s
  | .getTdispCapabilities m => Sys2Proof.Machine.execGetTdispCapabilities m s
  | .ideStreamInsecure stream => Sys2Proof.Machine.execIdeStreamInsecure stream s
  | .siteLinkActive site => Sys2Proof.Machine.execSiteLinkActive site s
  | .siteSpdmResponse site rsp => Sys2Proof.Machine.execSiteSpdmResponse site rsp s
  | .siteSpdmTimeout site => Sys2Proof.Machine.execSiteSpdmTimeout site s
  | .siteLinkInactive site => Sys2Proof.Machine.execSiteLinkInactive site s
  | .siteWindowSet r path v => Sys2Proof.Machine.execSiteWindowSet r path v s
  | .siteWindowClear r path v => Sys2Proof.Machine.execSiteWindowClear r path v s
  | .siteWindowClearKid r path v => Sys2Proof.Machine.execSiteWindowClearKid r path v s
  | .readmit r path v => Sys2Proof.Machine.execReadmit r path v s
  | .bridgeHeartbeatSend => Sys2Proof.Machine.execBridgeHeartbeatSend s
  | .bridgePeerLost pos => Sys2Proof.Machine.execBridgePeerLost pos s
  | .bridgeHelloReceive h => Sys2Proof.Machine.execBridgeHelloReceive h s
  | .electionClose => Sys2Proof.Machine.execElectionClose s
  | .ceAssign r page => Sys2Proof.Machine.execCeAssign r page s
  | .ceUnassign r page => Sys2Proof.Machine.execCeUnassign r page s
  | .ceLoad r page => Sys2Proof.Machine.execCeLoad r page s
  | .ceZero r page => Sys2Proof.Machine.execCeZero r page s
  | .ceCtlWrite r v => Sys2Proof.Machine.execCeCtlWrite r v s
  | .ceParamWrite r page v => Sys2Proof.Machine.execCeParamWrite r page v s
  | .throttleInterval => Sys2Proof.Machine.execThrottleInterval s
  | .telSCtlWrite r slice v => Sys2Proof.Machine.execTelSCtlWrite r slice v s
  | .telSCfgWrite r slice v => Sys2Proof.Machine.execTelSCfgWrite r slice v s
  | .telSQvalRead r slice => Sys2Proof.Machine.execTelSQvalRead r slice s
  | .registerLowHalfRead r off => Sys2Proof.Machine.execRegisterLowHalfRead r off s
  | .registerLowHalfWrite r off v => Sys2Proof.Machine.execRegisterLowHalfWrite r off v s
  | .registerWrite r off width v => Sys2Proof.Machine.execRegisterWrite r off width v s
  | .regAccess r off width write => Sys2Proof.Machine.execRegAccess r off width write s
  | .suppressed code => Sys2Proof.Machine.execSuppressed code s
  | .permProgram ok => Sys2Proof.Machine.execPermProgram ok s
  | .recClear m => Sys2Proof.Machine.execRecClear m s
  | .recRlWrite r v => Sys2Proof.Machine.execRecRlWrite r v s
  | .recDataRead r => Sys2Proof.Machine.execRecDataRead r s
  | .resetReq m level dump => Sys2Proof.Machine.execResetReq m level dump s
  | .rstReqWrite r v => Sys2Proof.Machine.execRstReqWrite r v s
  | .watchdogExpiry => Sys2Proof.Machine.execWatchdogExpiry s
  | .selfRefreshAck stack => Sys2Proof.Machine.execSelfRefreshAck stack s
  | .fenceTimeout => Sys2Proof.Machine.execFenceTimeout s
  | .recoveryTimeout => Sys2Proof.Machine.execRecoveryTimeout s
  | .rstDumpAck r => Sys2Proof.Machine.execRstDumpAck r s
  | .rstDumpDataRead r => Sys2Proof.Machine.execRstDumpDataRead r s
  | .rstCtlWrite r v => Sys2Proof.Machine.execRstCtlWrite r v s
  | .lcTransitionRequest r m v => Sys2Proof.Machine.execLcTransitionRequest r m v s
  | .lcStep ok => Sys2Proof.Machine.execLcStep ok s
  | .anchorSet r m v => Sys2Proof.Machine.execAnchorSet r m v s
  | .anchorRevoke r m v => Sys2Proof.Machine.execAnchorRevoke r m v s
  | .debugChallenge r m v => Sys2Proof.Machine.execDebugChallenge r m v s
  | .debugOpen r m => Sys2Proof.Machine.execDebugOpen r m s
  | .debugOpenComplete => Sys2Proof.Machine.execDebugOpenComplete s
  | .damperInterval p => Sys2Proof.Machine.execDamperInterval p s
  | .oppVoltageAck => Sys2Proof.Machine.execOppVoltageAck s
  | .siteLevelTimeout site => Sys2Proof.Machine.execSiteLevelTimeout site s
  | .budgetReallocate => Sys2Proof.Machine.execBudgetReallocate s
  | .shareReceive w => Sys2Proof.Machine.execShareReceive w s
  | .shareTimeout => Sys2Proof.Machine.execShareTimeout s
  | .pwrBudget m w lease => Sys2Proof.Machine.execPwrBudget m w lease s
  | .pwrBudgetLapse => Sys2Proof.Machine.execPwrBudgetLapse s
  | .pwrQuery m => Sys2Proof.Machine.execPwrQuery m s
  | .pwrLimit m limit clearCeil => Sys2Proof.Machine.execPwrLimit m limit clearCeil s
  | .pwrReport => Sys2Proof.Machine.execPwrReport s
  | .droopTrip src => Sys2Proof.Machine.execDroopTrip src s
  | .thermalWarn hottest => Sys2Proof.Machine.execThermalWarn hottest s
  | .thermalTrip hottest => Sys2Proof.Machine.execThermalTrip hottest s
  | .thermalCrit hottest => Sys2Proof.Machine.execThermalCrit hottest s
  | .pmbusPoll readings => Sys2Proof.Machine.execPmbusPoll readings s
  | .vinFault => Sys2Proof.Machine.execVinFault s
  | .pmbusStageTimeout stage => Sys2Proof.Machine.execPmbusStageTimeout stage s
  | .pwrCtlWrite r v => Sys2Proof.Machine.execPwrCtlWrite r v s
  | .trainingSlotWrite => Sys2Proof.Machine.execTrainingSlotWrite s
  | .droopRecover => Sys2Proof.Machine.execDroopRecover s
  | .thermalClear hottest => Sys2Proof.Machine.execThermalClear hottest s
  | .brCtlReceive msg => Sys2Proof.Machine.execBrCtlReceive msg s
  | .ideKmMessage m k => Sys2Proof.Machine.execIdeKmMessage m k s
  | .hostConfigWrite c => Sys2Proof.Machine.execHostConfigWrite c s
  | .translationTimeout pasid page => Sys2Proof.Machine.execTranslationTimeout pasid page s
  | .mctpControlMessage command body => Sys2Proof.Machine.execMctpControlMessage command body s

end Sys2Proof.Machine
end

