-- ==== Sys2Proof/Safety.lean ====
section
/-! DEFINITION. The terms the claims use: when a command is served, what OTP never does, and which tables are in their one
form. -/

namespace Sys2Proof.Machine
open Sys2Proof

/-! ## When a command has its effect -/

/-- The block at an offset serves a register write of this requester now (R12, R18, R38, R457, R458, R476). -/
def State.served (s : State) (r : Req) (off : Nat) : Bool :=
  (if r.mgmt then s.mgmtServes off else s.hostUp) && (match blockOf off with
    | some b => s.blockUp b
    | none => false) && !s.lcBars off

/-- The Stoker serves SPDM messages: its clock runs, Kindling has completed and the die is not scrapped (R35, R477, R504). -/
def State.serving (s : State) : Bool := 2 ≤ s.rst.step && s.clkRuns .cclk && s.lcCode ≠ 5 && s.boot.phase = 4

/-- A domain, epoch or power message of a session that R52 accepts; some need the operator role. -/
def State.hears (s : State) (m : Mgmt) (role : Bool) : Bool := s.serving && s.chainOk m && (!role || m.role)

/-- Such a message to the group's lead, no election being open. -/
def State.leads (s : State) (m : Mgmt) : Bool := s.hears m false && s.hst.group ≠ .electing && s.isLead

/-- A slot that can be named: it exists and awaits no confirmation of its members (R55, R124). -/
def State.slotFree (s : State) (slot : Nat) : Bool := slot < 64 && (s.slot slot).awaiting = 0

/-- The command `c` of a queue is in its unit: it executes, no stop ends it, its issue order lets it act, and its unit is
powered. -/
def State.works (s : State) (i q seq op : Nat) (c : Cmd) : Bool :=
  s.cmd? i q seq = some c && c.opcode = op && c.runs && s.mayIssue i q c && s.unitOn op

/-- A `TDISP` message that R382 accepts. -/
def State.tdHears (s : State) (m : Mgmt) (slice : Nat) : Bool := s.hostServes && m.secure && slice < 2048

/-! ## OTP -/

/-- An anchor slot goes from empty to a value, and from anything to wiped; it never comes back (R478). -/
def anchorMoves (a b : Anchor) : Prop := b = a ∨ a = .empty ∨ b = .wiped

/-- What one step may do to the OTP areas: state words are left or programmed whole, anchors move forward, and locks and
wipes stay (R470 to R478). -/
structure OtpForward (s t : State) : Prop where
  words : ∀ k, t.lc.words.getD k 0 = s.lc.words.getD k 0 ∨ t.lc.words.getD k 0 = BitVec.allOnes 32
  anchors : ∀ k, anchorMoves (s.lc.anchors.getD k .empty) (t.lc.anchors.getD k .empty)
  makerLock : s.lc.makerLock = true → t.lc.makerLock = true
  integWiped : s.lc.integWiped = true → t.lc.integWiped = true
  trimWiped : s.lc.trimWiped = true → t.lc.trimWiped = true

/-- Four state words, each clear or programmed whole, and four anchor slots (R471, R474, R478). -/
def State.otpWhole (s : State) : Prop :=
  s.lc.words.length = 4 ∧ s.lc.anchors.length = 4 ∧ ∀ w ∈ s.lc.words, w = 0 ∨ w = BitVec.allOnes 32

/-! ## Memory -/

/-- The stored memories are in their one form (log 7). -/
def State.memWf (s : State) : Bool := s.msl.hbm.wf 0 && s.msl.hbmPoison.wf false && s.hth.store.wf 0 && s.hth.ecc.wf 0

end Sys2Proof.Machine
end

