-- ==== Sys2Proof/Certificates/Slice0/Obligations.lean ====
section
/-! DEFINITION. The statements for the provers. -/

open Sys2Proof Sys2Proof.Machine

/-- For every command c, waiting list rest and state s whose queue is c followed by rest, step s is exec of c on s with
the queue rest. For every command and every state, exec answers a next state: no command of the table ends in a fault or a
refusal. It formalises the block rule of the task: commands are taken first in, first out. -/
def Obligations.StepRunsFrontCommand : Prop :=
  (∀ (c : Instr) (rest : List Instr) (s : State), s.pending = c :: rest → step s = exec c { s with pending := rest }) ∧
  (∀ (c : Instr) (s : State), ∃ t, exec c s = .next t)

/-- With no command waiting, a step of a die with main power adds one nanosecond of powered time, and one operating second
at each whole second unless KCLK is found stopped; the steps of walled slices then take the slots of that nanosecond
(wallSteps), and nothing else changes. With no plan loaded, or with ACLK found stopped, there are no such slots. Without
main power nothing changes. That the idle step is the passing of time is the choice of the model (log 1), and so is that
walled slots are taken then (log 127). -/
def Obligations.IdleStepPassesPoweredTime : Prop :=
  (∀ (s t : State), s.pending = [] → s.sys.mainPower = true →
    t = { s with sys := { s.sys with
      now := s.sys.now + 1,
      opSeconds := if (s.sys.now + 1) % 1000000000 = 0 ∧ s.sys.kclkStopped = false then s.sys.opSeconds + 1 else s.sys.opSeconds } } →
    step s = .next t.wallSteps) ∧
  (∀ t : State, t.loaded = [] ∨ t.clkRuns .aclk = false → t.wallSteps = t) ∧
  (∀ s : State, s.pending = [] → s.sys.mainPower = false → step s = .next s)

/-- State.reset holds the values the register tables state: PORST held with release step 0 and cause POWER_ON; every
domain slot EMPTY, KID FREE, slice FREE at level 1 and point 0, object FREE at generation 1, region and hearth range
UNASSIGNED, link DISABLED, window FREE, sync object FREE, site EMPTY, cipher page FREE; FBX_CTL 0x100 and 0xA; scrub
period 0x18; WARN_LOG2 0x2C and USE_SAVED 1; DL_WINDOW 5 and BREAK_EN 1; PRQ_TIMEOUT 100; WATCH_MAX 1; INV_LOG2 32 and
DUMMY 0b10; RATE 8 and BURST 32; WARM_EN, HOST_REQ_EN and DUMP_EN 1; and the queue of waiting commands is empty. It also
meets the two invariants of the model: OTP holds whole words and every stored memory is in its one form. -/
def Obligations.ResetLeavesTheStatedValues : Prop :=
  (State.reset.pending = [] ∧ State.reset.rst.phase = .held ∧ State.reset.rst.level = .porst ∧ State.reset.rst.step = 0 ∧
  State.reset.rst.lastSource = 1 ∧ State.reset.rst.sources = 1 ∧ State.reset.rst.lock = false ∧ State.reset.rst.warmEn = true ∧
  State.reset.rst.hostReqEn = true ∧ State.reset.rst.dumpEn = true) ∧
  (∀ i : Nat, (State.reset.slot i).state = .empty ∧ (State.reset.kid i).state = .free ∧ (State.reset.slice i).state = .free ∧
    (State.reset.slice i).level = 1 ∧ (State.reset.slice i).prefOpp = 0 ∧ (State.reset.slice i).watchMax = 1 ∧
    (State.reset.rgn i).state = .unassigned ∧ (State.reset.hrg i).state = .unassigned ∧ (State.reset.link i).state = .disabled ∧
    (State.reset.port i).useSaved = true ∧ (State.reset.port i).warnLog2 = 0x2C ∧ (State.reset.win i).state = .free ∧
    (State.reset.syncObj i).kind = .free ∧ (State.reset.site i).state = .empty ∧ (State.reset.cePage i).state = .free ∧
    (State.reset.cePage i).invLog2 = 0x20 ∧ (State.reset.watch i).armed = false ∧ (State.reset.plan i).loaded = false ∧
    ∀ j : Nat, (State.reset.queue i j).state = .disabled ∧ (State.reset.obj i j).state = .free ∧ (State.reset.obj i j).gen = 1) ∧
  (State.reset.fbx.plainKidMax = 0x100 ∧ State.reset.fbx.remaskLog2 = 0xA ∧ State.reset.fbx.lock = false ∧ State.reset.msl.lock = false ∧
  State.reset.hth.lock = false ∧ State.reset.hth.period = 0x18 ∧ State.reset.syn.window = 5 ∧ State.reset.syn.breakEn = true ∧
  State.reset.hst.prqTimeout = 100 ∧ State.reset.ce.dummy = 2 ∧ State.reset.ce.lock = false ∧ State.reset.rcd.rate = 8 ∧
  State.reset.rcd.burst = 32 ∧ State.reset.rcd.nextSeq = 0) ∧
  (State.reset.otpWhole ∧ State.reset.memWf = true)

/-- POWER_ON, in every state, asserts PORST: every unit is held, no release step has begun, powered time restarts and the
stacks are empty, and slots, key cells, KIDs, root blocks, slices, regions, ranges, plans, sync objects, windows and
cipher pages are gone; state words, anchors and waiting commands stay, and main power is what the command says. A low
pulse of 100 ns or more on HUB_RST_N, with main power, is the source PIN of SYSRST, and where it is what holds the units,
the source ends no earlier than the pulse; in a state that is READY, FENCING below PORST, or in a warm reset or recovery,
it leaves nothing of the same things. Without main power it changes nothing, and a pulse below 10 ns changes nothing in
any state. A pulse from 10 ns to 100 ns draws one free bit (log 3): 0 leaves the rest of the state as it was, and 1 does
what a pulse that resets does with that bit drawn. RESET_HOLD_EXPIRY, with main power and KCLK running, once 32 KCLK
cycles have passed since the source ended, begins release step 1: the fuses are sampled, and after PORST the straps too;
before that it changes nothing. -/
def Obligations.PowerOnAndPinReset : Prop :=
  (∀ (present : Bool) (s : State), ∃ t, exec (.powerOn present) s = .next t ∧ t.sys.mainPower = present ∧ t.sys.now = 0 ∧
      t.msl.hbm = {} ∧ t.rcd.nextSeq = 0 ∧ t.rst.phase = .held ∧ t.rst.step = 0 ∧ t.dom.slots = {} ∧ t.fbx.cells = [] ∧ t.fbx.kids = {} ∧ t.fbx.roots = {} ∧
      t.qm.slices = {} ∧ t.msl.rgns = {} ∧ t.msl.ready = false ∧ t.hth.rngs = {} ∧ t.col.plans = {} ∧ t.syn.objs = {} ∧ t.fab.wins = {} ∧
      t.ce.pages = {} ∧ t.lc.words = s.lc.words ∧ t.lc.anchors = s.lc.anchors ∧ t.pending = s.pending) ∧
  (∀ (ns : Nat) (s : State), 100 ≤ ns → s.sys.mainPower = true →
    (s.rst.phase = .ready ∨ s.rst.phase = .fencing ∧ s.rst.level ≠ .porst ∨ s.rst.level = .warm ∨ s.rst.level = .core) →
    ∃ t, exec (.hubRstNLow ns) s = .next t ∧ t.rst.phase = .held ∧ t.rst.step = 0 ∧ t.dom.slots = {} ∧ t.fbx.cells = [] ∧ t.fbx.kids = {} ∧ t.fbx.roots = {} ∧
      t.qm.slices = {} ∧ t.msl.rgns = {} ∧ t.msl.ready = false ∧ t.hth.rngs = {} ∧ t.col.plans = {} ∧ t.syn.objs = {} ∧ t.fab.wins = {} ∧
      t.ce.pages = {} ∧ t.lc.words = s.lc.words ∧ t.lc.anchors = s.lc.anchors ∧ t.pending = s.pending) ∧
  (∀ (ns : Nat) (s : State), 100 ≤ ns → s.sys.mainPower = true →
    exec (.hubRstNLow ns) s = .next (
      let v := s.beginReset .pin .sysrst
      if v.rst.source = .pin ∧ v.rst.phase = .held then { v with rst := { v.rst with sourceEnd := max v.rst.sourceEnd (v.now + ns) } } else v)) ∧
  (∀ (ns : Nat) (s : State), ns < 10 ∨ (s.sys.mainPower = false ∧ 100 ≤ ns) → exec (.hubRstNLow ns) s = .next s) ∧
  (∀ (ns : Nat) (b : BitVec 1) (s u : State), 10 ≤ ns → ns < 100 → s.draw 1 = (b, u) →
    (b = 0 → exec (.hubRstNLow ns) s = .next u) ∧
    (b ≠ 0 → s.sys.mainPower = true → exec (.hubRstNLow ns) s = .next (
      let v := u.beginReset .pin .sysrst
      if v.rst.source = .pin ∧ v.rst.phase = .held then { v with rst := { v.rst with sourceEnd := max v.rst.sourceEnd (v.now + ns) } } else v))) ∧
  (∀ (h : BitVec 3) (p : BitVec 2) (s u : State), s.rst.phase = .held → s.rst.step = 0 → s.sys.mainPower = true →
    s.sys.kclkStopped = false → s.rst.sourceEnd + holdNs ≤ s.sys.now →
    State.sampleFuses { s with rst := { s.rst with step := 1 } } = u →
    exec (.resetHoldExpiry h p) s = .next (if s.rst.level = .porst then { u with sys := { u.sys with hubPos := h, pkgSize := p } } else u)) ∧
  (∀ (h : BitVec 3) (p : BitVec 2) (s : State), s.rst.phase ≠ .held ∨ s.rst.step ≠ 0 ∨ s.sys.now < s.rst.sourceEnd + holdNs →
    exec (.resetHoldExpiry h p) s = .next s)

/-- RESET_RELEASE_STEP has no effect while a fence runs, while KCLK is found stopped, before step 1 or after step 7. Else
it begins the step after the present one. Step 2: the Stoker; after a warm level with the BOOT record, and the slots
recover (R67). Step 3, once Kindling has completed and not before: stacks, seal front end, gates and scrub engines; after
a cold level the backing store is placed anew as region 64 and the hearth is zero-filled. Step 4: the ports, whose
enabled, present, DISABLED links train. Step 5: the engines; after a warm level the die awaits its peers. Step 6: the host
port, with which recovery is complete and its duration noted; after a warm level the quarantine of RECOVERY runs 60 s from
here. Step 7: the sites take their levels and those with a link are admitted. KINDLING_BOOT, when the Stoker was just
released, no transition runs and it has not run: a pending transition begins; a scrapped die loads its battery-backed
words and stops; after a cold level a strap fault stops it with fault 1, no valid firmware image with 2, no valid
microcode image with 3, and otherwise steps 8 and 9 follow; after a warm level steps 4 and 6, then 8 and 9. Then a stack
without groups stops it with fault 3; otherwise it is DONE, and after a cold level an election opens. At any other time it
has no effect. -/
def Obligations.ResetReleaseSteps : Prop :=
  (∀ s : State, s.rst.phase = .fencing ∨ s.sys.kclkStopped = true ∨ s.rst.step = 0 ∨ 7 ≤ s.rst.step ∨ (s.rst.step = 2 ∧ s.boot.phase ≠ 4) →
    exec .resetReleaseStep s = .next s) ∧
  (∀ (s : State), s.rst.phase ≠ .fencing → s.sys.kclkStopped = false → s.rst.step = 1 → s.rst.level.cold = true →
    exec .resetReleaseStep s = .next { s with rst := { s.rst with step := 2, phase := .recovering } }) ∧
  (∀ (s : State), s.rst.phase ≠ .fencing → s.sys.kclkStopped = false → s.rst.step = 1 → s.rst.level.cold = false →
    exec .resetReleaseStep s = .next (State.recoverSlots (State.bootRecord { s with rst := { s.rst with step := 2, phase := .recovering } }))) ∧
  (∀ (u : State) (s : State), s.rst.phase ≠ .fencing → s.sys.kclkStopped = false → s.rst.step = 2 → s.boot.phase = 4 → s.rst.level.cold = false →
    u = { s with
      rst := { s.rst with step := 3 },
      sys := { s.sys with selfRefresh := {} },
      msl := { s.msl with ready := true },
      hth := { s.hth with ready := true, scrub := (List.range 12).foldl (fun (t : Tbl Scrub) k => t.set {} k { startAt := s.sys.now, lineAt := s.sys.now }) {} } } →
    exec .resetReleaseStep s = .next u) ∧
  (∀ (u : State) (s : State), s.rst.phase ≠ .fencing → s.sys.kclkStopped = false → s.rst.step = 2 → s.boot.phase = 4 → s.rst.level.cold = true →
    u = State.placeBacking { s with
      rst := { s.rst with step := 3 },
      sys := { s.sys with selfRefresh := {} },
      msl := { s.msl with ready := true },
      hth := { s.hth with ready := true, scrub := (List.range 12).foldl (fun (t : Tbl Scrub) k => t.set {} k { startAt := s.sys.now, lineAt := s.sys.now }) {} } } →
    exec .resetReleaseStep s = .next { u with hth := { u.hth with store := {}, ecc := {} } }) ∧
  (∀ s : State, (s.placeBacking.rgn 64) = { state := .active, mode := 1, stack := 0, base := 30720, size := 2048 } ∧
    (∀ n, n ≠ 64 → s.placeBacking.rgn n = s.rgn n) ∧ s.placeBacking.hth = s.hth ∧ s.placeBacking.rst = s.rst) ∧
  (∀ (s : State), s.rst.phase ≠ .fencing → s.sys.kclkStopped = false → s.rst.step = 3 → 
    exec .resetReleaseStep s = .next (({ s with rst := { s.rst with step := 4 } } : State).forEach s.lnk.links.keys fun s l =>
      if (s.link l).enable = true ∧ (s.link l).state = .disabled ∧ s.linkPresent l = true then s.toTraining l none false else s)) ∧
  (∀ (u : State) (s : State), s.rst.phase ≠ .fencing → s.sys.kclkStopped = false → s.rst.step = 4 → 
    { s with
      rst := { s.rst with step := 5 },
      fab := { s.fab with ready := true },
      syn := { s.syn with ready := true, scanAt := s.sys.now,
                          progressAt := (List.range 4).foldl (fun (t : Tbl Nat) k => t.set 0 k s.sys.now) {} } } = u →
    exec .resetReleaseStep s = .next (if s.rst.level.cold then u else { u with hst := { s.hst with
      rejoinWait := s.peers, heardAt := s.peers.foldl (fun (t : Tbl Nat) h => t.set 0 h s.sys.now) s.hst.heardAt } })) ∧
  (∀ (u : State) (s : State), s.rst.phase ≠ .fencing → s.sys.kclkStopped = false → s.rst.step = 5 → 
    { s with rst := { s.rst with step := 6, phase := .ready, lastMs := (s.sys.now - s.rst.assertAt) / 1000000 % 2 ^ 32 } } = u →
    exec .resetReleaseStep s = .next (if s.rst.level.cold then u else u.forEach allSlots fun s i => s.modSlot i fun p =>
      if p.state = .quarantined ∧ p.cause = .alarm alRecovery then { p with deadline := s.sys.now + 60 * 1000000000 } else p)) ∧
  (∀ (u : State) (s : State), s.rst.phase ≠ .fencing → s.sys.kclkStopped = false → s.rst.step = 6 → 
    (({ s with rst := { s.rst with step := 7 } } : State).forEach allSites fun s n => s.requestLevel n (max s.wanted.2 (s.siteFloor n))) = u →
    exec .resetReleaseStep s = .next (u.forEach (List.range 8) fun s n =>
      if (s.site n).linkUp = true ∧ (s.site n).state ≠ .probing ∧ (s.site n).state ≠ .admitted then s.startAdmission n else s)) ∧
  (∀ (env : BootEnv) (s : State), s.rst.step ≠ 2 ∨ s.rst.phase ≠ .recovering ∨ s.boot.phase ≠ 0 ∨ s.lc.pending = true →
    exec (.kindlingBoot env) s = .next s) ∧
  (∀ (env : BootEnv) (k : Nat) (u s : State), s.rst.step = 2 → s.rst.phase = .recovering → s.boot.phase = 0 → s.lc.pending = false → s.pendingArea = some k → s.startTransition k = u →
    exec (.kindlingBoot env) s = .next { u with lc := { u.lc with begun := true } }) ∧
  (∀ (env : BootEnv) (s : State), s.rst.step = 2 → s.rst.phase = .recovering → s.boot.phase = 0 → s.lc.pending = false → s.pendingArea = none → s.lcCode = 5 →
    exec (.kindlingBoot env) s = .next ((((s.loadVbat env.vbatOk (s.rst.level = .porst)).noteTamper).recLoaded id).bootStops 0)) ∧
  (∀ (env : BootEnv) (s : State), s.rst.step = 2 → s.rst.phase = .recovering → s.boot.phase = 0 → s.lc.pending = false → s.pendingArea = none → s.lcCode ≠ 5 → s.rst.level.cold = true → s.strapFault = true →
    exec (.kindlingBoot env) s = .next (((s.record 0x12 srcKindling [(1, s.sys.hubPos.toNat), (1, s.sys.pkgSize.toNat)]).recLoaded id).bootStops 1)) ∧
  (∀ (env : BootEnv) (u s : State), s.rst.step = 2 → s.rst.phase = .recovering → s.boot.phase = 0 → s.lc.pending = false → s.pendingArea = none → s.lcCode ≠ 5 → s.rst.level.cold = true → s.strapFault = false →
    ((((((s.drawScramble.loadVbat env.vbatOk (s.rst.level = .porst)).noteTamper).selfTests env.selftestOk env.trngOk).deriveBoot env.rom).selectConfig env).recLoaded State.bootRecord) = u →
    exec (.kindlingBoot env) s = .next (match u.selectImages env with
      | (none, w) => w
      | (some w, _) => w.bootTail env)) ∧
  (∀ (env : BootEnv) (u : State), (pickImage u.boot.minVersions.1 env.firmware = none → (u.selectImages env).2.boot.phase = 5 ∧ (u.selectImages env).2.boot.fault = 2 ∧ (u.selectImages env).1 = none) ∧
    (∀ f, pickImage u.boot.minVersions.1 env.firmware = some f → pickImage u.boot.minVersions.2 env.microcode = none →
      (u.selectImages env).2.boot.phase = 5 ∧ (u.selectImages env).2.boot.fault = 3 ∧ (u.selectImages env).1 = none)) ∧
  (∀ (env : BootEnv) (s : State), s.rst.step = 2 → s.rst.phase = .recovering → s.boot.phase = 0 → s.lc.pending = false → s.pendingArea = none → s.lcCode ≠ 5 → s.rst.level.cold = false →
    exec (.kindlingBoot env) s = .next (((s.selfTests env.selftestOk env.trngOk).selectConfig env).bootTail env)) ∧
  (∀ (env : BootEnv) (u v : State), u.deriveIdentity.broadcast env.badSlivers = v →
    (v.stackLost = true → u.bootTail env = v.bootStops 3) ∧ (v.stackLost = false → (u.bootTail env).boot.phase = 4))

/-- RESET_REQ of an operator naming level 2, 3 or 4, a write of RST_REQ by the kernel driver naming 3 or 4 while
HOST_REQ_EN is set, and a watchdog expiry of a running Stoker, with no reset or recovery in progress (and no life-cycle
transition begun, for RESET_REQ), note their source and begin the fence of that level, with the dump asked for; a
SYSRST_WARM may be raised to SYSRST, as levelFor says. RESET_REQ is answered OK first; it is answered BUSY while a reset
runs or a transition has begun, and BAD_PARAM at another level; RST_REQ has no effect while a reset runs, while
HOST_REQ_EN is 0, or with another level. A self-refresh acknowledgement that a SYSRST_WARM fence awaits is noted, and the
fence ends with the last of them. A fence still running 20 ms after its step 2 is forced: a write-back that is not done
loses its regions, the unacknowledged stacks of a SYSRST_WARM release theirs, and the fence ends; every unit is then held.
A recovery not complete 10 s after assertion, of a fenced source not yet escalated, becomes SYSRST of RECOVERY_FAIL. By
the management endpoint, RST_DUMP_ACK releases the dump, RST_DUMP_DATA answers the selected word and advances WORD, and
RST_CTL takes its fields unless LOCK is set. -/
def Obligations.ResetRequests : Prop :=
  (∀ (m : Mgmt) (l : Nat) (dump : Bool) (u s : State), s.hears m true = true → s.rst.phase = .ready → s.lc.begun = false → 2 ≤ l → l ≤ 4 →
    (s.answer .ok).noteSource .mgmt = u →
    exec (.resetReq m l dump) s = .next (State.fenceBegin { u with rst := { (u).rst with source := .mgmt, level := s.levelFor .mgmt (if l = 2 then .sysrst else if l = 3 then .warm else .core), wantDump := dump, escalated := false } })) ∧
  (∀ (m : Mgmt) (l : Nat) (dump : Bool) (s : State), s.hears m true = true →
    (l < 2 ∨ 4 < l → exec (.resetReq m l dump) s = .next (s.answer .badParam)) ∧
    (2 ≤ l ∧ l ≤ 4 ∧ (s.rst.phase ≠ .ready ∨ s.lc.begun = true) → exec (.resetReq m l dump) s = .next (s.answer .busy))) ∧
  (∀ (r : Req) (v : BitVec 32) (u s : State), s.served r 0x490018 = true → kernelReq r = true → s.rst.hostReqEn = true →
    s.rst.phase = .ready → bits v.toNat 2 0 = 3 ∨ bits v.toNat 2 0 = 4 → (s.dropHeld r).noteSource .host = u →
    exec (.rstReqWrite r v) s = .next (State.fenceBegin { u with rst := { (u).rst with source := .host, level := s.levelFor .host (if bits v.toNat 2 0 = 3 then .warm else .core), wantDump := v.getLsbD 3, escalated := false } })) ∧
  (∀ (r : Req) (v : BitVec 32) (s : State), s.served r 0x490018 = true → kernelReq r = true →
    s.rst.hostReqEn = false ∨ s.rst.phase ≠ .ready ∨ (bits v.toNat 2 0 ≠ 3 ∧ bits v.toNat 2 0 ≠ 4) →
    exec (.rstReqWrite r v) s = .next (s.dropHeld r)) ∧
  (∀ u s : State, 2 ≤ s.rst.step → s.rst.phase = .ready → s.noteSource .watchdog = u →
    exec .watchdogExpiry s = .next (State.fenceBegin { u with rst := { (u).rst with source := .watchdog, level := s.levelFor .watchdog .warm, wantDump := false, escalated := false } })) ∧
  (∀ (stack : Nat) (s : State), s.rst.srWait.contains stack = true → s.rst.phase = .fencing → 4 ≤ s.rst.fenceStep → s.rst.level = .warm →
    exec (.selfRefreshAck stack) s = .next (
      let t : State := { s with
        rst := { s.rst with srWait := s.rst.srWait.filter fun x => x ≠ stack }
        sys := { s.sys with selfRefresh := s.sys.selfRefresh.set false stack true } }
      if t.rst.srWait = [] then t.fenceEnd else t)) ∧
  (∀ (u s : State), s.rst.phase = .fencing → s.rst.fenceAt + 20 * 1000000 ≤ s.sys.now →
    (if s.rst.fenceStep < 5 then State.loseUnwritten { s with rst := { s.rst with forced := true } } else { s with rst := { s.rst with forced := true } }) = u →
    exec .fenceTimeout s = .next (if u.rst.level = .warm then (u.releaseStacks (if s.rst.fenceStep < 6 then [0, 1, 2, 3] else s.rst.srWait)).fenceEnd else u.fenceEnd)) ∧
  (∀ u : State, u.fenceEnd.rst.phase = .held ∧ u.fenceEnd.rst.step = 0 ∧ u.fenceEnd.rst.fenceStep = 0 ∧ u.fenceEnd.boot.phase = 0 ∧ u.fenceEnd.msl.ready = false) ∧
  (∀ u s : State, s.rst.phase = .held ∨ s.rst.phase = .recovering → s.rst.assertAt + 10 * 1000000000 ≤ s.sys.now →
    s.rst.source.fenced = true → s.rst.escalated = false → s.noteSource .recoveryFail = u →
    exec .recoveryTimeout s = .next (State.assertLevel { u with rst := { u.rst with source := .recoveryFail, level := .sysrst, escalated := true, wantDump := false } })) ∧
  (∀ (r : Req) (s : State), s.served r 0x490030 = true → r.mgmt = true →
    exec (.rstDumpAck r) s = .next { s.dropHeld r with rst := { s.rst with dumpHeld := false, dump := [] } }) ∧
  (∀ (r : Req) (s : State), s.mgmtServes 0x490028 = true → s.lcBars 0x490028 = false → r.mgmt = true →
    exec (.rstDumpDataRead r) s = .next { s with
      rst := { s.rst with dumpSel := (s.rst.dumpSel + 1) % 2 ^ 16 }
      out := .regRead (BitVec.ofNat 64 (if s.rst.dumpHeld then (s.rst.dump.getD s.rst.dumpSel 0).toNat else 0)) :: s.out }) ∧
  (∀ (r : Req) (v : BitVec 32) (s : State), s.served r 0x490010 = true → r.mgmt = true →
    exec (.rstCtlWrite r v) s = .next (if s.rst.lock = true then s.dropHeld r else { s.dropHeld r with
      rst := { s.rst with lock := v.getLsbD 0, warmEn := v.getLsbD 1, hostReqEn := v.getLsbD 2, dumpEn := v.getLsbD 3 } }))

/-- While the network port does not serve, every request is answered all ones with POISON and nothing else happens. While
it serves, a read or write whose place is clocked, or an atomic, that fails a check of R29 is refused under that check
(tagRefused) and answered all ones with POISON. One that passes goes on: a line request to a stack first uses the keys its
line needs; refused or inactive under its KID or region, a read is answered poisoned (a write too); held by a change of
power groups or a release, it waits; otherwise it joins, with its route, the requests that wait and these are served. One
to the hearth joins the requests of its tier. One to an aperture, and an atomic, goes to its window: without right or
match it is answered poisoned. A line that a stack returns unasked has no effect; one that was asked for is taken, with
its poison, unless it was written since, a corrected one is counted, and the requests that wait are served; where the root
block above it fails, its region is lost first. A page re-encryption of a region that is due and first on its sliver
completes the reads in flight, re-encrypts the page in serving it, and the held writes follow; one that is not due has no
effect. A hearth line is stored and serves the oldest request that asked for it, and those behind it follow; one that none
asked for has no effect. -/
def Obligations.NetworkRequestsAndReturns : Prop :=
  (∀ (tag : Tag) (rq : NetReq) (s : State), s.networkUp = false →
    exec (.networkRequest tag rq) s = .next { s with out := .net (respTag tag true) (BitVec.allOnes 512) true :: s.out }) ∧
  (∀ (tag : Tag) (p : NetTarget) (n : Nat) (s : State), s.networkUp = true → s.placeRuns (placeOf p) = true → s.tagCheck tag (placeOf p) false true = n + 1 →
    exec (.networkRequest tag (.read p)) s = .next ((s.tagRefused tag (n + 1)).netAnswer tag none)) ∧
  (∀ (tag : Tag) (p : NetTarget) (n : Nat) (d : Line) (m : BitVec 64) (s : State), s.networkUp = true → s.placeRuns (placeOf p) = true → s.tagCheck tag (placeOf p) true true = n + 1 →
    exec (.networkRequest tag (.write p d m)) s = .next ((s.tagRefused tag (n + 1)).netAnswer tag none)) ∧
  (∀ (tag : Tag) (e off op n : Nat) (a b : BitVec 64) (s : State), s.networkUp = true → s.tagCheck tag (.entry e) true true = n + 1 →
    exec (.networkRequest tag (.atomic e off op a b)) s = .next ((s.tagRefused tag (n + 1)).netAnswer tag none)) ∧
  (∀ (tag : Tag) (st l a : Nat) (u : State) (s : State), s.networkUp = true → s.clkRuns (.mclk st) = true → st * 2 ^ 30 + l = a → s.tagCheck tag (.hbm st l) false true = 0 →
    s.sys.stackGoal.get 0 st = 0 → ((s.rgnAt a).any fun ri => (s.rgn ri).state = .releasing) = false → s.useLine tag a = u →
    u.hbmRoute tag a = .refused →
    exec (.networkRequest tag (.read (.hbm st l))) s = .next ((((u.kidRefused tag a).poisonedAt a).readCounted tag (.bad true)).netAnswer tag none)) ∧
  (∀ (tag : Tag) (st l a : Nat) (u : State) (d : Line) (m : BitVec 64) (s : State), s.networkUp = true → s.clkRuns (.mclk st) = true → st * 2 ^ 30 + l = a → s.tagCheck tag (.hbm st l) true true = 0 →
    s.sys.stackGoal.get 0 st = 0 → ((s.rgnAt a).any fun ri => (s.rgn ri).state = .releasing) = false → s.useLine tag a = u →
    u.hbmRoute tag a = .refused →
    exec (.networkRequest tag (.write (.hbm st l) d m)) s = .next ((u.kidRefused tag a).netAnswer tag none)) ∧
  (∀ (tag : Tag) (st l a : Nat) (u : State) (s : State), s.networkUp = true → s.clkRuns (.mclk st) = true → st * 2 ^ 30 + l = a → s.tagCheck tag (.hbm st l) false true = 0 →
    s.sys.stackGoal.get 0 st = 0 → ((s.rgnAt a).any fun ri => (s.rgn ri).state = .releasing) = false → s.useLine tag a = u →
    u.hbmRoute tag a = .inactive →
    exec (.networkRequest tag (.read (.hbm st l))) s = .next ((((u.kidInactive tag).poisonedAt a).readCounted tag (.bad false)).netAnswer tag none)) ∧
  (∀ (tag : Tag) (st l a : Nat) (u : State) (d : Line) (m : BitVec 64) (s : State), s.networkUp = true → s.clkRuns (.mclk st) = true → st * 2 ^ 30 + l = a → s.tagCheck tag (.hbm st l) true true = 0 →
    s.sys.stackGoal.get 0 st = 0 → ((s.rgnAt a).any fun ri => (s.rgn ri).state = .releasing) = false → s.useLine tag a = u →
    u.hbmRoute tag a = .inactive →
    exec (.networkRequest tag (.write (.hbm st l) d m)) s = .next ((u.kidInactive tag).netAnswer tag none)) ∧
  (∀ (tag : Tag) (st l a : Nat) (u : State) (s : State), s.networkUp = true → s.clkRuns (.mclk st) = true → st * 2 ^ 30 + l = a → s.tagCheck tag (.hbm st l) false true = 0 →
    s.sys.stackGoal.get 0 st = 0 → ((s.rgnAt a).any fun ri => (s.rgn ri).state = .releasing) = false → s.useLine tag a = u →
    u.hbmRoute tag a ≠ .refused → u.hbmRoute tag a ≠ .inactive →
    exec (.networkRequest tag (.read (.hbm st l))) s = .next (State.runHbm { u with msl := { u.msl with pending := u.msl.pending ++ [{ tag, addr := a, write := false, slot := true, route := some (u.hbmRoute tag a) }] } })) ∧
  (∀ (tag : Tag) (st l a : Nat) (u : State) (d : Line) (m : BitVec 64) (s : State), s.networkUp = true → s.clkRuns (.mclk st) = true → st * 2 ^ 30 + l = a → s.tagCheck tag (.hbm st l) true true = 0 →
    s.sys.stackGoal.get 0 st = 0 → ((s.rgnAt a).any fun ri => (s.rgn ri).state = .releasing) = false → s.useLine tag a = u →
    u.hbmRoute tag a ≠ .refused → u.hbmRoute tag a ≠ .inactive →
    exec (.networkRequest tag (.write (.hbm st l) d m)) s = .next (State.runHbm { u with msl := { u.msl with pending := u.msl.pending ++
      [{ tag, addr := a, write := true, data := d, mask := m, slot := true, route := some (u.hbmRoute tag a) }] } })) ∧
  (∀ (tag : Tag) (st l a : Nat) (u : State) (s : State), s.networkUp = true → s.clkRuns (.mclk st) = true → st * 2 ^ 30 + l = a → s.tagCheck tag (.hbm st l) false true = 0 →
    s.sys.stackGoal.get 0 st ≠ 0 ∨ ((s.rgnAt a).any fun ri => (s.rgn ri).state = .releasing) = true → s.useLine tag a = u →
    exec (.networkRequest tag (.read (.hbm st l))) s = .next (State.runHbm { u with msl := { u.msl with pending := u.msl.pending ++ [{ tag, addr := a, write := false, slot := true, hold := true }] } })) ∧
  (∀ (tag : Tag) (st l a : Nat) (u : State) (d : Line) (m : BitVec 64) (s : State), s.networkUp = true → s.clkRuns (.mclk st) = true → st * 2 ^ 30 + l = a → s.tagCheck tag (.hbm st l) true true = 0 →
    s.sys.stackGoal.get 0 st ≠ 0 ∨ ((s.rgnAt a).any fun ri => (s.rgn ri).state = .releasing) = true → s.useLine tag a = u →
    exec (.networkRequest tag (.write (.hbm st l) d m)) s = .next (State.runHbm { u with msl := { u.msl with pending := u.msl.pending ++
      [{ tag, addr := a, write := true, data := d, mask := m, slot := true, hold := true }] } })) ∧
  (∀ (tag : Tag) (l : Nat) (u : State) (s : State), s.networkUp = true → s.tagCheck tag (.hearth l) false true = 0 → s.useCell (.kid (tagKid tag)) = u →
    exec (.networkRequest tag (.read (.hearth l))) s = .next (State.wakeHearth { u with hth := { u.hth with pending := u.hth.pending ++ [{ tag, addr := l, write := false, hold := u.hearthHeld l, slot := true }] } })) ∧
  (∀ (tag : Tag) (l : Nat) (u : State) (d : Line) (m : BitVec 64) (s : State), s.networkUp = true → s.tagCheck tag (.hearth l) true true = 0 → s.useCell (.kid (tagKid tag)) = u →
    exec (.networkRequest tag (.write (.hearth l) d m)) s = .next (State.wakeHearth { u with hth := { u.hth with pending := u.hth.pending ++
      [{ tag, addr := l, write := true, data := d, mask := m, hold := u.hearthHeld l, slot := true }] } })) ∧
  (∀ (tag : Tag) (e off : Nat) (s : State), s.networkUp = true → s.tagCheck tag (.entry e) false true = 0 →
    exec (.networkRequest tag (.read (.aperture e off))) s = .next (s.aperture { tag, entry := e, off := off / 64 * 64, kind := fkRead, op := 0, mask := 0, data := [] })) ∧
  (∀ (tag : Tag) (e off : Nat) (d : Line) (m : BitVec 64) (s : State), s.networkUp = true → s.tagCheck tag (.entry e) true true = 0 →
    exec (.networkRequest tag (.write (.aperture e off) d m)) s = .next (s.aperture { tag, entry := e, off := off / 64 * 64, kind := fkWrite, op := 0, mask := m, data := lineBytes d })) ∧
  (∀ (tag : Tag) (e off op : Nat) (a b : BitVec 64) (s : State), s.networkUp = true → s.tagCheck tag (.entry e) true true = 0 →
    exec (.networkRequest tag (.atomic e off op a b)) s = .next (s.aperture
      { tag, entry := e, off, kind := fkAtomic, op, mask := 0, data := leBytes 8 a.toNat ++ leBytes 8 b.toNat })) ∧
  (∀ (x : ApReq) (s : State), ((s.rwin x.entry).set && (s.rwin x.entry).aperture && (s.rwin x.entry).slice = tagSlice x.tag &&
      (s.rwin x.entry).slot = tagSlot x.tag && (s.rwin x.entry).rights.getLsbD (x.kind - 1)) = false → s.aperture x = s.netAnswer x.tag none) ∧
  (∀ (st l : Nat) (d : Line) (p c : Bool) (s : State), s.msl.issued.contains (st * 2 ^ 30 + l) = false →
    exec (.hbmReadReturn st l d p c) s = .next s ∧ exec (.metadataFetchReturn st l d p c true) s = .next s) ∧
  (∀ (st l a : Nat) (d : Line) (p c : Bool) (u v w s : State), st * 2 ^ 30 + l = a → s.msl.issued.contains a = true →
    u = { s with msl := { s.msl with
      issued := s.msl.issued.filter fun x => x ≠ a,
      stale := s.msl.stale.filter fun x => x ≠ a } } →
    v = (if s.msl.stale.contains a then u else { u with msl := { u.msl with
      arrived := (a, d, p) :: s.msl.arrived.filter fun e => e.1 ≠ a,
      hbm := s.msl.hbm.set 0 a d,
      hbmPoison := s.msl.hbmPoison.set false a p } }) →
    w = (if c then (v.memErr st 1 0 0).priv 0x306 1 else v) →
    let t := State.settleHbm (State.runHbm (match w.msl.pending.find? fun r => r.addr = a with
      | some r => w.count (tagSlice r.tag) 8 (if c then 1 else 0)
      | none => w))
    exec (.hbmReadReturn st l d p c) s = .next t ∧ exec (.metadataFetchReturn st l d p c true) s = .next t) ∧
  (∀ (st l ri : Nat) (d : Line) (p c : Bool) (s : State), s.rgnAt (st * 2 ^ 30 + l) = some ri → (s.rgn ri).mode = 1 →
    s.msl.issued.contains (st * 2 ^ 30 + l) = true →
    exec (.metadataFetchReturn st l d p c false) s = .next ((s.rootFault ri).lineReturned st l d p c)) ∧
  (∀ (region page : Nat) (s : State), region ≠ 64 → s.msl.reenc.contains (region, page) = false →
    exec (.pageReencrypt region page) s = .next s) ∧
  (∀ (region page : Nat) (rest : List (Nat × Nat)) (u s : State), region ≠ 64 → s.msl.reenc = (region, page) :: rest →
    (s.useRgn region).serveNow none (fun r => !r.write && s.pageOf r.addr = some (region, page) && s.firstReads r) = u →
    exec (.pageReencrypt region page) s = .next ((u.runHbm (some (region, page))).runHbm.settleHbm)) ∧
  (∀ (page : Nat) (s : State), page < (s.rgn 64).pages → exec (.pageReencrypt 64 page) s = .next ((s.useCell .backing).backingReencrypt page)) ∧
  (∀ (line : Nat) (d : Line) (e : BitVec 64) (r : MemReq) (s : State), (s.hth.pending.find? fun r => r.addr = line && !r.hold && !r.slot) = some r →
    exec (.hearthReadReturn line d e) s = .next (((State.serveHearth { s with hth := { s.hth with
      store := s.hth.store.set 0 line d, ecc := s.hth.ecc.set 0 line e, pending := s.hth.pending.erase r } } r (some (d, e))).2.wakeHearth).kidSettle.settleHearth)) ∧
  (∀ (line : Nat) (d : Line) (e : BitVec 64) (s : State), (∀ r ∈ s.hth.pending, r.addr = line → r.hold = true ∨ r.slot = true) →
    exec (.hearthReadReturn line d e) s = .next s)

/-- For each of twenty-one commands that write one management-only register each (RST_CTL, RST_DUMP_ACK, HTH_SCRUB_CTL,
SYN_CTL, the two forms of SYN_DBG_CMD, STK_XLAT_CTL, CE_CTL, REC_RL, PWR_CTL, LC_TRANSITION, LC_ANCHOR_CMD set and revoke,
the two forms of DBG_CMD, the four forms of LNK_CTL, LNK_CTL.MODE and LNK_SESS_CTL): when the host link brings it (r.mgmt
is false) and the block serves that offset, the next state is the old one with the requester's held low half dropped
(R11), and nothing else. -/
def Obligations.ManagementWritesFromHostIgnored : Prop :=
  (∀ (r : Req) (v : BitVec 32) (s : State), s.served r 0x490010 = true → r.mgmt = false → 
    exec (.rstCtlWrite r v) s = .next (s.dropHeld r)) ∧
  (∀ (r : Req)  (s : State), s.served r 0x490030 = true → r.mgmt = false → 
    exec (.rstDumpAck r) s = .next (s.dropHeld r)) ∧
  (∀ (r : Req) (v : BitVec 32) (s : State), s.served r 0x80200 = true → r.mgmt = false → 
    exec (.hthScrubCtlWrite r v) s = .next (s.dropHeld r)) ∧
  (∀ (r : Req) (v : BitVec 32) (s : State), s.served r 0x200008 = true → r.mgmt = false → 
    exec (.synCtlWrite r v) s = .next (s.dropHeld r)) ∧
  (∀ (r : Req)  (s : State), s.served r 0x200040 = true → r.mgmt = false → 
    exec (.syncDebugRead r) s = .next (s.dropHeld r)) ∧
  (∀ (r : Req) (c : Bool) (s : State), s.served r 0x200040 = true → r.mgmt = false → 
    exec (.syncForce r c) s = .next (s.dropHeld r)) ∧
  (∀ (r : Req) (v : BitVec 32) (s : State), s.served r 0x17F08 = true → r.mgmt = false → 
    exec (.stkXlatCtlWrite r v) s = .next (s.dropHeld r)) ∧
  (∀ (r : Req) (v : BitVec 32) (s : State), s.served r 0x400F00 = true → r.mgmt = false → 
    exec (.ceCtlWrite r v) s = .next (s.dropHeld r)) ∧
  (∀ (r : Req) (v : BitVec 32) (s : State), s.served r 0x480008 = true → r.mgmt = false → 
    exec (.recRlWrite r v) s = .next (s.dropHeld r)) ∧
  (∀ (r : Req) (v : BitVec 32) (s : State), s.served r 0x4B0010 = true → r.mgmt = false → 
    exec (.pwrCtlWrite r v) s = .next (s.dropHeld r)) ∧
  (∀ (r : Req) (m : Mgmt) (v : BitVec 32) (s : State), s.served r 0x4A0008 = true → r.mgmt = false → 
    exec (.lcTransitionRequest r m v) s = .next (s.dropHeld r)) ∧
  (∀ (r : Req) (m : Mgmt) (v : BitVec 32) (s : State), s.served r 0x4A0010 = true → r.mgmt = false → 
    exec (.anchorSet r m v) s = .next (s.dropHeld r)) ∧
  (∀ (r : Req) (m : Mgmt) (v : BitVec 32) (s : State), s.served r 0x4A0010 = true → r.mgmt = false → 
    exec (.anchorRevoke r m v) s = .next (s.dropHeld r)) ∧
  (∀ (r : Req) (m : Mgmt) (v : BitVec 32) (s : State), s.served r 0x4A0300 = true → r.mgmt = false → 
    exec (.debugChallenge r m v) s = .next (s.dropHeld r)) ∧
  (∀ (r : Req) (m : Mgmt) (s : State), s.served r 0x4A0300 = true → r.mgmt = false → 
    exec (.debugOpen r m) s = .next (s.dropHeld r)) ∧
  (∀ (r : Req) (l : Nat) (on : Bool) (s : State), s.served r (lnkCtl (portOf l)) = true → r.mgmt = false → 
    exec (.linkEnable r l on) s = .next (s.dropHeld r)) ∧
  (∀ (r : Req) (l : Nat) (s : State), s.served r (lnkCtl (portOf l)) = true → r.mgmt = false → 
    exec (.linkRetrain r l) s = .next (s.dropHeld r)) ∧
  (∀ (r : Req) (l : Nat) (s : State), s.served r (lnkCtl (portOf l)) = true → r.mgmt = false → 
    exec (.linkAdapt r l) s = .next (s.dropHeld r)) ∧
  (∀ (r : Req) (l : Nat) (x : List (BitVec 512)) (s : State), s.served r (lnkCtl (portOf l)) = true → r.mgmt = false → 
    exec (.linkSave r l x) s = .next (s.dropHeld r)) ∧
  (∀ (r : Req) (p : Nat) (v : BitVec 2) (s : State), s.served r (lnkCtl p) = true → r.mgmt = false → 
    exec (.lnkModeWrite r p v) s = .next (s.dropHeld r)) ∧
  (∀ (r : Req) (p : Nat) (v : BitVec 32) (s : State), s.served r (0xA0000 + 0x8000 * p + 0x10) = true → r.mgmt = false → 
    exec (.lnkSessCtlWrite r p v) s = .next (s.dropHeld r))

/-- While the Stoker serves messages, each of DOM_OPEN, DOM_BIND_SLICE, DOM_ADD_SITE, DOM_LEASE, DOM_TEARDOWN, DOM_QUERY,
PWR_QUERY, DOM_GROUP_LEVEL, DOM_SECRET, DOM_ACTIVATE, EPOCH_PREPARE, EPOCH_SWITCH, EPOCH_RETIRE and PWR_BUDGET whose
session is not secure or whose chain does not end in a valid operator anchor (chainOk) is answered UNAUTH with no other
effect; DOM_RESUME, ALARM_ACK, TAMPER_CLEAR, REC_CLEAR, RESET_REQ and PWR_LIMIT are answered so also when the leaf does
not carry the operator role. -/
def Obligations.UnauthenticatedMessagesAnswerUnauth : Prop :=
  (∀ (m : Mgmt) (i : BitVec 64) (p : BitVec 32) (e : BitVec 64) (s : State), s.serving = true → s.chainOk m = false → 
    exec (.domOpen m i p e) s = .next (s.answer .unauth)) ∧
  (∀ (m : Mgmt) (slot slice : Nat) (s : State), s.serving = true → s.chainOk m = false → 
    exec (.domBindSlice m slot slice) s = .next (s.answer .unauth)) ∧
  (∀ (m : Mgmt) (slot site : Nat) (d : BitVec 384) (s : State), s.serving = true → s.chainOk m = false → 
    exec (.domAddSite m slot site d) s = .next (s.answer .unauth)) ∧
  (∀ (m : Mgmt) (slot : Nat) (s : State), s.serving = true → s.chainOk m = false → 
    exec (.domLease m slot) s = .next (s.answer .unauth)) ∧
  (∀ (m : Mgmt) (slot : Nat) (s : State), s.serving = true → s.chainOk m = false → 
    exec (.domTeardown m slot) s = .next (s.answer .unauth)) ∧
  (∀ (m : Mgmt) (slot : Nat) (s : State), s.serving = true → s.chainOk m = false → 
    exec (.domQuery m slot) s = .next (s.answer .unauth)) ∧
  (∀ (m : Mgmt)  (s : State), s.serving = true → s.chainOk m = false → 
    exec (.pwrQuery m) s = .next (s.answer .unauth)) ∧
  (∀ (m : Mgmt) (l c : Nat) (x : List MemberStmt) (s : State), s.serving = true → s.chainOk m = false → 
    exec (.domGroupLevel m l c x) s = .next (s.answer .unauth)) ∧
  (∀ (m : Mgmt) (slot : Nat) (x : List Byte) (s : State), s.serving = true → s.chainOk m = false → 
    exec (.domSecret m slot x) s = .next (s.answer .unauth)) ∧
  (∀ (m : Mgmt) (slot : Nat) (s : State), s.serving = true → s.chainOk m = false → 
    exec (.domActivate m slot) s = .next (s.answer .unauth)) ∧
  (∀ (m : Mgmt) (slot : Nat) (e : BitVec 16) (s : State), s.serving = true → s.chainOk m = false → 
    exec (.epochPrepare m slot e) s = .next (s.answer .unauth)) ∧
  (∀ (m : Mgmt) (slot : Nat) (e : BitVec 16) (s : State), s.serving = true → s.chainOk m = false → 
    exec (.epochSwitch m slot e) s = .next (s.answer .unauth)) ∧
  (∀ (m : Mgmt) (slot : Nat) (e : BitVec 16) (s : State), s.serving = true → s.chainOk m = false → 
    exec (.epochRetire m slot e) s = .next (s.answer .unauth)) ∧
  (∀ (m : Mgmt) (w l : Nat) (s : State), s.serving = true → s.chainOk m = false → 
    exec (.pwrBudget m w l) s = .next (s.answer .unauth)) ∧
  (∀ (m : Mgmt) (slot : Nat) (s : State), s.serving = true → s.chainOk m = false ∨ m.role = false → 
    exec (.domResume m slot) s = .next (s.answer .unauth)) ∧
  (∀ (m : Mgmt) (q : BitVec 32) (s : State), s.serving = true → s.chainOk m = false ∨ m.role = false → 
    exec (.alarmAck m q) s = .next (s.answer .unauth)) ∧
  (∀ (m : Mgmt)  (s : State), s.serving = true → s.chainOk m = false ∨ m.role = false → 
    exec (.tamperClear m) s = .next (s.answer .unauth)) ∧
  (∀ (m : Mgmt)  (s : State), s.serving = true → s.chainOk m = false ∨ m.role = false → 
    exec (.recClear m) s = .next (s.answer .unauth)) ∧
  (∀ (m : Mgmt) (l : Nat) (d : Bool) (s : State), s.serving = true → s.chainOk m = false ∨ m.role = false → 
    exec (.resetReq m l d) s = .next (s.answer .unauth)) ∧
  (∀ (m : Mgmt) (l : Nat) (c : Bool) (s : State), s.serving = true → s.chainOk m = false ∨ m.role = false → 
    exec (.pwrLimit m l c) s = .next (s.answer .unauth))

/-- For each of twenty-four events that the spec places at a stated time after another (confirmation, lease, admission,
quarantine and statement timeouts; the remask period; the scrub deadline; lock, negotiation, NAK and replay timeouts of a
link; the deadlock scan; the throttle, reallocation, share, budget, report and damper intervals; the fence and recovery
timeouts; the site SPDM timeout; the heartbeat and the loss of a peer; the stage timeout): while powered time is before
that time, the command leaves the state unchanged. That an early event is ignored rather than impossible is the choice of
a total step (log 8), and so the statement is derived. -/
def Obligations.TimersWaitForTheirDeadline : Prop :=
  (∀ (k : Nat) (s : State), s.sys.now < (s.slot k).confirmBy → exec (.memberConfirmTimeout k) s = .next s) ∧
  (∀ (k : Nat) (s : State), s.sys.now < (s.slot k).leaseEnd → exec (.leaseLapse k) s = .next s) ∧
  (∀ (k : Nat) (s : State), s.sys.now < (s.slot k).deadline → exec (.admissionTimeout k) s = .next s) ∧
  (∀ (k : Nat) (s : State), s.sys.now < (s.slot k).deadline → exec (.quarantineTimeout k) s = .next s) ∧
  (∀ (s : State), s.sys.now < s.dom.stmtBy → exec (.memberStatementTimeout) s = .next s) ∧
  (∀ (b : List Nat) (s : State), s.sys.now < s.fbx.remaskAt + 2 ^ s.fbx.remaskLog2.toNat * 1000 → exec (.remask b) s = .next s) ∧
  (∀ (u : Nat) (s : State), s.sys.now < (s.scrub u).startAt + s.scrubPeriod → exec (.scrubDeadline u) s = .next s) ∧
  (∀ (l : Nat) (s : State), s.sys.now < (s.link l).since + 1000000 → exec (.lockTimeout l) s = .next s) ∧
  (∀ (l : Nat) (s : State), s.sys.now < (s.link l).since + 100 * 1000000 → exec (.negTimeout l) s = .next s) ∧
  (∀ (l : Nat) (s : State), s.sys.now < (s.link l).nakAt + 2 * 1000 → exec (.nakRepeat l) s = .next s) ∧
  (∀ (l : Nat) (s : State), s.sys.now < (s.link l).ackAt + 10 * 1000 → exec (.replayTimeout l) s = .next s) ∧
  (∀ (s : State), s.sys.now < s.syn.scanAt + 100 * 1000000 → exec (.deadlockScan) s = .next s) ∧
  (∀ (s : State), s.sys.now < s.tel.intervalAt + 1000000 → exec (.throttleInterval) s = .next s) ∧
  (∀ (s : State), s.sys.now < s.pwr.reallocAt + 10 * 1000000 → exec (.budgetReallocate) s = .next s) ∧
  (∀ (s : State), s.sys.now < s.pwr.shareAt + 50 * 1000000 → exec (.shareTimeout) s = .next s) ∧
  (∀ (s : State), s.sys.now < s.pwr.budgetEnd → exec (.pwrBudgetLapse) s = .next s) ∧
  (∀ (s : State), s.sys.now < s.pwr.reportAt + 100 * 1000000 → exec (.pwrReport) s = .next s) ∧
  (∀ (p : Nat) (s : State), s.sys.now < s.pwr.intervalAt + 1000000 → exec (.damperInterval p) s = .next s) ∧
  (∀ (s : State), s.sys.now < s.rst.fenceAt + 20 * 1000000 → exec (.fenceTimeout) s = .next s) ∧
  (∀ (s : State), s.sys.now < s.rst.assertAt + 10 * 1000000000 → exec (.recoveryTimeout) s = .next s) ∧
  (∀ (k : Nat) (s : State), s.sys.now < (s.site k).due → exec (.siteSpdmTimeout k) s = .next s) ∧
  (∀ (s : State), s.sys.now < s.hst.beatAt + 1000000 → exec (.bridgeHeartbeatSend) s = .next s) ∧
  (∀ (k : Nat) (s : State), s.sys.now < s.hst.heardAt.get 0 k + 20 * 1000000 → exec (.bridgePeerLost k) s = .next s) ∧
  (∀ (k : Nat) (s : State), s.sys.now < s.pwr.stageAt.get 0 k + 10 * 1000000 → exec (.pmbusStageTimeout k) s = .next s)

/-- For every state. POWER_GROUP_CHANGE: no effect for stack 4 or more, before release step 3 or while a change is under
way; a change to no group out of self-refresh is refused as a recorded GROUP_REFUSED; any other allowed set becomes the
stack's goal and settleHbm completes what nothing in flight holds up. DOMAIN_SWITCH_OFF of PD_CIPHER, PD_WITNESS or a port
that is on and not busy: switched off when mayOff holds, its state lost (PD_CIPHER: cipher pages; PD_WITNESS: windows and
privileged counters), and left alone when it does not; PD_CIPHER and PD_WITNESS with a command at work: the abandonment is
recorded; a group: changeGroups without it. DOMAIN_WAKE: a domain below 14 that is off and not fused goes on, a group is
asked for by changeGroups, a fused-off domain stays off. CLOCK_FAULT: KCLK stopping under main power is held and recorded;
another clock is listed as stopped, or no more; KCLK_RESUME clears the stop. OPSEC_COPY with main power, KCLK running and
the recorder loaded copies the operating seconds to the battery-backed register, and does nothing otherwise. TAMPER_SET,
latch not yet set: a level that the filter passes latches, with main power records it and from release step 2 tears down
every slot that is not EMPTY, before step 2 only records, on VBAT notes it unrecorded; a shorter pulse only finds the pin
high; with the latch set only the pin level is taken. -/
def Obligations.PowerDomainsAndClocks : Prop :=
  (∀ (stack : Nat) (p : BitVec 4) (s : State), 4 ≤ stack ∨ s.rst.step < 3 ∨ s.sys.stackGoal.get 0 stack ≠ 0 → 
    exec (.powerGroupChange stack p) s = .next s) ∧
  (∀ (stack : Nat) (s : State), stack < 4 → 3 ≤ s.rst.step → s.sys.stackGoal.get 0 stack = 0 → s.poweredGroups stack ≠ 0 → s.sys.selfRefresh.get false stack = false → 
    exec (.powerGroupChange stack 0) s = .next (s.groupRefused stack)) ∧
  (∀ (stack : Nat) (p : BitVec 4) (s : State), stack < 4 → 3 ≤ s.rst.step → s.sys.stackGoal.get 0 stack = 0 → s.allowedGroups stack p.toNat ≠ s.poweredGroups stack → s.allowedGroups stack p.toNat ≠ 0 ∨ s.sys.selfRefresh.get false stack = true → 
    exec (.powerGroupChange stack p) s = .next (({ s with sys := { s.sys with stackGoal := s.sys.stackGoal.set 0 stack (s.allowedGroups stack p.toNat + 1) } } : State).settleHbm)) ∧
  (∀ (p : Nat) (s : State), p = 2 ∨ p = 3 ∨ (6 ≤ p ∧ p < 14) → s.pdOn p = true → s.pdBusy p = false → s.mayOff p = true → 
    ∃ t, exec (.domainSwitchOff p) s = .next t ∧ t = (s.loseDomain p).setPd p .off ∧ t.pdOn p = false ∧ (p = 2 → t.ce.pages = {}) ∧ (p = 3 → t.tel.watch = {} ∧ t.tel.priv = {})) ∧
  (∀ (p : Nat) (s : State), p < 14 → s.pdOn p = true → s.pdBusy p = false → s.mayOff p = false → 
    exec (.domainSwitchOff p) s = .next s) ∧
  (∀ (p : Nat) (s : State), p = 2 ∨ p = 3 → s.pdOn p = true → s.pdBusy p = true → 
    exec (.domainSwitchOff p) s = .next (s.record 0xB1 srcDamper [(1, drAbandon + p), (1, 0)])) ∧
  (∀ (p : Nat) (s : State), 14 ≤ p → p < 30 → s.pdOn p = true → 
    exec (.domainSwitchOff p) s = .next (s.changeGroups ((p - 14) / 4) (s.poweredGroups ((p - 14) / 4) - 2 ^ ((p - 14) % 4)))) ∧
  (∀ (p : Nat) (s : State), s.pdOn p = false → 
    exec (.domainSwitchOff p) s = .next s) ∧
  (∀ (p : Nat) (s : State), p < 14 → s.pdOn p = false → s.sys.pdFused.getLsbD p = false → 
    ∃ t, exec (.domainWake p) s = .next t ∧ t = s.setPd p .on ∧ t.pdOn p = true) ∧
  (∀ (p : Nat) (s : State), 14 ≤ p → p < 30 → s.pdOn p = false → s.sys.pdFused.getLsbD p = false → 
    exec (.domainWake p) s = .next (s.changeGroups ((p - 14) / 4) (s.poweredGroups ((p - 14) / 4) + 2 ^ ((p - 14) % 4)))) ∧
  (∀ (p : Nat) (s : State), s.pdOn p = false → s.sys.pdFused.getLsbD p = true → 
    exec (.domainWake p) s = .next s) ∧
  (∀ (s : State), s.sys.kclkStopped = false → s.sys.mainPower = true → 
    exec (.clockFault .kclk false) s = .next (({ s with sys := { s.sys with kclkStopped := true } } : State).record 0x13 srcStoker [(1, 6)])) ∧
  (∀ (k : Clock) (s : State), k ≠ .kclk → s.sys.mainPower = true → 
    exec (.clockFault k false) s = .next { s with sys := { s.sys with stopped := k :: s.sys.stopped.filter fun c => c ≠ k } }) ∧
  (∀ (k : Clock) (s : State), k ≠ .kclk → s.sys.mainPower = true → 
    exec (.clockFault k true) s = .next { s with sys := { s.sys with stopped := s.sys.stopped.filter fun c => c ≠ k } }) ∧
  (∀ (s : State), 
    exec .kclkResume s = .next { s with sys := { s.sys with kclkStopped := false } }) ∧
  (∀ (s : State), s.sys.mainPower = true → s.sys.kclkStopped = false → s.rcd.loaded = true → 
    exec .opsecCopy s = .next { s with boot := { s.boot with bbOpsec := s.sys.opSeconds } }) ∧
  (∀ (s : State), s.sys.mainPower = false ∨ s.sys.kclkStopped = true ∨ s.rcd.loaded = false → 
    exec .opsecCopy s = .next s) ∧
  (∀ (lowNs : Option Nat) (s : State), s.sys.tamperLatch = false → s.sys.mainPower = true → (lowNs.all fun n => s.tamperFilter ≤ n) = true → 2 ≤ s.rst.step → 
    exec (.tamperSet lowNs) s = .next (State.teardownAll (State.record { s with sys := { s.sys with tamperLow := lowNs.isNone, tamperLatch := true } } 0x22 srcReset [(1, 1)]) alTamper .tamper)) ∧
  (∀ (lowNs : Option Nat) (s : State), s.sys.tamperLatch = false → s.sys.mainPower = true → (lowNs.all fun n => s.tamperFilter ≤ n) = true → s.rst.step < 2 → 
    exec (.tamperSet lowNs) s = .next (State.record { s with sys := { s.sys with tamperLow := lowNs.isNone, tamperLatch := true } } 0x22 srcReset [(1, 1)])) ∧
  (∀ (lowNs : Option Nat) (s : State), s.sys.tamperLatch = false → s.sys.mainPower = false → (lowNs.all fun n => s.tamperFilter ≤ n) = true → 
    exec (.tamperSet lowNs) s = .next { s with sys := { s.sys with tamperLow := lowNs.isNone, tamperLatch := true, tamperUnrec := true } }) ∧
  (∀ (n : Nat) (s : State), s.sys.tamperLatch = false → n < s.tamperFilter → 
    exec (.tamperSet (some n)) s = .next { s with sys := { s.sys with tamperLow := false } }) ∧
  (∀ (lowNs : Option Nat) (s : State), s.sys.tamperLatch = true → 
    exec (.tamperSet lowNs) s = .next { s with sys := { s.sys with tamperLow := lowNs.isNone } })

/-- Of a message to the lead that the session may send. DOM_OPEN with no tamper latch, domains allowed, no test hold, a
new non-zero ID and a legal profile: the lowest slot EMPTY on this and every other member is opened (members told, state
ADMITTING, the ID, the profile or 0x291 for zero, deadline 30 s, no secret), answer OK with its number; with no such slot
NO_SLOT; with the latch set TAMPERED. DOM_GROUP_LEVEL of the next level: more than 8 bits in all is LEVEL_REFUSED;
otherwise, the TRNG and the group key good, all statements verified: level and bits are added, slots unchanged; one not
verified: MEMBER_UNVERIFIED. DOM_SECRET of 48 bytes for an ADMITTING slot without a secret, after a composite: with no
known-answer test failed, members told, the secret loaded, epoch 0, and the answer waits for the members; after a failed
test the slot fails on every member and the answer is MEMBER_UNVERIFIED. DOM_BIND_SLICE of a slice below 2048, unbound or
of this slot and TDISP LOCKED or RUN, into a joinable slot binds it, answer OK. DOM_ADD_SITE of an admitted site with the
same digest, in no other slot, into a joinable slot puts it there and clears its windows, answer OK.
MEMBER_CONFIRM_TIMEOUT of a slot that waits, 10 ms after: every member is told to tear it down and it enters TEARDOWN; of
a slot that waits for nothing: no effect. -/
def Obligations.OpeningAndAdmission : Prop :=
  (∀ (m : Mgmt) (id : BitVec 64) (p : BitVec 32) (e : BitVec 64) (i : Nat) (s : State), s.leads m = true → s.sys.tamperLatch = false → s.domainsAllowed = true → s.pwr.testHold = false → id ≠ 0 → s.idCarried id = false → profileOk p = true → (lowest s.slotCount fun k => (s.slot k).state = .empty && e.getLsbD k) = some i → 
    ∃ t, exec (.domOpen m id p e) s = .next t ∧ t.out.head? = some (.dom .ok [i]) ∧ (t.slot i).state = .admitting ∧ (t.slot i).domainId = id ∧
      (t.slot i).profile = (if p = 0 then 0x291 else p) ∧ (t.slot i).deadline = s.sys.now + 30 * 1000000000 ∧ (t.slot i).hasSecret = false) ∧
  (∀ (m : Mgmt) (id : BitVec 64) (p : BitVec 32) (e : BitVec 64) (s : State), s.leads m = true → s.sys.tamperLatch = true → 
    exec (.domOpen m id p e) s = .next (s.answer .tampered)) ∧
  (∀ (m : Mgmt) (id : BitVec 64) (p : BitVec 32) (e : BitVec 64) (s : State), s.leads m = true → s.sys.tamperLatch = false → s.domainsAllowed = true → s.pwr.testHold = false → id ≠ 0 → s.idCarried id = false → profileOk p = true → (lowest s.slotCount fun k => (s.slot k).state = .empty && e.getLsbD k) = none → 
    exec (.domOpen m id p e) s = .next (s.answer .noSlot)) ∧
  (∀ (m : Mgmt) (l c : Nat) (x : List MemberStmt) (s : State), s.leads m = true → l = s.dom.levels.length + 2 → c = x.length → c ≠ 0 → 8 < s.sys.pkgSize.toNat + s.dom.levelBits + clog2 c → 
    exec (.domGroupLevel m l c x) s = .next (s.answer .levelRefused)) ∧
  (∀ (m : Mgmt) (l c : Nat) (x : List MemberStmt) (s : State), s.leads m = true → l = s.dom.levels.length + 2 → c = x.length → c ≠ 0 → s.sys.pkgSize.toNat + s.dom.levelBits + clog2 c ≤ 8 → s.fbx.trngFailed = false → x.all stmtVerified = false → 
    exec (.domGroupLevel m l c x) s = .next (s.answer .memberUnverified)) ∧
  (∀ (m : Mgmt) (l c : Nat) (x : List MemberStmt) (s : State), s.leads m = true → l = s.dom.levels.length + 2 → c = x.length → c ≠ 0 →
    s.sys.pkgSize.toNat + s.dom.levelBits + clog2 c ≤ 8 → s.fbx.trngFailed = false → (s.cellOf .groupKey).all Cell.checkOk = true → x.all stmtVerified = true →
    ∃ t, exec (.domGroupLevel m l c x) s = .next t ∧ t.dom.levels = s.dom.levels ++ [(l, c)] ∧ t.dom.levelBits = s.dom.levelBits + clog2 c ∧
      t.dom.slots = s.dom.slots) ∧
  (∀ (m : Mgmt) (slot : Nat) (x : List Byte) (s : State), s.leads m = true → s.sys.tamperLatch = false → slot < 64 → x.length = 48 → (s.slot slot).state = .admitting → (s.slot slot).hasSecret = false → s.dom.compositeOk = true → s.loadsSecrets = true → 
    ∃ t, exec (.domSecret m slot x) s = .next t ∧ (t.slot slot).hasSecret = true ∧ (t.slot slot).epoch = 0) ∧
  (∀ (m : Mgmt) (slot : Nat) (x : List Byte) (s : State), s.leads m = true → s.sys.tamperLatch = false → slot < 64 → x.length = 48 → (s.slot slot).state = .admitting → (s.slot slot).hasSecret = false → s.dom.compositeOk = true → s.loadsSecrets = false → 
    exec (.domSecret m slot x) s = .next (((s.toPeers bkSecret (slot :: x.map BitVec.toNat)).confirmFails slot).answer .memberUnverified)) ∧
  (∀ (k : Nat) (s : State), s.stokerRuns = true → (s.slot k).awaiting ≠ 0 → (s.slot k).confirmBy ≤ s.sys.now → 
    exec (.memberConfirmTimeout k) s = .next ((s.toPeers bkTeardown [k]).enterTeardown k .memberUnverified)) ∧
  (∀ (k : Nat) (s : State), (s.slot k).awaiting = 0 → 
    exec (.memberConfirmTimeout k) s = .next s) ∧
  (∀ (m : Mgmt) (slot slice : Nat) (s : State), s.hears m false = true → s.slotFree slot = true → slice < 2048 → (s.slot slot).joinable = true → (s.slice slice).bound = false ∨ (s.slice slice).dslot = slot → (s.slice slice).tdi = .locked ∨ (s.slice slice).tdi = .run → 
    exec (.domBindSlice m slot slice) s = .next ((s.setSlice slice { s.slice slice with bound := true, dslot := slot }).answer .ok)) ∧
  (∀ (m : Mgmt) (slot site : Nat) (d : BitVec 384) (s : State), s.hears m false = true → s.slotFree slot = true → site < 8 → (s.slot slot).joinable = true → (s.site site).inSlot = false ∨ (s.site site).dslot = slot → (s.site site).state = .admitted → (s.site site).digest = d → 
    exec (.domAddSite m slot site d) s = .next ((s.setSite site { s.site site with inSlot := true, dslot := slot, wins := {} }).kidSettle.answer .ok))

/-- DOM_ACTIVATE to the lead for a slot without a secret: answered BAD_STATE, nothing else. For an ADMITTING slot with a
secret it is accepted: every other member is told to activate, the lead's slot is LIVE with its lease ending LEASE seconds
from now, no other slot, no queue and no key changes; with no other member the answer OK follows at once, otherwise
nothing is answered and the slot waits for every other member. A member told so by its lead whose slot is ADMITTING with a
secret makes it LIVE, starts its lease and then confirms. The lead answers OK at the confirmation that leaves no member
unconfirmed, and at an earlier one answers nothing and goes on waiting for the others. -/
def Obligations.ActivationNeedsASecret : Prop :=
  (∀ (m : Mgmt) (slot : Nat) (s : State), s.leads m = true → s.slotFree slot = true → (s.slot slot).hasSecret = false → 
    exec (.domActivate m slot) s = .next (s.answer .badState)) ∧
  (∀ (m : Mgmt) (slot : Nat) (s : State), s.leads m = true → s.slotFree slot = true → (s.slot slot).state = .admitting → (s.slot slot).hasSecret = true → s.peers = [] → 
    ∃ t, exec (.domActivate m slot) s = .next t ∧ t.out = .dom .ok [] :: s.out ∧
      t.slot slot = { s.slot slot with state := .live, cause := .activate, leaseEnd := s.sys.now + (s.slot slot).leaseSecs * 1000000000 } ∧
      (∀ j, j ≠ slot → t.slot j = s.slot j) ∧ t.fbx = s.fbx ∧ t.qm = s.qm) ∧
  (∀ (m : Mgmt) (slot : Nat) (s : State), s.leads m = true → s.slotFree slot = true → (s.slot slot).state = .admitting → (s.slot slot).hasSecret = true → s.peers ≠ [] → 
    ∃ t, exec (.domActivate m slot) s = .next t ∧ t.out = (s.peers.map fun h => .brCtl h bkActivate [slot]).reverse ++ s.out ∧
      t.slot slot = { s.slot slot with state := .live, cause := .activate, leaseEnd := s.sys.now + (s.slot slot).leaseSecs * 1000000000, awaiting := 3, unconfirmed := s.peers, confirmBy := s.sys.now + 10 * 1000000 } ∧
      (∀ j, j ≠ slot → t.slot j = s.slot j) ∧ t.fbx = s.fbx ∧ t.qm = s.qm) ∧
  (∀ (h i : Nat) (s : State), s.bridgeUp = true → s.peers.contains h = true → h = s.hst.leadPos → (s.slot i).state = .admitting → (s.slot i).hasSecret = true → 
    ∃ t, exec (.brCtlReceive (.slotActivate h i)) s = .next t ∧ t.out = .brCtl h bkConfirm [s.pos, i, 1] :: s.out ∧
      t.slot i = { s.slot i with state := .live, cause := .activate, leaseEnd := s.sys.now + (s.slot i).leaseSecs * 1000000000 }) ∧
  (∀ (h i : Nat) (s : State), s.bridgeUp = true → s.peers.contains h = true → (s.slot i).awaiting ≠ 0 → (s.slot i).unconfirmed.contains h = true → ((s.slot i).unconfirmed.filter fun x => x ≠ h) = [] → 
    ∃ t, exec (.brCtlReceive (.confirm h i true)) s = .next t ∧ t.out = .dom .ok [] :: s.out ∧ t.slot i = { s.slot i with awaiting := 0, unconfirmed := [], confirmBy := 0 }) ∧
  (∀ (h i : Nat) (s : State), s.bridgeUp = true → s.peers.contains h = true → (s.slot i).awaiting ≠ 0 → (s.slot i).unconfirmed.contains h = true → ((s.slot i).unconfirmed.filter fun x => x ≠ h) ≠ [] → 
    ∃ t, exec (.brCtlReceive (.confirm h i true)) s = .next t ∧ t.out = s.out ∧ t.slot i = { s.slot i with unconfirmed := (s.slot i).unconfirmed.filter fun x => x ≠ h })

/-- Of a message the session may send, for a slot that is in no earlier message. DOM_LEASE of a LIVE or QUARANTINED slot:
its lease ends LEASE seconds from now, answer OK; of another, BAD_STATE. DOM_RESUME of a QUARANTINED slot before its
timeout: the slot is LIVE with cause RESUME, no other slot, queue or key changes; of another slot or at the timeout,
BAD_STATE. DOM_TEARDOWN of an ADMITTING, LIVE or QUARANTINED slot: enterTeardown with cause DOM_TEARDOWN, answer OK; of an
EMPTY one BAD_STATE; of one in TEARDOWN a DOM_STATE record from TEARDOWN to TEARDOWN and BAD_STATE. DOM_QUERY: OK with
state, domain ID, profile, cause and the alarm counts of classes 1 to 10. ALARM_ACK of a sequence number already given
out: the unacknowledged alarms numbered at or before it go, answer OK; of another, BAD_PARAM. TAMPER_CLEAR with the pin
high: a record with the leaf prefix, the latch is clear, slots and keys stay, answer OK; with the pin low BAD_STATE. -/
def Obligations.LeaseResumeTeardownQuery : Prop :=
  (∀ (m : Mgmt) (slot : Nat) (s : State), s.hears m false = true → s.slotFree slot = true → (s.slot slot).state = .live ∨ (s.slot slot).state = .quarantined → 
    exec (.domLease m slot) s = .next ((s.setSlot slot { s.slot slot with leaseEnd := s.sys.now + (s.slot slot).leaseSecs * 1000000000 }).answer .ok)) ∧
  (∀ (m : Mgmt) (slot : Nat) (s : State), s.hears m false = true → s.slotFree slot = true → (s.slot slot).state ≠ .live → (s.slot slot).state ≠ .quarantined → 
    exec (.domLease m slot) s = .next (s.answer .badState)) ∧
  (∀ (m : Mgmt) (slot : Nat) (s : State), s.hears m true = true → s.slotFree slot = true → (s.slot slot).state = .quarantined → s.sys.now < (s.slot slot).deadline → 
    ∃ t, exec (.domResume m slot) s = .next t ∧ t.slot slot = { s.slot slot with state := .live, cause := .resume } ∧ (∀ j, j ≠ slot → t.slot j = s.slot j) ∧ t.qm = s.qm ∧ t.fbx = s.fbx) ∧
  (∀ (m : Mgmt) (slot : Nat) (s : State), s.hears m true = true → s.slotFree slot = true → (s.slot slot).state ≠ .quarantined ∨ (s.slot slot).deadline ≤ s.sys.now → 
    exec (.domResume m slot) s = .next (s.answer .badState)) ∧
  (∀ (m : Mgmt) (slot : Nat) (s : State), s.hears m false = true → slot < 64 → (s.slot slot).state = .admitting ∨ (s.slot slot).state = .live ∨ (s.slot slot).state = .quarantined → 
    exec (.domTeardown m slot) s = .next ((s.enterTeardown slot .domTeardown).answer .ok)) ∧
  (∀ (m : Mgmt) (slot : Nat) (s : State), s.hears m false = true → slot < 64 → (s.slot slot).state = .empty → 
    exec (.domTeardown m slot) s = .next (s.answer .badState)) ∧
  (∀ (m : Mgmt) (slot : Nat) (s : State), s.hears m false = true → slot < 64 → (s.slot slot).state = .teardown → 
    exec (.domTeardown m slot) s = .next ((s.record 0x40 srcStoker [(1, slot), (1, 4), (1, 4), (1, SlotCause.domTeardown.code)]).answer .badState)) ∧
  (∀ (m : Mgmt) (slot : Nat) (s : State), s.hears m false = true → slot < 64 → 
    exec (.domQuery m slot) s = .next (s.answer .ok ([(s.slot slot).state.code, (s.slot slot).domainId.toNat, (s.slot slot).profile.toNat, (s.slot slot).cause.code] ++
      (List.range 10).map fun k => (s.slot slot).alarmCounts.get 0 (k + 1)))) ∧
  (∀ (m : Mgmt) (q : BitVec 32) (s : State), s.hears m true = true → (s.rcd.nextSeq - 1 - q).toNat < 2 ^ 31 → 
    exec (.alarmAck m q) s = .next (State.answer { s with dom := { s.dom with unacked := s.dom.unacked.filter fun u => 2 ^ 31 ≤ (q - u).toNat } } .ok)) ∧
  (∀ (m : Mgmt) (q : BitVec 32) (s : State), s.hears m true = true → 2 ^ 31 ≤ (s.rcd.nextSeq - 1 - q).toNat → 
    exec (.alarmAck m q) s = .next (s.answer .badParam)) ∧
  (∀ (m : Mgmt) (s : State), s.hears m true = true → s.sys.tamperLow = false → 
    ∃ t, exec (.tamperClear m) s = .next t ∧ t.sys = { s.sys with tamperLatch := false } ∧ t.dom.slots = s.dom.slots ∧ t.fbx = s.fbx ∧ t.out = .dom .ok [] :: s.out) ∧
  (∀ (m : Mgmt) (s : State), s.hears m true = true → s.sys.tamperLow = true → 
    exec (.tamperClear m) s = .next (s.answer .badState))

/-- With the Stoker running: LEASE_LAPSE of a LIVE or QUARANTINED slot with a lease whose end has passed,
ADMISSION_TIMEOUT of an ADMITTING slot past its deadline and QUARANTINE_TIMEOUT of a QUARANTINED slot past its deadline
enter TEARDOWN with that cause; of a slot in another state each does nothing. TEARDOWN_ADVANCE of a slot in TEARDOWN takes
the step the sequence stands at (tdOnce, then the wake of the other slots), which at step 7 makes the slot EMPTY; of a
slot not in TEARDOWN it does nothing. MEMBER_STATEMENT_TIMEOUT with statements missing after 10 ms finishes the composite
with those it has; with none missing it does nothing. -/
def Obligations.SlotTimersEndSlots : Prop :=
  (∀ (k : Nat) (s : State), s.stokerRuns = true → (s.slot k).state = .live ∨ (s.slot k).state = .quarantined → (s.slot k).leaseSecs ≠ 0 → (s.slot k).leaseEnd ≤ s.sys.now → 
    exec (.leaseLapse k) s = .next (s.enterTeardown k .lease)) ∧
  (∀ (k : Nat) (s : State), (s.slot k).state ≠ .live → (s.slot k).state ≠ .quarantined → 
    exec (.leaseLapse k) s = .next s) ∧
  (∀ (k : Nat) (s : State), s.stokerRuns = true → (s.slot k).state = .admitting → (s.slot k).deadline ≤ s.sys.now → 
    exec (.admissionTimeout k) s = .next (s.enterTeardown k .admitTimeout)) ∧
  (∀ (k : Nat) (s : State), (s.slot k).state ≠ .admitting → 
    exec (.admissionTimeout k) s = .next s) ∧
  (∀ (k : Nat) (s : State), s.stokerRuns = true → (s.slot k).state = .quarantined → (s.slot k).deadline ≤ s.sys.now → 
    exec (.quarantineTimeout k) s = .next (s.enterTeardown k .quarantineTimeout)) ∧
  (∀ (k : Nat) (s : State), (s.slot k).state ≠ .quarantined → 
    exec (.quarantineTimeout k) s = .next s) ∧
  (∀ (k : Nat) (s : State), s.stokerRuns = true → (s.slot k).state = .teardown → 
    exec (.teardownAdvance k) s = .next ((s.tdOnce k).wakeSlots)) ∧
  (∀ (k : Nat) (s : State), (s.slot k).state ≠ .teardown → 
    exec (.teardownAdvance k) s = .next s) ∧
  (∀ (s : State), s.stokerRuns = true → s.dom.stmtPending ≠ [] → s.dom.stmtBy ≤ s.sys.now → 
    exec .memberStatementTimeout s = .next s.finishComposite) ∧
  (∀ (s : State), s.dom.stmtPending = [] → 
    exec .memberStatementTimeout s = .next s)

/-- Of a request that the block serves, over a page of the kernel driver (or of the slice's own page for the level); each
also drops the requester's held low half (R11). QM_SLCFG of a FREE slice whose TDI is unlocked: the value with its
reserved bits zero; of any other: REFUSE 1 (BAD_STATE). ENABLE of a FREE slice with enableRefusal 0: ACTIVE, and no longer
marked as paged since; with enableRefusal n + 1: REFUSE n + 1; of a slice that is not FREE: REFUSE 1. DISABLE of an ACTIVE
slice: its reset towards FREE starts; of a RESETTING one: that reset leads to FREE; of a FREE one: nothing. QM_SL_LEVEL of
a slice without a queue: 0 for a low nibble of 0 and otherwise 1; of a slice with a queue: nothing. -/
def Obligations.SliceConfigureEnableDisable : Prop :=
  (∀ (r : Req) (v : BitVec 64) (s : State), s.served r 0x100008 = true → globalPage r = true → (s.slice s.qm.slsel).state = .free → (s.slice s.qm.slsel).tdi = .unlocked → 
    exec (.qmSlcfgWrite r v) s = .next ((s.dropHeld r).setSlice s.qm.slsel { s.slice s.qm.slsel with cfg := v &&& 0x7FFFFFFFFFFFF })) ∧
  (∀ (r : Req) (v : BitVec 64) (s : State), s.served r 0x100008 = true → globalPage r = true → (s.slice s.qm.slsel).state ≠ .free ∨ (s.slice s.qm.slsel).tdi ≠ .unlocked → 
    exec (.qmSlcfgWrite r v) s = .next ((s.dropHeld r).setSlice s.qm.slsel { s.slice s.qm.slsel with refuse := 1 })) ∧
  (∀ (r : Req) (s : State), s.served r 0x100010 = true → globalPage r = true → (s.slice s.qm.slsel).state = .free → s.enableRefusal s.qm.slsel = 0 → 
    exec (.sliceEnable r) s = .next ((s.dropHeld r).modSlice s.qm.slsel fun l => { l with state := .active, pagedSince := false })) ∧
  (∀ (r : Req) (n : Nat) (s : State), s.served r 0x100010 = true → globalPage r = true → (s.slice s.qm.slsel).state = .free → s.enableRefusal s.qm.slsel = n + 1 → 
    exec (.sliceEnable r) s = .next ((s.dropHeld r).modSlice s.qm.slsel fun l => { l with refuse := n + 1 })) ∧
  (∀ (r : Req) (s : State), s.served r 0x100010 = true → globalPage r = true → (s.slice s.qm.slsel).state ≠ .free → 
    exec (.sliceEnable r) s = .next ((s.dropHeld r).modSlice s.qm.slsel fun l => { l with refuse := 1 })) ∧
  (∀ (r : Req) (s : State), s.served r 0x100010 = true → globalPage r = true → (s.slice s.qm.slsel).state = .active → 
    exec (.sliceDisable r) s = .next ((s.dropHeld r).startReset s.qm.slsel true)) ∧
  (∀ (r : Req) (s : State), s.served r 0x100010 = true → globalPage r = true → (s.slice s.qm.slsel).state = .resetting → 
    exec (.sliceDisable r) s = .next ((s.dropHeld r).modSlice s.qm.slsel fun l => { l with toFree := true })) ∧
  (∀ (r : Req) (s : State), s.served r 0x100010 = true → globalPage r = true → (s.slice s.qm.slsel).state = .free → 
    exec (.sliceDisable r) s = .next (s.dropHeld r)) ∧
  (∀ (r : Req) (slice : Nat) (v : BitVec 32) (s : State), s.served r (slicePage slice + 8) = true → s.pageWrite slice r = true → s.queuesOf slice = [] → 
    exec (.qmSlLevelWrite r slice v) s = .next ((s.dropHeld r).modSlice slice fun l => { l with level := if bits v.toNat 3 0 = 0 then 0 else 1 })) ∧
  (∀ (r : Req) (slice : Nat) (v : BitVec 32) (s : State), s.served r (slicePage slice + 8) = true → s.pageWrite slice r = true → s.queuesOf slice ≠ [] → 
    exec (.qmSlLevelWrite r slice v) s = .next (s.dropHeld r))

/-- Of a request that the block serves, over the slice's own page, after a complete action's BUSY has fallen
(settleRstat). With no action busy: REVOKE_ALL starts action 1 and revokes every object (revokeAll), and SQUASH_ALL starts
action 2 with the number of commands it ends and squashes the slice. While one is busy neither does anything. RESET of an
ACTIVE slice, unless the busy action is a RESET: action 3 and the start of the reset towards ACTIVE. SLICE_RESET_ADVANCE
takes the reset as far as it goes (advanceReset, then settleRstat), where advanceReset leaves a slice that is not
RESETTING as it is, and takes one at step 1 with every queue stopped through step 2, and on through step 4 if nothing is
in flight and no window is closing. -/
def Obligations.SliceActions : Prop :=
  (∀ (r : Req) (slice : Nat) (s : State), s.served r (slicePage slice + 0x10) = true → s.pageWrite slice r = true → (((s.dropHeld r).settleRstat slice).slice slice).rbusy = false → 
    exec (.revokeAll r slice) s = .next (let u := (s.dropHeld r).settleRstat slice; ((u.startAction slice 1 0).revokeAll slice).kidSettle.settleRstat slice)) ∧
  (∀ (r : Req) (slice : Nat) (s : State), s.served r (slicePage slice + 0x10) = true → s.pageWrite slice r = true → (((s.dropHeld r).settleRstat slice).slice slice).rbusy = true → 
    exec (.revokeAll r slice) s = .next ((s.dropHeld r).settleRstat slice)) ∧
  (∀ (r : Req) (slice : Nat) (s : State), s.served r (slicePage slice + 0x10) = true → s.pageWrite slice r = true → (((s.dropHeld r).settleRstat slice).slice slice).rbusy = false → 
    exec (.squashAll r slice) s = .next (let u := (s.dropHeld r).settleRstat slice; ((u.startAction slice 2 (u.squashable slice)).squashSlice slice dtBySlice 0).settleRstat slice)) ∧
  (∀ (r : Req) (slice : Nat) (s : State), s.served r (slicePage slice + 0x10) = true → s.pageWrite slice r = true → (((s.dropHeld r).settleRstat slice).slice slice).rbusy = true → 
    exec (.squashAll r slice) s = .next ((s.dropHeld r).settleRstat slice)) ∧
  (∀ (r : Req) (slice : Nat) (s : State), s.served r (slicePage slice + 0x10) = true → s.pageWrite slice r = true → (((s.dropHeld r).settleRstat slice).slice slice).rbusy = false ∨ (((s.dropHeld r).settleRstat slice).slice slice).rop ≠ 3 → (((s.dropHeld r).settleRstat slice).slice slice).state = .active → 
    exec (.sliceReset r slice) s = .next (let u := (s.dropHeld r).settleRstat slice; ((u.startAction slice 3 (u.squashable slice)).startReset slice false).settleRstat slice)) ∧
  (∀ (slice : Nat) (s : State), 
    exec (.sliceResetAdvance slice) s = .next ((s.advanceReset slice).settleRstat slice)) ∧
  (∀ (i : Nat) (s : State), (s.slice i).state ≠ .resetting → s.advanceReset i = s) ∧
  (∀ (i : Nat) (s : State), (s.slice i).state = .resetting → (s.slice i).rstStep = 1 → s.allStopped i = true →
    s.advanceReset i = if (s.resetStep2 i).inflight i = 0 ∧ (s.resetStep2 i).winsClosing i = false then (s.resetStep2 i).resetStep4 i else s.resetStep2 i)

/-- Of a request served over the slice's own page (its held low half is dropped, R11), for the queue that QM_QSEL names.
ENABLE, the slice not RESETTING and queueRefusal 0: the queue has the values of its ring, completion and parameter
registers, state ENABLED, next sequence number 1 and all else as in a new queue, bound if the request came over the
slice's interface; each of its ring objects is counted in flight once. With queueRefusal n + 1: REFUSE n + 1, and with the
slice RESETTING: REFUSE 1, nothing else. The slice not RESETTING and with REFUSE then 0: STOP_DRAIN of an ENABLED queue
makes it STOPPING without squash at its present tail and settles it; STOP_SQUASH of an ENABLED or ERROR queue, or of one
STOPPING without squash, squashes it; RESUME of a STOPPED queue, the slice unbound or its slot not QUARANTINED, makes it
ENABLED and judges the stored tail; DISABLE of a STOPPED queue disables it. In every other state of the queue, and while
the slice is RESETTING, STOP_DRAIN, STOP_SQUASH and DISABLE only report REFUSE 1, as RESUME does of a queue that is not
STOPPED or of a bound slice whose slot is QUARANTINED (its slice having no completed action to settle). -/
def Obligations.QueueEnableAndStates : Prop :=
  (∀ (r : Req) (slice : Nat) (s : State), s.served r (slicePage slice + 0x40) = true → s.pageWrite slice r = true → (s.slice slice).state ≠ .resetting → s.queueRefusal slice (s.slice slice).qsel r = 0 → ((s.slice slice).qparam.get 0 (s.slice slice).qsel).getLsbD 8 = false → ((s.slice slice).qparam.get 0 (s.slice slice).qsel).getLsbD 9 = false → 
    exec (.queueEnable r slice) s = .next ((s.dropHeld r).setQueue slice (s.slice slice).qsel { ring := (s.slice slice).qring.get 0 (s.slice slice).qsel, cpl := (s.slice slice).qcpl.get 0 (s.slice slice).qsel, param := (s.slice slice).qparam.get 0 (s.slice slice).qsel, state := .enabled, nextSeq := 1, bound := s.overIface slice r })) ∧
  (∀ (r : Req) (slice : Nat) (s : State), s.served r (slicePage slice + 0x40) = true → s.pageWrite slice r = true → (s.slice slice).state ≠ .resetting → s.queueRefusal slice (s.slice slice).qsel r = 0 → 
    exec (.queueEnable r slice) s = .next (let x : Queue := { ring := (s.slice slice).qring.get 0 (s.slice slice).qsel, cpl := (s.slice slice).qcpl.get 0 (s.slice slice).qsel, param := (s.slice slice).qparam.get 0 (s.slice slice).qsel, state := .enabled, nextSeq := 1, bound := s.overIface slice r }
      let objs := ((if x.ringObj then [hIndex (fld x.ring 63 32)] else []) ++ if x.cplObj then [hIndex (fld x.cpl 63 32)] else []).eraseDups
      objs.foldl (fun t e => t.objHold slice e) ((s.dropHeld r).setQueue slice (s.slice slice).qsel { x with ringObjs := objs }))) ∧
  (∀ (r : Req) (slice n : Nat) (s : State), s.served r (slicePage slice + 0x40) = true → s.pageWrite slice r = true → (s.slice slice).state ≠ .resetting → s.queueRefusal slice (s.slice slice).qsel r = n + 1 → 
    exec (.queueEnable r slice) s = .next ((s.dropHeld r).qrefuse slice (s.slice slice).qsel (n + 1))) ∧
  (∀ (r : Req) (slice : Nat) (s : State), s.served r (slicePage slice + 0x40) = true → s.pageWrite slice r = true → (s.slice slice).state = .resetting → 
    exec (.queueEnable r slice) s = .next ((s.dropHeld r).qrefuse slice (s.slice slice).qsel 1)) ∧
  (∀ (r : Req) (slice : Nat) (s : State), s.served r (slicePage slice + 0x40) = true → s.pageWrite slice r = true → (s.slice slice).state ≠ .resetting → (s.queue slice (s.slice slice).qsel).state = .enabled → 
    exec (.stopDrain r slice) s = .next (((s.dropHeld r).qrefuse slice (s.slice slice).qsel 0).modQueue slice (s.slice slice).qsel fun x => Queue.settle { x with state := .stopping, squash := false, stopTail := x.tail })) ∧
  (∀ (r : Req) (slice : Nat) (s : State), s.served r (slicePage slice + 0x40) = true → s.pageWrite slice r = true → (s.queue slice (s.slice slice).qsel).state ≠ .enabled → 
    exec (.stopDrain r slice) s = .next ((s.dropHeld r).qrefuse slice (s.slice slice).qsel 1)) ∧
  (∀ (r : Req) (slice : Nat) (s : State), s.served r (slicePage slice + 0x40) = true → s.pageWrite slice r = true → (s.slice slice).state ≠ .resetting → (s.queue slice (s.slice slice).qsel).state = .enabled ∨ (s.queue slice (s.slice slice).qsel).state = .error ∨ ((s.queue slice (s.slice slice).qsel).state = .stopping ∧ (s.queue slice (s.slice slice).qsel).squash = false) → 
    exec (.stopSquash r slice) s = .next ((((s.dropHeld r).qrefuse slice (s.slice slice).qsel 0).squashQueue slice (s.slice slice).qsel dtByStop 0).settleSync)) ∧
  (∀ (r : Req) (slice : Nat) (s : State), s.served r (slicePage slice + 0x40) = true → s.pageWrite slice r = true → (s.queue slice (s.slice slice).qsel).state = .disabled ∨ (s.queue slice (s.slice slice).qsel).state = .stopped ∨ ((s.queue slice (s.slice slice).qsel).state = .stopping ∧ (s.queue slice (s.slice slice).qsel).squash = true) → 
    exec (.stopSquash r slice) s = .next ((s.dropHeld r).qrefuse slice (s.slice slice).qsel 1)) ∧
  (∀ (r : Req) (slice : Nat) (s : State), s.served r (slicePage slice + 0x40) = true → s.pageWrite slice r = true → ((s.dropHeld r).settleRstat slice) = s.dropHeld r → (s.slice slice).state ≠ .resetting → (s.queue slice (s.slice slice).qsel).state = .stopped → (s.slice slice).bound = false ∨ (s.slot (s.slice slice).dslot).state ≠ .quarantined → 
    exec (.queueResume r slice) s = .next (((s.dropHeld r).qrefuse slice (s.slice slice).qsel 0).modQueue slice (s.slice slice).qsel fun x => Queue.judgeTail { x with state := .enabled })) ∧
  (∀ (r : Req) (slice : Nat) (s : State), s.served r (slicePage slice + 0x40) = true → s.pageWrite slice r = true → ((s.dropHeld r).settleRstat slice) = s.dropHeld r → (s.queue slice (s.slice slice).qsel).state ≠ .stopped ∨ ((s.slice slice).bound = true ∧ (s.slot (s.slice slice).dslot).state = .quarantined) → 
    exec (.queueResume r slice) s = .next ((s.dropHeld r).qrefuse slice (s.slice slice).qsel 1)) ∧
  (∀ (r : Req) (slice : Nat) (s : State), s.served r (slicePage slice + 0x40) = true → s.pageWrite slice r = true → (s.slice slice).state ≠ .resetting → (s.queue slice (s.slice slice).qsel).state = .stopped → 
    exec (.queueDisable r slice) s = .next (((((s.dropHeld r).qrefuse slice (s.slice slice).qsel 0).disableQueue slice (s.slice slice).qsel).kidSettle).settleRstat slice)) ∧
  (∀ (r : Req) (slice : Nat) (s : State), s.served r (slicePage slice + 0x40) = true → s.pageWrite slice r = true → (s.queue slice (s.slice slice).qsel).state ≠ .stopped → 
    exec (.queueDisable r slice) s = .next ((s.dropHeld r).qrefuse slice (s.slice slice).qsel 1)) ∧
  (∀ (r : Req) (slice : Nat) (s : State), s.served r (slicePage slice + 0x40) = true → s.pageWrite slice r = true → (s.slice slice).state = .resetting → 
    exec (.stopDrain r slice) s = .next ((s.dropHeld r).qrefuse slice (s.slice slice).qsel 1)) ∧
  (∀ (r : Req) (slice : Nat) (s : State), s.served r (slicePage slice + 0x40) = true → s.pageWrite slice r = true → (s.slice slice).state = .resetting → 
    exec (.stopSquash r slice) s = .next ((s.dropHeld r).qrefuse slice (s.slice slice).qsel 1)) ∧
  (∀ (r : Req) (slice : Nat) (s : State), s.served r (slicePage slice + 0x40) = true → s.pageWrite slice r = true → (s.slice slice).state = .resetting → 
    exec (.queueDisable r slice) s = .next ((s.dropHeld r).qrefuse slice (s.slice slice).qsel 1))

/-- Of a doorbell write that the block serves over the slice's page (the held low half is dropped, R11). TAIL of a queue
neither ENABLED nor DISABLED: stored. Of an ENABLED queue: stored if it lies at most the ring's entry count from HEAD
modulo 2^32; otherwise stored with the queue in ERROR and cause 1 (TAIL_RANGE). Of a DISABLED queue: nothing. Completion
head: stored if CPL_TAIL minus it modulo 2^32 is at most the completion ring's entry count; otherwise nothing. A queue in
ERROR, STOPPED, DISABLED or STOPPING with squash does not fetch (Queue.fetches is false). -/
def Obligations.DoorbellTailAndHead : Prop :=
  (∀ (r : Req) (queue : Nat) (v : BitVec 32) (i q : Nat) (s : State), s.doorbell queue = some (i, q) → s.served r (0x1000000 + queue * 0x40 + 0) = true → s.pageWrite i r = true → (s.queue i q).state ≠ .disabled → (s.queue i q).state ≠ .enabled → 
    exec (.qmDbTailWrite r queue v) s = .next ((s.dropHeld r).setQueue i q { s.queue i q with tail := v })) ∧
  (∀ (r : Req) (queue : Nat) (v : BitVec 32) (i q : Nat) (s : State), s.doorbell queue = some (i, q) → s.served r (0x1000000 + queue * 0x40 + 0) = true → s.pageWrite i r = true → (s.queue i q).state = .enabled → (v - (s.queue i q).head).toNat ≤ 2 ^ (fld (s.queue i q).param 3 0 + 6) → 
    exec (.qmDbTailWrite r queue v) s = .next ((s.dropHeld r).setQueue i q { s.queue i q with tail := v })) ∧
  (∀ (r : Req) (queue : Nat) (v : BitVec 32) (i q : Nat) (s : State), s.doorbell queue = some (i, q) → s.served r (0x1000000 + queue * 0x40 + 0) = true → s.pageWrite i r = true → (s.queue i q).state = .enabled → 2 ^ (fld (s.queue i q).param 3 0 + 6) < (v - (s.queue i q).head).toNat → 
    exec (.qmDbTailWrite r queue v) s = .next ((s.dropHeld r).setQueue i q { s.queue i q with tail := v, state := .error, cause := 1 })) ∧
  (∀ (r : Req) (queue : Nat) (v : BitVec 32) (i q : Nat) (s : State), s.doorbell queue = some (i, q) → s.served r (0x1000000 + queue * 0x40 + 0) = true → s.pageWrite i r = true → (s.queue i q).state = .disabled → 
    exec (.qmDbTailWrite r queue v) s = .next ((s.dropHeld r).setQueue i q (s.queue i q))) ∧
  (∀ (r : Req) (queue : Nat) (v : BitVec 32) (i q : Nat) (s : State), s.doorbell queue = some (i, q) → s.served r (0x1000000 + queue * 0x40 + 0x10) = true → s.pageWrite i r = true → ((s.queue i q).cplTail - v).toNat ≤ 2 ^ (fld (s.queue i q).param 7 4 + 6) → 
    exec (.qmDbCplHeadWrite r queue v) s = .next ((s.dropHeld r).setQueue i q { s.queue i q with cplHead := v })) ∧
  (∀ (r : Req) (queue : Nat) (v : BitVec 32) (i q : Nat) (s : State), s.doorbell queue = some (i, q) → s.served r (0x1000000 + queue * 0x40 + 0x10) = true → s.pageWrite i r = true → 2 ^ (fld (s.queue i q).param 7 4 + 6) < ((s.queue i q).cplTail - v).toNat → 
    exec (.qmDbCplHeadWrite r queue v) s = .next ((s.dropHeld r).setQueue i q (s.queue i q))) ∧
  (∀ x : Queue, x.state = .error ∨ x.state = .stopped ∨ x.state = .disabled ∨ (x.state = .stopping ∧ x.squash = true) → x.fetches = false)

/-- COMMAND_FETCH of a queue that fetches, unfenced, its contexts not zeroed, CCLK running and, for a ring that needs the
host, the slice allowed to reach it: with fewer than 2^48 - 1 commands numbered and the words that ringWords reads, they
are appended as the command of the next sequence number, HEAD and the next number go up by one, and the head commands
advance; when ringWords reads none: fetch fault 2. A queue that does not fetch: nothing. COMMAND_START, after the head
commands have advanced: the command that startable names is started, with the round-robin order moved on, and the head
advances again, unless outranked holds or there is none. QM_ABORT served over the slice's page reports abortResult of the
queue and of QM_ABORT_SEQ in ABORT_STAT, and if that is 2 (ACCEPTED) ends the command with cause ABORT. abortResult is 4
(UNKNOWN) for number 0, a number not yet given out or a DISABLED queue, and otherwise 3 (LATE) for one no longer in the
queue. -/
def Obligations.FetchStartAbort : Prop :=
  (∀ (slice queue : Nat) (w : Option (List (BitVec 64))) (l : List (BitVec 64)) (s₁ : State) (s : State), (s.queue slice queue).fetches = true → (s.fenced || s.ctxZeroed slice) = false → s.clkRuns .cclk = true → ((!(s.queue slice queue).ringObj || (s.obj slice (hIndex (fld (s.queue slice queue).ring 63 32))).kind = 2) && !s.hostMay slice) = false → (s.queue slice queue).nextSeq < 2 ^ 48 - 1 → s.ringWords slice (s.queue slice queue) w = (some l, s₁) → 
    ∃ t, exec (.commandFetch slice queue w) s = .next t ∧ t = ((s₁.progress unQm).modQueue slice queue fun x => { x with cmds := x.cmds ++ [{ seq := (s.queue slice queue).nextSeq, words := (List.range 8).map fun k => l.getD k 0, fetchedAt := s₁.sys.now }], head := x.head + 1, nextSeq := x.nextSeq + 1 }).advance slice queue) ∧
  (∀ (slice queue : Nat) (w : Option (List (BitVec 64))) (s₁ : State) (s : State), (s.queue slice queue).fetches = true → (s.fenced || s.ctxZeroed slice) = false → s.clkRuns .cclk = true → ((!(s.queue slice queue).ringObj || (s.obj slice (hIndex (fld (s.queue slice queue).ring 63 32))).kind = 2) && !s.hostMay slice) = false → (s.queue slice queue).nextSeq < 2 ^ 48 → s.ringWords slice (s.queue slice queue) w = (none, s₁) → 
    exec (.commandFetch slice queue w) s = .next (s₁.modQueue slice queue fun x => x.faulted 2)) ∧
  (∀ (slice queue : Nat) (w : Option (List (BitVec 64))) (s : State), (s.queue slice queue).fetches = false → 
    exec (.commandFetch slice queue w) s = .next s) ∧
  (∀ (slice queue : Nat) (c : Cmd) (s : State), (s.advance slice queue).startable slice queue = some c → (s.advance slice queue).outranked slice queue = false → 
    exec (.commandStart slice queue) s = .next ((((s.advance slice queue).rrMove slice queue).startCmd slice queue c).advance slice queue)) ∧
  (∀ (slice queue : Nat) (c : Cmd) (s : State), (s.advance slice queue).startable slice queue = some c → (s.advance slice queue).outranked slice queue = true → 
    exec (.commandStart slice queue) s = .next (s.advance slice queue)) ∧
  (∀ (slice queue : Nat) (s : State), (s.advance slice queue).startable slice queue = none → 
    exec (.commandStart slice queue) s = .next (s.advance slice queue)) ∧
  (∀ (r : Req) (slice : Nat) (v : BitVec 32) (c : Cmd) (s : State), s.served r (slicePage slice + 0x58) = true → s.pageWrite slice r = true → s.abortResult slice (bits v.toNat 17 0) (s.slice slice).abortSeq = 2 → ((s.dropHeld r).modSlice slice fun l => { l with abortStat := 2 }).cmd? slice (bits v.toNat 17 0) (s.slice slice).abortSeq = some c → 
    exec (.qmAbort r slice v) s = .next ((((((s.dropHeld r).modSlice slice fun l => { l with abortStat := 2 }).stopCmd slice (bits v.toNat 17 0) c 1 dtByAbort).settleSync).advance slice (bits v.toNat 17 0)))) ∧
  (∀ (r : Req) (slice : Nat) (v : BitVec 32) (s : State), s.served r (slicePage slice + 0x58) = true → s.pageWrite slice r = true → s.abortResult slice (bits v.toNat 17 0) (s.slice slice).abortSeq ≠ 2 → 
    exec (.qmAbort r slice v) s = .next ((s.dropHeld r).modSlice slice fun l => { l with abortStat := s.abortResult slice (bits v.toNat 17 0) (s.slice slice).abortSeq })) ∧
  (∀ (i q seq : Nat) (s : State), (seq = 0 ∨ (s.queue i q).nextSeq ≤ seq ∨ (s.queue i q).state = .disabled) → s.abortResult i q seq = 4) ∧
  (∀ (i q seq : Nat) (s : State), seq ≠ 0 → seq < (s.queue i q).nextSeq → (s.queue i q).state ≠ .disabled → s.cmd? i q seq = none →
    s.abortResult i q seq = 3)

/-- COMMAND_COMMIT of a queue whose first command has finished, whose completion ring has room and whose contexts are not
zeroed; a PLAN_RUN first has its statistics block written (commitRun), and waits when that answers none. When cplWrite of
the command's record wrote at once: the record is emitted and the command committed. When its translation is awaited:
nothing is committed. When the write faulted: completion fault 3, and the command is committed. In each case the slots and
a fence that wait go on (wakeSlots, fenceAdvance), and that is all that happens while the first command has not finished,
the ring is full, the contexts are zeroed or the queue has no command. fenceAdvance does nothing outside the fencing
phase. -/
def Obligations.CommandsCommitInOrder : Prop :=
  (∀ (slice queue : Nat) (c d : Cmd) (rest : List Cmd) (u s₀ : State) (s₁ : State) (s : State), (s.queue slice queue).cmds = c :: rest → c.stage = .finished → (s.queue slice queue).cplRoom = true → s.ctxZeroed slice = false → (if c.opcode = 0x31 then s.commitRun slice queue c else (some s, s)) = (some s₀, u) → s₀.cmd? slice queue c.seq = some d → s₀.cplWrite slice (s.queue slice queue) ((s₀.commitForm d).record (s.queue slice queue).ctxnum s₀.now) = (false, false, s₁) → 
    exec (.commandCommit slice queue) s = .next (((s₁.emit (.record slice queue ((s₀.commitForm d).record (s.queue slice queue).ctxnum s₀.now))).committed slice queue (s₀.commitForm d)).wakeSlots.fenceAdvance)) ∧
  (∀ (slice queue : Nat) (c d : Cmd) (rest : List Cmd) (u s₀ : State) (s₁ : State) (f : Bool) (s : State), (s.queue slice queue).cmds = c :: rest → c.stage = .finished → (s.queue slice queue).cplRoom = true → s.ctxZeroed slice = false → (if c.opcode = 0x31 then s.commitRun slice queue c else (some s, s)) = (some s₀, u) → s₀.cmd? slice queue c.seq = some d → s₀.cplWrite slice (s.queue slice queue) ((s₀.commitForm d).record (s.queue slice queue).ctxnum s₀.now) = (true, f, s₁) → 
    exec (.commandCommit slice queue) s = .next s₁.wakeSlots.fenceAdvance) ∧
  (∀ (slice queue : Nat) (c d : Cmd) (rest : List Cmd) (u s₀ : State) (s₁ : State) (s : State), (s.queue slice queue).cmds = c :: rest → c.stage = .finished → (s.queue slice queue).cplRoom = true → s.ctxZeroed slice = false → (if c.opcode = 0x31 then s.commitRun slice queue c else (some s, s)) = (some s₀, u) → s₀.cmd? slice queue c.seq = some d → s₀.cplWrite slice (s.queue slice queue) ((s₀.commitForm d).record (s.queue slice queue).ctxnum s₀.now) = (false, true, s₁) → 
    exec (.commandCommit slice queue) s = .next (((s₁.modQueue slice queue fun x => { x.faulted 3 with xlatBad := 0 }).committed slice queue (s₀.commitForm d)).wakeSlots.fenceAdvance)) ∧
  (∀ (slice queue : Nat) (c : Cmd) (rest : List Cmd) (s₁ : State) (s : State), (s.queue slice queue).cmds = c :: rest → c.stage = .finished → (s.queue slice queue).cplRoom = true → s.ctxZeroed slice = false → c.opcode = 0x31 → s.commitRun slice queue c = (none, s₁) → 
    exec (.commandCommit slice queue) s = .next s₁.wakeSlots.fenceAdvance) ∧
  (∀ (slice queue : Nat) (c : Cmd) (rest : List Cmd) (s : State), (s.queue slice queue).cmds = c :: rest → c.stage ≠ .finished ∨ (s.queue slice queue).cplRoom = false ∨ s.ctxZeroed slice = true → 
    exec (.commandCommit slice queue) s = .next s.wakeSlots.fenceAdvance) ∧
  (∀ (slice queue : Nat) (s : State), (s.queue slice queue).cmds = [] → 
    exec (.commandCommit slice queue) s = .next s.wakeSlots.fenceAdvance) ∧
  (∀ s : State, s.rst.phase ≠ .fencing → s.fenceAdvance = s)

/-- Of a command at work in its unit. OBJ_DEFINE with a free entry e (freeObjEntry): entry e is VALID with its generation
kept and kind, base, size, KID and rights from the operand fields, and the command ends well with e's handle as result;
with none: it fails NO_OBJ_SLOT. OBJ_FREE of a handle that passes chkObjFree: freeObj of the entry, and the command ends
well; otherwise it fails with that check's status and detail. TIME_READ ends well with the powered nanoseconds as result;
SYNC_OP ends well. PHASE_HINT with hint other than 3: the hint of the slice's slot, or of 64 for an unbound slice, is the
operand until 100 ms from now, in place of an earlier one, and the command ends well; hint 3 fails BAD_OPERAND. A command
that is not at work leaves the state as it is, and a failed one is left finished with its status, detail and DONE. -/
def Obligations.ObjectCommands : Prop :=
  (∀ (i q seq : Nat) (c : Cmd) (e : Nat) (s : State), s.works i q seq 0x01 c = true → s.freeObjEntry i = some e → 
    ∃ t, exec (.objDefine i q seq) s = .next t ∧ t.obj i e = { state := .valid, gen := (s.obj i e).gen, kind := c.f 1 49 48, base := c.f 1 47 0, size := c.f 2 39 0, kid := c.f 2 51 40, rd := bit (c.f 1 52 50) 0, wr := bit (c.f 1 52 50) 1, at_ := bit (c.f 1 52 50) 2 } ∧
      t.cmd? i q seq = some (c.finishOk 0 (BitVec.ofNat 64 (mkHandle e (s.obj i e).gen)))) ∧
  (∀ (i q seq : Nat) (c : Cmd) (s : State), s.works i q seq 0x01 c = true → s.freeObjEntry i = none → 
    exec (.objDefine i q seq) s = .next (s.failCmd i q seq stNoObjSlot dtNone 0)) ∧
  (∀ (i q seq : Nat) (c : Cmd) (d : Nat) (s : State), s.works i q seq 0x02 c = true → s.chkObjFree i c = (0, d) → 
    exec (.objFree i q seq) s = .next (((s.freeObj i (hIndex (c.f 1 31 0))).endCmd i q seq 0))) ∧
  (∀ (i q seq : Nat) (c : Cmd) (s : State), s.works i q seq 0x02 c = true → (s.chkObjFree i c).1 ≠ 0 → 
    exec (.objFree i q seq) s = .next (s.failCmd i q seq (s.chkObjFree i c).1 (s.chkObjFree i c).2 0)) ∧
  (∀ (i q seq : Nat) (c : Cmd) (s : State), s.works i q seq 0x03 c = true → 
    ∃ t, exec (.timeRead i q seq) s = .next t ∧ t.cmd? i q seq = some (c.finishOk 0 (BitVec.ofNat 64 s.sys.now))) ∧
  (∀ (i q seq : Nat) (c : Cmd) (s : State), s.works i q seq 0x45 c = true → 
    ∃ t, exec (.syncOp i q seq) s = .next t ∧ t.cmd? i q seq = some (c.finishOk 0 0)) ∧
  (∀ (i q seq : Nat) (c : Cmd) (s : State), s.works i q seq 0x70 c = true → c.f 1 1 0 ≠ 3 → 
    ∃ t, exec (.phaseHint i q seq) s = .next t ∧ t.pwr.hints = ((s.domainOf i).getD 64, c.f 1 1 0, s.sys.now + 100 * 1000000) :: (s.pwr.hints.filter fun h => h.1 ≠ (s.domainOf i).getD 64) ∧ t.cmd? i q seq = some (c.finishOk 0 0)) ∧
  (∀ (i q seq : Nat) (c : Cmd) (s : State), s.works i q seq 0x70 c = true → c.f 1 1 0 = 3 → 
    exec (.phaseHint i q seq) s = .next (s.failCmd i q seq stBadOperand dtNone 0)) ∧
  (∀ (i q seq op : Nat) (f : Cmd → State → State) (s : State), (∀ c, s.works i q seq op c = false) → s.unit i q seq op f = s) ∧
  (∀ (i q seq st dt d : Nat) (c : Cmd) (s : State), s.cmd? i q seq = some c → c.runs = true →
    (s.failCmd i q seq st dt d).cmd? i q seq = some { c.finish st dt with done := d })

/-- Every slice's preferred point is 0 after reset. OPP_REQUEST at work in its unit leaves the least of 7 and its operand
as its slice's preferred point, ends well, and changes no other slice's. With pacing not acting on it (R492), the
unlimited point is 5 when no slice has queued or executing commands; otherwise it is the preferred point of some such
slice, and no such slice prefers a lower one. -/
def Obligations.PreferredPointOfASlice : Prop :=
  (∀ i : Nat, (State.reset.slice i).prefOpp = 0) ∧
  (∀ (i q seq : Nat) (c : Cmd) (s : State), s.works i q seq 0x71 c = true → 
    ∃ t, exec (.oppRequest i q seq) s = .next t ∧ (t.slice i).prefOpp = min 7 (c.f 1 3 0) ∧ (∀ j, j ≠ i → t.slice j = s.slice j) ∧ t.cmd? i q seq = some (c.finishOk 0 0)) ∧
  (∀ s : State, s.pacing < 50 ∨ s.prevailingHint ≠ 1 → (∀ e ∈ s.qm.slices.cells, ∀ x ∈ e.2.queues.cells, x.2.cmds = []) → s.hubPoint = 5) ∧
  (∀ s : State, s.pacing < 50 ∨ s.prevailingHint ≠ 1 → (∃ e ∈ s.qm.slices.cells, ∃ x ∈ e.2.queues.cells, x.2.cmds ≠ []) →
    (∃ e ∈ s.qm.slices.cells, (∃ x ∈ e.2.queues.cells, x.2.cmds ≠ []) ∧ s.hubPoint = e.2.prefOpp) ∧
    ∀ e ∈ s.qm.slices.cells, (∃ x ∈ e.2.queues.cells, x.2.cmds ≠ []) → s.hubPoint ≤ e.2.prefOpp)

/-- COPY and FILL at work run copyRun or fillRun with fuel for every byte, and end well with DONE the length when the
length is done already, or when the next piece reaches its end and the host holds nothing up. With the length not yet
done: a piece of a copy reads copyPiece bytes from the source object at the offset reached, stores them to the destination
object at its own, counts them and goes on at the next offset; it waits when the read or the store waits, and fails with
the operand's detail (A for the source, B for the destination) and the bytes done when one of them fails. A piece of a
fill stores the pattern's bytes up to the end of the line or host page or of the length, counts them and goes on; it waits
when the store waits and fails with detail A and the bytes done when it fails. -/
def Obligations.CopyAndFill : Prop :=
  (∀ (i q seq : Nat) (c : Cmd) (s : State), s.works i q seq 0x10 c = true → 
    exec (.copy i q seq) s = .next (State.copyRun i q seq (c.copyLen + 1) s)) ∧
  (∀ (i q seq : Nat) (c : Cmd) (s : State), s.works i q seq 0x11 c = true → 
    exec (.fill i q seq) s = .next (State.fillRun i q seq (c.fillLen + 1) s)) ∧
  (∀ (i q seq : Nat) (c : Cmd) (s : State), s.works i q seq 0x10 c = true → c.copyLen ≤ c.progress → 
    exec (.copy i q seq) s = .next (s.endCmd i q seq c.copyLen)) ∧
  (∀ (i q seq : Nat) (c : Cmd) (b : List Byte) (s₁ s₂ : State) (s : State), s.works i q seq 0x10 c = true → c.progress < c.copyLen → s.fetchObj i q seq (hIndex (c.f 1 31 0)) (c.f 2 39 0 + c.progress) (copyPiece (s.obj i (hIndex (c.f 1 31 0))) (s.obj i (hIndex (c.f 1 63 32))) (c.f 2 39 0 + c.progress) (c.f 3 39 0 + c.progress) (c.copyLen - c.progress)) = (.got b, s₁) → s₁.storeObj i q seq (hIndex (c.f 1 63 32)) (c.f 3 39 0 + c.progress) b = (.done, s₂) → s₂.cmd? i q seq = some c → c.progress + copyPiece (s.obj i (hIndex (c.f 1 31 0))) (s.obj i (hIndex (c.f 1 63 32))) (c.f 2 39 0 + c.progress) (c.f 3 39 0 + c.progress) (c.copyLen - c.progress) = c.copyLen → 
    exec (.copy i q seq) s = .next ((s₂.progressCmd i q seq c.copyLen).endCmd i q seq c.copyLen)) ∧
  (∀ (i q seq : Nat) (c : Cmd) (s : State), s.works i q seq 0x11 c = true → c.fillLen ≤ c.progress → 
    exec (.fill i q seq) s = .next (s.endCmd i q seq c.fillLen)) ∧
  (∀ (i q seq : Nat) (c : Cmd) (s₁ : State) (s : State), s.works i q seq 0x11 c = true → c.progress < c.fillLen → s.storeObj i q seq (hIndex (c.f 1 31 0)) (c.f 2 39 0 + c.progress) (patternBytes (c.w 3) c.progress (min (c.fillLen - c.progress) ((s.obj i (hIndex (c.f 1 31 0))).unitLeft (c.f 2 39 0 + c.progress)))) = (.done, s₁) → s₁.cmd? i q seq = some c → c.progress + min (c.fillLen - c.progress) ((s.obj i (hIndex (c.f 1 31 0))).unitLeft (c.f 2 39 0 + c.progress)) = c.fillLen → 
    exec (.fill i q seq) s = .next ((s₁.progressCmd i q seq c.fillLen).endCmd i q seq c.fillLen)) ∧
  (∀ (f i q seq : Nat) (c : Cmd) (s₁ : State) (s : State), s.cmd? i q seq = some c → c.runs = true → c.progress < c.copyLen → s.fetchObj i q seq (hIndex (c.f 1 31 0)) (c.f 2 39 0 + c.progress) (copyPiece (s.obj i (hIndex (c.f 1 31 0))) (s.obj i (hIndex (c.f 1 63 32))) (c.f 2 39 0 + c.progress) (c.f 3 39 0 + c.progress) (c.copyLen - c.progress)) = (.wait, s₁) →
    State.copyRun i q seq (f + 1) s = s₁) ∧
  (∀ (f i q seq : Nat) (c : Cmd) (b : List Byte) (s₁ s₂ : State) (s : State), s.cmd? i q seq = some c → c.runs = true → c.progress < c.copyLen → s.fetchObj i q seq (hIndex (c.f 1 31 0)) (c.f 2 39 0 + c.progress) (copyPiece (s.obj i (hIndex (c.f 1 31 0))) (s.obj i (hIndex (c.f 1 63 32))) (c.f 2 39 0 + c.progress) (c.f 3 39 0 + c.progress) (c.copyLen - c.progress)) = (.got b, s₁) → s₁.storeObj i q seq (hIndex (c.f 1 63 32)) (c.f 3 39 0 + c.progress) b = (.wait, s₂) →
    State.copyRun i q seq (f + 1) s = s₂) ∧
  (∀ (f i q seq : Nat) (c : Cmd) (s₁ : State) (s : State), s.cmd? i q seq = some c → c.runs = true → c.progress < c.fillLen → s.storeObj i q seq (hIndex (c.f 1 31 0)) (c.f 2 39 0 + c.progress) (patternBytes (c.w 3) c.progress (min (c.fillLen - c.progress) ((s.obj i (hIndex (c.f 1 31 0))).unitLeft (c.f 2 39 0 + c.progress)))) = (.wait, s₁) →
    State.fillRun i q seq (f + 1) s = s₁) ∧
  (∀ (f i q seq : Nat) (c : Cmd) (st k : Nat) (s₁ : State) (s : State), s.cmd? i q seq = some c → c.runs = true → c.progress < c.fillLen → s.storeObj i q seq (hIndex (c.f 1 31 0)) (c.f 2 39 0 + c.progress) (patternBytes (c.w 3) c.progress (min (c.fillLen - c.progress) ((s.obj i (hIndex (c.f 1 31 0))).unitLeft (c.f 2 39 0 + c.progress)))) = (.fail st k, s₁) →
    State.fillRun i q seq (f + 1) s = s₁.failCmd i q seq st dtA (c.progress + k)) ∧
  (∀ (f i q seq : Nat) (c : Cmd) (s : State), s.cmd? i q seq = some c → c.runs = true → c.copyLen ≤ c.progress →
    State.copyRun i q seq (f + 1) s = s.endCmd i q seq c.copyLen) ∧
  (∀ (f i q seq : Nat) (c : Cmd) (b : List Byte) (s₁ s₂ : State) (s : State), s.cmd? i q seq = some c → c.runs = true → c.progress < c.copyLen → s.fetchObj i q seq (hIndex (c.f 1 31 0)) (c.f 2 39 0 + c.progress) (copyPiece (s.obj i (hIndex (c.f 1 31 0))) (s.obj i (hIndex (c.f 1 63 32))) (c.f 2 39 0 + c.progress) (c.f 3 39 0 + c.progress) (c.copyLen - c.progress)) = (.got b, s₁) → s₁.storeObj i q seq (hIndex (c.f 1 63 32)) (c.f 3 39 0 + c.progress) b = (.done, s₂) →
    State.copyRun i q seq (f + 1) s = State.copyRun i q seq f (s₂.progressCmd i q seq (c.progress + copyPiece (s.obj i (hIndex (c.f 1 31 0))) (s.obj i (hIndex (c.f 1 63 32))) (c.f 2 39 0 + c.progress) (c.f 3 39 0 + c.progress) (c.copyLen - c.progress)))) ∧
  (∀ (f i q seq : Nat) (c : Cmd) (st k : Nat) (s₁ : State) (s : State), s.cmd? i q seq = some c → c.runs = true → c.progress < c.copyLen → s.fetchObj i q seq (hIndex (c.f 1 31 0)) (c.f 2 39 0 + c.progress) (copyPiece (s.obj i (hIndex (c.f 1 31 0))) (s.obj i (hIndex (c.f 1 63 32))) (c.f 2 39 0 + c.progress) (c.f 3 39 0 + c.progress) (c.copyLen - c.progress)) = (.fail st k, s₁) →
    State.copyRun i q seq (f + 1) s = s₁.failCmd i q seq st dtA (c.progress + k)) ∧
  (∀ (f i q seq : Nat) (c : Cmd) (b : List Byte) (st k : Nat) (s₁ s₂ : State) (s : State), s.cmd? i q seq = some c → c.runs = true → c.progress < c.copyLen → s.fetchObj i q seq (hIndex (c.f 1 31 0)) (c.f 2 39 0 + c.progress) (copyPiece (s.obj i (hIndex (c.f 1 31 0))) (s.obj i (hIndex (c.f 1 63 32))) (c.f 2 39 0 + c.progress) (c.f 3 39 0 + c.progress) (c.copyLen - c.progress)) = (.got b, s₁) → s₁.storeObj i q seq (hIndex (c.f 1 63 32)) (c.f 3 39 0 + c.progress) b = (.fail st k, s₂) →
    State.copyRun i q seq (f + 1) s = s₂.failCmd i q seq st dtB (c.progress + k)) ∧
  (∀ (f i q seq : Nat) (c : Cmd) (s : State), s.cmd? i q seq = some c → c.runs = true → c.fillLen ≤ c.progress →
    State.fillRun i q seq (f + 1) s = s.endCmd i q seq c.fillLen) ∧
  (∀ (f i q seq : Nat) (c : Cmd) (s₁ : State) (s : State), s.cmd? i q seq = some c → c.runs = true → c.progress < c.fillLen → s.storeObj i q seq (hIndex (c.f 1 31 0)) (c.f 2 39 0 + c.progress) (patternBytes (c.w 3) c.progress (min (c.fillLen - c.progress) ((s.obj i (hIndex (c.f 1 31 0))).unitLeft (c.f 2 39 0 + c.progress)))) = (.done, s₁) →
    State.fillRun i q seq (f + 1) s = State.fillRun i q seq f (s₁.progressCmd i q seq (c.progress + min (c.fillLen - c.progress) ((s.obj i (hIndex (c.f 1 31 0))).unitLeft (c.f 2 39 0 + c.progress)))))

/-- RESEAL_ZERO and RESEAL_FILL at work run resealRun for every page of the range, RESEAL_PAGE for one. A command with a
region whose KID is ACTIVE (after useRgn), the range found and its turn among the background jobs: the page at its
progress is resealed under the fixed major, with the pattern for RESEAL_FILL and without for RESEAL_ZERO, progress goes up
by one and DONE by 4,096, and the waiting requests go on (runHbm, settleHbm, wakeHearth); if that was the last page the
command ends well with DONE 4,096 bytes a page, and otherwise resealRun goes on with the next. Not its turn: it waits. A
KID that is not ACTIVE: it fails RGN_KID with detail A and the pages done. So each of the three commands at its last page
completes. Of CIPHER at work. In a mode other than KEY_LOAD, once the source object has given its bytes: ceCompute of the
mode under the key and IV latched at the start gives an output, which is stored in the destination object, and the command
ends well with DONE the length and the mode's result added to RESULT; a mode that gives no output ends so at once. It
waits when the read or the store waits, and fails with the object's status when the read (detail A, nothing done) or the
store (detail B, ceDone) fails. KEY_LOAD, once the 32 bytes have come and the TRNG is good, loads its page with them
(loadPage), stores the encryption of a zero block under them and ends well with DONE the length; one that has loaded its
page already only stores that block under the latched key; one that has not, with the TRNG failed, fails NO_ENTROPY. -/
def Obligations.ResealAndCipherCommands : Prop :=
  (∀ (i q seq : Nat) (c : Cmd) (s : State), s.works i q seq 0x12 c = true → 
    exec (.resealZero i q seq) s = .next (State.resealRun i q seq c.resealPages s)) ∧
  (∀ (i q seq : Nat) (c : Cmd) (s : State), s.works i q seq 0x13 c = true → 
    exec (.resealFill i q seq) s = .next (State.resealRun i q seq c.resealPages s)) ∧
  (∀ (i q seq : Nat) (c : Cmd) (s : State), s.works i q seq 0x13 c = true → 
    exec (.resealPage i q seq) s = .next (State.resealRun i q seq 1 s)) ∧
  (∀ (i q seq : Nat) (c : Cmd) (s : State), s.works i q seq 0x12 c = true → 
    exec (.resealPage i q seq) s = .next (State.resealRun i q seq 1 s)) ∧
  (∀ (i q seq : Nat) (c : Cmd) (k p : Nat) (u : State) (s : State), s.works i q seq 0x12 c = true → c.rgn ≠ 0 → u = s.useRgn (c.rgn - 1) → (u.kid (u.rgn (c.rgn - 1)).kid).state = .active → s.resealAt i c = some (k, p) → u.bgTurn clsReseal (cmdJob i q seq) = true → 0 < c.resealPages → c.resealPages ≤ c.progress + 1 → 
    exec (.resealZero i q seq) s = .next (((((u.bgTaken clsReseal (cmdJob i q seq)).resealPage (c.rgn - 1) (p + c.progress) c.fixed (if c.opcode = 0x13 then some (c.w 3) else none) p (p + c.resealPages)).modCmd i q seq fun c' => { c' with progress := c.progress + 1, done := 4096 * (c.progress + 1) }).runHbm.settleHbm.wakeHearth).endCmd i q seq (4096 * c.resealPages))) ∧
  (∀ (i q seq : Nat) (c : Cmd) (k p : Nat) (u : State) (s : State), s.works i q seq 0x13 c = true → c.rgn ≠ 0 → u = s.useRgn (c.rgn - 1) → (u.kid (u.rgn (c.rgn - 1)).kid).state = .active → s.resealAt i c = some (k, p) → u.bgTurn clsReseal (cmdJob i q seq) = true → 0 < c.resealPages → c.resealPages ≤ c.progress + 1 → 
    exec (.resealFill i q seq) s = .next (((((u.bgTaken clsReseal (cmdJob i q seq)).resealPage (c.rgn - 1) (p + c.progress) c.fixed (if c.opcode = 0x13 then some (c.w 3) else none) p (p + c.resealPages)).modCmd i q seq fun c' => { c' with progress := c.progress + 1, done := 4096 * (c.progress + 1) }).runHbm.settleHbm.wakeHearth).endCmd i q seq (4096 * c.resealPages))) ∧
  (∀ (i q seq : Nat) (c : Cmd) (k p : Nat) (u : State) (s : State), s.works i q seq 0x12 c = true → c.rgn ≠ 0 → u = s.useRgn (c.rgn - 1) → (u.kid (u.rgn (c.rgn - 1)).kid).state = .active → s.resealAt i c = some (k, p) → u.bgTurn clsReseal (cmdJob i q seq) = true → 0 < c.resealPages → c.resealPages ≤ c.progress + 1 → 
    exec (.resealPage i q seq) s = .next (((((u.bgTaken clsReseal (cmdJob i q seq)).resealPage (c.rgn - 1) (p + c.progress) c.fixed (if c.opcode = 0x13 then some (c.w 3) else none) p (p + c.resealPages)).modCmd i q seq fun c' => { c' with progress := c.progress + 1, done := 4096 * (c.progress + 1) }).runHbm.settleHbm.wakeHearth).endCmd i q seq (4096 * c.resealPages))) ∧
  (∀ (i q seq : Nat) (c : Cmd) (k p : Nat) (u : State) (s : State), s.works i q seq 0x13 c = true → c.rgn ≠ 0 → u = s.useRgn (c.rgn - 1) → (u.kid (u.rgn (c.rgn - 1)).kid).state = .active → s.resealAt i c = some (k, p) → u.bgTurn clsReseal (cmdJob i q seq) = true → 0 < c.resealPages → c.resealPages ≤ c.progress + 1 → 
    exec (.resealPage i q seq) s = .next (((((u.bgTaken clsReseal (cmdJob i q seq)).resealPage (c.rgn - 1) (p + c.progress) c.fixed (if c.opcode = 0x13 then some (c.w 3) else none) p (p + c.resealPages)).modCmd i q seq fun c' => { c' with progress := c.progress + 1, done := 4096 * (c.progress + 1) }).runHbm.settleHbm.wakeHearth).endCmd i q seq (4096 * c.resealPages))) ∧
  (∀ (f i q seq k p : Nat) (c : Cmd) (u : State) (s : State), s.cmd? i q seq = some c → c.runs = true → c.rgn ≠ 0 → u = s.useRgn (c.rgn - 1) → (u.kid (u.rgn (c.rgn - 1)).kid).state = .active → s.resealAt i c = some (k, p) → u.bgTurn clsReseal (cmdJob i q seq) = true → c.resealPages ≤ c.progress + 1 →
    State.resealRun i q seq (f + 1) s = ((((u.bgTaken clsReseal (cmdJob i q seq)).resealPage (c.rgn - 1) (p + c.progress) c.fixed (if c.opcode = 0x13 then some (c.w 3) else none) p (p + c.resealPages)).modCmd i q seq fun c' => { c' with progress := c.progress + 1, done := 4096 * (c.progress + 1) }).runHbm.settleHbm.wakeHearth).endCmd i q seq (4096 * c.resealPages)) ∧
  (∀ (f i q seq k p : Nat) (c : Cmd) (u : State) (s : State), s.cmd? i q seq = some c → c.runs = true → c.rgn ≠ 0 → u = s.useRgn (c.rgn - 1) → (u.kid (u.rgn (c.rgn - 1)).kid).state = .active → s.resealAt i c = some (k, p) → u.bgTurn clsReseal (cmdJob i q seq) = true → c.progress + 1 < c.resealPages →
    State.resealRun i q seq (f + 1) s = State.resealRun i q seq f ((((u.bgTaken clsReseal (cmdJob i q seq)).resealPage (c.rgn - 1) (p + c.progress) c.fixed (if c.opcode = 0x13 then some (c.w 3) else none) p (p + c.resealPages)).modCmd i q seq fun c' => { c' with progress := c.progress + 1, done := 4096 * (c.progress + 1) }).runHbm.settleHbm.wakeHearth)) ∧
  (∀ (f i q seq : Nat) (c : Cmd) (u : State) (s : State), s.cmd? i q seq = some c → c.runs = true → c.rgn ≠ 0 → u = s.useRgn (c.rgn - 1) → (u.kid (u.rgn (c.rgn - 1)).kid).state = .active → u.bgTurn clsReseal (cmdJob i q seq) = false →
    State.resealRun i q seq (f + 1) s = u) ∧
  (∀ (f i q seq : Nat) (c : Cmd) (u : State) (s : State), s.cmd? i q seq = some c → c.runs = true → c.rgn ≠ 0 → u = s.useRgn (c.rgn - 1) → (u.kid (u.rgn (c.rgn - 1)).kid).state ≠ .active →
    State.resealRun i q seq (f + 1) s = u.failCmd i q seq stRgnKid dtA (4096 * c.progress)) ∧
  (∀ (i q seq : Nat) (c : Cmd) (b out : List Byte) (n : Nat) (s₁ s₂ : State) (s : State), s.works i q seq 0x14 c = true → c.ceLoad = false → s.fetchObj i q seq (hIndex c.ceSrc) c.ceSrcOff c.ceLen = (.got b, s₁) → ceCompute c.ceMode c.ceDec c.fixed (beNat (leBytes 32 c.latchKey.toNat)) c.latchIv.toNat b = (some out, n) → out ≠ [] → s₁.storeObj i q seq (hIndex c.ceDst) c.ceDstOff out = (.done, s₂) → 
    exec (.cipher i q seq) s = .next (s₂.endCmd i q seq c.ceLen (c.result + BitVec.ofNat 64 n))) ∧
  (∀ (i q seq : Nat) (c : Cmd) (b : List Byte) (n : Nat) (s₁ : State) (s : State), s.works i q seq 0x14 c = true → c.ceLoad = false → s.fetchObj i q seq (hIndex c.ceSrc) c.ceSrcOff c.ceLen = (.got b, s₁) → ceCompute c.ceMode c.ceDec c.fixed (beNat (leBytes 32 c.latchKey.toNat)) c.latchIv.toNat b = (none, n) → 
    exec (.cipher i q seq) s = .next (s₁.endCmd i q seq c.ceLen (c.result + BitVec.ofNat 64 n))) ∧
  (∀ (i q seq : Nat) (c : Cmd) (st k : Nat) (s₁ : State) (s : State), s.works i q seq 0x14 c = true → c.ceLoad = false → s.fetchObj i q seq (hIndex c.ceSrc) c.ceSrcOff c.ceLen = (.fail st k, s₁) → 
    exec (.cipher i q seq) s = .next (s₁.failCmd i q seq st dtA 0)) ∧
  (∀ (i q seq : Nat) (c : Cmd) (b : List Byte) (s₁ s₂ s₃ : State) (s : State), s.works i q seq 0x14 c = true → c.ceLoad = true → s.fbx.trngFailed = false → c.progress = 0 → s.fetchObj i q seq (hIndex c.ceSrc) c.ceSrcOff c.ceLen = (.got b, s₁) → s₂ = (s₁.loadPage c.cePage (BitVec.ofNat 256 (leNat b))).modCmd i q seq (fun c => { c with progress := 1, latchKey := BitVec.ofNat 256 (leNat b) }) → s₂.storeObj i q seq (hIndex c.ceDst) c.ceDstOff (beBytes 16 (aesEnc (beNat (leBytes 32 (BitVec.ofNat 256 (leNat b)).toNat)) 0)) = (.done, s₃) → 
    exec (.cipherKeyLoad i q seq) s = .next (s₃.endCmd i q seq c.ceLen 0)) ∧
  (∀ (i q seq : Nat) (c : Cmd) (s₁ : State) (s : State), s.works i q seq 0x14 c = true → c.ceLoad = false → s.fetchObj i q seq (hIndex c.ceSrc) c.ceSrcOff c.ceLen = (.wait, s₁) → 
    exec (.cipher i q seq) s = .next s₁) ∧
  (∀ (i q seq : Nat) (c : Cmd) (b out : List Byte) (n : Nat) (s₁ s₂ : State) (s : State), s.works i q seq 0x14 c = true → c.ceLoad = false → s.fetchObj i q seq (hIndex c.ceSrc) c.ceSrcOff c.ceLen = (.got b, s₁) → ceCompute c.ceMode c.ceDec c.fixed (beNat (leBytes 32 c.latchKey.toNat)) c.latchIv.toNat b = (some out, n) → out ≠ [] → s₁.storeObj i q seq (hIndex c.ceDst) c.ceDstOff out = (.wait, s₂) → 
    exec (.cipher i q seq) s = .next s₂) ∧
  (∀ (i q seq : Nat) (c : Cmd) (b out : List Byte) (n st k : Nat) (s₁ s₂ : State) (s : State), s.works i q seq 0x14 c = true → c.ceLoad = false → s.fetchObj i q seq (hIndex c.ceSrc) c.ceSrcOff c.ceLen = (.got b, s₁) → ceCompute c.ceMode c.ceDec c.fixed (beNat (leBytes 32 c.latchKey.toNat)) c.latchIv.toNat b = (some out, n) → out ≠ [] → s₁.storeObj i q seq (hIndex c.ceDst) c.ceDstOff out = (.fail st k, s₂) → 
    exec (.cipher i q seq) s = .next (s₂.failCmd i q seq st dtB (ceDone c.ceMode c.ceDec c.ceLen k))) ∧
  (∀ (i q seq : Nat) (c : Cmd) (b : List Byte) (s₁ s₂ : State) (s : State), s.works i q seq 0x14 c = true → c.ceLoad = true → c.progress ≠ 0 → s.fetchObj i q seq (hIndex c.ceSrc) c.ceSrcOff c.ceLen = (.got b, s₁) → s₁.storeObj i q seq (hIndex c.ceDst) c.ceDstOff (beBytes 16 (aesEnc (beNat (leBytes 32 c.latchKey.toNat)) 0)) = (.done, s₂) → 
    exec (.cipherKeyLoad i q seq) s = .next (s₂.endCmd i q seq c.ceLen 0)) ∧
  (∀ (i q seq : Nat) (c : Cmd) (s : State), s.works i q seq 0x14 c = true → c.ceLoad = true → s.fbx.trngFailed = true → c.progress = 0 → 
    exec (.cipherKeyLoad i q seq) s = .next (s.failCmd i q seq stNoEntropy dtNone 0))

/-- Of a command at work in its unit. WIN_OPEN with a free window n and the TRNG good: window n is OPENED with the
operands, the slice and slot and a key (not 0; the model's free value, log 3), a window over an object also holds that
object in flight, and the command ends well with key and number; TRNG failed: NO_ENTROPY; no window free: NO_WINDOW.
WIN_CLOSE of a FREE window ends well; of another its progress is 1 and the window is closed (closeWin), which leaves it
CLOSING while something is in flight and otherwise FREE. RWIN_SET with a free entry n: the entry holds the operands, the
slice and slot, and the command ends well with n; with none: NO_WINDOW. RWIN_CLEAR of a set entry of the slice empties it
and ends well; of another: FAB_DENIED. FAB_READ at work stores what has arrived, issues its lines (issueLines) and
settles; FAB_WRITE issues its lines; FLUSH_REMOTE notes progress 1 and settles. FAB_ATOMIC and SIG_REMOTE not yet issued
and with the entry's right issue their one record (issueRec); sent, they take progress 1 and then the trailing signal
(trailSignal), and otherwise they settle. An issue's outcome (tookIssue): sent counts a record out; ended fails the
command's issue with that status; full changes nothing. issueLines: everything issued: it settles; no line left:
trailSignal; an entry without the right: fails with its status and has issued all; otherwise up to three lines in
ascending offset go in one record, for a write after its source bytes came (it waits for them, and fails with detail B if
the source fails), and when it was sent issueLines goes on at the next line, and otherwise settles. trailSignal without a
signal to send: everything is issued, and settled. -/
def Obligations.FabricCommands : Prop :=
  (∀ (i q seq : Nat) (c : Cmd) (n : Nat) (s : State), s.works i q seq 0x20 c = true → s.freeWin = some n → s.fbx.trngFailed = false → c.winSync = true → 
    ∃ t, exec (.winOpen i q seq) s = .next t ∧ ∃ k : BitVec 32, k ≠ 0 ∧ t.win n = { state := .opened, sync := c.winSync, dvalid := (s.domainOf i).isSome, dslot := (s.domainOf i).getD 0, slice := i, obj := hIndex (c.f 1 31 0), objOff := if c.winSync then 0 else c.f 2 39 0, syncBase := if c.winSync then c.f 2 19 0 else 0, size := c.winSize, rights := BitVec.ofNat 4 c.winRights, key := k, srcNode := c.f 1 52 37 } ∧
      t.cmd? i q seq = some (c.finishOk 0 (BitVec.ofNat 64 (k.toNat + 2 ^ 32 * n)))) ∧
  (∀ (i q seq : Nat) (c : Cmd) (n : Nat) (s : State), s.works i q seq 0x20 c = true → s.freeWin = some n → s.fbx.trngFailed = false → c.winSync = false → 
    exec (.winOpen i q seq) s = .next (((((s.drawKey).2.setWin n { state := .opened, sync := c.winSync, dvalid := (s.domainOf i).isSome, dslot := (s.domainOf i).getD 0, slice := i, obj := hIndex (c.f 1 31 0), objOff := if c.winSync then 0 else c.f 2 39 0, syncBase := if c.winSync then c.f 2 19 0 else 0, size := c.winSize, rights := BitVec.ofNat 4 c.winRights, key := (s.drawKey).1, srcNode := c.f 1 52 37 }).objHold i (hIndex (c.f 1 31 0))).endCmd i q seq 0 (BitVec.ofNat 64 ((s.drawKey).1.toNat + 2 ^ 32 * n))))) ∧
  (∀ (i q seq : Nat) (c : Cmd) (n : Nat) (s : State), s.works i q seq 0x20 c = true → s.freeWin = some n → s.fbx.trngFailed = true → 
    exec (.winOpen i q seq) s = .next (s.failCmd i q seq stNoEntropy dtNone 0)) ∧
  (∀ (i q seq : Nat) (c : Cmd) (s : State), s.works i q seq 0x20 c = true → s.freeWin = none → 
    exec (.winOpen i q seq) s = .next (s.failCmd i q seq stNoWindow dtNone 0)) ∧
  (∀ (i q seq : Nat) (c : Cmd) (s : State), s.works i q seq 0x21 c = true → (s.win (c.f 1 11 0)).state = .free → 
    ∃ t, exec (.winClose i q seq) s = .next t ∧ t.cmd? i q seq = some (c.finishOk 0 0)) ∧
  (∀ (i q seq : Nat) (c : Cmd) (s : State), s.works i q seq 0x21 c = true → (s.win (c.f 1 11 0)).state ≠ .free → 
    exec (.winClose i q seq) s = .next ((s.modCmd i q seq fun c => { c with progress := 1 }).closeWin (c.f 1 11 0))) ∧
  (∀ (i q seq : Nat) (c : Cmd) (n : Nat) (s : State), s.works i q seq 0x22 c = true → s.freeRwin = some n → 
    ∃ t, exec (.rwinSet i q seq) s = .next t ∧ t.rwin n = { set := true, dvalid := (s.domainOf i).isSome, dslot := (s.domainOf i).getD 0, slice := i, node := c.f 1 34 19, member := c.f 1 42 35, window := c.f 1 54 43, key := BitVec.ofNat 32 (c.f 2 31 0), rights := BitVec.ofNat 4 (c.f 1 18 15), timeout := c.f 1 61 55, aperture := (c.w 1).getLsbD 14 } ∧
      t.cmd? i q seq = some (c.finishOk 0 (BitVec.ofNat 64 n))) ∧
  (∀ (i q seq : Nat) (c : Cmd) (s : State), s.works i q seq 0x22 c = true → s.freeRwin = none → 
    exec (.rwinSet i q seq) s = .next (s.failCmd i q seq stNoWindow dtNone 0)) ∧
  (∀ (i q seq : Nat) (c : Cmd) (s : State), s.works i q seq 0x23 c = true → (s.rwin (c.f 1 13 0)).set = true → (s.rwin (c.f 1 13 0)).slice = i → 
    ∃ t, exec (.rwinClear i q seq) s = .next t ∧ t.rwin (c.f 1 13 0) = {} ∧ t.cmd? i q seq = some (c.finishOk 0 0)) ∧
  (∀ (i q seq : Nat) (c : Cmd) (s : State), s.works i q seq 0x23 c = true → (s.rwin (c.f 1 13 0)).set = false ∨ (s.rwin (c.f 1 13 0)).slice ≠ i → 
    exec (.rwinClear i q seq) s = .next (s.failCmd i q seq stFabDenied dtA 0)) ∧
  (∀ (i q seq : Nat) (c : Cmd) (s : State), s.works i q seq 0x24 c = true → 
    exec (.fabRead i q seq) s = .next ((State.issueLines i q seq (c.fabLines + 2) (s.storeArrived i q seq)).settleFab i q)) ∧
  (∀ (i q seq : Nat) (c : Cmd) (s : State), s.works i q seq 0x25 c = true → 
    exec (.fabWrite i q seq) s = .next (State.issueLines i q seq (c.fabLines + 2) s)) ∧
  (∀ (i q seq : Nat) (c : Cmd) (s : State), s.works i q seq 0x26 c = true → 
    exec (.fabAtomic i q seq) s = .next (s.issueOne i q seq c.fabEntry 2 fkAtomic (c.f 1 17 14) false (c.f 1 57 18) (leBytes 8 (c.w 2).toNat ++ leBytes 8 (c.w 3).toNat))) ∧
  (∀ (i q seq : Nat) (c : Cmd) (s : State), s.works i q seq 0x27 c = true → 
    exec (.sigRemote i q seq) s = .next (s.issueOne i q seq (sigEntry (c.w 1)) 3 fkSignal (b2n (sigPost (c.w 1))) true (sigObject (c.w 1)) (leBytes 8 (c.w 2).toNat ++ leBytes 8 0))) ∧
  (∀ (i q seq : Nat) (c : Cmd) (s : State), s.works i q seq 0x28 c = true → 
    exec (.flushRemote i q seq) s = .next ((s.modCmd i q seq fun c => { c with progress := 1 }).settleFab i q)) ∧
  (∀ (i q seq st dt : Nat) (s : State),
    s.tookIssue i q seq .sent dt = (true, s.modCmd i q seq fun c => { c with recordsOut := c.recordsOut + 1 }) ∧
    s.tookIssue i q seq (.ended st) dt = (false, (s.count i 4 1).modCmd i q seq fun c => { c.fail st dt with issuedAll := true }) ∧
    s.tookIssue i q seq .full dt = (false, s)) ∧
  (∀ (f i q seq : Nat) (c : Cmd) (s : State), s.cmd? i q seq = some c → c.runs = true → c.issuedAll = true →
    State.issueLines i q seq (f + 1) s = s.settleFab i q) ∧
  (∀ (f i q seq : Nat) (c : Cmd) (s : State), s.cmd? i q seq = some c → c.runs = true → c.issuedAll = false → c.status = 0 → c.fabLines ≤ c.progress →
    State.issueLines i q seq (f + 1) s = s.trailSignal i q seq) ∧
  (∀ (f i q seq : Nat) (c : Cmd) (s : State), s.cmd? i q seq = some c → c.runs = true → c.issuedAll = false → c.status = 0 → c.progress < c.fabLines → (s.chkEntry i c.fabEntry (some (b2n (c.opcode = 0x25))) dtA).1 ≠ 0 →
    State.issueLines i q seq (f + 1) s = (s.modCmd i q seq fun x => x.fail (s.chkEntry i c.fabEntry (some (b2n (c.opcode = 0x25))) dtA).1 dtA).allIssued i q seq) ∧
  (∀ (f i q seq : Nat) (c : Cmd) (r : Issue) (s₁ : State) (s : State), s.cmd? i q seq = some c → c.runs = true → c.issuedAll = false → c.status = 0 → c.progress < c.fabLines → c.opcode = 0x24 → (s.chkEntry i c.fabEntry (some 0) dtA).1 = 0 → s.issueRec (.cmd i q seq) (s.rwin c.fabEntry) fkRead ((min 3 (c.fabLines - c.progress)) - 1) 0 false (c.f 1 55 16 + 64 * c.progress) 0 [] (64 * c.progress) = (r, s₁) →
    State.issueLines i q seq (f + 1) s = (if (s₁.tookIssue i q seq r dtA).1 then
        State.issueLines i q seq f ((s₁.tookIssue i q seq r dtA).2.modCmd i q seq fun x => { x with progress := c.progress + (min 3 (c.fabLines - c.progress)), hostGot := [] })
      else (s₁.tookIssue i q seq r dtA).2.settleFab i q)) ∧
  (∀ (f i q seq : Nat) (c : Cmd) (b : List Byte) (r : Issue) (s₀ s₁ : State) (s : State), s.cmd? i q seq = some c → c.runs = true → c.issuedAll = false → c.status = 0 → c.progress < c.fabLines → c.opcode = 0x25 → (s.chkEntry i c.fabEntry (some 1) dtA).1 = 0 → s.fetchObj i q seq (hIndex (c.f 2 31 0)) (c.f 3 39 0 + 64 * c.progress) (64 * (min 3 (c.fabLines - c.progress))) = (.got b, s₀) → s₀.issueRec (.cmd i q seq) (s₀.rwin c.fabEntry) fkWrite ((min 3 (c.fabLines - c.progress)) - 1) 0 false (c.f 1 55 16 + 64 * c.progress) (if (min 3 (c.fabLines - c.progress)) = 1 then fullMask else 0) b (64 * c.progress) = (r, s₁) →
    State.issueLines i q seq (f + 1) s = (if (s₁.tookIssue i q seq r dtA).1 then
        State.issueLines i q seq f ((s₁.tookIssue i q seq r dtA).2.modCmd i q seq fun x => { x with progress := c.progress + (min 3 (c.fabLines - c.progress)), hostGot := [] })
      else (s₁.tookIssue i q seq r dtA).2.settleFab i q)) ∧
  (∀ (f i q seq : Nat) (c : Cmd) (s₀ : State) (s : State), s.cmd? i q seq = some c → c.runs = true → c.issuedAll = false → c.status = 0 → c.progress < c.fabLines → c.opcode = 0x25 → (s.chkEntry i c.fabEntry (some 1) dtA).1 = 0 → s.fetchObj i q seq (hIndex (c.f 2 31 0)) (c.f 3 39 0 + 64 * c.progress) (64 * (min 3 (c.fabLines - c.progress))) = (.wait, s₀) →
    State.issueLines i q seq (f + 1) s = s₀) ∧
  (∀ (f i q seq st k : Nat) (c : Cmd) (s₀ : State) (s : State), s.cmd? i q seq = some c → c.runs = true → c.issuedAll = false → c.status = 0 → c.progress < c.fabLines → c.opcode = 0x25 → (s.chkEntry i c.fabEntry (some 1) dtA).1 = 0 → s.fetchObj i q seq (hIndex (c.f 2 31 0)) (c.f 3 39 0 + 64 * c.progress) (64 * (min 3 (c.fabLines - c.progress))) = (.fail st k, s₀) →
    State.issueLines i q seq (f + 1) s = (s₀.modCmd i q seq fun x => x.fail st dtB).allIssued i q seq) ∧
  (∀ (i q seq : Nat) (c : Cmd) (r : Issue) (s₁ : State) (s : State), s.works i q seq 0x26 c = true → c.issuedAll = false → c.progress ≠ 1 → c.status = 0 → (s.chkEntry i c.fabEntry (some 2) dtA).1 = 0 → s.issueRec (.cmd i q seq) (s.rwin c.fabEntry) fkAtomic 0 (c.f 1 17 14) false (c.f 1 57 18) 0 (leBytes 8 (c.w 2).toNat ++ leBytes 8 (c.w 3).toNat) 0 = (r, s₁) → 
    exec (.fabAtomic i q seq) s = .next ((if (s₁.tookIssue i q seq r dtA).1 then ((s₁.tookIssue i q seq r dtA).2.modCmd i q seq fun x => { x with progress := 1 }).trailSignal i q seq
      else (s₁.tookIssue i q seq r dtA).2.settleFab i q))) ∧
  (∀ (i q seq : Nat) (c : Cmd) (r : Issue) (s₁ : State) (s : State), s.works i q seq 0x27 c = true → c.issuedAll = false → c.progress ≠ 1 → c.status = 0 → (s.chkEntry i (sigEntry (c.w 1)) (some 3) dtA).1 = 0 → s.issueRec (.cmd i q seq) (s.rwin (sigEntry (c.w 1))) fkSignal 0 (b2n (sigPost (c.w 1))) true (sigObject (c.w 1)) 0 (leBytes 8 (c.w 2).toNat ++ leBytes 8 0) 0 = (r, s₁) → 
    exec (.sigRemote i q seq) s = .next ((if (s₁.tookIssue i q seq r dtA).1 then ((s₁.tookIssue i q seq r dtA).2.modCmd i q seq fun x => { x with progress := 1 }).trailSignal i q seq
      else (s₁.tookIssue i q seq r dtA).2.settleFab i q))) ∧
  (∀ (i q seq : Nat) (c : Cmd) (s : State), s.cmd? i q seq = some c → c.remoteSig = false ∨ c.sigIssued = true →
    s.trailSignal i q seq = (s.modCmd i q seq fun c => { c with issuedAll := true }).settleFab i q) ∧
  (∀ (w : Nat) (s : State), (s.win w).state ≠ .free → (s.win w).inflight ≠ 0 → s.closeWin w = s.setWin w { s.win w with state := .closing }) ∧
  (∀ (w : Nat) (s : State), (s.win w).state ≠ .free → (s.win w).inflight = 0 → (s.closeWin w).win w = {})

/-- PLAN_LOAD at work reads the 64-byte header through its descriptor handle, then the steps: it waits while a read waits;
a read that fails ends it with that status, a header that hdrOk refuses with PLAN_FORMAT, one whose steps run past the
object with OBJ_RANGE, each with the header's index as RESULT; with both read, planAccept judges them. planAccept: a
failing check of chkPlan ends the command with its status and step index, and with no plan slot free chkPlan fails;
otherwise the plan is loaded (loadPlan) in the slot freePlan names, and the command ends well with its handle and first
fence, flagged PLAN_BW_WARN where overDemand holds. PLAN_RUN at work registers the waits of its startable steps, works
every step as far as it goes and settles the run: of a running plan without a failure whose every step has completed, its
command, if it still runs, ends well with the elements done. PLAN_UNLOAD of a handle that names no plan of the slice:
PLAN_INVALID; of a running plan: PLAN_BUSY; otherwise the plan is unloaded (unloadPlan) and the command ends well.
QUANTISE and DEQUANTISE at work read their descriptor if they have not yet (fmtLoad, which ends the command with the
status of a failing check of chkFmt), and then go group after group (fmtRun): each step (quantStep or dequantStep) that
goes through leads to the next, and one that waits stops there. With every group done, or a failure noted, they finish:
without a statistics block the command is then ended as fmtEnd says. So with one group left, the step that takes it
finishes the command. -/
def Obligations.PlanCommands : Prop :=
  (∀ (i q seq : Nat) (c : Cmd) (s₁ : State) (s : State), s.works i q seq 0x30 c = true → s.fetchObj i q seq (hIndex (c.f 1 31 0)) (c.f 2 39 0) 64 = (.wait, s₁) → 
    exec (.planLoad i q seq) s = .next s₁) ∧
  (∀ (i q seq : Nat) (c : Cmd) (st n : Nat) (s₁ : State) (s : State), s.works i q seq 0x30 c = true → s.fetchObj i q seq (hIndex (c.f 1 31 0)) (c.f 2 39 0) 64 = (.fail st n, s₁) → 
    exec (.planLoad i q seq) s = .next (s₁.failLoad i q seq planHdrIx (st, dtDesc))) ∧
  (∀ (i q seq : Nat) (c : Cmd) (b : List Byte) (s₁ : State) (s : State), s.works i q seq 0x30 c = true → s.fetchObj i q seq (hIndex (c.f 1 31 0)) (c.f 2 39 0) 64 = (.got b, s₁) → hdrOk (s₁.slice i).level (wordsOf b) = false → 
    exec (.planLoad i q seq) s = .next (s₁.failLoad i q seq planHdrIx (stPlanFormat, dtDesc))) ∧
  (∀ (i q seq : Nat) (c : Cmd) (b : List Byte) (s₁ : State) (s : State), s.works i q seq 0x30 c = true → s.fetchObj i q seq (hIndex (c.f 1 31 0)) (c.f 2 39 0) 64 = (.got b, s₁) → hdrOk (s₁.slice i).level (wordsOf b) = true → (s₁.obj i (hIndex (c.f 1 31 0))).size < c.f 2 39 0 + 64 * (hf (wordsOf b) 0 30 20 + 1) → 
    exec (.planLoad i q seq) s = .next (s₁.failLoad i q seq planHdrIx (stObjRange, dtDesc))) ∧
  (∀ (i q seq : Nat) (c : Cmd) (b : List Byte) (s₁ s₂ : State) (s : State), s.works i q seq 0x30 c = true → s.fetchObj i q seq (hIndex (c.f 1 31 0)) (c.f 2 39 0) 64 = (.got b, s₁) → hdrOk (s₁.slice i).level (wordsOf b) = true → c.f 2 39 0 + 64 * (hf (wordsOf b) 0 30 20 + 1) ≤ (s₁.obj i (hIndex (c.f 1 31 0))).size → s₁.fetchObj i q seq (hIndex (c.f 1 31 0)) (c.f 2 39 0 + 64) (64 * hf (wordsOf b) 0 30 20) = (.wait, s₂) → 
    exec (.planLoad i q seq) s = .next s₂) ∧
  (∀ (i q seq : Nat) (c : Cmd) (b : List Byte) (st n : Nat) (s₁ s₂ : State) (s : State), s.works i q seq 0x30 c = true → s.fetchObj i q seq (hIndex (c.f 1 31 0)) (c.f 2 39 0) 64 = (.got b, s₁) → hdrOk (s₁.slice i).level (wordsOf b) = true → c.f 2 39 0 + 64 * (hf (wordsOf b) 0 30 20 + 1) ≤ (s₁.obj i (hIndex (c.f 1 31 0))).size → s₁.fetchObj i q seq (hIndex (c.f 1 31 0)) (c.f 2 39 0 + 64) (64 * hf (wordsOf b) 0 30 20) = (.fail st n, s₂) → 
    exec (.planLoad i q seq) s = .next (s₂.failLoad i q seq planHdrIx (st, dtDesc))) ∧
  (∀ (i q seq : Nat) (c : Cmd) (b b₂ : List Byte) (s₁ s₂ : State) (s : State), s.works i q seq 0x30 c = true → s.fetchObj i q seq (hIndex (c.f 1 31 0)) (c.f 2 39 0) 64 = (.got b, s₁) → hdrOk (s₁.slice i).level (wordsOf b) = true → c.f 2 39 0 + 64 * (hf (wordsOf b) 0 30 20 + 1) ≤ (s₁.obj i (hIndex (c.f 1 31 0))).size → s₁.fetchObj i q seq (hIndex (c.f 1 31 0)) (c.f 2 39 0 + 64) (64 * hf (wordsOf b) 0 30 20) = (.got b₂, s₂) → 
    exec (.planLoad i q seq) s = .next (s₂.planAccept i q seq (wordsOf b) ((List.range (hf (wordsOf b) 0 30 20)).map fun k => ((wordsOf b₂).drop (8 * k)).take 8))) ∧
  (∀ (i q seq k st dt : Nat) (h : HdrW) (steps : List StepW) (s : State), s.chkPlan i h steps = (k, (st, dt)) → st ≠ 0 →
    s.planAccept i q seq h steps = s.failLoad i q seq k (st, dt)) ∧
  (∀ (i : Nat) (h : HdrW) (steps : List StepW) (s : State), s.freePlan = none → (s.chkPlan i h steps).2.1 ≠ 0) ∧
  (∀ (i q seq k dt p : Nat) (h : HdrW) (steps : List StepW) (s : State), s.chkPlan i h steps = (k, (0, dt)) → s.freePlan = some p → s.overDemand i h steps = false →
    s.planAccept i q seq h steps = (s.loadPlan i p h steps).endCmd i q seq 0 (BitVec.ofNat 64 (planHandleOf p ((s.loadPlan i p h steps).plan p).gen + 2 ^ 32 * ((s.loadPlan i p h steps).plan p).fence0))) ∧
  (∀ (i q seq k dt p : Nat) (h : HdrW) (steps : List StepW) (s : State), s.chkPlan i h steps = (k, (0, dt)) → s.freePlan = some p → s.overDemand i h steps = true →
    s.planAccept i q seq h steps = ((s.loadPlan i p h steps).endCmd i q seq 0 (BitVec.ofNat 64 (planHandleOf p ((s.loadPlan i p h steps).plan p).gen + 2 ^ 32 * ((s.loadPlan i p h steps).plan p).fence0))).modCmd i q seq fun c => c.flag dtPlanBwWarn) ∧
  (∀ (i q seq : Nat) (c : Cmd) (s : State), s.works i q seq 0x31 c = true → 
    exec (.planRun i q seq) s = .next ((((s.registerSteps (bits (c.f 1 31 0) 7 0)).forEach ((s.registerSteps (bits (c.f 1 31 0) 7 0)).plan (bits (c.f 1 31 0) 7 0)).indices fun s x => s.pump (bits (c.f 1 31 0) 7 0) x).settleRun (bits (c.f 1 31 0) 7 0)))) ∧
  (∀ (k : Nat) (s : State), (s.plan k).running = true → (s.plan k).fail = 0 → ((s.plan k).indices.all fun x => ((s.plan k).srun x).stage = .completed) = true →
    s.settleRun k = s.modCmd ((s.plan k).runQ / 2 ^ 18) ((s.plan k).runQ % 2 ^ 18) (s.plan k).runSeq fun c => if c.runs then c.finishOk (s.plan k).elementsDone else c) ∧
  (∀ (i q seq : Nat) (c : Cmd) (s : State), s.works i q seq 0x32 c = true → s.planOf i (c.f 1 31 0) = none → 
    exec (.planUnload i q seq) s = .next (s.failCmd i q seq stPlanInvalid dtA 0)) ∧
  (∀ (i q seq : Nat) (c : Cmd) (k : Nat) (s : State), s.works i q seq 0x32 c = true → s.planOf i (c.f 1 31 0) = some k → (s.plan k).running = true → 
    exec (.planUnload i q seq) s = .next (s.failCmd i q seq stPlanBusy dtA 0)) ∧
  (∀ (i q seq : Nat) (c : Cmd) (k : Nat) (s : State), s.works i q seq 0x32 c = true → s.planOf i (c.f 1 31 0) = some k → (s.plan k).running = false → 
    exec (.planUnload i q seq) s = .next (((s.unloadPlan (bits (c.f 1 31 0) 7 0)).endCmd i q seq 0))) ∧
  (∀ (i q seq : Nat) (c : Cmd) (s : State), s.works i q seq 0x33 c = true → 
    exec (.quantise i q seq) s = .next ((State.fmtRun i q seq (match (s.fmtLoad i q seq).cmd? i q seq with | some c => dsCount c.desc / 32 + 2 | none => 0) (s.fmtLoad i q seq)))) ∧
  (∀ (i q seq : Nat) (c : Cmd) (s : State), s.works i q seq 0x34 c = true → 
    exec (.dequantise i q seq) s = .next ((State.fmtRun i q seq (match (s.fmtLoad i q seq).cmd? i q seq with | some c => dsCount c.desc / 32 + 2 | none => 0) (s.fmtLoad i q seq)))) ∧
  (∀ (i q seq : Nat) (c : Cmd) (s : State), s.works i q seq 0x33 c = true → c.desc.isEmpty = false → c.fixed ≠ 0 ∨ dsCount c.desc ≤ c.progress → dsStats c.desc = 0 → 
    ∃ t, exec (.quantise i q seq) s = .next t ∧ t.cmd? i q seq = some c.fmtEnd) ∧
  (∀ (i q seq : Nat) (c : Cmd) (s : State), s.works i q seq 0x34 c = true → c.desc.isEmpty = false → c.fixed ≠ 0 ∨ dsCount c.desc ≤ c.progress → dsStats c.desc = 0 → 
    ∃ t, exec (.dequantise i q seq) s = .next t ∧ t.cmd? i q seq = some c.fmtEnd) ∧
  (∀ (i q seq : Nat) (c : Cmd) (d : Cmd) (s₁ u : State) (s : State), s.works i q seq 0x33 c = true → c.desc.isEmpty = false → c.fixed = 0 → c.progress < dsCount c.desc → s.quantStep i q seq c = (some s₁, u) → s₁.cmd? i q seq = some d → d.runs = true → d.desc.isEmpty = false → d.fixed ≠ 0 ∨ dsCount d.desc ≤ d.progress → 
    exec (.quantise i q seq) s = .next (s₁.fmtFinish i q seq)) ∧
  (∀ (i q seq : Nat) (c : Cmd) (d : Cmd) (s₁ u : State) (s : State), s.works i q seq 0x34 c = true → c.desc.isEmpty = false → c.fixed = 0 → c.progress < dsCount c.desc → s.dequantStep i q seq c = (some s₁, u) → s₁.cmd? i q seq = some d → d.runs = true → d.desc.isEmpty = false → d.fixed ≠ 0 ∨ dsCount d.desc ≤ d.progress → 
    exec (.dequantise i q seq) s = .next (s₁.fmtFinish i q seq)) ∧
  (∀ (f i q seq : Nat) (c : Cmd) (s₁ u : State) (s : State), s.cmd? i q seq = some c → c.runs = true → c.desc.isEmpty = false → c.fixed = 0 → c.progress < dsCount c.desc → (if c.opcode = 0x33 then s.quantStep i q seq c else s.dequantStep i q seq c) = (some s₁, u) →
    State.fmtRun i q seq (f + 1) s = State.fmtRun i q seq f s₁) ∧
  (∀ (f i q seq : Nat) (c : Cmd) (s₁ : State) (s : State), s.cmd? i q seq = some c → c.runs = true → c.desc.isEmpty = false → c.fixed = 0 → c.progress < dsCount c.desc → (if c.opcode = 0x33 then s.quantStep i q seq c else s.dequantStep i q seq c) = (none, s₁) →
    State.fmtRun i q seq (f + 1) s = s₁) ∧
  (∀ (i q seq : Nat) (c : Cmd) (b : List Byte) (s₁ : State) (s : State), s.cmd? i q seq = some c → c.runs = true → c.desc.isEmpty = true → s.fetchObj i q seq (hIndex (c.f 1 31 0)) (c.f 2 39 0) 64 = (.got b, s₁) → (s₁.chkFmt i (c.opcode = 0x33) (wordsOf b)).1 ≠ 0 →
    s.fmtLoad i q seq = s₁.failCmd i q seq (s₁.chkFmt i (c.opcode = 0x33) (wordsOf b)).1 (s₁.chkFmt i (c.opcode = 0x33) (wordsOf b)).2 0)

/-- Of a request that the Stoker serves. SPDM_REQUEST of code 0xE0 answers the measurements its second parameter names
under the nonce of its body. Of another code it emits the code 0x80 lower with the body that spdmBody gives, on the state
it gives, and an SPDM error where spdmBody gives one. So GET_VERSION answers version 1.2 and forgets the algorithms;
HEARTBEAT, END_SESSION (which closes a session) and FINISH and PSK-less requests answer two zero bytes; KEY_UPDATE its
parameter; GET_CERTIFICATE and CHALLENGE of a slot that is not provisioned are errors; CHALLENGE with the TRNG failed is
Busy; KEY_EXCHANGE with four sessions open is an error, with the TRNG failed Busy, before the algorithms are negotiated an
error, and otherwise answers and opens a session; a code outside the subset is an error. GET_MEASUREMENTS: index 0 answers
the count 7, a measured index 1 to 7 its block, 0xFF all of them, 0x10 the member statement or Busy with the TRNG failed,
and 0x11 asks for the composite; that body layouts, the count and its place are the model's choice (log 103, 113, 115). -/
def Obligations.SpdmAndMeasurements : Prop :=
  (∀ (m : Mgmt) (code p1 p2 : BitVec 8) (body : List Byte) (s : State), s.serving = true → code = 0xE0 → 
    exec (.spdmRequest m code p1 p2 body) s = .next (s.measurements p2.toNat (BitVec.ofNat 256 (leNat (body.take 32))))) ∧
  (∀ (m : Mgmt) (code p1 p2 : BitVec 8) (body : List Byte) (b : List Byte) (u : State) (s : State), s.serving = true → code ≠ 0xE0 → s.spdmBody code.toNat p1.toNat body = .ok (b, u) → 
    exec (.spdmRequest m code p1 p2 body) s = .next (u.emit (.spdm (code.toNat - 0x80) b))) ∧
  (∀ (m : Mgmt) (code p1 p2 : BitVec 8) (body : List Byte) (e : Nat) (s : State), s.serving = true → code ≠ 0xE0 → s.spdmBody code.toNat p1.toNat body = .error e → 
    exec (.spdmRequest m code p1 p2 body) s = .next (s.spdmError e)) ∧
  (∀ (m : Mgmt) (code p1 p2 : BitVec 8) (body : List Byte) (s : State), s.serving = true → code = 0x84 → 
    exec (.spdmRequest m code p1 p2 body) s = .next (({ s with dom := { s.dom with algs := false } } : State).emit (.spdm 4 ([0, 0, 0, 1] ++ leBytes 2 0x1200)))) ∧
  (∀ (m : Mgmt) (code p1 p2 : BitVec 8) (body : List Byte) (s : State), s.serving = true → code = 0xE4 → 4 ≤ s.dom.sessions → 
    exec (.spdmRequest m code p1 p2 body) s = .next (s.spdmError spdmSessions)) ∧
  (∀ (m : Mgmt) (code p1 p2 : BitVec 8) (body : List Byte) (s : State), s.serving = true → code = 0xE4 → ¬ 4 ≤ s.dom.sessions → s.fbx.trngFailed = true → 
    exec (.spdmRequest m code p1 p2 body) s = .next (s.spdmError spdmBusy)) ∧
  (∀ (m : Mgmt) (code p1 p2 : BitVec 8) (body : List Byte) (s : State), s.serving = true → code = 0xE4 → ¬ 4 ≤ s.dom.sessions → s.fbx.trngFailed = false → s.dom.algs = false → 
    exec (.spdmRequest m code p1 p2 body) s = .next (s.spdmError spdmUnexpected)) ∧
  (∀ (m : Mgmt) (code p1 p2 : BitVec 8) (body : List Byte) (s : State), s.serving = true → code = 0xE4 → ¬ 4 ≤ s.dom.sessions → s.fbx.trngFailed = false → s.dom.algs = true → 
    ∃ t, exec (.spdmRequest m code p1 p2 body) s = .next t ∧ t.dom.sessions = s.dom.sessions + 1 ∧ ∃ b, t.out = .spdm 0x64 b :: s.out) ∧
  (∀ (m : Mgmt) (code p1 p2 : BitVec 8) (body : List Byte) (s : State), s.serving = true → code = 0x83 → s.certSlots.contains p1.toNat = true → s.fbx.trngFailed = true → 
    exec (.spdmRequest m code p1 p2 body) s = .next (s.spdmError spdmBusy)) ∧
  (∀ (m : Mgmt) (code p1 p2 : BitVec 8) (body : List Byte) (s : State), s.serving = true → code = 0x83 → s.certSlots.contains p1.toNat = false → 
    exec (.spdmRequest m code p1 p2 body) s = .next (s.spdmError spdmInvalid)) ∧
  (∀ (m : Mgmt) (code p1 p2 : BitVec 8) (body : List Byte) (s : State), s.serving = true → code = 0x82 → s.certSlots.contains p1.toNat = false → 
    exec (.spdmRequest m code p1 p2 body) s = .next (s.spdmError spdmInvalid)) ∧
  (∀ (m : Mgmt) (code p1 p2 : BitVec 8) (body : List Byte) (s : State), s.serving = true → code = 0xE5 → 
    exec (.spdmRequest m code p1 p2 body) s = .next (s.emit (.spdm 0x65 [0, 0]))) ∧
  (∀ (m : Mgmt) (code p1 p2 : BitVec 8) (body : List Byte) (s : State), s.serving = true → code = 0xE8 → 
    exec (.spdmRequest m code p1 p2 body) s = .next (s.emit (.spdm 0x68 [0, 0]))) ∧
  (∀ (m : Mgmt) (code p1 p2 : BitVec 8) (body : List Byte) (s : State), s.serving = true → code = 0xE9 → 
    exec (.spdmRequest m code p1 p2 body) s = .next (s.emit (.spdm 0x69 [p1, 0]))) ∧
  (∀ (m : Mgmt) (code p1 p2 : BitVec 8) (body : List Byte) (s : State), s.serving = true → code = 0xEC → 
    exec (.spdmRequest m code p1 p2 body) s = .next (({ s with dom := { s.dom with sessions := s.dom.sessions - 1 } } : State).emit (.spdm 0x6C [0, 0]))) ∧
  (∀ (m : Mgmt) (code p1 p2 : BitVec 8) (body : List Byte) (s : State), s.serving = true → code = 0x85 → 
    exec (.spdmRequest m code p1 p2 body) s = .next (s.spdmError spdmUnsupported)) ∧
  (∀ (m : Mgmt) (nonce : BitVec 256) (s : State), s.serving = true → 
    exec (.getMeasurements m 0 nonce) s = .next (s.emit (.spdm 0x60 [7]))) ∧
  (∀ (m : Mgmt) (nonce : BitVec 256) (s : State), s.serving = true → 
    exec (.getMeasurements m 0xFF nonce) s = .next (s.measAnswer ((List.range 7).filterMap fun k => s.measOf (k + 1)))) ∧
  (∀ (m : Mgmt) (nonce : BitVec 256) (s : State), s.serving = true → 
    exec (.getMeasurements m 0x11 nonce) s = .next (s.askComposite nonce)) ∧
  (∀ (m : Mgmt) (nonce : BitVec 256) (s : State), s.serving = true → s.fbx.trngFailed = false → 
    exec (.getMeasurements m 0x10 nonce) s = .next (((s.memberStatement nonce).2.measAnswer [measBlock 0x10 measRaw (s.memberStatement nonce).1]))) ∧
  (∀ (m : Mgmt) (nonce : BitVec 256) (s : State), s.serving = true → s.fbx.trngFailed = true → 
    exec (.getMeasurements m 0x10 nonce) s = .next (s.spdmError spdmBusy)) ∧
  (∀ (m : Mgmt) (index : BitVec 8) (nonce : BitVec 256) (b : List Byte) (s : State), s.serving = true → 1 ≤ index.toNat → index.toNat ≤ 7 → s.measOf index.toNat = some b → 
    exec (.getMeasurements m index nonce) s = .next (s.measAnswer [b]))

/-- Of a command at work. SYNC_INIT, SYNC_FREE, SYNC_NOTIFY, SYNC_GRANT and SYNC_UNGRANT whose check (chkSyncInit,
chkSyncFree, chkSyncNotify, chkSyncGrant, chkSyncUngrant) fails end with its status and detail. Passed: SYNC_INIT makes
its object an event or a fence, as the operand says, with the value given, and touches it (touchObj); SYNC_FREE orphans
and frees it (orphanObj); SYNC_NOTIFY arms its notifier with the mode, threshold, handle, offset and vector given and lets
it fire if it already should (fireNotify); SYNC_UNGRANT revokes the entry named (revokeGrant) and settles the waits; each
then ends well. SYNC_GRANT with a free entry n: the entry holds its range, owner, grantee and rights, and the command ends
well with n and its generation; with none free it fails SYNC_NO_GRANT. -/
def Obligations.SyncCommands : Prop :=
  (∀ (i q seq : Nat) (c : Cmd) (d : Nat) (st : Nat) (s : State), s.works i q seq 0x40 c = true → s.chkSyncInit i c = (st, d) → st ≠ 0 → 
    exec (.syncInit i q seq) s = .next (s.failCmd i q seq st d 0)) ∧
  (∀ (i q seq : Nat) (c : Cmd) (d : Nat) (s : State), s.works i q seq 0x40 c = true → s.chkSyncInit i c = (0, d) → 
    exec (.syncInit i q seq) s = .next ((((s.setSyncObj (s.opObj i c) { kind := if c.f 1 20 20 = 1 then .event else .fence, value := c.w 2 }).touchObj (s.opObj i c)).endCmd i q seq 0))) ∧
  (∀ (i q seq : Nat) (c : Cmd) (d : Nat) (st : Nat) (s : State), s.works i q seq 0x41 c = true → s.chkSyncFree i c = (st, d) → st ≠ 0 → 
    exec (.syncFree i q seq) s = .next (s.failCmd i q seq st d 0)) ∧
  (∀ (i q seq : Nat) (c : Cmd) (d : Nat) (s : State), s.works i q seq 0x41 c = true → s.chkSyncFree i c = (0, d) → 
    exec (.syncFree i q seq) s = .next (((s.orphanObj (s.opObj i c) true).endCmd i q seq 0))) ∧
  (∀ (i q seq : Nat) (c : Cmd) (d : Nat) (st : Nat) (s : State), s.works i q seq 0x42 c = true → s.chkSyncNotify i c = (st, d) → st ≠ 0 → 
    exec (.syncNotify i q seq) s = .next (s.failCmd i q seq st d 0)) ∧
  (∀ (i q seq : Nat) (c : Cmd) (d : Nat) (s : State), s.works i q seq 0x42 c = true → s.chkSyncNotify i c = (0, d) → 
    exec (.syncNotify i q seq) s = .next ((((s.modSyncObj (s.opObj i c) fun x =>
        { x with notify := c.notify, thresh := c.w 2, ntHandle := BitVec.ofNat 32 c.ntHandle, ntOff := c.ntOff, vector := c.vector, armed := true }).fireNotify (s.opObj i c)).endCmd i q seq 0))) ∧
  (∀ (i q seq : Nat) (c : Cmd) (n d : Nat) (s : State), s.works i q seq 0x43 c = true → s.freeGrant = some n → s.chkSyncGrant i c = (0, d) → 
    ∃ t, exec (.syncGrant i q seq) s = .next t ∧ t.grant n = { s.grant n with used := true, owner := i, first := (s.slice i).syncObj (c.f 1 19 0), count := c.f 1 36 20, grantee := c.f 1 47 37, wait := decide (c.f 1 48 48 = 1), signal := decide (c.f 1 49 49 = 1) } ∧
      t.cmd? i q seq = some (c.finishOk 0 (BitVec.ofNat 64 (n + 65536 * (s.grant n).gen)))) ∧
  (∀ (i q seq : Nat) (c : Cmd) (d : Nat) (s : State), s.works i q seq 0x43 c = true → s.freeGrant = none → s.chkSyncGrant i c = (0, d) → 
    exec (.syncGrant i q seq) s = .next (s.failCmd i q seq stSyncNoGrant dtNone 0)) ∧
  (∀ (i q seq : Nat) (c : Cmd) (st d : Nat) (s : State), s.works i q seq 0x43 c = true → s.chkSyncGrant i c = (st, d) → st ≠ 0 → 
    exec (.syncGrant i q seq) s = .next (s.failCmd i q seq st d 0)) ∧
  (∀ (i q seq : Nat) (c : Cmd) (d : Nat) (st : Nat) (s : State), s.works i q seq 0x44 c = true → s.chkSyncUngrant i c = (st, d) → st ≠ 0 → 
    exec (.syncUngrant i q seq) s = .next (s.failCmd i q seq st d 0)) ∧
  (∀ (i q seq : Nat) (c : Cmd) (d : Nat) (s : State), s.works i q seq 0x44 c = true → s.chkSyncUngrant i c = (0, d) → 
    exec (.syncUngrant i q seq) s = .next ((((s.revokeGrant (c.f 1 15 0)).settleSync).endCmd i q seq 0)))

/-- Of a command at work. CTR_SAMPLE and WATCH_REPORT store what was latched at their start at their destination object:
stored, they end well with DONE the bytes latched; a store that fails ends them with its status, detail A and the bytes
done; one that waits leaves them waiting. WATCH_ARM that passes chkWatchArm arms the free window n over the operand's
range with the object's kind, KID and base, holds the object, counts one on the window's privileged counter and ends well
with n; one that fails a check ends with its status and detail. WATCH_DISARM that passes chkWatch disarms the window named
and ends well, and otherwise ends with that status and detail. -/
def Obligations.WitnessCommands : Prop :=
  (∀ (i q seq : Nat) (c : Cmd) (s₁ : State) (s : State), s.works i q seq 0x50 c = true → s.storeObj i q seq (hIndex (c.f 1 31 0)) (c.f 2 39 0) c.latch = (.done, s₁) → 
    exec (.ctrSample i q seq) s = .next ((s₁.endCmd i q seq c.latch.length))) ∧
  (∀ (i q seq : Nat) (c : Cmd) (st n : Nat) (s₁ : State) (s : State), s.works i q seq 0x50 c = true → s.storeObj i q seq (hIndex (c.f 1 31 0)) (c.f 2 39 0) c.latch = (.fail st n, s₁) → 
    exec (.ctrSample i q seq) s = .next ((s₁.failCmd i q seq st dtA n))) ∧
  (∀ (i q seq : Nat) (c : Cmd) (s₁ : State) (s : State), s.works i q seq 0x50 c = true → s.storeObj i q seq (hIndex (c.f 1 31 0)) (c.f 2 39 0) c.latch = (.wait, s₁) → 
    exec (.ctrSample i q seq) s = .next s₁) ∧
  (∀ (i q seq : Nat) (c : Cmd) (s₁ : State) (s : State), s.works i q seq 0x53 c = true → s.storeObj i q seq (hIndex (c.f 2 31 0)) (c.f 3 39 0) c.latch = (.done, s₁) → 
    exec (.watchReport i q seq) s = .next ((s₁.endCmd i q seq c.latch.length))) ∧
  (∀ (i q seq : Nat) (c : Cmd) (st n : Nat) (s₁ : State) (s : State), s.works i q seq 0x53 c = true → s.storeObj i q seq (hIndex (c.f 2 31 0)) (c.f 3 39 0) c.latch = (.fail st n, s₁) → 
    exec (.watchReport i q seq) s = .next ((s₁.failCmd i q seq st dtA n))) ∧
  (∀ (i q seq : Nat) (c : Cmd) (s₁ : State) (s : State), s.works i q seq 0x53 c = true → s.storeObj i q seq (hIndex (c.f 2 31 0)) (c.f 3 39 0) c.latch = (.wait, s₁) → 
    exec (.watchReport i q seq) s = .next s₁) ∧
  (∀ (i q seq : Nat) (c : Cmd) (d n : Nat) (s : State), s.works i q seq 0x51 c = true → s.chkWatchArm i c = (0, d) → s.freeWatch = some n → 
    exec (.watchArm i q seq) s = .next (((((s.objHold i (hIndex c.waObj)).setWatch n { armed := true, mode := c.waMode, slice := i, obj := hIndex c.waObj, kind := (s.obj i (hIndex c.waObj)).kind, kid := (s.obj i (hIndex c.waObj)).kid, base := (s.obj i (hIndex c.waObj)).base + c.waOff, len := c.waLen, armedAt := s.now }).priv (0x202 + 4 * n) 1).endCmd i q seq 0 (BitVec.ofNat 64 n)))) ∧
  (∀ (i q seq : Nat) (c : Cmd) (st d : Nat) (s : State), s.works i q seq 0x51 c = true → s.chkWatchArm i c = (st, d) → st ≠ 0 → 
    exec (.watchArm i q seq) s = .next (s.failCmd i q seq st d 0)) ∧
  (∀ (i q seq : Nat) (c : Cmd) (d : Nat) (st : Nat) (s : State), s.works i q seq 0x52 c = true → s.chkWatch i c = (st, d) → st ≠ 0 → 
    exec (.watchDisarm i q seq) s = .next (s.failCmd i q seq st d 0)) ∧
  (∀ (i q seq : Nat) (c : Cmd) (d : Nat) (s : State), s.works i q seq 0x52 c = true → s.chkWatch i c = (0, d) → 
    exec (.watchDisarm i q seq) s = .next (((s.disarm (c.f 1 3 0)).endCmd i q seq 0)))

/-- Of a command at work. KID_BIND, after the domain secret's cell has been used (useCell), judges chkKidBind: DOM_STATE
when the slot binds no KID, then KID_NONE, then NO_ENTROPY; passed, the lowest free KID is bound (bindKid) and the command
ends well with its number, and otherwise it fails with that status. KID_RETIRE of an ACTIVE KID, not 0, of the slice's
slot makes it RETIRING and ends well; of another it fails KID_STATE. RGN_ASSIGN with a free entry and no fault of asgRgn
assigns it and ends well with number, depth and pages; with a fault it fails with its status, with no entry NO_RGN.
HRG_ASSIGN likewise puts the lowest free entry into INITIALISING and waits. RGN_RELEASE and HRG_RELEASE without a fault
begin the release (releaseRgn, releaseHrg) and wait for it, and otherwise fail with the fault's status; the three that
wait do nothing once they have begun. RESEAL_KEY at work runs sweepRun over every page, REKEY_SWEEP_PAGE one page of the
first command that sweeps its region, and does nothing without one. sweepRun, both KIDs of the region ACTIVE after useRgn
and the command at its turn among the background jobs: one page is resealed (sweepPage), progress and DONE follow the
watermark, and at the last page the sweep ends, the command ends well with DONE the whole region and the waiting requests
go on; before it the next page follows. Not its turn: it waits. A KID not ACTIVE: it fails RGN_KID with the pages done. So
RESEAL_KEY and REKEY_SWEEP_PAGE at the last page complete. HEARTH_INIT_DONE of a range INITIALISING, under a key that
serves and a KID that admits: with every MiB done the range ends its initialisation (initEnd); with one left and at its
turn that MiB is zeroed (initMib) and then it ends; not its turn, it waits; of another range it does nothing but use the
cell. initEnd makes the range ACTIVE and answers the assignment: result 2 in the register, or the command ended with its
number. -/
def Obligations.KeyCommandsAndSweeps : Prop :=
  (∀ (i q seq : Nat) (c : Cmd) (d : Nat) (u : State) (s : State), s.works i q seq 0x60 c = true → u = s.useCell (.prkDom ((s.domainOf i).getD 0)) → u.chkKidBind i = (0, d) → 
    exec (.kidBind i q seq) s = .next (((u.bindKid (u.freeKid.getD 0) (u.domainOf i)).endCmd i q seq 0 (BitVec.ofNat 64 (u.freeKid.getD 0))))) ∧
  (∀ (i q seq : Nat) (c : Cmd) (st d : Nat) (u : State) (s : State), s.works i q seq 0x60 c = true → u = s.useCell (.prkDom ((s.domainOf i).getD 0)) → u.chkKidBind i = (st, d) → st ≠ 0 → 
    exec (.kidBind i q seq) s = .next (u.failCmd i q seq st d 0)) ∧
  (∀ (i : Nat) (s : State), s.chkKidBind i =
    if s.slotBinds (s.domainOf i) = false then (stDomState, dtNone) else if s.freeKid = none then (stKidNone, dtNone)
    else if s.fbx.trngFailed = true then (stNoEntropy, dtNone) else (0, 0)) ∧
  (∀ (i q seq : Nat) (c : Cmd) (s : State), s.works i q seq 0x61 c = true → c.f 1 11 0 ≠ 0 → (s.kid (c.f 1 11 0)).state = .active → (s.kid (c.f 1 11 0)).dvalid = true → some (s.kid (c.f 1 11 0)).dslot = s.domainOf i → 
    ∃ t, exec (.kidRetire i q seq) s = .next t ∧ t.kid (c.f 1 11 0) = { s.kid (c.f 1 11 0) with state := .retiring } ∧ t.cmd? i q seq = some (c.finishOk 0 0)) ∧
  (∀ (i q seq : Nat) (c : Cmd) (s : State), s.works i q seq 0x61 c = true → c.f 1 11 0 = 0 ∨ (s.kid (c.f 1 11 0)).state ≠ .active ∨ (s.kid (c.f 1 11 0)).dvalid = false ∨ some (s.kid (c.f 1 11 0)).dslot ≠ s.domainOf i → 
    exec (.kidRetire i q seq) s = .next (s.failCmd i q seq stKidState dtNone 0)) ∧
  (∀ (i q seq : Nat) (c : Cmd) (n : Nat) (s : State), s.works i q seq 0x62 c = true → s.freeRgn = some n → s.asgRgn (rgnOf (c.w 1)) (some (s.domainOf i)) = 0 → 
    exec (.rgnAssign i q seq) s = .next (((s.assignRgn n (rgnOf (c.w 1))).endCmd i q seq 0 (BitVec.ofNat 64 (n + 64 * (rgnOf (c.w 1)).depth + 512 * (rgnOf (c.w 1)).pages))))) ∧
  (∀ (i q seq : Nat) (c : Cmd) (n m : Nat) (s : State), s.works i q seq 0x62 c = true → s.freeRgn = some n → s.asgRgn (rgnOf (c.w 1)) (some (s.domainOf i)) = m → asgStatus m ≠ 0 → 
    exec (.rgnAssign i q seq) s = .next (s.failCmd i q seq (asgStatus m) dtNone 0)) ∧
  (∀ (i q seq : Nat) (c : Cmd) (s : State), s.works i q seq 0x62 c = true → s.freeRgn = none → 
    exec (.rgnAssign i q seq) s = .next (s.failCmd i q seq stNoRgn dtNone 0)) ∧
  (∀ (i q seq : Nat) (c : Cmd) (s : State), s.works i q seq 0x63 c = true → c.rgn = 0 → s.relRgn (c.f 1 5 0) (some (s.domainOf i)) = 0 → 
    exec (.rgnRelease i q seq) s = .next ((s.modCmd i q seq fun x => { x with rgn := c.f 1 5 0 + 1 }).releaseRgn (c.f 1 5 0) false)) ∧
  (∀ (i q seq : Nat) (c : Cmd) (n : Nat) (s : State), s.works i q seq 0x63 c = true → c.rgn = 0 → s.relRgn (c.f 1 5 0) (some (s.domainOf i)) = n → n ≠ 0 → 
    exec (.rgnRelease i q seq) s = .next (s.failCmd i q seq (relStatus n) dtNone 0)) ∧
  (∀ (i q seq : Nat) (c : Cmd) (s : State), s.works i q seq 0x63 c = true → c.rgn ≠ 0 → 
    exec (.rgnRelease i q seq) s = .next s) ∧
  (∀ (i q seq : Nat) (c : Cmd) (n : Nat) (s : State), s.works i q seq 0x65 c = true → c.rgn = 0 → s.freeHrg = some n → s.asgHrg (hrgOf (c.w 1)) (some (s.domainOf i)) = 0 → 
    exec (.hrgAssign i q seq) s = .next (((s.setHrg n { hrgOf (c.w 1) with state := .initialising }).modCmd i q seq fun c => { c with rgn := n + 1 }))) ∧
  (∀ (i q seq : Nat) (c : Cmd) (n m : Nat) (s : State), s.works i q seq 0x65 c = true → c.rgn = 0 → s.freeHrg = some n → s.asgHrg (hrgOf (c.w 1)) (some (s.domainOf i)) = m → asgStatus m ≠ 0 → 
    exec (.hrgAssign i q seq) s = .next (s.failCmd i q seq (asgStatus m) dtNone 0)) ∧
  (∀ (i q seq : Nat) (c : Cmd) (s : State), s.works i q seq 0x65 c = true → c.rgn = 0 → s.freeHrg = none → 
    exec (.hrgAssign i q seq) s = .next (s.failCmd i q seq stNoRgn dtNone 0)) ∧
  (∀ (i q seq : Nat) (c : Cmd) (s : State), s.works i q seq 0x65 c = true → c.rgn ≠ 0 → 
    exec (.hrgAssign i q seq) s = .next s) ∧
  (∀ (i q seq : Nat) (c : Cmd) (s : State), s.works i q seq 0x66 c = true → c.rgn = 0 → s.relHrg (c.f 1 3 0) (some (s.domainOf i)) = 0 → 
    exec (.hrgRelease i q seq) s = .next ((s.modCmd i q seq fun x => { x with rgn := c.f 1 3 0 + 1 }).releaseHrg (c.f 1 3 0) false)) ∧
  (∀ (i q seq : Nat) (c : Cmd) (n : Nat) (s : State), s.works i q seq 0x66 c = true → c.rgn = 0 → s.relHrg (c.f 1 3 0) (some (s.domainOf i)) = n → n ≠ 0 → 
    exec (.hrgRelease i q seq) s = .next (s.failCmd i q seq (relStatus n) dtNone 0)) ∧
  (∀ (i q seq : Nat) (c : Cmd) (s : State), s.works i q seq 0x66 c = true → c.rgn ≠ 0 → 
    exec (.hrgRelease i q seq) s = .next s) ∧
  (∀ (i q seq : Nat) (c : Cmd) (s : State), s.works i q seq 0x64 c = true → 
    exec (.resealKey i q seq) s = .next (State.sweepRun i q seq ((s.rgn (c.rgn - 1)).pages + 1) s)) ∧
  (∀ (region : Nat) (i q : Nat) (c : Cmd) (s : State), (s.allCmds.find? fun e => e.2.2.rgn = region + 1 && e.2.2.opcode = 0x64 && e.2.2.runs) = some (i, q, c) → s.works i q c.seq 0x64 c = true → 
    exec (.rekeySweepPage region) s = .next (State.sweepRun i q c.seq 1 s)) ∧
  (∀ (region : Nat) (s : State), (s.allCmds.find? fun e => e.2.2.rgn = region + 1 && e.2.2.opcode = 0x64 && e.2.2.runs) = none → 
    exec (.rekeySweepPage region) s = .next s) ∧
  (∀ (i q seq : Nat) (c : Cmd) (u w : State) (s : State), s.works i q seq 0x64 c = true → c.rgn ≠ 0 → u = s.useRgn (c.rgn - 1) → (u.kid (u.rgn (c.rgn - 1)).kid).state = .active → (u.kid (u.rgn (c.rgn - 1)).newKid).state = .active → u.bgTurn clsReseal (cmdJob i q seq) = true → w = (u.bgTaken clsReseal (cmdJob i q seq)).sweepPage (c.rgn - 1) → (u.rgn (c.rgn - 1)).pages ≤ (w.rgn (c.rgn - 1)).watermark → 
    exec (.resealKey i q seq) s = .next ((((w.modCmd i q seq fun x => { x with progress := (w.rgn (c.rgn - 1)).watermark, done := 4096 * (w.rgn (c.rgn - 1)).watermark }).endSweep (c.rgn - 1)).endCmd i q seq (4096 * (u.rgn (c.rgn - 1)).pages)).runHbm.settleHbm)) ∧
  (∀ (region i q : Nat) (c : Cmd) (u w : State) (s : State), s.works i q c.seq 0x64 c = true → c.rgn ≠ 0 → u = s.useRgn (c.rgn - 1) → (u.kid (u.rgn (c.rgn - 1)).kid).state = .active → (u.kid (u.rgn (c.rgn - 1)).newKid).state = .active → u.bgTurn clsReseal (cmdJob i q c.seq) = true → w = (u.bgTaken clsReseal (cmdJob i q c.seq)).sweepPage (c.rgn - 1) → (u.rgn (c.rgn - 1)).pages ≤ (w.rgn (c.rgn - 1)).watermark → (s.allCmds.find? fun e => e.2.2.rgn = region + 1 && e.2.2.opcode = 0x64 && e.2.2.runs) = some (i, q, c) → 
    exec (.rekeySweepPage region) s = .next ((((w.modCmd i q c.seq fun x => { x with progress := (w.rgn (c.rgn - 1)).watermark, done := 4096 * (w.rgn (c.rgn - 1)).watermark }).endSweep (c.rgn - 1)).endCmd i q c.seq (4096 * (u.rgn (c.rgn - 1)).pages)).runHbm.settleHbm)) ∧
  (∀ (f i q seq : Nat) (c : Cmd) (u w : State) (s : State), s.cmd? i q seq = some c → c.runs = true → c.rgn ≠ 0 → u = s.useRgn (c.rgn - 1) → (u.kid (u.rgn (c.rgn - 1)).kid).state = .active → (u.kid (u.rgn (c.rgn - 1)).newKid).state = .active → u.bgTurn clsReseal (cmdJob i q seq) = true → w = (u.bgTaken clsReseal (cmdJob i q seq)).sweepPage (c.rgn - 1) → (u.rgn (c.rgn - 1)).pages ≤ (w.rgn (c.rgn - 1)).watermark →
    State.sweepRun i q seq (f + 1) s = (((w.modCmd i q seq fun x => { x with progress := (w.rgn (c.rgn - 1)).watermark, done := 4096 * (w.rgn (c.rgn - 1)).watermark }).endSweep (c.rgn - 1)).endCmd i q seq (4096 * (u.rgn (c.rgn - 1)).pages)).runHbm.settleHbm) ∧
  (∀ (f i q seq : Nat) (c : Cmd) (u w : State) (s : State), s.cmd? i q seq = some c → c.runs = true → c.rgn ≠ 0 → u = s.useRgn (c.rgn - 1) → (u.kid (u.rgn (c.rgn - 1)).kid).state = .active → (u.kid (u.rgn (c.rgn - 1)).newKid).state = .active → u.bgTurn clsReseal (cmdJob i q seq) = true → w = (u.bgTaken clsReseal (cmdJob i q seq)).sweepPage (c.rgn - 1) → (w.rgn (c.rgn - 1)).watermark < (u.rgn (c.rgn - 1)).pages →
    State.sweepRun i q seq (f + 1) s = State.sweepRun i q seq f (w.modCmd i q seq fun x => { x with progress := (w.rgn (c.rgn - 1)).watermark, done := 4096 * (w.rgn (c.rgn - 1)).watermark }).runHbm.settleHbm) ∧
  (∀ (f i q seq : Nat) (c : Cmd) (u : State) (s : State), s.cmd? i q seq = some c → c.runs = true → c.rgn ≠ 0 → u = s.useRgn (c.rgn - 1) → (u.kid (u.rgn (c.rgn - 1)).kid).state = .active → (u.kid (u.rgn (c.rgn - 1)).newKid).state = .active → u.bgTurn clsReseal (cmdJob i q seq) = false →
    State.sweepRun i q seq (f + 1) s = u) ∧
  (∀ (f i q seq : Nat) (c : Cmd) (u : State) (s : State), s.cmd? i q seq = some c → c.runs = true → c.rgn ≠ 0 → u = s.useRgn (c.rgn - 1) → (u.kid (u.rgn (c.rgn - 1)).kid).state ≠ .active ∨ (u.kid (u.rgn (c.rgn - 1)).newKid).state ≠ .active →
    State.sweepRun i q seq (f + 1) s = u.failCmd i q seq stRgnKid dtNone (4096 * (u.rgn (c.rgn - 1)).watermark)) ∧
  (∀ (n : Nat) (u : State) (s : State), u = s.useCell (.kid (s.hrg n).kid) → (u.hrg n).state = .initialising → u.kidServes (u.hrg n).kid = true → u.kidAdmits (u.hrg n).kid = true → (u.hrg n).size ≤ (u.hrg n).initDone → 
    exec (.hearthInitDone n) s = .next (u.initEnd n)) ∧
  (∀ (n : Nat) (u : State) (s : State), u = s.useCell (.kid (s.hrg n).kid) → (u.hrg n).state = .initialising → u.kidServes (u.hrg n).kid = true → u.kidAdmits (u.hrg n).kid = true → (u.hrg n).initDone < (u.hrg n).size → u.bgTurn clsInit n = true → ((u.initMib n).hrg n).size ≤ ((u.initMib n).hrg n).initDone → 
    exec (.hearthInitDone n) s = .next ((u.initMib n).initEnd n)) ∧
  (∀ (n : Nat) (u : State) (s : State), u = s.useCell (.kid (s.hrg n).kid) → (u.hrg n).state = .initialising → u.kidServes (u.hrg n).kid = true → u.kidAdmits (u.hrg n).kid = true → (u.hrg n).initDone < (u.hrg n).size → u.bgTurn clsInit n = false → 
    exec (.hearthInitDone n) s = .next u) ∧
  (∀ (n : Nat) (u : State) (s : State), u = s.useCell (.kid (s.hrg n).kid) → (u.hrg n).state ≠ .initialising ∨ u.kidServes (u.hrg n).kid = false ∨ u.kidAdmits (u.hrg n).kid = false → 
    exec (.hearthInitDone n) s = .next u) ∧
  (∀ (n : Nat) (s : State), (s.hrg n).byReg = true →
    s.initEnd n = (let u := s.setHrg n { s.hrg n with state := .active, byReg := false }; { u with hth := { u.hth with rres := 2 } })) ∧
  (∀ (n : Nat) (s : State), (s.hrg n).byReg = false →
    s.initEnd n = (s.setHrg n { s.hrg n with state := .active, byReg := false }).endRgnCmds 0x65 n 0 (BitVec.ofNat 64 n))

/-- A BIND_PLAIN or RETIRE that is served while a command is pending (KRES 1) leaves the state as it is but for the
requester's held low half, t below. Otherwise KID 0 sets the result 5, a KID outside the plain range 4. BIND_PLAIN of a
KID not FREE sets 3; of a FREE one it sets 6 once the TRNG has failed, else uses the boot root's cell, binds the KID under
no domain and sets 2. RETIRE of a KID not ACTIVE sets 3; of an ACTIVE one it makes the KID RETIRING and sets 2. A write of
FBX_CTL is ignored while LOCK is set, and else sets LOCK from bit 0, REMASK_LOG2 from bits 16:13, and PLAIN_KID_MAX from
bits 12:1 if all KIDs are FREE. KID_FLUSH_COMPLETE of a RETIRING KID that no accepted request needs, with the Stoker
running, writes back what is cached under it if its key lives, drops what is cached and the KID's cell, makes the KID
COOLING, and lets the KIDs settle; of a KID not RETIRING, of one still needed, or with the Stoker stopped it does nothing.
-/
def Obligations.FireboxRegisters : Prop :=
  (∀ (r : Req) (kid : Kid) (t : State) (s : State), s.served r 0x20028 = true → s.dropHeld r = t → t.fbx.kres = 1 → 
    exec (.bindPlain r kid) s = .next t) ∧
  (∀ (r : Req) (kid : Kid) (t : State) (s : State), s.served r 0x20028 = true → s.dropHeld r = t → t.fbx.kres = 1 → 
    exec (.fbxRetire r kid) s = .next t) ∧
  (∀ (r : Req) (kid : Kid) (t : State) (s : State), s.served r 0x20028 = true → s.dropHeld r = t → t.fbx.kres ≠ 1 → kid = 0 → 
    exec (.bindPlain r kid) s = .next (t.setFbxRes 5)) ∧
  (∀ (r : Req) (kid : Kid) (t : State) (s : State), s.served r 0x20028 = true → s.dropHeld r = t → t.fbx.kres ≠ 1 → kid = 0 → 
    exec (.fbxRetire r kid) s = .next (t.setFbxRes 5)) ∧
  (∀ (r : Req) (kid : Kid) (t : State) (s : State), s.served r 0x20028 = true → s.dropHeld r = t → t.fbx.kres ≠ 1 → kid.toNat ≠ 0 → t.kidPlain kid.toNat = false → 
    exec (.bindPlain r kid) s = .next (t.setFbxRes 4)) ∧
  (∀ (r : Req) (kid : Kid) (t : State) (s : State), s.served r 0x20028 = true → s.dropHeld r = t → t.fbx.kres ≠ 1 → kid.toNat ≠ 0 → t.kidPlain kid.toNat = false → 
    exec (.fbxRetire r kid) s = .next (t.setFbxRes 4)) ∧
  (∀ (r : Req) (kid : Kid) (t : State) (s : State), s.served r 0x20028 = true → s.dropHeld r = t → t.fbx.kres ≠ 1 → kid.toNat ≠ 0 → t.kidPlain kid.toNat = true → (t.kid kid.toNat).state ≠ .free → 
    exec (.bindPlain r kid) s = .next (t.setFbxRes 3)) ∧
  (∀ (r : Req) (kid : Kid) (t : State) (s : State), s.served r 0x20028 = true → s.dropHeld r = t → t.fbx.kres ≠ 1 → kid.toNat ≠ 0 → t.kidPlain kid.toNat = true → (t.kid kid.toNat).state = .free → t.fbx.trngFailed = true → 
    exec (.bindPlain r kid) s = .next (t.setFbxRes 6)) ∧
  (∀ (r : Req) (kid : Kid) (t : State) (s : State), s.served r 0x20028 = true → s.dropHeld r = t → t.fbx.kres ≠ 1 → kid.toNat ≠ 0 → t.kidPlain kid.toNat = true → (t.kid kid.toNat).state = .free → t.fbx.trngFailed = false → 
    exec (.bindPlain r kid) s = .next (((t.useCell .bootRoot).bindKid kid.toNat none).setFbxRes 2)) ∧
  (∀ (r : Req) (kid : Kid) (t : State) (s : State), s.served r 0x20028 = true → s.dropHeld r = t → t.fbx.kres ≠ 1 → kid.toNat ≠ 0 → t.kidPlain kid.toNat = true → (t.kid kid.toNat).state ≠ .active → 
    exec (.fbxRetire r kid) s = .next (t.setFbxRes 3)) ∧
  (∀ (r : Req) (kid : Kid) (t : State) (s : State), s.served r 0x20028 = true → s.dropHeld r = t → t.fbx.kres ≠ 1 → kid.toNat ≠ 0 → t.kidPlain kid.toNat = true → (t.kid kid.toNat).state = .active → 
    exec (.fbxRetire r kid) s = .next ((t.modKid kid.toNat fun e => { e with state := .retiring }).setFbxRes 2)) ∧
  (∀ (r : Req) (v : BitVec 32) (t : State) (s : State), s.served r 0x20008 = true → s.dropHeld r = t → t.fbx.lock = true → 
    exec (.fbxCtlWrite r v) s = .next t) ∧
  (∀ (r : Req) (v : BitVec 32) (t : State) (s : State), s.served r 0x20008 = true → s.dropHeld r = t → t.fbx.lock = false → 
    exec (.fbxCtlWrite r v) s = .next { t with fbx := { t.fbx with lock := v.getLsbD 0, plainKidMax := if t.allKidsFree then v.extractLsb' 1 12 else t.fbx.plainKidMax, remaskLog2 := v.extractLsb' 13 4 } }) ∧
  (∀ (kid : Kid) (s : State), s.stokerRuns = true → (s.kid kid.toNat).state = .retiring → s.kidInUse kid.toNat = false → s.kidKeyed kid.toNat = true → 
    exec (.kidFlushComplete kid) s = .next (((((s.writeBackAll (Cached.under kid.toNat)).dropCached (Cached.under kid.toNat)).cellDrop (.kid kid.toNat)).modKid kid.toNat fun e => { e with state := .cooling }).kidSettle)) ∧
  (∀ (kid : Kid) (s : State), s.stokerRuns = true → (s.kid kid.toNat).state = .retiring → s.kidInUse kid.toNat = false → s.kidKeyed kid.toNat = false → 
    exec (.kidFlushComplete kid) s = .next ((((s.dropCached (Cached.under kid.toNat)).cellDrop (.kid kid.toNat)).modKid kid.toNat fun e => { e with state := .cooling }).kidSettle)) ∧
  (∀ (kid : Kid) (s : State), (s.kid kid.toNat).state ≠ .retiring → 
    exec (.kidFlushComplete kid) s = .next s) ∧
  (∀ (kid : Kid) (s : State), s.kidInUse kid.toNat = true → 
    exec (.kidFlushComplete kid) s = .next s) ∧
  (∀ (kid : Kid) (s : State), s.stokerRuns = false → 
    exec (.kidFlushComplete kid) s = .next s)

/-- Of a session that leads and a slot number that can be named: an EPOCH_PREPARE, EPOCH_SWITCH or EPOCH_RETIRE for a slot
LIVE or QUARANTINED whose phase and epoch it fits is sent to the other members, applied here, and awaits their
confirmations; one that does not fit is answered BAD_STATE, but for EPOCH_PREPARE of a STEADY slot at epoch 0xFFFF, which
is answered BAD_PARAM; for a slot neither LIVE nor QUARANTINED it is answered BAD_STATE. REMASK before Kindling step 2 or
before its period has passed does nothing. Otherwise it restarts the period, draws fresh masks for every cell whose check
value holds and is not named bad, then takes the cell fault of every other one, and begins SYSRST if the root fault is
set; said again for no cell, for one good cell and for one bad cell. ORPHAN_SWEEP drops what is cached under dead KIDs of
regions other than 64 and zeroes every orphaned cell whose check value holds. KEY_DERIVE_DONE with nothing asked for does
nothing; else the oldest request leaves the queue: a true one uses the epoch key's cell, and if the pair key derives adds
the session and resumes the links, if not resumes them with that request refused; a false one sets FBX alarm bit 2,
records code 0x60, and resumes the links. TRNG_FAULT sets the failure and alarm bit 1, clears TRNG_OK and records code
0x60, and leaves the queues and links as they are. -/
def Obligations.EpochAndFireboxEvents : Prop :=
  (∀ (m : Mgmt) (slot : Nat) (epoch : BitVec 16) (s : State), s.leads m = true → s.slotFree slot = true → (s.slot slot).state = .live ∨ (s.slot slot).state = .quarantined → ¬ ((s.slot slot).phase = .steady ∧ (s.slot slot).epoch = 0xFFFF) → epochFits (s.slot slot) 0 epoch = true → 
    exec (.epochPrepare m slot epoch) s = .next (((s.toPeers bkEpoch [slot, 0, epoch.toNat]).applyEpoch slot 0 epoch).awaitPeers slot 2)) ∧
  (∀ (m : Mgmt) (slot : Nat) (epoch : BitVec 16) (s : State), s.leads m = true → s.slotFree slot = true → (s.slot slot).state = .live ∨ (s.slot slot).state = .quarantined → ¬ ((s.slot slot).phase = .steady ∧ (s.slot slot).epoch = 0xFFFF) → epochFits (s.slot slot) 0 epoch = false → 
    exec (.epochPrepare m slot epoch) s = .next (s.answer .badState)) ∧
  (∀ (m : Mgmt) (slot : Nat) (epoch : BitVec 16) (s : State), s.leads m = true → s.slotFree slot = true → (s.slot slot).state = .live ∨ (s.slot slot).state = .quarantined → (s.slot slot).phase = .steady → (s.slot slot).epoch = 0xFFFF → 
    exec (.epochPrepare m slot epoch) s = .next (s.answer .badParam)) ∧
  (∀ (m : Mgmt) (slot : Nat) (epoch : BitVec 16) (s : State), s.leads m = true → s.slotFree slot = true → (s.slot slot).state ≠ .live → (s.slot slot).state ≠ .quarantined → 
    exec (.epochPrepare m slot epoch) s = .next (s.answer .badState)) ∧
  (∀ (m : Mgmt) (slot : Nat) (epoch : BitVec 16) (s : State), s.leads m = true → s.slotFree slot = true → (s.slot slot).state = .live ∨ (s.slot slot).state = .quarantined → epochFits (s.slot slot) 1 epoch = true → 
    exec (.epochSwitch m slot epoch) s = .next (((s.toPeers bkEpoch [slot, 1, epoch.toNat]).applyEpoch slot 1 epoch).awaitPeers slot 2)) ∧
  (∀ (m : Mgmt) (slot : Nat) (epoch : BitVec 16) (s : State), s.leads m = true → s.slotFree slot = true → (s.slot slot).state = .live ∨ (s.slot slot).state = .quarantined → epochFits (s.slot slot) 1 epoch = false → 
    exec (.epochSwitch m slot epoch) s = .next (s.answer .badState)) ∧
  (∀ (m : Mgmt) (slot : Nat) (epoch : BitVec 16) (s : State), s.leads m = true → s.slotFree slot = true → (s.slot slot).state ≠ .live → (s.slot slot).state ≠ .quarantined → 
    exec (.epochSwitch m slot epoch) s = .next (s.answer .badState)) ∧
  (∀ (m : Mgmt) (slot : Nat) (epoch : BitVec 16) (s : State), s.leads m = true → s.slotFree slot = true → (s.slot slot).state = .live ∨ (s.slot slot).state = .quarantined → epochFits (s.slot slot) 2 epoch = true → 
    exec (.epochRetire m slot epoch) s = .next (((s.toPeers bkEpoch [slot, 2, epoch.toNat]).applyEpoch slot 2 epoch).awaitPeers slot 2)) ∧
  (∀ (m : Mgmt) (slot : Nat) (epoch : BitVec 16) (s : State), s.leads m = true → s.slotFree slot = true → (s.slot slot).state = .live ∨ (s.slot slot).state = .quarantined → epochFits (s.slot slot) 2 epoch = false → 
    exec (.epochRetire m slot epoch) s = .next (s.answer .badState)) ∧
  (∀ (m : Mgmt) (slot : Nat) (epoch : BitVec 16) (s : State), s.leads m = true → s.slotFree slot = true → (s.slot slot).state ≠ .live → (s.slot slot).state ≠ .quarantined → 
    exec (.epochRetire m slot epoch) s = .next (s.answer .badState)) ∧
  (∀ (bad : List Nat) (s : State), s.rst.step < 2 ∨ s.sys.now < s.fbx.remaskAt + 2 ^ s.fbx.remaskLog2.toNat * 1000 → 
    exec (.remask bad) s = .next s) ∧
  (∀ (bad : List Nat) (s : State), 2 ≤ s.rst.step → s.fbx.remaskAt + 2 ^ s.fbx.remaskLog2.toNat * 1000 ≤ s.sys.now → 
    exec (.remask bad) s = .next ((((s.fbx.cells.zipIdx.map fun (e : Cell × Nat) => (e.1.id, !e.1.checkOk || bad.contains e.2)).filter fun e => e.2).foldl (fun (s : State) e => s.cellFault e.1) (((s.fbx.cells.zipIdx.map fun (e : Cell × Nat) => (e.1.id, !e.1.checkOk || bad.contains e.2)).filter fun e => !e.2).foldl (fun (s : State) e => s.remaskCell e.1) { s with fbx := { s.fbx with remaskAt := s.sys.now } })).takeRootFault)) ∧
  (∀ (bad : List Nat) (s : State), 2 ≤ s.rst.step → s.fbx.remaskAt + 2 ^ s.fbx.remaskLog2.toNat * 1000 ≤ s.sys.now → s.fbx.cells = [] → 
    exec (.remask bad) s = .next (({ s with fbx := { s.fbx with remaskAt := s.sys.now } } : State).takeRootFault)) ∧
  (∀ (bad : List Nat) (e : Cell) (s : State), 2 ≤ s.rst.step → s.fbx.remaskAt + 2 ^ s.fbx.remaskLog2.toNat * 1000 ≤ s.sys.now → s.fbx.cells = [e] → e.checkOk = true → 0 ∉ bad → 
    exec (.remask bad) s = .next ((({ s with fbx := { s.fbx with remaskAt := s.sys.now } } : State).remaskCell e.id).takeRootFault)) ∧
  (∀ (bad : List Nat) (e : Cell) (s : State), 2 ≤ s.rst.step → s.fbx.remaskAt + 2 ^ s.fbx.remaskLog2.toNat * 1000 ≤ s.sys.now → s.fbx.cells = [e] → e.checkOk = false ∨ 0 ∈ bad → 
    exec (.remask bad) s = .next ((({ s with fbx := { s.fbx with remaskAt := s.sys.now } } : State).cellFault e.id).takeRootFault)) ∧
  (∀ (s : State), 
    ∃ t, exec .orphanSweep s = .next t ∧ ∀ c ∈ t.fbx.cells, (s.dropCached fun c => c.region ≠ 64 && s.deadKids.contains c.kid).cellBound c.id = true ∨ c.checkOk = false) ∧
  (∀ (ok : Bool) (s : State), s.fbx.deriving_ = [] → 
    exec (.keyDeriveDone ok) s = .next s) ∧
  (∀ (slot src dst : Nat) (e : BitVec 16) (rest : List (Nat × BitVec 16 × Nat × Nat)) (key : BitVec 288) (t u : State) (s : State), s.fbx.deriving_ = (slot, e, src, dst) :: rest → { s with fbx := { s.fbx with deriving_ := rest } } = t → t.useCell (.epochKey slot e.toNat) = u → u.pairKey slot e.toNat src dst = some key → 
    exec (.keyDeriveDone true) s = .next ((u.addSess slot e src dst key false).resumeLinks none)) ∧
  (∀ (slot src dst : Nat) (e : BitVec 16) (rest : List (Nat × BitVec 16 × Nat × Nat)) (t u : State) (s : State), s.fbx.deriving_ = (slot, e, src, dst) :: rest → { s with fbx := { s.fbx with deriving_ := rest } } = t → t.useCell (.epochKey slot e.toNat) = u → u.pairKey slot e.toNat src dst = none → 
    exec (.keyDeriveDone true) s = .next (u.resumeLinks (some (slot, e, src, dst)))) ∧
  (∀ (x : Nat × BitVec 16 × Nat × Nat) (rest : List (Nat × BitVec 16 × Nat × Nat)) (u : State) (s : State), s.fbx.deriving_ = x :: rest → (({ s with fbx := { s.fbx with deriving_ := rest, alarm := s.fbx.alarm ||| 4 } } : State).record 0x60 srcFirebox [(1, 4), (1, 0)]).resumeLinks none = u → 
    ∃ t, exec (.keyDeriveDone false) s = .next t ∧ t = u) ∧
  (∀ (s : State), 
    ∃ t, exec .trngFault s = .next t ∧ t.fbx.trngFailed = true ∧ t.fbx.trngOk = false ∧ t.fbx.alarm = s.fbx.alarm ||| 2 ∧ t.qm = s.qm ∧ t.lnk = s.lnk)

/-- Served ASSIGN and RELEASE writes of MSL_RCMD and HTH_RCMD, t being the state without the requester's held low half:
with a command pending (RRES 1) nothing more happens. ASSIGN of an entry that is not unassigned sets the result 3; one
whose configuration is refused with fault m sets the register report of m; otherwise a region is assigned and the result
is 2, and a hearth range enters INITIALISING with its configuration and the result is 1 (PENDING). RELEASE refused with
fault m sets its report; otherwise the result is 1 and the entry begins its release. MSL_CTL and HTH_CTL set LOCK if bit 0
is written, and the default for unassigned addresses from bit 1 unless LOCK was set. HTH_SCRUB_CTL written by a management
session sets PERIOD to bits 7:0 if they are at most 168, and requests that waited for slots are judged again; a greater
PERIOD is ignored. SCRUB_ISSUE of an engine below 12, with a PERIOD not 0, after Kindling step 3, escalated or at its
pace, and in its turn among the background jobs: it takes the turn and scrubs the line its progress names, of a stack
(engines 0 to 3) or a tier; then the progress is one more, or after the last line a new pass starts now, the passes
counted up to 65,535 and escalation ended; then waiting requests go on. Out of turn, ahead of its pace and not escalated,
of an engine not below 12, with PERIOD 0 or before step 3 it does nothing. SCRUB_DEADLINE of an engine below 12 with a
PERIOD not 0, past the pass's deadline, escalates it; otherwise it does nothing. -/
def Obligations.RegionsAndScrubbing : Prop :=
  (∀ (r : Req) (t : State) (s : State), s.served r 0x40028 = true → s.dropHeld r = t → t.msl.rres = 1 → 
    exec (.mslAssign r) s = .next t) ∧
  (∀ (r : Req) (t : State) (s : State), s.served r 0x40028 = true → s.dropHeld r = t → t.msl.rres ≠ 1 → (t.rgn t.msl.rsel).state ≠ .unassigned → 
    exec (.mslAssign r) s = .next (t.setMslRes 3)) ∧
  (∀ (r : Req) (t : State) (s : State), s.served r 0x40028 = true → s.dropHeld r = t → t.msl.rres ≠ 1 → (t.rgn t.msl.rsel).state = .unassigned → t.asgRgn (rgnOf t.msl.rcfg) none = 0 → 
    exec (.mslAssign r) s = .next ((t.assignRgn t.msl.rsel (rgnOf t.msl.rcfg)).setMslRes 2)) ∧
  (∀ (r : Req) (m : Nat) (t : State) (s : State), s.served r 0x40028 = true → s.dropHeld r = t → t.msl.rres ≠ 1 → (t.rgn t.msl.rsel).state = .unassigned → t.asgRgn (rgnOf t.msl.rcfg) none = m → m ≠ 0 → 
    exec (.mslAssign r) s = .next (t.setMslRes (asgReport m))) ∧
  (∀ (r : Req) (t : State) (s : State), s.served r 0x40028 = true → s.dropHeld r = t → t.msl.rres = 1 → 
    exec (.mslRelease r) s = .next t) ∧
  (∀ (r : Req) (t : State) (s : State), s.served r 0x40028 = true → s.dropHeld r = t → t.msl.rres ≠ 1 → t.relRgn t.msl.rsel none = 0 → 
    exec (.mslRelease r) s = .next ((t.setMslRes 1).releaseRgn t.msl.rsel true)) ∧
  (∀ (r : Req) (m : Nat) (t : State) (s : State), s.served r 0x40028 = true → s.dropHeld r = t → t.msl.rres ≠ 1 → t.relRgn t.msl.rsel none = m → m ≠ 0 → 
    exec (.mslRelease r) s = .next (t.setMslRes (relReport m))) ∧
  (∀ (r : Req) (t : State) (s : State), s.served r 0x80020 = true → s.dropHeld r = t → t.hth.rres = 1 → 
    exec (.hthAssign r) s = .next t) ∧
  (∀ (r : Req) (t : State) (s : State), s.served r 0x80020 = true → s.dropHeld r = t → t.hth.rres ≠ 1 → (t.hrg t.hth.rsel).state ≠ .unassigned → 
    exec (.hthAssign r) s = .next (t.setHthRes 3)) ∧
  (∀ (r : Req) (t : State) (s : State), s.served r 0x80020 = true → s.dropHeld r = t → t.hth.rres ≠ 1 → (t.hrg t.hth.rsel).state = .unassigned → t.asgHrg (hrgOf t.hth.rcfg) none = 0 → 
    exec (.hthAssign r) s = .next ((t.setHrg t.hth.rsel { hrgOf t.hth.rcfg with state := .initialising, byReg := true }).setHthRes 1)) ∧
  (∀ (r : Req) (m : Nat) (t : State) (s : State), s.served r 0x80020 = true → s.dropHeld r = t → t.hth.rres ≠ 1 → (t.hrg t.hth.rsel).state = .unassigned → t.asgHrg (hrgOf t.hth.rcfg) none = m → m ≠ 0 → 
    exec (.hthAssign r) s = .next (t.setHthRes (asgReport m))) ∧
  (∀ (r : Req) (t : State) (s : State), s.served r 0x80020 = true → s.dropHeld r = t → t.hth.rres = 1 → 
    exec (.hthRelease r) s = .next t) ∧
  (∀ (r : Req) (t : State) (s : State), s.served r 0x80020 = true → s.dropHeld r = t → t.hth.rres ≠ 1 → t.relHrg t.hth.rsel none = 0 → 
    exec (.hthRelease r) s = .next ((t.setHthRes 1).releaseHrg t.hth.rsel true)) ∧
  (∀ (r : Req) (m : Nat) (t : State) (s : State), s.served r 0x80020 = true → s.dropHeld r = t → t.hth.rres ≠ 1 → t.relHrg t.hth.rsel none = m → m ≠ 0 → 
    exec (.hthRelease r) s = .next (t.setHthRes (relReport m))) ∧
  (∀ (r : Req) (v : BitVec 32) (t : State) (s : State), s.served r 0x40008 = true → s.dropHeld r = t → 
    exec (.mslCtlWrite r v) s = .next { t with msl := { t.msl with defUnassigned := if t.msl.lock then t.msl.defUnassigned else v.getLsbD 1, lock := t.msl.lock || v.getLsbD 0 } }) ∧
  (∀ (r : Req) (v : BitVec 32) (t : State) (s : State), s.served r 0x80008 = true → s.dropHeld r = t → 
    exec (.hthCtlWrite r v) s = .next { t with hth := { t.hth with defUnassigned := if t.hth.lock then t.hth.defUnassigned else v.getLsbD 1, lock := t.hth.lock || v.getLsbD 0 } }) ∧
  (∀ (r : Req) (v : BitVec 32) (t : State) (s : State), s.served r 0x80200 = true → r.mgmt = true → s.dropHeld r = t → bits v.toNat 7 0 ≤ 168 → 
    exec (.hthScrubCtlWrite r v) s = .next (({ t with hth := { t.hth with period := bits v.toNat 7 0 } } : State).wakeSlots)) ∧
  (∀ (r : Req) (v : BitVec 32) (t : State) (s : State), s.served r 0x80200 = true → r.mgmt = true → s.dropHeld r = t → 168 < bits v.toNat 7 0 → 
    exec (.hthScrubCtlWrite r v) s = .next t) ∧
  (∀ (u : Nat) (corrected poison : Bool) (w : State) (s : State), u < 12 → s.hth.period ≠ 0 → 3 ≤ s.rst.step → (s.scrub u).behind = true ∨ (s.scrub u).startAt + s.scrubPeriod - (s.scrub u).lineAt ≤ (s.sys.now - (s.scrub u).lineAt) * (scrubLines u - (s.scrub u).progress) → s.bgTurn (s.scrubClass u) u = true → (if u < 4 then (s.bgTaken (s.scrubClass u) u).scrubStack u (s.scrub u).progress corrected poison else (s.bgTaken (s.scrubClass u) u).scrubTier (u - 4) (s.scrub u).progress corrected poison) = w → (w.scrub u).progress + 1 < scrubLines u → 
    exec (.scrubIssue u corrected poison) s = .next ((w.setScrub u { w.scrub u with progress := (w.scrub u).progress + 1, lineAt := w.now }).runHbm.wakeHearth)) ∧
  (∀ (u : Nat) (corrected poison : Bool) (w : State) (s : State), u < 12 → s.hth.period ≠ 0 → 3 ≤ s.rst.step → (s.scrub u).behind = true ∨ (s.scrub u).startAt + s.scrubPeriod - (s.scrub u).lineAt ≤ (s.sys.now - (s.scrub u).lineAt) * (scrubLines u - (s.scrub u).progress) → s.bgTurn (s.scrubClass u) u = true → (if u < 4 then (s.bgTaken (s.scrubClass u) u).scrubStack u (s.scrub u).progress corrected poison else (s.bgTaken (s.scrubClass u) u).scrubTier (u - 4) (s.scrub u).progress corrected poison) = w → scrubLines u ≤ (w.scrub u).progress + 1 → 
    exec (.scrubIssue u corrected poison) s = .next ((w.setScrub u { progress := 0, passes := min 65535 ((w.scrub u).passes + 1), behind := false, startAt := w.now, lineAt := w.now }).runHbm.wakeHearth)) ∧
  (∀ (u : Nat) (corrected poison : Bool) (s : State), s.bgTurn (s.scrubClass u) u = false → 
    exec (.scrubIssue u corrected poison) s = .next s) ∧
  (∀ (u : Nat) (corrected poison : Bool) (s : State), (s.scrub u).behind = false → (s.sys.now - (s.scrub u).lineAt) * (scrubLines u - (s.scrub u).progress) < (s.scrub u).startAt + s.scrubPeriod - (s.scrub u).lineAt → 
    exec (.scrubIssue u corrected poison) s = .next s) ∧
  (∀ (u : Nat) (corrected poison : Bool) (s : State), 12 ≤ u ∨ s.hth.period = 0 ∨ s.rst.step < 3 → 
    exec (.scrubIssue u corrected poison) s = .next s) ∧
  (∀ (u : Nat) (s : State), u < 12 → s.hth.period ≠ 0 → (s.scrub u).startAt + s.scrubPeriod < s.sys.now → 
    exec (.scrubDeadline u) s = .next (s.setScrub u { s.scrub u with behind := true })) ∧
  (∀ (u : Nat) (s : State), 12 ≤ u ∨ s.hth.period = 0 ∨ s.sys.now ≤ (s.scrub u).startAt + s.scrubPeriod → 
    exec (.scrubDeadline u) s = .next s)

/-- Register writes of a management session that are served, t being the state without its held low half. LNK_CTL.ENABLE
set, of a link that its port's mode has, in a port not fused out, after Kindling step 4, first switches the port's domain
on (w); then a present link that is DISABLED restarts its attempts and enters TRAINING, another only keeps the bit; of a
link the mode lacks the write has no effect. Cleared, a present link not DISABLED goes DISABLED with cause OPERATOR.
RETRAIN of a present link takes an UP one, and a DOWN_FAILED one with its attempts restarted, to cold training; in other
states nothing. ADAPT and SAVE of a present UP link enter ADAPTING and replace its record; in other states nothing. MODE
is written unless it is 3 or a link of the port is not DISABLED; WARN_LOG2 is written only from 32 to 47. TRAINING_DONE of
a TRAINING link takes the lane readbacks: true with saved settings, lock within 50 ms and no lane above 1 corrected symbol
in 10,000, it enters LOCKING; true after cold training, the record is replaced first; saved settings not good are followed
by cold training; a failed cold one is a failed attempt. LOCK_ACQUIRED of a LOCKING link whose lanes read takes them and
enters NEGOTIATING. LOCK_LOST, a lane of an UP link failing three codewords, returns it to LOCKING. LOCK_TIMEOUT after 1
ms and NEG_TIMEOUT after 100 ms are failed attempts; ADAPT_DONE leads to LOCKING. SER_RATE counts, and above 1 in 10,000
an UP link enters ADAPTING. NEGOTIATE_RECEIVE: without lock a damaged flit; NEGOTIATING, damaged if undecodable,
unassigned or failing its CRC, passed over if no NEGOTIATE, else taken: another format, level or width is a failed
attempt, an accepted one is noted and, if the peer has seen ours, brings the link up; UP, another node number negotiates
again. NEGOTIATE_SEND sends while NEGOTIATING or UP, first and every 100 µs. In the other states given none has an effect.
-/
def Obligations.LinkControlAndTraining : Prop :=
  (∀ (r : Req) (link : Nat) (w t : State) (s : State), r.mgmt = true → 4 ≤ s.rst.step → s.linkInMode link = true → s.sys.pdFused.getLsbD (6 + portOf link) = false → { s with sys := { s.sys with pd := s.sys.pd.set .on (6 + portOf link) .on } } = w → w.served r (lnkCtl (portOf link)) = true → w.dropHeld r = t → t.linkPresent link = true → ((t.modLink link fun x => { x with enable := true }).link link).state = .disabled → 
    exec (.linkEnable r link true) s = .next (((t.modLink link fun x => { x with enable := true }).modLink link fun x => { x with attempts := 0 }).toTraining link none false)) ∧
  (∀ (r : Req) (link : Nat) (w t : State) (s : State), r.mgmt = true → 4 ≤ s.rst.step → s.linkInMode link = true → s.sys.pdFused.getLsbD (6 + portOf link) = false → { s with sys := { s.sys with pd := s.sys.pd.set .on (6 + portOf link) .on } } = w → w.served r (lnkCtl (portOf link)) = true → w.dropHeld r = t → t.linkPresent link = true → ((t.modLink link fun x => { x with enable := true }).link link).state ≠ .disabled → 
    exec (.linkEnable r link true) s = .next (t.modLink link fun x => { x with enable := true })) ∧
  (∀ (r : Req) (link : Nat) (on : Bool) (t : State) (s : State), s.served r (lnkCtl (portOf link)) = true → r.mgmt = true → s.dropHeld r = t → s.linkInMode link = false → t.linkPresent link = false → 
    exec (.linkEnable r link on) s = .next t) ∧
  (∀ (r : Req) (link : Nat) (t : State) (s : State), s.served r (lnkCtl (portOf link)) = true → r.mgmt = true → s.dropHeld r = t → t.linkPresent link = true → ((t.modLink link fun x => { x with enable := false }).link link).state ≠ .disabled → 
    exec (.linkEnable r link false) s = .next ((t.modLink link fun x => { x with enable := false }).toDown link .disabled lcOperator)) ∧
  (∀ (r : Req) (link : Nat) (t : State) (s : State), s.served r (lnkCtl (portOf link)) = true → r.mgmt = true → s.dropHeld r = t → t.linkPresent link = true → ((t.modLink link fun x => { x with enable := false }).link link).state = .disabled → 
    exec (.linkEnable r link false) s = .next ((t.modLink link fun x => { x with enable := false }))) ∧
  (∀ (r : Req) (link : Nat) (t : State) (s : State), s.served r (lnkCtl (portOf link)) = true → r.mgmt = true → s.dropHeld r = t → t.linkPresent link = true → (t.link link).state = .up → 
    exec (.linkRetrain r link) s = .next (t.toTraining link (some lcOperator) true)) ∧
  (∀ (r : Req) (link : Nat) (t : State) (s : State), s.served r (lnkCtl (portOf link)) = true → r.mgmt = true → s.dropHeld r = t → t.linkPresent link = true → (t.link link).state = .downFailed → 
    exec (.linkRetrain r link) s = .next ((t.modLink link fun x => { x with attempts := 0 }).toTraining link (some lcOperator) true)) ∧
  (∀ (r : Req) (link : Nat) (t : State) (s : State), s.served r (lnkCtl (portOf link)) = true → r.mgmt = true → s.dropHeld r = t → (t.link link).state ≠ .up → (t.link link).state ≠ .downFailed → 
    exec (.linkRetrain r link) s = .next t) ∧
  (∀ (r : Req) (link : Nat) (t : State) (s : State), s.served r (lnkCtl (portOf link)) = true → r.mgmt = true → s.dropHeld r = t → t.linkPresent link = true → (t.link link).state = .up → 
    exec (.linkAdapt r link) s = .next (t.adapt link lcOperator)) ∧
  (∀ (r : Req) (link : Nat) (t : State) (s : State), s.served r (lnkCtl (portOf link)) = true → r.mgmt = true → s.dropHeld r = t → (t.link link).state ≠ .up → 
    exec (.linkAdapt r link) s = .next t) ∧
  (∀ (r : Req) (link : Nat) (x : List (BitVec 512)) (t : State) (s : State), s.served r (lnkCtl (portOf link)) = true → r.mgmt = true → s.dropHeld r = t → t.linkPresent link = true → (t.link link).state = .up → 
    exec (.linkSave r link x) s = .next (t.saveRecord link x)) ∧
  (∀ (r : Req) (link : Nat) (x : List (BitVec 512)) (t : State) (s : State), s.served r (lnkCtl (portOf link)) = true → r.mgmt = true → s.dropHeld r = t → (t.link link).state ≠ .up → 
    exec (.linkSave r link x) s = .next t) ∧
  (∀ (r : Req) (port : Nat) (v : BitVec 2) (t : State) (s : State), s.served r (lnkCtl port) = true → r.mgmt = true → s.dropHeld r = t → v ≠ 3 → ((List.range 4).any fun k => (t.link (4 * port + k)).state ≠ .disabled) = false → 
    exec (.lnkModeWrite r port v) s = .next (t.setPort port { t.port port with mode := v.toNat })) ∧
  (∀ (r : Req) (port : Nat) (v : BitVec 2) (t : State) (s : State), s.served r (lnkCtl port) = true → r.mgmt = true → s.dropHeld r = t → v = 3 ∨ ((List.range 4).any fun k => (t.link (4 * port + k)).state ≠ .disabled) = true → 
    exec (.lnkModeWrite r port v) s = .next t) ∧
  (∀ (r : Req) (port : Nat) (v : BitVec 32) (t : State) (s : State), s.served r (0xA0000 + 0x8000 * port + 0x10) = true → r.mgmt = true → s.dropHeld r = t → 32 ≤ bits v.toNat 5 0 → bits v.toNat 5 0 ≤ 47 → 
    exec (.lnkSessCtlWrite r port v) s = .next (t.setPort port { t.port port with warnLog2 := bits v.toNat 5 0 })) ∧
  (∀ (r : Req) (port : Nat) (v : BitVec 32) (t : State) (s : State), s.served r (0xA0000 + 0x8000 * port + 0x10) = true → r.mgmt = true → s.dropHeld r = t → bits v.toNat 5 0 < 32 ∨ 47 < bits v.toNat 5 0 → 
    exec (.lnkSessCtlWrite r port v) s = .next t) ∧
  (∀ (link lockNs : Nat) (x : List (BitVec 512)) (lanes : List LaneTrain) (t : State) (s : State), s.linkOn link = true → (s.link link).state = .training → s.laneReads link lanes = t → (t.link link).savedUsed = true → lockNs ≤ 50000000 → (lanes.all fun y => decide (y.corrected * 10000 ≤ y.symbols)) = true → 
    exec (.trainingDone link true lockNs x lanes) s = .next (t.toLocking link none)) ∧
  (∀ (link lockNs : Nat) (x : List (BitVec 512)) (lanes : List LaneTrain) (t : State) (s : State), s.linkOn link = true → (s.link link).state = .training → s.laneReads link lanes = t → (t.link link).savedUsed = false → 
    exec (.trainingDone link true lockNs x lanes) s = .next ((t.saveRecord link x).toLocking link none)) ∧
  (∀ (ok : Bool) (link lockNs : Nat) (x : List (BitVec 512)) (lanes : List LaneTrain) (t : State) (s : State), s.linkOn link = true → (s.link link).state = .training → s.laneReads link lanes = t → (t.link link).savedUsed = true → ok = false ∨ 50000000 < lockNs ∨ (lanes.all fun y => decide (y.corrected * 10000 ≤ y.symbols)) = false → 
    exec (.trainingDone link ok lockNs x lanes) s = .next ((t.modLink link fun x => { x with savedUsed := false }).serdes link 1)) ∧
  (∀ (link lockNs : Nat) (x : List (BitVec 512)) (lanes : List LaneTrain) (t : State) (s : State), s.linkOn link = true → (s.link link).state = .training → s.laneReads link lanes = t → (t.link link).savedUsed = false → 
    exec (.trainingDone link false lockNs x lanes) s = .next (t.attemptFailed link lcTrainFail true)) ∧
  (∀ (ok : Bool) (link lockNs : Nat) (x : List (BitVec 512)) (lanes : List LaneTrain) (s : State), (s.link link).state ≠ .training → 
    exec (.trainingDone link ok lockNs x lanes) s = .next s) ∧
  (∀ (link : Nat) (lanes : List LaneAlign) (ls : List (Nat × Bool)) (s : State), s.linkOn link = true → (s.link link).state = .locking → lockLanes (s.linkMode link) (modeLanes (s.linkMode link)) lanes = some ls → 
    exec (.lockAcquired link lanes) s = .next (((((s.lanesOf link).zip ls).foldl (fun s e =>
        s.modLane e.1 fun y => { y with logical := e.2.1, inverted := e.2.2 }) s).moveLink link .negotiating none).modLink link fun x => { x with peerHeard := false, negSentAt := 0, pcs := { x.pcs with rxPos := 0, rxScr := 0 } })) ∧
  (∀ (link : Nat) (lanes : List LaneAlign) (s : State), s.linkOn link = true → (s.link link).state = .locking → lockLanes (s.linkMode link) (modeLanes (s.linkMode link)) lanes = none → 
    exec (.lockAcquired link lanes) s = .next s) ∧
  (∀ (link : Nat) (lanes : List LaneAlign) (s : State), (s.link link).state ≠ .locking → 
    exec (.lockAcquired link lanes) s = .next s) ∧
  (∀ (link lane : Nat) (first second third : List (BitVec 10)) (s : State), s.linkOn link = true → (s.link link).state = .up → lane < modeLanes (s.linkMode link) → ([first, second, third].all (alignFails (s.linkMode link) (s.lnk.lanes.get {} ((s.lanesOf link).getD lane 0)))) = true → 
    exec (.lockLost link lane first second third) s = .next ((s.toLocking link (some lcLockLost)).leaveUp link)) ∧
  (∀ (link lane : Nat) (first second third : List (BitVec 10)) (s : State), ([first, second, third].all (alignFails (s.linkMode link) (s.lnk.lanes.get {} ((s.lanesOf link).getD lane 0)))) = false ∨ (s.link link).state ≠ .up ∨ modeLanes (s.linkMode link) ≤ lane → 
    exec (.lockLost link lane first second third) s = .next s) ∧
  (∀ (link : Nat) (s : State), s.linkOn link = true → (s.link link).state = .locking → (s.link link).since + 1000000 ≤ s.sys.now → 
    exec (.lockTimeout link) s = .next (s.attemptFailed link lcTrainFail false)) ∧
  (∀ (link : Nat) (s : State), s.linkOn link = true → (s.link link).state = .adapting → 
    exec (.adaptDone link) s = .next (s.toLocking link none)) ∧
  (∀ (link lane corrected symbols snr g n : Nat) (t : State) (s : State), s.linkOn link = true → lane < modeLanes (s.linkMode link) → (s.lanesOf link).getD lane 0 = g → (s.lnk.lanes.get {} g).window + corrected = n → (s.modLane g fun y => { y with corrected := min (2 ^ 32 - 1) (y.corrected + corrected), window := 0, snr := snr % 65536 }) = t → (t.link link).state = .up → symbols < n * 10000 → 
    exec (.serRate link lane corrected symbols snr) s = .next (t.adapt link lcSerRate)) ∧
  (∀ (link lane corrected symbols snr g n : Nat) (t : State) (s : State), s.linkOn link = true → lane < modeLanes (s.linkMode link) → (s.lanesOf link).getD lane 0 = g → (s.lnk.lanes.get {} g).window + corrected = n → (s.modLane g fun y => { y with corrected := min (2 ^ 32 - 1) (y.corrected + corrected), window := 0, snr := snr % 65536 }) = t → (t.link link).state ≠ .up ∨ n * 10000 ≤ symbols → 
    exec (.serRate link lane corrected symbols snr) s = .next t) ∧
  (∀ (link lane corrected symbols snr : Nat) (s : State), s.linkOn link = false ∨ modeLanes (s.linkMode link) ≤ lane → 
    exec (.serRate link lane corrected symbols snr) s = .next s) ∧
  (∀ (link : Nat) (cws : List (List (BitVec 10))) (s : State), s.linkOn link = false → 
    exec (.negotiateReceive link cws) s = .next s) ∧
  (∀ (link : Nat) (cws : List (List (BitVec 10))) (s : State), s.linkOn link = true → (s.link link).state = .training ∨ (s.link link).state = .locking ∨ (s.link link).state = .adapting → 
    exec (.negotiateReceive link cws) s = .next (s.rxDamaged link)) ∧
  (∀ (link : Nat) (cws : List (List (BitVec 10))) (s : State), (s.link link).state = .disabled ∨ (s.link link).state = .downFailed → 
    exec (.negotiateReceive link cws) s = .next s) ∧
  (∀ (link : Nat) (cws : List (List (BitVec 10))) (r : RxRead) (t : State) (s : State), s.linkOn link = true → (s.link link).state = .negotiating → s.rxDecode link cws = (r, t) → r.damaged = true ∨ typeAssigned (hType (fHeader (leBytes 256 r.data))) = false → 
    exec (.negotiateReceive link cws) s = .next (t.rxDamaged link)) ∧
  (∀ (link : Nat) (cws : List (List (BitVec 10))) (r : RxRead) (t : State) (s : State), s.linkOn link = true → (s.link link).state = .negotiating → s.rxDecode link cws = (r, t) → r.damaged = false → hType (fHeader (leBytes 256 r.data)) ≠ 2 → typeAssigned (hType (fHeader (leBytes 256 r.data))) = true → 
    exec (.negotiateReceive link cws) s = .next t) ∧
  (∀ (link : Nat) (cws : List (List (BitVec 10))) (r : RxRead) (t : State) (s : State), s.linkOn link = true → (s.link link).state = .negotiating → s.rxDecode link cws = (r, t) → r.damaged = false → hType (fHeader (leBytes 256 r.data)) = 2 → fTag (leBytes 256 r.data) = crcField (fHeader (leBytes 256 r.data)) (fPayload (leBytes 256 r.data)) → 
    exec (.negotiateReceive link cws) s = .next (t.takeNeg link (negOf (fPayload (leBytes 256 r.data))))) ∧
  (∀ (link : Nat) (cws : List (List (BitVec 10))) (r : RxRead) (t : State) (s : State), s.linkOn link = true → (s.link link).state = .negotiating → s.rxDecode link cws = (r, t) → r.damaged = false → hType (fHeader (leBytes 256 r.data)) = 2 → fTag (leBytes 256 r.data) ≠ crcField (fHeader (leBytes 256 r.data)) (fPayload (leBytes 256 r.data)) → 
    exec (.negotiateReceive link cws) s = .next (t.rxDamaged link)) ∧
  (∀ (link : Nat) (n : Neg) (s : State), (s.link link).state = .negotiating → n.format = 1 → min 1 n.levelMax < max 1 n.levelMin →
    s.takeNeg link n = s.attemptFailed link lcNegLevel false) ∧
  (∀ (link : Nat) (n : Neg) (s : State), (s.link link).state = .negotiating → n.format = 1 → max 1 n.levelMin ≤ min 1 n.levelMax → n.width ≠ s.linkMode link →
    s.takeNeg link n = s.attemptFailed link lcNegWidth false) ∧
  (∀ (link : Nat) (n : Neg) (s : State), (s.link link).state = .negotiating → n.format = 1 → max 1 n.levelMin ≤ min 1 n.levelMax → n.width = s.linkMode link → n.peerSeen = true →
    s.takeNeg link n = ((s.modLink link fun x => { x with peerHeard := true }).sendNeg link).linkUp link n) ∧
  (∀ (link : Nat) (n : Neg) (s : State), (s.link link).state = .negotiating → n.format = 1 → max 1 n.levelMin ≤ min 1 n.levelMax → n.width = s.linkMode link → n.peerSeen = false →
    s.takeNeg link n = s.modLink link fun x => { x with peerHeard := true }) ∧
  (∀ (link : Nat) (n : Neg) (s : State), (s.link link).state = .negotiating → n.format ≠ 1 →
    s.takeNeg link n = s.attemptFailed link lcNegFormat false) ∧
  (∀ (link : Nat) (n : Neg) (s : State), (s.link link).state = .up → n.node ≠ (s.link link).peerNode →
    s.takeNeg link n = ((s.moveLink link .negotiating (some lcNodeChange)).leaveUp link).modLink link fun x => { x with peerHeard := false, negSentAt := 0 }) ∧
  (∀ (link : Nat) (s : State), s.linkOn link = true → (s.link link).state = .negotiating ∨ (s.link link).state = .up → (s.link link).negSentAt = 0 ∨ (s.link link).negSentAt + 100000 ≤ s.sys.now → 
    exec (.negotiateSend link) s = .next (s.sendNeg link)) ∧
  (∀ (link : Nat) (s : State), s.linkOn link = true → (s.link link).state = .negotiating → (s.link link).since + 100000000 ≤ s.sys.now → 
    exec (.negTimeout link) s = .next (s.attemptFailed link lcNegTimeout false)) ∧
  (∀ (link : Nat) (s : State), (s.link link).state ≠ .locking → 
    exec (.lockTimeout link) s = .next s) ∧
  (∀ (link : Nat) (s : State), (s.link link).state ≠ .adapting → 
    exec (.adaptDone link) s = .next s) ∧
  (∀ (link : Nat) (s : State), (s.link link).state ≠ .negotiating → 
    exec (.negTimeout link) s = .next s)

/-- Of an UP link that is on, the codewords of FLIT_RECEIVE, LINK_CTL_RECEIVE or NEGOTIATE_RECEIVE are decoded, to the
flit r and the state t with its counts: with no flit held it is taken, else it waits behind those held. FLIT_RECEIVE and
LINK_CTL_RECEIVE do nothing on a link that is off, DISABLED or DOWN_FAILED, take a damaged flit on one without lock, and
do in every state what NEGOTIATE_RECEIVE does. Taking one flit is what rxFlit does, or holding it when it waits for its
key; a flit not of 256 bytes or of an unassigned type is damaged, a NULL passes, a LINK_CTL with its CRC is taken, a
LINK_CTL or NEGOTIATE failing it is damaged, a flit ahead of RX_NEXT is damaged and one behind it is acknowledged. A
damaged flit while a NAK is out does nothing; else on an UP link it sends a NAK, and on another it sets the wait.
LINK_CTL_SEND sends a LINK_CTL on an UP link. NAK_REPEAT sends the NAK again after 2 µs of waiting; not waiting, nothing.
REPLAY_TIMEOUT with flits unacknowledged and no advance for 10 µs retries; with none, nothing. A retry below the eighth
sends the flits again, the eighth goes to TRAINING. FLIT_TRANSMIT on an UP link with room in the replay buffer sends the
first waiting flit that may go, or a NULL when none goes; without room, or NEGOTIATING or LOCKING, a NULL; otherwise
nothing. LINK_CTL_SEND, NAK_REPEAT and REPLAY_TIMEOUT on a link not UP do nothing. -/
def Obligations.LinkFlits : Prop :=
  (∀ (link : Nat) (cws : List (List (BitVec 10))) (r : RxRead) (t : State) (s : State), s.linkOn link = true → (s.link link).state = .up → s.rxDecode link cws = (r, t) → (t.link link).rxHold = [] → 
    exec (.flitReceive link cws) s = .next (State.rxAll 1 link false [(r.badCw, r.damaged, leBytes 256 r.data)] t)) ∧
  (∀ (link : Nat) (cws : List (List (BitVec 10))) (r : RxRead) (t : State) (s : State), s.linkOn link = true → (s.link link).state = .up → s.rxDecode link cws = (r, t) → (t.link link).rxHold ≠ [] → 
    exec (.flitReceive link cws) s = .next (t.setLink link { t.link link with rxHold := (t.link link).rxHold ++ [(r.badCw, r.damaged, leBytes 256 r.data)] })) ∧
  (∀ (link : Nat) (cws : List (List (BitVec 10))) (r : RxRead) (t : State) (s : State), s.linkOn link = true → (s.link link).state = .up → s.rxDecode link cws = (r, t) → (t.link link).rxHold = [] → 
    exec (.linkCtlReceive link cws) s = .next (State.rxAll 1 link false [(r.badCw, r.damaged, leBytes 256 r.data)] t)) ∧
  (∀ (link : Nat) (cws : List (List (BitVec 10))) (r : RxRead) (t : State) (s : State), s.linkOn link = true → (s.link link).state = .up → s.rxDecode link cws = (r, t) → (t.link link).rxHold ≠ [] → 
    exec (.linkCtlReceive link cws) s = .next (t.setLink link { t.link link with rxHold := (t.link link).rxHold ++ [(r.badCw, r.damaged, leBytes 256 r.data)] })) ∧
  (∀ (link : Nat) (cws : List (List (BitVec 10))) (r : RxRead) (t : State) (s : State), s.linkOn link = true → (s.link link).state = .up → s.rxDecode link cws = (r, t) → (t.link link).rxHold = [] → 
    exec (.negotiateReceive link cws) s = .next (State.rxAll 1 link false [(r.badCw, r.damaged, leBytes 256 r.data)] t)) ∧
  (∀ (link : Nat) (cws : List (List (BitVec 10))) (r : RxRead) (t : State) (s : State), s.linkOn link = true → (s.link link).state = .up → s.rxDecode link cws = (r, t) → (t.link link).rxHold ≠ [] → 
    exec (.negotiateReceive link cws) s = .next (t.setLink link { t.link link with rxHold := (t.link link).rxHold ++ [(r.badCw, r.damaged, leBytes 256 r.data)] })) ∧
  (∀ (link : Nat) (cws : List (List (BitVec 10))) (s : State), s.linkOn link = false → 
    exec (.flitReceive link cws) s = .next s) ∧
  (∀ (link : Nat) (cws : List (List (BitVec 10))) (s : State), s.linkOn link = true → (s.link link).state = .training ∨ (s.link link).state = .locking ∨ (s.link link).state = .adapting → 
    exec (.flitReceive link cws) s = .next (s.rxDamaged link)) ∧
  (∀ (link : Nat) (cws : List (List (BitVec 10))) (s : State), (s.link link).state = .disabled ∨ (s.link link).state = .downFailed → 
    exec (.flitReceive link cws) s = .next s) ∧
  (∀ (link : Nat) (cws : List (List (BitVec 10))) (s : State), s.linkOn link = false → 
    exec (.linkCtlReceive link cws) s = .next s) ∧
  (∀ (link : Nat) (cws : List (List (BitVec 10))) (s : State), s.linkOn link = true → (s.link link).state = .training ∨ (s.link link).state = .locking ∨ (s.link link).state = .adapting → 
    exec (.linkCtlReceive link cws) s = .next (s.rxDamaged link)) ∧
  (∀ (link : Nat) (cws : List (List (BitVec 10))) (s : State), (s.link link).state = .disabled ∨ (s.link link).state = .downFailed → 
    exec (.linkCtlReceive link cws) s = .next s) ∧
  (∀ (link : Nat) (cws : List (List (BitVec 10))) (s : State), exec (.flitReceive link cws) s = exec (.negotiateReceive link cws) s ∧ exec (.linkCtlReceive link cws) s = exec (.negotiateReceive link cws) s) ∧
  (∀ (l : Nat) (n : Nat) (d : Bool) (b : List Byte) (t u : State) (s : State), (s.link l).state = .up → s.rxFlit l false d b = (some t, u) →
    State.rxAll 1 l false [(n, d, b)] s = t) ∧
  (∀ (l : Nat) (n : Nat) (d : Bool) (b : List Byte) (t : State) (s : State), (s.link l).state = .up → s.rxFlit l false d b = (none, t) →
    State.rxAll 1 l false [(n, d, b)] s = t.modLink l fun x => { x with rxHold := [(n, d, b)] }) ∧
  (∀ (l : Nat) (refused : Bool) (b : List Byte) (s : State), b.length ≠ 256 ∨ typeAssigned (hType (fHeader b)) = false →
    s.rxFlit l refused false b = (some (s.rxDamaged l), s)) ∧
  (∀ (l : Nat) (refused : Bool) (b : List Byte) (s : State), b.length = 256 → hType (fHeader b) = 0 →
    s.rxFlit l refused false b = (some s, s)) ∧
  (∀ (l : Nat) (refused : Bool) (b : List Byte) (s : State), b.length = 256 → hType (fHeader b) = 1 → fTag b = crcField (fHeader b) (fPayload b) →
    s.rxFlit l refused false b = (some (s.takeCtl l (fPayload b)), s)) ∧
  (∀ (l : Nat) (refused : Bool) (b : List Byte) (s : State), b.length = 256 → hType (fHeader b) = 1 ∨ hType (fHeader b) = 2 → fTag b ≠ crcField (fHeader b) (fPayload b) →
    s.rxFlit l refused false b = (some (s.rxDamaged l), s)) ∧
  (∀ (l : Nat) (refused : Bool) (b : List Byte) (s : State), b.length = 256 → typeAssigned (hType (fHeader b)) = true → 2 < hType (fHeader b) → (2048 < ((s.link l).rxNext + 4096 - hLseq (fHeader b)) % 4096) →
    s.rxFlit l refused false b = (some (s.rxDamaged l), s)) ∧
  (∀ (l : Nat) (refused : Bool) (b : List Byte) (s : State), b.length = 256 → typeAssigned (hType (fHeader b)) = true → 2 < hType (fHeader b) → 0 < ((s.link l).rxNext + 4096 - hLseq (fHeader b)) % 4096 → ((s.link l).rxNext + 4096 - hLseq (fHeader b)) % 4096 ≤ 2048 →
    s.rxFlit l refused false b = (some (s.sendCtl l false), s)) ∧
  (∀ (link : Nat) (s : State), s.rxDamaged link = if (s.link link).nakWait then s else if (s.link link).state = .up then s.sendCtl link true else s.modLink link fun x => { x with nakWait := true, nakAt := s.now }) ∧
  (∀ (link : Nat) (s : State), s.linkOn link = true → (s.link link).state = .up → 
    exec (.linkCtlSend link) s = .next (s.sendCtl link false)) ∧
  (∀ (link : Nat) (s : State), s.linkOn link = true → (s.link link).state = .up → (s.link link).nakWait = true → (s.link link).nakAt + 2000 ≤ s.sys.now → 
    exec (.nakRepeat link) s = .next (s.sendCtl link true)) ∧
  (∀ (link : Nat) (s : State), (s.link link).nakWait = false → 
    exec (.nakRepeat link) s = .next s) ∧
  (∀ (link : Nat) (s : State), s.linkOn link = true → (s.link link).state = .up → (s.link link).replay.isEmpty = false → (s.link link).ackAt + 10000 ≤ s.sys.now → 
    exec (.replayTimeout link) s = .next (s.retry link (s.link link).replay)) ∧
  (∀ (link : Nat) (s : State), (s.link link).replay.isEmpty = true → 
    exec (.replayTimeout link) s = .next s) ∧
  (∀ (l : Nat) (fs : List SentFlit) (s : State), (s.link l).retries < 7 →
    s.retry l fs = (s.setLink l { s.link l with retries := (s.link l).retries + 1, ackAt := s.now }).resend l fs) ∧
  (∀ (l : Nat) (fs : List SentFlit) (s : State), 7 ≤ (s.link l).retries →
    s.retry l fs = (s.setLink l { s.link l with retries := 0 }).toTraining l (some lcRetryLimit) false) ∧
  (∀ (link : Nat) (t : State) (s : State), s.linkOn link = true → (s.link link).state = .up → (s.link link).replay.length < replayCap (s.linkMode link) → State.txFirst (s.link link).txQueue [] link s = (true, t) → 
    exec (.flitTransmit link) s = .next t) ∧
  (∀ (link : Nat) (t : State) (s : State), s.linkOn link = true → (s.link link).state = .up → (s.link link).replay.length < replayCap (s.linkMode link) → State.txFirst (s.link link).txQueue [] link s = (false, t) → 
    exec (.flitTransmit link) s = .next (t.sendNull link)) ∧
  (∀ (link : Nat) (s : State), s.linkOn link = true → (s.link link).state = .up → replayCap (s.linkMode link) ≤ (s.link link).replay.length → 
    exec (.flitTransmit link) s = .next (s.sendNull link)) ∧
  (∀ (link : Nat) (s : State), s.linkOn link = true → (s.link link).state = .negotiating ∨ (s.link link).state = .locking → 
    exec (.flitTransmit link) s = .next (s.sendNull link)) ∧
  (∀ (link : Nat) (s : State), s.linkOn link = false ∨ ((s.link link).state ≠ .up ∧ (s.link link).state ≠ .negotiating ∧ (s.link link).state ≠ .locking) → 
    exec (.flitTransmit link) s = .next s) ∧
  (∀ (link : Nat) (s : State), (s.link link).state ≠ .up → 
    exec (.linkCtlSend link) s = .next s) ∧
  (∀ (link : Nat) (s : State), (s.link link).state ≠ .up → 
    exec (.nakRepeat link) s = .next s) ∧
  (∀ (link : Nat) (s : State), (s.link link).state ≠ .up → 
    exec (.replayTimeout link) s = .next s)

/-- FAB_REQUEST_RECEIVE and FAB_RESPONSE_RECEIVE while the fabric engine does not serve do nothing. Otherwise a flit of
the type is taken where the command names it; with none, only the taking happens. Taken, one that may not enter there is
undeliverable; one not for this die is forwarded; one for it has its records taken in order, and if the payload breaks
off, error 7 is counted and a record 0x80 written. RECORD_TIMEOUT of a TID not out, or before its deadline, does nothing;
at it every record of its pair ends PARTNER_LOST, the TIDs cool for 110 ms, error 3 counts them and the pair is marked
lost. HOLD_RESEND of a TID not out or not due does nothing; due, the record is sent again and error 4 counted, or with no
route ends NO_ROUTE with error 1 counted. FLAG_HOLD_EXPIRY drops the held flags past their time and counts them in error
5. Served register writes, t as above without the held low half. FAB_TCLR by the kernel driver: for a node with records
out, held or parked the result is 3; otherwise it is 2, and that node's tallies and lost marks of the plain domain go.
FAB_NODE of a management session: with a slot not EMPTY it is recorded only; otherwise NODE and MEMBER are written,
OFF_BITS if at most 8, and at the lead a new MAP_GEN is given out; if NODE or MEMBER changed, every UP link negotiates
again. FAB_RTDATA writes the selected route. FAB_MRDATA writes the selected member route; at the lead MAP_GEN is one more,
given out. Giving out a MAP_GEN sets the own and the lead's number and sends the members the number, then the routes. -/
def Obligations.FabricReceiveAndTables : Prop :=
  (∀ (f : FlitIn) (s : State), s.fabUp = false → 
    exec (.fabRequestReceive f) s = .next s) ∧
  (∀ (f : FlitIn) (s₁ : State) (s : State), s.fabUp = true → s.takeFlit f 8 = (none, s₁) → 
    exec (.fabRequestReceive f) s = .next s₁) ∧
  (∀ (f : FlitIn) (x : RxFlit) (recs : List (List Byte)) (cut : Bool) (s₁ : State) (s : State), s.fabUp = true → s.takeFlit f 8 = (some x, s₁) → splitRecords 15 x.payload = (recs, cut) → s₁.mayEnter f x.dst = false → 
    exec (.fabRequestReceive f) s = .next (s₁.undeliverable 8 x.slot x.dst x.src x.payload)) ∧
  (∀ (f : FlitIn) (x : RxFlit) (recs : List (List Byte)) (cut : Bool) (s₁ : State) (s : State), s.fabUp = true → s.takeFlit f 8 = (some x, s₁) → splitRecords 15 x.payload = (recs, cut) → s₁.mayEnter f x.dst = true → (s₁.flitHere x.dst (recMember (recs.headD []))) = false → 
    exec (.fabRequestReceive f) s = .next (s₁.forward x recs)) ∧
  (∀ (f : FlitIn) (x : RxFlit) (recs : List (List Byte)) (cut : Bool) (s₁ : State) (s : State), s.fabUp = true → s.takeFlit f 8 = (some x, s₁) → splitRecords 15 x.payload = (recs, cut) → s₁.mayEnter f x.dst = true → (s₁.flitHere x.dst (recMember (recs.headD []))) = true → cut = false → 
    exec (.fabRequestReceive f) s = .next ((recs.foldl (fun s b => s.requestRec x.slot x.src b) s₁))) ∧
  (∀ (f : FlitIn) (x : RxFlit) (recs : List (List Byte)) (cut : Bool) (s₁ : State) (s : State), s.fabUp = true → s.takeFlit f 8 = (some x, s₁) → splitRecords 15 x.payload = (recs, cut) → s₁.mayEnter f x.dst = true → (s₁.flitHere x.dst (recMember (recs.headD []))) = true → cut = true → 
    exec (.fabRequestReceive f) s = .next (((recs.foldl (fun s b => s.requestRec x.slot x.src b) s₁).fabErr 7 1).record 0x80 srcFabric [(1, 2), (2, x.src)])) ∧
  (∀ (f : FlitIn) (s : State), s.fabUp = false → 
    exec (.fabResponseReceive f) s = .next s) ∧
  (∀ (f : FlitIn) (s₁ : State) (s : State), s.fabUp = true → s.takeFlit f 9 = (none, s₁) → 
    exec (.fabResponseReceive f) s = .next s₁) ∧
  (∀ (f : FlitIn) (x : RxFlit) (recs : List (List Byte)) (cut : Bool) (s₁ : State) (s : State), s.fabUp = true → s.takeFlit f 9 = (some x, s₁) → splitRecords 15 x.payload = (recs, cut) → s₁.mayEnter f x.dst = false → 
    exec (.fabResponseReceive f) s = .next (s₁.undeliverable 9 x.slot x.dst x.src x.payload)) ∧
  (∀ (f : FlitIn) (x : RxFlit) (recs : List (List Byte)) (cut : Bool) (s₁ : State) (s : State), s.fabUp = true → s.takeFlit f 9 = (some x, s₁) → splitRecords 15 x.payload = (recs, cut) → s₁.mayEnter f x.dst = true → ((decide (x.dst = s₁.fab.node) && decide (recMember (recs.headD []) = s₁.fab.member))) = false → 
    exec (.fabResponseReceive f) s = .next (s₁.forward x recs)) ∧
  (∀ (f : FlitIn) (x : RxFlit) (recs : List (List Byte)) (cut : Bool) (s₁ : State) (s : State), s.fabUp = true → s.takeFlit f 9 = (some x, s₁) → splitRecords 15 x.payload = (recs, cut) → s₁.mayEnter f x.dst = true → ((decide (x.dst = s₁.fab.node) && decide (recMember (recs.headD []) = s₁.fab.member))) = true → cut = false → 
    exec (.fabResponseReceive f) s = .next ((recs.foldl (fun s b => s.responseRec x.slot x.src b) s₁))) ∧
  (∀ (f : FlitIn) (x : RxFlit) (recs : List (List Byte)) (cut : Bool) (s₁ : State) (s : State), s.fabUp = true → s.takeFlit f 9 = (some x, s₁) → splitRecords 15 x.payload = (recs, cut) → s₁.mayEnter f x.dst = true → ((decide (x.dst = s₁.fab.node) && decide (recMember (recs.headD []) = s₁.fab.member))) = true → cut = true → 
    exec (.fabResponseReceive f) s = .next (((recs.foldl (fun s b => s.responseRec x.slot x.src b) s₁).fabErr 7 1).record 0x80 srcFabric [(1, 2), (2, x.src)])) ∧
  (∀ (tid : Nat) (s : State), (s.fab.outs.find? fun o => o.tid = tid) = none → 
    exec (.recordTimeout tid) s = .next s) ∧
  (∀ (tid : Nat) (o : OutRec) (s : State), (s.fab.outs.find? fun o => o.tid = tid) = some o → o.deadline ≤ s.sys.now → 
    exec (.recordTimeout tid) s = .next (((s.fab.outs.filter fun y => (y.pairSlot, y.node, y.member) = (o.pairSlot, o.node, o.member)).foldl (fun s y => s.endRec y stPartnerLost 0 []) (({ s with fab := { s.fab with
          coolTids := s.fab.coolTids ++ (s.fab.outs.filter fun y => (y.pairSlot, y.node, y.member) = (o.pairSlot, o.node, o.member)).map fun (y : OutRec) => (y.tid, s.now + 110 * ms) } } : State).fabErr 3 (s.fab.outs.filter fun y => (y.pairSlot, y.node, y.member) = (o.pairSlot, o.node, o.member)).length)).markLost (o.pairSlot, o.node, o.member))) ∧
  (∀ (tid : Nat) (o : OutRec) (s : State), (s.fab.outs.find? fun o => o.tid = tid) = some o → s.sys.now < o.deadline → 
    exec (.recordTimeout tid) s = .next s) ∧
  (∀ (tid : Nat) (s : State), (s.fab.outs.find? fun o => o.tid = tid) = none → 
    exec (.holdResend tid) s = .next s) ∧
  (∀ (tid : Nat) (o : OutRec) (s : State), (s.fab.outs.find? fun o => o.tid = tid) = some o → o.resendAt = 0 ∨ s.sys.now < o.resendAt → 
    exec (.holdResend tid) s = .next s) ∧
  (∀ (tid : Nat) (o : OutRec) (t u : State) (s : State), (s.fab.outs.find? fun o => o.tid = tid) = some o → o.resendAt ≠ 0 → o.resendAt ≤ s.sys.now → { s with fab := { s.fab with outs := s.fab.outs.map fun (x : OutRec) => if x.tid = tid then { x with resendAt := 0 } else x } } = t → t.sendFab { ftype := 8, slot := keySlot o.pairSlot, dst := o.node, member := o.member, src := t.fab.node, payload := padFlit o.bytes } (recKey o.bytes) = some u → 
    exec (.holdResend tid) s = .next (u.fabErr 4 1)) ∧
  (∀ (tid : Nat) (o : OutRec) (t : State) (s : State), (s.fab.outs.find? fun o => o.tid = tid) = some o → o.resendAt ≠ 0 → o.resendAt ≤ s.sys.now → { s with fab := { s.fab with outs := s.fab.outs.map fun (x : OutRec) => if x.tid = tid then { x with resendAt := 0 } else x } } = t → t.sendFab { ftype := 8, slot := keySlot o.pairSlot, dst := o.node, member := o.member, src := t.fab.node, payload := padFlit o.bytes } (recKey o.bytes) = none → 
    exec (.holdResend tid) s = .next ((t.fabErr 1 1).endRec o stNoRoute 0 [])) ∧
  (∀ (s : State), 
    exec .flagHoldExpiry s = .next (({ s with fab := { s.fab with held := s.fab.held.filter fun h => s.now < h.expires } } : State).fabErr 5 (s.fab.held.filter fun h => h.expires ≤ s.now).length)) ∧
  (∀ (r : Req) (v : BitVec 32) (t : State) (s : State), s.served r 0xE0030 = true → kernelReq r = true → s.dropHeld r = t → ((t.fab.outs.any fun o => o.node = bits v.toNat 15 0) || (t.fab.held.any fun h => h.pair.2.1 = bits v.toNat 15 0) || t.fab.parked.any fun p => p.src = bits v.toNat 15 0) = true → 
    exec (.fabTclr r v) s = .next { t with fab := { t.fab with tclrRes := 3 } }) ∧
  (∀ (r : Req) (v : BitVec 32) (t : State) (s : State), s.served r 0xE0030 = true → kernelReq r = true → s.dropHeld r = t → ((t.fab.outs.any fun o => o.node = bits v.toNat 15 0) || (t.fab.held.any fun h => h.pair.2.1 = bits v.toNat 15 0) || t.fab.parked.any fun p => p.src = bits v.toNat 15 0) = false → 
    exec (.fabTclr r v) s = .next { t with fab := { t.fab with tclrRes := 2, sent := t.fab.sent.filter fun e => !(decide (e.1.1 = 0) && decide (e.1.2.1 = bits v.toNat 15 0)), applied := t.fab.applied.filter fun e => !(decide (e.1.1 = 0) && decide (e.1.2.1 = bits v.toNat 15 0)), lost := t.fab.lost.filter fun e => !(decide (e.1 = 0) && decide (e.2.1 = bits v.toNat 15 0)) } }) ∧
  (∀ (r : Req) (v : BitVec 64) (t : State) (s : State), s.served r 0xE0008 = true → r.mgmt = true → s.dropHeld r = t → (allSlots.any fun i => (t.slot i).state ≠ .empty) = true → 
    exec (.fabNodeWrite r v) s = .next (t.record 0x80 srcFabric [(1, 1), (2, fld v 15 0)])) ∧
  (∀ (r : Req) (v : BitVec 64) (w : State) (t : State) (s : State), s.served r 0xE0008 = true → r.mgmt = true → s.dropHeld r = t → (allSlots.any fun i => (t.slot i).state ≠ .empty) = false → { t with fab := { t.fab with node := fld v 15 0, member := fld v 23 16, offBits := if fld v 27 24 ≤ 8 then fld v 27 24 else t.fab.offBits } } = w → fld v 15 0 = t.fab.node → fld v 23 16 = t.fab.member → 
    exec (.fabNodeWrite r v) s = .next (if t.isLead = true ∧ fld v 47 32 ≠ t.fab.mapGen then w.giveRoutes (fld v 47 32) else w)) ∧
  (∀ (r : Req) (v : BitVec 64) (w : State) (t : State) (s : State), s.served r 0xE0008 = true → r.mgmt = true → s.dropHeld r = t → (allSlots.any fun i => (t.slot i).state ≠ .empty) = false → { t with fab := { t.fab with node := fld v 15 0, member := fld v 23 16, offBits := if fld v 27 24 ≤ 8 then fld v 27 24 else t.fab.offBits } } = w → fld v 15 0 ≠ t.fab.node ∨ fld v 23 16 ≠ t.fab.member → 
    exec (.fabNodeWrite r v) s = .next (State.forEach (if t.isLead = true ∧ fld v 47 32 ≠ t.fab.mapGen then w.giveRoutes (fld v 47 32) else w) ((List.range 32).filter fun l => ((if t.isLead = true ∧ fld v 47 32 ≠ t.fab.mapGen then w.giveRoutes (fld v 47 32) else w).link l).state = .up) State.renegotiate)) ∧
  (∀ (r : Req) (v : BitVec 64) (t : State) (s : State), s.served r 0xE0018 = true → r.mgmt = true → s.dropHeld r = t → 
    exec (.fabRtdataWrite r v) s = .next { t with fab := { t.fab with routes := t.fab.routes.set {} t.fab.rtsel (routeOf v) } }) ∧
  (∀ (r : Req) (v : BitVec 64) (u : State) (t : State) (s : State), s.served r 0xE0028 = true → r.mgmt = true → s.dropHeld r = t → { t with fab := { t.fab with mroutes := t.fab.mroutes.set {} t.fab.mrsel (routeOf v) } } = u → u.isLead = false → 
    exec (.fabMrdataWrite r v) s = .next u) ∧
  (∀ (r : Req) (v : BitVec 64) (u : State) (t : State) (s : State), s.served r 0xE0028 = true → r.mgmt = true → s.dropHeld r = t → { t with fab := { t.fab with mroutes := t.fab.mroutes.set {} t.fab.mrsel (routeOf v) } } = u → u.isLead = true → 
    exec (.fabMrdataWrite r v) s = .next (u.giveRoutes ((u.fab.mapGen + 1) % 2 ^ 16))) ∧
  (∀ (g : Nat) (s : State), s.giveRoutes g = ((({ s with fab := { s.fab with mapGen := g, leadMapGen := g } } : State).toPeers bkMapGen [g]).toPeers bkRoutes ({ s with fab := { s.fab with mapGen := g, leadMapGen := g } } : State).routeVals))

/-- COL_DATA_RECEIVE after Kindling step 5 places the flit taken; with none only the taking happens; before it nothing.
Placing: of no receive stream, or of a slot QUARANTINED, it is stray; of the run at hand, with room in the buffer and no
failure, it joins the buffer and the step goes on. COL_CREDIT_RECEIVE and COL_ABORT_RECEIVE take a COL_CTL flit whose
first entry is none, or one, with op 2, and act on its entries in order; otherwise, or before step 5, or with none there,
nothing. An entry of op 1 is a credit: of no stream, or not above the largest FREED, nothing; above it, for a step not
stalled, it is noted and the step goes on. Another is an abort: for a live step of that run the run ends COL_PEER_ABORT;
else nothing. COL_CREDIT_SEND of a loaded receiving step whose FREED differs from what it sent, by a quarter of the buffer
(modulo 2^64) or 1 µs after the last, notes and sends it; otherwise nothing. COL_FLUSH_TIMER of a live step with bytes
waiting for 34 ns sends them; otherwise nothing. STEP_START registers the waits and runs the chain from its step: a step
of a running plan without failure that may start and has its wait met starts, and a WITH_PREV step behind it is tried
next; otherwise the chain ends. STEP_COMPLETE of a step that has done its work marks it, lets a SIGNAL fence (still a
fence) take RUN + DELTA, registers the waits and settles the run; otherwise nothing. RUN_TIMEOUT of a live step whose send
stalls, or whose receive lacks a block, for TIMEOUT ends the run PARTNER_LOST and loses the member behind its link, or
behind bridge link 32 or above of the own node; otherwise nothing. -/
def Obligations.CollectiveProgress : Prop :=
  (∀ (f : FlitIn) (x : RxFlit) (s₁ : State) (s : State), 5 ≤ s.rst.step → s.takeFlit f 0x10 = (some x, s₁) → 
    exec (.colDataReceive f) s = .next (s₁.placeCol (flitField f) x)) ∧
  (∀ (f : FlitIn) (s₁ : State) (s : State), 5 ≤ s.rst.step → s.takeFlit f 0x10 = (none, s₁) → 
    exec (.colDataReceive f) s = .next s₁) ∧
  (∀ (link : Nat) (f : RxFlit) (s : State), s.rxStep link f.slot (leNat (f.payload.take 2) % 4096) = none →
    s.placeCol link f = s.strayFlit link) ∧
  (∀ (f : FlitIn) (s : State), s.rst.step < 5 → 
    exec (.colDataReceive f) s = .next s) ∧
  (∀ (f : FlitIn) (pl : List Byte) (x : RxFlit) (s₁ : State) (s : State), 5 ≤ s.rst.step → s.peekFlit f 0x11 = some pl → decide (((ctlEntries 15 pl).headD (0, 0, 0, 0)).2.2.1 = 2) = false → s.takeFlit f 0x11 = (some x, s₁) → 
    exec (.colCreditReceive f) s = .next ((ctlEntries 15 pl).foldl (fun s e => s.takeEntry (flitField f) x.slot e) s₁)) ∧
  (∀ (f : FlitIn) (pl : List Byte) (s : State), s.peekFlit f 0x11 = some pl → s.rst.step < 5 ∨ decide (((ctlEntries 15 pl).headD (0, 0, 0, 0)).2.2.1 = 2) = true → 
    exec (.colCreditReceive f) s = .next s) ∧
  (∀ (f : FlitIn) (s : State), s.peekFlit f 0x11 = none → 
    exec (.colCreditReceive f) s = .next s) ∧
  (∀ (f : FlitIn) (pl : List Byte) (x : RxFlit) (s₁ : State) (s : State), 5 ≤ s.rst.step → s.peekFlit f 0x11 = some pl → decide (((ctlEntries 15 pl).headD (0, 0, 0, 0)).2.2.1 = 2) = true → s.takeFlit f 0x11 = (some x, s₁) → 
    exec (.colAbortReceive f) s = .next ((ctlEntries 15 pl).foldl (fun s e => s.takeEntry (flitField f) x.slot e) s₁)) ∧
  (∀ (f : FlitIn) (pl : List Byte) (s : State), s.peekFlit f 0x11 = some pl → s.rst.step < 5 ∨ decide (((ctlEntries 15 pl).headD (0, 0, 0, 0)).2.2.1 = 2) = false → 
    exec (.colAbortReceive f) s = .next s) ∧
  (∀ (f : FlitIn) (s : State), s.peekFlit f 0x11 = none → 
    exec (.colAbortReceive f) s = .next s) ∧
  (∀ (plan step : Nat) (s : State), (s.plan plan).loaded = true → step < (s.plan plan).steps.length → stRecv ((s.plan plan).step step) = true → ((s.plan plan).srun step).freed ≠ ((s.plan plan).srun step).freedSent → stRxBuf ((s.plan plan).step step) ≤ 4 * ((((s.plan plan).srun step).freed + 2 ^ 64 - ((s.plan plan).srun step).freedSent) % 2 ^ 64) ∨ ((s.plan plan).srun step).creditAt + 1000 ≤ s.sys.now → 
    exec (.colCreditSend plan step) s = .next ((s.modSrun plan step fun r => { r with freedSent := r.freed, creditAt := s.now }).sendColCtl (stRxLink ((s.plan plan).step step)) (s.plan plan).dslot
          ((s.plan plan).peer (stRxLink ((s.plan plan).step step))) (stRxStream ((s.plan plan).step step)) (s.plan plan).run.toNat 1 ((s.plan plan).srun step).freed)) ∧
  (∀ (plan step : Nat) (s : State), ((s.plan plan).srun step).freed = ((s.plan plan).srun step).freedSent → 
    exec (.colCreditSend plan step) s = .next s) ∧
  (∀ (plan step : Nat) (s : State), 4 * ((((s.plan plan).srun step).freed + 2 ^ 64 - ((s.plan plan).srun step).freedSent) % 2 ^ 64) < stRxBuf ((s.plan plan).step step) → s.sys.now < ((s.plan plan).srun step).creditAt + 1000 → 
    exec (.colCreditSend plan step) s = .next s) ∧
  (∀ (plan step : Nat) (s : State), (s.plan plan).live step = true → ((s.plan plan).srun step).txBytes.isEmpty = false → ((s.plan plan).srun step).txAt + 34 ≤ s.sys.now → 
    exec (.colFlushTimer plan step) s = .next (s.sendColFlit plan step)) ∧
  (∀ (plan step : Nat) (s : State), (s.plan plan).live step = false ∨ ((s.plan plan).srun step).txBytes.isEmpty = true ∨ s.sys.now < ((s.plan plan).srun step).txAt + 34 → 
    exec (.colFlushTimer plan step) s = .next s) ∧
  (∀ (link : Nat) (slot : Option Nat) (e : Nat × Nat × Nat × Nat) (s : State), e.2.2.1 = 1 →
    s.takeEntry link slot e = s.takeCredit link slot e.1 e.2.2.2) ∧
  (∀ (link : Nat) (slot : Option Nat) (e : Nat × Nat × Nat × Nat) (s : State), e.2.2.1 ≠ 1 →
    s.takeEntry link slot e = s.takeAbort link slot e.1 e.2.1) ∧
  (∀ (link stream v : Nat) (slot : Option Nat) (s : State), s.txStep link slot stream = none →
    s.takeCredit link slot stream v = s) ∧
  (∀ (link stream v k x : Nat) (slot : Option Nat) (s : State), s.txStep link slot stream = some (k, x) → v ≤ ((s.plan k).srun x).freedLast →
    s.takeCredit link slot stream v = s) ∧
  (∀ (link stream v k x : Nat) (slot : Option Nat) (s : State), s.txStep link slot stream = some (k, x) → ((s.plan k).srun x).freedLast < v → ((s.plan k).srun x).stallAt = 0 →
    s.takeCredit link slot stream v = (s.setPlan k ((s.plan k).setSrun x { (s.plan k).srun x with freedLast := v, stallAt := 0 })).pump k x) ∧
  (∀ (link stream run : Nat) (slot : Option Nat) (s : State), s.rxStep link slot stream = none →
    s.takeAbort link slot stream run = s) ∧
  (∀ (link stream run k x : Nat) (slot : Option Nat) (s : State), s.rxStep link slot stream = some (k, x) → (s.plan k).live x = true → run = (s.plan k).run.toNat % 65536 →
    s.takeAbort link slot stream run = s.endRun k stColPeerAbort dtNone) ∧
  (∀ (link stream run k x : Nat) (slot : Option Nat) (s : State), s.rxStep link slot stream = some (k, x) → (s.plan k).live x = false ∨ run ≠ (s.plan k).run.toNat % 65536 →
    s.takeAbort link slot stream run = s) ∧
  (∀ (link k x : Nat) (f : RxFlit) (s : State), s.rxStep link f.slot (leNat (f.payload.take 2) % 4096) = some (k, x) → (s.slot (s.plan k).dslot).state ≠ .quarantined → (s.plan k).fail = 0 → leNat ((f.payload.drop 2).take 2) = (s.plan k).run.toNat % 65536 → ((s.plan k).srun x).buf.length < stRxBuf ((s.plan k).step x) →
    s.placeCol link f = (s.modSrun k x fun r => { r with buf := r.buf ++ [(leNat ((f.payload.drop 2).take 2), leNat ((f.payload.drop 4).take 2), (f.payload.drop 8).take (min 232 (leNat ((f.payload.drop 6).take 2))))] }).pump k x) ∧
  (∀ (link k x : Nat) (f : RxFlit) (s : State), s.rxStep link f.slot (leNat (f.payload.take 2) % 4096) = some (k, x) → (s.slot (s.plan k).dslot).state = .quarantined →
    s.placeCol link f = s.strayFlit link) ∧
  (∀ (plan step : Nat) (s : State), 
    exec (.stepStart plan step) s = .next (State.startChain plan (s.plan plan).steps.length step (s.registerSteps plan))) ∧
  (∀ (k f x : Nat) (s : State), (s.plan k).running = false →
    State.startChain k (f + 1) x s = s) ∧
  (∀ (k f x : Nat) (s : State), (s.plan k).running = true → (s.plan k).fail = 0 → x < (s.plan k).steps.length → (s.plan k).startable x = true → stWaits ((s.plan k).step x) = false ∨ ((s.plan k).srun x).waitMet = true → stWithPrev ((((s.startStep k x).registerSteps k).plan k).step (x + 1)) = false →
    State.startChain k (f + 1) x s = (s.startStep k x).registerSteps k) ∧
  (∀ (k f x : Nat) (s : State), (s.plan k).running = true → (s.plan k).fail = 0 → x < (s.plan k).steps.length → (s.plan k).startable x = true → stWaits ((s.plan k).step x) = false ∨ ((s.plan k).srun x).waitMet = true → stWithPrev ((((s.startStep k x).registerSteps k).plan k).step (x + 1)) = true →
    State.startChain k (f + 1) x s = State.startChain k f (x + 1) ((s.startStep k x).registerSteps k)) ∧
  (∀ (k f x : Nat) (s : State), (s.plan k).fail ≠ 0 ∨ (s.plan k).startable x = false ∨ (stWaits ((s.plan k).step x) = true ∧ ((s.plan k).srun x).waitMet = false) →
    State.startChain k (f + 1) x s = s) ∧
  (∀ (plan step : Nat) (s : State), s.stepDone (s.plan plan) step = true → (stSignal ((s.plan plan).step step)).getLsbD 21 = true → ((s.modSrun plan step fun r => { r with stage := .completed }).syncObj ((s.modSrun plan step fun r => { r with stage := .completed }).gateObj (s.plan plan) (stSignal ((s.plan plan).step step)))).kind ≠ .fence → 
    exec (.stepComplete plan step) s = .next (((s.modSrun plan step fun r => { r with stage := .completed }).registerSteps plan).settleRun plan)) ∧
  (∀ (plan step : Nat) (s : State), s.stepDone (s.plan plan) step = true → (stSignal ((s.plan plan).step step)).getLsbD 21 = false → 
    exec (.stepComplete plan step) s = .next (((s.modSrun plan step fun r => { r with stage := .completed }).registerSteps plan).settleRun plan)) ∧
  (∀ (plan step : Nat) (s : State), s.stepDone (s.plan plan) step = true → (stSignal ((s.plan plan).step step)).getLsbD 21 = true → ((s.modSrun plan step fun r => { r with stage := .completed }).syncObj ((s.modSrun plan step fun r => { r with stage := .completed }).gateObj (s.plan plan) (stSignal ((s.plan plan).step step)))).kind = .fence → 
    exec (.stepComplete plan step) s = .next ((((s.modSrun plan step fun r => { r with stage := .completed }).signalObj ((s.modSrun plan step fun r => { r with stage := .completed }).gateObj (s.plan plan) (stSignal ((s.plan plan).step step))) ((s.plan plan).run + gateDelta (stSignal ((s.plan plan).step step)))).registerSteps plan).settleRun plan)) ∧
  (∀ (plan step : Nat) (s : State), s.stepDone (s.plan plan) step = false → 
    exec (.stepComplete plan step) s = .next s) ∧
  (∀ (plan step l : Nat) (s : State), (s.plan plan).live step = true → stSend ((s.plan plan).step step) = true → ((s.plan plan).srun step).stallAt ≠ 0 → ((s.plan plan).srun step).stallAt - 1 + phTimeout (s.plan plan).header ≤ s.sys.now → stTxLink ((s.plan plan).step step) = l → l < 32 → 
    exec (.runTimeout plan step) s = .next ((s.endRun plan stPartnerLost dtNone).memberLost (some (s.plan plan).dslot) ((s.plan plan).peer l) 0)) ∧
  (∀ (plan step l : Nat) (s : State), (s.plan plan).live step = true → stSend ((s.plan plan).step step) = true → ((s.plan plan).srun step).stallAt ≠ 0 → ((s.plan plan).srun step).stallAt - 1 + phTimeout (s.plan plan).header ≤ s.sys.now → stTxLink ((s.plan plan).step step) = l → 32 ≤ l → 
    exec (.runTimeout plan step) s = .next ((s.endRun plan stPartnerLost dtNone).memberLost (some (s.plan plan).dslot) (s.endRun plan stPartnerLost dtNone).fab.node (l - 32))) ∧
  (∀ (plan step l : Nat) (s : State), (s.plan plan).live step = true → stSend ((s.plan plan).step step) = false ∨ ((s.plan plan).srun step).stallAt = 0 ∨ s.sys.now < ((s.plan plan).srun step).stallAt - 1 + phTimeout (s.plan plan).header → stRecv ((s.plan plan).step step) = true → ((s.plan plan).srun step).blocks < stBlocks ((s.plan plan).step step) → (((s.plan plan).srun step).nextBlk ((s.plan plan).run.toNat % 65536)).isNone = true → ((s.plan plan).srun step).activeAt + phTimeout (s.plan plan).header ≤ s.sys.now → stRxLink ((s.plan plan).step step) = l → l < 32 → 
    exec (.runTimeout plan step) s = .next ((s.endRun plan stPartnerLost dtNone).memberLost (some (s.plan plan).dslot) ((s.plan plan).peer l) 0)) ∧
  (∀ (plan step l : Nat) (s : State), (s.plan plan).live step = true → stSend ((s.plan plan).step step) = false ∨ ((s.plan plan).srun step).stallAt = 0 ∨ s.sys.now < ((s.plan plan).srun step).stallAt - 1 + phTimeout (s.plan plan).header → stRecv ((s.plan plan).step step) = true → ((s.plan plan).srun step).blocks < stBlocks ((s.plan plan).step step) → (((s.plan plan).srun step).nextBlk ((s.plan plan).run.toNat % 65536)).isNone = true → ((s.plan plan).srun step).activeAt + phTimeout (s.plan plan).header ≤ s.sys.now → stRxLink ((s.plan plan).step step) = l → 32 ≤ l → 
    exec (.runTimeout plan step) s = .next ((s.endRun plan stPartnerLost dtNone).memberLost (some (s.plan plan).dslot) (s.endRun plan stPartnerLost dtNone).fab.node (l - 32))) ∧
  (∀ (plan step : Nat) (s : State), stSend ((s.plan plan).step step) = false ∨ ((s.plan plan).srun step).stallAt = 0 ∨ s.sys.now < ((s.plan plan).srun step).stallAt - 1 + phTimeout (s.plan plan).header → stRecv ((s.plan plan).step step) = false ∨ stBlocks ((s.plan plan).step step) ≤ ((s.plan plan).srun step).blocks ∨ (((s.plan plan).srun step).nextBlk ((s.plan plan).run.toNat % 65536)).isNone = false ∨ s.sys.now < ((s.plan plan).srun step).activeAt + phTimeout (s.plan plan).header → 
    exec (.runTimeout plan step) s = .next s) ∧
  (∀ (plan step : Nat) (s : State), (s.plan plan).live step = false → 
    exec (.runTimeout plan step) s = .next s)

/-- Served writes, t without the requester's held low half. HOST_SIGNAL on a port below 15 of the slice's page: of an
index in range, a port set to post posts an event, another signals a fence with the value written; out of range, or of
another kind than the port's, count 0xB of the slice rises by one. ORPHAN_ALL through that page orphans every object of
the slice. SYN_SLCFG reports the result of its checks, and with result 1 sets the selected slice's object and vector
ranges. SYN_CTL sets DL_WINDOW if it is 2 to 100, and BREAK. SYN_DBG_CMD of a management session: a refused one reports
the refusal; READ reports the object and its value, FORCE writes a record 0x91, forces the object and reports it.
DEADLOCK_SCAN while detection runs, 100 ms after the last one, notes the time, keeps the reported cycles that are still
there, and settles every cycle of the wait graph; detection not running, or earlier, it does nothing. DEADLOCK_ESCALATE
while detection runs, with a stalled unit u, writes a record 0x15 with u and the level, marks the escalation in
SYN_DL_STAT, and begins a reset of source DEADLOCK at SYSRST_WARM; with no stalled unit, or detection not running, it does
nothing. -/
def Obligations.SyncRegistersAndDeadlock : Prop :=
  (∀ (r : Req) (slice port : Nat) (v : BitVec 64) (t : State) (s : State), s.served r (signalPage slice + 0x28 + port * 0x20) = true → (decide (port < 15) && s.pageWrite slice r) = true → s.dropHeld r = t → (bits ((t.slice slice).psel.get 0 port).toNat 19 0) < (t.slice slice).syncSize → ((t.slice slice).psel.get 0 port).getLsbD 20 = true → (t.syncObj ((t.slice slice).syncObj (bits ((t.slice slice).psel.get 0 port).toNat 19 0))).kind = .event → 
    exec (.hostSignal r slice port v) s = .next (t.postObj ((t.slice slice).syncObj (bits ((t.slice slice).psel.get 0 port).toNat 19 0)))) ∧
  (∀ (r : Req) (slice port : Nat) (v : BitVec 64) (t : State) (s : State), s.served r (signalPage slice + 0x28 + port * 0x20) = true → (decide (port < 15) && s.pageWrite slice r) = true → s.dropHeld r = t → (bits ((t.slice slice).psel.get 0 port).toNat 19 0) < (t.slice slice).syncSize → ((t.slice slice).psel.get 0 port).getLsbD 20 = false → (t.syncObj ((t.slice slice).syncObj (bits ((t.slice slice).psel.get 0 port).toNat 19 0))).kind = .fence → 
    exec (.hostSignal r slice port v) s = .next (t.signalObj ((t.slice slice).syncObj (bits ((t.slice slice).psel.get 0 port).toNat 19 0)) v)) ∧
  (∀ (r : Req) (slice port : Nat) (v : BitVec 64) (t : State) (s : State), s.served r (signalPage slice + 0x28 + port * 0x20) = true → (decide (port < 15) && s.pageWrite slice r) = true → s.dropHeld r = t → (t.slice slice).syncSize ≤ (bits ((t.slice slice).psel.get 0 port).toNat 19 0) ∨ (t.syncObj ((t.slice slice).syncObj (bits ((t.slice slice).psel.get 0 port).toNat 19 0))).kind ≠ (if ((t.slice slice).psel.get 0 port).getLsbD 20 = true then SyncKind.event else SyncKind.fence) → 
    exec (.hostSignal r slice port v) s = .next (t.count slice 0xB 1)) ∧
  (∀ (r : Req) (slice : Nat) (t : State) (s : State), s.served r (signalPage slice) = true → (s.pageWrite slice r || (decide (slice < 2048) && kernelReq r)) = true → s.dropHeld r = t → 
    exec (.orphanAll r slice) s = .next (t.orphanSlice slice false)) ∧
  (∀ (r : Req) (v : BitVec 64) (t : State) (s : State), s.served r 0x200018 = true → globalPage r = true → s.dropHeld r = t → t.slcfgResult t.syn.slsel v = 1 → 
    exec (.synSlcfgWrite r v) s = .next (({ t with syn := { t.syn with slres := 1 } } : State).modSlice t.syn.slsel fun l => { l with synBase := slGranBase v, synCount := slGranCount v, vecBase := slVecBase v, vecCount := slVecCount v })) ∧
  (∀ (r : Req) (v : BitVec 64) (n : Nat) (t : State) (s : State), s.served r 0x200018 = true → globalPage r = true → s.dropHeld r = t → t.slcfgResult t.syn.slsel v = n → n ≠ 1 → 
    exec (.synSlcfgWrite r v) s = .next { t with syn := { t.syn with slres := n } }) ∧
  (∀ (r : Req) (v : BitVec 32) (t : State) (s : State), s.served r 0x200008 = true → r.mgmt = true → s.dropHeld r = t → 
    exec (.synCtlWrite r v) s = .next { t with syn := { t.syn with window := if 2 ≤ bits v.toNat 6 0 && bits v.toNat 6 0 ≤ 100 then bits v.toNat 6 0 else t.syn.window, breakEn := v.getLsbD 7 } }) ∧
  (∀ (r : Req) (i k : Nat) (t : State) (s : State), s.served r 0x200040 = true → r.mgmt = true → s.dropHeld r = t → t.dbgObj = (i, k) → t.dbgRefusal = 0 → 
    exec (.syncDebugRead r) s = .next { t with syn := { t.syn with dbgRes := t.dbgResult 2 ((t.slice i).syncObj k), dbgData := (t.syncObj ((t.slice i).syncObj k)).value } }) ∧
  (∀ (r : Req) (i k n : Nat) (t : State) (s : State), s.served r 0x200040 = true → r.mgmt = true → s.dropHeld r = t → t.dbgObj = (i, k) → t.dbgRefusal = n + 1 → 
    exec (.syncDebugRead r) s = .next { t with syn := { t.syn with dbgRes := BitVec.ofNat 32 (n + 1) } }) ∧
  (∀ (r : Req) (clear : Bool) (i k : Nat) (u : State) (t : State) (s : State), s.served r 0x200040 = true → r.mgmt = true → s.dropHeld r = t → t.dbgObj = (i, k) → t.dbgRefusal = 0 → ((t.record 0x91 srcSync [(2, i), (4, k), (8, t.syn.dbgData.toNat)]).forceObj ((t.slice i).syncObj k) t.syn.dbgData clear) = u → 
    exec (.syncForce r clear) s = .next { u with syn := { u.syn with dbgRes := u.dbgResult 2 ((t.slice i).syncObj k) } }) ∧
  (∀ (r : Req) (clear : Bool) (i k n : Nat) (t : State) (s : State), s.served r 0x200040 = true → r.mgmt = true → s.dropHeld r = t → t.dbgObj = (i, k) → t.dbgRefusal = n + 1 → 
    exec (.syncForce r clear) s = .next { t with syn := { t.syn with dbgRes := BitVec.ofNat 32 (n + 1) } }) ∧
  (∀ (s : State), s.watching = true → s.syn.scanAt + 100000000 ≤ s.sys.now → 
    exec .deadlockScan s = .next (((s.cycles s.graphWaits [] []).foldl State.settleCycle { s with syn := { s.syn with scanAt := s.now, reported := s.syn.reported.filter fun k => ((s.cycles s.graphWaits [] []).map fun c => c.map fun w => w.obj).contains k } }))) ∧
  (∀ (s : State), s.watching = false → 
    exec .deadlockScan s = .next s) ∧
  (∀ (u : Nat) (s : State), s.stalledUnit = some u → s.watching = true → 
    exec .deadlockEscalate s = .next ((({ s.record 0x15 srcStoker [(1, u), (1, (s.levelFor .deadlock .warm).code)] with syn := { s.syn with escalated := true, dlStat := BitVec.ofNat 64 (packFields [(2, 3), (52, 0), (10, fld s.syn.dlStat 63 54)]) } } : State).beginReset .deadlock .warm))) ∧
  (∀ (s : State), s.stalledUnit = none ∨ s.watching = false → 
    exec .deadlockEscalate s = .next s) ∧
  (∀ (s : State), s.sys.now < s.syn.scanAt + 100000000 → 
    exec .deadlockScan s = .next s)

/-- TRANSLATION_COMPLETION and TRANSLATION_TIMEOUT of a request not out do nothing. Of one that is out it is closed, with
the retried page groups of its page: a refusal or a timeout refuses the page to what waits; a success with the right asked
for is cached and the page given; a success without it asks for the page, if page requests are on, not blocked and none
was asked and retried, and else refuses it; commands starved then go on. PAGE_RESPONSE of no group does nothing; of a
group made void it fails the group; code 0 marks it retried and asks for the translation again; code 1 fails it; another
code blocks page requests and fails it. PRQ_TIMEOUT of no group, or before its time, does nothing; at it the group fails.
STK_XLAT_CTL of a management session sets PRQ_TIMEOUT from 1 to 100 and is ignored outside. ATS_INVALIDATION while the
host is served, with fewer than 32 pending, drops every entry it meets, counts the transfers under them or over its
addresses, due in 2 ms, and settles the invalidations; otherwise nothing. INVALIDATION_TIMEOUT of one past its time
abandons the transfers it still counts; otherwise nothing. -/
def Obligations.Translations : Prop :=
  (∀ (pasid : BitVec 20) (page : Nat) (c : XlatCpl) (s : State), (s.hst.xreqs.find? fun r => r.1 = pasid && r.2.1 = page) = none → 
    exec (.translationCompletion pasid page c) s = .next s) ∧
  (∀ (pasid : BitVec 20) (page : Nat) (write : Bool) (t : State) (s : State), (s.hst.xreqs.find? fun r => r.1 = pasid && r.2.1 = page) = some (pasid, page, write) → { s with hst := { s.hst with xreqs := s.hst.xreqs.filter fun r => !(r.1 = pasid && r.2.1 = page), groups := s.hst.groups.filter fun g => !(g.pasid = pasid && g.page = page && g.retried) } } = t → 
    exec (.translationCompletion pasid page .refused) s = .next ((t.settlePage pasid page true).wakeStarved)) ∧
  (∀ (pasid : BitVec 20) (page : Nat) (write : Bool) (t : State) (base size trans : Nat) (rd wr : Bool) (s : State), (s.hst.xreqs.find? fun r => r.1 = pasid && r.2.1 = page) = some (pasid, page, write) → { s with hst := { s.hst with xreqs := s.hst.xreqs.filter fun r => !(r.1 = pasid && r.2.1 = page), groups := s.hst.groups.filter fun g => !(g.pasid = pasid && g.page = page && g.retried) } } = t → (if write then wr else rd) = true → 
    exec (.translationCompletion pasid page (.success base size trans rd wr)) s = .next (((t.fillXlat { pasid, base, size, trans, rd, wr }).settlePage pasid page false).wakeStarved)) ∧
  (∀ (pasid : BitVec 20) (page : Nat) (write : Bool) (t : State) (base size trans : Nat) (rd wr : Bool) (s : State), (s.hst.xreqs.find? fun r => r.1 = pasid && r.2.1 = page) = some (pasid, page, write) → { s with hst := { s.hst with xreqs := s.hst.xreqs.filter fun r => !(r.1 = pasid && r.2.1 = page), groups := s.hst.groups.filter fun g => !(g.pasid = pasid && g.page = page && g.retried) } } = t → (if write then wr else rd) = false → (s.hst.pri && !s.hst.priBlocked && !(s.hst.groups.any fun g => g.pasid = pasid && g.page = page && g.retried)) = true → 
    exec (.translationCompletion pasid page (.success base size trans rd wr)) s = .next ((t.askPage pasid page write).wakeStarved)) ∧
  (∀ (pasid : BitVec 20) (page : Nat) (write : Bool) (t : State) (base size trans : Nat) (rd wr : Bool) (s : State), (s.hst.xreqs.find? fun r => r.1 = pasid && r.2.1 = page) = some (pasid, page, write) → { s with hst := { s.hst with xreqs := s.hst.xreqs.filter fun r => !(r.1 = pasid && r.2.1 = page), groups := s.hst.groups.filter fun g => !(g.pasid = pasid && g.page = page && g.retried) } } = t → (if write then wr else rd) = false → (s.hst.pri && !s.hst.priBlocked && !(s.hst.groups.any fun g => g.pasid = pasid && g.page = page && g.retried)) = false → 
    exec (.translationCompletion pasid page (.success base size trans rd wr)) s = .next ((t.settlePage pasid page true).wakeStarved)) ∧
  (∀ (pasid : BitVec 20) (page : Nat) (t : State) (s : State), (s.hst.xreqs.any fun r => r.1 = pasid && r.2.1 = page) = true → { s with hst := { s.hst with xreqs := s.hst.xreqs.filter fun r => !(r.1 = pasid && r.2.1 = page), groups := s.hst.groups.filter fun g => !(g.pasid = pasid && g.page = page && g.retried) } } = t → 
    exec (.translationTimeout pasid page) s = .next ((t.settlePage pasid page true).wakeStarved)) ∧
  (∀ (pasid : BitVec 20) (page : Nat) (s : State), (s.hst.xreqs.any fun r => r.1 = pasid && r.2.1 = page) = false → 
    exec (.translationTimeout pasid page) s = .next s) ∧
  (∀ (pasid : BitVec 20) (group : Nat) (x : PageGroup) (s : State), s.groupOf pasid group = some x → x.void = false → 
    exec (.pageResponse pasid group 0) s = .next (({ s with hst := { s.hst with groups := s.hst.groups.map fun (y : PageGroup) => if y = x then { y with retried := true } else y, xreqs := s.hst.xreqs ++ [(pasid, x.page, x.write)] } } : State).emit (.xlatRequest pasid x.page))) ∧
  (∀ (pasid : BitVec 20) (group : Nat) (x : PageGroup) (s : State), s.groupOf pasid group = some x → x.void = false → 
    exec (.pageResponse pasid group 1) s = .next (s.failGroup x)) ∧
  (∀ (pasid : BitVec 20) (group : Nat) (x : PageGroup) (code : Nat) (s : State), s.groupOf pasid group = some x → x.void = false → 2 ≤ code → 
    exec (.pageResponse pasid group code) s = .next (({ s with hst := { s.hst with priBlocked := true } } : State).failGroup x)) ∧
  (∀ (pasid : BitVec 20) (group code : Nat) (s : State), s.groupOf pasid group = none → 
    exec (.pageResponse pasid group code) s = .next s) ∧
  (∀ (pasid : BitVec 20) (group : Nat) (x : PageGroup) (s : State), s.groupOf pasid group = some x → x.due ≤ s.sys.now → 
    exec (.prqTimeout pasid group) s = .next (s.failGroup x)) ∧
  (∀ (pasid : BitVec 20) (group : Nat) (s : State), s.groupOf pasid group = none → 
    exec (.prqTimeout pasid group) s = .next s) ∧
  (∀ (r : Req) (v : BitVec 32) (t : State) (s : State), s.served r 0x17F08 = true → r.mgmt = true → s.dropHeld r = t → 1 ≤ bits v.toNat 6 0 → bits v.toNat 6 0 ≤ 100 → 
    exec (.stkXlatCtlWrite r v) s = .next { t with hst := { t.hst with prqTimeout := bits v.toNat 6 0 } }) ∧
  (∀ (itag : Nat) (pasid : BitVec 20) (global : Bool) (addr size : Nat) (s : State), s.hostServes = true → s.hst.invals.length < 32 → 
    exec (.atsInvalidation itag pasid global addr size) s = .next (({ s with hst := { s.hst with xlat := s.hst.xlat.filter fun y => !((global || decide (y.pasid = pasid)) && decide (y.base < addr + size) && decide (addr < y.base + y.size)), invals := s.hst.invals ++ [{ itag, xfers := (s.hst.xfers.filter fun t => t.matched pasid global addr size || (s.hst.xlat.filter fun y => ((global || decide (y.pasid = pasid)) && decide (y.base < addr + size) && decide (addr < y.base + y.size))).any fun x => x.carries t).map Xfer.id, due := s.sys.now + 2000000 }] } } : State).settleInvals)) ∧
  (∀ (itag : Nat) (v : Inval) (s : State), (s.hst.invals.find? fun v => v.itag = itag && v.due ≤ s.now) = some v → 
    exec (.invalidationTimeout itag) s = .next ((s.forEach v.xfers State.abandonXfer).drainXfers v.xfers)) ∧
  (∀ (itag : Nat) (s : State), (s.hst.invals.find? fun v => v.itag = itag && v.due ≤ s.now) = none → 
    exec (.invalidationTimeout itag) s = .next s) ∧
  (∀ (pasid : BitVec 20) (group : Nat) (x : PageGroup) (code : Nat) (s : State), s.groupOf pasid group = some x → x.void = true → 
    exec (.pageResponse pasid group code) s = .next (s.failGroup x)) ∧
  (∀ (pasid : BitVec 20) (group : Nat) (x : PageGroup) (s : State), s.groupOf pasid group = some x → s.sys.now < x.due → 
    exec (.prqTimeout pasid group) s = .next s) ∧
  (∀ (itag : Nat) (pasid : BitVec 20) (global : Bool) (addr size : Nat) (s : State), s.hostServes = false ∨ 32 ≤ s.hst.invals.length → 
    exec (.atsInvalidation itag pasid global addr size) s = .next s) ∧
  (∀ (r : Req) (v : BitVec 32) (t : State) (s : State), s.served r 0x17F08 = true → r.mgmt = true → s.dropHeld r = t → bits v.toNat 6 0 = 0 ∨ 100 < bits v.toNat 6 0 → 
    exec (.stkXlatCtlWrite r v) s = .next t)

/-- HOST_TRANSFER_COMPLETION of a transfer not out does nothing. One that is out is removed: of an abandoned one LATE_CPL
counts it; else it drains no longer, and, with its bytes in the host when it succeeded, the command that waits has them,
or its page marked refused, and goes on, and parked work of the fabric likewise. FUNCTION_LEVEL_RESET while the host is
not served is answered 1; served, every slice in use begins its reset towards FREE (an ACTIVE one starts its reset,
another is marked to become FREE), its TDI unlocked, the IDE streams and the translation cache are emptied, the answer is
2, and the queues are as that left them. HOST_CONFIG_WRITE not served is answered 1; served it sets ATS, switches it off,
sets PRI, or ends the block of page requests. -/
def Obligations.HostTransfersAndFunction : Prop :=
  (∀ (id : Nat) (data : List Byte) (ok : Bool) (s : State), (s.hst.xfers.find? fun t => t.id = id) = none → 
    exec (.hostTransferCompletion id data ok) s = .next s) ∧
  (∀ (id : Nat) (data : List Byte) (ok : Bool) (x : Xfer) (u : State) (s : State), (s.hst.xfers.find? fun t => t.id = id) = some x → { s with hst := { s.hst with xfers := s.hst.xfers.filter fun y => y.id ≠ id } } = u → x.abandoned = true → 
    exec (.hostTransferCompletion id data ok) s = .next { u with hst := { u.hst with lateCpl := (u.hst.lateCpl + 1) % 2 ^ 14 } }) ∧
  (∀ (id : Nat) (data : List Byte) (x : Xfer) (u : State) (s : State), (s.hst.xfers.find? fun t => t.id = id) = some x → { s with hst := { s.hst with xfers := s.hst.xfers.filter fun y => y.id ≠ id } } = u → x.abandoned = false → x.queue ≠ 2 ^ 18 → 
    exec (.hostTransferCompletion id data true) s = .next (((((u.drainXfers [id]).hostPut x.pasid x.addr ((data ++ List.replicate x.len 0).take x.len)).modCmd x.slice x.queue x.seq fun c => ({ c with hostOut := c.hostOut - 1, hostGot := c.hostGot ++ [(x.addr, ((data ++ List.replicate x.len 0).take x.len))] } : Cmd).settleStop).settleFab x.slice x.queue))) ∧
  (∀ (id : Nat) (data : List Byte) (x : Xfer) (u : State) (s : State), (s.hst.xfers.find? fun t => t.id = id) = some x → { s with hst := { s.hst with xfers := s.hst.xfers.filter fun y => y.id ≠ id } } = u → x.abandoned = false → x.queue ≠ 2 ^ 18 → 
    exec (.hostTransferCompletion id data false) s = .next ((((u.drainXfers [id]).modCmd x.slice x.queue x.seq fun c => ({ c with hostOut := c.hostOut - 1, xlatBad := x.addr / 4096 + 1 } : Cmd).settleStop).settleFab x.slice x.queue))) ∧
  (∀ (id : Nat) (data : List Byte) (ok : Bool) (x : Xfer) (u : State) (s : State), (s.hst.xfers.find? fun t => t.id = id) = some x → { s with hst := { s.hst with xfers := s.hst.xfers.filter fun y => y.id ≠ id } } = u → x.abandoned = false → x.queue = 2 ^ 18 → 
    exec (.hostTransferCompletion id data ok) s = .next (State.parkedData (if ok = true then (u.drainXfers [id]).hostPut x.pasid x.addr ((data ++ List.replicate x.len 0).take x.len) else u.drainXfers [id]) id (if ok = true then some ((data ++ List.replicate x.len 0).take x.len) else none))) ∧
  (∀ (s : State), s.hostServes = false → 
    exec .functionLevelReset s = .next (s.emit (.hostAnswer 1))) ∧
  (∀ (u : State) (s : State), s.hostServes = true → (s.forEach ((s.qm.slices.cells.filter fun e => e.2.state ≠ .free).map Prod.fst) fun s i =>
          (if (s.slice i).state = .active then (s.startAction i 2 (s.squashable i)).startReset i true
            else s.modSlice i fun l => { l with toFree := true }).modSlice i fun l => { l with tdi := .unlocked, stream := none, tdiNonce := 0 }) = u → 
    ∃ t, exec .functionLevelReset s = .next t ∧ t.hst.ide = [] ∧ t.hst.xlat = [] ∧ t.out = .hostAnswer 2 :: u.out ∧ t.qm = u.qm) ∧
  (∀ (c : HostCfg) (s : State), s.hostServes = false → 
    exec (.hostConfigWrite c) s = .next (s.emit (.hostAnswer 1))) ∧
  (∀ (s : State), s.hostServes = true → 
    exec (.hostConfigWrite (.ats true)) s = .next { s with hst := { s.hst with ats := true } }) ∧
  (∀ (s : State), s.hostServes = true → 
    exec (.hostConfigWrite (.ats false)) s = .next s.atsOff) ∧
  (∀ (on : Bool) (s : State), s.hostServes = true → 
    exec (.hostConfigWrite (.pri on)) s = .next { s with hst := { s.hst with pri := on } }) ∧
  (∀ (s : State), s.hostServes = true → 
    exec (.hostConfigWrite .priReset) s = .next { s with hst := { s.hst with priBlocked := false } })

/-- Heard over a session the slice's TDISP requests take: LOCK of a slice not ACTIVE or an interface not UNLOCKED is
answered INVALID_INTERFACE_STATE; with flags that may not be set, a stream not below 64 and running with that requester,
or one of a slice bound to another slot, INVALID_REQUEST; with no entropy INSUFFICIENT_ENTROPY; else a nonce is drawn, the
interface is LOCKED to the stream, and the nonce answered. START not LOCKED is answered INVALID_INTERFACE_STATE, with
another nonce INVALID_NONCE, else the interface is RUN. STOP leaves UNLOCKED. The report is given LOCKED or in RUN, else
INVALID_INTERFACE_STATE; state, version and capabilities always. IDE_STREAM_INSECURE of a running stream drops it, of
another does nothing. IDE_KM while the host is served over a secure session (otherwise nothing): QUERY answers the keys
and the state; KEY_PROG above 64 is refused, else keys the stream and acknowledges; K_SET_GO of a keyed stream starts it
with its requester, of another only acknowledges; K_SET_STOP drops it. MCTP control after Kindling step 2 (before it
nothing): SET_EID too short answers 3, of an ID below 8 or 0xFF 2, else takes it; GET_EID answers it; GET_VERSION too
short answers 3, of types 0xFF, 0, 5 and 6 the version, else 0x80; GET_TYPES lists 0, 5 and 6; any other command answers
5. -/
def Obligations.HostProtocols : Prop :=
  (∀ (m : Mgmt) (slice : Nat) (stream rid : Nat) (flags : BitVec 16) (s : State), s.tdHears m slice = true → (s.slice slice).tdi ≠ .unlocked ∨ (s.slice slice).state ≠ .active → 
    exec (.lockInterfaceRequest m slice stream rid flags) s = .next (s.tdError tdInvalidState)) ∧
  (∀ (m : Mgmt) (slice : Nat) (stream rid : Nat) (flags : BitVec 16) (s : State), s.tdHears m slice = true → (s.slice slice).tdi = .unlocked → (s.slice slice).state = .active → lockFlagsOk flags = true → 64 ≤ stream ∨ s.hst.ide.contains (stream, rid) = false → 
    exec (.lockInterfaceRequest m slice stream rid flags) s = .next (s.tdError tdInvalidRequest)) ∧
  (∀ (m : Mgmt) (slice stream rid : Nat) (flags : BitVec 16) (s : State), s.tdHears m slice = true → (s.slice slice).tdi = .unlocked → (s.slice slice).state = .active → lockFlagsOk flags = true → stream < 64 → s.hst.ide.contains (stream, rid) = true → (s.qm.slices.cells.any fun e => e.2.stream = some stream && e.2.bound && (s.slice slice).bound && e.2.dslot ≠ (s.slice slice).dslot) = false → s.fbx.trngFailed = false → 
    exec (.lockInterfaceRequest m slice stream rid flags) s = .next (((s.draw 256).2.modSlice slice fun l => { l with tdi := .locked, stream := some stream, tdiNonce := (s.draw 256).1 }).emit (.tdisp 0x03 [(s.draw 256).1.toNat]))) ∧
  (∀ (m : Mgmt) (slice stream rid : Nat) (flags : BitVec 16) (s : State), s.tdHears m slice = true → (s.slice slice).tdi = .unlocked → (s.slice slice).state = .active → lockFlagsOk flags = false → 
    exec (.lockInterfaceRequest m slice stream rid flags) s = .next (s.tdError tdInvalidRequest)) ∧
  (∀ (m : Mgmt) (slice stream rid : Nat) (flags : BitVec 16) (s : State), s.tdHears m slice = true → (s.slice slice).tdi = .unlocked → (s.slice slice).state = .active → lockFlagsOk flags = true → stream < 64 → s.hst.ide.contains (stream, rid) = true → (s.qm.slices.cells.any fun e => e.2.stream = some stream && e.2.bound && (s.slice slice).bound && e.2.dslot ≠ (s.slice slice).dslot) = true → 
    exec (.lockInterfaceRequest m slice stream rid flags) s = .next (s.tdError tdInvalidRequest)) ∧
  (∀ (m : Mgmt) (slice stream rid : Nat) (flags : BitVec 16) (s : State), s.tdHears m slice = true → (s.slice slice).tdi = .unlocked → (s.slice slice).state = .active → lockFlagsOk flags = true → stream < 64 → s.hst.ide.contains (stream, rid) = true → (s.qm.slices.cells.any fun e => e.2.stream = some stream && e.2.bound && (s.slice slice).bound && e.2.dslot ≠ (s.slice slice).dslot) = false → s.fbx.trngFailed = true → 
    exec (.lockInterfaceRequest m slice stream rid flags) s = .next (s.tdError tdNoEntropy)) ∧
  (∀ (m : Mgmt) (slice : Nat) (nonce : BitVec 256) (s : State), s.tdHears m slice = true → (s.slice slice).tdi ≠ .locked → 
    exec (.startInterfaceRequest m slice nonce) s = .next (s.tdError tdInvalidState)) ∧
  (∀ (m : Mgmt) (slice : Nat) (nonce : BitVec 256) (s : State), s.tdHears m slice = true → (s.slice slice).tdi = .locked → (s.slice slice).tdiNonce ≠ nonce → 
    exec (.startInterfaceRequest m slice nonce) s = .next (s.tdError tdInvalidNonce)) ∧
  (∀ (m : Mgmt) (slice : Nat) (nonce : BitVec 256) (s : State), s.tdHears m slice = true → (s.slice slice).tdi = .locked → (s.slice slice).tdiNonce = nonce → 
    exec (.startInterfaceRequest m slice nonce) s = .next ((s.setSlice slice { s.slice slice with tdi := .run, tdiNonce := 0 }).emit (.tdisp 0x06 []))) ∧
  (∀ (m : Mgmt) (slice : Nat) (s : State), s.tdHears m slice = true → 
    exec (.stopInterfaceRequest m slice) s = .next ((s.tdiLeave slice .unlocked).emit (.tdisp 0x07 []))) ∧
  (∀ (m : Mgmt) (slice : Nat) (s : State), s.tdHears m slice = true → (s.slice slice).tdi = .locked ∨ (s.slice slice).tdi = .run → 
    exec (.getDeviceInterfaceReport m slice) s = .next (s.emit (.tdisp 0x04 (s.tdReport slice)))) ∧
  (∀ (m : Mgmt) (slice : Nat) (s : State), s.tdHears m slice = true → (s.slice slice).tdi ≠ .locked → (s.slice slice).tdi ≠ .run → 
    exec (.getDeviceInterfaceReport m slice) s = .next (s.tdError tdInvalidState)) ∧
  (∀ (m : Mgmt) (slice : Nat) (s : State), s.tdHears m slice = true → 
    exec (.getDeviceInterfaceState m slice) s = .next (s.emit (.tdisp 0x05 [(s.slice slice).tdi.code]))) ∧
  (∀ (m : Mgmt) (s : State), s.tdHears m 0 = true → 
    exec (.getTdispVersion m) s = .next (s.emit (.tdisp 0x01 [1, 0x10]))) ∧
  (∀ (m : Mgmt) (s : State), s.tdHears m 0 = true → 
    exec (.getTdispCapabilities m) s = .next (s.emit (.tdisp 0x02 [0xFE]))) ∧
  (∀ (stream : Nat) (s : State), (s.hst.ide.any fun e => e.1 = stream) = true → 
    exec (.ideStreamInsecure stream) s = .next (s.ideDrop stream)) ∧
  (∀ (stream : Nat) (s : State), (s.hst.ide.any fun e => e.1 = stream) = false → 
    exec (.ideStreamInsecure stream) s = .next s) ∧
  (∀ (m : Mgmt) (st : Nat) (s : State), s.hostServes = true → m.secure = true → 
    exec (.ideKmMessage m (.query st)) s = .next (s.emit (.ideKm kmQueryResp [st, b2n (s.hst.ideKeys.contains st), b2n (s.hst.ide.any fun e => e.1 = st)]))) ∧
  (∀ (m : Mgmt) (st : Nat) (s : State), s.hostServes = true → m.secure = true → 64 < st → 
    exec (.ideKmMessage m (.keyProg st)) s = .next (s.emit (.ideKm kmKpAck [st, 1]))) ∧
  (∀ (m : Mgmt) (st : Nat) (s : State), s.hostServes = true → m.secure = true → st ≤ 64 → 
    exec (.ideKmMessage m (.keyProg st)) s = .next (({ s with hst := { s.hst with ideKeys := st :: s.hst.ideKeys.filter fun x => x ≠ st } } : State).emit (.ideKm kmKpAck [st, 0]))) ∧
  (∀ (m : Mgmt) (st rid : Nat) (s : State), s.hostServes = true → m.secure = true → s.hst.ideKeys.contains st = true → 
    exec (.ideKmMessage m (.start st rid)) s = .next (({ s with hst := { s.hst with ide := (st, rid) :: s.hst.ide.filter fun e => e.1 ≠ st } } : State).emit (.ideKm kmGoStopAck [st]))) ∧
  (∀ (m : Mgmt) (st rid : Nat) (s : State), s.hostServes = true → m.secure = true → s.hst.ideKeys.contains st = false → 
    exec (.ideKmMessage m (.start st rid)) s = .next (s.emit (.ideKm kmGoStopAck [st]))) ∧
  (∀ (m : Mgmt) (st : Nat) (s : State), s.hostServes = true → m.secure = true → 
    exec (.ideKmMessage m (.stop st)) s = .next ((s.ideDrop st).emit (.ideKm kmGoStopAck [st]))) ∧
  (∀ (body : List Byte) (e : Nat) (s : State), 2 ≤ s.rst.step → 2 ≤ body.length → (body.getD 1 0).toNat = e → 8 ≤ e → e < 0xFF → 
    exec (.mctpControlMessage 1 body) s = .next (({ s with hst := { s.hst with eid := e } } : State).emit (.mctp mcSetEid [0, 0, e, 0]))) ∧
  (∀ (body : List Byte) (e : Nat) (s : State), 2 ≤ s.rst.step → 2 ≤ body.length → (body.getD 1 0).toNat = e → e < 8 ∨ e = 0xFF → 
    exec (.mctpControlMessage 1 body) s = .next (s.emit (.mctp mcSetEid [2]))) ∧
  (∀ (body : List Byte) (s : State), 2 ≤ s.rst.step → 
    exec (.mctpControlMessage 2 body) s = .next (s.emit (.mctp mcGetEid [0, s.hst.eid, 0, 0]))) ∧
  (∀ (body : List Byte) (s : State), 2 ≤ s.rst.step → 1 ≤ body.length → [0xFF, 0, 5, 6].contains (body.getD 0 0).toNat = true → 
    exec (.mctpControlMessage 4 body) s = .next (s.emit (.mctp mcGetVersion [0, 1, 0xF1, 0xF3, 0xF0, 0]))) ∧
  (∀ (body : List Byte) (s : State), 2 ≤ s.rst.step → 
    exec (.mctpControlMessage 5 body) s = .next (s.emit (.mctp mcGetTypes [0, 3, 0, 5, 6]))) ∧
  (∀ (body : List Byte) (s : State), 2 ≤ s.rst.step → body.length < 2 → 
    exec (.mctpControlMessage 1 body) s = .next (s.emit (.mctp mcSetEid [3]))) ∧
  (∀ (body : List Byte) (s : State), 2 ≤ s.rst.step → body.length < 1 → 
    exec (.mctpControlMessage 4 body) s = .next (s.emit (.mctp mcGetVersion [3]))) ∧
  (∀ (body : List Byte) (s : State), 2 ≤ s.rst.step → 1 ≤ body.length → [0xFF, 0, 5, 6].contains (body.getD 0 0).toNat = false → 
    exec (.mctpControlMessage 4 body) s = .next (s.emit (.mctp mcGetVersion [0x80]))) ∧
  (∀ (command : BitVec 8) (body : List Byte) (s : State), 2 ≤ s.rst.step → command.toNat ≠ 1 → command.toNat ≠ 2 → command.toNat ≠ 4 → command.toNat ≠ 5 → 
    exec (.mctpControlMessage command body) s = .next (s.emit (.mctp command.toNat [5]))) ∧
  (∀ (command : BitVec 8) (body : List Byte) (s : State), s.rst.step < 2 → 
    exec (.mctpControlMessage command body) s = .next s) ∧
  (∀ (m : Mgmt) (k : IdeKm) (s : State), s.hostServes = false ∨ m.secure = false → 
    exec (.ideKmMessage m k) s = .next s)

/-- SITE_LINK_ACTIVE of a site below 8 whose link was not up marks it up, and, with the sites' unit up, the site's clock
running and the site not PROBING, starts its admission; otherwise only that, or nothing. SITE_SPDM_RESPONSE of a site not
PROBING does nothing. In its step: a version, capabilities with certificates and measurements (CT noted), algorithms and
digests lead on; a false version or algorithm answer, or capabilities lacking one, fail the site with that cause; a chain
accepted leads on with its leaf key, another fails; measurements whose signature verifies over the bytes that hold our
nonce and the record pass the site under the digest of the record, others fail. Out of step, or an error, fails with
PROTOCOL. SITE_SPDM_TIMEOUT at its time sends again up to the third time, then fails with NO_RESPONSE; before, or not
PROBING, nothing. SITE_LINK_INACTIVE marks the link down, an ADMITTED site SUSPENDED and a PROBING one EMPTY. Served
writes of a window command register, of a path admitted, t as above, whose OP names the command: of a site the path does
not own the result is 3. SET with a window out of range is 5, with a KID the path may not name 4, else the window is
written, the KIDs settle and it is 2; CLEAR empties the window and CLEAR_KID every window of the KID, with 2. READMIT of
the kernel path starts the admission of a site not PROBING with 2, of one PROBING it is 6; of a slice's path it is 5. A
write whose OP names another command does nothing more. -/
def Obligations.SiteLinksAndWindows : Prop :=
  (∀ (site : Nat) (s : State), site < 8 → (s.site site).linkUp = false → (s.setSite site { s.site site with linkUp := true }).siteUp = true → (s.setSite site { s.site site with linkUp := true }).clkRuns (.dclk site) = true → (s.site site).state ≠ .probing → 
    exec (.siteLinkActive site) s = .next ((s.setSite site { s.site site with linkUp := true }).startAdmission site)) ∧
  (∀ (site : Nat) (s : State), site < 8 → (s.site site).linkUp = false → (s.setSite site { s.site site with linkUp := true }).siteUp = false ∨ (s.setSite site { s.site site with linkUp := true }).clkRuns (.dclk site) = false ∨ (s.site site).state = .probing → 
    exec (.siteLinkActive site) s = .next ((s.setSite site { s.site site with linkUp := true }))) ∧
  (∀ (site : Nat) (s : State), 8 ≤ site ∨ (s.site site).linkUp = true → 
    exec (.siteLinkActive site) s = .next s) ∧
  (∀ (site : Nat) (rsp : SiteRsp) (s : State), (s.site site).state ≠ .probing → 
    exec (.siteSpdmResponse site rsp) s = .next s) ∧
  (∀ (site : Nat) (s : State), (s.site site).state = .probing → (s.site site).step = 1 → 
    exec (.siteSpdmResponse site (.version true)) s = .next (s.siteNext site)) ∧
  (∀ (site : Nat) (s : State), (s.site site).state = .probing → (s.site site).step = 1 → 
    exec (.siteSpdmResponse site (.version false)) s = .next (s.siteFail site scVersion)) ∧
  (∀ (site : Nat) (e : Nat) (s : State), (s.site site).state = .probing → (s.site site).step = 2 → 
    exec (.siteSpdmResponse site (.capabilities true true e)) s = .next ((s.setSite site { s.site site with ctExp := some e }).siteNext site)) ∧
  (∀ (site : Nat) (cert meas : Bool) (e : Nat) (s : State), (s.site site).state = .probing → (s.site site).step = 2 → (cert && meas) = false → 
    exec (.siteSpdmResponse site (.capabilities cert meas e)) s = .next (s.siteFail site scProtocol)) ∧
  (∀ (site : Nat) (s : State), (s.site site).state = .probing → (s.site site).step = 3 → 
    exec (.siteSpdmResponse site (.algorithms true)) s = .next (s.siteNext site)) ∧
  (∀ (site : Nat) (s : State), (s.site site).state = .probing → (s.site site).step = 3 → 
    exec (.siteSpdmResponse site (.algorithms false)) s = .next (s.siteFail site scAlgorithm)) ∧
  (∀ (site : Nat) (s : State), (s.site site).state = .probing → (s.site site).step = 4 → 
    exec (.siteSpdmResponse site (.digests)) s = .next (s.siteNext site)) ∧
  (∀ (site : Nat) (s : State), (s.site site).state = .probing → (s.site site).step = 4 → 
    exec (.siteSpdmResponse site (.version true)) s = .next (s.siteFail site scProtocol)) ∧
  (∀ (site : Nat) (bytes certs : Nat) (root : BitVec 384) (verifies leafSigns : Bool) (key : Nat × Nat) (s : State), (s.site site).state = .probing → (s.site site).step = 5 → s.chainAccepted bytes certs root verifies leafSigns = false → 
    exec (.siteSpdmResponse site (.certificate bytes certs root verifies leafSigns key)) s = .next (s.siteFail site scChain)) ∧
  (∀ (site : Nat) (bytes certs : Nat) (root : BitVec 384) (verifies leafSigns : Bool) (key : Nat × Nat) (s : State), (s.site site).state = .probing → (s.site site).step = 5 → s.chainAccepted bytes certs root verifies leafSigns = true → 
    exec (.siteSpdmResponse site (.certificate bytes certs root verifies leafSigns key)) s = .next ((s.setSite site { s.site site with leafKey := key }).siteNext site)) ∧
  (∀ (site : Nat) (r x h m y : List Byte) (g : Nat × Nat) (s : State), (s.site site).state = .probing → (s.site site).step = 6 → ecVerify (s.site site).leafKey g ((s.site site).signed r x h m y) = true → 
    exec (.siteSpdmResponse site (.measurements r x h m y g)) s = .next (s.sitePass site (BitVec.ofNat 384 (leNat (sha384 r))))) ∧
  (∀ (site : Nat) (r x h m y : List Byte) (g : Nat × Nat) (s : State), (s.site site).state = .probing → (s.site site).step = 6 → ecVerify (s.site site).leafKey g ((s.site site).signed r x h m y) = false → 
    exec (.siteSpdmResponse site (.measurements r x h m y g)) s = .next (s.siteFail site scSignature)) ∧
  (∀ (site : Nat) (rsp : SiteRsp) (s : State), (s.site site).state = .probing → (match rsp with | .version _ => 1 | .capabilities _ _ _ => 2 | .algorithms _ => 3 | .digests => 4 | .certificate _ _ _ _ _ _ => 5 | .measurements _ _ _ _ _ _ => 6 | .error => 0) ≠ (s.site site).step ∨ rsp = .error → 
    exec (.siteSpdmResponse site rsp) s = .next (s.siteFail site scProtocol)) ∧
  (∀ (site : Nat) (s : State), (s.site site).state ≠ .probing ∨ s.sys.now < (s.site site).due → 
    exec (.siteSpdmTimeout site) s = .next s) ∧
  (∀ (site : Nat) (s : State), (s.site site).state ≠ .admitted → (s.site site).state ≠ .probing → 
    exec (.siteLinkInactive site) s = .next (s.setSite site { s.site site with linkUp := false })) ∧
  (∀ (site : Nat) (s : State), (s.site site).state = .probing → (s.site site).due ≤ s.sys.now → (s.site site).sends < 3 → 
    exec (.siteSpdmTimeout site) s = .next (s.siteSend site)) ∧
  (∀ (site : Nat) (s : State), (s.site site).state = .probing → (s.site site).due ≤ s.sys.now → 3 ≤ (s.site site).sends → 
    exec (.siteSpdmTimeout site) s = .next (s.siteFail site scNoResponse)) ∧
  (∀ (site : Nat) (s : State), (s.site site).state = .admitted → 
    exec (.siteLinkInactive site) s = .next (s.setSite site { s.site site with linkUp := false, state := .suspended })) ∧
  (∀ (site : Nat) (s : State), (s.site site).state = .probing → 
    exec (.siteLinkInactive site) s = .next (s.setSite site { s.site site with linkUp := false, state := .empty, step := 0, was := false })) ∧
  (∀ (r : Req) (path : Option Nat) (v : BitVec 32) (t : State) (s : State), s.served r (swCmdOff path) = true → s.swAdmits r path = true → s.dropHeld r = t → swOp v = 1 → t.swOwns path (t.site (swSite v)) = false → 
    exec (.siteWindowSet r path v) s = .next (t.swResult path 3)) ∧
  (∀ (r : Req) (path : Option Nat) (v : BitVec 32) (t : State) (s : State), s.served r (swCmdOff path) = true → s.swAdmits r path = true → s.dropHeld r = t → swOp v = 2 → t.swOwns path (t.site (swSite v)) = false → 
    exec (.siteWindowClear r path v) s = .next (t.swResult path 3)) ∧
  (∀ (r : Req) (path : Option Nat) (v : BitVec 32) (t : State) (s : State), s.served r (swCmdOff path) = true → s.swAdmits r path = true → s.dropHeld r = t → swOp v = 3 → t.swOwns path (t.site (swSite v)) = false → 
    exec (.siteWindowClearKid r path v) s = .next (t.swResult path 3)) ∧
  (∀ (r : Req) (path : Option Nat) (v : BitVec 32) (t : State) (s : State), s.served r (swCmdOff path) = true → s.swAdmits r path = true → s.dropHeld r = t → swOp v = 4 → t.swOwns path (t.site (swSite v)) = false → 
    exec (.readmit r path v) s = .next (t.swResult path 3)) ∧
  (∀ (r : Req) (path : Option Nat) (v : BitVec 32) (t : State) (s : State), s.served r (swCmdOff path) = true → s.swAdmits r path = true → s.dropHeld r = t → swOp v = 1 → t.swOwns path (t.site (swSite v)) = true → (winOfRange (t.swRangeOf path) (swKid v)).okFields = false → 
    exec (.siteWindowSet r path v) s = .next (t.swResult path 5)) ∧
  (∀ (r : Req) (path : Option Nat) (v : BitVec 32) (t : State) (s : State), s.served r (swCmdOff path) = true → s.swAdmits r path = true → s.dropHeld r = t → swOp v = 1 → t.swOwns path (t.site (swSite v)) = true → (winOfRange (t.swRangeOf path) (swKid v)).okFields = true → t.swKidOk path (winOfRange (t.swRangeOf path) (swKid v)).kid = false → 
    exec (.siteWindowSet r path v) s = .next (t.swResult path 4)) ∧
  (∀ (r : Req) (path : Option Nat) (v : BitVec 32) (t : State) (s : State), s.served r (swCmdOff path) = true → s.swAdmits r path = true → s.dropHeld r = t → swOp v = 1 → t.swOwns path (t.site (swSite v)) = true → (winOfRange (t.swRangeOf path) (swKid v)).okFields = true → t.swKidOk path (winOfRange (t.swRangeOf path) (swKid v)).kid = true → 
    exec (.siteWindowSet r path v) s = .next (((t.setSite (swSite v) { t.site (swSite v) with wins := (t.site (swSite v)).wins.set {} (swWindow v) (winOfRange (t.swRangeOf path) (swKid v)) }).kidSettle).swResult path 2)) ∧
  (∀ (r : Req) (path : Option Nat) (v : BitVec 32) (t : State) (s : State), s.served r (swCmdOff path) = true → s.swAdmits r path = true → s.dropHeld r = t → swOp v = 2 → t.swOwns path (t.site (swSite v)) = true → 
    exec (.siteWindowClear r path v) s = .next (((t.setSite (swSite v) { t.site (swSite v) with wins := (t.site (swSite v)).wins.set {} (swWindow v) {} }).kidSettle).swResult path 2)) ∧
  (∀ (r : Req) (path : Option Nat) (v : BitVec 32) (t : State) (s : State), s.served r (swCmdOff path) = true → s.swAdmits r path = true → s.dropHeld r = t → swOp v = 3 → t.swOwns path (t.site (swSite v)) = true → 
    exec (.siteWindowClearKid r path v) s = .next (((t.setSite (swSite v) { t.site (swSite v) with wins := (t.site (swSite v)).wins.filter fun _ w => w.kid ≠ swKid v }).kidSettle).swResult path 2)) ∧
  (∀ (r : Req) (path : Option Nat) (v : BitVec 32) (t : State) (s : State), s.served r (swCmdOff path) = true → s.swAdmits r path = true → s.dropHeld r = t → swOp v = 4 → t.swOwns path (t.site (swSite v)) = true → path = none → (t.site (swSite v)).state ≠ .probing → 
    exec (.readmit r path v) s = .next ((t.startAdmission (swSite v)).swResult path 2)) ∧
  (∀ (r : Req) (path : Option Nat) (v : BitVec 32) (t : State) (s : State), s.served r (swCmdOff path) = true → s.swAdmits r path = true → s.dropHeld r = t → swOp v = 4 → t.swOwns path (t.site (swSite v)) = true → path = none → (t.site (swSite v)).state = .probing → 
    exec (.readmit r path v) s = .next (t.swResult path 6)) ∧
  (∀ (r : Req) (path : Option Nat) (v : BitVec 32) (t : State) (s : State), s.served r (swCmdOff path) = true → s.swAdmits r path = true → s.dropHeld r = t → swOp v = 4 → t.swOwns path (t.site (swSite v)) = true → path.isSome = true → 
    exec (.readmit r path v) s = .next (t.swResult path 5)) ∧
  (∀ (r : Req) (path : Option Nat) (v : BitVec 32) (t : State) (s : State), s.served r (swCmdOff path) = true → s.swAdmits r path = true → s.dropHeld r = t → swOp v ≠ 1 → 
    exec (.siteWindowSet r path v) s = .next t) ∧
  (∀ (r : Req) (path : Option Nat) (v : BitVec 32) (t : State) (s : State), s.served r (swCmdOff path) = true → s.swAdmits r path = true → s.dropHeld r = t → swOp v ≠ 2 → 
    exec (.siteWindowClear r path v) s = .next t) ∧
  (∀ (r : Req) (path : Option Nat) (v : BitVec 32) (t : State) (s : State), s.served r (swCmdOff path) = true → s.swAdmits r path = true → s.dropHeld r = t → swOp v ≠ 3 → 
    exec (.siteWindowClearKid r path v) s = .next t) ∧
  (∀ (r : Req) (path : Option Nat) (v : BitVec 32) (t : State) (s : State), s.served r (swCmdOff path) = true → s.swAdmits r path = true → s.dropHeld r = t → swOp v ≠ 4 → 
    exec (.readmit r path v) s = .next t)

/-- BRIDGE_HEARTBEAT_SEND each millisecond with the bridge up notes the time, sends hellos to the other positions in an
election, and from release step 5 on hellos to dies that rejoin and heartbeats to the peers; otherwise nothing.
BRIDGE_PEER_LOST of a peer silent for 20 ms, outside an election, marks it lost, the group LEAD_LOST if it led, the
composite stale, writes a record 0xA1, fails the confirmations that await it, drops its statement and loses it as member
of every slot not EMPTY; otherwise nothing. BRIDGE_HELLO_RECEIVE of a position not below 8, or the own, does nothing; in
an election it is heard and noted; of a die not present, or lost, with every slot EMPTY it opens an election and is noted,
else nothing; one that rejoins re-admits its die if its record fits, else is heard unless the die is lost. ELECTION_CLOSE
outside an election, or with hellos missing before its time, does nothing; else the hellos that agree make the group, the
lowest position leads, the rest are recorded, the election is counted and recorded; said again for no hello.
BR_CTL_RECEIVE with the bridge down or of no peer does nothing; of a peer it is heard: a demand is noted by the lead, a
confirmation and a statement are taken, a word of the lead is done, of another it is only heard. -/
def Obligations.BridgeControl : Prop :=
  (∀ (t : State) (s : State), s.bridgeUp = true → s.hst.beatAt + 1000000 ≤ s.sys.now → { s with hst := { s.hst with beatAt := s.now } } = t → s.hst.electing = false → 5 ≤ s.rst.step → 
    exec .bridgeHeartbeatSend s = .next ((t.forEach t.hst.rejoinWait fun s h => s.toPeer h bkHello (s.helloVals true)).toPeers bkHeartbeat [(t.forEach t.hst.rejoinWait fun s h => s.toPeer h bkHello (s.helloVals true)).pos])) ∧
  (∀ (pos : Nat) (u : State) (s : State), s.peers.contains pos = true → s.hst.electing = false → s.hst.heardAt.get 0 pos + 20000000 ≤ s.sys.now → (({ s with hst := { s.hst with lost := s.hst.lost ||| ((1 : BitVec 8) <<< pos), group := if pos = s.hst.leadPos then .leadLost else s.hst.group }, dom := { s.dom with compositeOk := false } } : State).record 0xA1 (0x50 + pos) [(1, 0), (1, 2 ^ pos)]) = u → 
    ∃ t, exec (.bridgePeerLost pos) s = .next t ∧ t = (((u.forEach (allSlots.filter fun i => (u.slot i).awaiting ≠ 0 && (u.slot i).unconfirmed.contains pos) State.confirmFails).dropStatement pos).forEach
        (allSlots.filter fun i => (((u.forEach (allSlots.filter fun i => (u.slot i).awaiting ≠ 0 && (u.slot i).unconfirmed.contains pos) State.confirmFails).dropStatement pos).slot i).state ≠ .empty) fun s i => s.memberLost (some i) s.fab.node pos)) ∧
  (∀ (pos : Nat) (s : State), s.peers.contains pos = false → 
    exec (.bridgePeerLost pos) s = .next s) ∧
  (∀ (h : Hello) (s : State), 8 ≤ h.pos ∨ h.pos = s.pos → 
    exec (.bridgeHelloReceive h) s = .next s) ∧
  (∀ (h : Hello) (t : State) (s : State), s.bridgeUp = true → h.pos < 8 → h.pos ≠ s.pos → h.rejoin = none → s.hst.electing = true → s.heardPos h.pos = t → 
    exec (.bridgeHelloReceive h) s = .next { t with hst := { t.hst with hellos := (h.pos, h.serial, h.pkgSize, h.lc) :: t.hst.hellos.filter fun e => e.1 ≠ h.pos } }) ∧
  (∀ (h : Hello) (t : State) (s : State), s.bridgeUp = true → h.pos < 8 → h.pos ≠ s.pos → h.rejoin = none → s.hst.electing = false → s.hst.present.getLsbD h.pos = false ∨ s.hst.lost.getLsbD h.pos = true → (allSlots.all fun i => (s.slot i).state = .empty) = true → s.openElection.heardPos h.pos = t → 
    exec (.bridgeHelloReceive h) s = .next { t with hst := { t.hst with hellos := (h.pos, h.serial, h.pkgSize, h.lc) :: t.hst.hellos.filter fun e => e.1 ≠ h.pos } }) ∧
  (∀ (h : Hello) (lead : Nat) (serial : BitVec 64) (z : _) (s : State), s.bridgeUp = true → h.pos < 8 → h.pos ≠ s.pos → h.rejoin = some (lead, serial, z) → s.rejoins h lead serial = true → 
    exec (.bridgeHelloReceive h) s = .next ((s.heardPos h.pos).readmitDie h.pos)) ∧
  (∀ (s : State), s.hst.electing = false → 
    exec .electionClose s = .next s) ∧
  (∀ (s : State), s.hst.electing = true → s.hst.hellos.length + 1 < s.positions → s.sys.now < s.hst.electBy → 
    exec .electionClose s = .next s) ∧
  (∀ (s : State), s.hst.electing = true → s.hst.hellos = [] → s.hst.electBy ≤ s.sys.now → 
    ∃ t, exec .electionClose s = .next t ∧ t.hst.electing = false ∧ t.hst.leadPos = s.pos ∧ t.hst.lost = 0 ∧ t.hst.elections = (s.hst.elections + 1) % 65536 ∧ t.hst.group = (if 1 = s.positions then .formed else .partialGroup)) ∧
  (∀ (msg : BrCtl) (s : State), s.peers.contains (brPos msg) = false → 
    exec (.brCtlReceive msg) s = .next s) ∧
  (∀ (h : Nat) (s : State), s.bridgeUp = true → s.peers.contains h = true → 
    exec (.brCtlReceive (.heartbeat h)) s = .next (s.heardPos h)) ∧
  (∀ (h w : Nat) (t : State) (s : State), s.bridgeUp = true → s.peers.contains h = true → s.heardPos h = t → t.isLead = true → 
    exec (.brCtlReceive (.demand h w)) s = .next { t with pwr := { t.pwr with demands := t.pwr.demands.set 0 h w } }) ∧
  (∀ (h i : Nat) (ok : Bool) (s : State), s.bridgeUp = true → s.peers.contains h = true → 
    exec (.brCtlReceive (.confirm h i ok)) s = .next ((s.heardPos h).takeConfirm h i ok)) ∧
  (∀ (s : State), s.bridgeUp = false ∨ s.sys.now < s.hst.beatAt + 1000000 → 
    exec .bridgeHeartbeatSend s = .next s) ∧
  (∀ (t u : State) (s : State), s.bridgeUp = true → s.hst.beatAt + 1000000 ≤ s.sys.now → { s with hst := { s.hst with beatAt := s.now } } = t → t.hst.electing = true → (t.forEach ((List.range t.positions).filter fun h => h ≠ t.pos) fun s h => s.toPeer h bkHello (s.helloVals false)) = u → 5 ≤ u.rst.step → 
    exec .bridgeHeartbeatSend s = .next ((u.forEach u.hst.rejoinWait fun s h => s.toPeer h bkHello (s.helloVals true)).toPeers bkHeartbeat [(u.forEach u.hst.rejoinWait fun s h => s.toPeer h bkHello (s.helloVals true)).pos])) ∧
  (∀ (t u : State) (s : State), s.bridgeUp = true → s.hst.beatAt + 1000000 ≤ s.sys.now → { s with hst := { s.hst with beatAt := s.now } } = t → t.hst.electing = true → (t.forEach ((List.range t.positions).filter fun h => h ≠ t.pos) fun s h => s.toPeer h bkHello (s.helloVals false)) = u → u.rst.step < 5 → 
    exec .bridgeHeartbeatSend s = .next u) ∧
  (∀ (t : State) (s : State), s.bridgeUp = true → s.hst.beatAt + 1000000 ≤ s.sys.now → { s with hst := { s.hst with beatAt := s.now } } = t → s.hst.electing = false → s.rst.step < 5 → 
    exec .bridgeHeartbeatSend s = .next t) ∧
  (∀ (pos : Nat) (s : State), s.hst.electing = true ∨ s.sys.now < s.hst.heardAt.get 0 pos + 20000000 → 
    exec (.bridgePeerLost pos) s = .next s) ∧
  (∀ (h : Hello) (lead : Nat) (serial : BitVec 64) (z : BitVec 8) (s : State), s.bridgeUp = true → h.pos < 8 → h.pos ≠ s.pos → h.rejoin = some (lead, serial, z) → s.rejoins h lead serial = false → 
    exec (.bridgeHelloReceive h) s = .next (if s.hst.lost.getLsbD h.pos = true then s else s.heardPos h.pos)) ∧
  (∀ (h : Hello) (s : State), s.bridgeUp = true → h.pos < 8 → h.pos ≠ s.pos → h.rejoin = none → s.hst.electing = false → (s.hst.present.getLsbD h.pos = true ∧ s.hst.lost.getLsbD h.pos = false) ∨ (allSlots.all fun i => (s.slot i).state = .empty) = false → 
    exec (.bridgeHelloReceive h) s = .next s) ∧
  (∀ (good : List (Nat × BitVec 64 × Nat × Nat)) (all : List (Nat × BitVec 64)) (lead : Nat × BitVec 64) (u : State) (s : State), s.hst.electing = true → s.positions ≤ s.hst.hellos.length + 1 ∨ s.hst.electBy ≤ s.sys.now → s.hst.hellos.filter (fun (e : Nat × BitVec 64 × Nat × Nat) => decide (e.2.2.1 = s.sys.pkgSize.toNat) && decide (e.2.2.2 = s.lcCode) && decide (e.1 < s.positions)) = good → (s.pos, s.lc.serial) :: good.map (fun e => (e.1, e.2.1)) = all → all.foldl (fun (a b : Nat × BitVec 64) => if b.1 < a.1 then b else a) (s.pos, s.lc.serial) = lead → (s.hst.hellos.filter fun e => !((fun (e : Nat × BitVec 64 × Nat × Nat) => decide (e.2.2.1 = s.sys.pkgSize.toNat) && decide (e.2.2.2 = s.lcCode) && decide (e.1 < s.positions))) e).foldl (fun s e => s.record 0xA1 srcStoker [(1, 1), (1, 2 ^ e.1)]) s = u → 
    exec .electionClose s = .next (({ u with
          hst := { u.hst with
            group := if all.length = u.positions then .formed else .partialGroup
            leadPos := lead.1, leadSerial := lead.2, present := BitVec.ofNat 8 ((all.map fun e => 2 ^ e.1).sum), lost := 0, hellos := good
            elections := (u.hst.elections + 1) % 2 ^ 16, electing := false
            heardAt := good.foldl (fun (t : Tbl Nat) (e : Nat × BitVec 64 × Nat × Nat) => t.set 0 e.1 u.now) u.hst.heardAt }
          dom := { u.dom with compositeOk := false } } : State).record 0xA1 srcStoker [(1, 1), (1, (BitVec.ofNat 8 ((all.map fun e => 2 ^ e.1).sum)).toNat)])) ∧
  (∀ (msg : BrCtl) (s : State), s.bridgeUp = false → 
    exec (.brCtlReceive msg) s = .next s) ∧
  (∀ (h w : Nat) (t : State) (s : State), s.bridgeUp = true → s.peers.contains h = true → s.heardPos h = t → t.isLead = false → 
    exec (.brCtlReceive (.demand h w)) s = .next t) ∧
  (∀ (x : MemberStmt) (sites : BitVec 16) (s : State), s.bridgeUp = true → s.peers.contains x.pos = true → 
    exec (.brCtlReceive (.statement x sites)) s = .next ((s.heardPos x.pos).takeStatement x sites.toNat)) ∧
  (∀ (msg : BrCtl) (t : State) (s : State), s.bridgeUp = true → s.peers.contains (brPos msg) = true → (match msg with | .heartbeat _ => false | .demand _ _ => false | .confirm _ _ _ => false | .statement _ _ => false | _ => true) = true → s.heardPos (brPos msg) = t → 
    exec (.brCtlReceive msg) s = .next (if brPos msg = t.hst.leadPos then t.memberDoes msg else t))

/-- Served writes, t without the held low half. ASSIGN by the kernel driver wakes the engine first; of a page not FREE the
result is 3, for a slice not ACTIVE 4, else the page is EMPTY and the slice's, and 2. UNASSIGN of a FREE page is 2, of
another 1 (PENDING) and the page leaves once nothing uses it. With a result 1 standing neither does anything more. By the
owning slice: LOAD of a FREE page is 5, for a bound slice 4, with no entropy 3, else the staged key is loaded and it is 2;
ZERO of a FREE page is 5, of another zeroes it with 2. CE_CTL of a management session sets DUMMY unless locked, and LOCK.
CE_PARAM sets AAD_LEN, and INV_LOG2 from 8 to 32. -/
def Obligations.CipherRegisters : Prop :=
  (∀ (r : Req) (page : Nat) (w t : State) (s : State), s.wakeCipher r page = w → w.served r (cePageAt page + 0x808) = true → ceKernel r page = true → w.dropHeld r = t → (t.cePage page).pgRes ≠ 1 → (t.cePage page).state ≠ .free → 
    exec (.ceAssign r page) s = .next (t.setCePage page { (t.cePage page) with pgRes := 3 })) ∧
  (∀ (r : Req) (page : Nat) (w t : State) (s : State), s.wakeCipher r page = w → w.served r (cePageAt page + 0x808) = true → ceKernel r page = true → w.dropHeld r = t → (t.cePage page).pgRes ≠ 1 → (t.cePage page).state = .free → (t.slice (t.cePage page).pgCfg).state ≠ .active → 
    exec (.ceAssign r page) s = .next (t.setCePage page { (t.cePage page) with pgRes := 4 })) ∧
  (∀ (r : Req) (page : Nat) (w t : State) (s : State), s.wakeCipher r page = w → w.served r (cePageAt page + 0x808) = true → ceKernel r page = true → w.dropHeld r = t → (t.cePage page).pgRes ≠ 1 → (t.cePage page).state = .free → (t.slice (t.cePage page).pgCfg).state = .active → 
    exec (.ceAssign r page) s = .next (t.setCePage page { (t.cePage page) with state := .empty, slice := (t.cePage page).pgCfg, pgRes := 2 })) ∧
  (∀ (r : Req) (page : Nat) (t : State) (s : State), s.served r (cePageAt page + 0x808) = true → ceKernel r page = true → s.dropHeld r = t → (t.cePage page).pgRes ≠ 1 → (t.cePage page).state = .free → 
    exec (.ceUnassign r page) s = .next (t.setCePage page { (t.cePage page) with pgRes := 2 })) ∧
  (∀ (r : Req) (page : Nat) (t : State) (s : State), s.served r (cePageAt page + 0x808) = true → ceKernel r page = true → s.dropHeld r = t → (t.cePage page).pgRes ≠ 1 → (t.cePage page).state ≠ .free → 
    exec (.ceUnassign r page) s = .next ((t.setCePage page { (t.cePage page) with leaving := true, pgRes := 1 }).settlePages)) ∧
  (∀ (r : Req) (page : Nat) (t : State) (s : State), s.served r (cePageAt page + 0x40) = true → s.ceOwner r page = true → s.dropHeld r = t → (t.cePage page).state = .free → 
    exec (.ceLoad r page) s = .next (t.modCePage page fun p => { p with kres := 5 })) ∧
  (∀ (r : Req) (page : Nat) (t : State) (s : State), s.served r (cePageAt page + 0x40) = true → s.ceOwner r page = true → s.dropHeld r = t → (t.cePage page).state ≠ .free → (t.slice (t.cePage page).slice).bound = true → 
    exec (.ceLoad r page) s = .next (t.modCePage page fun p => { p with kres := 4 })) ∧
  (∀ (r : Req) (page : Nat) (t : State) (s : State), s.served r (cePageAt page + 0x40) = true → s.ceOwner r page = true → s.dropHeld r = t → (t.cePage page).state ≠ .free → (t.slice (t.cePage page).slice).bound = false → t.fbx.trngFailed = true → 
    exec (.ceLoad r page) s = .next (t.modCePage page fun p => { p with kres := 3 })) ∧
  (∀ (r : Req) (page : Nat) (t : State) (s : State), s.served r (cePageAt page + 0x40) = true → s.ceOwner r page = true → s.dropHeld r = t → (t.cePage page).state ≠ .free → (t.slice (t.cePage page).slice).bound = false → t.fbx.trngFailed = false → 
    exec (.ceLoad r page) s = .next ((t.loadPage page (t.cePage page).staged).modCePage page fun p => { p with kres := 2 })) ∧
  (∀ (r : Req) (page : Nat) (t : State) (s : State), s.served r (cePageAt page + 0x40) = true → s.ceOwner r page = true → s.dropHeld r = t → (t.cePage page).state = .free → 
    exec (.ceZero r page) s = .next (t.setCePage page { (t.cePage page) with kres := 5 })) ∧
  (∀ (r : Req) (page : Nat) (t : State) (s : State), s.served r (cePageAt page + 0x40) = true → s.ceOwner r page = true → s.dropHeld r = t → (t.cePage page).state ≠ .free → 
    exec (.ceZero r page) s = .next (t.setCePage page { (t.cePage page).zeroed with kres := 2 })) ∧
  (∀ (r : Req) (v : BitVec 32) (t : State) (s : State), s.served r 0x400F00 = true → r.mgmt = true → s.dropHeld r = t → 
    exec (.ceCtlWrite r v) s = .next { t with ce := { t.ce with dummy := if t.ce.lock then t.ce.dummy else v.extractLsb' 1 2, lock := t.ce.lock || v.getLsbD 0 } }) ∧
  (∀ (r : Req) (page : Nat) (v : BitVec 32) (t : State) (s : State), s.served r (cePageAt page + 8) = true → s.ceOwner r page = true → s.dropHeld r = t → 
    exec (.ceParamWrite r page v) s = .next (t.setCePage page { (t.cePage page) with aadLen := bits v.toNat 7 0, invLog2 := if 8 ≤ bits v.toNat 13 8 && bits v.toNat 13 8 ≤ 32 then bits v.toNat 13 8 else (t.cePage page).invLog2 })) ∧
  (∀ (r : Req) (page : Nat) (w t : State) (s : State), s.wakeCipher r page = w → w.served r (cePageAt page + 0x808) = true → ceKernel r page = true → w.dropHeld r = t → (t.cePage page).pgRes = 1 → 
    exec (.ceAssign r page) s = .next (t.setCePage page (t.cePage page))) ∧
  (∀ (r : Req) (page : Nat) (t : State) (s : State), s.served r (cePageAt page + 0x808) = true → ceKernel r page = true → s.dropHeld r = t → (t.cePage page).pgRes = 1 → 
    exec (.ceUnassign r page) s = .next t)

/-- REGISTER_LOW_HALF_READ: unserved, a host request answers all ones; of no register it is recorded and answers 0; of a
management-only register, by a host request, 0; of a low half its value's low half, the high half captured for the
requester; of a whole register its value; of a high half what was captured, or else the present one.
REGISTER_LOW_HALF_WRITE of a low half holds it. REGISTER_WRITE unserved does nothing, of no register it is recorded, of a
high half it writes both halves, the low one as held or present, and of a management-only register by a host request it
only drops the held half. REG_ACCESS reading does what the read of its width does; writing to no register it is recorded,
unserved nothing. REC_DATA_READ of a host request answers 0, or all ones before the host port is up; of a management
session where it is served it captures the record and answers word 0. -/
def Obligations.RegisterAccesses : Prop :=
  (∀ (r : Req) (off : Nat) (s : State), s.unserved r off = true → r.mgmt = false → 
    exec (.registerLowHalfRead r off) s = .next (s.emit (.regRead (BitVec.allOnes 64)))) ∧
  (∀ (r : Req) (off : Nat)  (s : State), s.unserved r off = false → mailboxOk off 32 = false → s.reaches off = true → s.regOf r off 32 = none → 
    exec (.registerLowHalfRead r off) s = .next ((s.regBad r off 32).emit (.regRead 0))) ∧
  (∀ (r : Req) (off : Nat) (g : Reg) (p : Part) (s : State), s.unserved r off = false → mailboxOk off 32 = false → s.reaches off = true → s.regOf r off 32 = some (g, p) → g.ok = true → (g.mgmt && !r.mgmt) = true → 
    exec (.registerLowHalfRead r off) s = .next (s.emit (.regRead 0))) ∧
  (∀ (r : Req) (off : Nat) (g : Reg) (v : BitVec 64) (u : State) (s : State), s.unserved r off = false → mailboxOk off 32 = false → s.reaches off = true → s.regOf r off 32 = some (g, .low) → g.ok = true → (g.mgmt && !r.mgmt) = false → s.readVal r off g = (v, u) → 
    exec (.registerLowHalfRead r off) s = .next ((u.capture r (off + 4) (BitVec.ofNat 64 (v.toNat / 2 ^ 32))).emit (.regRead (BitVec.ofNat 64 (v.toNat % 2 ^ 32))))) ∧
  (∀ (r : Req) (off : Nat) (g : Reg) (v : BitVec 64) (u : State) (s : State), s.unserved r off = false → mailboxOk off 32 = false → s.reaches off = true → s.regOf r off 32 = some (g, .whole) → g.ok = true → (g.mgmt && !r.mgmt) = false → s.readVal r off g = (v, u) → 
    exec (.registerLowHalfRead r off) s = .next (u.emit (.regRead v))) ∧
  (∀ (r : Req) (off : Nat) (g : Reg) (s : State), s.unserved r off = false → mailboxOk off 32 = false → s.reaches off = true → s.regOf r off 32 = some (g, .high) → g.ok = true → (g.mgmt && !r.mgmt) = false → 
    exec (.registerLowHalfRead r off) s = .next (s.emit (.regRead ((s.captured r off).getD (BitVec.ofNat 64 (g.val / 2 ^ 32)))))) ∧
  (∀ (r : Req) (off : Nat) (v : BitVec 32) (g : Reg) (s : State), s.regOf r off 32 = some (g, .low) → s.unserved r off = false → mailboxOk off 32 = false → s.reaches off = true → g.ok = true → (g.mgmt && !r.mgmt) = false → 
    exec (.registerLowHalfWrite r off v) s = .next (s.holdLow r off v)) ∧
  (∀ (r : Req) (off width : Nat) (v : BitVec 64) (s : State), s.unserved r off = true → 
    exec (.registerWrite r off width v) s = .next s) ∧
  (∀ (r : Req) (off width : Nat) (v : BitVec 64) (s : State), s.unserved r off = false → mailboxOk off width = false → s.regOf r off width = none → 
    exec (.registerWrite r off width v) s = .next (s.regWrite r off width false id)) ∧
  (∀ (r : Req) (off : Nat) (v : BitVec 64) (g : Reg) (s : State), s.unserved r off = false → mailboxOk off 32 = false → s.reaches off = true → s.regOf r off 32 = some (g, .high) → g.ok = true → (g.mgmt && !r.mgmt) = false → 
    exec (.registerWrite r off 32 v) s = .next (s.write64 r (off - 4) (BitVec.ofNat 64 (((s.heldLow r (off - 4)).map BitVec.toNat).getD (s.presentLow (off - 4) g) + 2 ^ 32 * low v 32)))) ∧
  (∀ (r : Req) (off width : Nat) (v : BitVec 64) (g : Reg) (p : Part) (s : State), s.unserved r off = false → mailboxOk off width = false → s.reaches off = true → s.regOf r off width = some (g, p) → g.ok = true → g.mgmt = true → r.mgmt = false → 
    exec (.registerWrite r off width v) s = .next (s.dropHeld r)) ∧
  (∀ (r : Req) (off width : Nat) (s : State), 
    exec (.regAccess r off width false) s = .next (s.readReg r off width)) ∧
  (∀ (r : Req) (off width : Nat) (s : State), s.unserved r off = false → mailboxOk off width = false → s.regOf r off width = none → 
    exec (.regAccess r off width true) s = .next (s.regWrite r off width false id)) ∧
  (∀ (r : Req) (off width : Nat) (s : State), s.unserved r off = true → 
    exec (.regAccess r off width true) s = .next s) ∧
  (∀ (r : Req) (s : State), r.mgmt = false → 
    exec (.recDataRead r) s = .next (s.emit (.regRead (if s.hostUp then 0 else BitVec.allOnes 64)))) ∧
  (∀ (r : Req) (s : State), r.mgmt = true → s.mgmtServes 0x480020 = true → 
    exec (.recDataRead r) s = .next ((s.recCapture r).emit (.regRead (s.recSelected.getD 0 0))))

/-- Served writes, t without the held low half: TEL_S_CTL of the slice's page sets EN, and empties its counters when EN
rises. TEL_S_CFG of a request without a PASID sets WALL_SHARE only of a FREE slice and while the sum of all is at most
192, and WATCH_MAX up to 16. TEL_S_QVAL read over a served path: if the page admits it and the block is up, the value of
readQval; if not it is recorded and answers 0; of the host before the host port is up all ones; of the management endpoint
where it is not served nothing. THROTTLE_INTERVAL before 1 ms nothing; then it restarts, raises the throttle light and
counter if something was throttled, and ends the interval of every slice. SUPPRESSED of a code with drops, 1 s after the
first, writes its record; without drops, or before, nothing. PERM_PROGRAM takes the oldest queued record into the next
permanent slot, as an empty slot if interrupted; with 256 used it drops the queue; with none queued nothing. REC_CLEAR
over a session that is heard empties the circulating area, writes its record with the count and the first and last
sequence numbers (zeros with none), and answers OK. REC_RL of a management session sets RATE and BURST where not zero, the
tokens returned so far standing, and drops buckets back at their start; said again for no bucket. -/
def Obligations.TelemetryAndRecorder : Prop :=
  (∀ (r : Req) (slice : Nat) (v : BitVec 32) (t : State) (s : State), s.served r (telPage slice + 8) = true → s.pageWrite slice r = true → s.dropHeld r = t → 
    exec (.telSCtlWrite r slice v) s = .next (t.modSlice slice fun l => { l with telEn := v.getLsbD 0, ctrs := if v.getLsbD 0 && !l.telEn then {} else l.ctrs })) ∧
  (∀ (r : Req) (slice : Nat) (v : BitVec 32) (t : State) (s : State), s.served r (telPage slice) = true → (decide (slice < 2048) && decide (r.pasid = none)) = true → s.dropHeld r = t → 
    exec (.telSCfgWrite r slice v) s = .next (t.modSlice slice fun l => { l with wallShare := if l.state = .free && t.otherShares slice + bits v.toNat 7 0 ≤ 192 then bits v.toNat 7 0 else l.wallShare, watchMax := if bits v.toNat 12 8 ≤ 16 then bits v.toNat 12 8 else l.watchMax })) ∧
  (∀ (r : Req) (slice : Nat) (s : State), r.mgmt = true ∨ s.hostUp = true → r.mgmt = false ∨ s.mgmtServes (telPage slice + 0x18) = true → (s.pageRead slice r && s.blockUp ⟨5, some 4, .cclk⟩) = true → 
    exec (.telSQvalRead r slice) s = .next ((s.readQval r slice).2.emit (.regRead (s.readQval r slice).1))) ∧
  (∀ (r : Req) (slice : Nat) (s : State), r.mgmt = true ∨ s.hostUp = true → r.mgmt = false ∨ s.mgmtServes (telPage slice + 0x18) = true → (s.pageRead slice r && s.blockUp ⟨5, some 4, .cclk⟩) = false → 
    exec (.telSQvalRead r slice) s = .next ((s.regBad r (telPage slice + 0x18) 64).emit (.regRead 0))) ∧
  (∀ (s : State), s.tel.intervalAt + 1000000 ≤ s.sys.now → s.tel.throttled = true → 
    exec .throttleInterval s = .next (({ (s.light 7 1).priv 0x301 1 with tel := { ((s.light 7 1).priv 0x301 1).tel with throttled := false, intervalAt := s.sys.now } } : State).forEach s.qm.slices.keys State.endInterval)) ∧
  (∀ (s : State), s.tel.intervalAt + 1000000 ≤ s.sys.now → s.tel.throttled = false → 
    exec .throttleInterval s = .next (({ s with tel := { s.tel with throttled := false, intervalAt := s.sys.now } } : State).forEach s.qm.slices.keys State.endInterval)) ∧
  (∀ (code : Nat) (s : State), (s.bucket code).drops ≠ 0 → (s.bucket code).firstAt + 1000000000 ≤ s.sys.now → 
    exec (.suppressed code) s = .next (s.flushDrops code)) ∧
  (∀ (code : Nat) (s : State), (s.bucket code).drops = 0 → 
    exec (.suppressed code) s = .next s) ∧
  (∀ (ok : Bool) (x : Rec) (l : List Rec) (s : State), s.rcd.permQ = x :: l → s.rcd.perm.length < 256 → 
    exec (.permProgram ok) s = .next { s with rcd := { s.rcd with permQ := l, perm := s.rcd.perm ++ [if ok then some x else none] } }) ∧
  (∀ (ok : Bool) (x : Rec) (l : List Rec) (s : State), s.rcd.permQ = x :: l → 256 ≤ s.rcd.perm.length → 
    exec (.permProgram ok) s = .next { s with rcd := { s.rcd with permQ := [] } }) ∧
  (∀ (ok : Bool) (s : State), s.rcd.permQ = [] → 
    exec (.permProgram ok) s = .next s) ∧
  (∀ (m : Mgmt) (s : State), s.hears m true = true → s.rcd.valid ≠ 0 → 
    exec (.recClear m) s = .next ((({ s with rcd := { s.rcd with circ := {}, valid := 0 } } : State).record 0x01 srcStoker [(4, s.rcd.valid), (4, (s.rcd.nextSeq - BitVec.ofNat 32 s.rcd.valid).toNat), (4, (s.rcd.nextSeq - 1).toNat), (4, leafPrefix m)]).answer .ok)) ∧
  (∀ (m : Mgmt) (s : State), s.hears m true = true → s.rcd.valid = 0 → 
    exec (.recClear m) s = .next ((({ s with rcd := { s.rcd with circ := {}, valid := 0 } } : State).record 0x01 srcStoker [(4, 0), (4, 0), (4, 0), (4, leafPrefix m)]).answer .ok)) ∧
  (∀ (r : Req) (v : BitVec 32) (t : State) (s : State), s.served r 0x480008 = true → r.mgmt = true → s.dropHeld r = t → bits v.toNat 7 0 ≠ 0 → bits v.toNat 15 8 ≠ 0 → t.rcd.buckets.cells = [] → 
    exec (.recRlWrite r v) s = .next { t with rcd := { t.rcd with rate := bits v.toNat 7 0, burst := bits v.toNat 15 8, buckets := {} } }) ∧
  (∀ (r : Req) (v : BitVec 32) (t : State) (s : State), s.served r 0x480008 = true → r.mgmt = true → s.dropHeld r = t → bits v.toNat 7 0 = 0 → bits v.toNat 15 8 = 0 → t.rcd.buckets.cells = [] → 
    exec (.recRlWrite r v) s = .next { t with rcd := { t.rcd with buckets := {} } }) ∧
  (∀ (r : Req) (slice : Nat) (s : State), r.mgmt = false → s.hostUp = false → 
    exec (.telSQvalRead r slice) s = .next (s.emit (.regRead (BitVec.allOnes 64)))) ∧
  (∀ (r : Req) (slice : Nat) (s : State), r.mgmt = true → s.mgmtServes (telPage slice + 0x18) = false → 
    exec (.telSQvalRead r slice) s = .next s) ∧
  (∀ (s : State), s.sys.now < s.tel.intervalAt + 1000000 → 
    exec .throttleInterval s = .next s) ∧
  (∀ (code : Nat) (s : State), s.sys.now < (s.bucket code).firstAt + 1000000000 → 
    exec (.suppressed code) s = .next s) ∧
  (∀ (r : Req) (v : BitVec 32) (bs : Tbl Bucket) (t : State) (s : State), s.served r 0x480008 = true → r.mgmt = true → s.dropHeld r = t → Tbl.mk (t.rcd.buckets.cells.map fun (e : Nat × Bucket) => (e.1, { e.2.refill t.rcd.rate t.now with base := if (e.2.refill t.rcd.rate t.now).taken = 0 then 0 else t.now, returned := 0 })) = bs → 
    exec (.recRlWrite r v) s = .next { t with rcd := { t.rcd with rate := if bits v.toNat 7 0 = 0 then t.rcd.rate else bits v.toNat 7 0, burst := if bits v.toNat 15 8 = 0 then t.rcd.burst else bits v.toNat 15 8, buckets := bs.filter fun _ b => b ≠ {} } })

/-- LC_TRANS, the write served, in management form, the session's held low half dropped: nothing while a transition's
result is 1; 3 where the table has no such row; 4 where the session does not meet it; 6 to FIELDED with no valid anchor.
With nothing else against it, from code 1 to 2 it starts, result 1; to 5 from another code it also tears down every slot
not EMPTY. LC_STEP: nothing where no step may run. One that fails counts an attempt, and with two behind it, short of
scrapping, the transition stops; one that is good has its effect, its mark and its step and a record 0x20, and what
follows the step follows. SET (op 1): 3 for a session that may not, 4 outside code 2, 5 into a slot not empty, else the
slot holds the session's root, 2. REVOKE (op 2): 3 for one that may not, 4 outside codes 2 and 3, 6 of the last valid
anchor, else, not its own root, wiped, 2. CHALLENGE: 4 for another purpose; else a fresh nonce's challenge is live, 2.
OPEN: 5 in code 5 or during a transition; 3 without the role; in codes 1 and 2 it tears down every slot and is opening,
result 1. Its completion, step 2 on, not fencing, the slots quiet, derives the firmware identity, opens, 2, and a record
0x21; nothing where not opening. LC_TRANS to 4 without a good response: challenge used, 7. After a fault, not to 3, 4 or
5: 8; pending, opening or resetting, not to 3 or 4: 5. A scrapping step failing with two attempts behind it is passed. SET
of another op, REVOKE of another op: nothing. REVOKE of its own root: 3. CHALLENGE while a result is 1 or another op:
nothing; after a TRNG failure: 6. OPEN while 1: nothing; in codes 3 and 4 it opens likewise with a good response, else 4,
the challenge used in both. No completion below step 2, while fencing or the slots not quiet. -/
def Obligations.LifeCycleAnchorsAndDebug : Prop :=
  (∀ (r : Req) (m : Mgmt) (v : BitVec 32) (t : State) (s : State), s.served r 0x4A0008 = true → r.mgmt = true → s.dropHeld r = t → t.lc.tres = 1 → 
    exec (.lcTransitionRequest r m v) s = .next t) ∧
  (∀ (r : Req) (m : Mgmt) (v : BitVec 32) (t : State) (s : State), s.served r 0x4A0008 = true → r.mgmt = true → s.dropHeld r = t → t.lc.tres ≠ 1 → lcRow t.lcCode (bits v.toNat 2 0) = false → 
    exec (.lcTransitionRequest r m v) s = .next (t.setTres 3)) ∧
  (∀ (r : Req) (m : Mgmt) (v : BitVec 32) (t : State) (s : State), s.served r 0x4A0008 = true → r.mgmt = true → s.dropHeld r = t → t.lc.tres ≠ 1 → lcRow t.lcCode (bits v.toNat 2 0) = true → t.lcAuth m (bits v.toNat 2 0) = false → 
    exec (.lcTransitionRequest r m v) s = .next (t.setTres 4)) ∧
  (∀ (r : Req) (m : Mgmt) (v : BitVec 32) (t : State) (s : State), s.served r 0x4A0008 = true → r.mgmt = true → s.dropHeld r = t → t.lc.tres ≠ 1 → lcRow t.lcCode (bits v.toNat 2 0) = true → t.lcAuth m (bits v.toNat 2 0) = true → bits v.toNat 2 0 = 2 → t.lc.fault = false → t.lc.pending = false → t.lc.opening = false → t.resetting = false → t.lcCode = 1 → 
    exec (.lcTransitionRequest r m v) s = .next (((t.startTransition 2).setTres 1))) ∧
  (∀ (r : Req) (m : Mgmt) (v : BitVec 32) (t : State) (s : State), s.served r 0x4A0008 = true → r.mgmt = true → s.dropHeld r = t → t.lc.tres ≠ 1 → lcRow t.lcCode (bits v.toNat 2 0) = true → t.lcAuth m (bits v.toNat 2 0) = true → bits v.toNat 2 0 = 5 → t.lc.pending = false → t.lc.opening = false → t.resetting = false → t.lcCode ≠ 1 → 
    exec (.lcTransitionRequest r m v) s = .next (((t.startTransition 5).setTres 1).forEach (allSlots.filter fun i => (((t.startTransition 5).setTres 1).slot i).state ≠ .empty) fun s i => s.enterTeardown i .lifeCycle)) ∧
  (∀ (ok : Bool) (s : State), s.lcMayStep = false → 
    exec (.lcStep ok) s = .next s) ∧
  (∀ (u : State) (s : State), s.lcMayStep = true → { s with lc := { s.lc with begun := true, records := if s.lc.records.contains s.lc.target then s.lc.records else s.lc.target :: s.lc.records } } = u → s.lc.target ≠ 5 → 2 ≤ u.lc.attempts → 
    exec (.lcStep false) s = .next u.lcStops) ∧
  (∀ (u : State) (s : State), s.lcMayStep = true → { s with lc := { s.lc with begun := true, records := if s.lc.records.contains s.lc.target then s.lc.records else s.lc.target :: s.lc.records } } = u → u.lc.attempts < 2 → 
    exec (.lcStep false) s = .next { u with lc := { u.lc with attempts := u.lc.attempts + 1 } }) ∧
  (∀ (u w : State) (s : State), s.lcMayStep = true → { s with lc := { s.lc with begun := true, records := if s.lc.records.contains s.lc.target then s.lc.records else s.lc.target :: s.lc.records } } = u → u.programStep s.lc.target s.lc.next = w → 
    exec (.lcStep true) s = .next ((({ w with lc := { w.lc with marks := w.lc.marks.set 0 s.lc.target (w.lc.marks.get 0 s.lc.target ||| 2 ^ (s.lc.next - 1)), step := s.lc.next } } : State).record 0x20 srcStoker [(1, s.lcCode), (1, s.lc.target), (1, s.lc.next), (1, 1)]).afterStep s.lc.target s.lc.next)) ∧
  (∀ (r : Req) (m : Mgmt) (v : BitVec 32) (t : State) (s : State), s.served r 0x4A0010 = true → r.mgmt = true → s.dropHeld r = t → acmdOp v = 1 → (if t.validAnchors = 0 then m.secure else t.chainOk m) = false → 
    exec (.anchorSet r m v) s = .next (t.setAres 3)) ∧
  (∀ (r : Req) (m : Mgmt) (v : BitVec 32) (t : State) (s : State), s.served r 0x4A0010 = true → r.mgmt = true → s.dropHeld r = t → acmdOp v = 1 → (if t.validAnchors = 0 then m.secure else t.chainOk m) = true → t.lcCode ≠ 2 → 
    exec (.anchorSet r m v) s = .next (t.setAres 4)) ∧
  (∀ (r : Req) (m : Mgmt) (v : BitVec 32) (t : State) (s : State), s.served r 0x4A0010 = true → r.mgmt = true → s.dropHeld r = t → acmdOp v = 1 → (if t.validAnchors = 0 then m.secure else t.chainOk m) = true → t.lcCode = 2 → (t.lc.anchors.getD (acmdSlot v) .empty) ≠ .empty → 
    exec (.anchorSet r m v) s = .next (t.setAres 5)) ∧
  (∀ (r : Req) (m : Mgmt) (v : BitVec 32) (t : State) (s : State), s.served r 0x4A0010 = true → r.mgmt = true → s.dropHeld r = t → acmdOp v = 1 → (if t.validAnchors = 0 then m.secure else t.chainOk m) = true → t.lcCode = 2 → (t.lc.anchors.getD (acmdSlot v) .empty) = .empty → 
    exec (.anchorSet r m v) s = .next ((t.setAnchor (acmdSlot v) (.valid m.root)).setAres 2)) ∧
  (∀ (r : Req) (m : Mgmt) (v : BitVec 32) (t : State) (s : State), s.served r 0x4A0010 = true → r.mgmt = true → s.dropHeld r = t → acmdOp v = 2 → t.operatorOk m = false → 
    exec (.anchorRevoke r m v) s = .next (t.setAres 3)) ∧
  (∀ (r : Req) (m : Mgmt) (v : BitVec 32) (t : State) (s : State), s.served r 0x4A0010 = true → r.mgmt = true → s.dropHeld r = t → acmdOp v = 2 → t.operatorOk m = true → t.lcCode ≠ 2 → t.lcCode ≠ 3 → 
    exec (.anchorRevoke r m v) s = .next (t.setAres 4)) ∧
  (∀ (r : Req) (m : Mgmt) (v : BitVec 32) (t : State) (s : State), s.served r 0x4A0010 = true → r.mgmt = true → s.dropHeld r = t → acmdOp v = 2 → t.operatorOk m = true → t.lcCode = 2 ∨ t.lcCode = 3 → (t.lc.anchors.getD (acmdSlot v) .empty).isValid = true → t.validAnchors = 1 → 
    exec (.anchorRevoke r m v) s = .next (t.setAres 6)) ∧
  (∀ (r : Req) (m : Mgmt) (v : BitVec 32) (t : State) (s : State), s.served r 0x4A0010 = true → r.mgmt = true → s.dropHeld r = t → acmdOp v = 2 → t.operatorOk m = true → t.lcCode = 2 ∨ t.lcCode = 3 → t.validAnchors ≠ 1 → (t.lc.anchors.getD (acmdSlot v) .empty) ≠ .valid m.root → 
    exec (.anchorRevoke r m v) s = .next ((t.setAnchor (acmdSlot v) .wiped).setAres 2)) ∧
  (∀ (r : Req) (m : Mgmt) (v : BitVec 32) (t : State) (s : State), s.served r 0x4A0300 = true → r.mgmt = true → s.dropHeld r = t → t.lc.dres ≠ 1 → bits v.toNat 1 0 = 1 → bits v.toNat 3 2 ≠ puDebug → bits v.toNat 3 2 ≠ puReturn → 
    exec (.debugChallenge r m v) s = .next (t.setDres 4)) ∧
  (∀ (r : Req) (m : Mgmt) (v : BitVec 32) (n : BitVec 256) (u : State) (t : State) (s : State), s.served r 0x4A0300 = true → r.mgmt = true → s.dropHeld r = t → t.lc.dres ≠ 1 → bits v.toNat 1 0 = 1 → bits v.toNat 3 2 = puDebug ∨ bits v.toNat 3 2 = puReturn → t.fbx.trngFailed = false → t.nonce = (n, u) → 
    exec (.debugChallenge r m v) s = .next (({ u with lc := { u.lc with chal := BitVec.ofNat 512 (leNat (u.challengeBytes (bits v.toNat 3 2) n)), chalLive := true } } : State).setDres 2)) ∧
  (∀ (r : Req) (m : Mgmt) (t : State) (s : State), s.served r 0x4A0300 = true → r.mgmt = true → s.dropHeld r = t → t.lc.dres ≠ 1 → t.lcCode = 5 ∨ t.lc.pending = true ∨ t.lc.begun = true → 
    exec (.debugOpen r m) s = .next (t.setDres 5)) ∧
  (∀ (r : Req) (m : Mgmt) (t : State) (s : State), s.served r 0x4A0300 = true → r.mgmt = true → s.dropHeld r = t → t.lc.dres ≠ 1 → t.lcCode ≠ 5 → t.lc.pending = false → t.lc.begun = false → t.debugAuth m = false → 
    exec (.debugOpen r m) s = .next (t.setDres 3)) ∧
  (∀ (r : Req) (m : Mgmt) (u : State) (t : State) (s : State), s.served r 0x4A0300 = true → r.mgmt = true → s.dropHeld r = t → t.lc.dres ≠ 1 → t.lcCode = 1 ∨ t.lcCode = 2 → t.lc.pending = false → t.lc.begun = false → t.debugAuth m = true → t.teardownAll alDebugOpen .debugOpen = u → 
    exec (.debugOpen r m) s = .next (({ u with lc := { u.lc with opening := true, retired := (allSlots.filter fun i => (t.slot i).state ≠ .empty).length } } : State).setDres 1)) ∧
  (∀ (u : State) (s : State), s.lc.opening = true → 2 ≤ s.rst.step → s.rst.phase ≠ .fencing → s.slotsQuiet = true → s.deriveFw 1 = u → 
    exec .debugOpenComplete s = .next (({ u with lc := { u.lc with debugOpen := true, opening := false, dres := 2 } } : State).record 0x21 srcStoker [(1, 1), (1, u.lc.retired)])) ∧
  (∀ (s : State), s.lc.opening = false → 
    exec .debugOpenComplete s = .next s) ∧
  (∀ (r : Req) (m : Mgmt) (v : BitVec 32) (t : State) (s : State), s.served r 0x4A0008 = true → r.mgmt = true → s.dropHeld r = t → t.lc.tres ≠ 1 → lcRow t.lcCode (bits v.toNat 2 0) = true → t.lcAuth m (bits v.toNat 2 0) = true → bits v.toNat 2 0 = 4 → t.responseOk puReturn = false → 
    exec (.lcTransitionRequest r m v) s = .next (t.useChallenge.setTres 7)) ∧
  (∀ (r : Req) (m : Mgmt) (v : BitVec 32) (t : State) (s : State), s.served r 0x4A0008 = true → r.mgmt = true → s.dropHeld r = t → t.lc.tres ≠ 1 → lcRow t.lcCode (bits v.toNat 2 0) = true → t.lcAuth m (bits v.toNat 2 0) = true → bits v.toNat 2 0 ≠ 3 → bits v.toNat 2 0 ≠ 4 → bits v.toNat 2 0 ≠ 5 → t.lc.fault = true → 
    exec (.lcTransitionRequest r m v) s = .next (t.setTres 8)) ∧
  (∀ (r : Req) (m : Mgmt) (v : BitVec 32) (t : State) (s : State), s.served r 0x4A0008 = true → r.mgmt = true → s.dropHeld r = t → t.lc.tres ≠ 1 → lcRow t.lcCode (bits v.toNat 2 0) = true → t.lcAuth m (bits v.toNat 2 0) = true → bits v.toNat 2 0 ≠ 3 → bits v.toNat 2 0 ≠ 4 → t.lc.fault = false → t.lc.pending = true ∨ t.lc.opening = true ∨ t.resetting = true → 
    exec (.lcTransitionRequest r m v) s = .next (t.setTres 5)) ∧
  (∀ (u : State) (s : State), s.lcMayStep = true → { s with lc := { s.lc with begun := true, records := if s.lc.records.contains s.lc.target then s.lc.records else s.lc.target :: s.lc.records } } = u → s.lc.target = 5 → 2 ≤ u.lc.attempts → 
    exec (.lcStep false) s = .next ((u.afterStep s.lc.target s.lc.next))) ∧
  (∀ (r : Req) (m : Mgmt) (v : BitVec 32) (t : State) (s : State), s.served r 0x4A0010 = true → r.mgmt = true → s.dropHeld r = t → acmdOp v ≠ 1 → 
    exec (.anchorSet r m v) s = .next t) ∧
  (∀ (r : Req) (m : Mgmt) (v : BitVec 32) (t : State) (s : State), s.served r 0x4A0010 = true → r.mgmt = true → s.dropHeld r = t → acmdOp v ≠ 2 → 
    exec (.anchorRevoke r m v) s = .next t) ∧
  (∀ (r : Req) (m : Mgmt) (v : BitVec 32) (t : State) (s : State), s.served r 0x4A0010 = true → r.mgmt = true → s.dropHeld r = t → acmdOp v = 2 → t.operatorOk m = true → t.lcCode = 2 ∨ t.lcCode = 3 → t.validAnchors ≠ 1 → (t.lc.anchors.getD (acmdSlot v) .empty) = .valid m.root → 
    exec (.anchorRevoke r m v) s = .next (t.setAres 3)) ∧
  (∀ (r : Req) (m : Mgmt) (v : BitVec 32) (t : State) (s : State), s.served r 0x4A0300 = true → r.mgmt = true → s.dropHeld r = t → t.lc.dres = 1 ∨ bits v.toNat 1 0 ≠ 1 → 
    exec (.debugChallenge r m v) s = .next t) ∧
  (∀ (r : Req) (m : Mgmt) (v : BitVec 32) (t : State) (s : State), s.served r 0x4A0300 = true → r.mgmt = true → s.dropHeld r = t → t.lc.dres ≠ 1 → bits v.toNat 1 0 = 1 → bits v.toNat 3 2 = puDebug ∨ bits v.toNat 3 2 = puReturn → t.fbx.trngFailed = true → 
    exec (.debugChallenge r m v) s = .next (t.setDres 6)) ∧
  (∀ (r : Req) (m : Mgmt) (t : State) (s : State), s.served r 0x4A0300 = true → r.mgmt = true → s.dropHeld r = t → t.lc.dres = 1 → 
    exec (.debugOpen r m) s = .next t) ∧
  (∀ (r : Req) (m : Mgmt) (u : State) (t : State) (s : State), s.served r 0x4A0300 = true → r.mgmt = true → s.dropHeld r = t → t.lc.dres ≠ 1 → t.lcCode = 3 ∨ t.lcCode = 4 → t.lc.pending = false → t.lc.begun = false → t.debugAuth m = true → t.useChallenge.teardownAll alDebugOpen .debugOpen = u → 
    exec (.debugOpen r m) s = .next (if t.responseOk puDebug = true then ({ u with lc := { u.lc with opening := true, retired := (allSlots.filter fun i => (t.useChallenge.slot i).state ≠ .empty).length } } : State).setDres 1 else t.useChallenge.setDres 4)) ∧
  (∀ (s : State), s.rst.step < 2 ∨ s.rst.phase = .fencing ∨ s.slotsQuiet = false → 
    exec .debugOpenComplete s = .next s)

/-- An interval's end, step 2 on and 1 ms after the last, takes the power up to 65535, the low run at 90 % of the share,
throttle, demand, pacing, floors and holds, then in service without test hold the loop's step, else the points; a throttle
then is noted off. A point waiting for its voltage is entered at its acknowledgement, with none waiting nothing. A site
past its deadline is at level 15 and recorded, no other. Budgets, 10 ms on, in boot phase 4 with the group elected: the
lead sends the members' shares and takes its own with the figure, a member sends its demand. A share is taken by a member;
by the lead never. 50 ms after its last it is the member's floor. PWR_BUDGET to the lead: under 65536 with a lease of at
most 3600 s, budget and lease are set and the effective limit is answered; else BAD_PARAM. A budget whose lease has ended
is the default, recorded. PWR_QUERY, heard, answers status and budget. PWR_LIMIT, heard as the operator's, sets a limit
under 65536 and may clear the ceiling; else BAD_PARAM. A report, 100 ms on with a slot LIVE, sends power, demand, point,
throttle time since the last and pacing; with none LIVE nothing. PWR_CTL in management form locks, sets the recovery point
unless locked, and a test hold only with every slot EMPTY, its point and level; a hold in service applies the points. -/
def Obligations.PowerLoopAndMessages : Prop :=
  (∀ (p : Nat) (w u x : State) (s : State), 2 ≤ s.rst.step → s.pwr.intervalAt + 1000000 ≤ s.sys.now → (if s.runsThrottled then s.noteThrottle true else s) = w → { w with pwr := { w.pwr with intervalAt := w.now, pW := min 65535 p, throttled := s.runsThrottled, lowRun := if 10 * min 65535 p ≤ 90 * w.pwr.shareW then min 10 (w.pwr.lowRun + 1) else 0 } } = u → ((u.noteDemand s.runsThrottled (min 65535 p)).notePacing (s.now - s.pwr.intervalAt)).applyFloors.endHolds = x → (if x.inService && !x.pwr.testHold then x.loopStep.applyFloors else x.applyPoints).runsThrottled = false → 
    exec (.damperInterval p) s = .next (if x.inService && !x.pwr.testHold then x.loopStep.applyFloors else x.applyPoints)) ∧
  (∀ (p : Nat) (w u x y : State) (s : State), 2 ≤ s.rst.step → s.pwr.intervalAt + 1000000 ≤ s.sys.now → (if s.runsThrottled then s.noteThrottle true else s) = w → { w with pwr := { w.pwr with intervalAt := w.now, pW := min 65535 p, throttled := s.runsThrottled, lowRun := if 10 * min 65535 p ≤ 90 * w.pwr.shareW then min 10 (w.pwr.lowRun + 1) else 0 } } = u → ((u.noteDemand s.runsThrottled (min 65535 p)).notePacing (s.now - s.pwr.intervalAt)).applyFloors.endHolds = x → (if x.inService && !x.pwr.testHold then x.loopStep.applyFloors else x.applyPoints) = y → y.runsThrottled = true → 
    exec (.damperInterval p) s = .next (y.noteThrottle false)) ∧
  (∀ (p : Nat) (s : State), s.pwr.raising = some p → 
    exec .oppVoltageAck s = .next { s with pwr := { s.pwr with opp := p, raising := none } }) ∧
  (∀ (s : State), s.pwr.raising = none → 
    exec .oppVoltageAck s = .next s) ∧
  (∀ (site : Nat) (s : State), (s.pwr.siteWait.any fun e => e.1 = site && e.2 ≤ s.now) = true → 
    exec (.siteLevelTimeout site) s = .next (((({ s with pwr := { s.pwr with siteWait := s.pwr.siteWait.filter fun e => e.1 ≠ site } } : State).setSiteLevel site 15).record 0xB1 srcDamper [(1, site), (1, 0xFF)]))) ∧
  (∀ (site : Nat) (s : State), (s.pwr.siteWait.any fun e => e.1 = site && e.2 ≤ s.now) = false → 
    exec (.siteLevelTimeout site) s = .next s) ∧
  (∀ (t u : State) (s : State), 2 ≤ s.rst.step → s.boot.phase = 4 → s.hst.group ≠ .electing → s.pwr.reallocAt + 10000000 ≤ s.sys.now → { s with pwr := { s.pwr with reallocAt := s.now } } = t → t.isLead = true → (t.shares.foldl (fun s e => if e.1 = s.pos then s else s.toPeer e.1 bkShare [e.2]) t) = u → 
    exec .budgetReallocate s = .next { u with pwr := { u.pwr with pkgW := u.pkgFigure, shareW := ((t.shares.head?).map Prod.snd).getD 0, shareAt := u.now } }) ∧
  (∀ (t : State) (s : State), 2 ≤ s.rst.step → s.boot.phase = 4 → s.hst.group ≠ .electing → s.pwr.reallocAt + 10000000 ≤ s.sys.now → { s with pwr := { s.pwr with reallocAt := s.now } } = t → t.isLead = false → 
    exec .budgetReallocate s = .next (({ t with pwr := { t.pwr with pkgW := 0 } } : State).toPeer t.hst.leadPos bkDemand [t.pos, t.pwr.demandW])) ∧
  (∀ (w : Nat) (s : State), 2 ≤ s.rst.step → s.hst.group ≠ .electing → s.isLead = false → 
    exec (.shareReceive w) s = .next { s with pwr := { s.pwr with shareW := w % 65536, shareAt := s.sys.now } }) ∧
  (∀ (w : Nat) (s : State), s.isLead = true → 
    exec (.shareReceive w) s = .next s) ∧
  (∀ (s : State), 2 ≤ s.rst.step → s.isLead = false → s.pwr.shareAt + 50000000 ≤ s.sys.now → 
    exec .shareTimeout s = .next { s with pwr := { s.pwr with shareW := s.pwr.floorW } }) ∧
  (∀ (m : Mgmt) (w lease : Nat) (t : State) (s : State), s.leads m = true → w < 65536 → lease ≤ 3600 → { s with pwr := { s.pwr with budget := w, budgetEnd := if lease = 0 then 0 else s.now + lease * 1000000000 } } = t → 
    exec (.pwrBudget m w lease) s = .next (t.answer .ok [t.pkgLimit])) ∧
  (∀ (m : Mgmt) (w lease : Nat) (s : State), s.leads m = true → 65536 ≤ w ∨ 3600 < lease → 
    exec (.pwrBudget m w lease) s = .next (s.answer .badParam)) ∧
  (∀ (s : State), 2 ≤ s.rst.step → s.pwr.budgetEnd ≠ 0 → s.pwr.budgetEnd ≤ s.sys.now → 
    exec .pwrBudgetLapse s = .next (({ s with pwr := { s.pwr with budget := s.pwr.defaultW, budgetEnd := 0 } } : State).record 0xB1 srcStoker [(1, drLapse), (1, 0)])) ∧
  (∀ (m : Mgmt) (s : State), s.hears m false = true → 
    exec (.pwrQuery m) s = .next (s.answer .ok [s.pwrStatus, s.pwrBudgetStat])) ∧
  (∀ (m : Mgmt) (limit : Nat) (clearCeil : Bool) (s : State), s.hears m true = true → limit < 65536 → 
    exec (.pwrLimit m limit clearCeil) s = .next (({ s with pwr := { s.pwr with pkgLimit := limit, ceil := if clearCeil then 0 else s.pwr.ceil } } : State).answer .ok)) ∧
  (∀ (m : Mgmt) (limit : Nat) (clearCeil : Bool) (s : State), s.hears m true = true → 65536 ≤ limit → 
    exec (.pwrLimit m limit clearCeil) s = .next (s.answer .badParam)) ∧
  (∀ (s : State), 2 ≤ s.rst.step → s.pwr.reportAt + 100000000 ≤ s.sys.now → (allSlots.any fun i => (s.slot i).state = .live) = true → 
    exec .pwrReport s = .next (({ s with pwr := { s.pwr with reportAt := s.now, reportThr := s.tel.light.get 0 7 } } : State).emit (.pwrReport [s.pwr.pW / 10, s.pwr.demandW, s.pwr.opp, (s.tel.light.get 0 7 - s.pwr.reportThr).toNat, s.pacing]))) ∧
  (∀ (s : State), (allSlots.any fun i => (s.slot i).state = .live) = false → 
    exec .pwrReport s = .next s) ∧
  (∀ (r : Req) (v : BitVec 32) (u : State) (t : State) (s : State), s.served r 0x4B0010 = true → r.mgmt = true → s.dropHeld r = t → { t with pwr := { t.pwr with lock := t.pwr.lock || v.getLsbD 0, recoveryOpp := if t.pwr.lock then t.pwr.recoveryOpp else bits v.toNat 3 1, testHold := if v.getLsbD 4 && !(allSlots.all fun i => (t.slot i).state = .empty) then t.pwr.testHold else v.getLsbD 4, testOpp := bits v.toNat 7 5, testLevel := bits v.toNat 11 8 } } = u → 
    exec (.pwrCtlWrite r v) s = .next (if u.pwr.testHold && u.inService then u.applyPoints else u))

/-- With main power: a hub droop (8) halves the clocks and holds the hub one point lower, a site's asks four levels more
and holds it; both are recorded and note throttling; from 9 on nothing. Recovery ends the halving. A reading from its own
code on at WARN or TRIP is taken and judged, at CRIT it also begins a SYSRST of cause thermal; below WARN it is taken and
ends the trip. From step 2 on: no answers, nothing; a stage's answer is sent for, its time noted, no longer stale; a stage
10 ms silent is stale and the floors apply, no such stage nothing; changed records, never written or 10 s on, go to the
other slot, its number counted; unchanged nothing. VIN 10 ms out of range is a fault, recorded; in range nothing. Before
its step or time each does nothing: interval, budgets, share (also in election or as lead), its timeout (also as lead),
lease (also none), report. Without main power no droop counts, and no reading, nor one below its code, or for the clearing
at WARN or above. Answers: below step 2 nothing; of no stage nothing; an input stage's VIN is also taken. A VIN fault once
raised is not raised again, nor early. A stage below step 2 or heard in time: nothing. Records below step 2 or within 10
s: nothing. -/
def Obligations.PowerFaults : Prop :=
  (∀ (s : State), s.sys.mainPower = true → 
    exec (.droopTrip 8) s = .next ((({ s with pwr := { s.pwr with halved := true, hubHold := 100, hubHoldOpp := min 7 (s.pwr.opp + 1) } } : State).record 0xB1 srcDamper [(1, 8), (1, 1)]).noteThrottle true)) ∧
  (∀ (src : Nat) (t : State) (s : State), s.sys.mainPower = true → src < 8 → s.requestLevel src (s.siteLevel src + 4) = t → 
    exec (.droopTrip src) s = .next ((({ t with pwr := { t.pwr with siteHold := t.pwr.siteHold.set 0 src 100 } } : State).record 0xB1 srcDamper [(1, src), (1, 4)]).noteThrottle true)) ∧
  (∀ (src : Nat) (s : State), 9 ≤ src → 
    exec (.droopTrip src) s = .next s) ∧
  (∀ (s : State), 
    exec .droopRecover s = .next { s with pwr := { s.pwr with halved := false } }) ∧
  (∀ (hottest : Nat) (s : State), s.sys.mainPower = true → thermCode s.pwr.therm.1 ≤ hottest → 
    exec (.thermalWarn hottest) s = .next ((s.takeReading hottest).tripNow)) ∧
  (∀ (hottest : Nat) (s : State), s.sys.mainPower = true → thermCode s.pwr.therm.2.1 ≤ hottest → 
    exec (.thermalTrip hottest) s = .next ((s.takeReading hottest).tripNow)) ∧
  (∀ (hottest : Nat) (s : State), s.sys.mainPower = true → thermCode s.pwr.therm.2.2 ≤ hottest → 
    exec (.thermalCrit hottest) s = .next ((s.takeReading hottest).tripNow.beginReset .thermal .sysrst)) ∧
  (∀ (hottest : Nat) (s : State), s.sys.mainPower = true → hottest < thermCode s.pwr.therm.1 → 
    exec (.thermalClear hottest) s = .next { s.takeReading hottest with pwr := { (s.takeReading hottest).pwr with thermTrip := false } }) ∧
  (∀ (s : State), 2 ≤ s.rst.step → 
    exec (.pmbusPoll []) s = .next s) ∧
  (∀ (k c v : Nat) (s : State), 2 ≤ s.rst.step → k < s.pwr.stages.length → (s.isInput k && decide (c = pmReadVin)) = false → 
    exec (.pmbusPoll [(k, c, v)]) s = .next { s.emit (.pmbus k c) with pwr := { s.pwr with stageAt := s.pwr.stageAt.set 0 k s.sys.now, stale := s.pwr.stale &&& ~~~((1 : BitVec 16) <<< k) } }) ∧
  (∀ (t0 : Nat) (s : State), s.pwr.vinBadSince = some t0 → t0 + 10000000 ≤ s.sys.now → s.pwr.vinFault = false → 
    exec .vinFault s = .next ((({ s with pwr := { s.pwr with vinFault := true } } : State).applyFloors.record 0xB1 srcDamper [(1, drVin), (1, 5)]))) ∧
  (∀ (s : State), s.pwr.vinBadSince = none → 
    exec .vinFault s = .next s) ∧
  (∀ (stage : Nat) (s : State), 2 ≤ s.rst.step → stage < s.pwr.stages.length → s.pwr.stageAt.get 0 stage + 10000000 ≤ s.sys.now → 
    exec (.pmbusStageTimeout stage) s = .next (({ s with pwr := { s.pwr with stale := s.pwr.stale ||| ((1 : BitVec 16) <<< stage) } } : State).applyFloors)) ∧
  (∀ (stage : Nat) (s : State), s.pwr.stages.length ≤ stage → 
    exec (.pmbusStageTimeout stage) s = .next s) ∧
  (∀ (s : State), 2 ≤ s.rst.step → s.boot.trainDirty = true → s.boot.trainAt = 0 ∨ s.boot.trainAt + 10000000000 ≤ s.now + 1 → 
    exec .trainingSlotWrite s = .next (({ s with boot := { s.boot with trainSlot := 1 - s.boot.trainSlot, trainSeq := s.boot.trainSeq + 1, trainAt := s.sys.now + 1, trainDirty := false } } : State).emit
          (.flashWrite (1 - s.boot.trainSlot) (s.boot.trainSeq + 1) s.lc.serial (s.lnk.links.cells.filterMap fun e => e.2.saved.map fun r => (e.1, r))))) ∧
  (∀ (s : State), s.boot.trainDirty = false → 
    exec .trainingSlotWrite s = .next s) ∧
  (∀ (p : Nat) (s : State), s.rst.step < 2 ∨ s.now < s.pwr.intervalAt + 1000000 → 
    exec (.damperInterval p) s = .next s) ∧
  (∀ (s : State), s.rst.step < 2 ∨ s.boot.phase ≠ 4 ∨ s.hst.group = .electing ∨ s.now < s.pwr.reallocAt + 10000000 → 
    exec .budgetReallocate s = .next s) ∧
  (∀ (w : Nat) (s : State), s.rst.step < 2 ∨ s.hst.group = .electing ∨ s.isLead = true → 
    exec (.shareReceive w) s = .next s) ∧
  (∀ (s : State), s.rst.step < 2 ∨ s.isLead = true ∨ s.now < s.pwr.shareAt + 50000000 → 
    exec .shareTimeout s = .next s) ∧
  (∀ (s : State), s.rst.step < 2 ∨ s.pwr.budgetEnd = 0 ∨ s.now < s.pwr.budgetEnd → 
    exec .pwrBudgetLapse s = .next s) ∧
  (∀ (s : State), s.rst.step < 2 ∨ s.now < s.pwr.reportAt + 100000000 → 
    exec .pwrReport s = .next s) ∧
  (∀ (src : Nat) (s : State), s.sys.mainPower = false → 
    exec (.droopTrip src) s = .next s) ∧
  (∀ (hottest : Nat) (s : State), s.sys.mainPower = false ∨ hottest < thermCode s.pwr.therm.1 → 
    exec (.thermalWarn hottest) s = .next s) ∧
  (∀ (hottest : Nat) (s : State), s.sys.mainPower = false ∨ hottest < thermCode s.pwr.therm.2.1 → 
    exec (.thermalTrip hottest) s = .next s) ∧
  (∀ (hottest : Nat) (s : State), s.sys.mainPower = false ∨ hottest < thermCode s.pwr.therm.2.2 → 
    exec (.thermalCrit hottest) s = .next s) ∧
  (∀ (hottest : Nat) (s : State), s.sys.mainPower = false ∨ thermCode s.pwr.therm.1 ≤ hottest → 
    exec (.thermalClear hottest) s = .next s) ∧
  (∀ (l : List (Nat × Nat × Nat)) (s : State), s.rst.step < 2 → 
    exec (.pmbusPoll l) s = .next s) ∧
  (∀ (k c v : Nat) (s : State), 2 ≤ s.rst.step → s.pwr.stages.length ≤ k → 
    exec (.pmbusPoll [(k, c, v)]) s = .next s) ∧
  (∀ (k v : Nat) (s : State), 2 ≤ s.rst.step → k < s.pwr.stages.length → s.isInput k = true → 
    exec (.pmbusPoll [(k, pmReadVin, v)]) s = .next (({ s.emit (.pmbus k pmReadVin) with pwr := { s.pwr with stageAt := s.pwr.stageAt.set 0 k s.sys.now, stale := s.pwr.stale &&& ~~~((1 : BitVec 16) <<< k) } } : State).takeVin (linear11 v))) ∧
  (∀ (s : State), s.pwr.vinFault = true → 
    exec .vinFault s = .next s) ∧
  (∀ (t0 : Nat) (s : State), s.pwr.vinBadSince = some t0 → s.now < t0 + 10000000 → 
    exec .vinFault s = .next s) ∧
  (∀ (stage : Nat) (s : State), s.rst.step < 2 ∨ s.now < s.pwr.stageAt.get 0 stage + 10000000 → 
    exec (.pmbusStageTimeout stage) s = .next s) ∧
  (∀ (s : State), s.rst.step < 2 ∨ s.boot.trainAt ≠ 0 ∧ s.now + 1 < s.boot.trainAt + 10000000000 → 
    exec .trainingSlotWrite s = .next s)

/-- For every slice, handle, offset, length and set of needed rights: GEN 0 or INDEX at or above 2^OT_LOG2 gives
OBJ_INVALID; otherwise an entry generation above the handle's gives OBJ_REVOKED and one below it OBJ_INVALID, whatever the
state of the entry; with the generations equal a FREE entry gives OBJ_INVALID, a REVOKED or SPENT one OBJ_REVOKED, and a
VALID one OBJ_RANGE when offset plus length pass its size, else OBJ_RIGHTS when a needed right is lacking, else no
failure. -/
def Obligations.HandleLookup : Prop :=
  (∀ (s : State) (i h off len : Nat) (rd wr at_ : Bool), hGen h = 0 ∨ 2 ^ fld (s.slice i).cfg 50 46 ≤ hIndex h →
    s.lookup i h off len rd wr at_ = stObjInvalid) ∧
  (∀ (s : State) (i h off len : Nat) (rd wr at_ : Bool), hGen h ≠ 0 → hIndex h < 2 ^ fld (s.slice i).cfg 50 46 →
    ((hGen h < (s.obj i (hIndex h)).gen → s.lookup i h off len rd wr at_ = stObjRevoked) ∧
     ((s.obj i (hIndex h)).gen < hGen h → s.lookup i h off len rd wr at_ = stObjInvalid) ∧
     ((s.obj i (hIndex h)).gen = hGen h →
       ((s.obj i (hIndex h)).state = .free → s.lookup i h off len rd wr at_ = stObjInvalid) ∧
       ((s.obj i (hIndex h)).state = .revoked ∨ (s.obj i (hIndex h)).state = .spent → s.lookup i h off len rd wr at_ = stObjRevoked) ∧
       ((s.obj i (hIndex h)).state = .valid →
         ((s.obj i (hIndex h)).size < off + len → s.lookup i h off len rd wr at_ = stObjRange) ∧
         (off + len ≤ (s.obj i (hIndex h)).size →
           ((rd = true ∧ (s.obj i (hIndex h)).rd = false ∨ wr = true ∧ (s.obj i (hIndex h)).wr = false ∨
              at_ = true ∧ (s.obj i (hIndex h)).at_ = false) → s.lookup i h off len rd wr at_ = stObjRights) ∧
           ((rd = true → (s.obj i (hIndex h)).rd = true) → (wr = true → (s.obj i (hIndex h)).wr = true) →
              (at_ = true → (s.obj i (hIndex h)).at_ = true) → s.lookup i h off len rd wr at_ = 0))))))

/-- For a message that R52 accepts about a slot that can be joined, DOM_BIND_SLICE of a slice whose interface is in
another TDI state than CONFIG_LOCKED and RUN is answered BAD_PARAM, and nothing else happens. The TDI state that counts is
the one of the state in which the message is accepted. -/
def Obligations.BindingNeedsALockedInterface : Prop :=
  ∀ (m : Mgmt) (slot slice : Nat) (s : State), s.hears m false = true → s.slotFree slot = true → slice < 2048 → (s.slot slot).joinable = true → (s.slice slice).tdi ≠ .locked → (s.slice slice).tdi ≠ .run → 
    exec (.domBindSlice m slot slice) s = .next (s.answer .badParam)

/-- The level of every slice is 1 after reset. A served write of its own page sets it to LEVEL_MAX, which is 1, when bits
3:0 of the value are 1 or above, and to 0 when they are below LEVEL_MIN, which is 1 too; bits 31:4 have no effect; no
other slice changes. While some queue of the slice is not DISABLED the write is ignored. While the level is 0, a served
ENABLE of any queue is refused with a non-zero reason and leaves the state of every queue as it was. -/
def Obligations.LevelOfASlice : Prop :=
  (∀ i : Nat, (State.reset.slice i).level = 1) ∧
  (∀ (r : Req) (slice : Nat) (v : BitVec 32) (s : State), s.served r (slicePage slice + 8) = true → s.pageWrite slice r = true → s.queuesOf slice = [] → 
    ∃ t, exec (.qmSlLevelWrite r slice v) s = .next t ∧ t.slice slice = { s.slice slice with level := if 1 ≤ bits v.toNat 3 0 then 1 else 0 } ∧
      (∀ j, j ≠ slice → t.slice j = s.slice j) ∧ t.dom = s.dom ∧ t.fbx = s.fbx ∧ t.msl = s.msl ∧ t.hth = s.hth ∧ t.out = s.out) ∧
  (∀ (r : Req) (slice : Nat) (v : BitVec 32) (s : State), s.served r (slicePage slice + 8) = true → s.pageWrite slice r = true → s.queuesOf slice ≠ [] → 
    exec (.qmSlLevelWrite r slice v) s = .next (s.dropHeld r)) ∧
  (∀ (r : Req) (slice : Nat) (s : State), s.served r (slicePage slice + 0x40) = true → s.pageWrite slice r = true → (s.slice slice).level = 0 →
    ∃ t n, exec (.queueEnable r slice) s = .next t ∧ n ≠ 0 ∧ (t.queue slice (s.slice slice).qsel).refuse = n ∧
      (∀ q, (t.queue slice q).state = (s.queue slice q).state) ∧ t.dom = s.dom ∧ t.out = s.out)

/-- The next wider format of K1S is K2T, of K2T MXFP4, of MXFP4 E2M3, of E2M3 and E3M2 MXFP8 E4M3, and of E4M3, E5M2 and
MXINT8 BF16 raw; FP32 raw and BF16 raw have none. An arithmetic word that passes its checks has a CEIL_FMT that equals
BASE_FMT or is reached from it by steps to the next wider format. -/
def Obligations.FormatLadder : Prop :=
  ((List.range 10).map nextWider = [none, none, some 1, some 1, some 2, some 2, some 4, some 1, some 6, some 8]) ∧
  (∀ (s : State) (a : BitVec 64), s.chkArith a = 0 →
    arCeil a = arBase a ∨ Relation.TransGen (fun x y => nextWider x = some y) (arBase a) (arCeil a))

/-- A received MXINT8 code c is the two's complement integer c times 2^-6, 0x80 being -2, and a K2T code 0, 1, 3 is 0, +1,
-1; each value is scaled by 2^X. Quantising any finite value in MXINT8, to nearest even or with any draw, gives a code of
8 bits that is not 0x80, so an integer from -127 to 127. A block of K2T that holds the reserved code 2 is invalid and
decodes to 32 NaNs. -/
def Obligations.NarrowIntegers : Prop :=
  (∀ c : Nat, c < 256 → ∃ n m, elemVal 7 c = .fin n m (-6) ∧ (if n then -(m : Int) else m) = (BitVec.ofNat 8 c).toInt) ∧
  (elemVal 8 0 = .fin false 0 0 ∧ elemVal 8 1 = .fin false 1 0 ∧ elemVal 8 3 = .fin true 1 0) ∧
  (∀ (x : Int) (draw : Option Nat) (v : Nat), (quantElem 7 x draw v).code < 256 ∧ (quantElem 7 x draw v).code ≠ 0x80 ∧
    (BitVec.ofNat 8 (quantElem 7 x draw v).code).toInt ≤ 127 ∧ -127 ≤ (BitVec.ofNat 8 (quantElem 7 x draw v).code).toInt) ∧
  (∀ (s : State) (b : List Byte), bits (leNat (b.take 2)) 11 8 = 8 →
    (∃ i, i < 32 ∧ bits (leNat (b.drop 2)) (2 * i + 1) (2 * i) = 2) → s.decodeBlk b = badBlk)

/-- For every two lines and every byte mask, bit k of the merged line is bit k of the new line when the mask holds byte k
/ 8, and bit k of the old line otherwise; so a full mask gives the new line whole and an empty one the old line. -/
def Obligations.MaskedWritesMergeBytes : Prop :=
  (∀ (old new : Line) (m : BitVec 64) (k : Nat), k < 512 →
    (mergeLine old new m).getLsbD k = if m.getLsbD (k / 8) then new.getLsbD k else old.getLsbD k) ∧
  (∀ old new : Line, mergeLine old new fullMask = new ∧ mergeLine old new 0 = old)

/-- Whatever command other than LC_STEP, ANCHOR_SET and ANCHOR_REVOKE runs, in whatever state, the state words, the
operator anchors, MAKER_LOCK and the wiped marks of the integrator fields and the trims stay as they were: no reset,
register write, message or event of another kind changes them. No command, these three included, changes the queue of the
commands that wait behind it. -/
def Obligations.OtpWrittenByThreeCommandsOnly : Prop :=
  (∀ (c : Instr) (s t : State), (∀ ok, c ≠ .lcStep ok) → (∀ r m v, c ≠ .anchorSet r m v) → (∀ r m v, c ≠ .anchorRevoke r m v) →
    exec c s = .next t → t.lc.words = s.lc.words ∧ t.lc.anchors = s.lc.anchors ∧ t.lc.makerLock = s.lc.makerLock ∧
      t.lc.integWiped = s.lc.integWiped ∧ t.lc.trimWiped = s.lc.trimWiped) ∧
  (∀ (c : Instr) (s t : State), exec c s = .next t → t.pending = s.pending)

/-- For every state and every step of it: each state word stays as it was or becomes all ones; each anchor stays as it
was, or was empty, or becomes wiped; MAKER_LOCK and the wiped marks of the integrator fields and the trims stay set once
set; and so the life-cycle code never falls. -/
def Obligations.OtpOnlyMovesForward : Prop :=
  ∀ s t : State, step s = .next t → OtpForward s t ∧ s.lcCode ≤ t.lcCode

/-- Invariant: OTP holds four state words, each all zeros or all ones, and four anchor slots. From every state that meets
it a step leads to a state that meets it. State.reset meets it by the statement of the reset values. That a programmed
word reads all ones, and an unprogrammed one all zeros, is the model's reading of a read-back that holds no error. -/
def Obligations.StateWordsStayWhole : Prop :=
  ∀ s t : State, (s.otpWhole) → step s = .next t →
    t.otpWhole

/-- Of the copies of the stacks and of the hearth: a masked write of a stack line leaves that line merged under the mask,
without poison after a full mask, and every other line and its poison as they were; a write of words of a hearth line
leaves the line merged and its check bits set, and every other line as it was; the zero-fill of 2 MiB of a region makes
each of its 32,768 lines read zero without poison and no other stack line, nor any hearth line, change; the zero-fill of
hearth lines makes each line of the run read the zero line as its KID stores it. Each keeps the one form of the stored
memories (log 7), so equal memories are equal data. -/
def Obligations.StoredMemoriesReadBack : Prop :=
  (∀ (s : State) (a b : Nat) (d : Line) (m : BitVec 64), s.memWf = true → (s.hbmWrite a d m).memWf = true ∧
    (s.hbmWrite a d m).msl.hbm.get 0 b = (if b = a then mergeLine (s.msl.hbm.get 0 a) d m else s.msl.hbm.get 0 b) ∧
    (s.hbmWrite a d m).msl.hbmPoison.get false b = (if b = a ∧ m = fullMask then false else s.msl.hbmPoison.get false b) ∧
    (s.hbmWrite a d m).hth = s.hth) ∧
  (∀ (s : State) (a b : Nat) (l : Line) (kid : Nat) (w : BitVec 8), s.memWf = true → (s.hearthPut a l kid w).memWf = true ∧
    (s.hearthPut a l kid w).hth.store.get 0 b = (if b = a then mergeLine (s.hth.store.get 0 a) l
      (BitVec.ofNat 64 (packFields ((List.range 8).map fun i => (8, if w.getLsbD i then 255 else 0)))) else s.hth.store.get 0 b) ∧
    (b ≠ a → (s.hearthPut a l kid w).hth.ecc.get 0 b = s.hth.ecc.get 0 b) ∧ (s.hearthPut a l kid w).msl = s.msl) ∧
  (∀ (s : State) (r u b : Nat), s.memWf = true → (s.zeroRegion r u).memWf = true ∧
    (s.zeroRegion r u).hth.store = s.hth.store ∧ (s.zeroRegion r u).hth.ecc = s.hth.ecc ∧
    (((s.rgn r).line0 + u * 32768 ≤ b ∧ b < (s.rgn r).line0 + u * 32768 + 32768) →
      (s.zeroRegion r u).msl.hbm.get 0 b = 0 ∧ (s.zeroRegion r u).msl.hbmPoison.get false b = false) ∧
    (¬((s.rgn r).line0 + u * 32768 ≤ b ∧ b < (s.rgn r).line0 + u * 32768 + 32768) →
      (s.zeroRegion r u).msl.hbm.get 0 b = s.msl.hbm.get 0 b ∧ (s.zeroRegion r u).msl.hbmPoison.get false b = s.msl.hbmPoison.get false b)) ∧
  (∀ (s : State) (lo n kid mode b : Nat), s.memWf = true → (s.hearthZero lo n kid mode).memWf = true ∧ (s.hearthZero lo n kid mode).msl = s.msl ∧
    ((lo ≤ b ∧ b < lo + n) → (s.hearthZero lo n kid mode).hth.store.get 0 b = if mode = 2 then (s.hearthForm b kid 0).getD 0 else 0) ∧
    (¬(lo ≤ b ∧ b < lo + n) → (s.hearthZero lo n kid mode).hth.store.get 0 b = s.hth.store.get 0 b ∧
      (s.hearthZero lo n kid mode).hth.ecc.get 0 b = s.hth.ecc.get 0 b))
end

