-- ==== Sys2Proof/Laws/Gates.lean ====
section
/-! SUPPORT. What each shared gate does with a command it lets through, and with one it does not. -/

namespace Sys2Proof.Machine
open Sys2Proof

/-! ## Register writes -/

/-- A write that is served and admitted has its effect, on the state whose held low half of the requester is dropped. -/
theorem regWrite_served {s : State} {r : Req} {off width : Nat} {a : Bool} {f : State → State} (h : s.served r off = true)
    (ha : a = true) : s.regWrite r off width a f = f (s.dropHeld r) := by
  subst ha
  unfold State.served at h
  cases hm : r.mgmt <;> simp only [hm, Bool.and_eq_true, Bool.false_eq_true, if_true, if_false, Bool.not_eq_true'] at h <;>
    obtain ⟨⟨h1, h2⟩, h3⟩ := h <;>
    cases hb : blockOf off <;> simp_all [State.regWrite] <;>
    (rw [show (s.dropHeld r).blockUp _ = true from h2, show (s.dropHeld r).lcBars off = false from h3]; simp)

/-- A write that its register does not admit is recorded and has no effect (R12). -/
theorem regWrite_barred {s : State} {r : Req} {off width : Nat} {a : Bool} {f : State → State}
    (hup : (if r.mgmt then s.mgmtServes off else s.hostUp) = true) (ha : s.served r off = false ∨ a = false) :
    s.regWrite r off width a f = (s.dropHeld r).regBad r off width := by
  unfold State.served at ha
  rw [hup] at ha
  cases hm : r.mgmt <;> simp only [hm, Bool.false_eq_true, if_true, if_false] at hup <;>
    cases hb : blockOf off <;> simp_all [State.regWrite] <;> intro hu _ hl <;>
    (have hu' : s.blockUp _ = true := hu; have hl' : s.lcBars off = false := hl; simp_all)

/-- A served write of a management-only register by the management endpoint has its effect. -/
theorem regWriteMgmt_served {s : State} {r : Req} {off width : Nat} {f : State → State} (h : s.served r off = true)
    (hm : r.mgmt = true) : s.regWriteMgmt r off width f = f (s.dropHeld r) := by
  simp [State.regWriteMgmt, regWrite_served h, hm]

/-- From the host link such a write is ignored (R18). -/
theorem regWriteMgmt_host {s : State} {r : Req} {off width : Nat} {f : State → State} (h : s.served r off = true)
    (hm : r.mgmt = false) : s.regWriteMgmt r off width f = s.dropHeld r := by
  simp [State.regWriteMgmt, regWrite_served h, hm]

/-! ## Messages -/

theorem spdmServe_serving {s : State} {f : State → State} (h : s.serving = true) : s.spdmServe f = f s := by
  simp only [State.serving, Bool.and_eq_true, decide_eq_true_eq, ne_eq] at h
  obtain ⟨⟨⟨h1, h2⟩, h3⟩, h4⟩ := h
  unfold State.spdmServe
  rw [if_neg (by simp [h2]; omega), if_neg h3, if_neg (by simp [h4])]

theorem domMsg_hears {s : State} {m : Mgmt} {role : Bool} {f : State → State} (h : s.hears m role = true) :
    s.domMsg m role f = f s := by
  simp only [State.hears, Bool.and_eq_true] at h
  unfold State.domMsg
  rw [spdmServe_serving h.1.1, if_neg]
  simp only [h.1.2, Bool.not_true, Bool.false_or, Bool.and_eq_true, not_and]
  intro hr
  simpa [hr] using h.2

theorem domMsg_unauth {s : State} {m : Mgmt} {role : Bool} {f : State → State} (hs : s.serving = true)
    (h : s.hears m role = false) : s.domMsg m role f = s.answer .unauth := by
  simp only [State.hears, hs, Bool.true_and] at h
  unfold State.domMsg
  rw [spdmServe_serving hs, if_pos]
  cases hc : s.chainOk m <;> cases hr : m.role <;> cases role <;> simp_all

theorem leadMsg_leads {s : State} {m : Mgmt} {f : State → State} (h : s.leads m = true) : s.leadMsg m f = f s := by
  simp only [State.leads, Bool.and_eq_true, decide_eq_true_eq, ne_eq] at h
  unfold State.leadMsg
  rw [domMsg_hears h.1.1, if_neg h.1.2, if_neg (by simp [h.2])]

theorem slotMsg_free {s : State} {slot : Nat} {f : State → State} (h : s.slotFree slot = true) : s.slotMsg slot f = f s := by
  simp only [State.slotFree, Bool.and_eq_true, decide_eq_true_eq] at h
  unfold State.slotMsg
  rw [if_neg (by omega), if_neg (by simp [h.2])]

theorem tdMsg_hears {s : State} {m : Mgmt} {slice : Nat} {f : State → State} (h : s.tdHears m slice = true) :
    s.tdMsg m slice f = f s := by
  simp only [State.tdHears, Bool.and_eq_true, decide_eq_true_eq] at h
  unfold State.tdMsg
  rw [if_neg (by simp [h.1.1, h.1.2]), if_neg (by omega)]

/-! ## Commands in their units -/

theorem unit_works {s : State} {i q seq op : Nat} {c : Cmd} {f : Cmd → State → State} (h : s.works i q seq op c = true) :
    s.unit i q seq op f = f c s := by
  simp only [State.works, Bool.and_eq_true, decide_eq_true_eq] at h
  obtain ⟨⟨⟨⟨h1, h2⟩, h3⟩, h4⟩, h5⟩ := h
  simp [State.unit, h1, h2, h3, h4, h5]

/-- A command that is not there, runs no more, may not act yet, or whose unit is off, leaves its unit idle. -/
theorem unit_idle {s : State} {i q seq op : Nat} {f : Cmd → State → State} (h : ∀ c, s.works i q seq op c = false) :
    s.unit i q seq op f = s := by
  unfold State.unit
  split
  · rfl
  · rename_i c hc
    rw [if_neg]
    have := h c
    simpa [State.works, hc] using this

/-- A background job that waits alone, at one arbiter, has its turn (R202). -/
theorem bgTurn_only {s : State} {c id a : Nat} (h : s.bgJobs = [{ cls := c, id := id, arbs := [a] }]) : s.bgTurn c id = true := by
  have h1 : s.bgAt a = [{ cls := c, id := id, arbs := [a] }] := by simp [State.bgAt, h]
  have h2 : s.bgNext a = some (c, id) := by
    unfold State.bgNext
    rw [h1]
    by_cases hl : s.hth.bgLast.get 0 (8 * a + c) ≤ id <;> simp [least?, hl]
  simp [State.bgTurn, h, h2]

end Sys2Proof.Machine
end

