-- ==== Sys2Proof/Laws/Kept.lean ====
section
/-! SUPPORT. What no ordinary operation touches: the queue of waiting commands and the OTP areas of the life cycle. One
lemma per operation says so; this file holds the projection those lemmas speak of and its rules. -/

namespace Sys2Proof.Machine
open Sys2Proof

/-- The queue and the OTP areas. -/
def State.kept (s : State) : List Instr × List (BitVec 32) × List Anchor × Bool × Bool × Bool :=
  (s.pending, s.lc.words, s.lc.anchors, s.lc.makerLock, s.lc.integWiped, s.lc.trimWiped)

/-- A state put together from parts keeps what its queue and its life-cycle record hold. -/
@[simp] theorem State.kept_mk (pe ou sy do_ fb qm ms ht ln fa co sn hs ce te rc rs lc pw bo) :
    (State.mk pe ou sy do_ fb qm ms ht ln fa co sn hs ce te rc rs lc pw bo).kept =
      (pe, lc.words, lc.anchors, lc.makerLock, lc.integWiped, lc.trimWiped) := rfl

@[simp] theorem State.kept_fold (s : State) :
    (s.pending, s.lc.words, s.lc.anchors, s.lc.makerLock, s.lc.integWiped, s.lc.trimWiped) = s.kept := rfl

@[simp] theorem kept_ite (c : Prop) [Decidable c] (a b : State) :
    (if c then a else b).kept = if c then a.kept else b.kept := by split <;> rfl

@[simp] theorem kept_ite_snd {α : Type} (c : Prop) [Decidable c] (a b : α × State) :
    (if c then a else b).2.kept = if c then a.2.kept else b.2.kept := by split <;> rfl

@[simp] theorem kept_ite_fst {α : Type} (c : Prop) [Decidable c] (a b : State × α) :
    (if c then a else b).1.kept = if c then a.1.kept else b.1.kept := by split <;> rfl

@[simp] theorem kept_ite_snd2 {α β : Type} (c : Prop) [Decidable c] (a b : α × β × State) :
    (if c then a else b).2.2.kept = if c then a.2.2.kept else b.2.2.kept := by split <;> rfl

@[simp] theorem kept_ite_snd3 {α β γ : Type} (c : Prop) [Decidable c] (a b : α × β × γ × State) :
    (if c then a else b).2.2.2.kept = if c then a.2.2.2.kept else b.2.2.2.kept := by split <;> rfl

/-- The state in an answer, named by a match on that answer. -/
theorem kept_snd {α : Type} {p : α × State} {a : α} {s : State} (h : p = (a, s)) : s.kept = p.2.kept := by rw [h]
theorem kept_snd2 {α β : Type} {p : α × β × State} {a : α} {b : β} {s : State} (h : p = (a, b, s)) :
    s.kept = p.2.2.kept := by rw [h]
theorem kept_snd3 {α β γ : Type} {p : α × β × γ × State} {a : α} {b : β} {c : γ} {s : State} (h : p = (a, b, c, s)) :
    s.kept = p.2.2.2.kept := by rw [h]
theorem kept_fst {α : Type} {p : State × α} {a : α} {s : State} (h : p = (s, a)) : s.kept = p.1.kept := by rw [h]

/-- The state a step may answer, named by a match on its answer. -/
theorem kept_of_some {α : Type} {p : Option State × α} {t s : State} {u : α} (h : p = (some t, u))
    (hk : (p.1.getD s).kept = s.kept) : t.kept = s.kept := by rw [h] at hk; simpa using hk

@[simp] theorem kept_ite_some {α : Type} (c : Prop) [Decidable c] (a b : Option State × α) (s : State) :
    ((if c then a else b).1.getD s).kept = if c then (a.1.getD s).kept else (b.1.getD s).kept := by split <;> rfl

/-- A fold of steps that keep it keeps it. -/
@[simp] theorem kept_foldl {α : Type} (f : State → α → State) (h : ∀ s a, (f s a).kept = s.kept) (l : List α) (s : State) :
    (l.foldl f s).kept = s.kept := by
  induction l generalizing s with
  | nil => rfl
  | cons a l ih => simp [ih, h]

@[simp] theorem kept_foldl_snd {α β : Type} (f : β × State → α → β × State) (h : ∀ b s a, (f (b, s) a).2.kept = s.kept)
    (l : List α) (p : β × State) : (l.foldl f p).2.kept = p.2.kept := by
  induction l generalizing p with
  | nil => rfl
  | cons a l ih => rw [List.foldl_cons, ih]; exact h p.1 p.2 a

@[simp] theorem kept_foldl_fst {α β : Type} (f : State × β → α → State × β) (h : ∀ s b a, (f (s, b) a).1.kept = s.kept)
    (l : List α) (p : State × β) : (l.foldl f p).1.kept = p.1.kept := by
  induction l generalizing p with
  | nil => rfl
  | cons a l ih => rw [List.foldl_cons, ih]; exact h p.1 p.2 a

@[simp] theorem kept_foldl_snd2 {α β γ : Type} (f : β × γ × State → α → β × γ × State)
    (h : ∀ b c s a, (f (b, c, s) a).2.2.kept = s.kept) (l : List α) (p : β × γ × State) :
    (l.foldl f p).2.2.kept = p.2.2.kept := by
  induction l generalizing p with
  | nil => rfl
  | cons a l ih => rw [List.foldl_cons, ih]; exact h p.1 p.2.1 p.2.2 a

/-- A branch keeps what both its sides keep. -/
theorem kept_ite_eq {c : Prop} [Decidable c] {a b s : State} (ha : a.kept = s.kept) (hb : b.kept = s.kept) :
    (if c then a else b).kept = s.kept := by split <;> assumption

end Sys2Proof.Machine
end

