-- ==== Sys2Proof/Laws/KeptOps.lean ====
section
/-! SUPPORT. The operations of Ops keep the queue and the OTP areas. -/

set_option linter.unusedSimpArgs false
set_option linter.unusedTactic false
set_option linter.unreachableTactic false
set_option linter.unusedVariables false

namespace Sys2Proof.Machine
open Sys2Proof

@[simp] theorem State.emit_kept (s : State) (o : Out) :
    (State.emit s o).kept = s.kept := by
  unfold State.emit
  simp (maxDischargeDepth := 6)

@[simp] theorem State.answer_kept (s : State) (r : DomResult) (vals : List ℕ) :
    (State.answer s r vals).kept = s.kept := by
  unfold State.answer
  simp (maxDischargeDepth := 6)

@[simp] theorem State.draw_kept (s : State) (w : ℕ) :
    (State.draw s w).2.kept = s.kept := by
  unfold State.draw
  simp (maxDischargeDepth := 6)

@[simp] theorem State.setSlot_kept (s : State) (i : ℕ) (v : Slot) :
    (State.setSlot s i v).kept = s.kept := by
  unfold State.setSlot
  simp (maxDischargeDepth := 6)

@[simp] theorem State.modSlot_kept (s : State) (i : ℕ) (f : Slot → Slot) :
    (State.modSlot s i f).kept = s.kept := by
  unfold State.modSlot
  simp (maxDischargeDepth := 6)

@[simp] theorem State.setSlice_kept (s : State) (i : ℕ) (v : Slice) :
    (State.setSlice s i v).kept = s.kept := by
  unfold State.setSlice
  simp (maxDischargeDepth := 6)

@[simp] theorem State.modSlice_kept (s : State) (i : ℕ) (f : Slice → Slice) :
    (State.modSlice s i f).kept = s.kept := by
  unfold State.modSlice
  simp (maxDischargeDepth := 6)

@[simp] theorem State.setQueue_kept (s : State) (i : ℕ) (q : ℕ) (v : Queue) :
    (State.setQueue s i q v).kept = s.kept := by
  unfold State.setQueue
  simp (maxDischargeDepth := 6)

@[simp] theorem State.modQueue_kept (s : State) (i : ℕ) (q : ℕ) (f : Queue → Queue) :
    (State.modQueue s i q f).kept = s.kept := by
  unfold State.modQueue
  simp (maxDischargeDepth := 6)

@[simp] theorem State.setObj_kept (s : State) (i : ℕ) (e : ℕ) (v : ObjEntry) :
    (State.setObj s i e v).kept = s.kept := by
  unfold State.setObj
  simp (maxDischargeDepth := 6)

@[simp] theorem State.modObj_kept (s : State) (i : ℕ) (e : ℕ) (f : ObjEntry → ObjEntry) :
    (State.modObj s i e f).kept = s.kept := by
  unfold State.modObj
  simp (maxDischargeDepth := 6)

@[simp] theorem State.setKid_kept (s : State) (k : ℕ) (v : KidEntry) :
    (State.setKid s k v).kept = s.kept := by
  unfold State.setKid
  simp (maxDischargeDepth := 6)

@[simp] theorem State.modKid_kept (s : State) (k : ℕ) (f : KidEntry → KidEntry) :
    (State.modKid s k f).kept = s.kept := by
  unfold State.modKid
  simp (maxDischargeDepth := 6)

@[simp] theorem State.setRgn_kept (s : State) (r : ℕ) (v : Region) :
    (State.setRgn s r v).kept = s.kept := by
  unfold State.setRgn
  simp (maxDischargeDepth := 6)

@[simp] theorem State.modRgn_kept (s : State) (r : ℕ) (f : Region → Region) :
    (State.modRgn s r f).kept = s.kept := by
  unfold State.modRgn
  simp (maxDischargeDepth := 6)

@[simp] theorem State.setHrg_kept (s : State) (r : ℕ) (v : HRange) :
    (State.setHrg s r v).kept = s.kept := by
  unfold State.setHrg
  simp (maxDischargeDepth := 6)

@[simp] theorem State.setLink_kept (s : State) (l : ℕ) (v : Link) :
    (State.setLink s l v).kept = s.kept := by
  unfold State.setLink
  simp (maxDischargeDepth := 6)

@[simp] theorem State.modLink_kept (s : State) (l : ℕ) (f : Link → Link) :
    (State.modLink s l f).kept = s.kept := by
  unfold State.modLink
  simp (maxDischargeDepth := 6)

@[simp] theorem State.setPort_kept (s : State) (p : ℕ) (v : Port) :
    (State.setPort s p v).kept = s.kept := by
  unfold State.setPort
  simp (maxDischargeDepth := 6)

@[simp] theorem State.setWin_kept (s : State) (w : ℕ) (v : Win) :
    (State.setWin s w v).kept = s.kept := by
  unfold State.setWin
  simp (maxDischargeDepth := 6)

@[simp] theorem State.setRwin_kept (s : State) (w : ℕ) (v : Rwin) :
    (State.setRwin s w v).kept = s.kept := by
  unfold State.setRwin
  simp (maxDischargeDepth := 6)

@[simp] theorem State.setPlan_kept (s : State) (p : ℕ) (v : Plan) :
    (State.setPlan s p v).kept = s.kept := by
  unfold State.setPlan
  simp (maxDischargeDepth := 6)

@[simp] theorem State.modPlan_kept (s : State) (p : ℕ) (f : Plan → Plan) :
    (State.modPlan s p f).kept = s.kept := by
  unfold State.modPlan
  simp (maxDischargeDepth := 6)

@[simp] theorem State.setSyncObj_kept (s : State) (o : ℕ) (v : SyncObj) :
    (State.setSyncObj s o v).kept = s.kept := by
  unfold State.setSyncObj
  simp (maxDischargeDepth := 6)

@[simp] theorem State.modSyncObj_kept (s : State) (o : ℕ) (f : SyncObj → SyncObj) :
    (State.modSyncObj s o f).kept = s.kept := by
  unfold State.modSyncObj
  simp (maxDischargeDepth := 6)

@[simp] theorem State.setGrant_kept (s : State) (g : ℕ) (v : Grant) :
    (State.setGrant s g v).kept = s.kept := by
  unfold State.setGrant
  simp (maxDischargeDepth := 6)

@[simp] theorem State.setSite_kept (s : State) (i : ℕ) (v : Site) :
    (State.setSite s i v).kept = s.kept := by
  unfold State.setSite
  simp (maxDischargeDepth := 6)

@[simp] theorem State.modSite_kept (s : State) (i : ℕ) (f : Site → Site) :
    (State.modSite s i f).kept = s.kept := by
  unfold State.modSite
  simp (maxDischargeDepth := 6)

@[simp] theorem State.setCePage_kept (s : State) (p : ℕ) (v : CePage) :
    (State.setCePage s p v).kept = s.kept := by
  unfold State.setCePage
  simp (maxDischargeDepth := 6)

@[simp] theorem State.modCePage_kept (s : State) (p : ℕ) (f : CePage → CePage) :
    (State.modCePage s p f).kept = s.kept := by
  unfold State.modCePage
  simp (maxDischargeDepth := 6)

@[simp] theorem State.setWatch_kept (s : State) (w : ℕ) (v : Watch) :
    (State.setWatch s w v).kept = s.kept := by
  unfold State.setWatch
  simp (maxDischargeDepth := 6)

@[simp] theorem State.spdmError_kept (s : State) (e : ℕ) :
    (State.spdmError s e).kept = s.kept := by
  unfold State.spdmError
  simp (maxDischargeDepth := 6)

@[simp] theorem State.spdmServe_kept (s : State) (f : State → State) (hf : ∀ a0, (f a0).kept = a0.kept) :
    (State.spdmServe s f).kept = s.kept := by
  unfold State.spdmServe
  repeat' first
    | (simp (maxDischargeDepth := 6) [hf]; done)
    | (simp (maxDischargeDepth := 6) +zetaDelta [hf]; done)
    | with_reducible refine Eq.trans (by assumption) ?_
    | intro _
    | split
    | simp (maxDischargeDepth := 6) only [kept_ite, kept_ite_snd, kept_ite_fst, kept_ite_snd2, kept_ite_snd3]
    | with_reducible refine (kept_foldl _ ?_ _ _).trans ?_
    | with_reducible refine (kept_foldl_snd _ ?_ _ _).trans ?_
    | with_reducible refine (kept_foldl_fst _ ?_ _ _).trans ?_
    | with_reducible refine (kept_foldl_snd2 _ ?_ _ _).trans ?_
    | with_reducible refine (hf _).trans ?_
    | with_reducible refine (kept_snd (by assumption)).trans ?_
    | with_reducible refine (kept_snd2 (by assumption)).trans ?_
    | with_reducible refine (kept_snd3 (by assumption)).trans ?_
    | with_reducible refine (kept_fst (by assumption)).trans ?_
    | with_reducible refine kept_of_some (by assumption) ?_
    | simp (maxDischargeDepth := 6) [hf]
    | dsimp only
    | simp (maxDischargeDepth := 6) +zetaDelta [hf]

@[simp] theorem State.domMsg_kept (s : State) (m : Mgmt) (role : Bool) (f : State → State) (hf : ∀ a0, (f a0).kept = a0.kept) :
    (State.domMsg s m role f).kept = s.kept := by
  unfold State.domMsg
  repeat' first
    | (simp (maxDischargeDepth := 6) [hf]; done)
    | (simp (maxDischargeDepth := 6) +zetaDelta [hf]; done)
    | with_reducible refine Eq.trans (by assumption) ?_
    | intro _
    | split
    | simp (maxDischargeDepth := 6) only [kept_ite, kept_ite_snd, kept_ite_fst, kept_ite_snd2, kept_ite_snd3]
    | with_reducible refine (kept_foldl _ ?_ _ _).trans ?_
    | with_reducible refine (kept_foldl_snd _ ?_ _ _).trans ?_
    | with_reducible refine (kept_foldl_fst _ ?_ _ _).trans ?_
    | with_reducible refine (kept_foldl_snd2 _ ?_ _ _).trans ?_
    | with_reducible refine (State.spdmServe_kept _ _ ?_).trans ?_
    | with_reducible refine (hf _).trans ?_
    | with_reducible refine (kept_snd (by assumption)).trans ?_
    | with_reducible refine (kept_snd2 (by assumption)).trans ?_
    | with_reducible refine (kept_snd3 (by assumption)).trans ?_
    | with_reducible refine (kept_fst (by assumption)).trans ?_
    | with_reducible refine kept_of_some (by assumption) ?_
    | simp (maxDischargeDepth := 6) [hf]
    | dsimp only
    | simp (maxDischargeDepth := 6) +zetaDelta [hf]

@[simp] theorem State.progress_kept (s : State) (u : ℕ) :
    (State.progress s u).kept = s.kept := by
  unfold State.progress
  simp (maxDischargeDepth := 6)

@[simp] theorem State.forEach_kept (s : State) (l : List ℕ) (f : State → ℕ → State) (hf : ∀ a0 a1, (f a0 a1).kept = a0.kept) :
    (State.forEach s l f).kept = s.kept := by
  unfold State.forEach
  repeat' first
    | (simp (maxDischargeDepth := 6) [hf]; done)
    | (simp (maxDischargeDepth := 6) +zetaDelta [hf]; done)
    | with_reducible refine Eq.trans (by assumption) ?_
    | intro _
    | split
    | simp (maxDischargeDepth := 6) only [kept_ite, kept_ite_snd, kept_ite_fst, kept_ite_snd2, kept_ite_snd3]
    | with_reducible refine (kept_foldl _ ?_ _ _).trans ?_
    | with_reducible refine (kept_foldl_snd _ ?_ _ _).trans ?_
    | with_reducible refine (kept_foldl_fst _ ?_ _ _).trans ?_
    | with_reducible refine (kept_foldl_snd2 _ ?_ _ _).trans ?_
    | with_reducible refine (hf _ _).trans ?_
    | with_reducible refine (kept_snd (by assumption)).trans ?_
    | with_reducible refine (kept_snd2 (by assumption)).trans ?_
    | with_reducible refine (kept_snd3 (by assumption)).trans ?_
    | with_reducible refine (kept_fst (by assumption)).trans ?_
    | with_reducible refine kept_of_some (by assumption) ?_
    | simp (maxDischargeDepth := 6) [hf]
    | dsimp only
    | simp (maxDischargeDepth := 6) +zetaDelta [hf]

@[simp] theorem State.toPeer_kept (s : State) (h : ℕ) (kind : ℕ) (vals : List ℕ) :
    (State.toPeer s h kind vals).kept = s.kept := by
  unfold State.toPeer
  simp (maxDischargeDepth := 6)

@[simp] theorem State.toPeers_kept (s : State) (kind : ℕ) (vals : List ℕ) :
    (State.toPeers s kind vals).kept = s.kept := by
  unfold State.toPeers
  simp (maxDischargeDepth := 6)

end Sys2Proof.Machine
end

