-- ==== Sys2Proof/Laws/KeptRecorder.lean ====
section
/-! SUPPORT. The operations of Recorder keep the queue and the OTP areas. -/

set_option linter.unusedSimpArgs false
set_option linter.unusedTactic false
set_option linter.unreachableTactic false
set_option linter.unusedVariables false

namespace Sys2Proof.Machine
open Sys2Proof

@[simp] theorem State.number_kept (s : State) (code : ℕ) (source : ℕ) (pl : BitVec 128) :
    (State.number s code source pl).kept = s.kept := by
  unfold State.number
  simp (maxDischargeDepth := 6)

@[simp] theorem State.setBucket_kept (s : State) (code : ℕ) (b : Bucket) :
    (State.setBucket s code b).kept = s.kept := by
  unfold State.setBucket
  simp (maxDischargeDepth := 6)

@[simp] theorem State.flushDrops_kept (s : State) (code : ℕ) :
    (State.flushDrops s code).kept = s.kept := by
  unfold State.flushDrops
  simp (maxDischargeDepth := 6)

@[simp] theorem State.admitRec_kept (s : State) (code : ℕ) (source : ℕ) (pl : BitVec 128) :
    (State.admitRec s code source pl).kept = s.kept := by
  unfold State.admitRec
  simp (maxDischargeDepth := 6)

@[simp] theorem State.record_kept (s : State) (code : ℕ) (source : ℕ) (fs : List (ℕ × ℕ)) :
    (State.record s code source fs).kept = s.kept := by
  unfold State.record
  simp (maxDischargeDepth := 6)

@[simp] theorem State.recLoaded_kept (s : State) (first : State → State) (hfirst : ∀ a0, (first a0).kept = a0.kept) :
    (State.recLoaded s first).kept = s.kept := by
  unfold State.recLoaded
  repeat' first
    | (simp (maxDischargeDepth := 6) [hfirst]; done)
    | (simp (maxDischargeDepth := 6) +zetaDelta [hfirst]; done)
    | with_reducible refine Eq.trans (by assumption) ?_
    | intro _
    | split
    | simp (maxDischargeDepth := 6) only [kept_ite, kept_ite_snd, kept_ite_fst, kept_ite_snd2, kept_ite_snd3]
    | with_reducible refine (kept_foldl _ ?_ _ _).trans ?_
    | with_reducible refine (kept_foldl_snd _ ?_ _ _).trans ?_
    | with_reducible refine (kept_foldl_fst _ ?_ _ _).trans ?_
    | with_reducible refine (kept_foldl_snd2 _ ?_ _ _).trans ?_
    | with_reducible refine (hfirst _).trans ?_
    | with_reducible refine (kept_snd (by assumption)).trans ?_
    | with_reducible refine (kept_snd2 (by assumption)).trans ?_
    | with_reducible refine (kept_snd3 (by assumption)).trans ?_
    | with_reducible refine (kept_fst (by assumption)).trans ?_
    | with_reducible refine kept_of_some (by assumption) ?_
    | simp (maxDischargeDepth := 6) [hfirst]
    | dsimp only
    | simp (maxDischargeDepth := 6) +zetaDelta [hfirst]

@[simp] theorem State.recReset_kept (s : State) :
    (State.recReset s).kept = s.kept := by
  unfold State.recReset
  simp (maxDischargeDepth := 6)

theorem execSuppressed_kept (code : ℕ) (s : State) {t : State}
    (h : execSuppressed code s = .next t) : t.kept = s.kept := by
  unfold execSuppressed at h
  injection h with h
  subst h
  simp (maxDischargeDepth := 6)

theorem execPermProgram_kept (ok : Bool) (s : State) {t : State}
    (h : execPermProgram ok s = .next t) : t.kept = s.kept := by
  unfold execPermProgram at h
  injection h with h
  subst h
  repeat' first
    | (simp (maxDischargeDepth := 6); done)
    | split
    | simp (maxDischargeDepth := 6)

theorem execRecClear_kept (m : Mgmt) (s : State) {t : State}
    (h : execRecClear m s = .next t) : t.kept = s.kept := by
  unfold execRecClear at h
  injection h with h
  subst h
  simp (maxDischargeDepth := 6)

@[simp] theorem State.capture_kept (s : State) (r : Req) (off : ℕ) (v : BitVec 64) :
    (State.capture s r off v).kept = s.kept := by
  unfold State.capture
  simp (maxDischargeDepth := 6)

end Sys2Proof.Machine
end

