-- ==== Sys2Proof/Laws/KeptAccess.lean ====
section
/-! SUPPORT. The operations of Access keep the queue and the OTP areas. -/

set_option linter.unusedSimpArgs false
set_option linter.unusedTactic false
set_option linter.unreachableTactic false
set_option linter.unusedVariables false

namespace Sys2Proof.Machine
open Sys2Proof

@[simp] theorem State.regBad_kept (s : State) (r : Req) (off : ℕ) (width : ℕ) :
    (State.regBad s r off width).kept = s.kept := by
  unfold State.regBad
  simp (maxDischargeDepth := 6)

@[simp] theorem State.dropHeld_kept (s : State) (r : Req) :
    (State.dropHeld s r).kept = s.kept := by
  unfold State.dropHeld
  simp (maxDischargeDepth := 6)

@[simp] theorem State.regWrite_kept (s : State) (r : Req) (off : ℕ) (width : ℕ) (admitted : Bool) (f : State → State) (hf : ∀ a0, (f a0).kept = a0.kept) :
    (State.regWrite s r off width admitted f).kept = s.kept := by
  unfold State.regWrite
  repeat' first
    | (simp (maxDischargeDepth := 6) [hf]; done)
    | (simp (maxDischargeDepth := 6) +zetaDelta [hf]; done)
    | with_reducible refine Eq.trans (by assumption) ?_
    | intro _
    | split
    | simp (maxDischargeDepth := 6) only [kept_ite, kept_ite_snd, kept_ite_fst, kept_ite_snd2, kept_ite_snd3]
    | with_reducible refine (kept_foldl _ ?_ _ _).trans ?_
    | with_reducible refine (kept_foldl_snd _ ?_ _ _).trans ?_
    | with_reducible refine (kept_foldl_fst _ ?_ _ _).trans ?_
    | with_reducible refine (kept_foldl_snd2 _ ?_ _ _).trans ?_
    | with_reducible refine (hf _).trans ?_
    | with_reducible refine (kept_snd (by assumption)).trans ?_
    | with_reducible refine (kept_snd2 (by assumption)).trans ?_
    | with_reducible refine (kept_snd3 (by assumption)).trans ?_
    | with_reducible refine (kept_fst (by assumption)).trans ?_
    | with_reducible refine kept_of_some (by assumption) ?_
    | simp (maxDischargeDepth := 6) [hf]
    | dsimp only
    | simp (maxDischargeDepth := 6) +zetaDelta [hf]

@[simp] theorem State.regWriteMgmt_kept (s : State) (r : Req) (off : ℕ) (width : ℕ) (f : State → State) (hf : ∀ a0, (f a0).kept = a0.kept) :
    (State.regWriteMgmt s r off width f).kept = s.kept := by
  unfold State.regWriteMgmt
  repeat' first
    | (simp (maxDischargeDepth := 6) [hf]; done)
    | (simp (maxDischargeDepth := 6) +zetaDelta [hf]; done)
    | with_reducible refine Eq.trans (by assumption) ?_
    | intro _
    | split
    | simp (maxDischargeDepth := 6) only [kept_ite, kept_ite_snd, kept_ite_fst, kept_ite_snd2, kept_ite_snd3]
    | with_reducible refine (kept_foldl _ ?_ _ _).trans ?_
    | with_reducible refine (kept_foldl_snd _ ?_ _ _).trans ?_
    | with_reducible refine (kept_foldl_fst _ ?_ _ _).trans ?_
    | with_reducible refine (kept_foldl_snd2 _ ?_ _ _).trans ?_
    | with_reducible refine (State.regWrite_kept _ _ _ _ _ _ ?_).trans ?_
    | with_reducible refine (hf _).trans ?_
    | with_reducible refine (kept_snd (by assumption)).trans ?_
    | with_reducible refine (kept_snd2 (by assumption)).trans ?_
    | with_reducible refine (kept_snd3 (by assumption)).trans ?_
    | with_reducible refine (kept_fst (by assumption)).trans ?_
    | with_reducible refine kept_of_some (by assumption) ?_
    | simp (maxDischargeDepth := 6) [hf]
    | dsimp only
    | simp (maxDischargeDepth := 6) +zetaDelta [hf]

end Sys2Proof.Machine
end

