-- ==== Sys2Proof/Laws/KeptKeys.lean ====
section
/-! SUPPORT. The operations of Keys keep the queue and the OTP areas. -/

set_option linter.unusedSimpArgs false
set_option linter.unusedTactic false
set_option linter.unreachableTactic false
set_option linter.unusedVariables false

namespace Sys2Proof.Machine
open Sys2Proof

@[simp] theorem State.cellPut_kept (s : State) (id : CellId) (parent : Option CellId) (key : List Byte) :
    (State.cellPut s id parent key).kept = s.kept := by
  unfold State.cellPut
  simp (maxDischargeDepth := 6)

@[simp] theorem State.zeroCounters_kept (s : State) (i : ℕ) (receive : Bool) :
    (State.zeroCounters s i receive).kept = s.kept := by
  unfold State.zeroCounters
  simp (maxDischargeDepth := 6)

@[simp] theorem State.cellDrop_kept (s : State) (id : CellId) :
    (State.cellDrop s id).kept = s.kept := by
  unfold State.cellDrop
  repeat' first
    | (simp (maxDischargeDepth := 6); done)
    | split
    | simp (maxDischargeDepth := 6)

@[simp] theorem State.sweepOrphans_kept (s : State) :
    (State.sweepOrphans s).kept = s.kept := by
  unfold State.sweepOrphans
  simp (maxDischargeDepth := 6)

@[simp] theorem State.expandCell_kept (s : State) (id : CellId) (parent : CellId) (info : List Byte) (l : ℕ) :
    (State.expandCell s id parent info l).kept = s.kept := by
  unfold State.expandCell
  repeat' first
    | (simp (maxDischargeDepth := 6); done)
    | split
    | simp (maxDischargeDepth := 6)

@[simp] theorem State.nonce_kept (s : State) :
    (State.nonce s).2.kept = s.kept := by
  unfold State.nonce
  simp (maxDischargeDepth := 6)

@[simp] theorem State.sign_kept (s : State) (id : CellId) (m : List Byte) :
    (State.sign s id m).2.kept = s.kept := by
  unfold State.sign
  repeat' first
    | (simp (maxDischargeDepth := 6); done)
    | split
    | simp (maxDischargeDepth := 6)

@[simp] theorem State.kidSettle_kept (s : State) :
    (State.kidSettle s).kept = s.kept := by
  unfold State.kidSettle
  simp (maxDischargeDepth := 6)

@[simp] theorem State.bindKid_kept (s : State) (k : ℕ) (d : Option ℕ) :
    (State.bindKid s k d).kept = s.kept := by
  unfold State.bindKid
  simp (maxDischargeDepth := 6)

end Sys2Proof.Machine
end

