-- ==== Sys2Proof/Laws/KeptQueueOps.lean ====
section
/-! SUPPORT. The operations of QueueOps keep the queue and the OTP areas. -/

set_option linter.unusedSimpArgs false
set_option linter.unusedTactic false
set_option linter.unreachableTactic false
set_option linter.unusedVariables false

namespace Sys2Proof.Machine
open Sys2Proof

@[simp] theorem State.objHold_kept (s : State) (i : ℕ) (e : ℕ) :
    (State.objHold s i e).kept = s.kept := by
  unfold State.objHold
  simp (maxDischargeDepth := 6)

@[simp] theorem State.objDrop_kept (s : State) (i : ℕ) (e : ℕ) :
    (State.objDrop s i e).kept = s.kept := by
  unfold State.objDrop
  simp (maxDischargeDepth := 6)

@[simp] theorem State.revokeAllObjs_kept (s : State) (i : ℕ) :
    (State.revokeAllObjs s i).kept = s.kept := by
  unfold State.revokeAllObjs
  simp (maxDischargeDepth := 6)

@[simp] theorem State.modCmd_kept (s : State) (i : ℕ) (q : ℕ) (seq : ℕ) (f : Cmd → Cmd) :
    (State.modCmd s i q seq f).kept = s.kept := by
  unfold State.modCmd
  simp (maxDischargeDepth := 6)

@[simp] theorem State.finishCmd_kept (s : State) (i : ℕ) (q : ℕ) (seq : ℕ) (st : ℕ) (dt : ℕ) :
    (State.finishCmd s i q seq st dt).kept = s.kept := by
  unfold State.finishCmd
  simp (maxDischargeDepth := 6)

@[simp] theorem State.dropWait_kept (s : State) (w : Waiter) :
    (State.dropWait s w).kept = s.kept := by
  unfold State.dropWait
  simp (maxDischargeDepth := 6)

@[simp] theorem State.queueFlit_kept (s : State) (link : ℕ) (f : WaitFlit) :
    (State.queueFlit s link f).kept = s.kept := by
  unfold State.queueFlit
  simp (maxDischargeDepth := 6)

@[simp] theorem State.sendColCtl_kept (s : State) (link : ℕ) (dslot : ℕ) (peer : ℕ) (stream : ℕ) (run : ℕ) (op : ℕ) (value : ℕ) :
    (State.sendColCtl s link dslot peer stream run op value).kept = s.kept := by
  unfold State.sendColCtl
  simp (maxDischargeDepth := 6)

@[simp] theorem State.endRun_kept (s : State) (k : ℕ) (st : ℕ) (dt : ℕ) :
    (State.endRun s k st dt).kept = s.kept := by
  unfold State.endRun
  simp (maxDischargeDepth := 6)

@[simp] theorem State.stopCmd_kept (s : State) (i : ℕ) (q : ℕ) (c : Cmd) (kind : ℕ) (dt : ℕ) :
    (State.stopCmd s i q c kind dt).kept = s.kept := by
  unfold State.stopCmd
  simp (maxDischargeDepth := 6)

@[simp] theorem State.squashQueue_kept (s : State) (i : ℕ) (q : ℕ) (dt : ℕ) (cause : ℕ) :
    (State.squashQueue s i q dt cause).kept = s.kept := by
  unfold State.squashQueue
  simp (maxDischargeDepth := 6)

@[simp] theorem State.squashSlice_kept (s : State) (i : ℕ) (dt : ℕ) (cause : ℕ) :
    (State.squashSlice s i dt cause).kept = s.kept := by
  unfold State.squashSlice
  simp (maxDischargeDepth := 6)

@[simp] theorem State.disableQueue_kept (s : State) (i : ℕ) (q : ℕ) :
    (State.disableQueue s i q).kept = s.kept := by
  unfold State.disableQueue
  simp (maxDischargeDepth := 6)

end Sys2Proof.Machine
end

