-- ==== Sys2Proof/Laws/KeptSlots.lean ====
section
/-! SUPPORT. The operations of Slots keep the queue and the OTP areas. -/

set_option linter.unusedSimpArgs false
set_option linter.unusedTactic false
set_option linter.unreachableTactic false
set_option linter.unusedVariables false

namespace Sys2Proof.Machine
open Sys2Proof

@[simp] theorem State.moveSlot_kept (s : State) (i : ℕ) (st : SlotState) (cause : SlotCause) :
    (State.moveSlot s i st cause).kept = s.kept := by
  unfold State.moveSlot
  simp (maxDischargeDepth := 6)

@[simp] theorem State.closeWin_kept (s : State) (w : ℕ) :
    (State.closeWin s w).kept = s.kept := by
  unfold State.closeWin
  simp (maxDischargeDepth := 6)

@[simp] theorem State.closeWins_kept (s : State) (p : Win → Bool) :
    (State.closeWins s p).kept = s.kept := by
  unfold State.closeWins
  simp (maxDischargeDepth := 6)

@[simp] theorem State.closeWinsOf_kept (s : State) (i : ℕ) (e : ℕ) :
    (State.closeWinsOf s i e).kept = s.kept := by
  unfold State.closeWinsOf
  simp (maxDischargeDepth := 6)

@[simp] theorem State.freeObj_kept (s : State) (i : ℕ) (e : ℕ) :
    (State.freeObj s i e).kept = s.kept := by
  unfold State.freeObj
  simp (maxDischargeDepth := 6)

@[simp] theorem State.revokeAll_kept (s : State) (i : ℕ) :
    (State.revokeAll s i).kept = s.kept := by
  unfold State.revokeAll
  simp (maxDischargeDepth := 6)

@[simp] theorem State.disarm_kept (s : State) (n : ℕ) :
    (State.disarm s n).kept = s.kept := by
  unfold State.disarm
  simp (maxDischargeDepth := 6)

@[simp] theorem State.disarmAll_kept (s : State) (p : Watch → Bool) :
    (State.disarmAll s p).kept = s.kept := by
  unfold State.disarmAll
  simp (maxDischargeDepth := 6)

@[simp] theorem State.zeroPages_kept (s : State) (p : ℕ → Bool) :
    (State.zeroPages s p).kept = s.kept := by
  unfold State.zeroPages
  simp (maxDischargeDepth := 6)

@[simp] theorem State.squashSlot_kept (s : State) (i : ℕ) (dt : ℕ) (cause : ℕ) :
    (State.squashSlot s i dt cause).kept = s.kept := by
  unfold State.squashSlot
  simp (maxDischargeDepth := 6)

@[simp] theorem State.quarantine_kept (s : State) (i : ℕ) (cause : SlotCause) :
    (State.quarantine s i cause).kept = s.kept := by
  unfold State.quarantine
  simp (maxDischargeDepth := 6)

@[simp] theorem State.clearSiteWinsOf_kept (s : State) (p : ℕ → Bool) :
    (State.clearSiteWinsOf s p).kept = s.kept := by
  unfold State.clearSiteWinsOf
  simp (maxDischargeDepth := 6)

@[simp] theorem State.dropHeldFlags_kept (s : State) (i : ℕ) :
    (State.dropHeldFlags s i).kept = s.kept := by
  unfold State.dropHeldFlags
  repeat' first
    | (simp (maxDischargeDepth := 6); done)
    | (simp (maxDischargeDepth := 6) +zetaDelta; done)
    | with_reducible refine Eq.trans (by assumption) ?_
    | intro _
    | split
    | simp (maxDischargeDepth := 6) only [kept_ite, kept_ite_snd, kept_ite_fst, kept_ite_snd2, kept_ite_snd3]
    | with_reducible refine (kept_foldl _ ?_ _ _).trans ?_
    | with_reducible refine (kept_foldl_snd _ ?_ _ _).trans ?_
    | with_reducible refine (kept_foldl_fst _ ?_ _ _).trans ?_
    | with_reducible refine (kept_foldl_snd2 _ ?_ _ _).trans ?_
    | with_reducible refine (kept_snd (by assumption)).trans ?_
    | with_reducible refine (kept_snd2 (by assumption)).trans ?_
    | with_reducible refine (kept_snd3 (by assumption)).trans ?_
    | with_reducible refine (kept_fst (by assumption)).trans ?_
    | with_reducible refine kept_of_some (by assumption) ?_
    | simp (maxDischargeDepth := 6)
    | dsimp only
    | simp (maxDischargeDepth := 6) +zetaDelta

@[simp] theorem State.answerWaiting_kept (s : State) (i : ℕ) :
    (State.answerWaiting s i).kept = s.kept := by
  unfold State.answerWaiting
  repeat' first
    | (simp (maxDischargeDepth := 6); done)
    | (simp (maxDischargeDepth := 6) +zetaDelta; done)
    | with_reducible refine Eq.trans (by assumption) ?_
    | intro _
    | split
    | simp (maxDischargeDepth := 6) only [kept_ite, kept_ite_snd, kept_ite_fst, kept_ite_snd2, kept_ite_snd3]
    | with_reducible refine (kept_foldl _ ?_ _ _).trans ?_
    | with_reducible refine (kept_foldl_snd _ ?_ _ _).trans ?_
    | with_reducible refine (kept_foldl_fst _ ?_ _ _).trans ?_
    | with_reducible refine (kept_foldl_snd2 _ ?_ _ _).trans ?_
    | with_reducible refine (kept_snd (by assumption)).trans ?_
    | with_reducible refine (kept_snd2 (by assumption)).trans ?_
    | with_reducible refine (kept_snd3 (by assumption)).trans ?_
    | with_reducible refine (kept_fst (by assumption)).trans ?_
    | with_reducible refine kept_of_some (by assumption) ?_
    | simp (maxDischargeDepth := 6)
    | dsimp only
    | simp (maxDischargeDepth := 6) +zetaDelta

@[simp] theorem State.teardownSteps12_kept (s : State) (i : ℕ) :
    (State.teardownSteps12 s i).kept = s.kept := by
  unfold State.teardownSteps12
  simp (maxDischargeDepth := 6)

@[simp] theorem State.enterTeardown_kept (s : State) (i : ℕ) (cause : SlotCause) :
    (State.enterTeardown s i cause).kept = s.kept := by
  unfold State.enterTeardown
  simp (maxDischargeDepth := 6)

@[simp] theorem State.respond_kept (s : State) (i : ℕ) (cls : ℕ) (count : ℕ) (resp : ℕ) :
    (State.respond s i cls count resp).kept = s.kept := by
  unfold State.respond
  simp (maxDischargeDepth := 6)

@[simp] theorem State.countAlarm_kept (s : State) (i : ℕ) (cls : ℕ) :
    (State.countAlarm s i cls).kept = s.kept := by
  unfold State.countAlarm
  repeat' first
    | (simp (maxDischargeDepth := 6); done)
    | (simp (maxDischargeDepth := 6) +zetaDelta; done)
    | with_reducible refine Eq.trans (by assumption) ?_
    | intro _
    | split
    | simp (maxDischargeDepth := 6) only [kept_ite, kept_ite_snd, kept_ite_fst, kept_ite_snd2, kept_ite_snd3]
    | with_reducible refine (kept_foldl _ ?_ _ _).trans ?_
    | with_reducible refine (kept_foldl_snd _ ?_ _ _).trans ?_
    | with_reducible refine (kept_foldl_fst _ ?_ _ _).trans ?_
    | with_reducible refine (kept_foldl_snd2 _ ?_ _ _).trans ?_
    | with_reducible refine (kept_snd (by assumption)).trans ?_
    | with_reducible refine (kept_snd2 (by assumption)).trans ?_
    | with_reducible refine (kept_snd3 (by assumption)).trans ?_
    | with_reducible refine (kept_fst (by assumption)).trans ?_
    | with_reducible refine kept_of_some (by assumption) ?_
    | simp (maxDischargeDepth := 6)
    | dsimp only
    | simp (maxDischargeDepth := 6) +zetaDelta

@[simp] theorem State.alarm_kept (s : State) (cls : ℕ) (slot : Option ℕ) :
    (State.alarm s cls slot).kept = s.kept := by
  unfold State.alarm
  repeat' first
    | (simp (maxDischargeDepth := 6); done)
    | (simp (maxDischargeDepth := 6) +zetaDelta; done)
    | with_reducible refine Eq.trans (by assumption) ?_
    | intro _
    | split
    | simp (maxDischargeDepth := 6) only [kept_ite, kept_ite_snd, kept_ite_fst, kept_ite_snd2, kept_ite_snd3]
    | with_reducible refine (kept_foldl _ ?_ _ _).trans ?_
    | with_reducible refine (kept_foldl_snd _ ?_ _ _).trans ?_
    | with_reducible refine (kept_foldl_fst _ ?_ _ _).trans ?_
    | with_reducible refine (kept_foldl_snd2 _ ?_ _ _).trans ?_
    | with_reducible refine (kept_snd (by assumption)).trans ?_
    | with_reducible refine (kept_snd2 (by assumption)).trans ?_
    | with_reducible refine (kept_snd3 (by assumption)).trans ?_
    | with_reducible refine (kept_fst (by assumption)).trans ?_
    | with_reducible refine kept_of_some (by assumption) ?_
    | simp (maxDischargeDepth := 6)
    | dsimp only
    | simp (maxDischargeDepth := 6) +zetaDelta

@[simp] theorem State.alarmLost_kept (s : State) (slot : Option ℕ) (subtree : ℕ) :
    (State.alarmLost s slot subtree).kept = s.kept := by
  unfold State.alarmLost
  repeat' first
    | (simp (maxDischargeDepth := 6); done)
    | split
    | simp (maxDischargeDepth := 6)

@[simp] theorem State.measureAlarm_kept (s : State) (i : ℕ) :
    (State.measureAlarm s i).kept = s.kept := by
  unfold State.measureAlarm
  simp (maxDischargeDepth := 6)

@[simp] theorem State.teardownAll_kept (s : State) (cls : ℕ) (cause : SlotCause) :
    (State.teardownAll s cls cause).kept = s.kept := by
  unfold State.teardownAll
  simp (maxDischargeDepth := 6)

@[simp] theorem State.memberLost_kept (s : State) (slot : Option ℕ) (node : ℕ) (member : ℕ) :
    (State.memberLost s slot node member).kept = s.kept := by
  unfold State.memberLost
  repeat' first
    | (simp (maxDischargeDepth := 6); done)
    | split
    | simp (maxDischargeDepth := 6)

@[simp] theorem State.shareFault_kept (s : State) (id : CellId) :
    (State.shareFault s id).kept = s.kept := by
  unfold State.shareFault
  repeat' first
    | (simp (maxDischargeDepth := 6); done)
    | split
    | simp (maxDischargeDepth := 6)

@[simp] theorem State.useCell_kept (s : State) (id : CellId) :
    (State.useCell s id).kept = s.kept := by
  unfold State.useCell
  repeat' first
    | (simp (maxDischargeDepth := 6); done)
    | (simp (maxDischargeDepth := 6) +zetaDelta; done)
    | with_reducible refine Eq.trans (by assumption) ?_
    | intro _
    | split
    | simp (maxDischargeDepth := 6) only [kept_ite, kept_ite_snd, kept_ite_fst, kept_ite_snd2, kept_ite_snd3]
    | with_reducible refine (kept_foldl _ ?_ _ _).trans ?_
    | with_reducible refine (kept_foldl_snd _ ?_ _ _).trans ?_
    | with_reducible refine (kept_foldl_fst _ ?_ _ _).trans ?_
    | with_reducible refine (kept_foldl_snd2 _ ?_ _ _).trans ?_
    | with_reducible refine (kept_snd (by assumption)).trans ?_
    | with_reducible refine (kept_snd2 (by assumption)).trans ?_
    | with_reducible refine (kept_snd3 (by assumption)).trans ?_
    | with_reducible refine (kept_fst (by assumption)).trans ?_
    | with_reducible refine kept_of_some (by assumption) ?_
    | simp (maxDischargeDepth := 6)
    | dsimp only
    | simp (maxDischargeDepth := 6) +zetaDelta

end Sys2Proof.Machine
end

