-- ==== Sys2Proof/Laws/KeptWitness.lean ====
section
/-! SUPPORT. The operations of Witness keep the queue and the OTP areas. -/

set_option linter.unusedSimpArgs false
set_option linter.unusedTactic false
set_option linter.unreachableTactic false
set_option linter.unusedVariables false

namespace Sys2Proof.Machine
open Sys2Proof

@[simp] theorem State.count_kept (s : State) (slice : ℕ) (i : ℕ) (n : ℕ) :
    (State.count s slice i n).kept = s.kept := by
  unfold State.count
  simp (maxDischargeDepth := 6)

@[simp] theorem State.light_kept (s : State) (k : ℕ) (n : ℕ) :
    (State.light s k n).kept = s.kept := by
  unfold State.light
  simp (maxDischargeDepth := 6)

@[simp] theorem State.priv_kept (s : State) (i : ℕ) (n : ℕ) :
    (State.priv s i n).kept = s.kept := by
  unfold State.priv
  simp (maxDischargeDepth := 6)

@[simp] theorem State.passSeats_kept (s : State) (arb : ℕ) (n : ℕ) (v : ℕ) :
    (State.passSeats s arb n v).kept = s.kept := by
  unfold State.passSeats
  repeat' first
    | (simp (maxDischargeDepth := 6); done)
    | (simp (maxDischargeDepth := 6) +zetaDelta; done)
    | with_reducible refine Eq.trans (by assumption) ?_
    | intro _
    | split
    | simp (maxDischargeDepth := 6) only [kept_ite, kept_ite_snd, kept_ite_fst, kept_ite_snd2, kept_ite_snd3]
    | with_reducible refine (kept_foldl _ ?_ _ _).trans ?_
    | with_reducible refine (kept_foldl_snd _ ?_ _ _).trans ?_
    | with_reducible refine (kept_foldl_fst _ ?_ _ _).trans ?_
    | with_reducible refine (kept_foldl_snd2 _ ?_ _ _).trans ?_
    | with_reducible refine (kept_snd (by assumption)).trans ?_
    | with_reducible refine (kept_snd2 (by assumption)).trans ?_
    | with_reducible refine (kept_snd3 (by assumption)).trans ?_
    | with_reducible refine (kept_fst (by assumption)).trans ?_
    | with_reducible refine kept_of_some (by assumption) ?_
    | simp (maxDischargeDepth := 6)
    | dsimp only
    | simp (maxDischargeDepth := 6) +zetaDelta

@[simp] theorem State.foreSlots_kept (s : State) (arb : ℕ) (n : ℕ) (v : ℕ) :
    (State.foreSlots s arb n v).kept = s.kept := by
  unfold State.foreSlots
  repeat' first
    | (simp (maxDischargeDepth := 6); done)
    | (simp (maxDischargeDepth := 6) +zetaDelta; done)
    | with_reducible refine Eq.trans (by assumption) ?_
    | intro _
    | split
    | simp (maxDischargeDepth := 6) only [kept_ite, kept_ite_snd, kept_ite_fst, kept_ite_snd2, kept_ite_snd3]
    | with_reducible refine (kept_foldl _ ?_ _ _).trans ?_
    | with_reducible refine (kept_foldl_snd _ ?_ _ _).trans ?_
    | with_reducible refine (kept_foldl_fst _ ?_ _ _).trans ?_
    | with_reducible refine (kept_foldl_snd2 _ ?_ _ _).trans ?_
    | with_reducible refine (kept_snd (by assumption)).trans ?_
    | with_reducible refine (kept_snd2 (by assumption)).trans ?_
    | with_reducible refine (kept_snd3 (by assumption)).trans ?_
    | with_reducible refine (kept_fst (by assumption)).trans ?_
    | with_reducible refine kept_of_some (by assumption) ?_
    | simp (maxDischargeDepth := 6)
    | dsimp only
    | simp (maxDischargeDepth := 6) +zetaDelta

@[simp] theorem State.slots_kept (s : State) (arb : ℕ) (n : ℕ) (bg : Bool) :
    (State.slots s arb n bg).kept = s.kept := by
  unfold State.slots
  simp (maxDischargeDepth := 6)

@[simp] theorem State.tapWrite_kept (s : State) (kind : ℕ) (base : ℕ) (kid : ℕ) (cls : ℕ) (data : Line) :
    (State.tapWrite s kind base kid cls data).kept = s.kept := by
  unfold State.tapWrite
  simp (maxDischargeDepth := 6)

end Sys2Proof.Machine
end

