-- ==== Sys2Proof/Laws/KeptSealed.lean ====
section
/-! SUPPORT. The operations of Sealed keep the queue and the OTP areas. -/

set_option linter.unusedSimpArgs false
set_option linter.unusedTactic false
set_option linter.unreachableTactic false
set_option linter.unusedVariables false

namespace Sys2Proof.Machine
open Sys2Proof

@[simp] theorem State.fetched_kept (s : State) (src : Src) (a : ℕ) :
    (State.fetched s src a).kept = s.kept := by
  unfold State.fetched
  repeat' first
    | (simp (maxDischargeDepth := 6); done)
    | (simp (maxDischargeDepth := 6) +zetaDelta; done)
    | with_reducible refine Eq.trans (by assumption) ?_
    | intro _
    | split
    | simp (maxDischargeDepth := 6) only [kept_ite, kept_ite_snd, kept_ite_fst, kept_ite_snd2, kept_ite_snd3]
    | with_reducible refine (kept_foldl _ ?_ _ _).trans ?_
    | with_reducible refine (kept_foldl_snd _ ?_ _ _).trans ?_
    | with_reducible refine (kept_foldl_fst _ ?_ _ _).trans ?_
    | with_reducible refine (kept_foldl_snd2 _ ?_ _ _).trans ?_
    | with_reducible refine (kept_snd (by assumption)).trans ?_
    | with_reducible refine (kept_snd2 (by assumption)).trans ?_
    | with_reducible refine (kept_snd3 (by assumption)).trans ?_
    | with_reducible refine (kept_fst (by assumption)).trans ?_
    | with_reducible refine kept_of_some (by assumption) ?_
    | simp (maxDischargeDepth := 6)
    | dsimp only
    | simp (maxDischargeDepth := 6) +zetaDelta

@[simp] theorem State.hbmWrite_kept (s : State) (a : ℕ) (d : Line) (m : BitVec 64) :
    (State.hbmWrite s a d m).kept = s.kept := by
  unfold State.hbmWrite
  simp (maxDischargeDepth := 6)

@[simp] theorem State.checkFail_kept (s : State) (addr : ℕ) (row : ℕ) :
    (State.checkFail s addr row).kept = s.kept := by
  unfold State.checkFail
  simp (maxDischargeDepth := 6)

@[simp] theorem State.macFailed_kept (s : State) (ri : ℕ) :
    (State.macFailed s ri).kept = s.kept := by
  unfold State.macFailed
  simp (maxDischargeDepth := 6)

@[simp] theorem State.readPoisoned_kept (s : State) (ri : ℕ) :
    (State.readPoisoned s ri).kept = s.kept := by
  unfold State.readPoisoned
  simp (maxDischargeDepth := 6)

@[simp] theorem State.poisonedAt_kept (s : State) (addr : ℕ) :
    (State.poisonedAt s addr).kept = s.kept := by
  unfold State.poisonedAt
  repeat' first
    | (simp (maxDischargeDepth := 6); done)
    | (simp (maxDischargeDepth := 6) +zetaDelta; done)
    | with_reducible refine Eq.trans (by assumption) ?_
    | intro _
    | split
    | simp (maxDischargeDepth := 6) only [kept_ite, kept_ite_snd, kept_ite_fst, kept_ite_snd2, kept_ite_snd3]
    | with_reducible refine (kept_foldl _ ?_ _ _).trans ?_
    | with_reducible refine (kept_foldl_snd _ ?_ _ _).trans ?_
    | with_reducible refine (kept_foldl_fst _ ?_ _ _).trans ?_
    | with_reducible refine (kept_foldl_snd2 _ ?_ _ _).trans ?_
    | with_reducible refine (kept_snd (by assumption)).trans ?_
    | with_reducible refine (kept_snd2 (by assumption)).trans ?_
    | with_reducible refine (kept_snd3 (by assumption)).trans ?_
    | with_reducible refine (kept_fst (by assumption)).trans ?_
    | with_reducible refine kept_of_some (by assumption) ?_
    | simp (maxDischargeDepth := 6)
    | dsimp only
    | simp (maxDischargeDepth := 6) +zetaDelta

@[simp] theorem State.memErr_kept (s : State) (u : ℕ) (c : ℕ) (d : ℕ) (m : ℕ) :
    (State.memErr s u c d m).kept = s.kept := by
  unfold State.memErr
  simp (maxDischargeDepth := 6)

@[simp] theorem State.setCached_kept (s : State) (a : ℕ) (c : Option Cached) :
    (State.setCached s a c).kept = s.kept := by
  unfold State.setCached
  simp (maxDischargeDepth := 6)

end Sys2Proof.Machine
end

