-- ==== Sys2Proof/Laws/KeptDraught.lean ====
section
/-! SUPPORT. The operations of Draught keep the queue and the OTP areas. -/

set_option linter.unusedSimpArgs false
set_option linter.unusedTactic false
set_option linter.unreachableTactic false
set_option linter.unusedVariables false

namespace Sys2Proof.Machine
open Sys2Proof

@[simp] theorem State.setScrub_kept (s : State) (u : ℕ) (v : Scrub) :
    (State.setScrub s u v).kept = s.kept := by
  unfold State.setScrub
  simp (maxDischargeDepth := 6)

@[simp] theorem State.bgTaken_kept (s : State) (cls : ℕ) (id : ℕ) :
    (State.bgTaken s cls id).kept = s.kept := by
  unfold State.bgTaken
  repeat' first
    | (simp (maxDischargeDepth := 6); done)
    | (simp (maxDischargeDepth := 6) +zetaDelta; done)
    | with_reducible refine Eq.trans (by assumption) ?_
    | intro _
    | split
    | simp (maxDischargeDepth := 6) only [kept_ite, kept_ite_snd, kept_ite_fst, kept_ite_snd2, kept_ite_snd3]
    | with_reducible refine (kept_foldl _ ?_ _ _).trans ?_
    | with_reducible refine (kept_foldl_snd _ ?_ _ _).trans ?_
    | with_reducible refine (kept_foldl_fst _ ?_ _ _).trans ?_
    | with_reducible refine (kept_foldl_snd2 _ ?_ _ _).trans ?_
    | with_reducible refine (kept_snd (by assumption)).trans ?_
    | with_reducible refine (kept_snd2 (by assumption)).trans ?_
    | with_reducible refine (kept_snd3 (by assumption)).trans ?_
    | with_reducible refine (kept_fst (by assumption)).trans ?_
    | with_reducible refine kept_of_some (by assumption) ?_
    | simp (maxDischargeDepth := 6)
    | dsimp only
    | simp (maxDischargeDepth := 6) +zetaDelta

@[simp] theorem State.takeSlot_kept (s : State) (a : ℕ) (t : Tag) :
    (State.takeSlot s a t).kept = s.kept := by
  unfold State.takeSlot
  repeat' first
    | (simp (maxDischargeDepth := 6); done)
    | (simp (maxDischargeDepth := 6) +zetaDelta; done)
    | with_reducible refine Eq.trans (by assumption) ?_
    | intro _
    | split
    | simp (maxDischargeDepth := 6) only [kept_ite, kept_ite_snd, kept_ite_fst, kept_ite_snd2, kept_ite_snd3]
    | with_reducible refine (kept_foldl _ ?_ _ _).trans ?_
    | with_reducible refine (kept_foldl_snd _ ?_ _ _).trans ?_
    | with_reducible refine (kept_foldl_fst _ ?_ _ _).trans ?_
    | with_reducible refine (kept_foldl_snd2 _ ?_ _ _).trans ?_
    | with_reducible refine (kept_snd (by assumption)).trans ?_
    | with_reducible refine (kept_snd2 (by assumption)).trans ?_
    | with_reducible refine (kept_snd3 (by assumption)).trans ?_
    | with_reducible refine (kept_fst (by assumption)).trans ?_
    | with_reducible refine kept_of_some (by assumption) ?_
    | simp (maxDischargeDepth := 6)
    | dsimp only
    | simp (maxDischargeDepth := 6) +zetaDelta

end Sys2Proof.Machine
end

