-- ==== Sys2Proof/Laws/KeptTree.lean ====
section
/-! SUPPORT. The operations of Tree keep the queue and the OTP areas. -/

set_option linter.unusedSimpArgs false
set_option linter.unusedTactic false
set_option linter.unreachableTactic false
set_option linter.unusedVariables false

namespace Sys2Proof.Machine
open Sys2Proof

@[simp] theorem State.touch_kept (s : State) (a : ℕ) (c : Cached) :
    (State.touch s a c).kept = s.kept := by
  unfold State.touch
  simp (maxDischargeDepth := 6)

@[simp] theorem State.cachePut_kept (s : State) (ri : ℕ) (level : ℕ) (j : ℕ) (d : Line) (dirty : Bool) :
    (State.cachePut s ri level j d dirty).kept = s.kept := by
  unfold State.cachePut
  simp (maxDischargeDepth := 6)

@[simp] theorem State.setRoot_kept (s : State) (ri : ℕ) (v : Line) :
    (State.setRoot s ri v).kept = s.kept := by
  unfold State.setRoot
  simp (maxDischargeDepth := 6)

@[simp] theorem State.modParent_kept (s : State) (ri : ℕ) (level : ℕ) (j : ℕ) (f : Line → ℕ → Line) :
    (State.modParent s ri level j f).kept = s.kept := by
  unfold State.modParent
  repeat' first
    | (simp (maxDischargeDepth := 6); done)
    | split
    | simp (maxDischargeDepth := 6)

@[simp] theorem State.dropCached_kept (s : State) (p : Cached → Bool) :
    (State.dropCached s p).kept = s.kept := by
  unfold State.dropCached
  simp (maxDischargeDepth := 6)

@[simp] theorem State.dropBelow_kept (s : State) (ri : ℕ) (level : ℕ) (j : ℕ) :
    (State.dropBelow s ri level j).kept = s.kept := by
  unfold State.dropBelow
  repeat' first
    | (simp (maxDischargeDepth := 6); done)
    | (simp (maxDischargeDepth := 6) +zetaDelta; done)
    | with_reducible refine Eq.trans (by assumption) ?_
    | intro _
    | split
    | simp (maxDischargeDepth := 6) only [kept_ite, kept_ite_snd, kept_ite_fst, kept_ite_snd2, kept_ite_snd3]
    | with_reducible refine (kept_foldl _ ?_ _ _).trans ?_
    | with_reducible refine (kept_foldl_snd _ ?_ _ _).trans ?_
    | with_reducible refine (kept_foldl_fst _ ?_ _ _).trans ?_
    | with_reducible refine (kept_foldl_snd2 _ ?_ _ _).trans ?_
    | with_reducible refine (kept_snd (by assumption)).trans ?_
    | with_reducible refine (kept_snd2 (by assumption)).trans ?_
    | with_reducible refine (kept_snd3 (by assumption)).trans ?_
    | with_reducible refine (kept_fst (by assumption)).trans ?_
    | with_reducible refine kept_of_some (by assumption) ?_
    | simp (maxDischargeDepth := 6)
    | dsimp only
    | simp (maxDischargeDepth := 6) +zetaDelta

@[simp] theorem State.setLost_kept (s : State) (ri : ℕ) (level : ℕ) (j : ℕ) :
    (State.setLost s ri level j).kept = s.kept := by
  unfold State.setLost
  simp (maxDischargeDepth := 6)

@[simp] theorem State.rootLost_kept (s : State) (ri : ℕ) :
    (State.rootLost s ri).kept = s.kept := by
  unfold State.rootLost
  repeat' first
    | (simp (maxDischargeDepth := 6); done)
    | (simp (maxDischargeDepth := 6) +zetaDelta; done)
    | with_reducible refine Eq.trans (by assumption) ?_
    | intro _
    | split
    | simp (maxDischargeDepth := 6) only [kept_ite, kept_ite_snd, kept_ite_fst, kept_ite_snd2, kept_ite_snd3]
    | with_reducible refine (kept_foldl _ ?_ _ _).trans ?_
    | with_reducible refine (kept_foldl_snd _ ?_ _ _).trans ?_
    | with_reducible refine (kept_foldl_fst _ ?_ _ _).trans ?_
    | with_reducible refine (kept_foldl_snd2 _ ?_ _ _).trans ?_
    | with_reducible refine (kept_snd (by assumption)).trans ?_
    | with_reducible refine (kept_snd2 (by assumption)).trans ?_
    | with_reducible refine (kept_snd3 (by assumption)).trans ?_
    | with_reducible refine (kept_fst (by assumption)).trans ?_
    | with_reducible refine kept_of_some (by assumption) ?_
    | simp (maxDischargeDepth := 6)
    | dsimp only
    | simp (maxDischargeDepth := 6) +zetaDelta

@[simp] theorem State.rootFault_kept (s : State) (ri : ℕ) :
    (State.rootFault s ri).kept = s.kept := by
  unfold State.rootFault
  simp (maxDischargeDepth := 6)

@[simp] theorem State.itemUnder_kept (src : Src) (s : State) (ri : ℕ) (level : ℕ) (j : ℕ) (p : Line) :
    (State.itemUnder src s ri level j p).2.kept = s.kept := by
  unfold State.itemUnder
  repeat' first
    | (simp (maxDischargeDepth := 6); done)
    | (simp (maxDischargeDepth := 6) +zetaDelta; done)
    | with_reducible refine Eq.trans (by assumption) ?_
    | intro _
    | split
    | simp (maxDischargeDepth := 6) only [kept_ite, kept_ite_snd, kept_ite_fst, kept_ite_snd2, kept_ite_snd3]
    | with_reducible refine (kept_foldl _ ?_ _ _).trans ?_
    | with_reducible refine (kept_foldl_snd _ ?_ _ _).trans ?_
    | with_reducible refine (kept_foldl_fst _ ?_ _ _).trans ?_
    | with_reducible refine (kept_foldl_snd2 _ ?_ _ _).trans ?_
    | with_reducible refine (kept_snd (by assumption)).trans ?_
    | with_reducible refine (kept_snd2 (by assumption)).trans ?_
    | with_reducible refine (kept_snd3 (by assumption)).trans ?_
    | with_reducible refine (kept_fst (by assumption)).trans ?_
    | with_reducible refine kept_of_some (by assumption) ?_
    | simp (maxDischargeDepth := 6)
    | dsimp only
    | simp (maxDischargeDepth := 6) +zetaDelta

@[simp] theorem State.item_kept (src : Src) (ri : ℕ) (a : ℕ) (a1 : ℕ) (a11 : ℕ) (a111 : State) :
    (State.item src ri a a1 a11 a111).2.kept = a111.kept := by
  fun_induction State.item src ri a a1 a11 a111 <;> first
    | rfl
    | (simp (maxDischargeDepth := 6); done)
    | (repeat' first
        | (simp (maxDischargeDepth := 6); done)
        | (simp (maxDischargeDepth := 6) +zetaDelta; done)
        | with_reducible refine Eq.trans (by assumption) ?_
        | intro _
        | split
        | simp (maxDischargeDepth := 6) only [kept_ite, kept_ite_snd, kept_ite_fst, kept_ite_snd2, kept_ite_snd3]
        | with_reducible refine (kept_foldl _ ?_ _ _).trans ?_
        | with_reducible refine (kept_foldl_snd _ ?_ _ _).trans ?_
        | with_reducible refine (kept_foldl_fst _ ?_ _ _).trans ?_
        | with_reducible refine (kept_foldl_snd2 _ ?_ _ _).trans ?_
        | with_reducible refine (kept_snd (by assumption)).trans ?_
        | with_reducible refine (kept_snd2 (by assumption)).trans ?_
        | with_reducible refine (kept_snd3 (by assumption)).trans ?_
        | with_reducible refine (kept_fst (by assumption)).trans ?_
        | with_reducible refine kept_of_some (by assumption) ?_
        | simp (maxDischargeDepth := 6)
        | dsimp only
        | simp (maxDischargeDepth := 6) +zetaDelta)

@[simp] theorem State.itemNow_kept (s : State) (ri : ℕ) (level : ℕ) (j : ℕ) :
    (State.itemNow s ri level j).2.kept = s.kept := by
  unfold State.itemNow
  simp (maxDischargeDepth := 6)

@[simp] theorem State.build_kept (ri f level j : Nat) (s : State) : (State.build ri f level j s).kept = s.kept := by
  induction f generalizing level j s with
  | zero => rfl
  | succ f ih =>
    unfold State.build
    simp [ih]

@[simp] theorem State.macLine_kept (src : Src) (s : State) (ri : ℕ) (i : ℕ) :
    (State.macLine src s ri i).2.kept = s.kept := by
  unfold State.macLine
  repeat' first
    | (simp (maxDischargeDepth := 6); done)
    | split
    | simp (maxDischargeDepth := 6)

theorem State.slotMac_kept {s t : State} {c : Cached} {key : List Byte} (h : s.slotMac c key = some t) : t.kept = s.kept := by
  unfold State.slotMac at h
  dsimp only at h
  repeat' split at h
  all_goals first
    | (injection h with h; subst h; simp; done)
    | (injection h with h; subst h; simp [kept_snd (by assumption)]; done)
    | cases h

@[simp] theorem State.writeBack_kept (s : State) (a : ℕ) :
    (State.writeBack s a).kept = s.kept := by
  unfold State.writeBack
  repeat' first
    | (simp (maxDischargeDepth := 6); done)
    | (simp (maxDischargeDepth := 6) +zetaDelta; done)
    | with_reducible refine Eq.trans (by assumption) ?_
    | intro _
    | split
    | simp (maxDischargeDepth := 6) only [kept_ite, kept_ite_snd, kept_ite_fst, kept_ite_snd2, kept_ite_snd3]
    | with_reducible refine (kept_foldl _ ?_ _ _).trans ?_
    | with_reducible refine (kept_foldl_snd _ ?_ _ _).trans ?_
    | with_reducible refine (kept_foldl_fst _ ?_ _ _).trans ?_
    | with_reducible refine (kept_foldl_snd2 _ ?_ _ _).trans ?_
    | with_reducible refine (State.slotMac_kept (by assumption)).trans ?_
    | with_reducible refine (kept_snd (by assumption)).trans ?_
    | with_reducible refine (kept_snd2 (by assumption)).trans ?_
    | with_reducible refine (kept_snd3 (by assumption)).trans ?_
    | with_reducible refine (kept_fst (by assumption)).trans ?_
    | with_reducible refine kept_of_some (by assumption) ?_
    | simp (maxDischargeDepth := 6)
    | dsimp only
    | simp (maxDischargeDepth := 6) +zetaDelta

@[simp] theorem State.writeBackAll_kept (s : State) (p : Cached → Bool) :
    (State.writeBackAll s p).kept = s.kept := by
  unfold State.writeBackAll
  repeat' first
    | (simp (maxDischargeDepth := 6); done)
    | (simp (maxDischargeDepth := 6) +zetaDelta; done)
    | with_reducible refine Eq.trans (by assumption) ?_
    | intro _
    | split
    | simp (maxDischargeDepth := 6) only [kept_ite, kept_ite_snd, kept_ite_fst, kept_ite_snd2, kept_ite_snd3]
    | with_reducible refine (kept_foldl _ ?_ _ _).trans ?_
    | with_reducible refine (kept_foldl_snd _ ?_ _ _).trans ?_
    | with_reducible refine (kept_foldl_fst _ ?_ _ _).trans ?_
    | with_reducible refine (kept_foldl_snd2 _ ?_ _ _).trans ?_
    | with_reducible refine (State.forEach_kept _ _ _ ?_).trans ?_
    | with_reducible refine (kept_snd (by assumption)).trans ?_
    | with_reducible refine (kept_snd2 (by assumption)).trans ?_
    | with_reducible refine (kept_snd3 (by assumption)).trans ?_
    | with_reducible refine (kept_fst (by assumption)).trans ?_
    | with_reducible refine kept_of_some (by assumption) ?_
    | simp (maxDischargeDepth := 6)
    | dsimp only
    | simp (maxDischargeDepth := 6) +zetaDelta

@[simp] theorem State.trim_kept (a : ℕ) (a1 : State) :
    (State.trim a a1).kept = a1.kept := by
  fun_induction State.trim a a1 <;> first
    | rfl
    | (simp (maxDischargeDepth := 6); done)
    | (repeat' first
        | (simp (maxDischargeDepth := 6); done)
        | (simp (maxDischargeDepth := 6) +zetaDelta; done)
        | with_reducible refine Eq.trans (by assumption) ?_
        | intro _
        | split
        | simp (maxDischargeDepth := 6) only [kept_ite, kept_ite_snd, kept_ite_fst, kept_ite_snd2, kept_ite_snd3]
        | with_reducible refine (kept_foldl _ ?_ _ _).trans ?_
        | with_reducible refine (kept_foldl_snd _ ?_ _ _).trans ?_
        | with_reducible refine (kept_foldl_fst _ ?_ _ _).trans ?_
        | with_reducible refine (kept_foldl_snd2 _ ?_ _ _).trans ?_
        | with_reducible refine (kept_snd (by assumption)).trans ?_
        | with_reducible refine (kept_snd2 (by assumption)).trans ?_
        | with_reducible refine (kept_snd3 (by assumption)).trans ?_
        | with_reducible refine (kept_fst (by assumption)).trans ?_
        | with_reducible refine kept_of_some (by assumption) ?_
        | simp (maxDischargeDepth := 6)
        | dsimp only
        | simp (maxDischargeDepth := 6) +zetaDelta)

@[simp] theorem State.macAlarm_kept (s : State) (ri : ℕ) (addr : ℕ) (kid : ℕ) (row : ℕ) :
    (State.macAlarm s ri addr kid row).kept = s.kept := by
  unfold State.macAlarm
  simp (maxDischargeDepth := 6)

@[simp] theorem State.counters_kept (src : Src) (s : State) (ri : ℕ) (page : ℕ) (write : Bool) :
    (State.counters src s ri page write).2.kept = s.kept := by
  unfold State.counters
  repeat' first
    | (simp (maxDischargeDepth := 6); done)
    | (simp (maxDischargeDepth := 6) +zetaDelta; done)
    | with_reducible refine Eq.trans (by assumption) ?_
    | intro _
    | split
    | simp (maxDischargeDepth := 6) only [kept_ite, kept_ite_snd, kept_ite_fst, kept_ite_snd2, kept_ite_snd3]
    | with_reducible refine (kept_foldl _ ?_ _ _).trans ?_
    | with_reducible refine (kept_foldl_snd _ ?_ _ _).trans ?_
    | with_reducible refine (kept_foldl_fst _ ?_ _ _).trans ?_
    | with_reducible refine (kept_foldl_snd2 _ ?_ _ _).trans ?_
    | with_reducible refine (kept_snd (by assumption)).trans ?_
    | with_reducible refine (kept_snd2 (by assumption)).trans ?_
    | with_reducible refine (kept_snd3 (by assumption)).trans ?_
    | with_reducible refine (kept_fst (by assumption)).trans ?_
    | with_reducible refine kept_of_some (by assumption) ?_
    | simp (maxDischargeDepth := 6)
    | dsimp only
    | simp (maxDischargeDepth := 6) +zetaDelta

@[simp] theorem State.rawLine_kept (src : Src) (s : State) (addr : ℕ) :
    (State.rawLine src s addr).2.kept = s.kept := by
  unfold State.rawLine
  repeat' first
    | (simp (maxDischargeDepth := 6); done)
    | split
    | simp (maxDischargeDepth := 6)

@[simp] theorem State.checkLine_kept (src : Src) (s : State) (ri : ℕ) (i : ℕ) (major : ℕ) (minor : ℕ) :
    (State.checkLine src s ri i major minor).2.kept = s.kept := by
  unfold State.checkLine
  repeat' first
    | (simp (maxDischargeDepth := 6); done)
    | (simp (maxDischargeDepth := 6) +zetaDelta; done)
    | with_reducible refine Eq.trans (by assumption) ?_
    | intro _
    | split
    | simp (maxDischargeDepth := 6) only [kept_ite, kept_ite_snd, kept_ite_fst, kept_ite_snd2, kept_ite_snd3]
    | with_reducible refine (kept_foldl _ ?_ _ _).trans ?_
    | with_reducible refine (kept_foldl_snd _ ?_ _ _).trans ?_
    | with_reducible refine (kept_foldl_fst _ ?_ _ _).trans ?_
    | with_reducible refine (kept_foldl_snd2 _ ?_ _ _).trans ?_
    | with_reducible refine (kept_snd (by assumption)).trans ?_
    | with_reducible refine (kept_snd2 (by assumption)).trans ?_
    | with_reducible refine (kept_snd3 (by assumption)).trans ?_
    | with_reducible refine (kept_fst (by assumption)).trans ?_
    | with_reducible refine kept_of_some (by assumption) ?_
    | simp (maxDischargeDepth := 6)
    | dsimp only
    | simp (maxDischargeDepth := 6) +zetaDelta

@[simp] theorem State.readSealed_kept (src : Src) (s : State) (ri : ℕ) (i : ℕ) :
    (State.readSealed src s ri i).2.kept = s.kept := by
  unfold State.readSealed
  repeat' first
    | (simp (maxDischargeDepth := 6); done)
    | (simp (maxDischargeDepth := 6) +zetaDelta; done)
    | with_reducible refine Eq.trans (by assumption) ?_
    | intro _
    | split
    | simp (maxDischargeDepth := 6) only [kept_ite, kept_ite_snd, kept_ite_fst, kept_ite_snd2, kept_ite_snd3]
    | with_reducible refine (kept_foldl _ ?_ _ _).trans ?_
    | with_reducible refine (kept_foldl_snd _ ?_ _ _).trans ?_
    | with_reducible refine (kept_foldl_fst _ ?_ _ _).trans ?_
    | with_reducible refine (kept_foldl_snd2 _ ?_ _ _).trans ?_
    | with_reducible refine (kept_snd (by assumption)).trans ?_
    | with_reducible refine (kept_snd2 (by assumption)).trans ?_
    | with_reducible refine (kept_snd3 (by assumption)).trans ?_
    | with_reducible refine (kept_fst (by assumption)).trans ?_
    | with_reducible refine kept_of_some (by assumption) ?_
    | simp (maxDischargeDepth := 6)
    | dsimp only
    | simp (maxDischargeDepth := 6) +zetaDelta

@[simp] theorem State.modCached_kept (s : State) (a : ℕ) (f : Line → Line) :
    (State.modCached s a f).kept = s.kept := by
  unfold State.modCached
  repeat' first
    | (simp (maxDischargeDepth := 6); done)
    | split
    | simp (maxDischargeDepth := 6)

@[simp] theorem State.raiseHw_kept (s : State) (stack : ℕ) (major : ℕ) :
    (State.raiseHw s stack major).kept = s.kept := by
  unfold State.raiseHw
  simp (maxDischargeDepth := 6)

@[simp] theorem State.putCounters_kept (s : State) (ri : ℕ) (page : ℕ) (cb : Line) :
    (State.putCounters s ri page cb).kept = s.kept := by
  unfold State.putCounters
  simp (maxDischargeDepth := 6)

@[simp] theorem State.macForWrite_kept (src : Src) (s : State) (ri : ℕ) (i : ℕ) (fresh : Bool) :
    (State.macForWrite src s ri i fresh).2.kept = s.kept := by
  unfold State.macForWrite
  repeat' first
    | (simp (maxDischargeDepth := 6); done)
    | (simp (maxDischargeDepth := 6) +zetaDelta; done)
    | with_reducible refine Eq.trans (by assumption) ?_
    | intro _
    | split
    | simp (maxDischargeDepth := 6) only [kept_ite, kept_ite_snd, kept_ite_fst, kept_ite_snd2, kept_ite_snd3]
    | with_reducible refine (kept_foldl _ ?_ _ _).trans ?_
    | with_reducible refine (kept_foldl_snd _ ?_ _ _).trans ?_
    | with_reducible refine (kept_foldl_fst _ ?_ _ _).trans ?_
    | with_reducible refine (kept_foldl_snd2 _ ?_ _ _).trans ?_
    | with_reducible refine (kept_snd (by assumption)).trans ?_
    | with_reducible refine (kept_snd2 (by assumption)).trans ?_
    | with_reducible refine (kept_snd3 (by assumption)).trans ?_
    | with_reducible refine (kept_fst (by assumption)).trans ?_
    | with_reducible refine kept_of_some (by assumption) ?_
    | simp (maxDischargeDepth := 6)
    | dsimp only
    | simp (maxDischargeDepth := 6) +zetaDelta

@[simp] theorem State.storeLine_kept (s : State) (ri : ℕ) (i : ℕ) (major : ℕ) (minor : ℕ) (key : List Byte) (sgen : ℕ) (d : Line) :
    (State.storeLine s ri i major minor key sgen d).kept = s.kept := by
  unfold State.storeLine
  simp (maxDischargeDepth := 6)

@[simp] theorem State.poisonLine_kept (s : State) (ri : ℕ) (i : ℕ) :
    (State.poisonLine s ri i).kept = s.kept := by
  unfold State.poisonLine
  simp (maxDischargeDepth := 6)

@[simp] theorem State.writeSealed_kept (src : Src) (s : State) (ri : ℕ) (i : ℕ) (d : Line) :
    (State.writeSealed src s ri i d).2.kept = s.kept := by
  unfold State.writeSealed
  repeat' first
    | (simp (maxDischargeDepth := 6); done)
    | (simp (maxDischargeDepth := 6) +zetaDelta; done)
    | with_reducible refine Eq.trans (by assumption) ?_
    | intro _
    | split
    | simp (maxDischargeDepth := 6) only [kept_ite, kept_ite_snd, kept_ite_fst, kept_ite_snd2, kept_ite_snd3]
    | with_reducible refine (kept_foldl _ ?_ _ _).trans ?_
    | with_reducible refine (kept_foldl_snd _ ?_ _ _).trans ?_
    | with_reducible refine (kept_foldl_fst _ ?_ _ _).trans ?_
    | with_reducible refine (kept_foldl_snd2 _ ?_ _ _).trans ?_
    | with_reducible refine (kept_snd (by assumption)).trans ?_
    | with_reducible refine (kept_snd2 (by assumption)).trans ?_
    | with_reducible refine (kept_snd3 (by assumption)).trans ?_
    | with_reducible refine (kept_fst (by assumption)).trans ?_
    | with_reducible refine kept_of_some (by assumption) ?_
    | simp (maxDischargeDepth := 6)
    | dsimp only
    | simp (maxDischargeDepth := 6) +zetaDelta

@[simp] theorem State.majorLimits_kept (s : State) (ri : ℕ) (major : ℕ) :
    (State.majorLimits s ri major).kept = s.kept := by
  unfold State.majorLimits
  simp (maxDischargeDepth := 6)

@[simp] theorem State.reencrypt_kept (s : State) (ri : ℕ) (i : ℕ) (d : Line) (v : ℕ) :
    (State.reencrypt s ri i d v).kept = s.kept := by
  unfold State.reencrypt
  repeat' first
    | (simp (maxDischargeDepth := 6); done)
    | (simp (maxDischargeDepth := 6) +zetaDelta; done)
    | with_reducible refine Eq.trans (by assumption) ?_
    | intro _
    | split
    | simp (maxDischargeDepth := 6) only [kept_ite, kept_ite_snd, kept_ite_fst, kept_ite_snd2, kept_ite_snd3]
    | with_reducible refine (kept_foldl _ ?_ _ _).trans ?_
    | with_reducible refine (kept_foldl_snd _ ?_ _ _).trans ?_
    | with_reducible refine (kept_foldl_fst _ ?_ _ _).trans ?_
    | with_reducible refine (kept_foldl_snd2 _ ?_ _ _).trans ?_
    | with_reducible refine (State.forEach_kept _ _ _ ?_).trans ?_
    | with_reducible refine (kept_snd (by assumption)).trans ?_
    | with_reducible refine (kept_snd2 (by assumption)).trans ?_
    | with_reducible refine (kept_snd3 (by assumption)).trans ?_
    | with_reducible refine (kept_fst (by assumption)).trans ?_
    | with_reducible refine kept_of_some (by assumption) ?_
    | simp (maxDischargeDepth := 6)
    | dsimp only
    | simp (maxDischargeDepth := 6) +zetaDelta

end Sys2Proof.Machine
end

