-- ==== Sys2Proof/Laws/KeptHearth.lean ====
section
/-! SUPPORT. The operations of Hearth keep the queue and the OTP areas. -/

set_option linter.unusedSimpArgs false
set_option linter.unusedTactic false
set_option linter.unreachableTactic false
set_option linter.unusedVariables false

namespace Sys2Proof.Machine
open Sys2Proof

@[simp] theorem State.hearthPut_kept (s : State) (a : ℕ) (l : Line) (kid : ℕ) (words : BitVec 8) :
    (State.hearthPut s a l kid words).kept = s.kept := by
  unfold State.hearthPut
  simp (maxDischargeDepth := 6)

@[simp] theorem State.hearthBad_kept (s : State) (a : ℕ) :
    (State.hearthBad s a).kept = s.kept := by
  unfold State.hearthBad
  simp (maxDischargeDepth := 6)

@[simp] theorem State.hearthCorrected_kept (s : State) (a : ℕ) (slice : ℕ) (n : ℕ) :
    (State.hearthCorrected s a slice n).kept = s.kept := by
  unfold State.hearthCorrected
  simp (maxDischargeDepth := 6)

@[simp] theorem State.hearthDecode_kept (s : State) (t : Tag) (a : ℕ) (kid : ℕ) (mode : ℕ) (l : Line) (e : BitVec 64) :
    (State.hearthDecode s t a kid mode l e).2.kept = s.kept := by
  unfold State.hearthDecode
  repeat' first
    | (simp (maxDischargeDepth := 6); done)
    | split
    | simp (maxDischargeDepth := 6)

@[simp] theorem State.hearthStore_kept (s : State) (a : ℕ) (kid : ℕ) (mode : ℕ) (d : Line) (m : BitVec 64) (old : Option Line) :
    (State.hearthStore s a kid mode d m old).1.kept = s.kept := by
  unfold State.hearthStore
  simp (maxDischargeDepth := 6)

@[simp] theorem State.hearthOp_kept (s : State) (t : Tag) (a : ℕ) :
    (State.hearthOp s t a).kept = s.kept := by
  unfold State.hearthOp
  simp (maxDischargeDepth := 6)

@[simp] theorem State.hearthRefused_kept (s : State) (t : Tag) (alarm : Bool) :
    (State.hearthRefused s t alarm).kept = s.kept := by
  unfold State.hearthRefused
  simp (maxDischargeDepth := 6)

@[simp] theorem State.hearthTap_kept (s : State) (t : Tag) (a : ℕ) (d : Line) :
    (State.hearthTap s t a d).kept = s.kept := by
  unfold State.hearthTap
  simp (maxDischargeDepth := 6)

@[simp] theorem State.tierLine?_kept (s : State) (a : ℕ) :
    (State.tierLine? s a).2.kept = s.kept := by
  unfold State.tierLine?
  repeat' first
    | (simp (maxDischargeDepth := 6); done)
    | (simp (maxDischargeDepth := 6) +zetaDelta; done)
    | with_reducible refine Eq.trans (by assumption) ?_
    | intro _
    | split
    | simp (maxDischargeDepth := 6) only [kept_ite, kept_ite_snd, kept_ite_fst, kept_ite_snd2, kept_ite_snd3]
    | with_reducible refine (kept_foldl _ ?_ _ _).trans ?_
    | with_reducible refine (kept_foldl_snd _ ?_ _ _).trans ?_
    | with_reducible refine (kept_foldl_fst _ ?_ _ _).trans ?_
    | with_reducible refine (kept_foldl_snd2 _ ?_ _ _).trans ?_
    | with_reducible refine (kept_snd (by assumption)).trans ?_
    | with_reducible refine (kept_snd2 (by assumption)).trans ?_
    | with_reducible refine (kept_snd3 (by assumption)).trans ?_
    | with_reducible refine (kept_fst (by assumption)).trans ?_
    | with_reducible refine kept_of_some (by assumption) ?_
    | simp (maxDischargeDepth := 6)
    | dsimp only
    | simp (maxDischargeDepth := 6) +zetaDelta

@[simp] theorem State.hearthServe_kept (s : State) (r : MemReq) (line : Option (Line × BitVec 64)) :
    (State.hearthServe s r line).2.kept = s.kept := by
  unfold State.hearthServe
  repeat' first
    | (simp (maxDischargeDepth := 6); done)
    | (simp (maxDischargeDepth := 6) +zetaDelta; done)
    | with_reducible refine Eq.trans (by assumption) ?_
    | intro _
    | split
    | simp (maxDischargeDepth := 6) only [kept_ite, kept_ite_snd, kept_ite_fst, kept_ite_snd2, kept_ite_snd3]
    | with_reducible refine (kept_foldl _ ?_ _ _).trans ?_
    | with_reducible refine (kept_foldl_snd _ ?_ _ _).trans ?_
    | with_reducible refine (kept_foldl_fst _ ?_ _ _).trans ?_
    | with_reducible refine (kept_foldl_snd2 _ ?_ _ _).trans ?_
    | with_reducible refine (kept_snd (by assumption)).trans ?_
    | with_reducible refine (kept_snd2 (by assumption)).trans ?_
    | with_reducible refine (kept_snd3 (by assumption)).trans ?_
    | with_reducible refine (kept_fst (by assumption)).trans ?_
    | with_reducible refine kept_of_some (by assumption) ?_
    | simp (maxDischargeDepth := 6)
    | dsimp only
    | simp (maxDischargeDepth := 6) +zetaDelta

@[simp] theorem State.serveHearth_kept (s : State) (r : MemReq) (line : Option (Line × BitVec 64)) :
    (State.serveHearth s r line).2.kept = s.kept := by
  unfold State.serveHearth
  repeat' first
    | (simp (maxDischargeDepth := 6); done)
    | (simp (maxDischargeDepth := 6) +zetaDelta; done)
    | with_reducible refine Eq.trans (by assumption) ?_
    | intro _
    | split
    | simp (maxDischargeDepth := 6) only [kept_ite, kept_ite_snd, kept_ite_fst, kept_ite_snd2, kept_ite_snd3]
    | with_reducible refine (kept_foldl _ ?_ _ _).trans ?_
    | with_reducible refine (kept_foldl_snd _ ?_ _ _).trans ?_
    | with_reducible refine (kept_foldl_fst _ ?_ _ _).trans ?_
    | with_reducible refine (kept_foldl_snd2 _ ?_ _ _).trans ?_
    | with_reducible refine (kept_snd (by assumption)).trans ?_
    | with_reducible refine (kept_snd2 (by assumption)).trans ?_
    | with_reducible refine (kept_snd3 (by assumption)).trans ?_
    | with_reducible refine (kept_fst (by assumption)).trans ?_
    | with_reducible refine kept_of_some (by assumption) ?_
    | simp (maxDischargeDepth := 6)
    | dsimp only
    | simp (maxDischargeDepth := 6) +zetaDelta

@[simp] theorem State.runHearth_kept (a : ℕ) (a1 : List MemReq) (a11 : List MemReq) (a111 : State) :
    (State.runHearth a a1 a11 a111).2.kept = a111.kept := by
  fun_induction State.runHearth a a1 a11 a111 <;> first
    | rfl
    | (simp (maxDischargeDepth := 6); done)
    | (repeat' first
        | (simp (maxDischargeDepth := 6); done)
        | (simp (maxDischargeDepth := 6) +zetaDelta; done)
        | with_reducible refine Eq.trans (by assumption) ?_
        | intro _
        | split
        | simp (maxDischargeDepth := 6) only [kept_ite, kept_ite_snd, kept_ite_fst, kept_ite_snd2, kept_ite_snd3]
        | with_reducible refine (kept_foldl _ ?_ _ _).trans ?_
        | with_reducible refine (kept_foldl_snd _ ?_ _ _).trans ?_
        | with_reducible refine (kept_foldl_fst _ ?_ _ _).trans ?_
        | with_reducible refine (kept_foldl_snd2 _ ?_ _ _).trans ?_
        | with_reducible refine (kept_snd (by assumption)).trans ?_
        | with_reducible refine (kept_snd2 (by assumption)).trans ?_
        | with_reducible refine (kept_snd3 (by assumption)).trans ?_
        | with_reducible refine (kept_fst (by assumption)).trans ?_
        | with_reducible refine kept_of_some (by assumption) ?_
        | simp (maxDischargeDepth := 6)
        | dsimp only
        | simp (maxDischargeDepth := 6) +zetaDelta)

@[simp] theorem State.wakeHearth_kept (s : State) :
    (State.wakeHearth s).kept = s.kept := by
  unfold State.wakeHearth
  repeat' first
    | (simp (maxDischargeDepth := 6); done)
    | (simp (maxDischargeDepth := 6) +zetaDelta; done)
    | with_reducible refine Eq.trans (by assumption) ?_
    | intro _
    | split
    | simp (maxDischargeDepth := 6) only [kept_ite, kept_ite_snd, kept_ite_fst, kept_ite_snd2, kept_ite_snd3]
    | with_reducible refine (kept_foldl _ ?_ _ _).trans ?_
    | with_reducible refine (kept_foldl_snd _ ?_ _ _).trans ?_
    | with_reducible refine (kept_foldl_fst _ ?_ _ _).trans ?_
    | with_reducible refine (kept_foldl_snd2 _ ?_ _ _).trans ?_
    | with_reducible refine (kept_snd (by assumption)).trans ?_
    | with_reducible refine (kept_snd2 (by assumption)).trans ?_
    | with_reducible refine (kept_snd3 (by assumption)).trans ?_
    | with_reducible refine (kept_fst (by assumption)).trans ?_
    | with_reducible refine kept_of_some (by assumption) ?_
    | simp (maxDischargeDepth := 6)
    | dsimp only
    | simp (maxDischargeDepth := 6) +zetaDelta

@[simp] theorem State.wakeSlots_kept (s : State) :
    (State.wakeSlots s).kept = s.kept := by
  unfold State.wakeSlots
  repeat' first
    | (simp (maxDischargeDepth := 6); done)
    | (simp (maxDischargeDepth := 6) +zetaDelta; done)
    | with_reducible refine Eq.trans (by assumption) ?_
    | intro _
    | split
    | simp (maxDischargeDepth := 6) only [kept_ite, kept_ite_snd, kept_ite_fst, kept_ite_snd2, kept_ite_snd3]
    | with_reducible refine (kept_foldl _ ?_ _ _).trans ?_
    | with_reducible refine (kept_foldl_snd _ ?_ _ _).trans ?_
    | with_reducible refine (kept_foldl_fst _ ?_ _ _).trans ?_
    | with_reducible refine (kept_foldl_snd2 _ ?_ _ _).trans ?_
    | with_reducible refine (kept_snd (by assumption)).trans ?_
    | with_reducible refine (kept_snd2 (by assumption)).trans ?_
    | with_reducible refine (kept_snd3 (by assumption)).trans ?_
    | with_reducible refine (kept_fst (by assumption)).trans ?_
    | with_reducible refine kept_of_some (by assumption) ?_
    | simp (maxDischargeDepth := 6)
    | dsimp only
    | simp (maxDischargeDepth := 6) +zetaDelta

@[simp] theorem State.settleHearthLine_kept (s : State) (a : ℕ) :
    (State.settleHearthLine s a).kept = s.kept := by
  unfold State.settleHearthLine
  repeat' first
    | (simp (maxDischargeDepth := 6); done)
    | (simp (maxDischargeDepth := 6) +zetaDelta; done)
    | with_reducible refine Eq.trans (by assumption) ?_
    | intro _
    | split
    | simp (maxDischargeDepth := 6) only [kept_ite, kept_ite_snd, kept_ite_fst, kept_ite_snd2, kept_ite_snd3]
    | with_reducible refine (kept_foldl _ ?_ _ _).trans ?_
    | with_reducible refine (kept_foldl_snd _ ?_ _ _).trans ?_
    | with_reducible refine (kept_foldl_fst _ ?_ _ _).trans ?_
    | with_reducible refine (kept_foldl_snd2 _ ?_ _ _).trans ?_
    | with_reducible refine (kept_snd (by assumption)).trans ?_
    | with_reducible refine (kept_snd2 (by assumption)).trans ?_
    | with_reducible refine (kept_snd3 (by assumption)).trans ?_
    | with_reducible refine (kept_fst (by assumption)).trans ?_
    | with_reducible refine kept_of_some (by assumption) ?_
    | simp (maxDischargeDepth := 6)
    | dsimp only
    | simp (maxDischargeDepth := 6) +zetaDelta

@[simp] theorem State.ownHearthRead_kept (s : State) (t : Tag) (a : ℕ) :
    (State.ownHearthRead s t a).2.kept = s.kept := by
  unfold State.ownHearthRead
  repeat' first
    | (simp (maxDischargeDepth := 6); done)
    | (simp (maxDischargeDepth := 6) +zetaDelta; done)
    | with_reducible refine Eq.trans (by assumption) ?_
    | intro _
    | split
    | simp (maxDischargeDepth := 6) only [kept_ite, kept_ite_snd, kept_ite_fst, kept_ite_snd2, kept_ite_snd3]
    | with_reducible refine (kept_foldl _ ?_ _ _).trans ?_
    | with_reducible refine (kept_foldl_snd _ ?_ _ _).trans ?_
    | with_reducible refine (kept_foldl_fst _ ?_ _ _).trans ?_
    | with_reducible refine (kept_foldl_snd2 _ ?_ _ _).trans ?_
    | with_reducible refine (kept_snd (by assumption)).trans ?_
    | with_reducible refine (kept_snd2 (by assumption)).trans ?_
    | with_reducible refine (kept_snd3 (by assumption)).trans ?_
    | with_reducible refine (kept_fst (by assumption)).trans ?_
    | with_reducible refine kept_of_some (by assumption) ?_
    | simp (maxDischargeDepth := 6)
    | dsimp only
    | simp (maxDischargeDepth := 6) +zetaDelta

@[simp] theorem State.ownHearthWrite_kept (s : State) (t : Tag) (a : ℕ) (d : Line) (m : BitVec 64) :
    (State.ownHearthWrite s t a d m).2.kept = s.kept := by
  unfold State.ownHearthWrite
  repeat' first
    | (simp (maxDischargeDepth := 6); done)
    | (simp (maxDischargeDepth := 6) +zetaDelta; done)
    | with_reducible refine Eq.trans (by assumption) ?_
    | intro _
    | split
    | simp (maxDischargeDepth := 6) only [kept_ite, kept_ite_snd, kept_ite_fst, kept_ite_snd2, kept_ite_snd3]
    | with_reducible refine (kept_foldl _ ?_ _ _).trans ?_
    | with_reducible refine (kept_foldl_snd _ ?_ _ _).trans ?_
    | with_reducible refine (kept_foldl_fst _ ?_ _ _).trans ?_
    | with_reducible refine (kept_foldl_snd2 _ ?_ _ _).trans ?_
    | with_reducible refine (kept_snd (by assumption)).trans ?_
    | with_reducible refine (kept_snd2 (by assumption)).trans ?_
    | with_reducible refine (kept_snd3 (by assumption)).trans ?_
    | with_reducible refine (kept_fst (by assumption)).trans ?_
    | with_reducible refine kept_of_some (by assumption) ?_
    | simp (maxDischargeDepth := 6)
    | dsimp only
    | simp (maxDischargeDepth := 6) +zetaDelta

end Sys2Proof.Machine
end

