-- ==== Sys2Proof/Laws/KeptTags.lean ====
section
/-! SUPPORT. The operations of Tags keep the queue and the OTP areas. -/

set_option linter.unusedSimpArgs false
set_option linter.unusedTactic false
set_option linter.unreachableTactic false
set_option linter.unusedVariables false

namespace Sys2Proof.Machine
open Sys2Proof

@[simp] theorem State.tagRefused_kept (s : State) (t : Tag) (check : ℕ) :
    (State.tagRefused s t check).kept = s.kept := by
  unfold State.tagRefused
  simp (maxDischargeDepth := 6)

@[simp] theorem State.lineRead_kept (s : State) (t : Tag) (p : Place) :
    (State.lineRead s t p).2.kept = s.kept := by
  unfold State.lineRead
  repeat' first
    | (simp (maxDischargeDepth := 6); done)
    | split
    | simp (maxDischargeDepth := 6)

@[simp] theorem State.lineWrite_kept (s : State) (t : Tag) (p : Place) (d : Line) (m : BitVec 64) :
    (State.lineWrite s t p d m).2.kept = s.kept := by
  unfold State.lineWrite
  repeat' first
    | (simp (maxDischargeDepth := 6); done)
    | split
    | simp (maxDischargeDepth := 6)

end Sys2Proof.Machine
end

