-- ==== Sys2Proof/Laws/KeptMemory.lean ====
section
/-! SUPPORT. The operations of Memory keep the queue and the OTP areas. -/

set_option linter.unusedSimpArgs false
set_option linter.unusedTactic false
set_option linter.unreachableTactic false
set_option linter.unusedVariables false

namespace Sys2Proof.Machine
open Sys2Proof

@[simp] theorem State.objBytes_kept (s : State) (t : Tag) (e : ObjEntry) (a : ℕ) (a1 : ℕ) (a11 : ℕ) :
    (State.objBytes s t e a a1 a11).2.2.kept = s.kept := by
  fun_induction State.objBytes s t e a a1 a11 <;> first
    | rfl
    | (simp (maxDischargeDepth := 6); done)
    | (repeat' first
        | (simp (maxDischargeDepth := 6); done)
        | (simp (maxDischargeDepth := 6) +zetaDelta; done)
        | with_reducible refine Eq.trans (by assumption) ?_
        | intro _
        | split
        | simp (maxDischargeDepth := 6) only [kept_ite, kept_ite_snd, kept_ite_fst, kept_ite_snd2, kept_ite_snd3]
        | with_reducible refine (kept_foldl _ ?_ _ _).trans ?_
        | with_reducible refine (kept_foldl_snd _ ?_ _ _).trans ?_
        | with_reducible refine (kept_foldl_fst _ ?_ _ _).trans ?_
        | with_reducible refine (kept_foldl_snd2 _ ?_ _ _).trans ?_
        | with_reducible refine (kept_snd (by assumption)).trans ?_
        | with_reducible refine (kept_snd2 (by assumption)).trans ?_
        | with_reducible refine (kept_snd3 (by assumption)).trans ?_
        | with_reducible refine (kept_fst (by assumption)).trans ?_
        | with_reducible refine kept_of_some (by assumption) ?_
        | simp (maxDischargeDepth := 6)
        | dsimp only
        | simp (maxDischargeDepth := 6) +zetaDelta)

@[simp] theorem State.objPut_kept (s : State) (t : Tag) (e : ObjEntry) (a : ℕ) (a1 : ℕ) (a11 : List Byte) :
    (State.objPut s t e a a1 a11).2.2.kept = s.kept := by
  fun_induction State.objPut s t e a a1 a11 <;> first
    | rfl
    | (simp (maxDischargeDepth := 6); done)
    | (repeat' first
        | (simp (maxDischargeDepth := 6); done)
        | (simp (maxDischargeDepth := 6) +zetaDelta; done)
        | with_reducible refine Eq.trans (by assumption) ?_
        | intro _
        | split
        | simp (maxDischargeDepth := 6) only [kept_ite, kept_ite_snd, kept_ite_fst, kept_ite_snd2, kept_ite_snd3]
        | with_reducible refine (kept_foldl _ ?_ _ _).trans ?_
        | with_reducible refine (kept_foldl_snd _ ?_ _ _).trans ?_
        | with_reducible refine (kept_foldl_fst _ ?_ _ _).trans ?_
        | with_reducible refine (kept_foldl_snd2 _ ?_ _ _).trans ?_
        | with_reducible refine (kept_snd (by assumption)).trans ?_
        | with_reducible refine (kept_snd2 (by assumption)).trans ?_
        | with_reducible refine (kept_snd3 (by assumption)).trans ?_
        | with_reducible refine (kept_fst (by assumption)).trans ?_
        | with_reducible refine kept_of_some (by assumption) ?_
        | simp (maxDischargeDepth := 6)
        | dsimp only
        | simp (maxDischargeDepth := 6) +zetaDelta)

@[simp] theorem State.translate_kept (s : State) (i : ℕ) (page : ℕ) (write : Bool) :
    (State.translate s i page write).2.kept = s.kept := by
  unfold State.translate
  repeat' first
    | (simp (maxDischargeDepth := 6); done)
    | split
    | simp (maxDischargeDepth := 6)

@[simp] theorem State.translateAll_kept (s : State) (i : ℕ) (write : Bool) (a : List ℕ) :
    (State.translateAll s i write a).2.2.kept = s.kept := by
  fun_induction State.translateAll s i write a <;> first
    | rfl
    | (simp (maxDischargeDepth := 6); done)
    | (repeat' first
        | (simp (maxDischargeDepth := 6); done)
        | (simp (maxDischargeDepth := 6) +zetaDelta; done)
        | with_reducible refine Eq.trans (by assumption) ?_
        | intro _
        | split
        | simp (maxDischargeDepth := 6) only [kept_ite, kept_ite_snd, kept_ite_fst, kept_ite_snd2, kept_ite_snd3]
        | with_reducible refine (kept_foldl _ ?_ _ _).trans ?_
        | with_reducible refine (kept_foldl_snd _ ?_ _ _).trans ?_
        | with_reducible refine (kept_foldl_fst _ ?_ _ _).trans ?_
        | with_reducible refine (kept_foldl_snd2 _ ?_ _ _).trans ?_
        | with_reducible refine (kept_snd (by assumption)).trans ?_
        | with_reducible refine (kept_snd2 (by assumption)).trans ?_
        | with_reducible refine (kept_snd3 (by assumption)).trans ?_
        | with_reducible refine (kept_fst (by assumption)).trans ?_
        | with_reducible refine kept_of_some (by assumption) ?_
        | simp (maxDischargeDepth := 6)
        | dsimp only
        | simp (maxDischargeDepth := 6) +zetaDelta)

@[simp] theorem State.fetchObj_kept (s : State) (i : ℕ) (q : ℕ) (seq : ℕ) (ix : ℕ) (off : ℕ) (len : ℕ) :
    (State.fetchObj s i q seq ix off len).2.kept = s.kept := by
  unfold State.fetchObj
  repeat' first
    | (simp (maxDischargeDepth := 6); done)
    | (simp (maxDischargeDepth := 6) +zetaDelta; done)
    | with_reducible refine Eq.trans (by assumption) ?_
    | intro _
    | split
    | simp (maxDischargeDepth := 6) only [kept_ite, kept_ite_snd, kept_ite_fst, kept_ite_snd2, kept_ite_snd3]
    | with_reducible refine (kept_foldl _ ?_ _ _).trans ?_
    | with_reducible refine (kept_foldl_snd _ ?_ _ _).trans ?_
    | with_reducible refine (kept_foldl_fst _ ?_ _ _).trans ?_
    | with_reducible refine (kept_foldl_snd2 _ ?_ _ _).trans ?_
    | with_reducible refine (kept_snd (by assumption)).trans ?_
    | with_reducible refine (kept_snd2 (by assumption)).trans ?_
    | with_reducible refine (kept_snd3 (by assumption)).trans ?_
    | with_reducible refine (kept_fst (by assumption)).trans ?_
    | with_reducible refine kept_of_some (by assumption) ?_
    | simp (maxDischargeDepth := 6)
    | dsimp only
    | simp (maxDischargeDepth := 6) +zetaDelta

@[simp] theorem State.hostPut_kept (s : State) (pasid : BitVec 20) (a : ℕ) (b : List Byte) :
    (State.hostPut s pasid a b).kept = s.kept := by
  unfold State.hostPut
  simp (maxDischargeDepth := 6)

@[simp] theorem State.storeObj_kept (s : State) (i : ℕ) (q : ℕ) (seq : ℕ) (ix : ℕ) (off : ℕ) (b : List Byte) :
    (State.storeObj s i q seq ix off b).2.kept = s.kept := by
  unfold State.storeObj
  repeat' first
    | (simp (maxDischargeDepth := 6); done)
    | (simp (maxDischargeDepth := 6) +zetaDelta; done)
    | with_reducible refine Eq.trans (by assumption) ?_
    | intro _
    | split
    | simp (maxDischargeDepth := 6) only [kept_ite, kept_ite_snd, kept_ite_fst, kept_ite_snd2, kept_ite_snd3]
    | with_reducible refine (kept_foldl _ ?_ _ _).trans ?_
    | with_reducible refine (kept_foldl_snd _ ?_ _ _).trans ?_
    | with_reducible refine (kept_foldl_fst _ ?_ _ _).trans ?_
    | with_reducible refine (kept_foldl_snd2 _ ?_ _ _).trans ?_
    | with_reducible refine (kept_snd (by assumption)).trans ?_
    | with_reducible refine (kept_snd2 (by assumption)).trans ?_
    | with_reducible refine (kept_snd3 (by assumption)).trans ?_
    | with_reducible refine (kept_fst (by assumption)).trans ?_
    | with_reducible refine kept_of_some (by assumption) ?_
    | simp (maxDischargeDepth := 6)
    | dsimp only
    | simp (maxDischargeDepth := 6) +zetaDelta

end Sys2Proof.Machine
end

