-- ==== Sys2Proof/Laws/KeptSyncOps.lean ====
section
/-! SUPPORT. The operations of SyncOps keep the queue and the OTP areas. -/

set_option linter.unusedSimpArgs false
set_option linter.unusedTactic false
set_option linter.unreachableTactic false
set_option linter.unusedVariables false

namespace Sys2Proof.Machine
open Sys2Proof

@[simp] theorem State.cacheObj_kept (s : State) (g : ℕ) :
    (State.cacheObj s g).kept = s.kept := by
  unfold State.cacheObj
  repeat' first
    | (simp (maxDischargeDepth := 6); done)
    | split
    | simp (maxDischargeDepth := 6)

@[simp] theorem State.registerWait_kept (s : State) (i : ℕ) (q : ℕ) (c : Cmd) :
    (State.registerWait s i q c).kept = s.kept := by
  unfold State.registerWait
  simp (maxDischargeDepth := 6)

@[simp] theorem State.advanceHead_kept (a : ℕ) (a1 : ℕ) (a11 : ℕ) (a111 : State) :
    (State.advanceHead a a1 a11 a111).kept = a111.kept := by
  fun_induction State.advanceHead a a1 a11 a111 <;> first
    | rfl
    | (simp (maxDischargeDepth := 6); done)
    | (repeat' first
        | (simp (maxDischargeDepth := 6); done)
        | (simp (maxDischargeDepth := 6) +zetaDelta; done)
        | with_reducible refine Eq.trans (by assumption) ?_
        | intro _
        | split
        | simp (maxDischargeDepth := 6) only [kept_ite, kept_ite_snd, kept_ite_fst, kept_ite_snd2, kept_ite_snd3]
        | with_reducible refine (kept_foldl _ ?_ _ _).trans ?_
        | with_reducible refine (kept_foldl_snd _ ?_ _ _).trans ?_
        | with_reducible refine (kept_foldl_fst _ ?_ _ _).trans ?_
        | with_reducible refine (kept_foldl_snd2 _ ?_ _ _).trans ?_
        | with_reducible refine (kept_snd (by assumption)).trans ?_
        | with_reducible refine (kept_snd2 (by assumption)).trans ?_
        | with_reducible refine (kept_snd3 (by assumption)).trans ?_
        | with_reducible refine (kept_fst (by assumption)).trans ?_
        | with_reducible refine kept_of_some (by assumption) ?_
        | simp (maxDischargeDepth := 6)
        | dsimp only
        | simp (maxDischargeDepth := 6) +zetaDelta)

@[simp] theorem State.advance_kept (s : State) (i : ℕ) (q : ℕ) :
    (State.advance s i q).kept = s.kept := by
  unfold State.advance
  simp (maxDischargeDepth := 6)

@[simp] theorem State.wakeOne_kept (s : State) (x : SyncObj) (w : Wait) :
    (State.wakeOne s x w).kept = s.kept := by
  unfold State.wakeOne
  repeat' first
    | (simp (maxDischargeDepth := 6); done)
    | split
    | simp (maxDischargeDepth := 6)

@[simp] theorem State.wake_kept (s : State) (g : ℕ) :
    (State.wake s g).kept = s.kept := by
  unfold State.wake
  simp (maxDischargeDepth := 6)

@[simp] theorem State.settleObj_kept (s : State) (g : ℕ) :
    (State.settleObj s g).kept = s.kept := by
  unfold State.settleObj
  simp (maxDischargeDepth := 6)

@[simp] theorem State.settleSync_kept (s : State) :
    (State.settleSync s).kept = s.kept := by
  unfold State.settleSync
  simp (maxDischargeDepth := 6)

@[simp] theorem State.sendVector_kept (s : State) (i : ℕ) (v : ℕ) :
    (State.sendVector s i v).kept = s.kept := by
  unfold State.sendVector
  simp (maxDischargeDepth := 6)

@[simp] theorem State.notifyWrite_kept (s : State) (i : ℕ) (h : ℕ) (off : ℕ) (b : List Byte) (v : Option ℕ) :
    (State.notifyWrite s i h off b v).kept = s.kept := by
  unfold State.notifyWrite
  repeat' first
    | (simp (maxDischargeDepth := 6); done)
    | (simp (maxDischargeDepth := 6) +zetaDelta; done)
    | with_reducible refine Eq.trans (by assumption) ?_
    | intro _
    | split
    | simp (maxDischargeDepth := 6) only [kept_ite, kept_ite_snd, kept_ite_fst, kept_ite_snd2, kept_ite_snd3]
    | with_reducible refine (kept_foldl _ ?_ _ _).trans ?_
    | with_reducible refine (kept_foldl_snd _ ?_ _ _).trans ?_
    | with_reducible refine (kept_foldl_fst _ ?_ _ _).trans ?_
    | with_reducible refine (kept_foldl_snd2 _ ?_ _ _).trans ?_
    | with_reducible refine (kept_snd (by assumption)).trans ?_
    | with_reducible refine (kept_snd2 (by assumption)).trans ?_
    | with_reducible refine (kept_snd3 (by assumption)).trans ?_
    | with_reducible refine (kept_fst (by assumption)).trans ?_
    | with_reducible refine kept_of_some (by assumption) ?_
    | simp (maxDischargeDepth := 6)
    | dsimp only
    | simp (maxDischargeDepth := 6) +zetaDelta

@[simp] theorem State.fireNotify_kept (s : State) (g : ℕ) :
    (State.fireNotify s g).kept = s.kept := by
  unfold State.fireNotify
  repeat' first
    | (simp (maxDischargeDepth := 6); done)
    | split
    | simp (maxDischargeDepth := 6)

@[simp] theorem State.touchObj_kept (s : State) (g : ℕ) :
    (State.touchObj s g).kept = s.kept := by
  unfold State.touchObj
  simp (maxDischargeDepth := 6)

@[simp] theorem State.signalObj_kept (s : State) (g : ℕ) (v : BitVec 64) :
    (State.signalObj s g v).kept = s.kept := by
  unfold State.signalObj
  simp (maxDischargeDepth := 6)

@[simp] theorem State.postObj_kept (s : State) (g : ℕ) :
    (State.postObj s g).kept = s.kept := by
  unfold State.postObj
  simp (maxDischargeDepth := 6)

@[simp] theorem State.orphanObj_kept (s : State) (g : ℕ) (free : Bool) :
    (State.orphanObj s g free).kept = s.kept := by
  unfold State.orphanObj
  simp (maxDischargeDepth := 6)

@[simp] theorem State.revokeGrant_kept (s : State) (k : ℕ) :
    (State.revokeGrant s k).kept = s.kept := by
  unfold State.revokeGrant
  simp (maxDischargeDepth := 6)

@[simp] theorem State.revokeGrants_kept (s : State) (p : Grant → Bool) :
    (State.revokeGrants s p).kept = s.kept := by
  unfold State.revokeGrants
  simp (maxDischargeDepth := 6)

@[simp] theorem State.orphanSlice_kept (s : State) (i : ℕ) (free : Bool) :
    (State.orphanSlice s i free).kept = s.kept := by
  unfold State.orphanSlice
  simp (maxDischargeDepth := 6)

@[simp] theorem State.performSignal_kept (s : State) (c : Cmd) :
    (State.performSignal s c).2.kept = s.kept := by
  unfold State.performSignal
  simp (maxDischargeDepth := 6)

end Sys2Proof.Machine
end

