-- ==== Sys2Proof/Laws/KeptNetwork.lean ====
section
/-! SUPPORT. The operations of Network keep the queue and the OTP areas. -/

set_option linter.unusedSimpArgs false
set_option linter.unusedTactic false
set_option linter.unreachableTactic false
set_option linter.unusedVariables false

namespace Sys2Proof.Machine
open Sys2Proof

@[simp] theorem State.endRgnCmds_kept (s : State) (op : ℕ) (n : ℕ) (done : ℕ) (result : BitVec 64) :
    (State.endRgnCmds s op n done result).kept = s.kept := by
  unfold State.endRgnCmds
  simp (maxDischargeDepth := 6)

@[simp] theorem State.finishRelease_kept (s : State) (ri : ℕ) :
    (State.finishRelease s ri).kept = s.kept := by
  unfold State.finishRelease
  simp (maxDischargeDepth := 6)

@[simp] theorem State.applyGroups_kept (s : State) (st : ℕ) :
    (State.applyGroups s st).kept = s.kept := by
  unfold State.applyGroups
  simp (maxDischargeDepth := 6)

@[simp] theorem State.settleHbm_kept (s : State) :
    (State.settleHbm s).kept = s.kept := by
  unfold State.settleHbm
  simp (maxDischargeDepth := 6)

@[simp] theorem State.settleHearth_kept (s : State) :
    (State.settleHearth s).kept = s.kept := by
  unfold State.settleHearth
  simp (maxDischargeDepth := 6)

@[simp] theorem State.lineReturned_kept (s : State) (stack : ℕ) (line : ℕ) (d : Line) (poison : Bool) (corrected : Bool) :
    (State.lineReturned s stack line d poison corrected).kept = s.kept := by
  unfold State.lineReturned
  repeat' first
    | (simp (maxDischargeDepth := 6); done)
    | split
    | simp (maxDischargeDepth := 6)

@[simp] theorem State.acceptLine_kept (s : State) (t : Tag) (p : NetTarget) (write : Bool) (d : Line) (m : BitVec 64) :
    (State.acceptLine s t p write d m).kept = s.kept := by
  unfold State.acceptLine
  repeat' first
    | (simp (maxDischargeDepth := 6); done)
    | (simp (maxDischargeDepth := 6) +zetaDelta; done)
    | with_reducible refine Eq.trans (by assumption) ?_
    | intro _
    | split
    | simp (maxDischargeDepth := 6) only [kept_ite, kept_ite_snd, kept_ite_fst, kept_ite_snd2, kept_ite_snd3]
    | with_reducible refine (kept_foldl _ ?_ _ _).trans ?_
    | with_reducible refine (kept_foldl_snd _ ?_ _ _).trans ?_
    | with_reducible refine (kept_foldl_fst _ ?_ _ _).trans ?_
    | with_reducible refine (kept_foldl_snd2 _ ?_ _ _).trans ?_
    | with_reducible refine (kept_snd (by assumption)).trans ?_
    | with_reducible refine (kept_snd2 (by assumption)).trans ?_
    | with_reducible refine (kept_snd3 (by assumption)).trans ?_
    | with_reducible refine (kept_fst (by assumption)).trans ?_
    | with_reducible refine kept_of_some (by assumption) ?_
    | simp (maxDischargeDepth := 6)
    | dsimp only
    | simp (maxDischargeDepth := 6) +zetaDelta

theorem execNetworkRequest_kept (tag : Tag) (rq : NetReq) (s : State) {t : State}
    (h : execNetworkRequest tag rq s = .next t) : t.kept = s.kept := by
  unfold execNetworkRequest at h
  injection h with h
  subst h
  repeat' first
    | (simp (maxDischargeDepth := 6); done)
    | split
    | simp (maxDischargeDepth := 6)

theorem execHbmReadReturn_kept (stack : ℕ) (line : ℕ) (d : Line) (poison : Bool) (corrected : Bool) (s : State) {t : State}
    (h : execHbmReadReturn stack line d poison corrected s = .next t) : t.kept = s.kept := by
  unfold execHbmReadReturn at h
  injection h with h
  subst h
  simp (maxDischargeDepth := 6)

theorem execMetadataFetchReturn_kept (stack : ℕ) (line : ℕ) (d : Line) (poison : Bool) (corrected : Bool) (rootOk : Bool) (s : State) {t : State}
    (h : execMetadataFetchReturn stack line d poison corrected rootOk s = .next t) : t.kept = s.kept := by
  unfold execMetadataFetchReturn at h
  injection h with h
  subst h
  repeat' first
    | (simp (maxDischargeDepth := 6); done)
    | split
    | simp (maxDischargeDepth := 6)

theorem execHearthReadReturn_kept (line : ℕ) (d : Line) (e : BitVec 64) (s : State) {t : State}
    (h : execHearthReadReturn line d e s = .next t) : t.kept = s.kept := by
  unfold execHearthReadReturn at h
  injection h with h
  subst h
  repeat' first
    | (simp (maxDischargeDepth := 6); done)
    | split
    | simp (maxDischargeDepth := 6)

end Sys2Proof.Machine
end

