-- ==== Sys2Proof/Laws/KeptProup.lean ====
section
/-! SUPPORT. The operations of Proup keep the queue and the OTP areas. -/

set_option linter.unusedSimpArgs false
set_option linter.unusedTactic false
set_option linter.unreachableTactic false
set_option linter.unusedVariables false

namespace Sys2Proof.Machine
open Sys2Proof

@[simp] theorem State.unit_kept (s : State) (i : ℕ) (q : ℕ) (seq : ℕ) (op : ℕ) (f : Cmd → State → State) (hf : ∀ a0 a1, (f a0 a1).kept = a1.kept) :
    (State.unit s i q seq op f).kept = s.kept := by
  unfold State.unit
  repeat' first
    | (simp (maxDischargeDepth := 6) [hf]; done)
    | (simp (maxDischargeDepth := 6) +zetaDelta [hf]; done)
    | with_reducible refine Eq.trans (by assumption) ?_
    | intro _
    | split
    | simp (maxDischargeDepth := 6) only [kept_ite, kept_ite_snd, kept_ite_fst, kept_ite_snd2, kept_ite_snd3]
    | with_reducible refine (kept_foldl _ ?_ _ _).trans ?_
    | with_reducible refine (kept_foldl_snd _ ?_ _ _).trans ?_
    | with_reducible refine (kept_foldl_fst _ ?_ _ _).trans ?_
    | with_reducible refine (kept_foldl_snd2 _ ?_ _ _).trans ?_
    | with_reducible refine (hf _ _).trans ?_
    | with_reducible refine (kept_snd (by assumption)).trans ?_
    | with_reducible refine (kept_snd2 (by assumption)).trans ?_
    | with_reducible refine (kept_snd3 (by assumption)).trans ?_
    | with_reducible refine (kept_fst (by assumption)).trans ?_
    | with_reducible refine kept_of_some (by assumption) ?_
    | simp (maxDischargeDepth := 6) [hf]
    | dsimp only
    | simp (maxDischargeDepth := 6) +zetaDelta [hf]

@[simp] theorem State.failCmd_kept (s : State) (i : ℕ) (q : ℕ) (seq : ℕ) (st : ℕ) (dt : ℕ) (done : ℕ) :
    (State.failCmd s i q seq st dt done).kept = s.kept := by
  unfold State.failCmd
  simp (maxDischargeDepth := 6)

@[simp] theorem State.endCmd_kept (s : State) (i : ℕ) (q : ℕ) (seq : ℕ) (done : ℕ) (result : BitVec 64) :
    (State.endCmd s i q seq done result).kept = s.kept := by
  unfold State.endCmd
  simp (maxDischargeDepth := 6)

@[simp] theorem State.progressCmd_kept (s : State) (i : ℕ) (q : ℕ) (seq : ℕ) (n : ℕ) :
    (State.progressCmd s i q seq n).kept = s.kept := by
  unfold State.progressCmd
  simp (maxDischargeDepth := 6)

@[simp] theorem State.endWith_kept (s : State) (i : ℕ) (q : ℕ) (seq : ℕ) (r : Chk) (f : State → State) (result : BitVec 64) (hf : ∀ a0, (f a0).kept = a0.kept) :
    (State.endWith s i q seq r f result).kept = s.kept := by
  unfold State.endWith
  repeat' first
    | (simp (maxDischargeDepth := 6) [hf]; done)
    | (simp (maxDischargeDepth := 6) +zetaDelta [hf]; done)
    | with_reducible refine Eq.trans (by assumption) ?_
    | intro _
    | split
    | simp (maxDischargeDepth := 6) only [kept_ite, kept_ite_snd, kept_ite_fst, kept_ite_snd2, kept_ite_snd3]
    | with_reducible refine (kept_foldl _ ?_ _ _).trans ?_
    | with_reducible refine (kept_foldl_snd _ ?_ _ _).trans ?_
    | with_reducible refine (kept_foldl_fst _ ?_ _ _).trans ?_
    | with_reducible refine (kept_foldl_snd2 _ ?_ _ _).trans ?_
    | with_reducible refine (hf _).trans ?_
    | with_reducible refine (kept_snd (by assumption)).trans ?_
    | with_reducible refine (kept_snd2 (by assumption)).trans ?_
    | with_reducible refine (kept_snd3 (by assumption)).trans ?_
    | with_reducible refine (kept_fst (by assumption)).trans ?_
    | with_reducible refine kept_of_some (by assumption) ?_
    | simp (maxDischargeDepth := 6) [hf]
    | dsimp only
    | simp (maxDischargeDepth := 6) +zetaDelta [hf]

end Sys2Proof.Machine
end

