-- ==== Sys2Proof/Laws/KeptFabric.lean ====
section
/-! SUPPORT. The operations of Fabric keep the queue and the OTP areas. -/

set_option linter.unusedSimpArgs false
set_option linter.unusedTactic false
set_option linter.unreachableTactic false
set_option linter.unusedVariables false

namespace Sys2Proof.Machine
open Sys2Proof

@[simp] theorem State.takeLink_kept (s : State) (l : ℕ) (ftype : ℕ) :
    (State.takeLink s l ftype).2.kept = s.kept := by
  unfold State.takeLink
  repeat' first
    | (simp (maxDischargeDepth := 6); done)
    | split
    | simp (maxDischargeDepth := 6)

@[simp] theorem State.heard_kept (s : State) (h : ℕ) :
    (State.heard s h).kept = s.kept := by
  unfold State.heard
  simp (maxDischargeDepth := 6)

@[simp] theorem State.takeFlit_kept (s : State) (f : FlitIn) (ftype : ℕ) :
    (State.takeFlit s f ftype).2.kept = s.kept := by
  unfold State.takeFlit
  repeat' first
    | (simp (maxDischargeDepth := 6); done)
    | split
    | simp (maxDischargeDepth := 6)

@[simp] theorem State.answerRec_kept (s : State) (slot : Option ℕ) (src : ℕ) (b : ReqRec) (rc : ℕ) (value : BitVec 64) (data : List Byte) :
    (State.answerRec s slot src b rc value data).kept = s.kept := by
  unfold State.answerRec
  simp (maxDischargeDepth := 6)

@[simp] theorem State.appliedOne_kept (s : State) (p : PairKey) :
    (State.appliedOne s p).kept = s.kept := by
  unfold State.appliedOne
  simp (maxDischargeDepth := 6)

@[simp] theorem State.settleRec_kept (s : State) (slot : Option ℕ) (src : ℕ) (b : ReqRec) (rc : ℕ) (value : BitVec 64) (data : List Byte) :
    (State.settleRec s slot src b rc value data).kept = s.kept := by
  unfold State.settleRec
  repeat' first
    | (simp (maxDischargeDepth := 6); done)
    | (simp (maxDischargeDepth := 6) +zetaDelta; done)
    | with_reducible refine Eq.trans (by assumption) ?_
    | intro _
    | split
    | simp (maxDischargeDepth := 6) only [kept_ite, kept_ite_snd, kept_ite_fst, kept_ite_snd2, kept_ite_snd3]
    | with_reducible refine (kept_foldl _ ?_ _ _).trans ?_
    | with_reducible refine (kept_foldl_snd _ ?_ _ _).trans ?_
    | with_reducible refine (kept_foldl_fst _ ?_ _ _).trans ?_
    | with_reducible refine (kept_foldl_snd2 _ ?_ _ _).trans ?_
    | with_reducible refine (kept_snd (by assumption)).trans ?_
    | with_reducible refine (kept_snd2 (by assumption)).trans ?_
    | with_reducible refine (kept_snd3 (by assumption)).trans ?_
    | with_reducible refine (kept_fst (by assumption)).trans ?_
    | with_reducible refine kept_of_some (by assumption) ?_
    | simp (maxDischargeDepth := 6)
    | dsimp only
    | simp (maxDischargeDepth := 6) +zetaDelta

@[simp] theorem State.recCheck_kept (s : State) (slot : Option ℕ) (src : ℕ) (b : ReqRec) :
    (State.recCheck s slot src b).2.kept = s.kept := by
  unfold State.recCheck
  simp (maxDischargeDepth := 6)

@[simp] theorem State.applyMem_kept (s : State) (slot : Option ℕ) (src : ℕ) (b : ReqRec) :
    (State.applyMem s slot src b).kept = s.kept := by
  unfold State.applyMem
  repeat' first
    | (simp (maxDischargeDepth := 6); done)
    | (simp (maxDischargeDepth := 6) +zetaDelta; done)
    | with_reducible refine Eq.trans (by assumption) ?_
    | intro _
    | split
    | simp (maxDischargeDepth := 6) only [kept_ite, kept_ite_snd, kept_ite_fst, kept_ite_snd2, kept_ite_snd3]
    | with_reducible refine (kept_foldl _ ?_ _ _).trans ?_
    | with_reducible refine (kept_foldl_snd _ ?_ _ _).trans ?_
    | with_reducible refine (kept_foldl_fst _ ?_ _ _).trans ?_
    | with_reducible refine (kept_foldl_snd2 _ ?_ _ _).trans ?_
    | with_reducible refine (kept_snd (by assumption)).trans ?_
    | with_reducible refine (kept_snd2 (by assumption)).trans ?_
    | with_reducible refine (kept_snd3 (by assumption)).trans ?_
    | with_reducible refine (kept_fst (by assumption)).trans ?_
    | with_reducible refine kept_of_some (by assumption) ?_
    | simp (maxDischargeDepth := 6)
    | dsimp only
    | simp (maxDischargeDepth := 6) +zetaDelta

@[simp] theorem State.winDone_kept (s : State) (n : ℕ) :
    (State.winDone s n).kept = s.kept := by
  unfold State.winDone
  simp (maxDischargeDepth := 6)

@[simp] theorem State.unpark_kept (s : State) (id : ℕ) :
    (State.unpark s id).kept = s.kept := by
  unfold State.unpark
  simp (maxDischargeDepth := 6)

@[simp] theorem State.parkedAsk_kept (s : State) (p : Parked) (slice : ℕ) (a : ℕ) (n : ℕ) :
    (State.parkedAsk s p slice a n).kept = s.kept := by
  unfold State.parkedAsk
  simp (maxDischargeDepth := 6)

@[simp] theorem State.parkedPost_kept (s : State) (p : Parked) (slice : ℕ) (a : ℕ) (n : ℕ) :
    (State.parkedPost s p slice a n).kept = s.kept := by
  unfold State.parkedPost
  simp (maxDischargeDepth := 6)

@[simp] theorem State.workParked_kept (s : State) (p : Parked) :
    (State.workParked s p).kept = s.kept := by
  unfold State.workParked
  repeat' first
    | (simp (maxDischargeDepth := 6); done)
    | (simp (maxDischargeDepth := 6) +zetaDelta; done)
    | with_reducible refine Eq.trans (by assumption) ?_
    | intro _
    | split
    | simp (maxDischargeDepth := 6) only [kept_ite, kept_ite_snd, kept_ite_fst, kept_ite_snd2, kept_ite_snd3]
    | with_reducible refine (kept_foldl _ ?_ _ _).trans ?_
    | with_reducible refine (kept_foldl_snd _ ?_ _ _).trans ?_
    | with_reducible refine (kept_foldl_fst _ ?_ _ _).trans ?_
    | with_reducible refine (kept_foldl_snd2 _ ?_ _ _).trans ?_
    | with_reducible refine (kept_snd (by assumption)).trans ?_
    | with_reducible refine (kept_snd2 (by assumption)).trans ?_
    | with_reducible refine (kept_snd3 (by assumption)).trans ?_
    | with_reducible refine (kept_fst (by assumption)).trans ?_
    | with_reducible refine kept_of_some (by assumption) ?_
    | simp (maxDischargeDepth := 6)
    | dsimp only
    | simp (maxDischargeDepth := 6) +zetaDelta

@[simp] theorem State.applySignal_kept (s : State) (slot : Option ℕ) (src : ℕ) (b : ReqRec) :
    (State.applySignal s slot src b).kept = s.kept := by
  unfold State.applySignal
  simp (maxDischargeDepth := 6)

@[simp] theorem State.applyRec_kept (s : State) (slot : Option ℕ) (src : ℕ) (b : ReqRec) :
    (State.applyRec s slot src b).kept = s.kept := by
  unfold State.applyRec
  simp (maxDischargeDepth := 6)

@[simp] theorem State.releaseFlags_kept (pair : PairKey) (a : ℕ) (a1 : State) :
    (State.releaseFlags pair a a1).kept = a1.kept := by
  fun_induction State.releaseFlags pair a a1 <;> first
    | rfl
    | (simp (maxDischargeDepth := 6); done)
    | (repeat' first
        | (simp (maxDischargeDepth := 6); done)
        | (simp (maxDischargeDepth := 6) +zetaDelta; done)
        | with_reducible refine Eq.trans (by assumption) ?_
        | intro _
        | split
        | simp (maxDischargeDepth := 6) only [kept_ite, kept_ite_snd, kept_ite_fst, kept_ite_snd2, kept_ite_snd3]
        | with_reducible refine (kept_foldl _ ?_ _ _).trans ?_
        | with_reducible refine (kept_foldl_snd _ ?_ _ _).trans ?_
        | with_reducible refine (kept_foldl_fst _ ?_ _ _).trans ?_
        | with_reducible refine (kept_foldl_snd2 _ ?_ _ _).trans ?_
        | with_reducible refine (kept_snd (by assumption)).trans ?_
        | with_reducible refine (kept_snd2 (by assumption)).trans ?_
        | with_reducible refine (kept_snd3 (by assumption)).trans ?_
        | with_reducible refine (kept_fst (by assumption)).trans ?_
        | with_reducible refine kept_of_some (by assumption) ?_
        | simp (maxDischargeDepth := 6)
        | dsimp only
        | simp (maxDischargeDepth := 6) +zetaDelta)

@[simp] theorem State.releaseDue_kept (s : State) :
    (State.releaseDue s).kept = s.kept := by
  unfold State.releaseDue
  repeat' first
    | (simp (maxDischargeDepth := 6); done)
    | (simp (maxDischargeDepth := 6) +zetaDelta; done)
    | with_reducible refine Eq.trans (by assumption) ?_
    | intro _
    | split
    | simp (maxDischargeDepth := 6) only [kept_ite, kept_ite_snd, kept_ite_fst, kept_ite_snd2, kept_ite_snd3]
    | with_reducible refine (kept_foldl _ ?_ _ _).trans ?_
    | with_reducible refine (kept_foldl_snd _ ?_ _ _).trans ?_
    | with_reducible refine (kept_foldl_fst _ ?_ _ _).trans ?_
    | with_reducible refine (kept_foldl_snd2 _ ?_ _ _).trans ?_
    | with_reducible refine (kept_snd (by assumption)).trans ?_
    | with_reducible refine (kept_snd2 (by assumption)).trans ?_
    | with_reducible refine (kept_snd3 (by assumption)).trans ?_
    | with_reducible refine (kept_fst (by assumption)).trans ?_
    | with_reducible refine kept_of_some (by assumption) ?_
    | simp (maxDischargeDepth := 6)
    | dsimp only
    | simp (maxDischargeDepth := 6) +zetaDelta

@[simp] theorem State.retryParked_kept (s : State) :
    (State.retryParked s).kept = s.kept := by
  unfold State.retryParked
  simp (maxDischargeDepth := 6)

@[simp] theorem State.parkedData_kept (s : State) (id : ℕ) (d : Option (List Byte)) :
    (State.parkedData s id d).kept = s.kept := by
  unfold State.parkedData
  repeat' first
    | (simp (maxDischargeDepth := 6); done)
    | split
    | simp (maxDischargeDepth := 6)

@[simp] theorem State.requestRec_kept (s : State) (slot : Option ℕ) (src : ℕ) (b : ReqRec) :
    (State.requestRec s slot src b).kept = s.kept := by
  unfold State.requestRec
  simp (maxDischargeDepth := 6)

@[simp] theorem State.forward_kept (s : State) (f : RxFlit) (recs : List (List Byte)) :
    (State.forward s f recs).kept = s.kept := by
  unfold State.forward
  repeat' first
    | (simp (maxDischargeDepth := 6); done)
    | (simp (maxDischargeDepth := 6) +zetaDelta; done)
    | with_reducible refine Eq.trans (by assumption) ?_
    | intro _
    | split
    | simp (maxDischargeDepth := 6) only [kept_ite, kept_ite_snd, kept_ite_fst, kept_ite_snd2, kept_ite_snd3]
    | with_reducible refine (kept_foldl _ ?_ _ _).trans ?_
    | with_reducible refine (kept_foldl_snd _ ?_ _ _).trans ?_
    | with_reducible refine (kept_foldl_fst _ ?_ _ _).trans ?_
    | with_reducible refine (kept_foldl_snd2 _ ?_ _ _).trans ?_
    | with_reducible refine (State.sendFab_kept (by assumption)).trans ?_
    | with_reducible refine (kept_snd (by assumption)).trans ?_
    | with_reducible refine (kept_snd2 (by assumption)).trans ?_
    | with_reducible refine (kept_snd3 (by assumption)).trans ?_
    | with_reducible refine (kept_fst (by assumption)).trans ?_
    | with_reducible refine kept_of_some (by assumption) ?_
    | simp (maxDischargeDepth := 6)
    | dsimp only
    | simp (maxDischargeDepth := 6) +zetaDelta

theorem execFabRequestReceive_kept (f : FlitIn) (s : State) {t : State}
    (h : execFabRequestReceive f s = .next t) : t.kept = s.kept := by
  unfold execFabRequestReceive at h
  injection h with h
  subst h
  repeat' first
    | (simp (maxDischargeDepth := 6); done)
    | (simp (maxDischargeDepth := 6) +zetaDelta; done)
    | with_reducible refine Eq.trans (by assumption) ?_
    | intro _
    | split
    | simp (maxDischargeDepth := 6) only [kept_ite, kept_ite_snd, kept_ite_fst, kept_ite_snd2, kept_ite_snd3]
    | with_reducible refine (kept_foldl _ ?_ _ _).trans ?_
    | with_reducible refine (kept_foldl_snd _ ?_ _ _).trans ?_
    | with_reducible refine (kept_foldl_fst _ ?_ _ _).trans ?_
    | with_reducible refine (kept_foldl_snd2 _ ?_ _ _).trans ?_
    | with_reducible refine (kept_snd (by assumption)).trans ?_
    | with_reducible refine (kept_snd2 (by assumption)).trans ?_
    | with_reducible refine (kept_snd3 (by assumption)).trans ?_
    | with_reducible refine (kept_fst (by assumption)).trans ?_
    | with_reducible refine kept_of_some (by assumption) ?_
    | simp (maxDischargeDepth := 6)
    | dsimp only
    | simp (maxDischargeDepth := 6) +zetaDelta

@[simp] theorem State.responseRec_kept (s : State) (slot : Option ℕ) (src : ℕ) (b : List Byte) :
    (State.responseRec s slot src b).kept = s.kept := by
  unfold State.responseRec
  repeat' first
    | (simp (maxDischargeDepth := 6); done)
    | split
    | simp (maxDischargeDepth := 6)

theorem execFabResponseReceive_kept (f : FlitIn) (s : State) {t : State}
    (h : execFabResponseReceive f s = .next t) : t.kept = s.kept := by
  unfold execFabResponseReceive at h
  injection h with h
  subst h
  repeat' first
    | (simp (maxDischargeDepth := 6); done)
    | (simp (maxDischargeDepth := 6) +zetaDelta; done)
    | with_reducible refine Eq.trans (by assumption) ?_
    | intro _
    | split
    | simp (maxDischargeDepth := 6) only [kept_ite, kept_ite_snd, kept_ite_fst, kept_ite_snd2, kept_ite_snd3]
    | with_reducible refine (kept_foldl _ ?_ _ _).trans ?_
    | with_reducible refine (kept_foldl_snd _ ?_ _ _).trans ?_
    | with_reducible refine (kept_foldl_fst _ ?_ _ _).trans ?_
    | with_reducible refine (kept_foldl_snd2 _ ?_ _ _).trans ?_
    | with_reducible refine (kept_snd (by assumption)).trans ?_
    | with_reducible refine (kept_snd2 (by assumption)).trans ?_
    | with_reducible refine (kept_snd3 (by assumption)).trans ?_
    | with_reducible refine (kept_fst (by assumption)).trans ?_
    | with_reducible refine kept_of_some (by assumption) ?_
    | simp (maxDischargeDepth := 6)
    | dsimp only
    | simp (maxDischargeDepth := 6) +zetaDelta

@[simp] theorem State.markLost_kept (s : State) (pair : PairKey) :
    (State.markLost s pair).kept = s.kept := by
  unfold State.markLost
  simp (maxDischargeDepth := 6)

theorem execRecordTimeout_kept (tid : ℕ) (s : State) {t : State}
    (h : execRecordTimeout tid s = .next t) : t.kept = s.kept := by
  unfold execRecordTimeout at h
  injection h with h
  subst h
  repeat' first
    | (simp (maxDischargeDepth := 6); done)
    | split
    | simp (maxDischargeDepth := 6)

theorem execHoldResend_kept (tid : ℕ) (s : State) {t : State}
    (h : execHoldResend tid s = .next t) : t.kept = s.kept := by
  unfold execHoldResend at h
  injection h with h
  subst h
  repeat' first
    | (simp (maxDischargeDepth := 6); done)
    | (simp (maxDischargeDepth := 6) +zetaDelta; done)
    | with_reducible refine Eq.trans (by assumption) ?_
    | intro _
    | split
    | simp (maxDischargeDepth := 6) only [kept_ite, kept_ite_snd, kept_ite_fst, kept_ite_snd2, kept_ite_snd3]
    | with_reducible refine (kept_foldl _ ?_ _ _).trans ?_
    | with_reducible refine (kept_foldl_snd _ ?_ _ _).trans ?_
    | with_reducible refine (kept_foldl_fst _ ?_ _ _).trans ?_
    | with_reducible refine (kept_foldl_snd2 _ ?_ _ _).trans ?_
    | with_reducible refine (State.sendFab_kept (by assumption)).trans ?_
    | with_reducible refine (kept_snd (by assumption)).trans ?_
    | with_reducible refine (kept_snd2 (by assumption)).trans ?_
    | with_reducible refine (kept_snd3 (by assumption)).trans ?_
    | with_reducible refine (kept_fst (by assumption)).trans ?_
    | with_reducible refine kept_of_some (by assumption) ?_
    | simp (maxDischargeDepth := 6)
    | dsimp only
    | simp (maxDischargeDepth := 6) +zetaDelta

theorem execFlagHoldExpiry_kept (s : State) {t : State}
    (h : execFlagHoldExpiry s = .next t) : t.kept = s.kept := by
  unfold execFlagHoldExpiry at h
  injection h with h
  subst h
  simp (maxDischargeDepth := 6)

theorem execFabTclr_kept (r : Req) (v : BitVec 32) (s : State) {t : State}
    (h : execFabTclr r v s = .next t) : t.kept = s.kept := by
  unfold execFabTclr at h
  injection h with h
  subst h
  simp (maxDischargeDepth := 6)

@[simp] theorem State.writeRtdata_kept (s : State) (r : Req) (v : BitVec 64) :
    (State.writeRtdata s r v).kept = s.kept := by
  unfold State.writeRtdata
  repeat' first
    | (simp (maxDischargeDepth := 6); done)
    | (simp (maxDischargeDepth := 6) +zetaDelta; done)
    | with_reducible refine Eq.trans (by assumption) ?_
    | intro _
    | split
    | simp (maxDischargeDepth := 6) only [kept_ite, kept_ite_snd, kept_ite_fst, kept_ite_snd2, kept_ite_snd3]
    | with_reducible refine (kept_foldl _ ?_ _ _).trans ?_
    | with_reducible refine (kept_foldl_snd _ ?_ _ _).trans ?_
    | with_reducible refine (kept_foldl_fst _ ?_ _ _).trans ?_
    | with_reducible refine (kept_foldl_snd2 _ ?_ _ _).trans ?_
    | with_reducible refine (State.regWriteMgmt_kept _ _ _ _ _ ?_).trans ?_
    | with_reducible refine (kept_snd (by assumption)).trans ?_
    | with_reducible refine (kept_snd2 (by assumption)).trans ?_
    | with_reducible refine (kept_snd3 (by assumption)).trans ?_
    | with_reducible refine (kept_fst (by assumption)).trans ?_
    | with_reducible refine kept_of_some (by assumption) ?_
    | simp (maxDischargeDepth := 6)
    | dsimp only
    | simp (maxDischargeDepth := 6) +zetaDelta

theorem execFabRtdataWrite_kept (r : Req) (v : BitVec 64) (s : State) {t : State}
    (h : execFabRtdataWrite r v s = .next t) : t.kept = s.kept := by
  unfold execFabRtdataWrite at h
  injection h with h
  subst h
  simp (maxDischargeDepth := 6)

end Sys2Proof.Machine
end

