-- ==== Sys2Proof/Laws/KeptLinkOps.lean ====
section
/-! SUPPORT. The operations of LinkOps keep the queue and the OTP areas. -/

set_option linter.unusedSimpArgs false
set_option linter.unusedTactic false
set_option linter.unreachableTactic false
set_option linter.unusedVariables false

namespace Sys2Proof.Machine
open Sys2Proof

@[simp] theorem State.modLane_kept (s : State) (g : ℕ) (f : Lane → Lane) :
    (State.modLane s g f).kept = s.kept := by
  unfold State.modLane
  simp (maxDischargeDepth := 6)

@[simp] theorem State.codeFlit_kept (s : State) (l : ℕ) (flit : List Byte) :
    (State.codeFlit s l flit).kept = s.kept := by
  unfold State.codeFlit
  repeat' first
    | (simp (maxDischargeDepth := 6); done)
    | (simp (maxDischargeDepth := 6) +zetaDelta; done)
    | with_reducible refine Eq.trans (by assumption) ?_
    | intro _
    | split
    | simp (maxDischargeDepth := 6) only [kept_ite, kept_ite_snd, kept_ite_fst, kept_ite_snd2, kept_ite_snd3]
    | with_reducible refine (kept_foldl _ ?_ _ _).trans ?_
    | with_reducible refine (kept_foldl_snd _ ?_ _ _).trans ?_
    | with_reducible refine (kept_foldl_fst _ ?_ _ _).trans ?_
    | with_reducible refine (kept_foldl_snd2 _ ?_ _ _).trans ?_
    | with_reducible refine (kept_snd (by assumption)).trans ?_
    | with_reducible refine (kept_snd2 (by assumption)).trans ?_
    | with_reducible refine (kept_snd3 (by assumption)).trans ?_
    | with_reducible refine (kept_fst (by assumption)).trans ?_
    | with_reducible refine kept_of_some (by assumption) ?_
    | simp (maxDischargeDepth := 6)
    | dsimp only
    | simp (maxDischargeDepth := 6) +zetaDelta

@[simp] theorem State.flitOut_kept (s : State) (l : ℕ) (h : BitVec 64) (pl : List Byte) (t : BitVec 64) :
    (State.flitOut s l h pl t).kept = s.kept := by
  unfold State.flitOut
  simp (maxDischargeDepth := 6)

@[simp] theorem State.sendPlain_kept (s : State) (l : ℕ) (ftype : ℕ) (pl : List Byte) :
    (State.sendPlain s l ftype pl).kept = s.kept := by
  unfold State.sendPlain
  simp (maxDischargeDepth := 6)

theorem State.sessKey_kept {s t : State} {slot : Nat} {e : BitVec 16} {src dst : Nat} {k : BitVec 288}
    (h : s.sessKey slot e src dst = some (k, t)) : t.kept = s.kept := by
  unfold State.sessKey at h
  split at h
  · cases h
  · split at h
    · injection h with h; injection h with _ h; subst h; simp
    · cases h

@[simp] theorem State.askKey_kept (s : State) (l : ℕ) (slot : ℕ) (e : BitVec 16) (src : ℕ) (dst : ℕ) :
    (State.askKey s l slot e src dst).kept = s.kept := by
  unfold State.askKey
  simp (maxDischargeDepth := 6)

@[simp] theorem State.addSess_kept (s : State) (slot : ℕ) (epoch : BitVec 16) (src : ℕ) (dst : ℕ) (key : BitVec 288) (pinned : Bool) :
    (State.addSess s slot epoch src dst key pinned).kept = s.kept := by
  unfold State.addSess
  simp (maxDischargeDepth := 6)

@[simp] theorem State.serdes_kept (s : State) (l : ℕ) (c : ℕ) :
    (State.serdes s l c).kept = s.kept := by
  unfold State.serdes
  simp (maxDischargeDepth := 6)

@[simp] theorem State.linkMoved_kept (s : State) (l : ℕ) (old : LinkState) :
    (State.linkMoved s l old).kept = s.kept := by
  unfold State.linkMoved
  repeat' first
    | (simp (maxDischargeDepth := 6); done)
    | (simp (maxDischargeDepth := 6) +zetaDelta; done)
    | with_reducible refine Eq.trans (by assumption) ?_
    | intro _
    | split
    | simp (maxDischargeDepth := 6) only [kept_ite, kept_ite_snd, kept_ite_fst, kept_ite_snd2, kept_ite_snd3]
    | with_reducible refine (kept_foldl _ ?_ _ _).trans ?_
    | with_reducible refine (kept_foldl_snd _ ?_ _ _).trans ?_
    | with_reducible refine (kept_foldl_fst _ ?_ _ _).trans ?_
    | with_reducible refine (kept_foldl_snd2 _ ?_ _ _).trans ?_
    | with_reducible refine (kept_snd (by assumption)).trans ?_
    | with_reducible refine (kept_snd2 (by assumption)).trans ?_
    | with_reducible refine (kept_snd3 (by assumption)).trans ?_
    | with_reducible refine (kept_fst (by assumption)).trans ?_
    | with_reducible refine kept_of_some (by assumption) ?_
    | simp (maxDischargeDepth := 6)
    | dsimp only
    | simp (maxDischargeDepth := 6) +zetaDelta

@[simp] theorem State.moveLink_kept (s : State) (l : ℕ) (st : LinkState) (cause : Option ℕ) :
    (State.moveLink s l st cause).kept = s.kept := by
  unfold State.moveLink
  simp (maxDischargeDepth := 6)

@[simp] theorem State.toLocking_kept (s : State) (l : ℕ) (cause : Option ℕ) :
    (State.toLocking s l cause).kept = s.kept := by
  unfold State.toLocking
  repeat' first
    | (simp (maxDischargeDepth := 6); done)
    | (simp (maxDischargeDepth := 6) +zetaDelta; done)
    | with_reducible refine Eq.trans (by assumption) ?_
    | intro _
    | split
    | simp (maxDischargeDepth := 6) only [kept_ite, kept_ite_snd, kept_ite_fst, kept_ite_snd2, kept_ite_snd3]
    | with_reducible refine (kept_foldl _ ?_ _ _).trans ?_
    | with_reducible refine (kept_foldl_snd _ ?_ _ _).trans ?_
    | with_reducible refine (kept_foldl_fst _ ?_ _ _).trans ?_
    | with_reducible refine (kept_foldl_snd2 _ ?_ _ _).trans ?_
    | with_reducible refine (kept_snd (by assumption)).trans ?_
    | with_reducible refine (kept_snd2 (by assumption)).trans ?_
    | with_reducible refine (kept_snd3 (by assumption)).trans ?_
    | with_reducible refine (kept_fst (by assumption)).trans ?_
    | with_reducible refine kept_of_some (by assumption) ?_
    | simp (maxDischargeDepth := 6)
    | dsimp only
    | simp (maxDischargeDepth := 6) +zetaDelta

@[simp] theorem State.reroute_kept (s : State) (fs : List FabFlit) :
    (State.reroute s fs).kept = s.kept := by
  unfold State.reroute
  repeat' first
    | (simp (maxDischargeDepth := 6); done)
    | (simp (maxDischargeDepth := 6) +zetaDelta; done)
    | with_reducible refine Eq.trans (by assumption) ?_
    | intro _
    | split
    | simp (maxDischargeDepth := 6) only [kept_ite, kept_ite_snd, kept_ite_fst, kept_ite_snd2, kept_ite_snd3]
    | with_reducible refine (kept_foldl _ ?_ _ _).trans ?_
    | with_reducible refine (kept_foldl_snd _ ?_ _ _).trans ?_
    | with_reducible refine (kept_foldl_fst _ ?_ _ _).trans ?_
    | with_reducible refine (kept_foldl_snd2 _ ?_ _ _).trans ?_
    | with_reducible refine (State.sendFab_kept (by assumption)).trans ?_
    | with_reducible refine (kept_snd (by assumption)).trans ?_
    | with_reducible refine (kept_snd2 (by assumption)).trans ?_
    | with_reducible refine (kept_snd3 (by assumption)).trans ?_
    | with_reducible refine (kept_fst (by assumption)).trans ?_
    | with_reducible refine kept_of_some (by assumption) ?_
    | simp (maxDischargeDepth := 6)
    | dsimp only
    | simp (maxDischargeDepth := 6) +zetaDelta

@[simp] theorem State.retryWaiting_kept (s : State) :
    (State.retryWaiting s).kept = s.kept := by
  unfold State.retryWaiting
  simp (maxDischargeDepth := 6)

@[simp] theorem State.rehash_kept (s : State) (l : ℕ) :
    (State.rehash s l).kept = s.kept := by
  unfold State.rehash
  simp (maxDischargeDepth := 6)

@[simp] theorem State.endRunsOn_kept (s : State) (l : ℕ) :
    (State.endRunsOn s l).kept = s.kept := by
  unfold State.endRunsOn
  simp (maxDischargeDepth := 6)

@[simp] theorem State.linkLost_kept (s : State) (l : ℕ) :
    (State.linkLost s l).kept = s.kept := by
  unfold State.linkLost
  simp (maxDischargeDepth := 6)

@[simp] theorem State.leaveUp_kept (s : State) (l : ℕ) :
    (State.leaveUp s l).kept = s.kept := by
  unfold State.leaveUp
  simp (maxDischargeDepth := 6)

@[simp] theorem State.toTraining_kept (s : State) (l : ℕ) (cause : Option ℕ) (cold : Bool) :
    (State.toTraining s l cause cold).kept = s.kept := by
  unfold State.toTraining
  simp (maxDischargeDepth := 6)

@[simp] theorem State.toDown_kept (s : State) (l : ℕ) (st : LinkState) (cause : ℕ) :
    (State.toDown s l st cause).kept = s.kept := by
  unfold State.toDown
  simp (maxDischargeDepth := 6)

@[simp] theorem State.attemptFailed_kept (s : State) (l : ℕ) (cause : ℕ) (cold : Bool) :
    (State.attemptFailed s l cause cold).kept = s.kept := by
  unfold State.attemptFailed
  simp (maxDischargeDepth := 6)

@[simp] theorem State.resend_kept (s : State) (l : ℕ) (fs : List SentFlit) :
    (State.resend s l fs).kept = s.kept := by
  unfold State.resend
  simp (maxDischargeDepth := 6)

@[simp] theorem State.retry_kept (s : State) (l : ℕ) (fs : List SentFlit) :
    (State.retry s l fs).kept = s.kept := by
  unfold State.retry
  simp (maxDischargeDepth := 6)

@[simp] theorem State.sendCtl_kept (s : State) (l : ℕ) (nak : Bool) :
    (State.sendCtl s l nak).kept = s.kept := by
  unfold State.sendCtl
  simp (maxDischargeDepth := 6)

@[simp] theorem State.takeCtl_kept (s : State) (l : ℕ) (pl : List Byte) :
    (State.takeCtl s l pl).kept = s.kept := by
  unfold State.takeCtl
  simp (maxDischargeDepth := 6)

@[simp] theorem State.linkUp_kept (s : State) (l : ℕ) (n : Neg) :
    (State.linkUp s l n).kept = s.kept := by
  unfold State.linkUp
  simp (maxDischargeDepth := 6)

@[simp] theorem State.sendNeg_kept (s : State) (link : ℕ) :
    (State.sendNeg s link).kept = s.kept := by
  unfold State.sendNeg
  simp (maxDischargeDepth := 6)

@[simp] theorem State.renegotiate_kept (s : State) (link : ℕ) :
    (State.renegotiate s link).kept = s.kept := by
  unfold State.renegotiate
  repeat' first
    | (simp (maxDischargeDepth := 6); done)
    | (simp (maxDischargeDepth := 6) +zetaDelta; done)
    | with_reducible refine Eq.trans (by assumption) ?_
    | intro _
    | split
    | simp (maxDischargeDepth := 6) only [kept_ite, kept_ite_snd, kept_ite_fst, kept_ite_snd2, kept_ite_snd3]
    | with_reducible refine (kept_foldl _ ?_ _ _).trans ?_
    | with_reducible refine (kept_foldl_snd _ ?_ _ _).trans ?_
    | with_reducible refine (kept_foldl_fst _ ?_ _ _).trans ?_
    | with_reducible refine (kept_foldl_snd2 _ ?_ _ _).trans ?_
    | with_reducible refine (kept_snd (by assumption)).trans ?_
    | with_reducible refine (kept_snd2 (by assumption)).trans ?_
    | with_reducible refine (kept_snd3 (by assumption)).trans ?_
    | with_reducible refine (kept_fst (by assumption)).trans ?_
    | with_reducible refine kept_of_some (by assumption) ?_
    | simp (maxDischargeDepth := 6)
    | dsimp only
    | simp (maxDischargeDepth := 6) +zetaDelta

@[simp] theorem State.takeNeg_kept (s : State) (link : ℕ) (n : Neg) :
    (State.takeNeg s link n).kept = s.kept := by
  unfold State.takeNeg
  simp (maxDischargeDepth := 6)

end Sys2Proof.Machine
end

