-- ==== Sys2Proof/Laws/KeptFlit.lean ====
section
/-! SUPPORT. The operations of Flit keep the queue and the OTP areas. -/

set_option linter.unusedSimpArgs false
set_option linter.unusedTactic false
set_option linter.unreachableTactic false
set_option linter.unusedVariables false

namespace Sys2Proof.Machine
open Sys2Proof

@[simp] theorem State.takeSeq_kept (s : State) (l : ℕ) (cls : ℕ) (f : Option RxFlit) :
    (State.takeSeq s l cls f).kept = s.kept := by
  unfold State.takeSeq
  repeat' first
    | (simp (maxDischargeDepth := 6); done)
    | split
    | simp (maxDischargeDepth := 6)

@[simp] theorem State.endSeq_kept (s : State) (l : ℕ) (cls : ℕ) (f : Option RxFlit) (eff : State → State) (heff : ∀ a0, (eff a0).kept = a0.kept) :
    (State.endSeq s l cls f eff).kept = s.kept := by
  unfold State.endSeq
  repeat' first
    | (simp (maxDischargeDepth := 6) [heff]; done)
    | (simp (maxDischargeDepth := 6) +zetaDelta [heff]; done)
    | with_reducible refine Eq.trans (by assumption) ?_
    | intro _
    | split
    | simp (maxDischargeDepth := 6) only [kept_ite, kept_ite_snd, kept_ite_fst, kept_ite_snd2, kept_ite_snd3]
    | with_reducible refine (kept_foldl _ ?_ _ _).trans ?_
    | with_reducible refine (kept_foldl_snd _ ?_ _ _).trans ?_
    | with_reducible refine (kept_foldl_fst _ ?_ _ _).trans ?_
    | with_reducible refine (kept_foldl_snd2 _ ?_ _ _).trans ?_
    | with_reducible refine (heff _).trans ?_
    | with_reducible refine (kept_snd (by assumption)).trans ?_
    | with_reducible refine (kept_snd2 (by assumption)).trans ?_
    | with_reducible refine (kept_snd3 (by assumption)).trans ?_
    | with_reducible refine (kept_fst (by assumption)).trans ?_
    | with_reducible refine kept_of_some (by assumption) ?_
    | simp (maxDischargeDepth := 6) [heff]
    | dsimp only
    | simp (maxDischargeDepth := 6) +zetaDelta [heff]

@[simp] theorem State.countDrop_kept (s : State) (l : ℕ) :
    (State.countDrop s l).kept = s.kept := by
  unfold State.countDrop
  simp (maxDischargeDepth := 6)

@[simp] theorem State.countNoSession_kept (s : State) (l : ℕ) :
    (State.countNoSession s l).kept = s.kept := by
  unfold State.countNoSession
  simp (maxDischargeDepth := 6)

@[simp] theorem State.linkTag_kept (s : State) (l : ℕ) (slot : ℕ) (lseq : ℕ) (row : ℕ) :
    (State.linkTag s l slot lseq row).kept = s.kept := by
  unfold State.linkTag
  simp (maxDischargeDepth := 6)

@[simp] theorem State.setRxCtr_kept (s : State) (slot : ℕ) (l : ℕ) (v : RxCtr) :
    (State.setRxCtr s slot l v).kept = s.kept := by
  unfold State.setRxCtr
  simp (maxDischargeDepth := 6)

@[simp] theorem State.tagFailed_kept (s : State) (l : ℕ) (slot : ℕ) (lseq : ℕ) (cls : ℕ) :
    (State.tagFailed s l slot lseq cls).kept = s.kept := by
  unfold State.tagFailed
  simp (maxDischargeDepth := 6)

@[simp] theorem State.takeStart_kept (s : State) (l : ℕ) (slot : ℕ) (lseq : ℕ) (e : BitVec 16) (c : ℕ) :
    (State.takeStart s l slot lseq e c).kept = s.kept := by
  unfold State.takeStart
  simp (maxDischargeDepth := 6)

@[simp] theorem State.rxSession_kept (s : State) (l : ℕ) (refused : Bool) (h : BitVec 64) (pl : List Byte) (tag : BitVec 64) :
    (State.rxSession s l refused h pl tag).2.kept = s.kept := by
  unfold State.rxSession
  repeat' first
    | (simp (maxDischargeDepth := 6); done)
    | (simp (maxDischargeDepth := 6) +zetaDelta; done)
    | with_reducible refine Eq.trans (by assumption) ?_
    | intro _
    | split
    | simp (maxDischargeDepth := 6) only [kept_ite, kept_ite_snd, kept_ite_fst, kept_ite_snd2, kept_ite_snd3]
    | with_reducible refine (kept_foldl _ ?_ _ _).trans ?_
    | with_reducible refine (kept_foldl_snd _ ?_ _ _).trans ?_
    | with_reducible refine (kept_foldl_fst _ ?_ _ _).trans ?_
    | with_reducible refine (kept_foldl_snd2 _ ?_ _ _).trans ?_
    | with_reducible refine (State.sessKey_kept (by assumption)).trans ?_
    | with_reducible refine (State.endSeq_kept _ _ _ _ _ ?_).trans ?_
    | with_reducible refine (kept_snd (by assumption)).trans ?_
    | with_reducible refine (kept_snd2 (by assumption)).trans ?_
    | with_reducible refine (kept_snd3 (by assumption)).trans ?_
    | with_reducible refine (kept_fst (by assumption)).trans ?_
    | with_reducible refine kept_of_some (by assumption) ?_
    | simp (maxDischargeDepth := 6)
    | dsimp only
    | simp (maxDischargeDepth := 6) +zetaDelta

@[simp] theorem State.rxSession_some (s : State) (l : ℕ) (refused : Bool) (h : BitVec 64) (pl : List Byte) (tag : BitVec 64) :
    ((State.rxSession s l refused h pl tag).1.getD s).kept = s.kept := by
  unfold State.rxSession
  repeat' first
    | (simp (maxDischargeDepth := 6); done)
    | (simp (maxDischargeDepth := 6) +zetaDelta; done)
    | with_reducible refine Eq.trans (by assumption) ?_
    | intro _
    | split
    | simp (maxDischargeDepth := 6) only [kept_ite, kept_ite_snd, kept_ite_fst, kept_ite_snd2, kept_ite_snd3]
    | with_reducible refine (kept_foldl _ ?_ _ _).trans ?_
    | with_reducible refine (kept_foldl_snd _ ?_ _ _).trans ?_
    | with_reducible refine (kept_foldl_fst _ ?_ _ _).trans ?_
    | with_reducible refine (kept_foldl_snd2 _ ?_ _ _).trans ?_
    | with_reducible refine (State.sessKey_kept (by assumption)).trans ?_
    | with_reducible refine (State.endSeq_kept _ _ _ _ _ ?_).trans ?_
    | with_reducible refine (kept_snd (by assumption)).trans ?_
    | with_reducible refine (kept_snd2 (by assumption)).trans ?_
    | with_reducible refine (kept_snd3 (by assumption)).trans ?_
    | with_reducible refine (kept_fst (by assumption)).trans ?_
    | with_reducible refine kept_of_some (by assumption) ?_
    | simp (maxDischargeDepth := 6)
    | dsimp only
    | simp (maxDischargeDepth := 6) +zetaDelta

@[simp] theorem State.rxDamaged_kept (s : State) (l : ℕ) :
    (State.rxDamaged s l).kept = s.kept := by
  unfold State.rxDamaged
  simp (maxDischargeDepth := 6)

@[simp] theorem State.rxFlit_kept (s : State) (l : ℕ) (refused : Bool) (damaged : Bool) (b : List Byte) :
    (State.rxFlit s l refused damaged b).2.kept = s.kept := by
  unfold State.rxFlit
  simp (maxDischargeDepth := 6)

@[simp] theorem State.rxFlit_some (s : State) (l : ℕ) (refused : Bool) (damaged : Bool) (b : List Byte) :
    ((State.rxFlit s l refused damaged b).1.getD s).kept = s.kept := by
  unfold State.rxFlit
  simp (maxDischargeDepth := 6)

@[simp] theorem State.rxAll_kept (a : ℕ) (a1 : ℕ) (a11 : Bool) (a111 : List (ℕ × Bool × List Byte)) (a1111 : State) :
    (State.rxAll a a1 a11 a111 a1111).kept = a1111.kept := by
  fun_induction State.rxAll a a1 a11 a111 a1111 <;> first
    | rfl
    | (simp (maxDischargeDepth := 6); done)
    | (repeat' first
        | (simp (maxDischargeDepth := 6); done)
        | (simp (maxDischargeDepth := 6) +zetaDelta; done)
        | with_reducible refine Eq.trans (by assumption) ?_
        | intro _
        | split
        | simp (maxDischargeDepth := 6) only [kept_ite, kept_ite_snd, kept_ite_fst, kept_ite_snd2, kept_ite_snd3]
        | with_reducible refine (kept_foldl _ ?_ _ _).trans ?_
        | with_reducible refine (kept_foldl_snd _ ?_ _ _).trans ?_
        | with_reducible refine (kept_foldl_fst _ ?_ _ _).trans ?_
        | with_reducible refine (kept_foldl_snd2 _ ?_ _ _).trans ?_
        | with_reducible refine (kept_snd (by assumption)).trans ?_
        | with_reducible refine (kept_snd2 (by assumption)).trans ?_
        | with_reducible refine (kept_snd3 (by assumption)).trans ?_
        | with_reducible refine (kept_fst (by assumption)).trans ?_
        | with_reducible refine kept_of_some (by assumption) ?_
        | simp (maxDischargeDepth := 6)
        | dsimp only
        | simp (maxDischargeDepth := 6) +zetaDelta)

@[simp] theorem State.rxResume_kept (s : State) (l : ℕ) (refused : Bool) :
    (State.rxResume s l refused).kept = s.kept := by
  unfold State.rxResume
  simp (maxDischargeDepth := 6)

@[simp] theorem State.symCorrected_kept (s : State) (l : ℕ) (sym : ℕ) :
    (State.symCorrected s l sym).kept = s.kept := by
  unfold State.symCorrected
  repeat' first
    | (simp (maxDischargeDepth := 6); done)
    | (simp (maxDischargeDepth := 6) +zetaDelta; done)
    | with_reducible refine Eq.trans (by assumption) ?_
    | intro _
    | split
    | simp (maxDischargeDepth := 6) only [kept_ite, kept_ite_snd, kept_ite_fst, kept_ite_snd2, kept_ite_snd3]
    | with_reducible refine (kept_foldl _ ?_ _ _).trans ?_
    | with_reducible refine (kept_foldl_snd _ ?_ _ _).trans ?_
    | with_reducible refine (kept_foldl_fst _ ?_ _ _).trans ?_
    | with_reducible refine (kept_foldl_snd2 _ ?_ _ _).trans ?_
    | with_reducible refine (kept_snd (by assumption)).trans ?_
    | with_reducible refine (kept_snd2 (by assumption)).trans ?_
    | with_reducible refine (kept_snd3 (by assumption)).trans ?_
    | with_reducible refine (kept_fst (by assumption)).trans ?_
    | with_reducible refine kept_of_some (by assumption) ?_
    | simp (maxDischargeDepth := 6)
    | dsimp only
    | simp (maxDischargeDepth := 6) +zetaDelta

@[simp] theorem State.rxDecode_kept (s : State) (l : ℕ) (cws : List (List (BitVec 10))) :
    (State.rxDecode s l cws).2.kept = s.kept := by
  unfold State.rxDecode
  repeat' first
    | (simp (maxDischargeDepth := 6); done)
    | (simp (maxDischargeDepth := 6) +zetaDelta; done)
    | with_reducible refine Eq.trans (by assumption) ?_
    | intro _
    | split
    | simp (maxDischargeDepth := 6) only [kept_ite, kept_ite_snd, kept_ite_fst, kept_ite_snd2, kept_ite_snd3]
    | with_reducible refine (kept_foldl _ ?_ _ _).trans ?_
    | with_reducible refine (kept_foldl_snd _ ?_ _ _).trans ?_
    | with_reducible refine (kept_foldl_fst _ ?_ _ _).trans ?_
    | with_reducible refine (kept_foldl_snd2 _ ?_ _ _).trans ?_
    | with_reducible refine (kept_snd (by assumption)).trans ?_
    | with_reducible refine (kept_snd2 (by assumption)).trans ?_
    | with_reducible refine (kept_snd3 (by assumption)).trans ?_
    | with_reducible refine (kept_fst (by assumption)).trans ?_
    | with_reducible refine kept_of_some (by assumption) ?_
    | simp (maxDischargeDepth := 6)
    | dsimp only
    | simp (maxDischargeDepth := 6) +zetaDelta

@[simp] theorem State.arrive_kept (s : State) (l : ℕ) (cws : List (List (BitVec 10))) :
    (State.arrive s l cws).kept = s.kept := by
  unfold State.arrive
  repeat' first
    | (simp (maxDischargeDepth := 6); done)
    | (simp (maxDischargeDepth := 6) +zetaDelta; done)
    | with_reducible refine Eq.trans (by assumption) ?_
    | intro _
    | split
    | simp (maxDischargeDepth := 6) only [kept_ite, kept_ite_snd, kept_ite_fst, kept_ite_snd2, kept_ite_snd3]
    | with_reducible refine (kept_foldl _ ?_ _ _).trans ?_
    | with_reducible refine (kept_foldl_snd _ ?_ _ _).trans ?_
    | with_reducible refine (kept_foldl_fst _ ?_ _ _).trans ?_
    | with_reducible refine (kept_foldl_snd2 _ ?_ _ _).trans ?_
    | with_reducible refine (kept_snd (by assumption)).trans ?_
    | with_reducible refine (kept_snd2 (by assumption)).trans ?_
    | with_reducible refine (kept_snd3 (by assumption)).trans ?_
    | with_reducible refine (kept_fst (by assumption)).trans ?_
    | with_reducible refine kept_of_some (by assumption) ?_
    | simp (maxDischargeDepth := 6)
    | dsimp only
    | simp (maxDischargeDepth := 6) +zetaDelta

theorem execFlitReceive_kept (link : ℕ) (cws : List (List (BitVec 10))) (s : State) {t : State}
    (h : execFlitReceive link cws s = .next t) : t.kept = s.kept := by
  unfold execFlitReceive at h
  injection h with h
  subst h
  simp (maxDischargeDepth := 6)

theorem execLinkCtlReceive_kept (link : ℕ) (cws : List (List (BitVec 10))) (s : State) {t : State}
    (h : execLinkCtlReceive link cws s = .next t) : t.kept = s.kept := by
  unfold execLinkCtlReceive at h
  injection h with h
  subst h
  simp (maxDischargeDepth := 6)

theorem execNegotiateReceive_kept (link : ℕ) (cws : List (List (BitVec 10))) (s : State) {t : State}
    (h : execNegotiateReceive link cws s = .next t) : t.kept = s.kept := by
  unfold execNegotiateReceive at h
  injection h with h
  subst h
  simp (maxDischargeDepth := 6)

theorem execLinkCtlSend_kept (link : ℕ) (s : State) {t : State}
    (h : execLinkCtlSend link s = .next t) : t.kept = s.kept := by
  unfold execLinkCtlSend at h
  injection h with h
  subst h
  simp (maxDischargeDepth := 6)

theorem execNakRepeat_kept (link : ℕ) (s : State) {t : State}
    (h : execNakRepeat link s = .next t) : t.kept = s.kept := by
  unfold execNakRepeat at h
  injection h with h
  subst h
  simp (maxDischargeDepth := 6)

theorem execReplayTimeout_kept (link : ℕ) (s : State) {t : State}
    (h : execReplayTimeout link s = .next t) : t.kept = s.kept := by
  unfold execReplayTimeout at h
  injection h with h
  subst h
  simp (maxDischargeDepth := 6)

@[simp] theorem State.txJudge_kept (s : State) (l : ℕ) (f : WaitFlit) :
    (State.txJudge s l f).2.kept = s.kept := by
  unfold State.txJudge
  repeat' first
    | (simp (maxDischargeDepth := 6); done)
    | (simp (maxDischargeDepth := 6) +zetaDelta; done)
    | with_reducible refine Eq.trans (by assumption) ?_
    | intro _
    | split
    | simp (maxDischargeDepth := 6) only [kept_ite, kept_ite_snd, kept_ite_fst, kept_ite_snd2, kept_ite_snd3]
    | with_reducible refine (kept_foldl _ ?_ _ _).trans ?_
    | with_reducible refine (kept_foldl_snd _ ?_ _ _).trans ?_
    | with_reducible refine (kept_foldl_fst _ ?_ _ _).trans ?_
    | with_reducible refine (kept_foldl_snd2 _ ?_ _ _).trans ?_
    | with_reducible refine (State.sessKey_kept (by assumption)).trans ?_
    | with_reducible refine (kept_snd (by assumption)).trans ?_
    | with_reducible refine (kept_snd2 (by assumption)).trans ?_
    | with_reducible refine (kept_snd3 (by assumption)).trans ?_
    | with_reducible refine (kept_fst (by assumption)).trans ?_
    | with_reducible refine kept_of_some (by assumption) ?_
    | simp (maxDischargeDepth := 6)
    | dsimp only
    | simp (maxDischargeDepth := 6) +zetaDelta

@[simp] theorem State.txSend_kept (s : State) (l : ℕ) (ftype : ℕ) (h : BitVec 64) (pl : List Byte) (tag : BitVec 64) (col : Option (ℕ × ℕ)) :
    (State.txSend s l ftype h pl tag col).kept = s.kept := by
  unfold State.txSend
  simp (maxDischargeDepth := 6)

@[simp] theorem State.txAdvance_kept (s : State) (slot : ℕ) (l : ℕ) :
    (State.txAdvance s slot l).kept = s.kept := by
  unfold State.txAdvance
  simp (maxDischargeDepth := 6)

@[simp] theorem State.txGo_kept (s : State) (l : ℕ) (f : WaitFlit) (g : TxGo) :
    (State.txGo s l f g).2.kept = s.kept := by
  unfold State.txGo
  repeat' first
    | (simp (maxDischargeDepth := 6); done)
    | split
    | simp (maxDischargeDepth := 6)

@[simp] theorem State.txDrop_kept (s : State) (l : ℕ) (f : WaitFlit) :
    (State.txDrop s l f).kept = s.kept := by
  unfold State.txDrop
  repeat' first
    | (simp (maxDischargeDepth := 6); done)
    | (simp (maxDischargeDepth := 6) +zetaDelta; done)
    | with_reducible refine Eq.trans (by assumption) ?_
    | intro _
    | split
    | simp (maxDischargeDepth := 6) only [kept_ite, kept_ite_snd, kept_ite_fst, kept_ite_snd2, kept_ite_snd3]
    | with_reducible refine (kept_foldl _ ?_ _ _).trans ?_
    | with_reducible refine (kept_foldl_snd _ ?_ _ _).trans ?_
    | with_reducible refine (kept_foldl_fst _ ?_ _ _).trans ?_
    | with_reducible refine (kept_foldl_snd2 _ ?_ _ _).trans ?_
    | with_reducible refine (kept_snd (by assumption)).trans ?_
    | with_reducible refine (kept_snd2 (by assumption)).trans ?_
    | with_reducible refine (kept_snd3 (by assumption)).trans ?_
    | with_reducible refine (kept_fst (by assumption)).trans ?_
    | with_reducible refine kept_of_some (by assumption) ?_
    | simp (maxDischargeDepth := 6)
    | dsimp only
    | simp (maxDischargeDepth := 6) +zetaDelta

@[simp] theorem State.txFirst_kept (a : List WaitFlit) (a1 : List (Option ℕ × ℕ)) (a11 : ℕ) (a111 : State) :
    (State.txFirst a a1 a11 a111).2.kept = a111.kept := by
  fun_induction State.txFirst a a1 a11 a111 <;> first
    | rfl
    | (simp (maxDischargeDepth := 6); done)
    | (repeat' first
        | (simp (maxDischargeDepth := 6); done)
        | (simp (maxDischargeDepth := 6) +zetaDelta; done)
        | with_reducible refine Eq.trans (by assumption) ?_
        | intro _
        | split
        | simp (maxDischargeDepth := 6) only [kept_ite, kept_ite_snd, kept_ite_fst, kept_ite_snd2, kept_ite_snd3]
        | with_reducible refine (kept_foldl _ ?_ _ _).trans ?_
        | with_reducible refine (kept_foldl_snd _ ?_ _ _).trans ?_
        | with_reducible refine (kept_foldl_fst _ ?_ _ _).trans ?_
        | with_reducible refine (kept_foldl_snd2 _ ?_ _ _).trans ?_
        | with_reducible refine (kept_snd (by assumption)).trans ?_
        | with_reducible refine (kept_snd2 (by assumption)).trans ?_
        | with_reducible refine (kept_snd3 (by assumption)).trans ?_
        | with_reducible refine (kept_fst (by assumption)).trans ?_
        | with_reducible refine kept_of_some (by assumption) ?_
        | simp (maxDischargeDepth := 6)
        | dsimp only
        | simp (maxDischargeDepth := 6) +zetaDelta)

@[simp] theorem State.sendNull_kept (s : State) (l : ℕ) :
    (State.sendNull s l).kept = s.kept := by
  unfold State.sendNull
  repeat' first
    | (simp (maxDischargeDepth := 6); done)
    | (simp (maxDischargeDepth := 6) +zetaDelta; done)
    | with_reducible refine Eq.trans (by assumption) ?_
    | intro _
    | split
    | simp (maxDischargeDepth := 6) only [kept_ite, kept_ite_snd, kept_ite_fst, kept_ite_snd2, kept_ite_snd3]
    | with_reducible refine (kept_foldl _ ?_ _ _).trans ?_
    | with_reducible refine (kept_foldl_snd _ ?_ _ _).trans ?_
    | with_reducible refine (kept_foldl_fst _ ?_ _ _).trans ?_
    | with_reducible refine (kept_foldl_snd2 _ ?_ _ _).trans ?_
    | with_reducible refine (kept_snd (by assumption)).trans ?_
    | with_reducible refine (kept_snd2 (by assumption)).trans ?_
    | with_reducible refine (kept_snd3 (by assumption)).trans ?_
    | with_reducible refine (kept_fst (by assumption)).trans ?_
    | with_reducible refine kept_of_some (by assumption) ?_
    | simp (maxDischargeDepth := 6)
    | dsimp only
    | simp (maxDischargeDepth := 6) +zetaDelta

theorem execFlitTransmit_kept (link : ℕ) (s : State) {t : State}
    (h : execFlitTransmit link s = .next t) : t.kept = s.kept := by
  unfold execFlitTransmit at h
  injection h with h
  subst h
  simp (maxDischargeDepth := 6)

end Sys2Proof.Machine
end

