-- ==== Sys2Proof/Laws/KeptLink.lean ====
section
/-! SUPPORT. The operations of Link keep the queue and the OTP areas. -/

set_option linter.unusedSimpArgs false
set_option linter.unusedTactic false
set_option linter.unreachableTactic false
set_option linter.unusedVariables false

namespace Sys2Proof.Machine
open Sys2Proof

theorem execLinkEnable_kept (r : Req) (link : ℕ) (on : Bool) (s : State) {t : State}
    (h : execLinkEnable r link on s = .next t) : t.kept = s.kept := by
  unfold execLinkEnable at h
  injection h with h
  subst h
  simp (maxDischargeDepth := 6)

theorem execLinkRetrain_kept (r : Req) (link : ℕ) (s : State) {t : State}
    (h : execLinkRetrain r link s = .next t) : t.kept = s.kept := by
  unfold execLinkRetrain at h
  injection h with h
  subst h
  simp (maxDischargeDepth := 6)

@[simp] theorem State.adapt_kept (s : State) (link : ℕ) (cause : ℕ) :
    (State.adapt s link cause).kept = s.kept := by
  unfold State.adapt
  simp (maxDischargeDepth := 6)

theorem execLinkAdapt_kept (r : Req) (link : ℕ) (s : State) {t : State}
    (h : execLinkAdapt r link s = .next t) : t.kept = s.kept := by
  unfold execLinkAdapt at h
  injection h with h
  subst h
  simp (maxDischargeDepth := 6)

@[simp] theorem State.saveRecord_kept (s : State) (link : ℕ) (settings : List (BitVec 512)) :
    (State.saveRecord s link settings).kept = s.kept := by
  unfold State.saveRecord
  simp (maxDischargeDepth := 6)

theorem execLinkSave_kept (r : Req) (link : ℕ) (settings : List (BitVec 512)) (s : State) {t : State}
    (h : execLinkSave r link settings s = .next t) : t.kept = s.kept := by
  unfold execLinkSave at h
  injection h with h
  subst h
  simp (maxDischargeDepth := 6)

theorem execLnkModeWrite_kept (r : Req) (port : ℕ) (v : BitVec 2) (s : State) {t : State}
    (h : execLnkModeWrite r port v s = .next t) : t.kept = s.kept := by
  unfold execLnkModeWrite at h
  injection h with h
  subst h
  simp (maxDischargeDepth := 6)

theorem execLnkSessCtlWrite_kept (r : Req) (port : ℕ) (v : BitVec 32) (s : State) {t : State}
    (h : execLnkSessCtlWrite r port v s = .next t) : t.kept = s.kept := by
  unfold execLnkSessCtlWrite at h
  injection h with h
  subst h
  simp (maxDischargeDepth := 6)

@[simp] theorem State.laneReads_kept (s : State) (link : ℕ) (rs : List LaneTrain) :
    (State.laneReads s link rs).kept = s.kept := by
  unfold State.laneReads
  simp (maxDischargeDepth := 6)

theorem execTrainingDone_kept (link : ℕ) (ok : Bool) (lockNs : ℕ) (settings : List (BitVec 512)) (lanes : List LaneTrain) (s : State) {t : State}
    (h : execTrainingDone link ok lockNs settings lanes s = .next t) : t.kept = s.kept := by
  unfold execTrainingDone at h
  injection h with h
  subst h
  simp (maxDischargeDepth := 6)

theorem execLockAcquired_kept (link : ℕ) (lanes : List LaneAlign) (s : State) {t : State}
    (h : execLockAcquired link lanes s = .next t) : t.kept = s.kept := by
  unfold execLockAcquired at h
  injection h with h
  subst h
  repeat' first
    | (simp (maxDischargeDepth := 6); done)
    | split
    | simp (maxDischargeDepth := 6)

theorem execLockLost_kept (link : ℕ) (lane : ℕ) (first : List (BitVec 10)) (second : List (BitVec 10)) (third : List (BitVec 10)) (s : State) {t : State}
    (h : execLockLost link lane first second third s = .next t) : t.kept = s.kept := by
  unfold execLockLost at h
  injection h with h
  subst h
  simp (maxDischargeDepth := 6)

theorem execLockTimeout_kept (link : ℕ) (s : State) {t : State}
    (h : execLockTimeout link s = .next t) : t.kept = s.kept := by
  unfold execLockTimeout at h
  injection h with h
  subst h
  simp (maxDischargeDepth := 6)

theorem execNegotiateSend_kept (link : ℕ) (s : State) {t : State}
    (h : execNegotiateSend link s = .next t) : t.kept = s.kept := by
  unfold execNegotiateSend at h
  injection h with h
  subst h
  simp (maxDischargeDepth := 6)

theorem execNegTimeout_kept (link : ℕ) (s : State) {t : State}
    (h : execNegTimeout link s = .next t) : t.kept = s.kept := by
  unfold execNegTimeout at h
  injection h with h
  subst h
  simp (maxDischargeDepth := 6)

theorem execAdaptDone_kept (link : ℕ) (s : State) {t : State}
    (h : execAdaptDone link s = .next t) : t.kept = s.kept := by
  unfold execAdaptDone at h
  injection h with h
  subst h
  simp (maxDischargeDepth := 6)

theorem execSerRate_kept (link : ℕ) (lane : ℕ) (corrected : ℕ) (symbols : ℕ) (snr : ℕ) (s : State) {t : State}
    (h : execSerRate link lane corrected symbols snr s = .next t) : t.kept = s.kept := by
  unfold execSerRate at h
  injection h with h
  subst h
  simp (maxDischargeDepth := 6)

@[simp] theorem State.giveRoutes_kept (s : State) (gen : ℕ) :
    (State.giveRoutes s gen).kept = s.kept := by
  unfold State.giveRoutes
  repeat' first
    | (simp (maxDischargeDepth := 6); done)
    | (simp (maxDischargeDepth := 6) +zetaDelta; done)
    | with_reducible refine Eq.trans (by assumption) ?_
    | intro _
    | split
    | simp (maxDischargeDepth := 6) only [kept_ite, kept_ite_snd, kept_ite_fst, kept_ite_snd2, kept_ite_snd3]
    | with_reducible refine (kept_foldl _ ?_ _ _).trans ?_
    | with_reducible refine (kept_foldl_snd _ ?_ _ _).trans ?_
    | with_reducible refine (kept_foldl_fst _ ?_ _ _).trans ?_
    | with_reducible refine (kept_foldl_snd2 _ ?_ _ _).trans ?_
    | with_reducible refine (kept_snd (by assumption)).trans ?_
    | with_reducible refine (kept_snd2 (by assumption)).trans ?_
    | with_reducible refine (kept_snd3 (by assumption)).trans ?_
    | with_reducible refine (kept_fst (by assumption)).trans ?_
    | with_reducible refine kept_of_some (by assumption) ?_
    | simp (maxDischargeDepth := 6)
    | dsimp only
    | simp (maxDischargeDepth := 6) +zetaDelta

@[simp] theorem State.writeFabNode_kept (s : State) (r : Req) (v : BitVec 64) :
    (State.writeFabNode s r v).kept = s.kept := by
  unfold State.writeFabNode
  simp (maxDischargeDepth := 6)

theorem execFabNodeWrite_kept (r : Req) (v : BitVec 64) (s : State) {t : State}
    (h : execFabNodeWrite r v s = .next t) : t.kept = s.kept := by
  unfold execFabNodeWrite at h
  injection h with h
  subst h
  simp (maxDischargeDepth := 6)

end Sys2Proof.Machine
end

