-- ==== Sys2Proof/Laws/KeptPlan.lean ====
section
/-! SUPPORT. The operations of Plan keep the queue and the OTP areas. -/

set_option linter.unusedSimpArgs false
set_option linter.unusedTactic false
set_option linter.unreachableTactic false
set_option linter.unusedVariables false

namespace Sys2Proof.Machine
open Sys2Proof

@[simp] theorem State.pinKey_kept (s : State) (d : ℕ) (e : BitVec 16) (src : ℕ) (dst : ℕ) :
    (State.pinKey s d e src dst).kept = s.kept := by
  unfold State.pinKey
  repeat' first
    | (simp (maxDischargeDepth := 6); done)
    | split
    | simp (maxDischargeDepth := 6)

@[simp] theorem State.pinPeer_kept (s : State) (d : ℕ) (node : ℕ) :
    (State.pinPeer s d node).kept = s.kept := by
  unfold State.pinPeer
  simp (maxDischargeDepth := 6)

@[simp] theorem State.pinSlot_kept (s : State) (d : ℕ) :
    (State.pinSlot s d).kept = s.kept := by
  unfold State.pinSlot
  simp (maxDischargeDepth := 6)

@[simp] theorem State.unpin_kept (s : State) :
    (State.unpin s).kept = s.kept := by
  unfold State.unpin
  simp (maxDischargeDepth := 6)

@[simp] theorem State.loadPlan_kept (s : State) (i : ℕ) (k : ℕ) (h : HdrW) (steps : List StepW) :
    (State.loadPlan s i k h steps).kept = s.kept := by
  unfold State.loadPlan
  simp (maxDischargeDepth := 6)

@[simp] theorem State.failLoad_kept (s : State) (i : ℕ) (q : ℕ) (seq : ℕ) (k : ℕ) (r : Chk) :
    (State.failLoad s i q seq k r).kept = s.kept := by
  unfold State.failLoad
  simp (maxDischargeDepth := 6)

@[simp] theorem State.planAccept_kept (s : State) (i : ℕ) (q : ℕ) (seq : ℕ) (h : HdrW) (steps : List StepW) :
    (State.planAccept s i q seq h steps).kept = s.kept := by
  unfold State.planAccept
  repeat' first
    | (simp (maxDischargeDepth := 6); done)
    | split
    | simp (maxDischargeDepth := 6)

theorem execPlanLoad_kept (i : ℕ) (q : ℕ) (seq : ℕ) (s : State) {t : State}
    (h : execPlanLoad i q seq s = .next t) : t.kept = s.kept := by
  unfold execPlanLoad at h
  injection h with h
  subst h
  repeat' first
    | (simp (maxDischargeDepth := 6); done)
    | (simp (maxDischargeDepth := 6) +zetaDelta; done)
    | with_reducible refine Eq.trans (by assumption) ?_
    | intro _
    | split
    | simp (maxDischargeDepth := 6) only [kept_ite, kept_ite_snd, kept_ite_fst, kept_ite_snd2, kept_ite_snd3]
    | with_reducible refine (kept_foldl _ ?_ _ _).trans ?_
    | with_reducible refine (kept_foldl_snd _ ?_ _ _).trans ?_
    | with_reducible refine (kept_foldl_fst _ ?_ _ _).trans ?_
    | with_reducible refine (kept_foldl_snd2 _ ?_ _ _).trans ?_
    | with_reducible refine (State.unit_kept _ _ _ _ _ _ ?_).trans ?_
    | with_reducible refine (kept_snd (by assumption)).trans ?_
    | with_reducible refine (kept_snd2 (by assumption)).trans ?_
    | with_reducible refine (kept_snd3 (by assumption)).trans ?_
    | with_reducible refine (kept_fst (by assumption)).trans ?_
    | with_reducible refine kept_of_some (by assumption) ?_
    | simp (maxDischargeDepth := 6)
    | dsimp only
    | simp (maxDischargeDepth := 6) +zetaDelta

@[simp] theorem State.unloadPlan_kept (s : State) (k : ℕ) :
    (State.unloadPlan s k).kept = s.kept := by
  unfold State.unloadPlan
  simp (maxDischargeDepth := 6)

@[simp] theorem State.unloadPlans_kept (s : State) (f : Plan → Bool) :
    (State.unloadPlans s f).kept = s.kept := by
  unfold State.unloadPlans
  simp (maxDischargeDepth := 6)

theorem execPlanUnload_kept (i : ℕ) (q : ℕ) (seq : ℕ) (s : State) {t : State}
    (h : execPlanUnload i q seq s = .next t) : t.kept = s.kept := by
  unfold execPlanUnload at h
  injection h with h
  subst h
  simp (maxDischargeDepth := 6)

end Sys2Proof.Machine
end

