-- ==== Sys2Proof/Laws/KeptGroup.lean ====
section
/-! SUPPORT. The operations of Group keep the queue and the OTP areas. -/

set_option linter.unusedSimpArgs false
set_option linter.unusedTactic false
set_option linter.unreachableTactic false
set_option linter.unusedVariables false

namespace Sys2Proof.Machine
open Sys2Proof

@[simp] theorem State.leadMsg_kept (s : State) (m : Mgmt) (f : State → State) (hf : ∀ a0, (f a0).kept = a0.kept) :
    (State.leadMsg s m f).kept = s.kept := by
  unfold State.leadMsg
  repeat' first
    | (simp (maxDischargeDepth := 6) [hf]; done)
    | (simp (maxDischargeDepth := 6) +zetaDelta [hf]; done)
    | with_reducible refine Eq.trans (by assumption) ?_
    | intro _
    | split
    | simp (maxDischargeDepth := 6) only [kept_ite, kept_ite_snd, kept_ite_fst, kept_ite_snd2, kept_ite_snd3]
    | with_reducible refine (kept_foldl _ ?_ _ _).trans ?_
    | with_reducible refine (kept_foldl_snd _ ?_ _ _).trans ?_
    | with_reducible refine (kept_foldl_fst _ ?_ _ _).trans ?_
    | with_reducible refine (kept_foldl_snd2 _ ?_ _ _).trans ?_
    | with_reducible refine (State.domMsg_kept _ _ _ _ ?_).trans ?_
    | with_reducible refine (hf _).trans ?_
    | with_reducible refine (kept_snd (by assumption)).trans ?_
    | with_reducible refine (kept_snd2 (by assumption)).trans ?_
    | with_reducible refine (kept_snd3 (by assumption)).trans ?_
    | with_reducible refine (kept_fst (by assumption)).trans ?_
    | with_reducible refine kept_of_some (by assumption) ?_
    | simp (maxDischargeDepth := 6) [hf]
    | dsimp only
    | simp (maxDischargeDepth := 6) +zetaDelta [hf]

@[simp] theorem State.memberStatement_kept (s : State) (nonce : BitVec 256) :
    (State.memberStatement s nonce).2.kept = s.kept := by
  unfold State.memberStatement
  simp (maxDischargeDepth := 6)

@[simp] theorem State.measAnswer_kept (s : State) (blocks : List (List Byte)) :
    (State.measAnswer s blocks).kept = s.kept := by
  unfold State.measAnswer
  simp (maxDischargeDepth := 6)

@[simp] theorem State.dropComposite_kept (s : State) :
    (State.dropComposite s).kept = s.kept := by
  unfold State.dropComposite
  repeat' first
    | (simp (maxDischargeDepth := 6); done)
    | (simp (maxDischargeDepth := 6) +zetaDelta; done)
    | with_reducible refine Eq.trans (by assumption) ?_
    | intro _
    | split
    | simp (maxDischargeDepth := 6) only [kept_ite, kept_ite_snd, kept_ite_fst, kept_ite_snd2, kept_ite_snd3]
    | with_reducible refine (kept_foldl _ ?_ _ _).trans ?_
    | with_reducible refine (kept_foldl_snd _ ?_ _ _).trans ?_
    | with_reducible refine (kept_foldl_fst _ ?_ _ _).trans ?_
    | with_reducible refine (kept_foldl_snd2 _ ?_ _ _).trans ?_
    | with_reducible refine (kept_snd (by assumption)).trans ?_
    | with_reducible refine (kept_snd2 (by assumption)).trans ?_
    | with_reducible refine (kept_snd3 (by assumption)).trans ?_
    | with_reducible refine (kept_fst (by assumption)).trans ?_
    | with_reducible refine kept_of_some (by assumption) ?_
    | simp (maxDischargeDepth := 6)
    | dsimp only
    | simp (maxDischargeDepth := 6) +zetaDelta

@[simp] theorem State.finishComposite_kept (s : State) :
    (State.finishComposite s).kept = s.kept := by
  unfold State.finishComposite
  simp (maxDischargeDepth := 6)

@[simp] theorem State.takeStatement_kept (s : State) (x : MemberStmt) (sites : ℕ) :
    (State.takeStatement s x sites).kept = s.kept := by
  unfold State.takeStatement
  simp (maxDischargeDepth := 6)

@[simp] theorem State.askComposite_kept (s : State) (nonce : BitVec 256) :
    (State.askComposite s nonce).kept = s.kept := by
  unfold State.askComposite
  simp (maxDischargeDepth := 6)

@[simp] theorem State.measurements_kept (s : State) (index : ℕ) (nonce : BitVec 256) :
    (State.measurements s index nonce).kept = s.kept := by
  unfold State.measurements
  repeat' first
    | (simp (maxDischargeDepth := 6); done)
    | split
    | simp (maxDischargeDepth := 6)

@[simp] theorem State.noteConflicts_kept (s : State) :
    (State.noteConflicts s).kept = s.kept := by
  unfold State.noteConflicts
  repeat' first
    | (simp (maxDischargeDepth := 6); done)
    | (simp (maxDischargeDepth := 6) +zetaDelta; done)
    | with_reducible refine Eq.trans (by assumption) ?_
    | intro _
    | split
    | simp (maxDischargeDepth := 6) only [kept_ite, kept_ite_snd, kept_ite_fst, kept_ite_snd2, kept_ite_snd3]
    | with_reducible refine (kept_foldl _ ?_ _ _).trans ?_
    | with_reducible refine (kept_foldl_snd _ ?_ _ _).trans ?_
    | with_reducible refine (kept_foldl_fst _ ?_ _ _).trans ?_
    | with_reducible refine (kept_foldl_snd2 _ ?_ _ _).trans ?_
    | with_reducible refine (State.forEach_kept _ _ _ ?_).trans ?_
    | with_reducible refine (kept_snd (by assumption)).trans ?_
    | with_reducible refine (kept_snd2 (by assumption)).trans ?_
    | with_reducible refine (kept_snd3 (by assumption)).trans ?_
    | with_reducible refine (kept_fst (by assumption)).trans ?_
    | with_reducible refine kept_of_some (by assumption) ?_
    | simp (maxDischargeDepth := 6)
    | dsimp only
    | simp (maxDischargeDepth := 6) +zetaDelta

@[simp] theorem State.openSlot_kept (s : State) (i : ℕ) (id : BitVec 64) (profile : BitVec 32) :
    (State.openSlot s i id profile).kept = s.kept := by
  unfold State.openSlot
  simp (maxDischargeDepth := 6)

@[simp] theorem State.loadSecret_kept (s : State) (i : ℕ) (secret : List Byte) :
    (State.loadSecret s i secret).kept = s.kept := by
  unfold State.loadSecret
  simp (maxDischargeDepth := 6)

@[simp] theorem State.activateSlot_kept (s : State) (i : ℕ) :
    (State.activateSlot s i).kept = s.kept := by
  unfold State.activateSlot
  simp (maxDischargeDepth := 6)

@[simp] theorem State.applyEpoch_kept (s : State) (i : ℕ) (op : ℕ) (e : BitVec 16) :
    (State.applyEpoch s i op e).kept = s.kept := by
  unfold State.applyEpoch
  repeat' first
    | (simp (maxDischargeDepth := 6); done)
    | split
    | simp (maxDischargeDepth := 6)

@[simp] theorem State.awaitPeers_kept (s : State) (i : ℕ) (kind : ℕ) :
    (State.awaitPeers s i kind).kept = s.kept := by
  unfold State.awaitPeers
  simp (maxDischargeDepth := 6)

@[simp] theorem State.confirmFails_kept (s : State) (i : ℕ) :
    (State.confirmFails s i).kept = s.kept := by
  unfold State.confirmFails
  simp (maxDischargeDepth := 6)

@[simp] theorem State.takeConfirm_kept (s : State) (pos : ℕ) (i : ℕ) (ok : Bool) :
    (State.takeConfirm s pos i ok).kept = s.kept := by
  unfold State.takeConfirm
  simp (maxDischargeDepth := 6)

end Sys2Proof.Machine
end

