-- ==== Sys2Proof/Laws/KeptPwrOps.lean ====
section
/-! SUPPORT. The operations of PwrOps keep the queue and the OTP areas. -/

set_option linter.unusedSimpArgs false
set_option linter.unusedTactic false
set_option linter.unreachableTactic false
set_option linter.unusedVariables false

namespace Sys2Proof.Machine
open Sys2Proof

@[simp] theorem State.setSiteLevel_kept (s : State) (n : ℕ) (l : ℕ) :
    (State.setSiteLevel s n l).kept = s.kept := by
  unfold State.setSiteLevel
  simp (maxDischargeDepth := 6)

@[simp] theorem State.noteThrottle_kept (s : State) (interval : Bool) :
    (State.noteThrottle s interval).kept = s.kept := by
  unfold State.noteThrottle
  simp (maxDischargeDepth := 6)

@[simp] theorem State.requestLevel_kept (s : State) (n : ℕ) (l : ℕ) :
    (State.requestLevel s n l).kept = s.kept := by
  unfold State.requestLevel
  simp (maxDischargeDepth := 6)

@[simp] theorem State.setHub_kept (s : State) (p : ℕ) :
    (State.setHub s p).kept = s.kept := by
  unfold State.setHub
  simp (maxDischargeDepth := 6)

@[simp] theorem State.applyPoints_kept (s : State) :
    (State.applyPoints s).kept = s.kept := by
  unfold State.applyPoints
  simp (maxDischargeDepth := 6)

@[simp] theorem State.applyFloors_kept (s : State) :
    (State.applyFloors s).kept = s.kept := by
  unfold State.applyFloors
  simp (maxDischargeDepth := 6)

end Sys2Proof.Machine
end

