-- ==== Sys2Proof/Laws/KeptSlice.lean ====
section
/-! SUPPORT. The operations of Slice keep the queue and the OTP areas. -/

set_option linter.unusedSimpArgs false
set_option linter.unusedTactic false
set_option linter.unreachableTactic false
set_option linter.unusedVariables false

namespace Sys2Proof.Machine
open Sys2Proof

theorem execSliceEnable_kept (r : Req) (s : State) {t : State}
    (h : execSliceEnable r s = .next t) : t.kept = s.kept := by
  unfold execSliceEnable at h
  injection h with h
  subst h
  simp (maxDischargeDepth := 6)

@[simp] theorem State.writeSlcfg_kept (s : State) (r : Req) (v : BitVec 64) :
    (State.writeSlcfg s r v).kept = s.kept := by
  unfold State.writeSlcfg
  simp (maxDischargeDepth := 6)

theorem execQmSlcfgWrite_kept (r : Req) (v : BitVec 64) (s : State) {t : State}
    (h : execQmSlcfgWrite r v s = .next t) : t.kept = s.kept := by
  unfold execQmSlcfgWrite at h
  injection h with h
  subst h
  simp (maxDischargeDepth := 6)

@[simp] theorem State.settleRstat_kept (s : State) (i : ℕ) :
    (State.settleRstat s i).kept = s.kept := by
  unfold State.settleRstat
  simp (maxDischargeDepth := 6)

@[simp] theorem State.startAction_kept (s : State) (i : ℕ) (op : ℕ) (squashed : ℕ) :
    (State.startAction s i op squashed).kept = s.kept := by
  unfold State.startAction
  simp (maxDischargeDepth := 6)

@[simp] theorem State.voidGroups_kept (s : State) (i : ℕ) :
    (State.voidGroups s i).kept = s.kept := by
  unfold State.voidGroups
  repeat' first
    | (simp (maxDischargeDepth := 6); done)
    | (simp (maxDischargeDepth := 6) +zetaDelta; done)
    | with_reducible refine Eq.trans (by assumption) ?_
    | intro _
    | split
    | simp (maxDischargeDepth := 6) only [kept_ite, kept_ite_snd, kept_ite_fst, kept_ite_snd2, kept_ite_snd3]
    | with_reducible refine (kept_foldl _ ?_ _ _).trans ?_
    | with_reducible refine (kept_foldl_snd _ ?_ _ _).trans ?_
    | with_reducible refine (kept_foldl_fst _ ?_ _ _).trans ?_
    | with_reducible refine (kept_foldl_snd2 _ ?_ _ _).trans ?_
    | with_reducible refine (kept_snd (by assumption)).trans ?_
    | with_reducible refine (kept_snd2 (by assumption)).trans ?_
    | with_reducible refine (kept_snd3 (by assumption)).trans ?_
    | with_reducible refine (kept_fst (by assumption)).trans ?_
    | with_reducible refine kept_of_some (by assumption) ?_
    | simp (maxDischargeDepth := 6)
    | dsimp only
    | simp (maxDischargeDepth := 6) +zetaDelta

@[simp] theorem State.startReset_kept (s : State) (i : ℕ) (toFree : Bool) :
    (State.startReset s i toFree).kept = s.kept := by
  unfold State.startReset
  simp (maxDischargeDepth := 6)

@[simp] theorem State.resetStep2_kept (s : State) (i : ℕ) :
    (State.resetStep2 s i).kept = s.kept := by
  unfold State.resetStep2
  simp (maxDischargeDepth := 6)

@[simp] theorem State.resetStep4_kept (s : State) (i : ℕ) :
    (State.resetStep4 s i).kept = s.kept := by
  unfold State.resetStep4
  simp (maxDischargeDepth := 6)

@[simp] theorem State.advanceReset_kept (s : State) (i : ℕ) :
    (State.advanceReset s i).kept = s.kept := by
  unfold State.advanceReset
  simp (maxDischargeDepth := 6)

theorem execSliceResetAdvance_kept (slice : ℕ) (s : State) {t : State}
    (h : execSliceResetAdvance slice s = .next t) : t.kept = s.kept := by
  unfold execSliceResetAdvance at h
  injection h with h
  subst h
  simp (maxDischargeDepth := 6)

theorem execSliceDisable_kept (r : Req) (s : State) {t : State}
    (h : execSliceDisable r s = .next t) : t.kept = s.kept := by
  unfold execSliceDisable at h
  injection h with h
  subst h
  repeat' first
    | (simp (maxDischargeDepth := 6); done)
    | (simp (maxDischargeDepth := 6) +zetaDelta; done)
    | with_reducible refine Eq.trans (by assumption) ?_
    | intro _
    | split
    | simp (maxDischargeDepth := 6) only [kept_ite, kept_ite_snd, kept_ite_fst, kept_ite_snd2, kept_ite_snd3]
    | with_reducible refine (kept_foldl _ ?_ _ _).trans ?_
    | with_reducible refine (kept_foldl_snd _ ?_ _ _).trans ?_
    | with_reducible refine (kept_foldl_fst _ ?_ _ _).trans ?_
    | with_reducible refine (kept_foldl_snd2 _ ?_ _ _).trans ?_
    | with_reducible refine (State.regWrite_kept _ _ _ _ _ _ ?_).trans ?_
    | with_reducible refine (kept_snd (by assumption)).trans ?_
    | with_reducible refine (kept_snd2 (by assumption)).trans ?_
    | with_reducible refine (kept_snd3 (by assumption)).trans ?_
    | with_reducible refine (kept_fst (by assumption)).trans ?_
    | with_reducible refine kept_of_some (by assumption) ?_
    | simp (maxDischargeDepth := 6)
    | dsimp only
    | simp (maxDischargeDepth := 6) +zetaDelta

@[simp] theorem State.slCtl_kept (s : State) (r : Req) (i : ℕ) (kernel : Bool) (f : State → State) (hf : ∀ a0, (f a0).kept = a0.kept) :
    (State.slCtl s r i kernel f).kept = s.kept := by
  unfold State.slCtl
  repeat' first
    | (simp (maxDischargeDepth := 6) [hf]; done)
    | (simp (maxDischargeDepth := 6) +zetaDelta [hf]; done)
    | with_reducible refine Eq.trans (by assumption) ?_
    | intro _
    | split
    | simp (maxDischargeDepth := 6) only [kept_ite, kept_ite_snd, kept_ite_fst, kept_ite_snd2, kept_ite_snd3]
    | with_reducible refine (kept_foldl _ ?_ _ _).trans ?_
    | with_reducible refine (kept_foldl_snd _ ?_ _ _).trans ?_
    | with_reducible refine (kept_foldl_fst _ ?_ _ _).trans ?_
    | with_reducible refine (kept_foldl_snd2 _ ?_ _ _).trans ?_
    | with_reducible refine (State.regWrite_kept _ _ _ _ _ _ ?_).trans ?_
    | with_reducible refine (hf _).trans ?_
    | with_reducible refine (kept_snd (by assumption)).trans ?_
    | with_reducible refine (kept_snd2 (by assumption)).trans ?_
    | with_reducible refine (kept_snd3 (by assumption)).trans ?_
    | with_reducible refine (kept_fst (by assumption)).trans ?_
    | with_reducible refine kept_of_some (by assumption) ?_
    | simp (maxDischargeDepth := 6) [hf]
    | dsimp only
    | simp (maxDischargeDepth := 6) +zetaDelta [hf]

theorem execRevokeAll_kept (r : Req) (slice : ℕ) (s : State) {t : State}
    (h : execRevokeAll r slice s = .next t) : t.kept = s.kept := by
  unfold execRevokeAll at h
  injection h with h
  subst h
  simp (maxDischargeDepth := 6)

theorem execSquashAll_kept (r : Req) (slice : ℕ) (s : State) {t : State}
    (h : execSquashAll r slice s = .next t) : t.kept = s.kept := by
  unfold execSquashAll at h
  injection h with h
  subst h
  simp (maxDischargeDepth := 6)

theorem execSliceReset_kept (r : Req) (slice : ℕ) (s : State) {t : State}
    (h : execSliceReset r slice s = .next t) : t.kept = s.kept := by
  unfold execSliceReset at h
  injection h with h
  subst h
  simp (maxDischargeDepth := 6)

theorem execQmSlLevelWrite_kept (r : Req) (slice : ℕ) (v : BitVec 32) (s : State) {t : State}
    (h : execQmSlLevelWrite r slice v s = .next t) : t.kept = s.kept := by
  unfold execQmSlLevelWrite at h
  injection h with h
  subst h
  simp (maxDischargeDepth := 6)

end Sys2Proof.Machine
end

