-- ==== Sys2Proof/Laws/KeptRegions.lean ====
section
/-! SUPPORT. The operations of Regions keep the queue and the OTP areas. -/

set_option linter.unusedSimpArgs false
set_option linter.unusedTactic false
set_option linter.unreachableTactic false
set_option linter.unusedVariables false

namespace Sys2Proof.Machine
open Sys2Proof

@[simp] theorem State.assignRgn_kept (s : State) (n : ℕ) (r : Region) :
    (State.assignRgn s n r).kept = s.kept := by
  unfold State.assignRgn
  simp (maxDischargeDepth := 6)

@[simp] theorem State.releaseRgn_kept (s : State) (n : ℕ) (byReg : Bool) :
    (State.releaseRgn s n byReg).kept = s.kept := by
  unfold State.releaseRgn
  simp (maxDischargeDepth := 6)

@[simp] theorem State.releaseHrg_kept (s : State) (n : ℕ) (byReg : Bool) :
    (State.releaseHrg s n byReg).kept = s.kept := by
  unfold State.releaseHrg
  simp (maxDischargeDepth := 6)

@[simp] theorem State.hearthZero_kept (s : State) (lo : ℕ) (n : ℕ) (kid : ℕ) (mode : ℕ) :
    (State.hearthZero s lo n kid mode).kept = s.kept := by
  unfold State.hearthZero
  simp (maxDischargeDepth := 6)

@[simp] theorem State.startRekey_kept (s : State) (i : ℕ) (q : ℕ) (seq : ℕ) (n : ℕ) (new : ℕ) :
    (State.startRekey s i q seq n new).kept = s.kept := by
  unfold State.startRekey
  simp (maxDischargeDepth := 6)

@[simp] theorem State.sweepBad_kept (s : State) (ri : ℕ) (p : ℕ) (alarm : Bool) :
    (State.sweepBad s ri p alarm).2.kept = s.kept := by
  unfold State.sweepBad
  simp (maxDischargeDepth := 6)

@[simp] theorem State.sweepLine_kept (s : State) (ri : ℕ) (i : ℕ) (key : List Byte) (cb : Line) :
    (State.sweepLine s ri i key cb).kept = s.kept := by
  unfold State.sweepLine
  repeat' first
    | (simp (maxDischargeDepth := 6); done)
    | split
    | simp (maxDischargeDepth := 6)

@[simp] theorem State.sweepGood_kept (s : State) (ri : ℕ) (p : ℕ) (key : List Byte) (cb : Line) :
    (State.sweepGood s ri p key cb).2.kept = s.kept := by
  unfold State.sweepGood
  simp (maxDischargeDepth := 6)

@[simp] theorem State.sweepLines_kept (s : State) (ri : ℕ) (p : ℕ) (key : List Byte) :
    (State.sweepLines s ri p key).2.kept = s.kept := by
  unfold State.sweepLines
  repeat' first
    | (simp (maxDischargeDepth := 6); done)
    | (simp (maxDischargeDepth := 6) +zetaDelta; done)
    | with_reducible refine Eq.trans (by assumption) ?_
    | intro _
    | split
    | simp (maxDischargeDepth := 6) only [kept_ite, kept_ite_snd, kept_ite_fst, kept_ite_snd2, kept_ite_snd3]
    | with_reducible refine (kept_foldl _ ?_ _ _).trans ?_
    | with_reducible refine (kept_foldl_snd _ ?_ _ _).trans ?_
    | with_reducible refine (kept_foldl_fst _ ?_ _ _).trans ?_
    | with_reducible refine (kept_foldl_snd2 _ ?_ _ _).trans ?_
    | with_reducible refine (kept_snd (by assumption)).trans ?_
    | with_reducible refine (kept_snd2 (by assumption)).trans ?_
    | with_reducible refine (kept_snd3 (by assumption)).trans ?_
    | with_reducible refine (kept_fst (by assumption)).trans ?_
    | with_reducible refine kept_of_some (by assumption) ?_
    | simp (maxDischargeDepth := 6)
    | dsimp only
    | simp (maxDischargeDepth := 6) +zetaDelta

@[simp] theorem State.sweepNodes_kept (s : State) (ri : ℕ) (p : ℕ) :
    (State.sweepNodes s ri p).2.kept = s.kept := by
  unfold State.sweepNodes
  simp (maxDischargeDepth := 6)

@[simp] theorem State.redirty_kept (s : State) (ri : ℕ) (level : ℕ) (j : ℕ) :
    (State.redirty s ri level j).kept = s.kept := by
  unfold State.redirty
  repeat' first
    | (simp (maxDischargeDepth := 6); done)
    | split
    | simp (maxDischargeDepth := 6)

@[simp] theorem State.sweepPage_kept (s : State) (ri : ℕ) :
    (State.sweepPage s ri).kept = s.kept := by
  unfold State.sweepPage
  repeat' first
    | (simp (maxDischargeDepth := 6); done)
    | split
    | simp (maxDischargeDepth := 6)

@[simp] theorem State.endSweep_kept (s : State) (ri : ℕ) :
    (State.endSweep s ri).kept = s.kept := by
  unfold State.endSweep
  simp (maxDischargeDepth := 6)

end Sys2Proof.Machine
end

