-- ==== Sys2Proof/Laws/KeptDomain.lean ====
section
/-! SUPPORT. The operations of Domain keep the queue and the OTP areas. -/

set_option linter.unusedSimpArgs false
set_option linter.unusedTactic false
set_option linter.unreachableTactic false
set_option linter.unusedVariables false

namespace Sys2Proof.Machine
open Sys2Proof

theorem execDomOpen_kept (m : Mgmt) (domainId : BitVec 64) (profile : BitVec 32) (memberEmpty : BitVec 64) (s : State) {t : State}
    (h : execDomOpen m domainId profile memberEmpty s = .next t) : t.kept = s.kept := by
  unfold execDomOpen at h
  injection h with h
  subst h
  repeat' first
    | (simp (maxDischargeDepth := 6); done)
    | (simp (maxDischargeDepth := 6) +zetaDelta; done)
    | with_reducible refine Eq.trans (by assumption) ?_
    | intro _
    | split
    | simp (maxDischargeDepth := 6) only [kept_ite, kept_ite_snd, kept_ite_fst, kept_ite_snd2, kept_ite_snd3]
    | with_reducible refine (kept_foldl _ ?_ _ _).trans ?_
    | with_reducible refine (kept_foldl_snd _ ?_ _ _).trans ?_
    | with_reducible refine (kept_foldl_fst _ ?_ _ _).trans ?_
    | with_reducible refine (kept_foldl_snd2 _ ?_ _ _).trans ?_
    | with_reducible refine (State.domMsg_kept _ _ _ _ ?_).trans ?_
    | with_reducible refine (kept_snd (by assumption)).trans ?_
    | with_reducible refine (kept_snd2 (by assumption)).trans ?_
    | with_reducible refine (kept_snd3 (by assumption)).trans ?_
    | with_reducible refine (kept_fst (by assumption)).trans ?_
    | with_reducible refine kept_of_some (by assumption) ?_
    | simp (maxDischargeDepth := 6)
    | dsimp only
    | simp (maxDischargeDepth := 6) +zetaDelta

theorem execDomGroupLevel_kept (m : Mgmt) (level : ℕ) (count : ℕ) (members : List MemberStmt) (s : State) {t : State}
    (h : execDomGroupLevel m level count members s = .next t) : t.kept = s.kept := by
  unfold execDomGroupLevel at h
  injection h with h
  subst h
  simp (maxDischargeDepth := 6)

theorem execDomSecret_kept (m : Mgmt) (slot : ℕ) (secret : List Byte) (s : State) {t : State}
    (h : execDomSecret m slot secret s = .next t) : t.kept = s.kept := by
  unfold execDomSecret at h
  injection h with h
  subst h
  simp (maxDischargeDepth := 6)

@[simp] theorem State.slotMsg_kept (s : State) (slot : ℕ) (f : State → State) (hf : ∀ a0, (f a0).kept = a0.kept) :
    (State.slotMsg s slot f).kept = s.kept := by
  unfold State.slotMsg
  repeat' first
    | (simp (maxDischargeDepth := 6) [hf]; done)
    | (simp (maxDischargeDepth := 6) +zetaDelta [hf]; done)
    | with_reducible refine Eq.trans (by assumption) ?_
    | intro _
    | split
    | simp (maxDischargeDepth := 6) only [kept_ite, kept_ite_snd, kept_ite_fst, kept_ite_snd2, kept_ite_snd3]
    | with_reducible refine (kept_foldl _ ?_ _ _).trans ?_
    | with_reducible refine (kept_foldl_snd _ ?_ _ _).trans ?_
    | with_reducible refine (kept_foldl_fst _ ?_ _ _).trans ?_
    | with_reducible refine (kept_foldl_snd2 _ ?_ _ _).trans ?_
    | with_reducible refine (hf _).trans ?_
    | with_reducible refine (kept_snd (by assumption)).trans ?_
    | with_reducible refine (kept_snd2 (by assumption)).trans ?_
    | with_reducible refine (kept_snd3 (by assumption)).trans ?_
    | with_reducible refine (kept_fst (by assumption)).trans ?_
    | with_reducible refine kept_of_some (by assumption) ?_
    | simp (maxDischargeDepth := 6) [hf]
    | dsimp only
    | simp (maxDischargeDepth := 6) +zetaDelta [hf]

theorem execMemberConfirmTimeout_kept (slot : ℕ) (s : State) {t : State}
    (h : execMemberConfirmTimeout slot s = .next t) : t.kept = s.kept := by
  unfold execMemberConfirmTimeout at h
  injection h with h
  subst h
  simp (maxDischargeDepth := 6)

theorem execDomBindSlice_kept (m : Mgmt) (slot : ℕ) (slice : ℕ) (s : State) {t : State}
    (h : execDomBindSlice m slot slice s = .next t) : t.kept = s.kept := by
  unfold execDomBindSlice at h
  injection h with h
  subst h
  simp (maxDischargeDepth := 6)

theorem execDomAddSite_kept (m : Mgmt) (slot : ℕ) (site : ℕ) (digest : BitVec 384) (s : State) {t : State}
    (h : execDomAddSite m slot site digest s = .next t) : t.kept = s.kept := by
  unfold execDomAddSite at h
  injection h with h
  subst h
  simp (maxDischargeDepth := 6)

theorem execDomActivate_kept (m : Mgmt) (slot : ℕ) (s : State) {t : State}
    (h : execDomActivate m slot s = .next t) : t.kept = s.kept := by
  unfold execDomActivate at h
  injection h with h
  subst h
  simp (maxDischargeDepth := 6)

theorem execDomLease_kept (m : Mgmt) (slot : ℕ) (s : State) {t : State}
    (h : execDomLease m slot s = .next t) : t.kept = s.kept := by
  unfold execDomLease at h
  injection h with h
  subst h
  simp (maxDischargeDepth := 6)

theorem execLeaseLapse_kept (slot : ℕ) (s : State) {t : State}
    (h : execLeaseLapse slot s = .next t) : t.kept = s.kept := by
  unfold execLeaseLapse at h
  injection h with h
  subst h
  simp (maxDischargeDepth := 6)

theorem execAdmissionTimeout_kept (slot : ℕ) (s : State) {t : State}
    (h : execAdmissionTimeout slot s = .next t) : t.kept = s.kept := by
  unfold execAdmissionTimeout at h
  injection h with h
  subst h
  simp (maxDischargeDepth := 6)

theorem execQuarantineTimeout_kept (slot : ℕ) (s : State) {t : State}
    (h : execQuarantineTimeout slot s = .next t) : t.kept = s.kept := by
  unfold execQuarantineTimeout at h
  injection h with h
  subst h
  simp (maxDischargeDepth := 6)

theorem execDomResume_kept (m : Mgmt) (slot : ℕ) (s : State) {t : State}
    (h : execDomResume m slot s = .next t) : t.kept = s.kept := by
  unfold execDomResume at h
  injection h with h
  subst h
  simp (maxDischargeDepth := 6)

theorem execDomTeardown_kept (m : Mgmt) (slot : ℕ) (s : State) {t : State}
    (h : execDomTeardown m slot s = .next t) : t.kept = s.kept := by
  unfold execDomTeardown at h
  injection h with h
  subst h
  repeat' first
    | (simp (maxDischargeDepth := 6); done)
    | (simp (maxDischargeDepth := 6) +zetaDelta; done)
    | with_reducible refine Eq.trans (by assumption) ?_
    | intro _
    | split
    | simp (maxDischargeDepth := 6) only [kept_ite, kept_ite_snd, kept_ite_fst, kept_ite_snd2, kept_ite_snd3]
    | with_reducible refine (kept_foldl _ ?_ _ _).trans ?_
    | with_reducible refine (kept_foldl_snd _ ?_ _ _).trans ?_
    | with_reducible refine (kept_foldl_fst _ ?_ _ _).trans ?_
    | with_reducible refine (kept_foldl_snd2 _ ?_ _ _).trans ?_
    | with_reducible refine (State.domMsg_kept _ _ _ _ ?_).trans ?_
    | with_reducible refine (kept_snd (by assumption)).trans ?_
    | with_reducible refine (kept_snd2 (by assumption)).trans ?_
    | with_reducible refine (kept_snd3 (by assumption)).trans ?_
    | with_reducible refine (kept_fst (by assumption)).trans ?_
    | with_reducible refine kept_of_some (by assumption) ?_
    | simp (maxDischargeDepth := 6)
    | dsimp only
    | simp (maxDischargeDepth := 6) +zetaDelta

theorem execDomQuery_kept (m : Mgmt) (slot : ℕ) (s : State) {t : State}
    (h : execDomQuery m slot s = .next t) : t.kept = s.kept := by
  unfold execDomQuery at h
  injection h with h
  subst h
  simp (maxDischargeDepth := 6)

theorem execAlarmAck_kept (m : Mgmt) (seq : BitVec 32) (s : State) {t : State}
    (h : execAlarmAck m seq s = .next t) : t.kept = s.kept := by
  unfold execAlarmAck at h
  injection h with h
  subst h
  simp (maxDischargeDepth := 6)

theorem execTamperClear_kept (m : Mgmt) (s : State) {t : State}
    (h : execTamperClear m s = .next t) : t.kept = s.kept := by
  unfold execTamperClear at h
  injection h with h
  subst h
  simp (maxDischargeDepth := 6)

@[simp] theorem State.tdCool_kept (s : State) (i : ℕ) :
    (State.tdCool s i).kept = s.kept := by
  unfold State.tdCool
  simp (maxDischargeDepth := 6)

@[simp] theorem State.fillSlots_kept (s : State) (r : Region) (u : Nat) : (State.fillSlots s r u).kept = s.kept := by
  unfold State.fillSlots
  generalize List.range 512 = l
  simp (maxDischargeDepth := 6)

@[simp] theorem State.rawZeros_kept (s : State) (lo : ℕ) :
    (State.rawZeros s lo).kept = s.kept := by
  unfold State.rawZeros
  repeat' first
    | (simp (maxDischargeDepth := 6); done)
    | (simp (maxDischargeDepth := 6) +zetaDelta; done)
    | with_reducible refine Eq.trans (by assumption) ?_
    | intro _
    | split
    | simp (maxDischargeDepth := 6) only [kept_ite, kept_ite_snd, kept_ite_fst, kept_ite_snd2, kept_ite_snd3]
    | with_reducible refine (kept_foldl _ ?_ _ _).trans ?_
    | with_reducible refine (kept_foldl_snd _ ?_ _ _).trans ?_
    | with_reducible refine (kept_foldl_fst _ ?_ _ _).trans ?_
    | with_reducible refine (kept_foldl_snd2 _ ?_ _ _).trans ?_
    | with_reducible refine (kept_snd (by assumption)).trans ?_
    | with_reducible refine (kept_snd2 (by assumption)).trans ?_
    | with_reducible refine (kept_snd3 (by assumption)).trans ?_
    | with_reducible refine (kept_fst (by assumption)).trans ?_
    | with_reducible refine kept_of_some (by assumption) ?_
    | simp (maxDischargeDepth := 6)
    | dsimp only
    | simp (maxDischargeDepth := 6) +zetaDelta

@[simp] theorem State.zeroRegion_kept (s : State) (ri : ℕ) (u : ℕ) :
    (State.zeroRegion s ri u).kept = s.kept := by
  unfold State.zeroRegion
  repeat' first
    | (simp (maxDischargeDepth := 6); done)
    | (simp (maxDischargeDepth := 6) +zetaDelta; done)
    | with_reducible refine Eq.trans (by assumption) ?_
    | intro _
    | split
    | simp (maxDischargeDepth := 6) only [kept_ite, kept_ite_snd, kept_ite_fst, kept_ite_snd2, kept_ite_snd3]
    | with_reducible refine (kept_foldl _ ?_ _ _).trans ?_
    | with_reducible refine (kept_foldl_snd _ ?_ _ _).trans ?_
    | with_reducible refine (kept_foldl_fst _ ?_ _ _).trans ?_
    | with_reducible refine (kept_foldl_snd2 _ ?_ _ _).trans ?_
    | with_reducible refine (kept_snd (by assumption)).trans ?_
    | with_reducible refine (kept_snd2 (by assumption)).trans ?_
    | with_reducible refine (kept_snd3 (by assumption)).trans ?_
    | with_reducible refine (kept_fst (by assumption)).trans ?_
    | with_reducible refine kept_of_some (by assumption) ?_
    | simp (maxDischargeDepth := 6)
    | dsimp only
    | simp (maxDischargeDepth := 6) +zetaDelta

@[simp] theorem State.fillOne_kept (s : State) (i : ℕ) (x : FillUnit) :
    (State.fillOne s i x).kept = s.kept := by
  unfold State.fillOne
  repeat' first
    | (simp (maxDischargeDepth := 6); done)
    | (simp (maxDischargeDepth := 6) +zetaDelta; done)
    | with_reducible refine Eq.trans (by assumption) ?_
    | intro _
    | split
    | simp (maxDischargeDepth := 6) only [kept_ite, kept_ite_snd, kept_ite_fst, kept_ite_snd2, kept_ite_snd3]
    | with_reducible refine (kept_foldl _ ?_ _ _).trans ?_
    | with_reducible refine (kept_foldl_snd _ ?_ _ _).trans ?_
    | with_reducible refine (kept_foldl_fst _ ?_ _ _).trans ?_
    | with_reducible refine (kept_foldl_snd2 _ ?_ _ _).trans ?_
    | with_reducible refine (kept_snd (by assumption)).trans ?_
    | with_reducible refine (kept_snd2 (by assumption)).trans ?_
    | with_reducible refine (kept_snd3 (by assumption)).trans ?_
    | with_reducible refine (kept_fst (by assumption)).trans ?_
    | with_reducible refine kept_of_some (by assumption) ?_
    | simp (maxDischargeDepth := 6)
    | dsimp only
    | simp (maxDischargeDepth := 6) +zetaDelta

@[simp] theorem State.tdScrub_kept (i : ℕ) (a : ℕ) (a1 : State) :
    (State.tdScrub i a a1).kept = a1.kept := by
  fun_induction State.tdScrub i a a1 <;> first
    | rfl
    | (simp (maxDischargeDepth := 6); done)
    | (repeat' first
        | (simp (maxDischargeDepth := 6); done)
        | (simp (maxDischargeDepth := 6) +zetaDelta; done)
        | with_reducible refine Eq.trans (by assumption) ?_
        | intro _
        | split
        | simp (maxDischargeDepth := 6) only [kept_ite, kept_ite_snd, kept_ite_fst, kept_ite_snd2, kept_ite_snd3]
        | with_reducible refine (kept_foldl _ ?_ _ _).trans ?_
        | with_reducible refine (kept_foldl_snd _ ?_ _ _).trans ?_
        | with_reducible refine (kept_foldl_fst _ ?_ _ _).trans ?_
        | with_reducible refine (kept_foldl_snd2 _ ?_ _ _).trans ?_
        | with_reducible refine (kept_snd (by assumption)).trans ?_
        | with_reducible refine (kept_snd2 (by assumption)).trans ?_
        | with_reducible refine (kept_snd3 (by assumption)).trans ?_
        | with_reducible refine (kept_fst (by assumption)).trans ?_
        | with_reducible refine kept_of_some (by assumption) ?_
        | simp (maxDischargeDepth := 6)
        | dsimp only
        | simp (maxDischargeDepth := 6) +zetaDelta)

@[simp] theorem State.tdFirmware_kept (s : State) (i : ℕ) :
    (State.tdFirmware s i).kept = s.kept := by
  unfold State.tdFirmware
  simp (maxDischargeDepth := 6)

@[simp] theorem State.freeTallies_kept (s : State) (i : ℕ) :
    (State.freeTallies s i).kept = s.kept := by
  unfold State.freeTallies
  repeat' first
    | (simp (maxDischargeDepth := 6); done)
    | (simp (maxDischargeDepth := 6) +zetaDelta; done)
    | with_reducible refine Eq.trans (by assumption) ?_
    | intro _
    | split
    | simp (maxDischargeDepth := 6) only [kept_ite, kept_ite_snd, kept_ite_fst, kept_ite_snd2, kept_ite_snd3]
    | with_reducible refine (kept_foldl _ ?_ _ _).trans ?_
    | with_reducible refine (kept_foldl_snd _ ?_ _ _).trans ?_
    | with_reducible refine (kept_foldl_fst _ ?_ _ _).trans ?_
    | with_reducible refine (kept_foldl_snd2 _ ?_ _ _).trans ?_
    | with_reducible refine (kept_snd (by assumption)).trans ?_
    | with_reducible refine (kept_snd2 (by assumption)).trans ?_
    | with_reducible refine (kept_snd3 (by assumption)).trans ?_
    | with_reducible refine (kept_fst (by assumption)).trans ?_
    | with_reducible refine kept_of_some (by assumption) ?_
    | simp (maxDischargeDepth := 6)
    | dsimp only
    | simp (maxDischargeDepth := 6) +zetaDelta

@[simp] theorem State.tdRelease_kept (s : State) (i : ℕ) :
    (State.tdRelease s i).kept = s.kept := by
  unfold State.tdRelease
  simp (maxDischargeDepth := 6)

@[simp] theorem State.tdEnd_kept (s : State) (i : ℕ) :
    (State.tdEnd s i).kept = s.kept := by
  unfold State.tdEnd
  simp (maxDischargeDepth := 6)

@[simp] theorem State.tdOnce_kept (s : State) (i : ℕ) :
    (State.tdOnce s i).kept = s.kept := by
  unfold State.tdOnce
  repeat' first
    | (simp (maxDischargeDepth := 6); done)
    | split
    | simp (maxDischargeDepth := 6)

theorem execTeardownAdvance_kept (slot : ℕ) (s : State) {t : State}
    (h : execTeardownAdvance slot s = .next t) : t.kept = s.kept := by
  unfold execTeardownAdvance at h
  injection h with h
  subst h
  simp (maxDischargeDepth := 6)

theorem execGetMeasurements_kept (_m : Mgmt) (index : BitVec 8) (nonce : BitVec 256) (s : State) {t : State}
    (h : execGetMeasurements _m index nonce s = .next t) : t.kept = s.kept := by
  unfold execGetMeasurements at h
  injection h with h
  subst h
  simp (maxDischargeDepth := 6)

theorem execMemberStatementTimeout_kept (s : State) {t : State}
    (h : execMemberStatementTimeout s = .next t) : t.kept = s.kept := by
  unfold execMemberStatementTimeout at h
  injection h with h
  subst h
  simp (maxDischargeDepth := 6)

@[simp] theorem State.drawBytes_kept (s : State) (n : ℕ) :
    (State.drawBytes s n).2.kept = s.kept := by
  unfold State.drawBytes
  repeat' first
    | (simp (maxDischargeDepth := 6); done)
    | (simp (maxDischargeDepth := 6) +zetaDelta; done)
    | with_reducible refine Eq.trans (by assumption) ?_
    | intro _
    | split
    | simp (maxDischargeDepth := 6) only [kept_ite, kept_ite_snd, kept_ite_fst, kept_ite_snd2, kept_ite_snd3]
    | with_reducible refine (kept_foldl _ ?_ _ _).trans ?_
    | with_reducible refine (kept_foldl_snd _ ?_ _ _).trans ?_
    | with_reducible refine (kept_foldl_fst _ ?_ _ _).trans ?_
    | with_reducible refine (kept_foldl_snd2 _ ?_ _ _).trans ?_
    | with_reducible refine (kept_snd (by assumption)).trans ?_
    | with_reducible refine (kept_snd2 (by assumption)).trans ?_
    | with_reducible refine (kept_snd3 (by assumption)).trans ?_
    | with_reducible refine (kept_fst (by assumption)).trans ?_
    | with_reducible refine kept_of_some (by assumption) ?_
    | simp (maxDischargeDepth := 6)
    | dsimp only
    | simp (maxDischargeDepth := 6) +zetaDelta

theorem State.spdmBody_kept {s t : State} {code p1 : Nat} {body b : List Byte}
    (h : s.spdmBody code p1 body = .ok (b, t)) : t.kept = s.kept := by
  unfold State.spdmBody at h
  split at h
  all_goals repeat' split at h
  all_goals first
    | (injection h with h; injection h with _ h; subst h
       repeat' first
         | (simp; done)
         | with_reducible refine (kept_snd (by assumption)).trans ?_
         | simp)
    | cases h

theorem execSpdmRequest_kept (_m : Mgmt) (code : BitVec 8) (param1 : BitVec 8) (param2 : BitVec 8) (body : List Byte) (s : State) {t : State}
    (h : execSpdmRequest _m code param1 param2 body s = .next t) : t.kept = s.kept := by
  unfold execSpdmRequest at h
  injection h with h
  subst h
  repeat' first
    | (simp (maxDischargeDepth := 6); done)
    | (simp (maxDischargeDepth := 6) +zetaDelta; done)
    | with_reducible refine Eq.trans (by assumption) ?_
    | intro _
    | split
    | simp (maxDischargeDepth := 6) only [kept_ite, kept_ite_snd, kept_ite_fst, kept_ite_snd2, kept_ite_snd3]
    | with_reducible refine (kept_foldl _ ?_ _ _).trans ?_
    | with_reducible refine (kept_foldl_snd _ ?_ _ _).trans ?_
    | with_reducible refine (kept_foldl_fst _ ?_ _ _).trans ?_
    | with_reducible refine (kept_foldl_snd2 _ ?_ _ _).trans ?_
    | with_reducible refine (State.spdmBody_kept (by assumption)).trans ?_
    | with_reducible refine (State.spdmServe_kept _ _ ?_).trans ?_
    | with_reducible refine (kept_snd (by assumption)).trans ?_
    | with_reducible refine (kept_snd2 (by assumption)).trans ?_
    | with_reducible refine (kept_snd3 (by assumption)).trans ?_
    | with_reducible refine (kept_fst (by assumption)).trans ?_
    | with_reducible refine kept_of_some (by assumption) ?_
    | simp (maxDischargeDepth := 6)
    | dsimp only
    | simp (maxDischargeDepth := 6) +zetaDelta

end Sys2Proof.Machine
end

