-- ==== Sys2Proof/Laws/KeptFirebox.lean ====
section
/-! SUPPORT. The operations of Firebox keep the queue and the OTP areas. -/

set_option linter.unusedSimpArgs false
set_option linter.unusedTactic false
set_option linter.unreachableTactic false
set_option linter.unusedVariables false

namespace Sys2Proof.Machine
open Sys2Proof

@[simp] theorem State.setFbxRes_kept (s : State) (n : ℕ) :
    (State.setFbxRes s n).kept = s.kept := by
  unfold State.setFbxRes
  simp (maxDischargeDepth := 6)

@[simp] theorem State.fbxCmd_kept (s : State) (r : Req) (f : State → State) (hf : ∀ a0, (f a0).kept = a0.kept) :
    (State.fbxCmd s r f).kept = s.kept := by
  unfold State.fbxCmd
  repeat' first
    | (simp (maxDischargeDepth := 6) [hf]; done)
    | (simp (maxDischargeDepth := 6) +zetaDelta [hf]; done)
    | with_reducible refine Eq.trans (by assumption) ?_
    | intro _
    | split
    | simp (maxDischargeDepth := 6) only [kept_ite, kept_ite_snd, kept_ite_fst, kept_ite_snd2, kept_ite_snd3]
    | with_reducible refine (kept_foldl _ ?_ _ _).trans ?_
    | with_reducible refine (kept_foldl_snd _ ?_ _ _).trans ?_
    | with_reducible refine (kept_foldl_fst _ ?_ _ _).trans ?_
    | with_reducible refine (kept_foldl_snd2 _ ?_ _ _).trans ?_
    | with_reducible refine (State.regWrite_kept _ _ _ _ _ _ ?_).trans ?_
    | with_reducible refine (hf _).trans ?_
    | with_reducible refine (kept_snd (by assumption)).trans ?_
    | with_reducible refine (kept_snd2 (by assumption)).trans ?_
    | with_reducible refine (kept_snd3 (by assumption)).trans ?_
    | with_reducible refine (kept_fst (by assumption)).trans ?_
    | with_reducible refine kept_of_some (by assumption) ?_
    | simp (maxDischargeDepth := 6) [hf]
    | dsimp only
    | simp (maxDischargeDepth := 6) +zetaDelta [hf]

theorem execBindPlain_kept (r : Req) (kid : Kid) (s : State) {t : State}
    (h : execBindPlain r kid s = .next t) : t.kept = s.kept := by
  unfold execBindPlain at h
  injection h with h
  subst h
  simp (maxDischargeDepth := 6)

theorem execFbxRetire_kept (r : Req) (kid : Kid) (s : State) {t : State}
    (h : execFbxRetire r kid s = .next t) : t.kept = s.kept := by
  unfold execFbxRetire at h
  injection h with h
  subst h
  simp (maxDischargeDepth := 6)

theorem execFbxCtlWrite_kept (r : Req) (v : BitVec 32) (s : State) {t : State}
    (h : execFbxCtlWrite r v s = .next t) : t.kept = s.kept := by
  unfold execFbxCtlWrite at h
  injection h with h
  subst h
  simp (maxDischargeDepth := 6)

theorem execKidFlushComplete_kept (kid : Kid) (s : State) {t : State}
    (h : execKidFlushComplete kid s = .next t) : t.kept = s.kept := by
  unfold execKidFlushComplete at h
  injection h with h
  subst h
  simp (maxDischargeDepth := 6)

theorem execOrphanSweep_kept (s : State) {t : State}
    (h : execOrphanSweep s = .next t) : t.kept = s.kept := by
  unfold execOrphanSweep at h
  injection h with h
  subst h
  simp (maxDischargeDepth := 6)

@[simp] theorem State.resumeLinks_kept (s : State) (refused : Option (ℕ × BitVec 16 × ℕ × ℕ)) :
    (State.resumeLinks s refused).kept = s.kept := by
  unfold State.resumeLinks
  simp (maxDischargeDepth := 6)

theorem execKeyDeriveDone_kept (ok : Bool) (s : State) {t : State}
    (h : execKeyDeriveDone ok s = .next t) : t.kept = s.kept := by
  unfold execKeyDeriveDone at h
  injection h with h
  subst h
  repeat' first
    | (simp (maxDischargeDepth := 6); done)
    | split
    | simp (maxDischargeDepth := 6)

theorem execTrngFault_kept (s : State) {t : State}
    (h : execTrngFault s = .next t) : t.kept = s.kept := by
  unfold execTrngFault at h
  injection h with h
  subst h
  simp (maxDischargeDepth := 6)

@[simp] theorem State.epochMsg_kept (s : State) (m : Mgmt) (slot : ℕ) (op : ℕ) (e : BitVec 16) :
    (State.epochMsg s m slot op e).kept = s.kept := by
  unfold State.epochMsg
  simp (maxDischargeDepth := 6)

theorem execEpochPrepare_kept (m : Mgmt) (slot : ℕ) (epoch : BitVec 16) (s : State) {t : State}
    (h : execEpochPrepare m slot epoch s = .next t) : t.kept = s.kept := by
  unfold execEpochPrepare at h
  injection h with h
  subst h
  simp (maxDischargeDepth := 6)

theorem execEpochSwitch_kept (m : Mgmt) (slot : ℕ) (epoch : BitVec 16) (s : State) {t : State}
    (h : execEpochSwitch m slot epoch s = .next t) : t.kept = s.kept := by
  unfold execEpochSwitch at h
  injection h with h
  subst h
  simp (maxDischargeDepth := 6)

theorem execEpochRetire_kept (m : Mgmt) (slot : ℕ) (epoch : BitVec 16) (s : State) {t : State}
    (h : execEpochRetire m slot epoch s = .next t) : t.kept = s.kept := by
  unfold execEpochRetire at h
  injection h with h
  subst h
  simp (maxDischargeDepth := 6)

end Sys2Proof.Machine
end

