-- ==== Sys2Proof/Laws/KeptCipher.lean ====
section
/-! SUPPORT. The operations of Cipher keep the queue and the OTP areas. -/

set_option linter.unusedSimpArgs false
set_option linter.unusedTactic false
set_option linter.unreachableTactic false
set_option linter.unusedVariables false

namespace Sys2Proof.Machine
open Sys2Proof

@[simp] theorem State.cipherRefused_kept (s : State) (i : ℕ) (c : Cmd) (st : ℕ) :
    (State.cipherRefused s i c st).kept = s.kept := by
  unfold State.cipherRefused
  simp (maxDischargeDepth := 6)

@[simp] theorem State.startCipher_kept (s : State) (i : ℕ) (q : ℕ) (c : Cmd) :
    (State.startCipher s i q c).kept = s.kept := by
  unfold State.startCipher
  simp (maxDischargeDepth := 6)

@[simp] theorem State.cipherInput_kept (s : State) (i : ℕ) (q : ℕ) (seq : ℕ) (c : Cmd) (f : List Byte → State → State) (hf : ∀ a0 a1, (f a0 a1).kept = a1.kept) :
    (State.cipherInput s i q seq c f).kept = s.kept := by
  unfold State.cipherInput
  repeat' first
    | (simp (maxDischargeDepth := 6) [hf]; done)
    | (simp (maxDischargeDepth := 6) +zetaDelta [hf]; done)
    | with_reducible refine Eq.trans (by assumption) ?_
    | intro _
    | split
    | simp (maxDischargeDepth := 6) only [kept_ite, kept_ite_snd, kept_ite_fst, kept_ite_snd2, kept_ite_snd3]
    | with_reducible refine (kept_foldl _ ?_ _ _).trans ?_
    | with_reducible refine (kept_foldl_snd _ ?_ _ _).trans ?_
    | with_reducible refine (kept_foldl_fst _ ?_ _ _).trans ?_
    | with_reducible refine (kept_foldl_snd2 _ ?_ _ _).trans ?_
    | with_reducible refine (hf _ _).trans ?_
    | with_reducible refine (kept_snd (by assumption)).trans ?_
    | with_reducible refine (kept_snd2 (by assumption)).trans ?_
    | with_reducible refine (kept_snd3 (by assumption)).trans ?_
    | with_reducible refine (kept_fst (by assumption)).trans ?_
    | with_reducible refine kept_of_some (by assumption) ?_
    | simp (maxDischargeDepth := 6) [hf]
    | dsimp only
    | simp (maxDischargeDepth := 6) +zetaDelta [hf]

@[simp] theorem State.cipherOutput_kept (s : State) (i : ℕ) (q : ℕ) (seq : ℕ) (c : Cmd) (out : List Byte) (result : BitVec 64) :
    (State.cipherOutput s i q seq c out result).kept = s.kept := by
  unfold State.cipherOutput
  repeat' first
    | (simp (maxDischargeDepth := 6); done)
    | (simp (maxDischargeDepth := 6) +zetaDelta; done)
    | with_reducible refine Eq.trans (by assumption) ?_
    | intro _
    | split
    | simp (maxDischargeDepth := 6) only [kept_ite, kept_ite_snd, kept_ite_fst, kept_ite_snd2, kept_ite_snd3]
    | with_reducible refine (kept_foldl _ ?_ _ _).trans ?_
    | with_reducible refine (kept_foldl_snd _ ?_ _ _).trans ?_
    | with_reducible refine (kept_foldl_fst _ ?_ _ _).trans ?_
    | with_reducible refine (kept_foldl_snd2 _ ?_ _ _).trans ?_
    | with_reducible refine (kept_snd (by assumption)).trans ?_
    | with_reducible refine (kept_snd2 (by assumption)).trans ?_
    | with_reducible refine (kept_snd3 (by assumption)).trans ?_
    | with_reducible refine (kept_fst (by assumption)).trans ?_
    | with_reducible refine kept_of_some (by assumption) ?_
    | simp (maxDischargeDepth := 6)
    | dsimp only
    | simp (maxDischargeDepth := 6) +zetaDelta

theorem execCipher_kept (i : ℕ) (q : ℕ) (seq : ℕ) (s : State) {t : State}
    (h : execCipher i q seq s = .next t) : t.kept = s.kept := by
  unfold execCipher at h
  injection h with h
  subst h
  repeat' first
    | (simp (maxDischargeDepth := 6); done)
    | (simp (maxDischargeDepth := 6) +zetaDelta; done)
    | with_reducible refine Eq.trans (by assumption) ?_
    | intro _
    | split
    | simp (maxDischargeDepth := 6) only [kept_ite, kept_ite_snd, kept_ite_fst, kept_ite_snd2, kept_ite_snd3]
    | with_reducible refine (kept_foldl _ ?_ _ _).trans ?_
    | with_reducible refine (kept_foldl_snd _ ?_ _ _).trans ?_
    | with_reducible refine (kept_foldl_fst _ ?_ _ _).trans ?_
    | with_reducible refine (kept_foldl_snd2 _ ?_ _ _).trans ?_
    | with_reducible refine (State.unit_kept _ _ _ _ _ _ ?_).trans ?_
    | with_reducible refine (State.cipherInput_kept _ _ _ _ _ _ ?_).trans ?_
    | with_reducible refine (kept_snd (by assumption)).trans ?_
    | with_reducible refine (kept_snd2 (by assumption)).trans ?_
    | with_reducible refine (kept_snd3 (by assumption)).trans ?_
    | with_reducible refine (kept_fst (by assumption)).trans ?_
    | with_reducible refine kept_of_some (by assumption) ?_
    | simp (maxDischargeDepth := 6)
    | dsimp only
    | simp (maxDischargeDepth := 6) +zetaDelta

@[simp] theorem State.loadPage_kept (s : State) (n : ℕ) (key : BitVec 256) :
    (State.loadPage s n key).kept = s.kept := by
  unfold State.loadPage
  simp (maxDischargeDepth := 6)

theorem execCipherKeyLoad_kept (i : ℕ) (q : ℕ) (seq : ℕ) (s : State) {t : State}
    (h : execCipherKeyLoad i q seq s = .next t) : t.kept = s.kept := by
  unfold execCipherKeyLoad at h
  injection h with h
  subst h
  simp (maxDischargeDepth := 6)

@[simp] theorem State.settlePages_kept (s : State) :
    (State.settlePages s).kept = s.kept := by
  unfold State.settlePages
  simp (maxDischargeDepth := 6)

@[simp] theorem State.wakeCipher_kept (s : State) (r : Req) (p : ℕ) :
    (State.wakeCipher s r p).kept = s.kept := by
  unfold State.wakeCipher
  simp (maxDischargeDepth := 6)

theorem execCeAssign_kept (r : Req) (page : ℕ) (s : State) {t : State}
    (h : execCeAssign r page s = .next t) : t.kept = s.kept := by
  unfold execCeAssign at h
  injection h with h
  subst h
  simp (maxDischargeDepth := 6)

theorem execCeUnassign_kept (r : Req) (page : ℕ) (s : State) {t : State}
    (h : execCeUnassign r page s = .next t) : t.kept = s.kept := by
  unfold execCeUnassign at h
  injection h with h
  subst h
  simp (maxDischargeDepth := 6)

theorem execCeLoad_kept (r : Req) (page : ℕ) (s : State) {t : State}
    (h : execCeLoad r page s = .next t) : t.kept = s.kept := by
  unfold execCeLoad at h
  injection h with h
  subst h
  simp (maxDischargeDepth := 6)

theorem execCeZero_kept (r : Req) (page : ℕ) (s : State) {t : State}
    (h : execCeZero r page s = .next t) : t.kept = s.kept := by
  unfold execCeZero at h
  injection h with h
  subst h
  simp (maxDischargeDepth := 6)

theorem execCeCtlWrite_kept (r : Req) (v : BitVec 32) (s : State) {t : State}
    (h : execCeCtlWrite r v s = .next t) : t.kept = s.kept := by
  unfold execCeCtlWrite at h
  injection h with h
  subst h
  repeat' first
    | (simp (maxDischargeDepth := 6); done)
    | (simp (maxDischargeDepth := 6) +zetaDelta; done)
    | with_reducible refine Eq.trans (by assumption) ?_
    | intro _
    | split
    | simp (maxDischargeDepth := 6) only [kept_ite, kept_ite_snd, kept_ite_fst, kept_ite_snd2, kept_ite_snd3]
    | with_reducible refine (kept_foldl _ ?_ _ _).trans ?_
    | with_reducible refine (kept_foldl_snd _ ?_ _ _).trans ?_
    | with_reducible refine (kept_foldl_fst _ ?_ _ _).trans ?_
    | with_reducible refine (kept_foldl_snd2 _ ?_ _ _).trans ?_
    | with_reducible refine (State.regWriteMgmt_kept _ _ _ _ _ ?_).trans ?_
    | with_reducible refine (kept_snd (by assumption)).trans ?_
    | with_reducible refine (kept_snd2 (by assumption)).trans ?_
    | with_reducible refine (kept_snd3 (by assumption)).trans ?_
    | with_reducible refine (kept_fst (by assumption)).trans ?_
    | with_reducible refine kept_of_some (by assumption) ?_
    | simp (maxDischargeDepth := 6)
    | dsimp only
    | simp (maxDischargeDepth := 6) +zetaDelta

theorem execCeParamWrite_kept (r : Req) (page : ℕ) (v : BitVec 32) (s : State) {t : State}
    (h : execCeParamWrite r page v s = .next t) : t.kept = s.kept := by
  unfold execCeParamWrite at h
  injection h with h
  subst h
  simp (maxDischargeDepth := 6)

end Sys2Proof.Machine
end

