-- ==== Sys2Proof/Laws/KeptCollective.lean ====
section
/-! SUPPORT. The operations of Collective keep the queue and the OTP areas. -/

set_option linter.unusedSimpArgs false
set_option linter.unusedTactic false
set_option linter.unreachableTactic false
set_option linter.unusedVariables false

namespace Sys2Proof.Machine
open Sys2Proof

@[simp] theorem State.modSrun_kept (s : State) (k : ℕ) (x : ℕ) (f : StepRun → StepRun) :
    (State.modSrun s k x f).kept = s.kept := by
  unfold State.modSrun
  simp (maxDischargeDepth := 6)

@[simp] theorem State.registerSteps_kept (s : State) (k : ℕ) :
    (State.registerSteps s k).kept = s.kept := by
  unfold State.registerSteps
  simp (maxDischargeDepth := 6)

@[simp] theorem State.sendColFlit_kept (s : State) (k : ℕ) (x : ℕ) :
    (State.sendColFlit s k x).kept = s.kept := by
  unfold State.sendColFlit
  simp (maxDischargeDepth := 6)

@[simp] theorem State.sendCol_kept (k : ℕ) (x : ℕ) (a : ℕ) (a1 : State) :
    (State.sendCol k x a a1).kept = a1.kept := by
  fun_induction State.sendCol k x a a1 <;> first
    | rfl
    | (simp (maxDischargeDepth := 6); done)
    | (repeat' first
        | (simp (maxDischargeDepth := 6); done)
        | (simp (maxDischargeDepth := 6) +zetaDelta; done)
        | with_reducible refine Eq.trans (by assumption) ?_
        | intro _
        | split
        | simp (maxDischargeDepth := 6) only [kept_ite, kept_ite_snd, kept_ite_fst, kept_ite_snd2, kept_ite_snd3]
        | with_reducible refine (kept_foldl _ ?_ _ _).trans ?_
        | with_reducible refine (kept_foldl_snd _ ?_ _ _).trans ?_
        | with_reducible refine (kept_foldl_fst _ ?_ _ _).trans ?_
        | with_reducible refine (kept_foldl_snd2 _ ?_ _ _).trans ?_
        | with_reducible refine (kept_snd (by assumption)).trans ?_
        | with_reducible refine (kept_snd2 (by assumption)).trans ?_
        | with_reducible refine (kept_snd3 (by assumption)).trans ?_
        | with_reducible refine (kept_fst (by assumption)).trans ?_
        | with_reducible refine kept_of_some (by assumption) ?_
        | simp (maxDischargeDepth := 6)
        | dsimp only
        | simp (maxDischargeDepth := 6) +zetaDelta)

@[simp] theorem State.packCol_kept (s : State) (k : ℕ) (x : ℕ) (b : List Byte) :
    (State.packCol s k x b).kept = s.kept := by
  unfold State.packCol
  simp (maxDischargeDepth := 6)

@[simp] theorem State.planRead_kept (s : State) (p : Plan) (e : ℕ) (off : ℕ) (n : ℕ) :
    (State.planRead s p e off n).2.2.kept = s.kept := by
  unfold State.planRead
  simp (maxDischargeDepth := 6)

@[simp] theorem State.planWrite_kept (s : State) (p : Plan) (e : ℕ) (off : ℕ) (b : List Byte) :
    (State.planWrite s p e off b).2.kept = s.kept := by
  unfold State.planWrite
  simp (maxDischargeDepth := 6)

@[simp] theorem State.reduceVals_kept (s : State) (p : Plan) (x : ℕ) (n : ℕ) (got : List TVal) (hasGot : Bool) (t : Stats) :
    (State.reduceVals s p x n got hasGot t).2.2.2.kept = s.kept := by
  unfold State.reduceVals
  simp (maxDischargeDepth := 6)

@[simp] theorem State.writeOut_kept (s : State) (p : Plan) (x : ℕ) (n : ℕ) (vals : List ℕ) (t : Stats) :
    (State.writeOut s p x n vals t).2.2.kept = s.kept := by
  unfold State.writeOut
  simp (maxDischargeDepth := 6)

@[simp] theorem State.stepBlock_kept (s : State) (k : ℕ) (x : ℕ) (n : ℕ) (blk : Option (List Byte)) :
    (State.stepBlock s k x n blk).kept = s.kept := by
  unfold State.stepBlock
  simp (maxDischargeDepth := 6)

@[simp] theorem State.pumpStep_kept (k : ℕ) (x : ℕ) (a : ℕ) (a1 : State) :
    (State.pumpStep k x a a1).kept = a1.kept := by
  fun_induction State.pumpStep k x a a1 <;> first
    | rfl
    | (simp (maxDischargeDepth := 6); done)
    | (repeat' first
        | (simp (maxDischargeDepth := 6); done)
        | (simp (maxDischargeDepth := 6) +zetaDelta; done)
        | with_reducible refine Eq.trans (by assumption) ?_
        | intro _
        | split
        | simp (maxDischargeDepth := 6) only [kept_ite, kept_ite_snd, kept_ite_fst, kept_ite_snd2, kept_ite_snd3]
        | with_reducible refine (kept_foldl _ ?_ _ _).trans ?_
        | with_reducible refine (kept_foldl_snd _ ?_ _ _).trans ?_
        | with_reducible refine (kept_foldl_fst _ ?_ _ _).trans ?_
        | with_reducible refine (kept_foldl_snd2 _ ?_ _ _).trans ?_
        | with_reducible refine (kept_snd (by assumption)).trans ?_
        | with_reducible refine (kept_snd2 (by assumption)).trans ?_
        | with_reducible refine (kept_snd3 (by assumption)).trans ?_
        | with_reducible refine (kept_fst (by assumption)).trans ?_
        | with_reducible refine kept_of_some (by assumption) ?_
        | simp (maxDischargeDepth := 6)
        | dsimp only
        | simp (maxDischargeDepth := 6) +zetaDelta)

@[simp] theorem State.pump_kept (s : State) (k : ℕ) (x : ℕ) :
    (State.pump s k x).kept = s.kept := by
  unfold State.pump
  simp (maxDischargeDepth := 6)

@[simp] theorem State.startRun_kept (s : State) (i : ℕ) (q : ℕ) (c : Cmd) :
    (State.startRun s i q c).kept = s.kept := by
  unfold State.startRun
  simp (maxDischargeDepth := 6)

@[simp] theorem State.startStep_kept (s : State) (k : ℕ) (x : ℕ) :
    (State.startStep s k x).kept = s.kept := by
  unfold State.startStep
  simp (maxDischargeDepth := 6)

@[simp] theorem State.startChain_kept (k : ℕ) (a : ℕ) (a1 : ℕ) (a11 : State) :
    (State.startChain k a a1 a11).kept = a11.kept := by
  fun_induction State.startChain k a a1 a11 <;> first
    | rfl
    | (simp (maxDischargeDepth := 6); done)
    | (repeat' first
        | (simp (maxDischargeDepth := 6); done)
        | (simp (maxDischargeDepth := 6) +zetaDelta; done)
        | with_reducible refine Eq.trans (by assumption) ?_
        | intro _
        | split
        | simp (maxDischargeDepth := 6) only [kept_ite, kept_ite_snd, kept_ite_fst, kept_ite_snd2, kept_ite_snd3]
        | with_reducible refine (kept_foldl _ ?_ _ _).trans ?_
        | with_reducible refine (kept_foldl_snd _ ?_ _ _).trans ?_
        | with_reducible refine (kept_foldl_fst _ ?_ _ _).trans ?_
        | with_reducible refine (kept_foldl_snd2 _ ?_ _ _).trans ?_
        | with_reducible refine (kept_snd (by assumption)).trans ?_
        | with_reducible refine (kept_snd2 (by assumption)).trans ?_
        | with_reducible refine (kept_snd3 (by assumption)).trans ?_
        | with_reducible refine (kept_fst (by assumption)).trans ?_
        | with_reducible refine kept_of_some (by assumption) ?_
        | simp (maxDischargeDepth := 6)
        | dsimp only
        | simp (maxDischargeDepth := 6) +zetaDelta)

theorem execStepStart_kept (plan : ℕ) (step : ℕ) (s : State) {t : State}
    (h : execStepStart plan step s = .next t) : t.kept = s.kept := by
  unfold execStepStart at h
  injection h with h
  subst h
  simp (maxDischargeDepth := 6)

@[simp] theorem State.settleRun_kept (s : State) (k : ℕ) :
    (State.settleRun s k).kept = s.kept := by
  unfold State.settleRun
  simp (maxDischargeDepth := 6)

theorem execStepComplete_kept (plan : ℕ) (step : ℕ) (s : State) {t : State}
    (h : execStepComplete plan step s = .next t) : t.kept = s.kept := by
  unfold execStepComplete at h
  injection h with h
  subst h
  simp (maxDischargeDepth := 6)

theorem execPlanRun_kept (i : ℕ) (q : ℕ) (seq : ℕ) (s : State) {t : State}
    (h : execPlanRun i q seq s = .next t) : t.kept = s.kept := by
  unfold execPlanRun at h
  injection h with h
  subst h
  simp (maxDischargeDepth := 6)

@[simp] theorem State.runStats_kept (s : State) (p : Plan) :
    (State.runStats s p).2.kept = s.kept := by
  unfold State.runStats
  repeat' first
    | (simp (maxDischargeDepth := 6); done)
    | (simp (maxDischargeDepth := 6) +zetaDelta; done)
    | with_reducible refine Eq.trans (by assumption) ?_
    | intro _
    | split
    | simp (maxDischargeDepth := 6) only [kept_ite, kept_ite_snd, kept_ite_fst, kept_ite_snd2, kept_ite_snd3]
    | with_reducible refine (kept_foldl _ ?_ _ _).trans ?_
    | with_reducible refine (kept_foldl_snd _ ?_ _ _).trans ?_
    | with_reducible refine (kept_foldl_fst _ ?_ _ _).trans ?_
    | with_reducible refine (kept_foldl_snd2 _ ?_ _ _).trans ?_
    | with_reducible refine (kept_snd (by assumption)).trans ?_
    | with_reducible refine (kept_snd2 (by assumption)).trans ?_
    | with_reducible refine (kept_snd3 (by assumption)).trans ?_
    | with_reducible refine (kept_fst (by assumption)).trans ?_
    | with_reducible refine kept_of_some (by assumption) ?_
    | simp (maxDischargeDepth := 6)
    | dsimp only
    | simp (maxDischargeDepth := 6) +zetaDelta

@[simp] theorem State.closeRun_kept (s : State) (i : ℕ) (q : ℕ) (seq : ℕ) (k : ℕ) (stall : ℕ) (t : Stats) :
    (State.closeRun s i q seq k stall t).kept = s.kept := by
  unfold State.closeRun
  repeat' first
    | (simp (maxDischargeDepth := 6); done)
    | (simp (maxDischargeDepth := 6) +zetaDelta; done)
    | with_reducible refine Eq.trans (by assumption) ?_
    | intro _
    | split
    | simp (maxDischargeDepth := 6) only [kept_ite, kept_ite_snd, kept_ite_fst, kept_ite_snd2, kept_ite_snd3]
    | with_reducible refine (kept_foldl _ ?_ _ _).trans ?_
    | with_reducible refine (kept_foldl_snd _ ?_ _ _).trans ?_
    | with_reducible refine (kept_foldl_fst _ ?_ _ _).trans ?_
    | with_reducible refine (kept_foldl_snd2 _ ?_ _ _).trans ?_
    | with_reducible refine (kept_snd (by assumption)).trans ?_
    | with_reducible refine (kept_snd2 (by assumption)).trans ?_
    | with_reducible refine (kept_snd3 (by assumption)).trans ?_
    | with_reducible refine (kept_fst (by assumption)).trans ?_
    | with_reducible refine kept_of_some (by assumption) ?_
    | simp (maxDischargeDepth := 6)
    | dsimp only
    | simp (maxDischargeDepth := 6) +zetaDelta

@[simp] theorem State.commitRun_kept (s : State) (i : ℕ) (q : ℕ) (c : Cmd) :
    (State.commitRun s i q c).2.kept = s.kept := by
  unfold State.commitRun
  repeat' first
    | (simp (maxDischargeDepth := 6); done)
    | (simp (maxDischargeDepth := 6) +zetaDelta; done)
    | with_reducible refine Eq.trans (by assumption) ?_
    | intro _
    | split
    | simp (maxDischargeDepth := 6) only [kept_ite, kept_ite_snd, kept_ite_fst, kept_ite_snd2, kept_ite_snd3]
    | with_reducible refine (kept_foldl _ ?_ _ _).trans ?_
    | with_reducible refine (kept_foldl_snd _ ?_ _ _).trans ?_
    | with_reducible refine (kept_foldl_fst _ ?_ _ _).trans ?_
    | with_reducible refine (kept_foldl_snd2 _ ?_ _ _).trans ?_
    | with_reducible refine (kept_snd (by assumption)).trans ?_
    | with_reducible refine (kept_snd2 (by assumption)).trans ?_
    | with_reducible refine (kept_snd3 (by assumption)).trans ?_
    | with_reducible refine (kept_fst (by assumption)).trans ?_
    | with_reducible refine kept_of_some (by assumption) ?_
    | simp (maxDischargeDepth := 6)
    | dsimp only
    | simp (maxDischargeDepth := 6) +zetaDelta

@[simp] theorem State.commitRun_some (s : State) (i : ℕ) (q : ℕ) (c : Cmd) :
    ((State.commitRun s i q c).1.getD s).kept = s.kept := by
  unfold State.commitRun
  repeat' first
    | (simp (maxDischargeDepth := 6); done)
    | (simp (maxDischargeDepth := 6) +zetaDelta; done)
    | with_reducible refine Eq.trans (by assumption) ?_
    | intro _
    | split
    | simp (maxDischargeDepth := 6) only [kept_ite, kept_ite_snd, kept_ite_fst, kept_ite_snd2, kept_ite_snd3]
    | with_reducible refine (kept_foldl _ ?_ _ _).trans ?_
    | with_reducible refine (kept_foldl_snd _ ?_ _ _).trans ?_
    | with_reducible refine (kept_foldl_fst _ ?_ _ _).trans ?_
    | with_reducible refine (kept_foldl_snd2 _ ?_ _ _).trans ?_
    | with_reducible refine (kept_snd (by assumption)).trans ?_
    | with_reducible refine (kept_snd2 (by assumption)).trans ?_
    | with_reducible refine (kept_snd3 (by assumption)).trans ?_
    | with_reducible refine (kept_fst (by assumption)).trans ?_
    | with_reducible refine kept_of_some (by assumption) ?_
    | simp (maxDischargeDepth := 6)
    | dsimp only
    | simp (maxDischargeDepth := 6) +zetaDelta

@[simp] theorem State.strayFlit_kept (s : State) (link : ℕ) :
    (State.strayFlit s link).kept = s.kept := by
  unfold State.strayFlit
  simp (maxDischargeDepth := 6)

@[simp] theorem State.placeCol_kept (s : State) (link : ℕ) (f : RxFlit) :
    (State.placeCol s link f).kept = s.kept := by
  unfold State.placeCol
  repeat' first
    | (simp (maxDischargeDepth := 6); done)
    | split
    | simp (maxDischargeDepth := 6)

theorem execColDataReceive_kept (f : FlitIn) (s : State) {t : State}
    (h : execColDataReceive f s = .next t) : t.kept = s.kept := by
  unfold execColDataReceive at h
  injection h with h
  subst h
  repeat' first
    | (simp (maxDischargeDepth := 6); done)
    | (simp (maxDischargeDepth := 6) +zetaDelta; done)
    | with_reducible refine Eq.trans (by assumption) ?_
    | intro _
    | split
    | simp (maxDischargeDepth := 6) only [kept_ite, kept_ite_snd, kept_ite_fst, kept_ite_snd2, kept_ite_snd3]
    | with_reducible refine (kept_foldl _ ?_ _ _).trans ?_
    | with_reducible refine (kept_foldl_snd _ ?_ _ _).trans ?_
    | with_reducible refine (kept_foldl_fst _ ?_ _ _).trans ?_
    | with_reducible refine (kept_foldl_snd2 _ ?_ _ _).trans ?_
    | with_reducible refine (kept_snd (by assumption)).trans ?_
    | with_reducible refine (kept_snd2 (by assumption)).trans ?_
    | with_reducible refine (kept_snd3 (by assumption)).trans ?_
    | with_reducible refine (kept_fst (by assumption)).trans ?_
    | with_reducible refine kept_of_some (by assumption) ?_
    | simp (maxDischargeDepth := 6)
    | dsimp only
    | simp (maxDischargeDepth := 6) +zetaDelta

@[simp] theorem State.takeCredit_kept (s : State) (link : ℕ) (slot : Option ℕ) (stream : ℕ) (v : ℕ) :
    (State.takeCredit s link slot stream v).kept = s.kept := by
  unfold State.takeCredit
  repeat' first
    | (simp (maxDischargeDepth := 6); done)
    | split
    | simp (maxDischargeDepth := 6)

@[simp] theorem State.takeAbort_kept (s : State) (link : ℕ) (slot : Option ℕ) (stream : ℕ) (run : ℕ) :
    (State.takeAbort s link slot stream run).kept = s.kept := by
  unfold State.takeAbort
  repeat' first
    | (simp (maxDischargeDepth := 6); done)
    | split
    | simp (maxDischargeDepth := 6)

@[simp] theorem State.takeEntry_kept (s : State) (link : ℕ) (slot : Option ℕ) (e : ℕ × ℕ × ℕ × ℕ) :
    (State.takeEntry s link slot e).kept = s.kept := by
  unfold State.takeEntry
  simp (maxDischargeDepth := 6)

@[simp] theorem State.takeColCtl_kept (s : State) (f : FlitIn) (abort : Bool) :
    (State.takeColCtl s f abort).kept = s.kept := by
  unfold State.takeColCtl
  repeat' first
    | (simp (maxDischargeDepth := 6); done)
    | (simp (maxDischargeDepth := 6) +zetaDelta; done)
    | with_reducible refine Eq.trans (by assumption) ?_
    | intro _
    | split
    | simp (maxDischargeDepth := 6) only [kept_ite, kept_ite_snd, kept_ite_fst, kept_ite_snd2, kept_ite_snd3]
    | with_reducible refine (kept_foldl _ ?_ _ _).trans ?_
    | with_reducible refine (kept_foldl_snd _ ?_ _ _).trans ?_
    | with_reducible refine (kept_foldl_fst _ ?_ _ _).trans ?_
    | with_reducible refine (kept_foldl_snd2 _ ?_ _ _).trans ?_
    | with_reducible refine (kept_snd (by assumption)).trans ?_
    | with_reducible refine (kept_snd2 (by assumption)).trans ?_
    | with_reducible refine (kept_snd3 (by assumption)).trans ?_
    | with_reducible refine (kept_fst (by assumption)).trans ?_
    | with_reducible refine kept_of_some (by assumption) ?_
    | simp (maxDischargeDepth := 6)
    | dsimp only
    | simp (maxDischargeDepth := 6) +zetaDelta

theorem execColCreditReceive_kept (f : FlitIn) (s : State) {t : State}
    (h : execColCreditReceive f s = .next t) : t.kept = s.kept := by
  unfold execColCreditReceive at h
  injection h with h
  subst h
  simp (maxDischargeDepth := 6)

theorem execColAbortReceive_kept (f : FlitIn) (s : State) {t : State}
    (h : execColAbortReceive f s = .next t) : t.kept = s.kept := by
  unfold execColAbortReceive at h
  injection h with h
  subst h
  simp (maxDischargeDepth := 6)

theorem execColCreditSend_kept (plan : ℕ) (step : ℕ) (s : State) {t : State}
    (h : execColCreditSend plan step s = .next t) : t.kept = s.kept := by
  unfold execColCreditSend at h
  injection h with h
  subst h
  simp (maxDischargeDepth := 6)

@[simp] theorem State.wallStep_kept (s : State) (k : ℕ) (x : ℕ) :
    (State.wallStep s k x).kept = s.kept := by
  unfold State.wallStep
  repeat' first
    | (simp (maxDischargeDepth := 6); done)
    | (simp (maxDischargeDepth := 6) +zetaDelta; done)
    | with_reducible refine Eq.trans (by assumption) ?_
    | intro _
    | split
    | simp (maxDischargeDepth := 6) only [kept_ite, kept_ite_snd, kept_ite_fst, kept_ite_snd2, kept_ite_snd3]
    | with_reducible refine (kept_foldl _ ?_ _ _).trans ?_
    | with_reducible refine (kept_foldl_snd _ ?_ _ _).trans ?_
    | with_reducible refine (kept_foldl_fst _ ?_ _ _).trans ?_
    | with_reducible refine (kept_foldl_snd2 _ ?_ _ _).trans ?_
    | with_reducible refine (kept_snd (by assumption)).trans ?_
    | with_reducible refine (kept_snd2 (by assumption)).trans ?_
    | with_reducible refine (kept_snd3 (by assumption)).trans ?_
    | with_reducible refine (kept_fst (by assumption)).trans ?_
    | with_reducible refine kept_of_some (by assumption) ?_
    | simp (maxDischargeDepth := 6)
    | dsimp only
    | simp (maxDischargeDepth := 6) +zetaDelta

@[simp] theorem State.wallSteps_kept (s : State) :
    (State.wallSteps s).kept = s.kept := by
  unfold State.wallSteps
  repeat' first
    | (simp (maxDischargeDepth := 6); done)
    | (simp (maxDischargeDepth := 6) +zetaDelta; done)
    | with_reducible refine Eq.trans (by assumption) ?_
    | intro _
    | split
    | simp (maxDischargeDepth := 6) only [kept_ite, kept_ite_snd, kept_ite_fst, kept_ite_snd2, kept_ite_snd3]
    | with_reducible refine (kept_foldl _ ?_ _ _).trans ?_
    | with_reducible refine (kept_foldl_snd _ ?_ _ _).trans ?_
    | with_reducible refine (kept_foldl_fst _ ?_ _ _).trans ?_
    | with_reducible refine (kept_foldl_snd2 _ ?_ _ _).trans ?_
    | with_reducible refine (State.forEach_kept _ _ _ ?_).trans ?_
    | with_reducible refine (kept_snd (by assumption)).trans ?_
    | with_reducible refine (kept_snd2 (by assumption)).trans ?_
    | with_reducible refine (kept_snd3 (by assumption)).trans ?_
    | with_reducible refine (kept_fst (by assumption)).trans ?_
    | with_reducible refine kept_of_some (by assumption) ?_
    | simp (maxDischargeDepth := 6)
    | dsimp only
    | simp (maxDischargeDepth := 6) +zetaDelta

theorem execColFlushTimer_kept (plan : ℕ) (step : ℕ) (s : State) {t : State}
    (h : execColFlushTimer plan step s = .next t) : t.kept = s.kept := by
  unfold execColFlushTimer at h
  injection h with h
  subst h
  simp (maxDischargeDepth := 6)

theorem execRunTimeout_kept (plan : ℕ) (step : ℕ) (s : State) {t : State}
    (h : execRunTimeout plan step s = .next t) : t.kept = s.kept := by
  unfold execRunTimeout at h
  injection h with h
  subst h
  simp (maxDischargeDepth := 6)

end Sys2Proof.Machine
end

