-- ==== Sys2Proof/Laws/KeptProupFab.lean ====
section
/-! SUPPORT. The operations of ProupFab keep the queue and the OTP areas. -/

set_option linter.unusedSimpArgs false
set_option linter.unusedTactic false
set_option linter.unreachableTactic false
set_option linter.unusedVariables false

namespace Sys2Proof.Machine
open Sys2Proof

@[simp] theorem State.drawKey_kept (s : State) :
    (State.drawKey s).2.kept = s.kept := by
  unfold State.drawKey
  simp (maxDischargeDepth := 6)

theorem execWinOpen_kept (i : ℕ) (q : ℕ) (seq : ℕ) (s : State) {t : State}
    (h : execWinOpen i q seq s = .next t) : t.kept = s.kept := by
  unfold execWinOpen at h
  injection h with h
  subst h
  repeat' first
    | (simp (maxDischargeDepth := 6); done)
    | (simp (maxDischargeDepth := 6) +zetaDelta; done)
    | with_reducible refine Eq.trans (by assumption) ?_
    | intro _
    | split
    | simp (maxDischargeDepth := 6) only [kept_ite, kept_ite_snd, kept_ite_fst, kept_ite_snd2, kept_ite_snd3]
    | with_reducible refine (kept_foldl _ ?_ _ _).trans ?_
    | with_reducible refine (kept_foldl_snd _ ?_ _ _).trans ?_
    | with_reducible refine (kept_foldl_fst _ ?_ _ _).trans ?_
    | with_reducible refine (kept_foldl_snd2 _ ?_ _ _).trans ?_
    | with_reducible refine (State.unit_kept _ _ _ _ _ _ ?_).trans ?_
    | with_reducible refine (kept_snd (by assumption)).trans ?_
    | with_reducible refine (kept_snd2 (by assumption)).trans ?_
    | with_reducible refine (kept_snd3 (by assumption)).trans ?_
    | with_reducible refine (kept_fst (by assumption)).trans ?_
    | with_reducible refine kept_of_some (by assumption) ?_
    | simp (maxDischargeDepth := 6)
    | dsimp only
    | simp (maxDischargeDepth := 6) +zetaDelta

theorem execWinClose_kept (i : ℕ) (q : ℕ) (seq : ℕ) (s : State) {t : State}
    (h : execWinClose i q seq s = .next t) : t.kept = s.kept := by
  unfold execWinClose at h
  injection h with h
  subst h
  simp (maxDischargeDepth := 6)

theorem execRwinSet_kept (i : ℕ) (q : ℕ) (seq : ℕ) (s : State) {t : State}
    (h : execRwinSet i q seq s = .next t) : t.kept = s.kept := by
  unfold execRwinSet at h
  injection h with h
  subst h
  repeat' first
    | (simp (maxDischargeDepth := 6); done)
    | (simp (maxDischargeDepth := 6) +zetaDelta; done)
    | with_reducible refine Eq.trans (by assumption) ?_
    | intro _
    | split
    | simp (maxDischargeDepth := 6) only [kept_ite, kept_ite_snd, kept_ite_fst, kept_ite_snd2, kept_ite_snd3]
    | with_reducible refine (kept_foldl _ ?_ _ _).trans ?_
    | with_reducible refine (kept_foldl_snd _ ?_ _ _).trans ?_
    | with_reducible refine (kept_foldl_fst _ ?_ _ _).trans ?_
    | with_reducible refine (kept_foldl_snd2 _ ?_ _ _).trans ?_
    | with_reducible refine (State.unit_kept _ _ _ _ _ _ ?_).trans ?_
    | with_reducible refine (kept_snd (by assumption)).trans ?_
    | with_reducible refine (kept_snd2 (by assumption)).trans ?_
    | with_reducible refine (kept_snd3 (by assumption)).trans ?_
    | with_reducible refine (kept_fst (by assumption)).trans ?_
    | with_reducible refine kept_of_some (by assumption) ?_
    | simp (maxDischargeDepth := 6)
    | dsimp only
    | simp (maxDischargeDepth := 6) +zetaDelta

theorem execRwinClear_kept (i : ℕ) (q : ℕ) (seq : ℕ) (s : State) {t : State}
    (h : execRwinClear i q seq s = .next t) : t.kept = s.kept := by
  unfold execRwinClear at h
  injection h with h
  subst h
  simp (maxDischargeDepth := 6)

@[simp] theorem State.tookIssue_kept (s : State) (i : ℕ) (q : ℕ) (seq : ℕ) (r : Issue) (dt : ℕ) :
    (State.tookIssue s i q seq r dt).2.kept = s.kept := by
  unfold State.tookIssue
  repeat' first
    | (simp (maxDischargeDepth := 6); done)
    | split
    | simp (maxDischargeDepth := 6)

@[simp] theorem State.allIssued_kept (s : State) (i : ℕ) (q : ℕ) (seq : ℕ) :
    (State.allIssued s i q seq).kept = s.kept := by
  unfold State.allIssued
  simp (maxDischargeDepth := 6)

@[simp] theorem State.trailSignal_kept (s : State) (i : ℕ) (q : ℕ) (seq : ℕ) :
    (State.trailSignal s i q seq).kept = s.kept := by
  unfold State.trailSignal
  repeat' first
    | (simp (maxDischargeDepth := 6); done)
    | (simp (maxDischargeDepth := 6) +zetaDelta; done)
    | with_reducible refine Eq.trans (by assumption) ?_
    | intro _
    | split
    | simp (maxDischargeDepth := 6) only [kept_ite, kept_ite_snd, kept_ite_fst, kept_ite_snd2, kept_ite_snd3]
    | with_reducible refine (kept_foldl _ ?_ _ _).trans ?_
    | with_reducible refine (kept_foldl_snd _ ?_ _ _).trans ?_
    | with_reducible refine (kept_foldl_fst _ ?_ _ _).trans ?_
    | with_reducible refine (kept_foldl_snd2 _ ?_ _ _).trans ?_
    | with_reducible refine (kept_snd (by assumption)).trans ?_
    | with_reducible refine (kept_snd2 (by assumption)).trans ?_
    | with_reducible refine (kept_snd3 (by assumption)).trans ?_
    | with_reducible refine (kept_fst (by assumption)).trans ?_
    | with_reducible refine kept_of_some (by assumption) ?_
    | simp (maxDischargeDepth := 6)
    | dsimp only
    | simp (maxDischargeDepth := 6) +zetaDelta

@[simp] theorem State.issueLines_kept (i : ℕ) (q : ℕ) (seq : ℕ) (a : ℕ) (a1 : State) :
    (State.issueLines i q seq a a1).kept = a1.kept := by
  fun_induction State.issueLines i q seq a a1 <;> first
    | rfl
    | (simp (maxDischargeDepth := 6); done)
    | (repeat' first
        | (simp (maxDischargeDepth := 6); done)
        | (simp (maxDischargeDepth := 6) +zetaDelta; done)
        | with_reducible refine Eq.trans (by assumption) ?_
        | intro _
        | split
        | simp (maxDischargeDepth := 6) only [kept_ite, kept_ite_snd, kept_ite_fst, kept_ite_snd2, kept_ite_snd3]
        | with_reducible refine (kept_foldl _ ?_ _ _).trans ?_
        | with_reducible refine (kept_foldl_snd _ ?_ _ _).trans ?_
        | with_reducible refine (kept_foldl_fst _ ?_ _ _).trans ?_
        | with_reducible refine (kept_foldl_snd2 _ ?_ _ _).trans ?_
        | with_reducible refine (kept_snd (by assumption)).trans ?_
        | with_reducible refine (kept_snd2 (by assumption)).trans ?_
        | with_reducible refine (kept_snd3 (by assumption)).trans ?_
        | with_reducible refine (kept_fst (by assumption)).trans ?_
        | with_reducible refine kept_of_some (by assumption) ?_
        | simp (maxDischargeDepth := 6)
        | dsimp only
        | simp (maxDischargeDepth := 6) +zetaDelta)

@[simp] theorem State.storeArrived_kept (s : State) (i : ℕ) (q : ℕ) (seq : ℕ) :
    (State.storeArrived s i q seq).kept = s.kept := by
  unfold State.storeArrived
  repeat' first
    | (simp (maxDischargeDepth := 6); done)
    | split
    | simp (maxDischargeDepth := 6)

theorem execFabRead_kept (i : ℕ) (q : ℕ) (seq : ℕ) (s : State) {t : State}
    (h : execFabRead i q seq s = .next t) : t.kept = s.kept := by
  unfold execFabRead at h
  injection h with h
  subst h
  simp (maxDischargeDepth := 6)

theorem execFabWrite_kept (i : ℕ) (q : ℕ) (seq : ℕ) (s : State) {t : State}
    (h : execFabWrite i q seq s = .next t) : t.kept = s.kept := by
  unfold execFabWrite at h
  injection h with h
  subst h
  simp (maxDischargeDepth := 6)

@[simp] theorem State.issueOne_kept (s : State) (i : ℕ) (q : ℕ) (seq : ℕ) (entry : ℕ) (right : ℕ) (kind : ℕ) (op : ℕ) (flag : Bool) (off : ℕ) (data : List Byte) :
    (State.issueOne s i q seq entry right kind op flag off data).kept = s.kept := by
  unfold State.issueOne
  repeat' first
    | (simp (maxDischargeDepth := 6); done)
    | (simp (maxDischargeDepth := 6) +zetaDelta; done)
    | with_reducible refine Eq.trans (by assumption) ?_
    | intro _
    | split
    | simp (maxDischargeDepth := 6) only [kept_ite, kept_ite_snd, kept_ite_fst, kept_ite_snd2, kept_ite_snd3]
    | with_reducible refine (kept_foldl _ ?_ _ _).trans ?_
    | with_reducible refine (kept_foldl_snd _ ?_ _ _).trans ?_
    | with_reducible refine (kept_foldl_fst _ ?_ _ _).trans ?_
    | with_reducible refine (kept_foldl_snd2 _ ?_ _ _).trans ?_
    | with_reducible refine (kept_snd (by assumption)).trans ?_
    | with_reducible refine (kept_snd2 (by assumption)).trans ?_
    | with_reducible refine (kept_snd3 (by assumption)).trans ?_
    | with_reducible refine (kept_fst (by assumption)).trans ?_
    | with_reducible refine kept_of_some (by assumption) ?_
    | simp (maxDischargeDepth := 6)
    | dsimp only
    | simp (maxDischargeDepth := 6) +zetaDelta

theorem execFabAtomic_kept (i : ℕ) (q : ℕ) (seq : ℕ) (s : State) {t : State}
    (h : execFabAtomic i q seq s = .next t) : t.kept = s.kept := by
  unfold execFabAtomic at h
  injection h with h
  subst h
  simp (maxDischargeDepth := 6)

theorem execSigRemote_kept (i : ℕ) (q : ℕ) (seq : ℕ) (s : State) {t : State}
    (h : execSigRemote i q seq s = .next t) : t.kept = s.kept := by
  unfold execSigRemote at h
  injection h with h
  subst h
  simp (maxDischargeDepth := 6)

theorem execFlushRemote_kept (i : ℕ) (q : ℕ) (seq : ℕ) (s : State) {t : State}
    (h : execFlushRemote i q seq s = .next t) : t.kept = s.kept := by
  unfold execFlushRemote at h
  injection h with h
  subst h
  simp (maxDischargeDepth := 6)

end Sys2Proof.Machine
end

