-- ==== Sys2Proof/Laws/KeptSync.lean ====
section
/-! SUPPORT. The operations of Sync keep the queue and the OTP areas. -/

set_option linter.unusedSimpArgs false
set_option linter.unusedTactic false
set_option linter.unreachableTactic false
set_option linter.unusedVariables false

namespace Sys2Proof.Machine
open Sys2Proof

theorem execSyncInit_kept (i : ℕ) (q : ℕ) (seq : ℕ) (s : State) {t : State}
    (h : execSyncInit i q seq s = .next t) : t.kept = s.kept := by
  unfold execSyncInit at h
  injection h with h
  subst h
  simp (maxDischargeDepth := 6)

theorem execSyncFree_kept (i : ℕ) (q : ℕ) (seq : ℕ) (s : State) {t : State}
    (h : execSyncFree i q seq s = .next t) : t.kept = s.kept := by
  unfold execSyncFree at h
  injection h with h
  subst h
  simp (maxDischargeDepth := 6)

theorem execSyncNotify_kept (i : ℕ) (q : ℕ) (seq : ℕ) (s : State) {t : State}
    (h : execSyncNotify i q seq s = .next t) : t.kept = s.kept := by
  unfold execSyncNotify at h
  injection h with h
  subst h
  simp (maxDischargeDepth := 6)

theorem execSyncGrant_kept (i : ℕ) (q : ℕ) (seq : ℕ) (s : State) {t : State}
    (h : execSyncGrant i q seq s = .next t) : t.kept = s.kept := by
  unfold execSyncGrant at h
  injection h with h
  subst h
  repeat' first
    | (simp (maxDischargeDepth := 6); done)
    | (simp (maxDischargeDepth := 6) +zetaDelta; done)
    | with_reducible refine Eq.trans (by assumption) ?_
    | intro _
    | split
    | simp (maxDischargeDepth := 6) only [kept_ite, kept_ite_snd, kept_ite_fst, kept_ite_snd2, kept_ite_snd3]
    | with_reducible refine (kept_foldl _ ?_ _ _).trans ?_
    | with_reducible refine (kept_foldl_snd _ ?_ _ _).trans ?_
    | with_reducible refine (kept_foldl_fst _ ?_ _ _).trans ?_
    | with_reducible refine (kept_foldl_snd2 _ ?_ _ _).trans ?_
    | with_reducible refine (State.unit_kept _ _ _ _ _ _ ?_).trans ?_
    | with_reducible refine (kept_snd (by assumption)).trans ?_
    | with_reducible refine (kept_snd2 (by assumption)).trans ?_
    | with_reducible refine (kept_snd3 (by assumption)).trans ?_
    | with_reducible refine (kept_fst (by assumption)).trans ?_
    | with_reducible refine kept_of_some (by assumption) ?_
    | simp (maxDischargeDepth := 6)
    | dsimp only
    | simp (maxDischargeDepth := 6) +zetaDelta

theorem execSyncUngrant_kept (i : ℕ) (q : ℕ) (seq : ℕ) (s : State) {t : State}
    (h : execSyncUngrant i q seq s = .next t) : t.kept = s.kept := by
  unfold execSyncUngrant at h
  injection h with h
  subst h
  simp (maxDischargeDepth := 6)

theorem execSyncOp_kept (i : ℕ) (q : ℕ) (seq : ℕ) (s : State) {t : State}
    (h : execSyncOp i q seq s = .next t) : t.kept = s.kept := by
  unfold execSyncOp at h
  injection h with h
  subst h
  simp (maxDischargeDepth := 6)

@[simp] theorem State.writeSynSlcfg_kept (s : State) (r : Req) (v : BitVec 64) :
    (State.writeSynSlcfg s r v).kept = s.kept := by
  unfold State.writeSynSlcfg
  simp (maxDischargeDepth := 6)

theorem execSynSlcfgWrite_kept (r : Req) (v : BitVec 64) (s : State) {t : State}
    (h : execSynSlcfgWrite r v s = .next t) : t.kept = s.kept := by
  unfold execSynSlcfgWrite at h
  injection h with h
  subst h
  simp (maxDischargeDepth := 6)

theorem execSynCtlWrite_kept (r : Req) (v : BitVec 32) (s : State) {t : State}
    (h : execSynCtlWrite r v s = .next t) : t.kept = s.kept := by
  unfold execSynCtlWrite at h
  injection h with h
  subst h
  repeat' first
    | (simp (maxDischargeDepth := 6); done)
    | (simp (maxDischargeDepth := 6) +zetaDelta; done)
    | with_reducible refine Eq.trans (by assumption) ?_
    | intro _
    | split
    | simp (maxDischargeDepth := 6) only [kept_ite, kept_ite_snd, kept_ite_fst, kept_ite_snd2, kept_ite_snd3]
    | with_reducible refine (kept_foldl _ ?_ _ _).trans ?_
    | with_reducible refine (kept_foldl_snd _ ?_ _ _).trans ?_
    | with_reducible refine (kept_foldl_fst _ ?_ _ _).trans ?_
    | with_reducible refine (kept_foldl_snd2 _ ?_ _ _).trans ?_
    | with_reducible refine (State.regWriteMgmt_kept _ _ _ _ _ ?_).trans ?_
    | with_reducible refine (kept_snd (by assumption)).trans ?_
    | with_reducible refine (kept_snd2 (by assumption)).trans ?_
    | with_reducible refine (kept_snd3 (by assumption)).trans ?_
    | with_reducible refine (kept_fst (by assumption)).trans ?_
    | with_reducible refine kept_of_some (by assumption) ?_
    | simp (maxDischargeDepth := 6)
    | dsimp only
    | simp (maxDischargeDepth := 6) +zetaDelta

@[simp] theorem State.hostSignal_kept (s : State) (r : Req) (slice : ℕ) (port : ℕ) (v : BitVec 64) :
    (State.hostSignal s r slice port v).kept = s.kept := by
  unfold State.hostSignal
  simp (maxDischargeDepth := 6)

theorem execHostSignal_kept (r : Req) (slice : ℕ) (port : ℕ) (v : BitVec 64) (s : State) {t : State}
    (h : execHostSignal r slice port v s = .next t) : t.kept = s.kept := by
  unfold execHostSignal at h
  injection h with h
  subst h
  simp (maxDischargeDepth := 6)

theorem execOrphanAll_kept (r : Req) (slice : ℕ) (s : State) {t : State}
    (h : execOrphanAll r slice s = .next t) : t.kept = s.kept := by
  unfold execOrphanAll at h
  injection h with h
  subst h
  simp (maxDischargeDepth := 6)

theorem execSyncDebugRead_kept (r : Req) (s : State) {t : State}
    (h : execSyncDebugRead r s = .next t) : t.kept = s.kept := by
  unfold execSyncDebugRead at h
  injection h with h
  subst h
  repeat' first
    | (simp (maxDischargeDepth := 6); done)
    | (simp (maxDischargeDepth := 6) +zetaDelta; done)
    | with_reducible refine Eq.trans (by assumption) ?_
    | intro _
    | split
    | simp (maxDischargeDepth := 6) only [kept_ite, kept_ite_snd, kept_ite_fst, kept_ite_snd2, kept_ite_snd3]
    | with_reducible refine (kept_foldl _ ?_ _ _).trans ?_
    | with_reducible refine (kept_foldl_snd _ ?_ _ _).trans ?_
    | with_reducible refine (kept_foldl_fst _ ?_ _ _).trans ?_
    | with_reducible refine (kept_foldl_snd2 _ ?_ _ _).trans ?_
    | with_reducible refine (State.regWriteMgmt_kept _ _ _ _ _ ?_).trans ?_
    | with_reducible refine (kept_snd (by assumption)).trans ?_
    | with_reducible refine (kept_snd2 (by assumption)).trans ?_
    | with_reducible refine (kept_snd3 (by assumption)).trans ?_
    | with_reducible refine (kept_fst (by assumption)).trans ?_
    | with_reducible refine kept_of_some (by assumption) ?_
    | simp (maxDischargeDepth := 6)
    | dsimp only
    | simp (maxDischargeDepth := 6) +zetaDelta

@[simp] theorem State.forceObj_kept (s : State) (g : ℕ) (v : BitVec 64) (clear : Bool) :
    (State.forceObj s g v clear).kept = s.kept := by
  unfold State.forceObj
  simp (maxDischargeDepth := 6)

theorem execSyncForce_kept (r : Req) (clear : Bool) (s : State) {t : State}
    (h : execSyncForce r clear s = .next t) : t.kept = s.kept := by
  unfold execSyncForce at h
  injection h with h
  subst h
  repeat' first
    | (simp (maxDischargeDepth := 6); done)
    | (simp (maxDischargeDepth := 6) +zetaDelta; done)
    | with_reducible refine Eq.trans (by assumption) ?_
    | intro _
    | split
    | simp (maxDischargeDepth := 6) only [kept_ite, kept_ite_snd, kept_ite_fst, kept_ite_snd2, kept_ite_snd3]
    | with_reducible refine (kept_foldl _ ?_ _ _).trans ?_
    | with_reducible refine (kept_foldl_snd _ ?_ _ _).trans ?_
    | with_reducible refine (kept_foldl_fst _ ?_ _ _).trans ?_
    | with_reducible refine (kept_foldl_snd2 _ ?_ _ _).trans ?_
    | with_reducible refine (State.regWriteMgmt_kept _ _ _ _ _ ?_).trans ?_
    | with_reducible refine (kept_snd (by assumption)).trans ?_
    | with_reducible refine (kept_snd2 (by assumption)).trans ?_
    | with_reducible refine (kept_snd3 (by assumption)).trans ?_
    | with_reducible refine (kept_fst (by assumption)).trans ?_
    | with_reducible refine kept_of_some (by assumption) ?_
    | simp (maxDischargeDepth := 6)
    | dsimp only
    | simp (maxDischargeDepth := 6) +zetaDelta

end Sys2Proof.Machine
end

