-- ==== Sys2Proof/Laws/KeptWitnessCmds.lean ====
section
/-! SUPPORT. The operations of WitnessCmds keep the queue and the OTP areas. -/

set_option linter.unusedSimpArgs false
set_option linter.unusedTactic false
set_option linter.unreachableTactic false
set_option linter.unusedVariables false

namespace Sys2Proof.Machine
open Sys2Proof

@[simp] theorem State.startSample_kept (s : State) (i : ℕ) (q : ℕ) (c : Cmd) :
    (State.startSample s i q c).kept = s.kept := by
  unfold State.startSample
  simp (maxDischargeDepth := 6)

@[simp] theorem State.putLatch_kept (s : State) (i : ℕ) (q : ℕ) (seq : ℕ) (ix : ℕ) (off : ℕ) (b : List Byte) :
    (State.putLatch s i q seq ix off b).kept = s.kept := by
  unfold State.putLatch
  repeat' first
    | (simp (maxDischargeDepth := 6); done)
    | (simp (maxDischargeDepth := 6) +zetaDelta; done)
    | with_reducible refine Eq.trans (by assumption) ?_
    | intro _
    | split
    | simp (maxDischargeDepth := 6) only [kept_ite, kept_ite_snd, kept_ite_fst, kept_ite_snd2, kept_ite_snd3]
    | with_reducible refine (kept_foldl _ ?_ _ _).trans ?_
    | with_reducible refine (kept_foldl_snd _ ?_ _ _).trans ?_
    | with_reducible refine (kept_foldl_fst _ ?_ _ _).trans ?_
    | with_reducible refine (kept_foldl_snd2 _ ?_ _ _).trans ?_
    | with_reducible refine (kept_snd (by assumption)).trans ?_
    | with_reducible refine (kept_snd2 (by assumption)).trans ?_
    | with_reducible refine (kept_snd3 (by assumption)).trans ?_
    | with_reducible refine (kept_fst (by assumption)).trans ?_
    | with_reducible refine kept_of_some (by assumption) ?_
    | simp (maxDischargeDepth := 6)
    | dsimp only
    | simp (maxDischargeDepth := 6) +zetaDelta

theorem execCtrSample_kept (i : ℕ) (q : ℕ) (seq : ℕ) (s : State) {t : State}
    (h : execCtrSample i q seq s = .next t) : t.kept = s.kept := by
  unfold execCtrSample at h
  injection h with h
  subst h
  simp (maxDischargeDepth := 6)

theorem execWatchArm_kept (i : ℕ) (q : ℕ) (seq : ℕ) (s : State) {t : State}
    (h : execWatchArm i q seq s = .next t) : t.kept = s.kept := by
  unfold execWatchArm at h
  injection h with h
  subst h
  repeat' first
    | (simp (maxDischargeDepth := 6); done)
    | (simp (maxDischargeDepth := 6) +zetaDelta; done)
    | with_reducible refine Eq.trans (by assumption) ?_
    | intro _
    | split
    | simp (maxDischargeDepth := 6) only [kept_ite, kept_ite_snd, kept_ite_fst, kept_ite_snd2, kept_ite_snd3]
    | with_reducible refine (kept_foldl _ ?_ _ _).trans ?_
    | with_reducible refine (kept_foldl_snd _ ?_ _ _).trans ?_
    | with_reducible refine (kept_foldl_fst _ ?_ _ _).trans ?_
    | with_reducible refine (kept_foldl_snd2 _ ?_ _ _).trans ?_
    | with_reducible refine (State.unit_kept _ _ _ _ _ _ ?_).trans ?_
    | with_reducible refine (kept_snd (by assumption)).trans ?_
    | with_reducible refine (kept_snd2 (by assumption)).trans ?_
    | with_reducible refine (kept_snd3 (by assumption)).trans ?_
    | with_reducible refine (kept_fst (by assumption)).trans ?_
    | with_reducible refine kept_of_some (by assumption) ?_
    | simp (maxDischargeDepth := 6)
    | dsimp only
    | simp (maxDischargeDepth := 6) +zetaDelta

theorem execWatchDisarm_kept (i : ℕ) (q : ℕ) (seq : ℕ) (s : State) {t : State}
    (h : execWatchDisarm i q seq s = .next t) : t.kept = s.kept := by
  unfold execWatchDisarm at h
  injection h with h
  subst h
  simp (maxDischargeDepth := 6)

@[simp] theorem State.startReport_kept (s : State) (i : ℕ) (q : ℕ) (c : Cmd) :
    (State.startReport s i q c).kept = s.kept := by
  unfold State.startReport
  simp (maxDischargeDepth := 6)

theorem execWatchReport_kept (i : ℕ) (q : ℕ) (seq : ℕ) (s : State) {t : State}
    (h : execWatchReport i q seq s = .next t) : t.kept = s.kept := by
  unfold execWatchReport at h
  injection h with h
  subst h
  simp (maxDischargeDepth := 6)

end Sys2Proof.Machine
end

