-- ==== Sys2Proof/Laws/KeptStart.lean ====
section
/-! SUPPORT. The operations of Start keep the queue and the OTP areas. -/

set_option linter.unusedSimpArgs false
set_option linter.unusedTactic false
set_option linter.unreachableTactic false
set_option linter.unusedVariables false

namespace Sys2Proof.Machine
open Sys2Proof

@[simp] theorem State.chkStart_kept (s : State) (i : ℕ) (c : Cmd) :
    (State.chkStart s i c).2.kept = s.kept := by
  unfold State.chkStart
  repeat' first
    | (simp (maxDischargeDepth := 6); done)
    | split
    | simp (maxDischargeDepth := 6)

@[simp] theorem State.holdHandles_kept (s : State) (i : ℕ) (q : ℕ) (c : Cmd) :
    (State.holdHandles s i q c).kept = s.kept := by
  unfold State.holdHandles
  simp (maxDischargeDepth := 6)

@[simp] theorem State.onStart_kept (s : State) (i : ℕ) (q : ℕ) (c : Cmd) :
    (State.onStart s i q c).kept = s.kept := by
  unfold State.onStart
  repeat' first
    | (simp (maxDischargeDepth := 6); done)
    | split
    | simp (maxDischargeDepth := 6)

@[simp] theorem State.rrMove_kept (s : State) (i : ℕ) (q : ℕ) :
    (State.rrMove s i q).kept = s.kept := by
  unfold State.rrMove
  repeat' first
    | (simp (maxDischargeDepth := 6); done)
    | (simp (maxDischargeDepth := 6) +zetaDelta; done)
    | with_reducible refine Eq.trans (by assumption) ?_
    | intro _
    | split
    | simp (maxDischargeDepth := 6) only [kept_ite, kept_ite_snd, kept_ite_fst, kept_ite_snd2, kept_ite_snd3]
    | with_reducible refine (kept_foldl _ ?_ _ _).trans ?_
    | with_reducible refine (kept_foldl_snd _ ?_ _ _).trans ?_
    | with_reducible refine (kept_foldl_fst _ ?_ _ _).trans ?_
    | with_reducible refine (kept_foldl_snd2 _ ?_ _ _).trans ?_
    | with_reducible refine (kept_snd (by assumption)).trans ?_
    | with_reducible refine (kept_snd2 (by assumption)).trans ?_
    | with_reducible refine (kept_snd3 (by assumption)).trans ?_
    | with_reducible refine (kept_fst (by assumption)).trans ?_
    | with_reducible refine kept_of_some (by assumption) ?_
    | simp (maxDischargeDepth := 6)
    | dsimp only
    | simp (maxDischargeDepth := 6) +zetaDelta

@[simp] theorem State.serveTake_kept (s : State) (i : ℕ) (q : ℕ) (c : Cmd) :
    (State.serveTake s i q c).kept = s.kept := by
  unfold State.serveTake
  repeat' first
    | (simp (maxDischargeDepth := 6); done)
    | split
    | simp (maxDischargeDepth := 6)

@[simp] theorem State.wakeFor_kept (s : State) (op : ℕ) :
    (State.wakeFor s op).kept = s.kept := by
  unfold State.wakeFor
  repeat' first
    | (simp (maxDischargeDepth := 6); done)
    | split
    | simp (maxDischargeDepth := 6)

@[simp] theorem State.startCmd_kept (s : State) (i : ℕ) (q : ℕ) (c : Cmd) :
    (State.startCmd s i q c).kept = s.kept := by
  unfold State.startCmd
  simp (maxDischargeDepth := 6)

theorem execCommandStart_kept (slice : ℕ) (queue : ℕ) (s : State) {t : State}
    (h : execCommandStart slice queue s = .next t) : t.kept = s.kept := by
  unfold execCommandStart at h
  injection h with h
  subst h
  repeat' first
    | (simp (maxDischargeDepth := 6); done)
    | split
    | simp (maxDischargeDepth := 6)

end Sys2Proof.Machine
end

