-- ==== Sys2Proof/Laws/KeptQueue.lean ====
section
/-! SUPPORT. The operations of Queue keep the queue and the OTP areas. -/

set_option linter.unusedSimpArgs false
set_option linter.unusedTactic false
set_option linter.unreachableTactic false
set_option linter.unusedVariables false

namespace Sys2Proof.Machine
open Sys2Proof

@[simp] theorem State.qcmd_kept (s : State) (r : Req) (i : ℕ) (f : ℕ → State → State) (hf : ∀ a0 a1, (f a0 a1).kept = a1.kept) :
    (State.qcmd s r i f).kept = s.kept := by
  unfold State.qcmd
  repeat' first
    | (simp (maxDischargeDepth := 6) [hf]; done)
    | (simp (maxDischargeDepth := 6) +zetaDelta [hf]; done)
    | with_reducible refine Eq.trans (by assumption) ?_
    | intro _
    | split
    | simp (maxDischargeDepth := 6) only [kept_ite, kept_ite_snd, kept_ite_fst, kept_ite_snd2, kept_ite_snd3]
    | with_reducible refine (kept_foldl _ ?_ _ _).trans ?_
    | with_reducible refine (kept_foldl_snd _ ?_ _ _).trans ?_
    | with_reducible refine (kept_foldl_fst _ ?_ _ _).trans ?_
    | with_reducible refine (kept_foldl_snd2 _ ?_ _ _).trans ?_
    | with_reducible refine (State.regWrite_kept _ _ _ _ _ _ ?_).trans ?_
    | with_reducible refine (hf _ _).trans ?_
    | with_reducible refine (kept_snd (by assumption)).trans ?_
    | with_reducible refine (kept_snd2 (by assumption)).trans ?_
    | with_reducible refine (kept_snd3 (by assumption)).trans ?_
    | with_reducible refine (kept_fst (by assumption)).trans ?_
    | with_reducible refine kept_of_some (by assumption) ?_
    | simp (maxDischargeDepth := 6) [hf]
    | dsimp only
    | simp (maxDischargeDepth := 6) +zetaDelta [hf]

@[simp] theorem State.qrefuse_kept (s : State) (i : ℕ) (q : ℕ) (n : ℕ) :
    (State.qrefuse s i q n).kept = s.kept := by
  unfold State.qrefuse
  simp (maxDischargeDepth := 6)

@[simp] theorem State.qmove_kept (s : State) (i : ℕ) (q : ℕ) (row : Bool) (f : State → State) (hf : ∀ a0, (f a0).kept = a0.kept) :
    (State.qmove s i q row f).kept = s.kept := by
  unfold State.qmove
  repeat' first
    | (simp (maxDischargeDepth := 6) [hf]; done)
    | (simp (maxDischargeDepth := 6) +zetaDelta [hf]; done)
    | with_reducible refine Eq.trans (by assumption) ?_
    | intro _
    | split
    | simp (maxDischargeDepth := 6) only [kept_ite, kept_ite_snd, kept_ite_fst, kept_ite_snd2, kept_ite_snd3]
    | with_reducible refine (kept_foldl _ ?_ _ _).trans ?_
    | with_reducible refine (kept_foldl_snd _ ?_ _ _).trans ?_
    | with_reducible refine (kept_foldl_fst _ ?_ _ _).trans ?_
    | with_reducible refine (kept_foldl_snd2 _ ?_ _ _).trans ?_
    | with_reducible refine (hf _).trans ?_
    | with_reducible refine (kept_snd (by assumption)).trans ?_
    | with_reducible refine (kept_snd2 (by assumption)).trans ?_
    | with_reducible refine (kept_snd3 (by assumption)).trans ?_
    | with_reducible refine (kept_fst (by assumption)).trans ?_
    | with_reducible refine kept_of_some (by assumption) ?_
    | simp (maxDischargeDepth := 6) [hf]
    | dsimp only
    | simp (maxDischargeDepth := 6) +zetaDelta [hf]

theorem execQueueEnable_kept (r : Req) (slice : ℕ) (s : State) {t : State}
    (h : execQueueEnable r slice s = .next t) : t.kept = s.kept := by
  unfold execQueueEnable at h
  injection h with h
  subst h
  repeat' first
    | (simp (maxDischargeDepth := 6); done)
    | (simp (maxDischargeDepth := 6) +zetaDelta; done)
    | with_reducible refine Eq.trans (by assumption) ?_
    | intro _
    | split
    | simp (maxDischargeDepth := 6) only [kept_ite, kept_ite_snd, kept_ite_fst, kept_ite_snd2, kept_ite_snd3]
    | with_reducible refine (kept_foldl _ ?_ _ _).trans ?_
    | with_reducible refine (kept_foldl_snd _ ?_ _ _).trans ?_
    | with_reducible refine (kept_foldl_fst _ ?_ _ _).trans ?_
    | with_reducible refine (kept_foldl_snd2 _ ?_ _ _).trans ?_
    | with_reducible refine (State.qcmd_kept _ _ _ _ ?_).trans ?_
    | with_reducible refine (kept_snd (by assumption)).trans ?_
    | with_reducible refine (kept_snd2 (by assumption)).trans ?_
    | with_reducible refine (kept_snd3 (by assumption)).trans ?_
    | with_reducible refine (kept_fst (by assumption)).trans ?_
    | with_reducible refine kept_of_some (by assumption) ?_
    | simp (maxDischargeDepth := 6)
    | dsimp only
    | simp (maxDischargeDepth := 6) +zetaDelta

theorem execStopDrain_kept (r : Req) (slice : ℕ) (s : State) {t : State}
    (h : execStopDrain r slice s = .next t) : t.kept = s.kept := by
  unfold execStopDrain at h
  injection h with h
  subst h
  simp (maxDischargeDepth := 6)

theorem execStopSquash_kept (r : Req) (slice : ℕ) (s : State) {t : State}
    (h : execStopSquash r slice s = .next t) : t.kept = s.kept := by
  unfold execStopSquash at h
  injection h with h
  subst h
  simp (maxDischargeDepth := 6)

theorem execQueueResume_kept (r : Req) (slice : ℕ) (s : State) {t : State}
    (h : execQueueResume r slice s = .next t) : t.kept = s.kept := by
  unfold execQueueResume at h
  injection h with h
  subst h
  simp (maxDischargeDepth := 6)

theorem execQueueDisable_kept (r : Req) (slice : ℕ) (s : State) {t : State}
    (h : execQueueDisable r slice s = .next t) : t.kept = s.kept := by
  unfold execQueueDisable at h
  injection h with h
  subst h
  simp (maxDischargeDepth := 6)

@[simp] theorem State.dbWrite_kept (s : State) (r : Req) (queue : ℕ) (off : ℕ) (f : ℕ → ℕ → State → State) (hf : ∀ a0 a1 a2, (f a0 a1 a2).kept = a2.kept) :
    (State.dbWrite s r queue off f).kept = s.kept := by
  unfold State.dbWrite
  repeat' first
    | (simp (maxDischargeDepth := 6) [hf]; done)
    | (simp (maxDischargeDepth := 6) +zetaDelta [hf]; done)
    | with_reducible refine Eq.trans (by assumption) ?_
    | intro _
    | split
    | simp (maxDischargeDepth := 6) only [kept_ite, kept_ite_snd, kept_ite_fst, kept_ite_snd2, kept_ite_snd3]
    | with_reducible refine (kept_foldl _ ?_ _ _).trans ?_
    | with_reducible refine (kept_foldl_snd _ ?_ _ _).trans ?_
    | with_reducible refine (kept_foldl_fst _ ?_ _ _).trans ?_
    | with_reducible refine (kept_foldl_snd2 _ ?_ _ _).trans ?_
    | with_reducible refine (State.regWrite_kept _ _ _ _ _ _ ?_).trans ?_
    | with_reducible refine (hf _ _ _).trans ?_
    | with_reducible refine (kept_snd (by assumption)).trans ?_
    | with_reducible refine (kept_snd2 (by assumption)).trans ?_
    | with_reducible refine (kept_snd3 (by assumption)).trans ?_
    | with_reducible refine (kept_fst (by assumption)).trans ?_
    | with_reducible refine kept_of_some (by assumption) ?_
    | simp (maxDischargeDepth := 6) [hf]
    | dsimp only
    | simp (maxDischargeDepth := 6) +zetaDelta [hf]

theorem execQmDbTailWrite_kept (r : Req) (queue : ℕ) (v : BitVec 32) (s : State) {t : State}
    (h : execQmDbTailWrite r queue v s = .next t) : t.kept = s.kept := by
  unfold execQmDbTailWrite at h
  injection h with h
  subst h
  simp (maxDischargeDepth := 6)

theorem execQmDbCplHeadWrite_kept (r : Req) (queue : ℕ) (v : BitVec 32) (s : State) {t : State}
    (h : execQmDbCplHeadWrite r queue v s = .next t) : t.kept = s.kept := by
  unfold execQmDbCplHeadWrite at h
  injection h with h
  subst h
  simp (maxDischargeDepth := 6)

theorem execQmAbort_kept (r : Req) (slice : ℕ) (v : BitVec 32) (s : State) {t : State}
    (h : execQmAbort r slice v s = .next t) : t.kept = s.kept := by
  unfold execQmAbort at h
  injection h with h
  subst h
  repeat' first
    | (simp (maxDischargeDepth := 6); done)
    | (simp (maxDischargeDepth := 6) +zetaDelta; done)
    | with_reducible refine Eq.trans (by assumption) ?_
    | intro _
    | split
    | simp (maxDischargeDepth := 6) only [kept_ite, kept_ite_snd, kept_ite_fst, kept_ite_snd2, kept_ite_snd3]
    | with_reducible refine (kept_foldl _ ?_ _ _).trans ?_
    | with_reducible refine (kept_foldl_snd _ ?_ _ _).trans ?_
    | with_reducible refine (kept_foldl_fst _ ?_ _ _).trans ?_
    | with_reducible refine (kept_foldl_snd2 _ ?_ _ _).trans ?_
    | with_reducible refine (State.regWrite_kept _ _ _ _ _ _ ?_).trans ?_
    | with_reducible refine (kept_snd (by assumption)).trans ?_
    | with_reducible refine (kept_snd2 (by assumption)).trans ?_
    | with_reducible refine (kept_snd3 (by assumption)).trans ?_
    | with_reducible refine (kept_fst (by assumption)).trans ?_
    | with_reducible refine kept_of_some (by assumption) ?_
    | simp (maxDischargeDepth := 6)
    | dsimp only
    | simp (maxDischargeDepth := 6) +zetaDelta

@[simp] theorem State.ringWords_kept (s : State) (i : ℕ) (x : Queue) (words : Option (List (BitVec 64))) :
    (State.ringWords s i x words).2.kept = s.kept := by
  unfold State.ringWords
  repeat' first
    | (simp (maxDischargeDepth := 6); done)
    | (simp (maxDischargeDepth := 6) +zetaDelta; done)
    | with_reducible refine Eq.trans (by assumption) ?_
    | intro _
    | split
    | simp (maxDischargeDepth := 6) only [kept_ite, kept_ite_snd, kept_ite_fst, kept_ite_snd2, kept_ite_snd3]
    | with_reducible refine (kept_foldl _ ?_ _ _).trans ?_
    | with_reducible refine (kept_foldl_snd _ ?_ _ _).trans ?_
    | with_reducible refine (kept_foldl_fst _ ?_ _ _).trans ?_
    | with_reducible refine (kept_foldl_snd2 _ ?_ _ _).trans ?_
    | with_reducible refine (kept_snd (by assumption)).trans ?_
    | with_reducible refine (kept_snd2 (by assumption)).trans ?_
    | with_reducible refine (kept_snd3 (by assumption)).trans ?_
    | with_reducible refine (kept_fst (by assumption)).trans ?_
    | with_reducible refine kept_of_some (by assumption) ?_
    | simp (maxDischargeDepth := 6)
    | dsimp only
    | simp (maxDischargeDepth := 6) +zetaDelta

theorem execCommandFetch_kept (slice : ℕ) (queue : ℕ) (words : Option (List (BitVec 64))) (s : State) {t : State}
    (h : execCommandFetch slice queue words s = .next t) : t.kept = s.kept := by
  unfold execCommandFetch at h
  injection h with h
  subst h
  repeat' first
    | (simp (maxDischargeDepth := 6); done)
    | (simp (maxDischargeDepth := 6) +zetaDelta; done)
    | with_reducible refine Eq.trans (by assumption) ?_
    | intro _
    | split
    | simp (maxDischargeDepth := 6) only [kept_ite, kept_ite_snd, kept_ite_fst, kept_ite_snd2, kept_ite_snd3]
    | with_reducible refine (kept_foldl _ ?_ _ _).trans ?_
    | with_reducible refine (kept_foldl_snd _ ?_ _ _).trans ?_
    | with_reducible refine (kept_foldl_fst _ ?_ _ _).trans ?_
    | with_reducible refine (kept_foldl_snd2 _ ?_ _ _).trans ?_
    | with_reducible refine (kept_snd (by assumption)).trans ?_
    | with_reducible refine (kept_snd2 (by assumption)).trans ?_
    | with_reducible refine (kept_snd3 (by assumption)).trans ?_
    | with_reducible refine (kept_fst (by assumption)).trans ?_
    | with_reducible refine kept_of_some (by assumption) ?_
    | simp (maxDischargeDepth := 6)
    | dsimp only
    | simp (maxDischargeDepth := 6) +zetaDelta

@[simp] theorem State.cplWrite_kept (s : State) (i : ℕ) (x : Queue) (b : List Byte) :
    (State.cplWrite s i x b).2.2.kept = s.kept := by
  unfold State.cplWrite
  repeat' first
    | (simp (maxDischargeDepth := 6); done)
    | (simp (maxDischargeDepth := 6) +zetaDelta; done)
    | with_reducible refine Eq.trans (by assumption) ?_
    | intro _
    | split
    | simp (maxDischargeDepth := 6) only [kept_ite, kept_ite_snd, kept_ite_fst, kept_ite_snd2, kept_ite_snd3]
    | with_reducible refine (kept_foldl _ ?_ _ _).trans ?_
    | with_reducible refine (kept_foldl_snd _ ?_ _ _).trans ?_
    | with_reducible refine (kept_foldl_fst _ ?_ _ _).trans ?_
    | with_reducible refine (kept_foldl_snd2 _ ?_ _ _).trans ?_
    | with_reducible refine (kept_snd (by assumption)).trans ?_
    | with_reducible refine (kept_snd2 (by assumption)).trans ?_
    | with_reducible refine (kept_snd3 (by assumption)).trans ?_
    | with_reducible refine (kept_fst (by assumption)).trans ?_
    | with_reducible refine kept_of_some (by assumption) ?_
    | simp (maxDischargeDepth := 6)
    | dsimp only
    | simp (maxDischargeDepth := 6) +zetaDelta

@[simp] theorem State.commitCounts_kept (s : State) (i : ℕ) (q : ℕ) (c : Cmd) :
    (State.commitCounts s i q c).kept = s.kept := by
  unfold State.commitCounts
  simp (maxDischargeDepth := 6)

@[simp] theorem State.committed_kept (s : State) (i : ℕ) (q : ℕ) (c : Cmd) :
    (State.committed s i q c).kept = s.kept := by
  unfold State.committed
  simp (maxDischargeDepth := 6)

end Sys2Proof.Machine
end

