-- ==== Sys2Proof/Laws/KeptDump.lean ====
section
/-! SUPPORT. The operations of Dump keep the queue and the OTP areas. -/

set_option linter.unusedSimpArgs false
set_option linter.unusedTactic false
set_option linter.unreachableTactic false
set_option linter.unusedVariables false

namespace Sys2Proof.Machine
open Sys2Proof

@[simp] theorem State.dumpOpaque_kept (s : State) :
    (State.dumpOpaque s).2.kept = s.kept := by
  unfold State.dumpOpaque
  simp (maxDischargeDepth := 6)

@[simp] theorem State.takeDump_kept (s : State) :
    (State.takeDump s).kept = s.kept := by
  unfold State.takeDump
  simp (maxDischargeDepth := 6)

end Sys2Proof.Machine
end

