-- ==== Sys2Proof/Laws/KeptHost.lean ====
section
/-! SUPPORT. The operations of Host keep the queue and the OTP areas. -/

set_option linter.unusedSimpArgs false
set_option linter.unusedTactic false
set_option linter.unreachableTactic false
set_option linter.unusedVariables false

namespace Sys2Proof.Machine
open Sys2Proof

@[simp] theorem State.wakeCmds_kept (s : State) (i : ℕ) (page : ℕ) (bad : Bool) :
    (State.wakeCmds s i page bad).kept = s.kept := by
  unfold State.wakeCmds
  simp (maxDischargeDepth := 6)

@[simp] theorem State.wakeRings_kept (s : State) (i : ℕ) (page : ℕ) :
    (State.wakeRings s i page).kept = s.kept := by
  unfold State.wakeRings
  simp (maxDischargeDepth := 6)

@[simp] theorem State.wakeNotices_kept (s : State) (i : ℕ) (page : ℕ) (bad : Bool) :
    (State.wakeNotices s i page bad).kept = s.kept := by
  unfold State.wakeNotices
  repeat' first
    | (simp (maxDischargeDepth := 6); done)
    | (simp (maxDischargeDepth := 6) +zetaDelta; done)
    | with_reducible refine Eq.trans (by assumption) ?_
    | intro _
    | split
    | simp (maxDischargeDepth := 6) only [kept_ite, kept_ite_snd, kept_ite_fst, kept_ite_snd2, kept_ite_snd3]
    | with_reducible refine (kept_foldl _ ?_ _ _).trans ?_
    | with_reducible refine (kept_foldl_snd _ ?_ _ _).trans ?_
    | with_reducible refine (kept_foldl_fst _ ?_ _ _).trans ?_
    | with_reducible refine (kept_foldl_snd2 _ ?_ _ _).trans ?_
    | with_reducible refine (kept_snd (by assumption)).trans ?_
    | with_reducible refine (kept_snd2 (by assumption)).trans ?_
    | with_reducible refine (kept_snd3 (by assumption)).trans ?_
    | with_reducible refine (kept_fst (by assumption)).trans ?_
    | with_reducible refine kept_of_some (by assumption) ?_
    | simp (maxDischargeDepth := 6)
    | dsimp only
    | simp (maxDischargeDepth := 6) +zetaDelta

@[simp] theorem State.failParked_kept (s : State) (i : ℕ) (page : ℕ) :
    (State.failParked s i page).kept = s.kept := by
  unfold State.failParked
  simp (maxDischargeDepth := 6)

@[simp] theorem State.settlePage_kept (s : State) (p : BitVec 20) (page : ℕ) (bad : Bool) :
    (State.settlePage s p page bad).kept = s.kept := by
  unfold State.settlePage
  simp (maxDischargeDepth := 6)

@[simp] theorem State.wakeStarved_kept (s : State) :
    (State.wakeStarved s).kept = s.kept := by
  unfold State.wakeStarved
  simp (maxDischargeDepth := 6)

@[simp] theorem State.fillXlat_kept (s : State) (x : Xlat) :
    (State.fillXlat s x).kept = s.kept := by
  unfold State.fillXlat
  repeat' first
    | (simp (maxDischargeDepth := 6); done)
    | split
    | simp (maxDischargeDepth := 6)

@[simp] theorem State.askPage_kept (s : State) (p : BitVec 20) (page : ℕ) (write : Bool) :
    (State.askPage s p page write).kept = s.kept := by
  unfold State.askPage
  repeat' first
    | (simp (maxDischargeDepth := 6); done)
    | split
    | simp (maxDischargeDepth := 6)

theorem execTranslationCompletion_kept (pasid : BitVec 20) (page : ℕ) (c : XlatCpl) (s : State) {t : State}
    (h : execTranslationCompletion pasid page c s = .next t) : t.kept = s.kept := by
  unfold execTranslationCompletion at h
  injection h with h
  subst h
  repeat' first
    | (simp (maxDischargeDepth := 6); done)
    | split
    | simp (maxDischargeDepth := 6)

theorem execTranslationTimeout_kept (pasid : BitVec 20) (page : ℕ) (s : State) {t : State}
    (h : execTranslationTimeout pasid page s = .next t) : t.kept = s.kept := by
  unfold execTranslationTimeout at h
  injection h with h
  subst h
  simp (maxDischargeDepth := 6)

@[simp] theorem State.failGroup_kept (s : State) (x : PageGroup) :
    (State.failGroup s x).kept = s.kept := by
  unfold State.failGroup
  simp (maxDischargeDepth := 6)

theorem execPageResponse_kept (pasid : BitVec 20) (group : ℕ) (code : ℕ) (s : State) {t : State}
    (h : execPageResponse pasid group code s = .next t) : t.kept = s.kept := by
  unfold execPageResponse at h
  injection h with h
  subst h
  repeat' first
    | (simp (maxDischargeDepth := 6); done)
    | split
    | simp (maxDischargeDepth := 6)

theorem execPrqTimeout_kept (pasid : BitVec 20) (group : ℕ) (s : State) {t : State}
    (h : execPrqTimeout pasid group s = .next t) : t.kept = s.kept := by
  unfold execPrqTimeout at h
  injection h with h
  subst h
  repeat' first
    | (simp (maxDischargeDepth := 6); done)
    | split
    | simp (maxDischargeDepth := 6)

theorem execStkXlatCtlWrite_kept (r : Req) (v : BitVec 32) (s : State) {t : State}
    (h : execStkXlatCtlWrite r v s = .next t) : t.kept = s.kept := by
  unfold execStkXlatCtlWrite at h
  injection h with h
  subst h
  simp (maxDischargeDepth := 6)

@[simp] theorem State.settleInvals_kept (s : State) :
    (State.settleInvals s).kept = s.kept := by
  unfold State.settleInvals
  simp (maxDischargeDepth := 6)

@[simp] theorem State.drainXfers_kept (s : State) (ids : List ℕ) :
    (State.drainXfers s ids).kept = s.kept := by
  unfold State.drainXfers
  simp (maxDischargeDepth := 6)

theorem execAtsInvalidation_kept (itag : ℕ) (pasid : BitVec 20) (global : Bool) (addr : ℕ) (size : ℕ) (s : State) {t : State}
    (h : execAtsInvalidation itag pasid global addr size s = .next t) : t.kept = s.kept := by
  unfold execAtsInvalidation at h
  injection h with h
  subst h
  simp (maxDischargeDepth := 6)

@[simp] theorem State.abandonXfer_kept (s : State) (id : ℕ) :
    (State.abandonXfer s id).kept = s.kept := by
  unfold State.abandonXfer
  repeat' first
    | (simp (maxDischargeDepth := 6); done)
    | split
    | simp (maxDischargeDepth := 6)

theorem execInvalidationTimeout_kept (itag : ℕ) (s : State) {t : State}
    (h : execInvalidationTimeout itag s = .next t) : t.kept = s.kept := by
  unfold execInvalidationTimeout at h
  injection h with h
  subst h
  repeat' first
    | (simp (maxDischargeDepth := 6); done)
    | split
    | simp (maxDischargeDepth := 6)

theorem execHostTransferCompletion_kept (id : ℕ) (data : List Byte) (ok : Bool) (s : State) {t : State}
    (h : execHostTransferCompletion id data ok s = .next t) : t.kept = s.kept := by
  unfold execHostTransferCompletion at h
  injection h with h
  subst h
  repeat' first
    | (simp (maxDischargeDepth := 6); done)
    | split
    | simp (maxDischargeDepth := 6)

@[simp] theorem State.atsOff_kept (s : State) :
    (State.atsOff s).kept = s.kept := by
  unfold State.atsOff
  simp (maxDischargeDepth := 6)

theorem execHostConfigWrite_kept (c : HostCfg) (s : State) {t : State}
    (h : execHostConfigWrite c s = .next t) : t.kept = s.kept := by
  unfold execHostConfigWrite at h
  injection h with h
  subst h
  repeat' first
    | (simp (maxDischargeDepth := 6); done)
    | split
    | simp (maxDischargeDepth := 6)

@[simp] theorem State.tdiLeave_kept (s : State) (i : ℕ) (st : TdiState) :
    (State.tdiLeave s i st).kept = s.kept := by
  unfold State.tdiLeave
  simp (maxDischargeDepth := 6)

@[simp] theorem State.ideDrop_kept (s : State) (stream : ℕ) :
    (State.ideDrop s stream).kept = s.kept := by
  unfold State.ideDrop
  simp (maxDischargeDepth := 6)

theorem execIdeStreamInsecure_kept (stream : ℕ) (s : State) {t : State}
    (h : execIdeStreamInsecure stream s = .next t) : t.kept = s.kept := by
  unfold execIdeStreamInsecure at h
  injection h with h
  subst h
  simp (maxDischargeDepth := 6)

theorem execIdeKmMessage_kept (m : Mgmt) (k : IdeKm) (s : State) {t : State}
    (h : execIdeKmMessage m k s = .next t) : t.kept = s.kept := by
  unfold execIdeKmMessage at h
  injection h with h
  subst h
  repeat' first
    | (simp (maxDischargeDepth := 6); done)
    | split
    | simp (maxDischargeDepth := 6)

@[simp] theorem State.tdError_kept (s : State) (e : ℕ) :
    (State.tdError s e).kept = s.kept := by
  unfold State.tdError
  simp (maxDischargeDepth := 6)

@[simp] theorem State.tdMsg_kept (s : State) (m : Mgmt) (slice : ℕ) (f : State → State) (hf : ∀ a0, (f a0).kept = a0.kept) :
    (State.tdMsg s m slice f).kept = s.kept := by
  unfold State.tdMsg
  repeat' first
    | (simp (maxDischargeDepth := 6) [hf]; done)
    | (simp (maxDischargeDepth := 6) +zetaDelta [hf]; done)
    | with_reducible refine Eq.trans (by assumption) ?_
    | intro _
    | split
    | simp (maxDischargeDepth := 6) only [kept_ite, kept_ite_snd, kept_ite_fst, kept_ite_snd2, kept_ite_snd3]
    | with_reducible refine (kept_foldl _ ?_ _ _).trans ?_
    | with_reducible refine (kept_foldl_snd _ ?_ _ _).trans ?_
    | with_reducible refine (kept_foldl_fst _ ?_ _ _).trans ?_
    | with_reducible refine (kept_foldl_snd2 _ ?_ _ _).trans ?_
    | with_reducible refine (hf _).trans ?_
    | with_reducible refine (kept_snd (by assumption)).trans ?_
    | with_reducible refine (kept_snd2 (by assumption)).trans ?_
    | with_reducible refine (kept_snd3 (by assumption)).trans ?_
    | with_reducible refine (kept_fst (by assumption)).trans ?_
    | with_reducible refine kept_of_some (by assumption) ?_
    | simp (maxDischargeDepth := 6) [hf]
    | dsimp only
    | simp (maxDischargeDepth := 6) +zetaDelta [hf]

theorem execLockInterfaceRequest_kept (m : Mgmt) (slice : ℕ) (stream : ℕ) (rid : ℕ) (flags : BitVec 16) (s : State) {t : State}
    (h : execLockInterfaceRequest m slice stream rid flags s = .next t) : t.kept = s.kept := by
  unfold execLockInterfaceRequest at h
  injection h with h
  subst h
  simp (maxDischargeDepth := 6)

theorem execStartInterfaceRequest_kept (m : Mgmt) (slice : ℕ) (nonce : BitVec 256) (s : State) {t : State}
    (h : execStartInterfaceRequest m slice nonce s = .next t) : t.kept = s.kept := by
  unfold execStartInterfaceRequest at h
  injection h with h
  subst h
  simp (maxDischargeDepth := 6)

theorem execStopInterfaceRequest_kept (m : Mgmt) (slice : ℕ) (s : State) {t : State}
    (h : execStopInterfaceRequest m slice s = .next t) : t.kept = s.kept := by
  unfold execStopInterfaceRequest at h
  injection h with h
  subst h
  simp (maxDischargeDepth := 6)

theorem execGetDeviceInterfaceReport_kept (m : Mgmt) (slice : ℕ) (s : State) {t : State}
    (h : execGetDeviceInterfaceReport m slice s = .next t) : t.kept = s.kept := by
  unfold execGetDeviceInterfaceReport at h
  injection h with h
  subst h
  simp (maxDischargeDepth := 6)

theorem execGetDeviceInterfaceState_kept (m : Mgmt) (slice : ℕ) (s : State) {t : State}
    (h : execGetDeviceInterfaceState m slice s = .next t) : t.kept = s.kept := by
  unfold execGetDeviceInterfaceState at h
  injection h with h
  subst h
  simp (maxDischargeDepth := 6)

theorem execGetTdispVersion_kept (m : Mgmt) (s : State) {t : State}
    (h : execGetTdispVersion m s = .next t) : t.kept = s.kept := by
  unfold execGetTdispVersion at h
  injection h with h
  subst h
  simp (maxDischargeDepth := 6)

theorem execGetTdispCapabilities_kept (m : Mgmt) (s : State) {t : State}
    (h : execGetTdispCapabilities m s = .next t) : t.kept = s.kept := by
  unfold execGetTdispCapabilities at h
  injection h with h
  subst h
  simp (maxDischargeDepth := 6)

theorem execFunctionLevelReset_kept (s : State) {t : State}
    (h : execFunctionLevelReset s = .next t) : t.kept = s.kept := by
  unfold execFunctionLevelReset at h
  injection h with h
  subst h
  simp (maxDischargeDepth := 6)

theorem execMctpControlMessage_kept (command : BitVec 8) (body : List Byte) (s : State) {t : State}
    (h : execMctpControlMessage command body s = .next t) : t.kept = s.kept := by
  unfold execMctpControlMessage at h
  injection h with h
  subst h
  repeat' first
    | (simp (maxDischargeDepth := 6); done)
    | split
    | simp (maxDischargeDepth := 6)

end Sys2Proof.Machine
end

