-- ==== Sys2Proof/Laws/KeptSite.lean ====
section
/-! SUPPORT. The operations of Site keep the queue and the OTP areas. -/

set_option linter.unusedSimpArgs false
set_option linter.unusedTactic false
set_option linter.unreachableTactic false
set_option linter.unusedVariables false

namespace Sys2Proof.Machine
open Sys2Proof

@[simp] theorem State.siteRecord_kept (s : State) (n : ℕ) :
    (State.siteRecord s n).kept = s.kept := by
  unfold State.siteRecord
  simp (maxDischargeDepth := 6)

@[simp] theorem State.siteSend_kept (s : State) (n : ℕ) :
    (State.siteSend s n).kept = s.kept := by
  unfold State.siteSend
  simp (maxDischargeDepth := 6)

@[simp] theorem State.startAdmission_kept (s : State) (n : ℕ) :
    (State.startAdmission s n).kept = s.kept := by
  unfold State.startAdmission
  simp (maxDischargeDepth := 6)

@[simp] theorem State.siteFail_kept (s : State) (n : ℕ) (cause : ℕ) :
    (State.siteFail s n cause).kept = s.kept := by
  unfold State.siteFail
  simp (maxDischargeDepth := 6)

@[simp] theorem State.sitePass_kept (s : State) (n : ℕ) (digest : BitVec 384) :
    (State.sitePass s n digest).kept = s.kept := by
  unfold State.sitePass
  simp (maxDischargeDepth := 6)

@[simp] theorem State.siteNext_kept (s : State) (n : ℕ) :
    (State.siteNext s n).kept = s.kept := by
  unfold State.siteNext
  simp (maxDischargeDepth := 6)

theorem execSiteLinkActive_kept (site : ℕ) (s : State) {t : State}
    (h : execSiteLinkActive site s = .next t) : t.kept = s.kept := by
  unfold execSiteLinkActive at h
  injection h with h
  subst h
  simp (maxDischargeDepth := 6)

theorem execSiteSpdmResponse_kept (site : ℕ) (rsp : SiteRsp) (s : State) {t : State}
    (h : execSiteSpdmResponse site rsp s = .next t) : t.kept = s.kept := by
  unfold execSiteSpdmResponse at h
  injection h with h
  subst h
  repeat' first
    | (simp (maxDischargeDepth := 6); done)
    | split
    | simp (maxDischargeDepth := 6)

theorem execSiteSpdmTimeout_kept (site : ℕ) (s : State) {t : State}
    (h : execSiteSpdmTimeout site s = .next t) : t.kept = s.kept := by
  unfold execSiteSpdmTimeout at h
  injection h with h
  subst h
  simp (maxDischargeDepth := 6)

theorem execSiteLinkInactive_kept (site : ℕ) (s : State) {t : State}
    (h : execSiteLinkInactive site s = .next t) : t.kept = s.kept := by
  unfold execSiteLinkInactive at h
  injection h with h
  subst h
  simp (maxDischargeDepth := 6)

@[simp] theorem State.swResult_kept (s : State) (path : Option ℕ) (n : ℕ) :
    (State.swResult s path n).kept = s.kept := by
  unfold State.swResult
  repeat' first
    | (simp (maxDischargeDepth := 6); done)
    | split
    | simp (maxDischargeDepth := 6)

@[simp] theorem State.swCommand_kept (s : State) (r : Req) (path : Option ℕ) (v : BitVec 32) (op : ℕ) (f : Site → State → State) (hf : ∀ a0 a1, (f a0 a1).kept = a1.kept) :
    (State.swCommand s r path v op f).kept = s.kept := by
  unfold State.swCommand
  repeat' first
    | (simp (maxDischargeDepth := 6) [hf]; done)
    | (simp (maxDischargeDepth := 6) +zetaDelta [hf]; done)
    | with_reducible refine Eq.trans (by assumption) ?_
    | intro _
    | split
    | simp (maxDischargeDepth := 6) only [kept_ite, kept_ite_snd, kept_ite_fst, kept_ite_snd2, kept_ite_snd3]
    | with_reducible refine (kept_foldl _ ?_ _ _).trans ?_
    | with_reducible refine (kept_foldl_snd _ ?_ _ _).trans ?_
    | with_reducible refine (kept_foldl_fst _ ?_ _ _).trans ?_
    | with_reducible refine (kept_foldl_snd2 _ ?_ _ _).trans ?_
    | with_reducible refine (State.regWrite_kept _ _ _ _ _ _ ?_).trans ?_
    | with_reducible refine (hf _ _).trans ?_
    | with_reducible refine (kept_snd (by assumption)).trans ?_
    | with_reducible refine (kept_snd2 (by assumption)).trans ?_
    | with_reducible refine (kept_snd3 (by assumption)).trans ?_
    | with_reducible refine (kept_fst (by assumption)).trans ?_
    | with_reducible refine kept_of_some (by assumption) ?_
    | simp (maxDischargeDepth := 6) [hf]
    | dsimp only
    | simp (maxDischargeDepth := 6) +zetaDelta [hf]

theorem execSiteWindowSet_kept (r : Req) (path : Option ℕ) (v : BitVec 32) (s : State) {t : State}
    (h : execSiteWindowSet r path v s = .next t) : t.kept = s.kept := by
  unfold execSiteWindowSet at h
  injection h with h
  subst h
  simp (maxDischargeDepth := 6)

theorem execSiteWindowClear_kept (r : Req) (path : Option ℕ) (v : BitVec 32) (s : State) {t : State}
    (h : execSiteWindowClear r path v s = .next t) : t.kept = s.kept := by
  unfold execSiteWindowClear at h
  injection h with h
  subst h
  simp (maxDischargeDepth := 6)

theorem execSiteWindowClearKid_kept (r : Req) (path : Option ℕ) (v : BitVec 32) (s : State) {t : State}
    (h : execSiteWindowClearKid r path v s = .next t) : t.kept = s.kept := by
  unfold execSiteWindowClearKid at h
  injection h with h
  subst h
  simp (maxDischargeDepth := 6)

theorem execReadmit_kept (r : Req) (path : Option ℕ) (v : BitVec 32) (s : State) {t : State}
    (h : execReadmit r path v s = .next t) : t.kept = s.kept := by
  unfold execReadmit at h
  injection h with h
  subst h
  simp (maxDischargeDepth := 6)

end Sys2Proof.Machine
end

