-- ==== Sys2Proof/Laws/KeptBridge.lean ====
section
/-! SUPPORT. The operations of Bridge keep the queue and the OTP areas. -/

set_option linter.unusedSimpArgs false
set_option linter.unusedTactic false
set_option linter.unreachableTactic false
set_option linter.unusedVariables false

namespace Sys2Proof.Machine
open Sys2Proof

theorem execBridgeHeartbeatSend_kept (s : State) {t : State}
    (h : execBridgeHeartbeatSend s = .next t) : t.kept = s.kept := by
  unfold execBridgeHeartbeatSend at h
  injection h with h
  subst h
  simp (maxDischargeDepth := 6)

@[simp] theorem State.openElection_kept (s : State) :
    (State.openElection s).kept = s.kept := by
  unfold State.openElection
  simp (maxDischargeDepth := 6)

@[simp] theorem State.heardPos_kept (s : State) (h : ℕ) :
    (State.heardPos s h).kept = s.kept := by
  unfold State.heardPos
  simp (maxDischargeDepth := 6)

@[simp] theorem State.readmitDie_kept (s : State) (h : ℕ) :
    (State.readmitDie s h).kept = s.kept := by
  unfold State.readmitDie
  simp (maxDischargeDepth := 6)

theorem execBridgeHelloReceive_kept (h : Hello) (s : State) {t : State}
    (h : execBridgeHelloReceive h s = .next t) : t.kept = s.kept := by
  unfold execBridgeHelloReceive at h
  injection h with h
  subst h
  repeat' first
    | (simp (maxDischargeDepth := 6); done)
    | split
    | simp (maxDischargeDepth := 6)

theorem execElectionClose_kept (s : State) {t : State}
    (h : execElectionClose s = .next t) : t.kept = s.kept := by
  unfold execElectionClose at h
  injection h with h
  subst h
  simp (maxDischargeDepth := 6)

@[simp] theorem State.dropStatement_kept (s : State) (h : ℕ) :
    (State.dropStatement s h).kept = s.kept := by
  unfold State.dropStatement
  simp (maxDischargeDepth := 6)

theorem execBridgePeerLost_kept (pos : ℕ) (s : State) {t : State}
    (h : execBridgePeerLost pos s = .next t) : t.kept = s.kept := by
  unfold execBridgePeerLost at h
  injection h with h
  subst h
  simp (maxDischargeDepth := 6)

@[simp] theorem State.confirmTo_kept (s : State) (h : ℕ) (slot : ℕ) (ok : Bool) :
    (State.confirmTo s h slot ok).kept = s.kept := by
  unfold State.confirmTo
  simp (maxDischargeDepth := 6)

@[simp] theorem State.memberDoes_kept (s : State) (msg : BrCtl) :
    (State.memberDoes s msg).kept = s.kept := by
  unfold State.memberDoes
  repeat' first
    | (simp (maxDischargeDepth := 6); done)
    | split
    | simp (maxDischargeDepth := 6)

theorem execBrCtlReceive_kept (msg : BrCtl) (s : State) {t : State}
    (h : execBrCtlReceive msg s = .next t) : t.kept = s.kept := by
  unfold execBrCtlReceive at h
  injection h with h
  subst h
  repeat' first
    | (simp (maxDischargeDepth := 6); done)
    | split
    | simp (maxDischargeDepth := 6)

@[simp] theorem State.writeMrdata_kept (s : State) (r : Req) (v : BitVec 64) :
    (State.writeMrdata s r v).kept = s.kept := by
  unfold State.writeMrdata
  simp (maxDischargeDepth := 6)

theorem execFabMrdataWrite_kept (r : Req) (v : BitVec 64) (s : State) {t : State}
    (h : execFabMrdataWrite r v s = .next t) : t.kept = s.kept := by
  unfold execFabMrdataWrite at h
  injection h with h
  subst h
  simp (maxDischargeDepth := 6)

end Sys2Proof.Machine
end

