-- ==== Sys2Proof/Laws/KeptResetOps.lean ====
section
/-! SUPPORT. The operations of ResetOps keep the queue and the OTP areas. -/

set_option linter.unusedSimpArgs false
set_option linter.unusedTactic false
set_option linter.unreachableTactic false
set_option linter.unusedVariables false

namespace Sys2Proof.Machine
open Sys2Proof

@[simp] theorem State.answerDead_kept (s : State) :
    (State.answerDead s).kept = s.kept := by
  unfold State.answerDead
  simp (maxDischargeDepth := 6)

@[simp] theorem State.clearSys_kept (s : State) (l : Level) :
    (State.clearSys s l).kept = s.kept := by
  unfold State.clearSys
  simp (maxDischargeDepth := 6)

@[simp] theorem State.clearDom_kept (s : State) (l : Level) :
    (State.clearDom s l).kept = s.kept := by
  unfold State.clearDom
  simp (maxDischargeDepth := 6)

@[simp] theorem State.clearFbx_kept (s : State) (l : Level) :
    (State.clearFbx s l).kept = s.kept := by
  unfold State.clearFbx
  simp (maxDischargeDepth := 6)

@[simp] theorem State.clearQm_kept (s : State) (l : Level) :
    (State.clearQm s l).kept = s.kept := by
  unfold State.clearQm
  simp (maxDischargeDepth := 6)

@[simp] theorem State.clearMsl_kept (s : State) (l : Level) :
    (State.clearMsl s l).kept = s.kept := by
  unfold State.clearMsl
  simp (maxDischargeDepth := 6)

@[simp] theorem State.clearHth_kept (s : State) (l : Level) :
    (State.clearHth s l).kept = s.kept := by
  unfold State.clearHth
  simp (maxDischargeDepth := 6)

@[simp] theorem State.clearLnk_kept (s : State) (l : Level) :
    (State.clearLnk s l).kept = s.kept := by
  unfold State.clearLnk
  simp (maxDischargeDepth := 6)

@[simp] theorem State.clearFab_kept (s : State) (l : Level) :
    (State.clearFab s l).kept = s.kept := by
  unfold State.clearFab
  simp (maxDischargeDepth := 6)

@[simp] theorem State.clearCol_kept (s : State) (l : Level) :
    (State.clearCol s l).kept = s.kept := by
  unfold State.clearCol
  simp (maxDischargeDepth := 6)

@[simp] theorem State.clearSyn_kept (s : State) (l : Level) :
    (State.clearSyn s l).kept = s.kept := by
  unfold State.clearSyn
  simp (maxDischargeDepth := 6)

@[simp] theorem State.clearHst_kept (s : State) (l : Level) :
    (State.clearHst s l).kept = s.kept := by
  unfold State.clearHst
  simp (maxDischargeDepth := 6)

@[simp] theorem State.clearTel_kept (s : State) :
    (State.clearTel s).kept = s.kept := by
  unfold State.clearTel
  simp (maxDischargeDepth := 6)

@[simp] theorem State.clearRcd_kept (s : State) (l : Level) :
    (State.clearRcd s l).kept = s.kept := by
  unfold State.clearRcd
  repeat' first
    | (simp (maxDischargeDepth := 6); done)
    | split
    | simp (maxDischargeDepth := 6)

@[simp] theorem State.clearLc_kept (s : State) :
    (State.clearLc s).kept = s.kept := by
  unfold State.clearLc
  simp (maxDischargeDepth := 6)

@[simp] theorem State.clearPwr_kept (s : State) (l : Level) :
    (State.clearPwr s l).kept = s.kept := by
  unfold State.clearPwr
  simp (maxDischargeDepth := 6)

@[simp] theorem State.clearBoot_kept (s : State) (l : Level) :
    (State.clearBoot s l).kept = s.kept := by
  unfold State.clearBoot
  simp (maxDischargeDepth := 6)

@[simp] theorem State.clearRst_kept (s : State) (l : Level) :
    (State.clearRst s l).kept = s.kept := by
  unfold State.clearRst
  simp (maxDischargeDepth := 6)

@[simp] theorem State.assertLevel_kept (s : State) :
    (State.assertLevel s).kept = s.kept := by
  unfold State.assertLevel
  simp (maxDischargeDepth := 6)

@[simp] theorem State.abandonRecords_kept (s : State) :
    (State.abandonRecords s).kept = s.kept := by
  unfold State.abandonRecords
  repeat' first
    | (simp (maxDischargeDepth := 6); done)
    | (simp (maxDischargeDepth := 6) +zetaDelta; done)
    | with_reducible refine Eq.trans (by assumption) ?_
    | intro _
    | split
    | with_reducible refine (kept_foldl _ ?_ _ _).trans ?_
    | simp (maxDischargeDepth := 6)

@[simp] theorem State.tryCommit_kept (s : State) (slice : ℕ) (queue : ℕ) :
    (State.tryCommit s slice queue).kept = s.kept := by
  unfold State.tryCommit
  repeat' first
    | (simp (maxDischargeDepth := 6); done)
    | (simp (maxDischargeDepth := 6) +zetaDelta; done)
    | with_reducible refine Eq.trans (by assumption) ?_
    | intro _
    | split
    | simp (maxDischargeDepth := 6) only [kept_ite, kept_ite_snd, kept_ite_fst, kept_ite_snd2, kept_ite_snd3]
    | with_reducible refine (kept_foldl _ ?_ _ _).trans ?_
    | with_reducible refine (kept_foldl_snd _ ?_ _ _).trans ?_
    | with_reducible refine (kept_foldl_fst _ ?_ _ _).trans ?_
    | with_reducible refine (kept_foldl_snd2 _ ?_ _ _).trans ?_
    | with_reducible refine (kept_snd (by assumption)).trans ?_
    | with_reducible refine (kept_snd2 (by assumption)).trans ?_
    | with_reducible refine (kept_snd3 (by assumption)).trans ?_
    | with_reducible refine (kept_fst (by assumption)).trans ?_
    | with_reducible refine kept_of_some (by assumption) ?_
    | simp (maxDischargeDepth := 6)
    | dsimp only
    | simp (maxDischargeDepth := 6) +zetaDelta

@[simp] theorem State.commitQueue_kept (s : State) (i : ℕ) (q : ℕ) :
    (State.commitQueue s i q).kept = s.kept := by
  unfold State.commitQueue
  simp (maxDischargeDepth := 6)

@[simp] theorem State.fenceQueues_kept (s : State) :
    (State.fenceQueues s).kept = s.kept := by
  unfold State.fenceQueues
  simp (maxDischargeDepth := 6)

@[simp] theorem State.drainHbm_kept (a : ℕ) (a1 : State) :
    (State.drainHbm a a1).kept = a1.kept := by
  fun_induction State.drainHbm a a1 <;> first
    | rfl
    | (simp (maxDischargeDepth := 6); done)
    | (repeat' first
        | (simp (maxDischargeDepth := 6); done)
        | (simp (maxDischargeDepth := 6) +zetaDelta; done)
        | with_reducible refine Eq.trans (by assumption) ?_
        | intro _
        | split
        | simp (maxDischargeDepth := 6) only [kept_ite, kept_ite_snd, kept_ite_fst, kept_ite_snd2, kept_ite_snd3]
        | with_reducible refine (kept_foldl _ ?_ _ _).trans ?_
        | with_reducible refine (kept_foldl_snd _ ?_ _ _).trans ?_
        | with_reducible refine (kept_foldl_fst _ ?_ _ _).trans ?_
        | with_reducible refine (kept_foldl_snd2 _ ?_ _ _).trans ?_
        | with_reducible refine (kept_snd (by assumption)).trans ?_
        | with_reducible refine (kept_snd2 (by assumption)).trans ?_
        | with_reducible refine (kept_snd3 (by assumption)).trans ?_
        | with_reducible refine (kept_fst (by assumption)).trans ?_
        | with_reducible refine kept_of_some (by assumption) ?_
        | simp (maxDischargeDepth := 6)
        | dsimp only
        | simp (maxDischargeDepth := 6) +zetaDelta)

@[simp] theorem State.drainHearth_kept (a : ℕ) (a1 : State) :
    (State.drainHearth a a1).kept = a1.kept := by
  fun_induction State.drainHearth a a1 <;> first
    | rfl
    | (simp (maxDischargeDepth := 6); done)
    | (repeat' first
        | (simp (maxDischargeDepth := 6); done)
        | (simp (maxDischargeDepth := 6) +zetaDelta; done)
        | with_reducible refine Eq.trans (by assumption) ?_
        | intro _
        | split
        | simp (maxDischargeDepth := 6) only [kept_ite, kept_ite_snd, kept_ite_fst, kept_ite_snd2, kept_ite_snd3]
        | with_reducible refine (kept_foldl _ ?_ _ _).trans ?_
        | with_reducible refine (kept_foldl_snd _ ?_ _ _).trans ?_
        | with_reducible refine (kept_foldl_fst _ ?_ _ _).trans ?_
        | with_reducible refine (kept_foldl_snd2 _ ?_ _ _).trans ?_
        | with_reducible refine (kept_snd (by assumption)).trans ?_
        | with_reducible refine (kept_snd2 (by assumption)).trans ?_
        | with_reducible refine (kept_snd3 (by assumption)).trans ?_
        | with_reducible refine (kept_fst (by assumption)).trans ?_
        | with_reducible refine kept_of_some (by assumption) ?_
        | simp (maxDischargeDepth := 6)
        | dsimp only
        | simp (maxDischargeDepth := 6) +zetaDelta)

@[simp] theorem State.fenceEnd_kept (s : State) :
    (State.fenceEnd s).kept = s.kept := by
  unfold State.fenceEnd
  simp (maxDischargeDepth := 6)

@[simp] theorem State.fenceMemory_kept (s : State) :
    (State.fenceMemory s).kept = s.kept := by
  unfold State.fenceMemory
  simp (maxDischargeDepth := 6)

@[simp] theorem State.fenceAdvance_kept (s : State) :
    (State.fenceAdvance s).kept = s.kept := by
  unfold State.fenceAdvance
  simp (maxDischargeDepth := 6)

@[simp] theorem State.fenceBegin_kept (s : State) :
    (State.fenceBegin s).kept = s.kept := by
  unfold State.fenceBegin
  simp (maxDischargeDepth := 6)

@[simp] theorem State.noteSource_kept (s : State) (src : Source) :
    (State.noteSource s src).kept = s.kept := by
  unfold State.noteSource
  simp (maxDischargeDepth := 6)

@[simp] theorem State.runReset_kept (s : State) (src : Source) (l : Level) (dump : Bool) :
    (State.runReset s src l dump).kept = s.kept := by
  unfold State.runReset
  simp (maxDischargeDepth := 6)

@[simp] theorem State.beginReset_kept (s : State) (src : Source) (l : Level) (dump : Bool) :
    (State.beginReset s src l dump).kept = s.kept := by
  unfold State.beginReset
  simp (maxDischargeDepth := 6)

end Sys2Proof.Machine
end

