-- ==== Sys2Proof/Laws/KeptAdvance.lean ====
section
/-! SUPPORT. The operations of Advance keep the queue and the OTP areas. -/

set_option linter.unusedSimpArgs false
set_option linter.unusedTactic false
set_option linter.unreachableTactic false
set_option linter.unusedVariables false

namespace Sys2Proof.Machine
open Sys2Proof

theorem execCommandCommit_kept (slice : ℕ) (queue : ℕ) (s : State) {t : State}
    (h : execCommandCommit slice queue s = .next t) : t.kept = s.kept := by
  unfold execCommandCommit at h
  injection h with h
  subst h
  simp (maxDischargeDepth := 6)

@[simp] theorem State.backingReencrypt_kept (s : State) (p : ℕ) :
    (State.backingReencrypt s p).kept = s.kept := by
  unfold State.backingReencrypt
  repeat' first
    | (simp (maxDischargeDepth := 6); done)
    | (simp (maxDischargeDepth := 6) +zetaDelta; done)
    | with_reducible refine Eq.trans (by assumption) ?_
    | intro _
    | split
    | simp (maxDischargeDepth := 6) only [kept_ite, kept_ite_snd, kept_ite_fst, kept_ite_snd2, kept_ite_snd3]
    | with_reducible refine (kept_foldl _ ?_ _ _).trans ?_
    | with_reducible refine (kept_foldl_snd _ ?_ _ _).trans ?_
    | with_reducible refine (kept_foldl_fst _ ?_ _ _).trans ?_
    | with_reducible refine (kept_foldl_snd2 _ ?_ _ _).trans ?_
    | with_reducible refine (kept_snd (by assumption)).trans ?_
    | with_reducible refine (kept_snd2 (by assumption)).trans ?_
    | with_reducible refine (kept_snd3 (by assumption)).trans ?_
    | with_reducible refine (kept_fst (by assumption)).trans ?_
    | with_reducible refine kept_of_some (by assumption) ?_
    | simp (maxDischargeDepth := 6)
    | dsimp only
    | simp (maxDischargeDepth := 6) +zetaDelta

theorem execPageReencrypt_kept (region : ℕ) (page : ℕ) (s : State) {t : State}
    (h : execPageReencrypt region page s = .next t) : t.kept = s.kept := by
  unfold execPageReencrypt at h
  injection h with h
  subst h
  simp (maxDischargeDepth := 6)

end Sys2Proof.Machine
end

