-- ==== Sys2Proof/Laws/KeptDeadlock.lean ====
section
/-! SUPPORT. The operations of Deadlock keep the queue and the OTP areas. -/

set_option linter.unusedSimpArgs false
set_option linter.unusedTactic false
set_option linter.unreachableTactic false
set_option linter.unusedVariables false

namespace Sys2Proof.Machine
open Sys2Proof

@[simp] theorem State.reportCycle_kept (s : State) (c : List Wait) (broken : Bool) :
    (State.reportCycle s c broken).kept = s.kept := by
  unfold State.reportCycle
  repeat' first
    | (simp (maxDischargeDepth := 6); done)
    | split
    | simp (maxDischargeDepth := 6)

@[simp] theorem State.endVictim_kept (s : State) (v : Wait) :
    (State.endVictim s v).kept = s.kept := by
  unfold State.endVictim
  repeat' first
    | (simp (maxDischargeDepth := 6); done)
    | split
    | simp (maxDischargeDepth := 6)

@[simp] theorem State.settleCycle_kept (s : State) (c : List Wait) :
    (State.settleCycle s c).kept = s.kept := by
  unfold State.settleCycle
  repeat' first
    | (simp (maxDischargeDepth := 6); done)
    | split
    | simp (maxDischargeDepth := 6)

theorem execDeadlockScan_kept (s : State) {t : State}
    (h : execDeadlockScan s = .next t) : t.kept = s.kept := by
  unfold execDeadlockScan at h
  injection h with h
  subst h
  simp (maxDischargeDepth := 6)

theorem execDeadlockEscalate_kept (s : State) {t : State}
    (h : execDeadlockEscalate s = .next t) : t.kept = s.kept := by
  unfold execDeadlockEscalate at h
  injection h with h
  subst h
  repeat' first
    | (simp (maxDischargeDepth := 6); done)
    | split
    | simp (maxDischargeDepth := 6)

end Sys2Proof.Machine
end

