-- ==== Sys2Proof/Laws/KeptReset.lean ====
section
/-! SUPPORT. The operations of Reset keep the queue and the OTP areas. -/

set_option linter.unusedSimpArgs false
set_option linter.unusedTactic false
set_option linter.unreachableTactic false
set_option linter.unusedVariables false

namespace Sys2Proof.Machine
open Sys2Proof

theorem execPowerOn_kept (present : Bool) (s : State) {t : State}
    (h : execPowerOn present s = .next t) : t.kept = s.kept := by
  unfold execPowerOn at h
  injection h with h
  subst h
  simp (maxDischargeDepth := 6)

theorem execHubRstNLow_kept (ns : ℕ) (s : State) {t : State}
    (h : execHubRstNLow ns s = .next t) : t.kept = s.kept := by
  unfold execHubRstNLow at h
  injection h with h
  subst h
  simp (maxDischargeDepth := 6)

theorem execResetReq_kept (m : Mgmt) (level : ℕ) (dump : Bool) (s : State) {t : State}
    (h : execResetReq m level dump s = .next t) : t.kept = s.kept := by
  unfold execResetReq at h
  injection h with h
  subst h
  repeat' first
    | (simp (maxDischargeDepth := 6); done)
    | split
    | simp (maxDischargeDepth := 6)

theorem execRstReqWrite_kept (r : Req) (v : BitVec 32) (s : State) {t : State}
    (h : execRstReqWrite r v s = .next t) : t.kept = s.kept := by
  unfold execRstReqWrite at h
  injection h with h
  subst h
  repeat' first
    | (simp (maxDischargeDepth := 6); done)
    | split
    | simp (maxDischargeDepth := 6)

theorem execWatchdogExpiry_kept (s : State) {t : State}
    (h : execWatchdogExpiry s = .next t) : t.kept = s.kept := by
  unfold execWatchdogExpiry at h
  injection h with h
  subst h
  simp (maxDischargeDepth := 6)

theorem execSelfRefreshAck_kept (stack : ℕ) (s : State) {t : State}
    (h : execSelfRefreshAck stack s = .next t) : t.kept = s.kept := by
  unfold execSelfRefreshAck at h
  injection h with h
  subst h
  simp (maxDischargeDepth := 6)

@[simp] theorem State.loseUnwritten_kept (s : State) :
    (State.loseUnwritten s).kept = s.kept := by
  unfold State.loseUnwritten
  simp (maxDischargeDepth := 6)

@[simp] theorem State.releaseStacks_kept (s : State) (l : List ℕ) :
    (State.releaseStacks s l).kept = s.kept := by
  unfold State.releaseStacks
  simp (maxDischargeDepth := 6)

theorem execFenceTimeout_kept (s : State) {t : State}
    (h : execFenceTimeout s = .next t) : t.kept = s.kept := by
  unfold execFenceTimeout at h
  injection h with h
  subst h
  simp (maxDischargeDepth := 6)

@[simp] theorem State.sampleFuses_kept (s : State) :
    (State.sampleFuses s).kept = s.kept := by
  unfold State.sampleFuses
  repeat' first
    | (simp (maxDischargeDepth := 6); done)
    | (simp (maxDischargeDepth := 6) +zetaDelta; done)
    | with_reducible refine Eq.trans (by assumption) ?_
    | intro _
    | split
    | simp (maxDischargeDepth := 6) only [kept_ite, kept_ite_snd, kept_ite_fst, kept_ite_snd2, kept_ite_snd3]
    | with_reducible refine (kept_foldl _ ?_ _ _).trans ?_
    | with_reducible refine (kept_foldl_snd _ ?_ _ _).trans ?_
    | with_reducible refine (kept_foldl_fst _ ?_ _ _).trans ?_
    | with_reducible refine (kept_foldl_snd2 _ ?_ _ _).trans ?_
    | with_reducible refine (State.forEach_kept _ _ _ ?_).trans ?_
    | with_reducible refine (kept_snd (by assumption)).trans ?_
    | with_reducible refine (kept_snd2 (by assumption)).trans ?_
    | with_reducible refine (kept_snd3 (by assumption)).trans ?_
    | with_reducible refine (kept_fst (by assumption)).trans ?_
    | with_reducible refine kept_of_some (by assumption) ?_
    | simp (maxDischargeDepth := 6)
    | dsimp only
    | simp (maxDischargeDepth := 6) +zetaDelta

theorem execResetHoldExpiry_kept (hubPos : BitVec 3) (pkgSize : BitVec 2) (s : State) {t : State}
    (h : execResetHoldExpiry hubPos pkgSize s = .next t) : t.kept = s.kept := by
  unfold execResetHoldExpiry at h
  injection h with h
  subst h
  simp (maxDischargeDepth := 6)

@[simp] theorem State.bootRecord_kept (s : State) :
    (State.bootRecord s).kept = s.kept := by
  unfold State.bootRecord
  simp (maxDischargeDepth := 6)

@[simp] theorem State.recoveryAlarm_kept (s : State) (i : ℕ) :
    (State.recoveryAlarm s i).kept = s.kept := by
  unfold State.recoveryAlarm
  repeat' first
    | (simp (maxDischargeDepth := 6); done)
    | (simp (maxDischargeDepth := 6) +zetaDelta; done)
    | with_reducible refine Eq.trans (by assumption) ?_
    | intro _
    | split
    | simp (maxDischargeDepth := 6) only [kept_ite, kept_ite_snd, kept_ite_fst, kept_ite_snd2, kept_ite_snd3]
    | with_reducible refine (kept_foldl _ ?_ _ _).trans ?_
    | with_reducible refine (kept_foldl_snd _ ?_ _ _).trans ?_
    | with_reducible refine (kept_foldl_fst _ ?_ _ _).trans ?_
    | with_reducible refine (kept_foldl_snd2 _ ?_ _ _).trans ?_
    | with_reducible refine (kept_snd (by assumption)).trans ?_
    | with_reducible refine (kept_snd2 (by assumption)).trans ?_
    | with_reducible refine (kept_snd3 (by assumption)).trans ?_
    | with_reducible refine (kept_fst (by assumption)).trans ?_
    | with_reducible refine kept_of_some (by assumption) ?_
    | simp (maxDischargeDepth := 6)
    | dsimp only
    | simp (maxDischargeDepth := 6) +zetaDelta

@[simp] theorem State.recoverSlots_kept (s : State) :
    (State.recoverSlots s).kept = s.kept := by
  unfold State.recoverSlots
  repeat' first
    | (simp (maxDischargeDepth := 6); done)
    | (simp (maxDischargeDepth := 6) +zetaDelta; done)
    | with_reducible refine Eq.trans (by assumption) ?_
    | intro _
    | split
    | simp (maxDischargeDepth := 6) only [kept_ite, kept_ite_snd, kept_ite_fst, kept_ite_snd2, kept_ite_snd3]
    | with_reducible refine (kept_foldl _ ?_ _ _).trans ?_
    | with_reducible refine (kept_foldl_snd _ ?_ _ _).trans ?_
    | with_reducible refine (kept_foldl_fst _ ?_ _ _).trans ?_
    | with_reducible refine (kept_foldl_snd2 _ ?_ _ _).trans ?_
    | with_reducible refine (State.forEach_kept _ _ _ ?_).trans ?_
    | with_reducible refine (kept_snd (by assumption)).trans ?_
    | with_reducible refine (kept_snd2 (by assumption)).trans ?_
    | with_reducible refine (kept_snd3 (by assumption)).trans ?_
    | with_reducible refine (kept_fst (by assumption)).trans ?_
    | with_reducible refine kept_of_some (by assumption) ?_
    | simp (maxDischargeDepth := 6)
    | dsimp only
    | simp (maxDischargeDepth := 6) +zetaDelta

@[simp] theorem State.release2_kept (s : State) :
    (State.release2 s).kept = s.kept := by
  unfold State.release2
  simp (maxDischargeDepth := 6)

@[simp] theorem State.placeBacking_kept (s : State) :
    (State.placeBacking s).kept = s.kept := by
  unfold State.placeBacking
  simp (maxDischargeDepth := 6)

@[simp] theorem State.release3_kept (s : State) :
    (State.release3 s).kept = s.kept := by
  unfold State.release3
  simp (maxDischargeDepth := 6)

@[simp] theorem State.release4_kept (s : State) :
    (State.release4 s).kept = s.kept := by
  unfold State.release4
  simp (maxDischargeDepth := 6)

@[simp] theorem State.release5_kept (s : State) :
    (State.release5 s).kept = s.kept := by
  unfold State.release5
  simp (maxDischargeDepth := 6)

@[simp] theorem State.release6_kept (s : State) :
    (State.release6 s).kept = s.kept := by
  unfold State.release6
  simp (maxDischargeDepth := 6)

@[simp] theorem State.release7_kept (s : State) :
    (State.release7 s).kept = s.kept := by
  unfold State.release7
  simp (maxDischargeDepth := 6)

theorem execResetReleaseStep_kept (s : State) {t : State}
    (h : execResetReleaseStep s = .next t) : t.kept = s.kept := by
  unfold execResetReleaseStep at h
  injection h with h
  subst h
  repeat' first
    | (simp (maxDischargeDepth := 6); done)
    | split
    | simp (maxDischargeDepth := 6)

theorem execRecoveryTimeout_kept (s : State) {t : State}
    (h : execRecoveryTimeout s = .next t) : t.kept = s.kept := by
  unfold execRecoveryTimeout at h
  injection h with h
  subst h
  simp (maxDischargeDepth := 6)

theorem execRstDumpAck_kept (r : Req) (s : State) {t : State}
    (h : execRstDumpAck r s = .next t) : t.kept = s.kept := by
  unfold execRstDumpAck at h
  injection h with h
  subst h
  repeat' first
    | (simp (maxDischargeDepth := 6); done)
    | (simp (maxDischargeDepth := 6) +zetaDelta; done)
    | with_reducible refine Eq.trans (by assumption) ?_
    | intro _
    | split
    | simp (maxDischargeDepth := 6) only [kept_ite, kept_ite_snd, kept_ite_fst, kept_ite_snd2, kept_ite_snd3]
    | with_reducible refine (kept_foldl _ ?_ _ _).trans ?_
    | with_reducible refine (kept_foldl_snd _ ?_ _ _).trans ?_
    | with_reducible refine (kept_foldl_fst _ ?_ _ _).trans ?_
    | with_reducible refine (kept_foldl_snd2 _ ?_ _ _).trans ?_
    | with_reducible refine (State.regWriteMgmt_kept _ _ _ _ _ ?_).trans ?_
    | with_reducible refine (kept_snd (by assumption)).trans ?_
    | with_reducible refine (kept_snd2 (by assumption)).trans ?_
    | with_reducible refine (kept_snd3 (by assumption)).trans ?_
    | with_reducible refine (kept_fst (by assumption)).trans ?_
    | with_reducible refine kept_of_some (by assumption) ?_
    | simp (maxDischargeDepth := 6)
    | dsimp only
    | simp (maxDischargeDepth := 6) +zetaDelta

@[simp] theorem State.readDump_kept (s : State) :
    (State.readDump s).2.kept = s.kept := by
  unfold State.readDump
  simp (maxDischargeDepth := 6)

theorem execRstDumpDataRead_kept (r : Req) (s : State) {t : State}
    (h : execRstDumpDataRead r s = .next t) : t.kept = s.kept := by
  unfold execRstDumpDataRead at h
  injection h with h
  subst h
  simp (maxDischargeDepth := 6)

theorem execRstCtlWrite_kept (r : Req) (v : BitVec 32) (s : State) {t : State}
    (h : execRstCtlWrite r v s = .next t) : t.kept = s.kept := by
  unfold execRstCtlWrite at h
  injection h with h
  subst h
  simp (maxDischargeDepth := 6)

@[simp] theorem State.remaskCell_kept (s : State) (id : CellId) :
    (State.remaskCell s id).kept = s.kept := by
  unfold State.remaskCell
  simp (maxDischargeDepth := 6)

@[simp] theorem State.takeRootFault_kept (s : State) :
    (State.takeRootFault s).kept = s.kept := by
  unfold State.takeRootFault
  repeat' first
    | (simp (maxDischargeDepth := 6); done)
    | (simp (maxDischargeDepth := 6) +zetaDelta; done)
    | with_reducible refine Eq.trans (by assumption) ?_
    | intro _
    | split
    | simp (maxDischargeDepth := 6) only [kept_ite, kept_ite_snd, kept_ite_fst, kept_ite_snd2, kept_ite_snd3]
    | with_reducible refine (kept_foldl _ ?_ _ _).trans ?_
    | with_reducible refine (kept_foldl_snd _ ?_ _ _).trans ?_
    | with_reducible refine (kept_foldl_fst _ ?_ _ _).trans ?_
    | with_reducible refine (kept_foldl_snd2 _ ?_ _ _).trans ?_
    | with_reducible refine (kept_snd (by assumption)).trans ?_
    | with_reducible refine (kept_snd2 (by assumption)).trans ?_
    | with_reducible refine (kept_snd3 (by assumption)).trans ?_
    | with_reducible refine (kept_fst (by assumption)).trans ?_
    | with_reducible refine kept_of_some (by assumption) ?_
    | simp (maxDischargeDepth := 6)
    | dsimp only
    | simp (maxDischargeDepth := 6) +zetaDelta

@[simp] theorem State.cellFault_kept (s : State) (id : CellId) :
    (State.cellFault s id).kept = s.kept := by
  unfold State.cellFault
  simp (maxDischargeDepth := 6)

theorem execRemask_kept (bad : List ℕ) (s : State) {t : State}
    (h : execRemask bad s = .next t) : t.kept = s.kept := by
  unfold execRemask at h
  injection h with h
  subst h
  simp (maxDischargeDepth := 6)

end Sys2Proof.Machine
end

