-- ==== Sys2Proof/Laws/KeptLifeCycle.lean ====
section
/-! SUPPORT. The operations of LifeCycle keep the queue and the OTP areas. -/

set_option linter.unusedSimpArgs false
set_option linter.unusedTactic false
set_option linter.unreachableTactic false
set_option linter.unusedVariables false

namespace Sys2Proof.Machine
open Sys2Proof

@[simp] theorem State.useChallenge_kept (s : State) :
    (State.useChallenge s).kept = s.kept := by
  unfold State.useChallenge
  simp (maxDischargeDepth := 6)

@[simp] theorem State.startTransition_kept (s : State) (target : ℕ) :
    (State.startTransition s target).kept = s.kept := by
  unfold State.startTransition
  simp (maxDischargeDepth := 6)

@[simp] theorem State.setTres_kept (s : State) (n : ℕ) :
    (State.setTres s n).kept = s.kept := by
  unfold State.setTres
  simp (maxDischargeDepth := 6)

theorem execLcTransitionRequest_kept (r : Req) (m : Mgmt) (v : BitVec 32) (s : State) {t : State}
    (h : execLcTransitionRequest r m v s = .next t) : t.kept = s.kept := by
  unfold execLcTransitionRequest at h
  injection h with h
  subst h
  simp (maxDischargeDepth := 6)

@[simp] theorem State.endTransition_kept (s : State) :
    (State.endTransition s).kept = s.kept := by
  unfold State.endTransition
  simp (maxDischargeDepth := 6)

@[simp] theorem State.afterStep_kept (s : State) (target : ℕ) (k : ℕ) :
    (State.afterStep s target k).kept = s.kept := by
  unfold State.afterStep
  simp (maxDischargeDepth := 6)

@[simp] theorem State.lcStops_kept (s : State) :
    (State.lcStops s).kept = s.kept := by
  unfold State.lcStops
  simp (maxDischargeDepth := 6)

@[simp] theorem State.setAres_kept (s : State) (n : ℕ) :
    (State.setAres s n).kept = s.kept := by
  unfold State.setAres
  simp (maxDischargeDepth := 6)

@[simp] theorem State.setDres_kept (s : State) (n : ℕ) :
    (State.setDres s n).kept = s.kept := by
  unfold State.setDres
  simp (maxDischargeDepth := 6)

theorem execDebugChallenge_kept (r : Req) (_m : Mgmt) (v : BitVec 32) (s : State) {t : State}
    (h : execDebugChallenge r _m v s = .next t) : t.kept = s.kept := by
  unfold execDebugChallenge at h
  injection h with h
  subst h
  simp (maxDischargeDepth := 6)

theorem execDebugOpen_kept (r : Req) (m : Mgmt) (s : State) {t : State}
    (h : execDebugOpen r m s = .next t) : t.kept = s.kept := by
  unfold execDebugOpen at h
  injection h with h
  subst h
  simp (maxDischargeDepth := 6)

@[simp] theorem State.deriveFw_kept (s : State) (dbg : ℕ) :
    (State.deriveFw s dbg).kept = s.kept := by
  unfold State.deriveFw
  repeat' first
    | (simp (maxDischargeDepth := 6); done)
    | split
    | simp (maxDischargeDepth := 6)

theorem execDebugOpenComplete_kept (s : State) {t : State}
    (h : execDebugOpenComplete s = .next t) : t.kept = s.kept := by
  unfold execDebugOpenComplete at h
  injection h with h
  subst h
  simp (maxDischargeDepth := 6)

end Sys2Proof.Machine
end

