-- ==== Sys2Proof/Laws/KeptKindling.lean ====
section
/-! SUPPORT. The operations of Kindling keep the queue and the OTP areas. -/

set_option linter.unusedSimpArgs false
set_option linter.unusedTactic false
set_option linter.unreachableTactic false
set_option linter.unusedVariables false

namespace Sys2Proof.Machine
open Sys2Proof

@[simp] theorem State.cfApply_kept (s : State) (e : ℕ × List ℕ) :
    (State.cfApply s e).kept = s.kept := by
  unfold State.cfApply
  repeat' first
    | (simp (maxDischargeDepth := 6); done)
    | split
    | simp (maxDischargeDepth := 6)

@[simp] theorem State.selectConfig_kept (s : State) (env : BootEnv) :
    (State.selectConfig s env).kept = s.kept := by
  unfold State.selectConfig
  simp (maxDischargeDepth := 6)

@[simp] theorem State.bootStops_kept (s : State) (fault : ℕ) :
    (State.bootStops s fault).kept = s.kept := by
  unfold State.bootStops
  simp (maxDischargeDepth := 6)

@[simp] theorem State.loadVbat_kept (s : State) (ok : Bool) (powerOn : Bool) :
    (State.loadVbat s ok powerOn).kept = s.kept := by
  unfold State.loadVbat
  simp (maxDischargeDepth := 6)

@[simp] theorem State.noteTamper_kept (s : State) :
    (State.noteTamper s).kept = s.kept := by
  unfold State.noteTamper
  simp (maxDischargeDepth := 6)

@[simp] theorem State.drawScramble_kept (s : State) :
    (State.drawScramble s).kept = s.kept := by
  unfold State.drawScramble
  repeat' first
    | (simp (maxDischargeDepth := 6); done)
    | (simp (maxDischargeDepth := 6) +zetaDelta; done)
    | with_reducible refine Eq.trans (by assumption) ?_
    | intro _
    | split
    | simp (maxDischargeDepth := 6) only [kept_ite, kept_ite_snd, kept_ite_fst, kept_ite_snd2, kept_ite_snd3]
    | with_reducible refine (kept_foldl _ ?_ _ _).trans ?_
    | with_reducible refine (kept_foldl_snd _ ?_ _ _).trans ?_
    | with_reducible refine (kept_foldl_fst _ ?_ _ _).trans ?_
    | with_reducible refine (kept_foldl_snd2 _ ?_ _ _).trans ?_
    | with_reducible refine (kept_snd (by assumption)).trans ?_
    | with_reducible refine (kept_snd2 (by assumption)).trans ?_
    | with_reducible refine (kept_snd3 (by assumption)).trans ?_
    | with_reducible refine (kept_fst (by assumption)).trans ?_
    | with_reducible refine kept_of_some (by assumption) ?_
    | simp (maxDischargeDepth := 6)
    | dsimp only
    | simp (maxDischargeDepth := 6) +zetaDelta

@[simp] theorem State.selfTests_kept (s : State) (ok : Bool) (trng : Bool) :
    (State.selfTests s ok trng).kept = s.kept := by
  unfold State.selfTests
  simp (maxDischargeDepth := 6)

@[simp] theorem State.deriveBoot_kept (s : State) (rom : BitVec 384) :
    (State.deriveBoot s rom).kept = s.kept := by
  unfold State.deriveBoot
  simp (maxDischargeDepth := 6)

@[simp] theorem State.deriveIdentity_kept (s : State) :
    (State.deriveIdentity s).kept = s.kept := by
  unfold State.deriveIdentity
  simp (maxDischargeDepth := 6)

@[simp] theorem State.selectImages_kept (s : State) (env : BootEnv) :
    (State.selectImages s env).2.kept = s.kept := by
  unfold State.selectImages
  repeat' first
    | (simp (maxDischargeDepth := 6); done)
    | split
    | simp (maxDischargeDepth := 6)

@[simp] theorem State.selectImages_some (s : State) (env : BootEnv) :
    ((State.selectImages s env).1.getD s).kept = s.kept := by
  unfold State.selectImages
  repeat' first
    | (simp (maxDischargeDepth := 6); done)
    | split
    | simp (maxDischargeDepth := 6)

@[simp] theorem State.recordSliver_kept (s : State) (n : ℕ) :
    (State.recordSliver s n).kept = s.kept := by
  unfold State.recordSliver
  simp (maxDischargeDepth := 6)

@[simp] theorem State.broadcast_kept (s : State) (bad : List ℕ) :
    (State.broadcast s bad).kept = s.kept := by
  unfold State.broadcast
  simp (maxDischargeDepth := 6)

@[simp] theorem State.loadTraining_kept (s : State) (env : BootEnv) (porst : Bool) :
    (State.loadTraining s env porst).kept = s.kept := by
  unfold State.loadTraining
  repeat' first
    | (simp (maxDischargeDepth := 6); done)
    | split
    | simp (maxDischargeDepth := 6)

theorem execTrainingSlotWrite_kept (s : State) {t : State}
    (h : execTrainingSlotWrite s = .next t) : t.kept = s.kept := by
  unfold execTrainingSlotWrite at h
  injection h with h
  subst h
  simp (maxDischargeDepth := 6)

@[simp] theorem State.bootTail_kept (s : State) (env : BootEnv) :
    (State.bootTail s env).kept = s.kept := by
  unfold State.bootTail
  simp (maxDischargeDepth := 6)

@[simp] theorem State.bootCold_kept (s : State) (env : BootEnv) :
    (State.bootCold s env).kept = s.kept := by
  unfold State.bootCold
  dsimp only
  split
  · simp [kept_snd (by assumption)]
  · rename_i h
    rw [State.bootTail_kept, kept_of_some h (State.selectImages_some _ _)]
    simp

theorem execKindlingBoot_kept (env : BootEnv) (s : State) {t : State}
    (h : execKindlingBoot env s = .next t) : t.kept = s.kept := by
  unfold execKindlingBoot at h
  injection h with h
  subst h
  repeat' first
    | (simp (maxDischargeDepth := 6); done)
    | split
    | simp (maxDischargeDepth := 6)

end Sys2Proof.Machine
end

