-- ==== Sys2Proof/Laws/KeptPower.lean ====
section
/-! SUPPORT. The operations of Power keep the queue and the OTP areas. -/

set_option linter.unusedSimpArgs false
set_option linter.unusedTactic false
set_option linter.unreachableTactic false
set_option linter.unusedVariables false

namespace Sys2Proof.Machine
open Sys2Proof

@[simp] theorem State.sitesDown_kept (s : State) :
    (State.sitesDown s).kept = s.kept := by
  unfold State.sitesDown
  simp (maxDischargeDepth := 6)

@[simp] theorem State.sitesUp_kept (s : State) :
    (State.sitesUp s).kept = s.kept := by
  unfold State.sitesUp
  simp (maxDischargeDepth := 6)

@[simp] theorem State.stepDown_kept (s : State) :
    (State.stepDown s).kept = s.kept := by
  unfold State.stepDown
  simp (maxDischargeDepth := 6)

@[simp] theorem State.stepUp_kept (s : State) :
    (State.stepUp s).kept = s.kept := by
  unfold State.stepUp
  simp (maxDischargeDepth := 6)

@[simp] theorem State.loopStep_kept (s : State) :
    (State.loopStep s).kept = s.kept := by
  unfold State.loopStep
  simp (maxDischargeDepth := 6)

@[simp] theorem State.notePacing_kept (s : State) (ns : ℕ) :
    (State.notePacing s ns).kept = s.kept := by
  unfold State.notePacing
  simp (maxDischargeDepth := 6)

@[simp] theorem State.endHolds_kept (s : State) :
    (State.endHolds s).kept = s.kept := by
  unfold State.endHolds
  simp (maxDischargeDepth := 6)

@[simp] theorem State.noteDemand_kept (s : State) (throttled : Bool) (p : ℕ) :
    (State.noteDemand s throttled p).kept = s.kept := by
  unfold State.noteDemand
  simp (maxDischargeDepth := 6)

theorem execDamperInterval_kept (p : ℕ) (s : State) {t : State}
    (h : execDamperInterval p s = .next t) : t.kept = s.kept := by
  unfold execDamperInterval at h
  injection h with h
  subst h
  simp (maxDischargeDepth := 6)

theorem execOppVoltageAck_kept (s : State) {t : State}
    (h : execOppVoltageAck s = .next t) : t.kept = s.kept := by
  unfold execOppVoltageAck at h
  injection h with h
  subst h
  repeat' first
    | (simp (maxDischargeDepth := 6); done)
    | split
    | simp (maxDischargeDepth := 6)

theorem execSiteLevelTimeout_kept (site : ℕ) (s : State) {t : State}
    (h : execSiteLevelTimeout site s = .next t) : t.kept = s.kept := by
  unfold execSiteLevelTimeout at h
  injection h with h
  subst h
  simp (maxDischargeDepth := 6)

theorem execBudgetReallocate_kept (s : State) {t : State}
    (h : execBudgetReallocate s = .next t) : t.kept = s.kept := by
  unfold execBudgetReallocate at h
  injection h with h
  subst h
  simp (maxDischargeDepth := 6)

theorem execShareReceive_kept (w : ℕ) (s : State) {t : State}
    (h : execShareReceive w s = .next t) : t.kept = s.kept := by
  unfold execShareReceive at h
  injection h with h
  subst h
  simp (maxDischargeDepth := 6)

theorem execShareTimeout_kept (s : State) {t : State}
    (h : execShareTimeout s = .next t) : t.kept = s.kept := by
  unfold execShareTimeout at h
  injection h with h
  subst h
  simp (maxDischargeDepth := 6)

theorem execPwrBudget_kept (m : Mgmt) (w : ℕ) (lease : ℕ) (s : State) {t : State}
    (h : execPwrBudget m w lease s = .next t) : t.kept = s.kept := by
  unfold execPwrBudget at h
  injection h with h
  subst h
  simp (maxDischargeDepth := 6)

theorem execPwrBudgetLapse_kept (s : State) {t : State}
    (h : execPwrBudgetLapse s = .next t) : t.kept = s.kept := by
  unfold execPwrBudgetLapse at h
  injection h with h
  subst h
  simp (maxDischargeDepth := 6)

theorem execPwrQuery_kept (m : Mgmt) (s : State) {t : State}
    (h : execPwrQuery m s = .next t) : t.kept = s.kept := by
  unfold execPwrQuery at h
  injection h with h
  subst h
  simp (maxDischargeDepth := 6)

theorem execPwrLimit_kept (m : Mgmt) (limit : ℕ) (clearCeil : Bool) (s : State) {t : State}
    (h : execPwrLimit m limit clearCeil s = .next t) : t.kept = s.kept := by
  unfold execPwrLimit at h
  injection h with h
  subst h
  simp (maxDischargeDepth := 6)

theorem execPwrReport_kept (s : State) {t : State}
    (h : execPwrReport s = .next t) : t.kept = s.kept := by
  unfold execPwrReport at h
  injection h with h
  subst h
  simp (maxDischargeDepth := 6)

theorem execDroopTrip_kept (src : ℕ) (s : State) {t : State}
    (h : execDroopTrip src s = .next t) : t.kept = s.kept := by
  unfold execDroopTrip at h
  injection h with h
  subst h
  simp (maxDischargeDepth := 6)

theorem execDroopRecover_kept (s : State) {t : State}
    (h : execDroopRecover s = .next t) : t.kept = s.kept := by
  unfold execDroopRecover at h
  injection h with h
  subst h
  simp (maxDischargeDepth := 6)

@[simp] theorem State.takeReading_kept (s : State) (hottest : ℕ) :
    (State.takeReading s hottest).kept = s.kept := by
  unfold State.takeReading
  simp (maxDischargeDepth := 6)

@[simp] theorem State.countTrip_kept (s : State) :
    (State.countTrip s).kept = s.kept := by
  unfold State.countTrip
  simp (maxDischargeDepth := 6)

@[simp] theorem State.tripNow_kept (s : State) :
    (State.tripNow s).kept = s.kept := by
  unfold State.tripNow
  simp (maxDischargeDepth := 6)

theorem execThermalWarn_kept (hottest : ℕ) (s : State) {t : State}
    (h : execThermalWarn hottest s = .next t) : t.kept = s.kept := by
  unfold execThermalWarn at h
  injection h with h
  subst h
  simp (maxDischargeDepth := 6)

theorem execThermalTrip_kept (hottest : ℕ) (s : State) {t : State}
    (h : execThermalTrip hottest s = .next t) : t.kept = s.kept := by
  unfold execThermalTrip at h
  injection h with h
  subst h
  simp (maxDischargeDepth := 6)

theorem execThermalCrit_kept (hottest : ℕ) (s : State) {t : State}
    (h : execThermalCrit hottest s = .next t) : t.kept = s.kept := by
  unfold execThermalCrit at h
  injection h with h
  subst h
  simp (maxDischargeDepth := 6)

theorem execThermalClear_kept (hottest : ℕ) (s : State) {t : State}
    (h : execThermalClear hottest s = .next t) : t.kept = s.kept := by
  unfold execThermalClear at h
  injection h with h
  subst h
  simp (maxDischargeDepth := 6)

@[simp] theorem State.takeVin_kept (s : State) (v : ℕ) :
    (State.takeVin s v).kept = s.kept := by
  unfold State.takeVin
  simp (maxDischargeDepth := 6)

theorem execPmbusPoll_kept (readings : List (ℕ × ℕ × ℕ)) (s : State) {t : State}
    (h : execPmbusPoll readings s = .next t) : t.kept = s.kept := by
  unfold execPmbusPoll at h
  injection h with h
  subst h
  simp (maxDischargeDepth := 6)

theorem execVinFault_kept (s : State) {t : State}
    (h : execVinFault s = .next t) : t.kept = s.kept := by
  unfold execVinFault at h
  injection h with h
  subst h
  simp (maxDischargeDepth := 6)

theorem execPmbusStageTimeout_kept (stage : ℕ) (s : State) {t : State}
    (h : execPmbusStageTimeout stage s = .next t) : t.kept = s.kept := by
  unfold execPmbusStageTimeout at h
  injection h with h
  subst h
  simp (maxDischargeDepth := 6)

theorem execPwrCtlWrite_kept (r : Req) (v : BitVec 32) (s : State) {t : State}
    (h : execPwrCtlWrite r v s = .next t) : t.kept = s.kept := by
  unfold execPwrCtlWrite at h
  injection h with h
  subst h
  simp (maxDischargeDepth := 6)

end Sys2Proof.Machine
end

