-- ==== Sys2Proof/Laws/KeptTelemetry.lean ====
section
/-! SUPPORT. The operations of Telemetry keep the queue and the OTP areas. -/

set_option linter.unusedSimpArgs false
set_option linter.unusedTactic false
set_option linter.unreachableTactic false
set_option linter.unusedVariables false

namespace Sys2Proof.Machine
open Sys2Proof

@[simp] theorem State.endInterval_kept (s : State) (i : ℕ) :
    (State.endInterval s i).kept = s.kept := by
  unfold State.endInterval
  simp (maxDischargeDepth := 6)

theorem execThrottleInterval_kept (s : State) {t : State}
    (h : execThrottleInterval s = .next t) : t.kept = s.kept := by
  unfold execThrottleInterval at h
  injection h with h
  subst h
  simp (maxDischargeDepth := 6)

theorem execTelSCtlWrite_kept (r : Req) (slice : ℕ) (v : BitVec 32) (s : State) {t : State}
    (h : execTelSCtlWrite r slice v s = .next t) : t.kept = s.kept := by
  unfold execTelSCtlWrite at h
  injection h with h
  subst h
  simp (maxDischargeDepth := 6)

theorem execTelSCfgWrite_kept (r : Req) (slice : ℕ) (v : BitVec 32) (s : State) {t : State}
    (h : execTelSCfgWrite r slice v s = .next t) : t.kept = s.kept := by
  unfold execTelSCfgWrite at h
  injection h with h
  subst h
  simp (maxDischargeDepth := 6)

@[simp] theorem State.readQval_kept (s : State) (r : Req) (i : ℕ) :
    (State.readQval s r i).2.kept = s.kept := by
  unfold State.readQval
  simp (maxDischargeDepth := 6)

theorem execTelSQvalRead_kept (r : Req) (slice : ℕ) (s : State) {t : State}
    (h : execTelSQvalRead r slice s = .next t) : t.kept = s.kept := by
  unfold execTelSQvalRead at h
  injection h with h
  subst h
  simp (maxDischargeDepth := 6)

end Sys2Proof.Machine
end

