-- ==== Sys2Proof/Laws/KeptRegisters.lean ====
section
/-! SUPPORT. The operations of Registers keep the queue and the OTP areas. -/

set_option linter.unusedSimpArgs false
set_option linter.unusedTactic false
set_option linter.unreachableTactic false
set_option linter.unusedVariables false

namespace Sys2Proof.Machine
open Sys2Proof

@[simp] theorem State.readVal_kept (s : State) (r : Req) (off : ℕ) (g : Reg) :
    (State.readVal s r off g).2.kept = s.kept := by
  unfold State.readVal
  simp (maxDischargeDepth := 6)

@[simp] theorem State.readReg_kept (s : State) (r : Req) (off : ℕ) (width : ℕ) :
    (State.readReg s r off width).kept = s.kept := by
  unfold State.readReg
  repeat' first
    | (simp (maxDischargeDepth := 6); done)
    | split
    | simp (maxDischargeDepth := 6)

theorem execRegisterLowHalfRead_kept (r : Req) (off : ℕ) (s : State) {t : State}
    (h : execRegisterLowHalfRead r off s = .next t) : t.kept = s.kept := by
  unfold execRegisterLowHalfRead at h
  injection h with h
  subst h
  simp (maxDischargeDepth := 6)

@[simp] theorem State.writeSlicePage_kept (s : State) (r : Req) (off : ℕ) (i : ℕ) (o : ℕ) (v : BitVec 64) :
    (State.writeSlicePage s r off i o v).kept = s.kept := by
  unfold State.writeSlicePage
  repeat' first
    | (simp (maxDischargeDepth := 6); done)
    | split
    | simp (maxDischargeDepth := 6)

@[simp] theorem State.writeCePage_kept (s : State) (r : Req) (off : ℕ) (n : ℕ) (o : ℕ) (v : BitVec 64) :
    (State.writeCePage s r off n o v).kept = s.kept := by
  unfold State.writeCePage
  repeat' first
    | (simp (maxDischargeDepth := 6); done)
    | split
    | simp (maxDischargeDepth := 6)

@[simp] theorem State.write64_kept (s : State) (r : Req) (off : ℕ) (v : BitVec 64) :
    (State.write64 s r off v).kept = s.kept := by
  unfold State.write64
  repeat' first
    | (simp (maxDischargeDepth := 6); done)
    | (simp (maxDischargeDepth := 6) +zetaDelta; done)
    | with_reducible refine Eq.trans (by assumption) ?_
    | intro _
    | split
    | simp (maxDischargeDepth := 6) only [kept_ite, kept_ite_snd, kept_ite_fst, kept_ite_snd2, kept_ite_snd3]
    | with_reducible refine (kept_foldl _ ?_ _ _).trans ?_
    | with_reducible refine (kept_foldl_snd _ ?_ _ _).trans ?_
    | with_reducible refine (kept_foldl_fst _ ?_ _ _).trans ?_
    | with_reducible refine (kept_foldl_snd2 _ ?_ _ _).trans ?_
    | with_reducible refine (State.regWrite_kept _ _ _ _ _ _ ?_).trans ?_
    | with_reducible refine (State.regWriteMgmt_kept _ _ _ _ _ ?_).trans ?_
    | with_reducible refine (kept_snd (by assumption)).trans ?_
    | with_reducible refine (kept_snd2 (by assumption)).trans ?_
    | with_reducible refine (kept_snd3 (by assumption)).trans ?_
    | with_reducible refine (kept_fst (by assumption)).trans ?_
    | with_reducible refine kept_of_some (by assumption) ?_
    | simp (maxDischargeDepth := 6)
    | dsimp only
    | simp (maxDischargeDepth := 6) +zetaDelta

@[simp] theorem State.write32_kept (s : State) (r : Req) (off : ℕ) (v : BitVec 64) :
    (State.write32 s r off v).kept = s.kept := by
  unfold State.write32
  repeat' first
    | (simp (maxDischargeDepth := 6); done)
    | (simp (maxDischargeDepth := 6) +zetaDelta; done)
    | with_reducible refine Eq.trans (by assumption) ?_
    | intro _
    | split
    | simp (maxDischargeDepth := 6) only [kept_ite, kept_ite_snd, kept_ite_fst, kept_ite_snd2, kept_ite_snd3]
    | with_reducible refine (kept_foldl _ ?_ _ _).trans ?_
    | with_reducible refine (kept_foldl_snd _ ?_ _ _).trans ?_
    | with_reducible refine (kept_foldl_fst _ ?_ _ _).trans ?_
    | with_reducible refine (kept_foldl_snd2 _ ?_ _ _).trans ?_
    | with_reducible refine (State.regWrite_kept _ _ _ _ _ _ ?_).trans ?_
    | with_reducible refine (State.regWriteMgmt_kept _ _ _ _ _ ?_).trans ?_
    | with_reducible refine (kept_snd (by assumption)).trans ?_
    | with_reducible refine (kept_snd2 (by assumption)).trans ?_
    | with_reducible refine (kept_snd3 (by assumption)).trans ?_
    | with_reducible refine (kept_fst (by assumption)).trans ?_
    | with_reducible refine kept_of_some (by assumption) ?_
    | simp (maxDischargeDepth := 6)
    | dsimp only
    | simp (maxDischargeDepth := 6) +zetaDelta

@[simp] theorem State.holdLow_kept (s : State) (r : Req) (off : ℕ) (v : BitVec 32) :
    (State.holdLow s r off v).kept = s.kept := by
  unfold State.holdLow
  simp (maxDischargeDepth := 6)

@[simp] theorem State.writeReg_kept (s : State) (r : Req) (off : ℕ) (width : ℕ) (v : BitVec 64) :
    (State.writeReg s r off width v).kept = s.kept := by
  unfold State.writeReg
  repeat' first
    | (simp (maxDischargeDepth := 6); done)
    | split
    | simp (maxDischargeDepth := 6)

theorem execRegisterLowHalfWrite_kept (r : Req) (off : ℕ) (v : BitVec 32) (s : State) {t : State}
    (h : execRegisterLowHalfWrite r off v s = .next t) : t.kept = s.kept := by
  unfold execRegisterLowHalfWrite at h
  injection h with h
  subst h
  repeat' first
    | (simp (maxDischargeDepth := 6); done)
    | split
    | simp (maxDischargeDepth := 6)

theorem execRegisterWrite_kept (r : Req) (off : ℕ) (width : ℕ) (v : BitVec 64) (s : State) {t : State}
    (h : execRegisterWrite r off width v s = .next t) : t.kept = s.kept := by
  unfold execRegisterWrite at h
  injection h with h
  subst h
  simp (maxDischargeDepth := 6)

theorem execRegAccess_kept (r : Req) (off : ℕ) (width : ℕ) (write : Bool) (s : State) {t : State}
    (h : execRegAccess r off width write s = .next t) : t.kept = s.kept := by
  unfold execRegAccess at h
  injection h with h
  subst h
  repeat' first
    | (simp (maxDischargeDepth := 6); done)
    | split
    | simp (maxDischargeDepth := 6)

end Sys2Proof.Machine
end

