-- ==== Sys2Proof/Laws/KeptSystem.lean ====
section
/-! SUPPORT. The operations of System keep the queue and the OTP areas. -/

set_option linter.unusedSimpArgs false
set_option linter.unusedTactic false
set_option linter.unreachableTactic false
set_option linter.unusedVariables false

namespace Sys2Proof.Machine
open Sys2Proof

@[simp] theorem State.groupRefused_kept (s : State) (stack : ℕ) :
    (State.groupRefused s stack).kept = s.kept := by
  unfold State.groupRefused
  simp (maxDischargeDepth := 6)

@[simp] theorem State.changeGroups_kept (s : State) (stack : ℕ) (mask : ℕ) :
    (State.changeGroups s stack mask).kept = s.kept := by
  unfold State.changeGroups
  simp (maxDischargeDepth := 6)

theorem execPowerGroupChange_kept (stack : ℕ) (powered : BitVec 4) (s : State) {t : State}
    (h : execPowerGroupChange stack powered s = .next t) : t.kept = s.kept := by
  unfold execPowerGroupChange at h
  injection h with h
  subst h
  simp (maxDischargeDepth := 6)

@[simp] theorem State.setPd_kept (s : State) (p : ℕ) (v : PdState) :
    (State.setPd s p v).kept = s.kept := by
  unfold State.setPd
  simp (maxDischargeDepth := 6)

@[simp] theorem State.loseDomain_kept (s : State) (p : ℕ) :
    (State.loseDomain s p).kept = s.kept := by
  unfold State.loseDomain
  repeat' first
    | (simp (maxDischargeDepth := 6); done)
    | split
    | simp (maxDischargeDepth := 6)

theorem execDomainSwitchOff_kept (pd : ℕ) (s : State) {t : State}
    (h : execDomainSwitchOff pd s = .next t) : t.kept = s.kept := by
  unfold execDomainSwitchOff at h
  injection h with h
  subst h
  simp (maxDischargeDepth := 6)

theorem execDomainWake_kept (pd : ℕ) (s : State) {t : State}
    (h : execDomainWake pd s = .next t) : t.kept = s.kept := by
  unfold execDomainWake at h
  injection h with h
  subst h
  simp (maxDischargeDepth := 6)

theorem execClockFault_kept (clk : Clock) (running : Bool) (s : State) {t : State}
    (h : execClockFault clk running s = .next t) : t.kept = s.kept := by
  unfold execClockFault at h
  injection h with h
  subst h
  simp (maxDischargeDepth := 6)

theorem execKclkResume_kept (s : State) {t : State}
    (h : execKclkResume s = .next t) : t.kept = s.kept := by
  unfold execKclkResume at h
  injection h with h
  subst h
  simp (maxDischargeDepth := 6)

theorem execOpsecCopy_kept (s : State) {t : State}
    (h : execOpsecCopy s = .next t) : t.kept = s.kept := by
  unfold execOpsecCopy at h
  injection h with h
  subst h
  simp (maxDischargeDepth := 6)

theorem execTamperSet_kept (lowNs : Option ℕ) (s : State) {t : State}
    (h : execTamperSet lowNs s = .next t) : t.kept = s.kept := by
  unfold execTamperSet at h
  injection h with h
  subst h
  simp (maxDischargeDepth := 6)

@[simp] theorem State.tick_kept (s : State) :
    (State.tick s).kept = s.kept := by
  unfold State.tick
  simp (maxDischargeDepth := 6)

end Sys2Proof.Machine
end

