-- ==== Sys2Proof/Laws/Tbl.lean ====
section
/-! SUPPORT. What reading and writing a sparse table do, and that every write keeps its canonical form (log 7). -/

namespace Sys2Proof

/-! ## Read after write -/

theorem Tbl.look_ins_same {α : Type} (d : α) (k : Nat) (v : α) (l : List (Nat × α)) :
    Tbl.look d k (Tbl.ins k v l) = v := by
  induction l with
  | nil => simp [Tbl.ins, Tbl.look]
  | cons e r ih =>
    obtain ⟨a, b⟩ := e
    simp only [Tbl.ins]
    split
    · simp [Tbl.look]
    · split
      · simp [Tbl.look]
      · have h : a ≠ k := by omega
        simp [Tbl.look, h, ih]

theorem Tbl.look_ins_other {α : Type} (d : α) {j k : Nat} (v : α) (l : List (Nat × α)) (h : j ≠ k) :
    Tbl.look d j (Tbl.ins k v l) = Tbl.look d j l := by
  induction l with
  | nil => simp [Tbl.ins, Tbl.look, Ne.symm h]
  | cons e r ih =>
    obtain ⟨a, b⟩ := e
    simp only [Tbl.ins]
    split
    · simp [Tbl.look, Ne.symm h]
    · split
      · next h2 => subst h2; simp [Tbl.look, Ne.symm h]
      · simp [Tbl.look, ih]

theorem Tbl.look_del_same {α : Type} (d : α) (k : Nat) (l : List (Nat × α)) : Tbl.look d k (Tbl.del k l) = d := by
  induction l with
  | nil => simp [Tbl.del, Tbl.look]
  | cons e r ih =>
    obtain ⟨a, b⟩ := e
    simp only [Tbl.del]
    split
    · exact ih
    · next h => simp [Tbl.look, h, ih]

theorem Tbl.look_del_other {α : Type} (d : α) {j k : Nat} (l : List (Nat × α)) (h : j ≠ k) :
    Tbl.look d j (Tbl.del k l) = Tbl.look d j l := by
  induction l with
  | nil => simp [Tbl.del]
  | cons e r ih =>
    obtain ⟨a, b⟩ := e
    simp only [Tbl.del]
    split
    · next h2 => subst h2; simp [Tbl.look, Ne.symm h, ih]
    · simp [Tbl.look, ih]

@[simp] theorem Tbl.get_set_same {α : Type} [DecidableEq α] (t : Tbl α) (d : α) (k : Nat) (v : α) :
    (t.set d k v).get d k = v := by
  unfold Tbl.set Tbl.get
  split
  · next h => simp [Tbl.look_del_same, h]
  · simp [Tbl.look_ins_same]

theorem Tbl.get_set_other {α : Type} [DecidableEq α] (t : Tbl α) (d : α) {j k : Nat} (v : α) (h : j ≠ k) :
    (t.set d k v).get d j = t.get d j := by
  unfold Tbl.set Tbl.get
  split
  · simp [Tbl.look_del_other d t.cells h]
  · simp [Tbl.look_ins_other d v t.cells h]

theorem Tbl.get_set {α : Type} [DecidableEq α] (t : Tbl α) (d : α) (j k : Nat) (v : α) :
    (t.set d k v).get d j = if j = k then v else t.get d j := by
  split
  · next h => subst h; simp
  · next h => exact Tbl.get_set_other t d v h

@[simp] theorem Tbl.get_empty {α : Type} (d : α) (k : Nat) : ({} : Tbl α).get d k = d := rfl

/-! ## The canonical form -/

/-- The canonical form as a proposition: keys strictly rise, and no value is the default. -/
theorem Tbl.wf_go_iff {α : Type} [DecidableEq α] (d : α) (l : List (Nat × α)) :
    Tbl.wf.go d l = true ↔ l.Pairwise (fun a b => a.1 < b.1) ∧ ∀ e ∈ l, e.2 ≠ d := by
  induction l with
  | nil => simp [Tbl.wf.go]
  | cons e r ih =>
    cases r with
    | nil => simp [Tbl.wf.go]
    | cons f r =>
      simp only [Tbl.wf.go, Bool.and_eq_true, decide_eq_true_eq, ih, List.pairwise_cons, List.mem_cons]
      constructor
      · rintro ⟨⟨h1, h2⟩, ⟨h3, h4⟩, h5⟩
        refine ⟨⟨?_, h3, h4⟩, ?_⟩
        · rintro x (rfl | hx)
          · exact h2
          · exact Nat.lt_trans h2 (h3 x hx)
        · rintro x (rfl | hx)
          · exact h1
          · exact h5 x hx
      · rintro ⟨⟨h1, h3, h4⟩, h5⟩
        exact ⟨⟨h5 e (.inl rfl), h1 f (.inl rfl)⟩, ⟨h3, h4⟩, fun x hx => h5 x (.inr hx)⟩

theorem Tbl.mem_del {α : Type} {k : Nat} {l : List (Nat × α)} {e : Nat × α} (h : e ∈ Tbl.del k l) : e ∈ l := by
  induction l with
  | nil => simp [Tbl.del] at h
  | cons f r ih =>
    obtain ⟨a, b⟩ := f
    simp only [Tbl.del] at h
    split at h
    · exact List.mem_cons_of_mem _ (ih h)
    · rcases List.mem_cons.mp h with rfl | h
      · exact List.mem_cons_self
      · exact List.mem_cons_of_mem _ (ih h)

theorem Tbl.mem_ins {α : Type} {k : Nat} {v : α} {l : List (Nat × α)} {e : Nat × α} (h : e ∈ Tbl.ins k v l) :
    e = (k, v) ∨ e ∈ l := by
  induction l with
  | nil => simp [Tbl.ins] at h; exact .inl h
  | cons f r ih =>
    obtain ⟨a, b⟩ := f
    simp only [Tbl.ins] at h
    split at h
    · rcases List.mem_cons.mp h with h | h
      · exact .inl h
      · exact .inr h
    · split at h
      · rcases List.mem_cons.mp h with h | h
        · exact .inl h
        · exact .inr (List.mem_cons_of_mem _ h)
      · rcases List.mem_cons.mp h with h | h
        · exact .inr (h ▸ List.mem_cons_self)
        · rcases ih h with h | h
          · exact .inl h
          · exact .inr (List.mem_cons_of_mem _ h)

theorem Tbl.del_sorted {α : Type} {k : Nat} {l : List (Nat × α)} (h : l.Pairwise fun a b => a.1 < b.1) :
    (Tbl.del k l).Pairwise fun a b => a.1 < b.1 := by
  induction l with
  | nil => simp [Tbl.del]
  | cons f r ih =>
    obtain ⟨a, b⟩ := f
    rw [List.pairwise_cons] at h
    simp only [Tbl.del]
    split
    · exact ih h.2
    · exact List.pairwise_cons.mpr ⟨fun x hx => h.1 x (Tbl.mem_del hx), ih h.2⟩

theorem Tbl.ins_sorted {α : Type} {k : Nat} {v : α} {l : List (Nat × α)} (h : l.Pairwise fun a b => a.1 < b.1) :
    (Tbl.ins k v l).Pairwise fun a b => a.1 < b.1 := by
  induction l with
  | nil => simp [Tbl.ins]
  | cons f r ih =>
    obtain ⟨a, b⟩ := f
    rw [List.pairwise_cons] at h
    simp only [Tbl.ins]
    split
    · next hk =>
      refine List.pairwise_cons.mpr ⟨?_, List.pairwise_cons.mpr h⟩
      rintro x hx
      rcases List.mem_cons.mp hx with rfl | hx
      · exact hk
      · exact Nat.lt_trans hk (h.1 x hx)
    · split
      · next hk => subst hk; exact List.pairwise_cons.mpr ⟨fun x hx => h.1 x hx, h.2⟩
      · next h1 h2 =>
        refine List.pairwise_cons.mpr ⟨?_, ih h.2⟩
        intro x hx
        rcases Tbl.mem_ins hx with rfl | hx
        · exact Nat.lt_of_le_of_ne (Nat.le_of_not_lt h1) (Ne.symm h2)
        · exact h.1 x hx

/-- Every write keeps the canonical form. -/
theorem Tbl.wf_set {α : Type} [DecidableEq α] (t : Tbl α) (d : α) (k : Nat) (v : α) (h : t.wf d = true) :
    (t.set d k v).wf d = true := by
  unfold Tbl.wf at *
  rw [Tbl.wf_go_iff] at *
  unfold Tbl.set
  split
  · exact ⟨Tbl.del_sorted h.1, fun e he => h.2 e (Tbl.mem_del he)⟩
  · next hv =>
    refine ⟨Tbl.ins_sorted h.1, fun e he => ?_⟩
    rcases Tbl.mem_ins he with rfl | he
    · exact hv
    · exact h.2 e he

/-- Keeping some entries keeps the canonical form. -/
theorem Tbl.wf_filter {α : Type} [DecidableEq α] (t : Tbl α) (d : α) (p : Nat → α → Bool) (h : t.wf d = true) :
    (t.filter p).wf d = true := by
  unfold Tbl.wf at *
  rw [Tbl.wf_go_iff] at *
  exact ⟨h.1.filter _, fun e he => h.2 e (List.mem_filter.mp he).1⟩

/-- The table that lists nothing is canonical. -/
theorem Tbl.wf_empty {α : Type} [DecidableEq α] (d : α) : ({} : Tbl α).wf d = true := rfl

end Sys2Proof
end

