-- ==== Sys2Proof/Laws/Memory.lean ====
section
/-! SUPPORT. What the operations on the stored memories do, and that each keeps their one form (log 7). -/

namespace Sys2Proof.Machine
open Sys2Proof

/-! ## Runs of a table -/

theorem look_of_not_mem {α : Type} (d : α) (k : Nat) (l : List (Nat × α)) (h : ∀ e ∈ l, e.1 ≠ k) : Tbl.look d k l = d := by
  induction l with
  | nil => rfl
  | cons e r ih =>
    obtain ⟨a, b⟩ := e
    have h1 : a ≠ k := h (a, b) List.mem_cons_self
    simp only [Tbl.look, h1, if_false]
    exact ih fun e he => h e (List.mem_cons_of_mem _ he)

theorem look_append {α : Type} (d : α) (k : Nat) (l m : List (Nat × α)) :
    Tbl.look d k (l ++ m) = if ∃ e ∈ l, e.1 = k then Tbl.look d k l else Tbl.look d k m := by
  induction l with
  | nil => simp
  | cons e r ih =>
    obtain ⟨a, b⟩ := e
    by_cases h : a = k
    · simp [Tbl.look, h]
    · simp only [List.cons_append, Tbl.look, h, if_false, ih]
      have e : (∃ e ∈ (a, b) :: r, e.1 = k) ↔ ∃ e ∈ r, e.1 = k := by
        simp only [List.mem_cons]
        constructor
        · rintro ⟨e, rfl | he, hk⟩
          · exact absurd hk h
          · exact ⟨e, he, hk⟩
        · rintro ⟨e, he, hk⟩
          exact ⟨e, .inr he, hk⟩
      simp only [e]

theorem look_filter {α : Type} (d : α) (k : Nat) (p : Nat → Bool) (l : List (Nat × α)) :
    Tbl.look d k (l.filter fun e => p e.1) = if p k then Tbl.look d k l else d := by
  induction l with
  | nil => simp [Tbl.look]
  | cons e r ih =>
    obtain ⟨a, b⟩ := e
    by_cases hp : p a = true
    · rw [List.filter_cons_of_pos (by simpa using hp)]
      by_cases h : a = k
      · subst h; simp [Tbl.look, hp]
      · simp [Tbl.look, h, ih]
    · rw [List.filter_cons_of_neg (by simpa using hp), ih]
      by_cases h : a = k
      · subst h; simp [hp]
      · simp [Tbl.look, h]

/-- The entries that a run lists. -/
def runCells {α : Type} [DecidableEq α] (d : α) (lo n : Nat) (f : Nat → α) : List (Nat × α) :=
  (List.range n).filterMap fun k => let v := f (lo + k); if v = d then none else some (lo + k, v)

theorem mem_runCells {α : Type} [DecidableEq α] {d : α} {lo n : Nat} {f : Nat → α} {e : Nat × α} :
    e ∈ runCells d lo n f ↔ lo ≤ e.1 ∧ e.1 < lo + n ∧ e.2 = f e.1 ∧ e.2 ≠ d := by
  unfold runCells
  rw [List.mem_filterMap]
  constructor
  · rintro ⟨k, hk, h⟩
    rw [List.mem_range] at hk
    dsimp only at h
    split at h
    · exact absurd h (by simp)
    · next hv =>
      rw [Option.some.injEq] at h
      subst h
      exact ⟨by simp, by simpa using hk, rfl, hv⟩
  · rintro ⟨h1, h2, h3, h4⟩
    refine ⟨e.1 - lo, by rw [List.mem_range]; omega, ?_⟩
    rw [show lo + (e.1 - lo) = e.1 by omega]
    dsimp only
    rw [← h3, if_neg h4]

theorem runCells_sorted {α : Type} [DecidableEq α] (d : α) (lo n : Nat) (f : Nat → α) :
    (runCells d lo n f).Pairwise fun a b => a.1 < b.1 := by
  unfold runCells
  rw [List.pairwise_filterMap]
  refine List.Pairwise.imp ?_ List.pairwise_lt_range
  intro a b hab x hx y hy
  dsimp only at hx hy
  split at hx
  · exact absurd hx (by simp)
  · split at hy
    · exact absurd hy (by simp)
    · rw [Option.some.injEq] at hx hy
      subst hx
      subst hy
      exact Nat.add_lt_add_left hab lo

theorem look_of_mem {α : Type} (d : α) {l : List (Nat × α)} (h : l.Pairwise fun a b => a.1 < b.1) {e : Nat × α} (he : e ∈ l) :
    Tbl.look d e.1 l = e.2 := by
  induction l with
  | nil => simp at he
  | cons x r ih =>
    obtain ⟨a, b⟩ := x
    rw [List.pairwise_cons] at h
    rcases List.mem_cons.mp he with rfl | he
    · simp [Tbl.look]
    · have := h.1 e he
      simp only [Tbl.look, show ¬ a = e.1 by dsimp only at this; omega, if_false]
      exact ih h.2 he

/-- Inside the run a table reads what was written, outside it what it read before. -/
theorem get_fillTbl {α : Type} [DecidableEq α] (t : Tbl α) (d : α) (lo n : Nat) (f : Nat → α) (k : Nat) :
    (fillTbl t d lo n f).get d k = if lo ≤ k ∧ k < lo + n then f k else t.get d k := by
  show Tbl.look d k ((t.cells.filter fun e => e.1 < lo) ++ runCells d lo n f ++ t.cells.filter fun e => lo + n ≤ e.1) = _
  rw [look_append, look_append]
  have a := look_filter d k (fun x => decide (x < lo)) t.cells
  have b := look_filter d k (fun x => decide (lo + n ≤ x)) t.cells
  by_cases h : lo ≤ k ∧ k < lo + n
  · rw [if_pos h]
    have n1 : ¬ ∃ e ∈ t.cells.filter fun e => e.1 < lo, e.1 = k := by
      rintro ⟨e, he, rfl⟩
      simp only [List.mem_filter, decide_eq_true_eq] at he
      omega
    by_cases hv : f k = d
    · have n2 : ∀ e ∈ runCells d lo n f, e.1 ≠ k := by
        rintro e he rfl
        rw [mem_runCells] at he
        exact he.2.2.2 (he.2.2.1.trans hv)
      rw [if_neg, b, if_neg (by simp; omega), hv]
      rintro ⟨e, he, hk⟩
      rcases List.mem_append.mp he with he | he
      · exact n1 ⟨e, he, hk⟩
      · exact n2 e he hk
    · have m : (k, f k) ∈ runCells d lo n f := mem_runCells.mpr ⟨h.1, h.2, rfl, hv⟩
      rw [if_pos ⟨(k, f k), List.mem_append.mpr (.inr m), rfl⟩, if_neg n1]
      exact look_of_mem d (runCells_sorted d lo n f) m
  · rw [if_neg h]
    have n2 : ∀ e ∈ runCells d lo n f, e.1 ≠ k := by
      rintro e he rfl
      rw [mem_runCells] at he
      omega
    by_cases h1 : k < lo
    · by_cases hm : ∃ e ∈ t.cells.filter fun e => e.1 < lo, e.1 = k
      · obtain ⟨e, he, hk⟩ := hm
        rw [if_pos ⟨e, List.mem_append.mpr (.inl he), hk⟩, if_pos ⟨e, he, hk⟩, a, if_pos (by simpa using h1)]
        rfl
      · rw [if_neg, b, if_neg (by simp; omega)]
        · refine (look_of_not_mem d k t.cells fun e he hk => hm ⟨e, ?_, hk⟩).symm
          simp only [List.mem_filter, decide_eq_true_eq]
          exact ⟨he, by omega⟩
        · rintro ⟨e, he, hk⟩
          rcases List.mem_append.mp he with he | he
          · exact hm ⟨e, he, hk⟩
          · exact n2 e he hk
    · rw [if_neg, b, if_pos (by simp; omega)]
      · rfl
      · rintro ⟨e, he, hk⟩
        rcases List.mem_append.mp he with he | he
        · simp only [List.mem_filter, decide_eq_true_eq] at he
          omega
        · exact n2 e he hk

/-- Writing a run keeps the one form. -/
theorem wf_fillTbl {α : Type} [DecidableEq α] (t : Tbl α) (d : α) (lo n : Nat) (f : Nat → α) (h : t.wf d = true) :
    (fillTbl t d lo n f).wf d = true := by
  unfold Tbl.wf at *
  rw [Tbl.wf_go_iff] at *
  show (((t.cells.filter fun e => e.1 < lo) ++ runCells d lo n f ++ t.cells.filter fun e => lo + n ≤ e.1).Pairwise _) ∧
    ∀ e ∈ ((t.cells.filter fun e => e.1 < lo) ++ runCells d lo n f ++ t.cells.filter fun e => lo + n ≤ e.1), e.2 ≠ d
  refine ⟨?_, ?_⟩
  · rw [List.pairwise_append, List.pairwise_append]
    refine ⟨⟨h.1.filter _, runCells_sorted d lo n f, ?_⟩, h.1.filter _, ?_⟩
    · intro a ha b hb
      simp only [List.mem_filter, decide_eq_true_eq] at ha
      rw [mem_runCells] at hb
      omega
    · intro a ha b hb
      simp only [List.mem_filter, decide_eq_true_eq] at hb
      rcases List.mem_append.mp ha with ha | ha
      · simp only [List.mem_filter, decide_eq_true_eq] at ha
        omega
      · rw [mem_runCells] at ha
        omega
  · intro e he
    rcases List.mem_append.mp he with he | he
    · rcases List.mem_append.mp he with he | he
      · exact h.2 e (List.mem_filter.mp he).1
      · exact (mem_runCells.mp he).2.2.2
    · exact h.2 e (List.mem_filter.mp he).1

/-! ## Every memory operation keeps the one form -/

theorem hbmWrite_memWf (s : State) (a : Nat) (d : Line) (m : BitVec 64) (h : s.memWf = true) : (s.hbmWrite a d m).memWf = true := by
  simp only [State.memWf, Bool.and_eq_true] at *
  obtain ⟨⟨⟨h1, h2⟩, h3⟩, h4⟩ := h
  refine ⟨⟨⟨Tbl.wf_set _ _ _ _ h1, ?_⟩, h3⟩, h4⟩
  show (if m = fullMask then s.msl.hbmPoison.set false a false else s.msl.hbmPoison).wf false = true
  split
  · exact Tbl.wf_set _ _ _ _ h2
  · exact h2

/-- A masked hearth write sets the line and its check bits, and nothing else of the gates or the stacks. -/
theorem hearthPut_frame (s : State) (a : Nat) (l : Line) (kid : Nat) (w : BitVec 8) :
    ∃ v e, (s.hearthPut a l kid w).hth = { s.hth with store := s.hth.store.set 0 a v, ecc := s.hth.ecc.set 0 a e } ∧
      (s.hearthPut a l kid w).msl = s.msl := ⟨_, _, rfl, rfl⟩

theorem hearthPut_memWf (s : State) (a : Nat) (l : Line) (kid : Nat) (w : BitVec 8) (h : s.memWf = true) :
    (s.hearthPut a l kid w).memWf = true := by
  obtain ⟨v, e, h1, h2⟩ := hearthPut_frame s a l kid w
  simp only [State.memWf, Bool.and_eq_true, h1, h2] at *
  exact ⟨⟨h.1.1, Tbl.wf_set _ _ _ _ h.1.2⟩, Tbl.wf_set _ _ _ _ h.2⟩

/-- Slots of an arbiter change its counters alone. -/
theorem slots_frame (s : State) (a n : Nat) (bg : Bool) :
    (s.slots a n bg).msl = s.msl ∧ (s.slots a n bg).hth.store = s.hth.store ∧ (s.slots a n bg).hth.ecc = s.hth.ecc := by
  have h : (s.passSeats a n 0).msl = s.msl ∧ (s.passSeats a n 0).hth.store = s.hth.store ∧
      (s.passSeats a n 0).hth.ecc = s.hth.ecc := by
    unfold State.passSeats
    split <;> exact ⟨rfl, rfl, rfl⟩
  unfold State.slots
  cases bg <;> exact h

/-- So do the slots of each of a list of arbiters. -/
theorem foldl_slots_frame {α : Type} (l : List α) (s : State) (a n : State → α → Nat) :
    let t := l.foldl (fun s k => s.slots (a s k) (n s k) true) s
    t.msl = s.msl ∧ t.hth.store = s.hth.store ∧ t.hth.ecc = s.hth.ecc := by
  induction l generalizing s with
  | nil => exact ⟨rfl, rfl, rfl⟩
  | cons k l ih =>
    have h1 := slots_frame s (a s k) (n s k) true
    have h2 := ih (s.slots (a s k) (n s k) true)
    exact ⟨h2.1.trans h1.1, h2.2.1.trans h1.2.1, h2.2.2.trans h1.2.2⟩

/-- The slots of a zero-fill leave the stored memories as they are. -/
theorem fillSlots_frame (s : State) (r : Region) (u : Nat) :
    (s.fillSlots r u).msl = s.msl ∧ (s.fillSlots r u).hth.store = s.hth.store ∧ (s.fillSlots r u).hth.ecc = s.hth.ecc := by
  unfold State.fillSlots State.forEach
  generalize List.range 512 = l
  exact foldl_slots_frame l s (fun s k => s.arbiter r.stack (r.stackPage (512 * u + k))) fun _ _ => 64

/-- What a teardown's zero-fill of 2 MiB leaves: one run of lines and of poison written, every other line as it was. -/
theorem zeroRegion_frame (s : State) (r u : Nat) :
    (s.zeroRegion r u).msl.hbm = fillTbl s.msl.hbm 0 ((s.rgn r).line0 + u * 32768) 32768 (fun _ => 0) ∧
    (s.zeroRegion r u).msl.hbmPoison = fillTbl s.msl.hbmPoison false ((s.rgn r).line0 + u * 32768) 32768 (fun _ => false) ∧
    (s.zeroRegion r u).hth.store = s.hth.store ∧ (s.zeroRegion r u).hth.ecc = s.hth.ecc := by
  unfold State.zeroRegion
  obtain ⟨h1, h2, h3⟩ := fillSlots_frame (s.rawZeros ((s.rgn r).line0 + u * 32768)) (s.rgn r) u
  rw [h1, h2, h3]
  exact ⟨rfl, rfl, rfl, rfl⟩

theorem zeroRegion_memWf (s : State) (r u : Nat) (h : s.memWf = true) : (s.zeroRegion r u).memWf = true := by
  obtain ⟨h1, h2, h3, h4⟩ := zeroRegion_frame s r u
  simp only [State.memWf, Bool.and_eq_true, h1, h2, h3, h4] at *
  exact ⟨⟨⟨wf_fillTbl _ _ _ _ _ h.1.1.1, wf_fillTbl _ _ _ _ _ h.1.1.2⟩, h.1.2⟩, h.2⟩

/-- What a line of a range holds once it is zeroed under a KID. -/
def zeroForm (s : State) (kid mode a : Nat) : Line := if mode = 2 then (s.hearthForm a kid 0).getD 0 else 0

/-- A zero-fill of the hearth writes one run of lines and of check bits, and nothing else of either memory. -/
theorem hearthZero_frame (s : State) (lo n kid mode : Nat) :
    (s.hearthZero lo n kid mode).hth.store = fillTbl s.hth.store 0 lo n (zeroForm s kid mode) ∧
    (s.hearthZero lo n kid mode).hth.ecc = fillTbl s.hth.ecc 0 lo n (fun a => lineEcc (zeroForm s kid mode a) kid) ∧
    (s.hearthZero lo n kid mode).msl = s.msl := by
  unfold State.hearthZero
  generalize gateArbs = l
  obtain ⟨h1, h2, h3⟩ := foldl_slots_frame l s (fun _ a => a) fun _ _ => n / 8
  dsimp only at h1 h2 h3 ⊢
  rw [h1, h2, h3]
  exact ⟨rfl, rfl, rfl⟩

theorem hearthZero_memWf (s : State) (lo n kid mode : Nat) (h : s.memWf = true) : (s.hearthZero lo n kid mode).memWf = true := by
  obtain ⟨h1, h2, h3⟩ := hearthZero_frame s lo n kid mode
  simp only [State.memWf, Bool.and_eq_true, h1, h2, h3] at *
  exact ⟨⟨h.1.1, wf_fillTbl _ _ _ _ _ h.1.2⟩, wf_fillTbl _ _ _ _ _ h.2⟩

end Sys2Proof.Machine
end

