-- ==== Sys2Proof/Laws/Ops.lean ====
section
/-! SUPPORT. Everything the commonest shared operations can do: records, bridge messages, slots, and the end of a command. -/

namespace Sys2Proof.Machine
open Sys2Proof

/-! ## Records -/

/-- A numbered record changes the recorder and the list of unacknowledged records only. -/
theorem number_frame (s : State) (code source : Nat) (pl : BitVec 128) :
    ∃ r u, s.number code source pl = { s with rcd := r, dom := { s.dom with unacked := u } } := by
  unfold State.number
  dsimp only
  by_cases h : recDrivesPin code pl = true
  · rw [if_pos h]; exact ⟨_, _, rfl⟩
  · rw [if_neg h]; exact ⟨_, s.dom.unacked, rfl⟩

theorem flushDrops_frame (s : State) (code : Nat) :
    ∃ r u, s.flushDrops code = { s with rcd := r, dom := { s.dom with unacked := u } } := by
  unfold State.flushDrops
  dsimp only
  split
  · exact ⟨s.rcd, s.dom.unacked, rfl⟩
  · obtain ⟨r, u, e⟩ := number_frame s 0x02 srcStoker (payload [(2, code), (2, 0), (4, (s.bucket code).drops), (5, (s.bucket code).firstSec.toNat)])
    rw [e]
    exact ⟨_, u, rfl⟩

/-- Raising a record changes the recorder and the list of unacknowledged records only. -/
theorem record_frame (s : State) (code source : Nat) (fs : List (Nat × Nat)) :
    ∃ r u, s.record code source fs = { s with rcd := r, dom := { s.dom with unacked := u } } := by
  unfold State.record State.admitRec
  split
  · split
    · exact number_frame s code source _
    · dsimp only
      split
      · obtain ⟨r, u, e⟩ := flushDrops_frame (s.setBucket code (((s.bucket code).refill s.rcd.rate s.now).take s.now)) code
        rw [e]
        obtain ⟨r', u', e'⟩ := number_frame
          { s.setBucket code (((s.bucket code).refill s.rcd.rate s.now).take s.now) with
            rcd := r, dom := { (s.setBucket code (((s.bucket code).refill s.rcd.rate s.now).take s.now)).dom with unacked := u } }
          code source (payload fs)
        rw [e']
        exact ⟨r', u', rfl⟩
      · exact ⟨_, s.dom.unacked, rfl⟩
  · exact ⟨_, s.dom.unacked, rfl⟩

@[simp] theorem record_pending (s : State) (c o : Nat) (fs : List (Nat × Nat)) : (s.record c o fs).pending = s.pending := by
  obtain ⟨r, u, e⟩ := record_frame s c o fs; rw [e]
@[simp] theorem record_out (s : State) (c o : Nat) (fs : List (Nat × Nat)) : (s.record c o fs).out = s.out := by
  obtain ⟨r, u, e⟩ := record_frame s c o fs; rw [e]
@[simp] theorem record_sys (s : State) (c o : Nat) (fs : List (Nat × Nat)) : (s.record c o fs).sys = s.sys := by
  obtain ⟨r, u, e⟩ := record_frame s c o fs; rw [e]
@[simp] theorem record_fbx (s : State) (c o : Nat) (fs : List (Nat × Nat)) : (s.record c o fs).fbx = s.fbx := by
  obtain ⟨r, u, e⟩ := record_frame s c o fs; rw [e]
@[simp] theorem record_qm (s : State) (c o : Nat) (fs : List (Nat × Nat)) : (s.record c o fs).qm = s.qm := by
  obtain ⟨r, u, e⟩ := record_frame s c o fs; rw [e]
@[simp] theorem record_msl (s : State) (c o : Nat) (fs : List (Nat × Nat)) : (s.record c o fs).msl = s.msl := by
  obtain ⟨r, u, e⟩ := record_frame s c o fs; rw [e]
@[simp] theorem record_hth (s : State) (c o : Nat) (fs : List (Nat × Nat)) : (s.record c o fs).hth = s.hth := by
  obtain ⟨r, u, e⟩ := record_frame s c o fs; rw [e]
@[simp] theorem record_lnk (s : State) (c o : Nat) (fs : List (Nat × Nat)) : (s.record c o fs).lnk = s.lnk := by
  obtain ⟨r, u, e⟩ := record_frame s c o fs; rw [e]
@[simp] theorem record_fab (s : State) (c o : Nat) (fs : List (Nat × Nat)) : (s.record c o fs).fab = s.fab := by
  obtain ⟨r, u, e⟩ := record_frame s c o fs; rw [e]
@[simp] theorem record_col (s : State) (c o : Nat) (fs : List (Nat × Nat)) : (s.record c o fs).col = s.col := by
  obtain ⟨r, u, e⟩ := record_frame s c o fs; rw [e]
@[simp] theorem record_syn (s : State) (c o : Nat) (fs : List (Nat × Nat)) : (s.record c o fs).syn = s.syn := by
  obtain ⟨r, u, e⟩ := record_frame s c o fs; rw [e]
@[simp] theorem record_hst (s : State) (c o : Nat) (fs : List (Nat × Nat)) : (s.record c o fs).hst = s.hst := by
  obtain ⟨r, u, e⟩ := record_frame s c o fs; rw [e]
@[simp] theorem record_ce (s : State) (c o : Nat) (fs : List (Nat × Nat)) : (s.record c o fs).ce = s.ce := by
  obtain ⟨r, u, e⟩ := record_frame s c o fs; rw [e]
@[simp] theorem record_tel (s : State) (c o : Nat) (fs : List (Nat × Nat)) : (s.record c o fs).tel = s.tel := by
  obtain ⟨r, u, e⟩ := record_frame s c o fs; rw [e]
@[simp] theorem record_rst (s : State) (c o : Nat) (fs : List (Nat × Nat)) : (s.record c o fs).rst = s.rst := by
  obtain ⟨r, u, e⟩ := record_frame s c o fs; rw [e]
@[simp] theorem record_lc (s : State) (c o : Nat) (fs : List (Nat × Nat)) : (s.record c o fs).lc = s.lc := by
  obtain ⟨r, u, e⟩ := record_frame s c o fs; rw [e]
@[simp] theorem record_pwr (s : State) (c o : Nat) (fs : List (Nat × Nat)) : (s.record c o fs).pwr = s.pwr := by
  obtain ⟨r, u, e⟩ := record_frame s c o fs; rw [e]
@[simp] theorem record_boot (s : State) (c o : Nat) (fs : List (Nat × Nat)) : (s.record c o fs).boot = s.boot := by
  obtain ⟨r, u, e⟩ := record_frame s c o fs; rw [e]
@[simp] theorem record_slots (s : State) (c o : Nat) (fs : List (Nat × Nat)) : (s.record c o fs).dom.slots = s.dom.slots := by
  obtain ⟨r, u, e⟩ := record_frame s c o fs; rw [e]
@[simp] theorem record_slot (s : State) (c o i : Nat) (fs : List (Nat × Nat)) : (s.record c o fs).slot i = s.slot i := by
  simp [State.slot]

/-! ## Slots -/

@[simp] theorem slot_setSlot_same (s : State) (i : Nat) (v : Slot) : (s.setSlot i v).slot i = v := by
  simp [State.slot, State.setSlot]

theorem slot_setSlot_other (s : State) {i j : Nat} (v : Slot) (h : j ≠ i) : (s.setSlot i v).slot j = s.slot j := by
  simp [State.slot, State.setSlot, Tbl.get_set_other _ _ _ h]

/-- A move of a slot changes that slot's state and cause, and writes a record. -/
theorem moveSlot_frame (s : State) (i : Nat) (st : SlotState) (cause : SlotCause) :
    ∃ r u, s.moveSlot i st cause =
      { s with rcd := r, dom := { s.dom with unacked := u, slots := s.dom.slots.set {} i { s.slot i with state := st, cause } } } := by
  unfold State.moveSlot
  dsimp only
  obtain ⟨r, u, e⟩ := record_frame (s.setSlot i { s.slot i with state := st, cause }) 0x40 srcStoker
    [(1, i), (1, (s.slot i).state.code), (1, st.code), (1, cause.code)]
  rw [e]
  exact ⟨r, u, rfl⟩

/-! ## Signatures -/

/-- A signature draws at most one free value. -/
theorem sign_frame (s : State) (id : CellId) (m : List Byte) : ∃ n, (s.sign id m).2 = { s with sys := { s.sys with freeCtr := n } } := by
  unfold State.sign
  split <;> exact ⟨_, rfl⟩

@[simp] theorem sign_dom (s : State) (id : CellId) (m : List Byte) : (s.sign id m).2.dom = s.dom := by
  obtain ⟨n, e⟩ := sign_frame s id m; rw [e]

/-! ## Bridge messages -/

theorem forEach_toPeer (l : List Nat) (s : State) (kind : Nat) (vals : List Nat) :
    s.forEach l (fun s h => s.toPeer h kind vals) =
      { s with out := (l.map fun h => Out.brCtl h kind vals).reverse ++ s.out } := by
  induction l generalizing s with
  | nil => rfl
  | cons h r ih =>
    simp only [State.forEach, List.foldl_cons] at ih ⊢
    rw [ih]
    simp [State.toPeer, State.emit]

/-- A message to every other present die is one transfer each. -/
theorem toPeers_eq (s : State) (kind : Nat) (vals : List Nat) :
    s.toPeers kind vals = { s with out := (s.peers.map fun h => Out.brCtl h kind vals).reverse ++ s.out } :=
  forEach_toPeer s.peers s kind vals

/-! ## Commands of a queue -/

theorem slice_setSlice_same (s : State) (i : Nat) (v : Slice) : (s.setSlice i v).slice i = v := by
  simp [State.slice, State.setSlice]

theorem queue_setQueue_same (s : State) (i q : Nat) (v : Queue) : (s.setQueue i q v).queue i q = v := by
  simp [State.queue, State.setQueue, State.modSlice, slice_setSlice_same]

theorem slice_setSlice_other (s : State) {i j : Nat} (v : Slice) (h : j ≠ i) : (s.setSlice i v).slice j = s.slice j := by
  simp [State.slice, State.setSlice, Tbl.get_set_other _ _ _ h]

theorem obj_setObj_same (s : State) (i e : Nat) (o : ObjEntry) : (s.setObj i e o).obj i e = o := by
  simp [State.obj, State.setObj, State.modSlice, slice_setSlice_same]

theorem cmd_setObj (s : State) (i e q seq : Nat) (o : ObjEntry) : (s.setObj i e o).cmd? i q seq = s.cmd? i q seq := by
  simp [State.cmd?, State.queue, State.setObj, State.modSlice, slice_setSlice_same]

theorem obj_modCmd (s : State) (i q seq j e : Nat) (f : Cmd → Cmd) : (s.modCmd i q seq f).obj j e = s.obj j e := by
  unfold State.modCmd State.modQueue State.setQueue State.modSlice State.obj
  by_cases h : j = i
  · subst h; rw [slice_setSlice_same]
  · rw [slice_setSlice_other _ _ h]

/-- Everything outside the queue manager is as it was. -/
theorem modCmd_frame (s : State) (i q seq : Nat) (f : Cmd → Cmd) :
    s.modCmd i q seq f = { s with qm := (s.modCmd i q seq f).qm } := rfl

theorem works_cmd {s : State} {i q seq op : Nat} {c : Cmd} (h : s.works i q seq op c = true) :
    s.cmd? i q seq = some c ∧ c.runs = true := by
  simp only [State.works, Bool.and_eq_true, decide_eq_true_eq] at h
  exact ⟨h.1.1.1.1, h.1.1.2⟩

theorem find_map_seq (l : List Cmd) (seq : Nat) (f : Cmd → Cmd) (hf : ∀ c, (f c).seq = c.seq) :
    (l.map fun c => if c.seq = seq then f c else c).find? (fun c => c.seq = seq) = (l.find? fun c => c.seq = seq).map f := by
  induction l with
  | nil => rfl
  | cons c r ih =>
    by_cases h : c.seq = seq
    · simp [h, hf]
    · simp [h, ih]

/-- Changing a command changes what its sequence number finds. -/
theorem modCmd_cmd (s : State) (i q seq : Nat) (f : Cmd → Cmd) (hf : ∀ c, (f c).seq = c.seq) :
    (s.modCmd i q seq f).cmd? i q seq = (s.cmd? i q seq).map f := by
  unfold State.modCmd State.modQueue State.cmd?
  rw [queue_setQueue_same]
  exact find_map_seq _ seq f hf

theorem flag_seq (c : Cmd) (d : Nat) : (c.flag d).seq = c.seq := by
  unfold Cmd.flag
  repeat (first | rfl | split)

theorem finishOk_seq (c : Cmd) (d : Nat) (r : BitVec 64) : (c.finishOk d r).seq = c.seq := by
  unfold Cmd.finishOk
  dsimp only
  split
  · rw [flag_seq]
  · rfl

theorem fmtEnd_seq (c : Cmd) : c.fmtEnd.seq = c.seq := by
  unfold Cmd.fmtEnd
  dsimp only
  split
  · rfl
  · split
    · rw [flag_seq, finishOk_seq]
    · rw [finishOk_seq]

/-- A command that ends well is finished with its count and result. -/
theorem endCmd_cmd {s : State} {i q seq : Nat} {c : Cmd} (h : s.cmd? i q seq = some c) (hr : c.runs = true) (d : Nat) (r : BitVec 64) :
    (s.endCmd i q seq d r).cmd? i q seq = some (c.finishOk d r) := by
  unfold State.endCmd
  rw [modCmd_cmd, h]
  · simp [hr]
  · intro c
    split
    · exact finishOk_seq c d r
    · rfl

/-- A command that fails is finished with its status and detail. -/
theorem failCmd_cmd {s : State} {i q seq : Nat} {c : Cmd} (h : s.cmd? i q seq = some c) (hr : c.runs = true) (st dt d : Nat) :
    (s.failCmd i q seq st dt d).cmd? i q seq = some { c.finish st dt with done := d } := by
  unfold State.failCmd
  rw [modCmd_cmd, h]
  · simp [hr]
  · intro c
    split <;> rfl

end Sys2Proof.Machine
end

