-- ==== Sys2Proof/Laws/Reset.lean ====
section
/-! SUPPORT. What the assertion of a cold level leaves. -/

namespace Sys2Proof.Machine
open Sys2Proof

/-- Records that links have moved leave everything but the recorder and what a record raises beside itself. -/
theorem linkMoves_frame (l : List (Nat × Link)) (s : State) (f : State → Nat × Link → State)
    (hf : ∀ s e, f s e = if e.2.state = (s.link e.1).state then s else s.linkMoved e.1 e.2.state) :
    (l.foldl f s).rst = s.rst ∧ (l.foldl f s).dom.slots = s.dom.slots ∧ (l.foldl f s).fbx = s.fbx ∧ (l.foldl f s).qm = s.qm ∧
    (l.foldl f s).msl = s.msl ∧ (l.foldl f s).hth = s.hth ∧ (l.foldl f s).col = s.col ∧ (l.foldl f s).syn = s.syn ∧ (l.foldl f s).fab = s.fab ∧ (l.foldl f s).ce = s.ce := by
  induction l generalizing s with
  | nil => simp
  | cons e l ih =>
    obtain ⟨h0, h1, h2, h3, h4, h5, h6, h7, h8, h9⟩ := ih (f s e)
    simp only [List.foldl_cons, h0, h1, h2, h3, h4, h5, h6, h7, h8, h9]
    rw [hf]
    split <;> simp [State.linkMoved]

@[simp] theorem clearLnk_rst (s : State) (l : Level) : (s.clearLnk l).rst = s.rst :=
  (linkMoves_frame _ _ _ fun _ _ => rfl).1
@[simp] theorem clearLnk_dom_slots (s : State) (l : Level) : (s.clearLnk l).dom.slots = s.dom.slots :=
  (linkMoves_frame _ _ _ fun _ _ => rfl).2.1
@[simp] theorem clearLnk_fbx (s : State) (l : Level) : (s.clearLnk l).fbx = s.fbx :=
  (linkMoves_frame _ _ _ fun _ _ => rfl).2.2.1
@[simp] theorem clearLnk_qm (s : State) (l : Level) : (s.clearLnk l).qm = s.qm :=
  (linkMoves_frame _ _ _ fun _ _ => rfl).2.2.2.1
@[simp] theorem clearLnk_msl (s : State) (l : Level) : (s.clearLnk l).msl = s.msl :=
  (linkMoves_frame _ _ _ fun _ _ => rfl).2.2.2.2.1
@[simp] theorem clearLnk_hth (s : State) (l : Level) : (s.clearLnk l).hth = s.hth :=
  (linkMoves_frame _ _ _ fun _ _ => rfl).2.2.2.2.2.1
@[simp] theorem clearLnk_col (s : State) (l : Level) : (s.clearLnk l).col = s.col :=
  (linkMoves_frame _ _ _ fun _ _ => rfl).2.2.2.2.2.2.1
@[simp] theorem clearLnk_syn (s : State) (l : Level) : (s.clearLnk l).syn = s.syn :=
  (linkMoves_frame _ _ _ fun _ _ => rfl).2.2.2.2.2.2.2.1
@[simp] theorem clearLnk_fab (s : State) (l : Level) : (s.clearLnk l).fab = s.fab :=
  (linkMoves_frame _ _ _ fun _ _ => rfl).2.2.2.2.2.2.2.2.1
@[simp] theorem clearLnk_ce (s : State) (l : Level) : (s.clearLnk l).ce = s.ce :=
  (linkMoves_frame _ _ _ fun _ _ => rfl).2.2.2.2.2.2.2.2.2

/-- After PORST or SYSRST every unit is held and nothing of the domains, keys, regions, plans and windows is left (R468). -/
theorem assertLevel_cold {s : State} (h : s.rst.level.cold = true) :
    s.assertLevel.rst.phase = .held ∧ s.assertLevel.rst.step = 0 ∧ s.assertLevel.dom.slots = {} ∧ s.assertLevel.fbx.cells = [] ∧
    s.assertLevel.fbx.kids = {} ∧ s.assertLevel.fbx.roots = {} ∧ s.assertLevel.qm.slices = {} ∧ s.assertLevel.msl.rgns = {} ∧
    s.assertLevel.msl.ready = false ∧ s.assertLevel.hth.rngs = {} ∧ s.assertLevel.col.plans = {} ∧ s.assertLevel.syn.objs = {} ∧
    s.assertLevel.fab.wins = {} ∧ s.assertLevel.ce.pages = {} := by
  cases hl : s.rst.level <;> simp [hl, Level.cold] at h <;>
    simp [State.assertLevel, hl, State.clearRst, State.clearSys, State.clearBoot, State.clearPwr, State.clearLc, State.clearRcd,
      State.recReset, State.clearHst, State.clearHth, State.clearMsl, State.clearFbx, State.clearDom,
      State.clearSyn, State.clearQm, State.clearFab, State.clearCol, Level.cold]

/-- Sampling the fuses leaves the reset controller as it is. -/
theorem sampleFuses_rst (s : State) : s.sampleFuses.rst = s.rst := by
  have h : ∀ (l : List Nat) (x : State), (x.forEach l fun s p => { s with sys := { s.sys with pd := s.sys.pd.set .on p .off } }).rst = x.rst := by
    intro l
    unfold State.forEach
    induction l with
    | nil => intro x; rfl
    | cons a l ih => intro x; rw [List.foldl_cons, ih]
  exact h _ _

/-- A source whose reset takes over what runs now (R456). -/
theorem beginReset_takes {s : State} {src : Source} {l : Level} {dump : Bool}
    (h : s.rst.phase = .ready ∨ s.rst.phase = .fencing ∧ src.fenced = false ∧ s.rst.level.rank ≤ (s.levelFor src l).rank ∨
      s.rst.level.rank < (s.levelFor src l).rank) :
    s.beginReset src l dump = (s.noteSource src).runReset src (s.levelFor src l) dump := by
  unfold State.beginReset
  rw [if_pos]
  rcases h with h | ⟨h, h1, h2⟩ | h <;> simp [State.noteSource, h]
  simp [h1, h2]

/-- A source that does not rank above what runs leaves its bit only (R456). -/
theorem beginReset_ignored {s : State} {src : Source} {l : Level} {dump : Bool} (h : s.rst.phase ≠ .ready)
    (hr : (s.levelFor src l).rank ≤ s.rst.level.rank)
    (hf : s.rst.phase ≠ .fencing ∨ src.fenced = true ∨ (s.levelFor src l).rank < s.rst.level.rank) :
    s.beginReset src l dump = s.noteSource src := by
  have hn : (s.noteSource src).rst.phase = s.rst.phase := rfl
  have hm : (s.noteSource src).rst.level = s.rst.level := rfl
  unfold State.beginReset
  rw [if_neg]
  simp only [Bool.or_eq_true, Bool.and_eq_true, decide_eq_true_eq, Bool.not_eq_true', not_or, not_and]
  rw [hn, hm]
  refine ⟨⟨h, ?_⟩, by omega⟩
  rintro ⟨hp, hs⟩
  rcases hf with hf | hf | hf
  · exact absurd hp hf
  · simp [hf] at hs
  · omega

/-- An unfenced source asserts its level at once. -/
theorem runReset_unfenced {s : State} {src : Source} {l : Level} {dump : Bool} (h : src.fenced = false) :
    s.runReset src l dump = State.assertLevel { s with
      rst := { s.rst with source := src, level := l, wantDump := dump, escalated := s.rst.escalated } } := by
  simp [State.runReset, h]

/-- A fenced source that arises while no reset runs begins the fence of its level. -/
theorem beginReset_ready {s : State} {src : Source} {l : Level} {dump : Bool} (h : s.rst.phase = .ready) (hf : src.fenced = true) :
    s.beginReset src l dump = State.fenceBegin { s.noteSource src with
      rst := { (s.noteSource src).rst with source := src, level := s.levelFor src l, wantDump := dump, escalated := false } } := by
  rw [beginReset_takes (.inl h), State.runReset]
  have hp : (s.noteSource src).rst.phase = .ready := h
  simp [hf, hp]

end Sys2Proof.Machine
end

