-- ==== Sys2Proof/Laws/Slots.lean ====
section
/-! SUPPORT. What the operations on domain slots leave in a slot. -/

namespace Sys2Proof.Machine
open Sys2Proof

theorem forEach_slot {s : State} {l : List Nat} {f : State → Nat → State} {j : Nat} {P : Slot → Prop}
    (h : ∀ t k, P (t.slot j) → P ((f t k).slot j)) (hs : P (s.slot j)) : P ((s.forEach l f).slot j) := by
  induction l generalizing s with
  | nil => exact hs
  | cons k r ih => exact ih (h s k hs)

/-- Noting session-tag conflicts changes only that mark of a slot. -/
theorem noteConflicts_slot (s : State) (j : Nat) : ∃ b, s.noteConflicts.slot j = { s.slot j with tagConflict := b } := by
  unfold State.noteConflicts
  refine forEach_slot (P := fun p => ∃ b, p = { s.slot j with tagConflict := b }) (fun t k ⟨b, hb⟩ => ?_) ⟨_, rfl⟩
  dsimp only
  split
  · split
    · rw [record_slot]
      by_cases h : j = k
      · subst h
        rw [slot_setSlot_same, hb]
        exact ⟨true, rfl⟩
      · rw [slot_setSlot_other _ _ h]
        exact ⟨b, hb⟩
    · exact ⟨b, hb⟩
  · exact ⟨b, hb⟩

/-- An opened slot (R47, R48). -/
theorem openSlot_slot (s : State) (i : Nat) (id : BitVec 64) (p : BitVec 32) :
    ∃ b, (s.openSlot i id p).slot i = { domainId := id, profile := if p = 0 then defaultProfile else p, state := .admitting
                                        cause := .domOpen, deadline := s.now + 30 * sec, tagConflict := b } := by
  unfold State.openSlot
  dsimp only
  obtain ⟨b, hb⟩ := noteConflicts_slot (State.moveSlot (s.setSlot i { domainId := id, profile := if p = 0 then defaultProfile else p
                                                                      deadline := s.now + 30 * sec }) i .admitting .domOpen) i
  refine ⟨b, hb.trans ?_⟩
  unfold State.moveSlot
  simp

@[simp] theorem answer_slot (s : State) (r : DomResult) (v : List Nat) (i : Nat) : (s.answer r v).slot i = s.slot i := rfl
@[simp] theorem emit_slot (s : State) (o : Out) (i : Nat) : (s.emit o).slot i = s.slot i := rfl
@[simp] theorem toPeers_slot (s : State) (k : Nat) (v : List Nat) (i : Nat) : (s.toPeers k v).slot i = s.slot i := by
  rw [toPeers_eq]; rfl

/-- An activated slot is `LIVE`, and its lease runs (R51, R56). -/
theorem activateSlot_slot (s : State) (i : Nat) :
    (s.activateSlot i).slot i = { s.slot i with state := .live, cause := .activate
                                                leaseEnd := s.now + (s.slot i).leaseSecs * sec } := by
  unfold State.activateSlot State.modSlot State.moveSlot
  simp only [slot_setSlot_same, record_slot]
  rfl

theorem activateSlot_frame (s : State) (i : Nat) :
    ∃ r u p, s.activateSlot i = { s with rcd := r, dom := { s.dom with unacked := u, slots := p } } := by
  obtain ⟨r, u, e⟩ := moveSlot_frame s i .live .activate
  unfold State.activateSlot
  rw [e]
  exact ⟨_, _, _, rfl⟩

@[simp] theorem activateSlot_peers (s : State) (i : Nat) : (s.activateSlot i).peers = s.peers := by
  obtain ⟨_, _, _, e⟩ := activateSlot_frame s i
  rw [e]; rfl

@[simp] theorem activateSlot_now (s : State) (i : Nat) : (s.activateSlot i).now = s.now := by
  obtain ⟨_, _, _, e⟩ := activateSlot_frame s i
  rw [e]; rfl

@[simp] theorem toPeers_peers (s : State) (k : Nat) (v : List Nat) : (s.toPeers k v).peers = s.peers := by
  rw [toPeers_eq]; rfl

@[simp] theorem toPeers_now (s : State) (k : Nat) (v : List Nat) : (s.toPeers k v).now = s.now := by
  rw [toPeers_eq]; rfl

/-- A slot whose secret has been loaded, whoever still has to confirm it (R54, R55). -/
theorem loadSecret_slot (s : State) (i kind : Nat) (x : List Byte) :
    (((s.loadSecret i x).awaitPeers i kind).slot i).hasSecret = true ∧ (((s.loadSecret i x).awaitPeers i kind).slot i).epoch = 0 := by
  unfold State.loadSecret State.awaitPeers
  dsimp only
  split <;> simp [State.modSlot]

/-- A moved slot. -/
theorem moveSlot_slot (s : State) (i : Nat) (st : SlotState) (c : SlotCause) :
    (s.moveSlot i st c).slot i = { s.slot i with state := st, cause := c } := by
  unfold State.moveSlot
  simp

end Sys2Proof.Machine
end

