-- ==== Sys2Proof/Laws/State.lean ====
section
/-! SUPPORT. What each update of one table entry leaves of State: one lemma per field per update, each true by `rfl`, so that no
later proof unfolds a record update. The read of an entry just written is in Laws/Ops.lean. -/

namespace Sys2Proof.Machine
open Sys2Proof

/-! ## `setSlot` -/

@[simp] theorem State.setSlot_pending (s : State) (i : Nat) (v : Slot) : (s.setSlot i v).pending = s.pending := rfl
@[simp] theorem State.setSlot_out (s : State) (i : Nat) (v : Slot) : (s.setSlot i v).out = s.out := rfl
@[simp] theorem State.setSlot_sys (s : State) (i : Nat) (v : Slot) : (s.setSlot i v).sys = s.sys := rfl
@[simp] theorem State.setSlot_fbx (s : State) (i : Nat) (v : Slot) : (s.setSlot i v).fbx = s.fbx := rfl
@[simp] theorem State.setSlot_qm (s : State) (i : Nat) (v : Slot) : (s.setSlot i v).qm = s.qm := rfl
@[simp] theorem State.setSlot_msl (s : State) (i : Nat) (v : Slot) : (s.setSlot i v).msl = s.msl := rfl
@[simp] theorem State.setSlot_hth (s : State) (i : Nat) (v : Slot) : (s.setSlot i v).hth = s.hth := rfl
@[simp] theorem State.setSlot_lnk (s : State) (i : Nat) (v : Slot) : (s.setSlot i v).lnk = s.lnk := rfl
@[simp] theorem State.setSlot_fab (s : State) (i : Nat) (v : Slot) : (s.setSlot i v).fab = s.fab := rfl
@[simp] theorem State.setSlot_col (s : State) (i : Nat) (v : Slot) : (s.setSlot i v).col = s.col := rfl
@[simp] theorem State.setSlot_syn (s : State) (i : Nat) (v : Slot) : (s.setSlot i v).syn = s.syn := rfl
@[simp] theorem State.setSlot_hst (s : State) (i : Nat) (v : Slot) : (s.setSlot i v).hst = s.hst := rfl
@[simp] theorem State.setSlot_ce (s : State) (i : Nat) (v : Slot) : (s.setSlot i v).ce = s.ce := rfl
@[simp] theorem State.setSlot_tel (s : State) (i : Nat) (v : Slot) : (s.setSlot i v).tel = s.tel := rfl
@[simp] theorem State.setSlot_rcd (s : State) (i : Nat) (v : Slot) : (s.setSlot i v).rcd = s.rcd := rfl
@[simp] theorem State.setSlot_rst (s : State) (i : Nat) (v : Slot) : (s.setSlot i v).rst = s.rst := rfl
@[simp] theorem State.setSlot_lc (s : State) (i : Nat) (v : Slot) : (s.setSlot i v).lc = s.lc := rfl
@[simp] theorem State.setSlot_pwr (s : State) (i : Nat) (v : Slot) : (s.setSlot i v).pwr = s.pwr := rfl
@[simp] theorem State.setSlot_boot (s : State) (i : Nat) (v : Slot) : (s.setSlot i v).boot = s.boot := rfl
@[simp] theorem State.setSlot_dom (s : State) (i : Nat) (v : Slot) :
    (s.setSlot i v).dom = { s.dom with slots := s.dom.slots.set {} i v } := rfl

/-! ## `setSlice` -/

@[simp] theorem State.setSlice_pending (s : State) (i : Nat) (v : Slice) : (s.setSlice i v).pending = s.pending := rfl
@[simp] theorem State.setSlice_out (s : State) (i : Nat) (v : Slice) : (s.setSlice i v).out = s.out := rfl
@[simp] theorem State.setSlice_sys (s : State) (i : Nat) (v : Slice) : (s.setSlice i v).sys = s.sys := rfl
@[simp] theorem State.setSlice_dom (s : State) (i : Nat) (v : Slice) : (s.setSlice i v).dom = s.dom := rfl
@[simp] theorem State.setSlice_fbx (s : State) (i : Nat) (v : Slice) : (s.setSlice i v).fbx = s.fbx := rfl
@[simp] theorem State.setSlice_msl (s : State) (i : Nat) (v : Slice) : (s.setSlice i v).msl = s.msl := rfl
@[simp] theorem State.setSlice_hth (s : State) (i : Nat) (v : Slice) : (s.setSlice i v).hth = s.hth := rfl
@[simp] theorem State.setSlice_lnk (s : State) (i : Nat) (v : Slice) : (s.setSlice i v).lnk = s.lnk := rfl
@[simp] theorem State.setSlice_fab (s : State) (i : Nat) (v : Slice) : (s.setSlice i v).fab = s.fab := rfl
@[simp] theorem State.setSlice_col (s : State) (i : Nat) (v : Slice) : (s.setSlice i v).col = s.col := rfl
@[simp] theorem State.setSlice_syn (s : State) (i : Nat) (v : Slice) : (s.setSlice i v).syn = s.syn := rfl
@[simp] theorem State.setSlice_hst (s : State) (i : Nat) (v : Slice) : (s.setSlice i v).hst = s.hst := rfl
@[simp] theorem State.setSlice_ce (s : State) (i : Nat) (v : Slice) : (s.setSlice i v).ce = s.ce := rfl
@[simp] theorem State.setSlice_tel (s : State) (i : Nat) (v : Slice) : (s.setSlice i v).tel = s.tel := rfl
@[simp] theorem State.setSlice_rcd (s : State) (i : Nat) (v : Slice) : (s.setSlice i v).rcd = s.rcd := rfl
@[simp] theorem State.setSlice_rst (s : State) (i : Nat) (v : Slice) : (s.setSlice i v).rst = s.rst := rfl
@[simp] theorem State.setSlice_lc (s : State) (i : Nat) (v : Slice) : (s.setSlice i v).lc = s.lc := rfl
@[simp] theorem State.setSlice_pwr (s : State) (i : Nat) (v : Slice) : (s.setSlice i v).pwr = s.pwr := rfl
@[simp] theorem State.setSlice_boot (s : State) (i : Nat) (v : Slice) : (s.setSlice i v).boot = s.boot := rfl
@[simp] theorem State.setSlice_qm (s : State) (i : Nat) (v : Slice) :
    (s.setSlice i v).qm = { s.qm with slices := s.qm.slices.set {} i v } := rfl

/-! ## `setQueue` -/

@[simp] theorem State.setQueue_pending (s : State) (i j : Nat) (v : Queue) : (s.setQueue i j v).pending = s.pending := rfl
@[simp] theorem State.setQueue_out (s : State) (i j : Nat) (v : Queue) : (s.setQueue i j v).out = s.out := rfl
@[simp] theorem State.setQueue_sys (s : State) (i j : Nat) (v : Queue) : (s.setQueue i j v).sys = s.sys := rfl
@[simp] theorem State.setQueue_dom (s : State) (i j : Nat) (v : Queue) : (s.setQueue i j v).dom = s.dom := rfl
@[simp] theorem State.setQueue_fbx (s : State) (i j : Nat) (v : Queue) : (s.setQueue i j v).fbx = s.fbx := rfl
@[simp] theorem State.setQueue_msl (s : State) (i j : Nat) (v : Queue) : (s.setQueue i j v).msl = s.msl := rfl
@[simp] theorem State.setQueue_hth (s : State) (i j : Nat) (v : Queue) : (s.setQueue i j v).hth = s.hth := rfl
@[simp] theorem State.setQueue_lnk (s : State) (i j : Nat) (v : Queue) : (s.setQueue i j v).lnk = s.lnk := rfl
@[simp] theorem State.setQueue_fab (s : State) (i j : Nat) (v : Queue) : (s.setQueue i j v).fab = s.fab := rfl
@[simp] theorem State.setQueue_col (s : State) (i j : Nat) (v : Queue) : (s.setQueue i j v).col = s.col := rfl
@[simp] theorem State.setQueue_syn (s : State) (i j : Nat) (v : Queue) : (s.setQueue i j v).syn = s.syn := rfl
@[simp] theorem State.setQueue_hst (s : State) (i j : Nat) (v : Queue) : (s.setQueue i j v).hst = s.hst := rfl
@[simp] theorem State.setQueue_ce (s : State) (i j : Nat) (v : Queue) : (s.setQueue i j v).ce = s.ce := rfl
@[simp] theorem State.setQueue_tel (s : State) (i j : Nat) (v : Queue) : (s.setQueue i j v).tel = s.tel := rfl
@[simp] theorem State.setQueue_rcd (s : State) (i j : Nat) (v : Queue) : (s.setQueue i j v).rcd = s.rcd := rfl
@[simp] theorem State.setQueue_rst (s : State) (i j : Nat) (v : Queue) : (s.setQueue i j v).rst = s.rst := rfl
@[simp] theorem State.setQueue_lc (s : State) (i j : Nat) (v : Queue) : (s.setQueue i j v).lc = s.lc := rfl
@[simp] theorem State.setQueue_pwr (s : State) (i j : Nat) (v : Queue) : (s.setQueue i j v).pwr = s.pwr := rfl
@[simp] theorem State.setQueue_boot (s : State) (i j : Nat) (v : Queue) : (s.setQueue i j v).boot = s.boot := rfl

/-! ## `setObj` -/

@[simp] theorem State.setObj_pending (s : State) (i j : Nat) (v : ObjEntry) : (s.setObj i j v).pending = s.pending := rfl
@[simp] theorem State.setObj_out (s : State) (i j : Nat) (v : ObjEntry) : (s.setObj i j v).out = s.out := rfl
@[simp] theorem State.setObj_sys (s : State) (i j : Nat) (v : ObjEntry) : (s.setObj i j v).sys = s.sys := rfl
@[simp] theorem State.setObj_dom (s : State) (i j : Nat) (v : ObjEntry) : (s.setObj i j v).dom = s.dom := rfl
@[simp] theorem State.setObj_fbx (s : State) (i j : Nat) (v : ObjEntry) : (s.setObj i j v).fbx = s.fbx := rfl
@[simp] theorem State.setObj_msl (s : State) (i j : Nat) (v : ObjEntry) : (s.setObj i j v).msl = s.msl := rfl
@[simp] theorem State.setObj_hth (s : State) (i j : Nat) (v : ObjEntry) : (s.setObj i j v).hth = s.hth := rfl
@[simp] theorem State.setObj_lnk (s : State) (i j : Nat) (v : ObjEntry) : (s.setObj i j v).lnk = s.lnk := rfl
@[simp] theorem State.setObj_fab (s : State) (i j : Nat) (v : ObjEntry) : (s.setObj i j v).fab = s.fab := rfl
@[simp] theorem State.setObj_col (s : State) (i j : Nat) (v : ObjEntry) : (s.setObj i j v).col = s.col := rfl
@[simp] theorem State.setObj_syn (s : State) (i j : Nat) (v : ObjEntry) : (s.setObj i j v).syn = s.syn := rfl
@[simp] theorem State.setObj_hst (s : State) (i j : Nat) (v : ObjEntry) : (s.setObj i j v).hst = s.hst := rfl
@[simp] theorem State.setObj_ce (s : State) (i j : Nat) (v : ObjEntry) : (s.setObj i j v).ce = s.ce := rfl
@[simp] theorem State.setObj_tel (s : State) (i j : Nat) (v : ObjEntry) : (s.setObj i j v).tel = s.tel := rfl
@[simp] theorem State.setObj_rcd (s : State) (i j : Nat) (v : ObjEntry) : (s.setObj i j v).rcd = s.rcd := rfl
@[simp] theorem State.setObj_rst (s : State) (i j : Nat) (v : ObjEntry) : (s.setObj i j v).rst = s.rst := rfl
@[simp] theorem State.setObj_lc (s : State) (i j : Nat) (v : ObjEntry) : (s.setObj i j v).lc = s.lc := rfl
@[simp] theorem State.setObj_pwr (s : State) (i j : Nat) (v : ObjEntry) : (s.setObj i j v).pwr = s.pwr := rfl
@[simp] theorem State.setObj_boot (s : State) (i j : Nat) (v : ObjEntry) : (s.setObj i j v).boot = s.boot := rfl

/-! ## `setKid` -/

@[simp] theorem State.setKid_pending (s : State) (i : Nat) (v : KidEntry) : (s.setKid i v).pending = s.pending := rfl
@[simp] theorem State.setKid_out (s : State) (i : Nat) (v : KidEntry) : (s.setKid i v).out = s.out := rfl
@[simp] theorem State.setKid_sys (s : State) (i : Nat) (v : KidEntry) : (s.setKid i v).sys = s.sys := rfl
@[simp] theorem State.setKid_dom (s : State) (i : Nat) (v : KidEntry) : (s.setKid i v).dom = s.dom := rfl
@[simp] theorem State.setKid_qm (s : State) (i : Nat) (v : KidEntry) : (s.setKid i v).qm = s.qm := rfl
@[simp] theorem State.setKid_msl (s : State) (i : Nat) (v : KidEntry) : (s.setKid i v).msl = s.msl := rfl
@[simp] theorem State.setKid_hth (s : State) (i : Nat) (v : KidEntry) : (s.setKid i v).hth = s.hth := rfl
@[simp] theorem State.setKid_lnk (s : State) (i : Nat) (v : KidEntry) : (s.setKid i v).lnk = s.lnk := rfl
@[simp] theorem State.setKid_fab (s : State) (i : Nat) (v : KidEntry) : (s.setKid i v).fab = s.fab := rfl
@[simp] theorem State.setKid_col (s : State) (i : Nat) (v : KidEntry) : (s.setKid i v).col = s.col := rfl
@[simp] theorem State.setKid_syn (s : State) (i : Nat) (v : KidEntry) : (s.setKid i v).syn = s.syn := rfl
@[simp] theorem State.setKid_hst (s : State) (i : Nat) (v : KidEntry) : (s.setKid i v).hst = s.hst := rfl
@[simp] theorem State.setKid_ce (s : State) (i : Nat) (v : KidEntry) : (s.setKid i v).ce = s.ce := rfl
@[simp] theorem State.setKid_tel (s : State) (i : Nat) (v : KidEntry) : (s.setKid i v).tel = s.tel := rfl
@[simp] theorem State.setKid_rcd (s : State) (i : Nat) (v : KidEntry) : (s.setKid i v).rcd = s.rcd := rfl
@[simp] theorem State.setKid_rst (s : State) (i : Nat) (v : KidEntry) : (s.setKid i v).rst = s.rst := rfl
@[simp] theorem State.setKid_lc (s : State) (i : Nat) (v : KidEntry) : (s.setKid i v).lc = s.lc := rfl
@[simp] theorem State.setKid_pwr (s : State) (i : Nat) (v : KidEntry) : (s.setKid i v).pwr = s.pwr := rfl
@[simp] theorem State.setKid_boot (s : State) (i : Nat) (v : KidEntry) : (s.setKid i v).boot = s.boot := rfl
@[simp] theorem State.setKid_fbx (s : State) (i : Nat) (v : KidEntry) :
    (s.setKid i v).fbx = { s.fbx with kids := s.fbx.kids.set {} i v } := rfl

/-! ## `setRgn` -/

@[simp] theorem State.setRgn_pending (s : State) (i : Nat) (v : Region) : (s.setRgn i v).pending = s.pending := rfl
@[simp] theorem State.setRgn_out (s : State) (i : Nat) (v : Region) : (s.setRgn i v).out = s.out := rfl
@[simp] theorem State.setRgn_sys (s : State) (i : Nat) (v : Region) : (s.setRgn i v).sys = s.sys := rfl
@[simp] theorem State.setRgn_dom (s : State) (i : Nat) (v : Region) : (s.setRgn i v).dom = s.dom := rfl
@[simp] theorem State.setRgn_fbx (s : State) (i : Nat) (v : Region) : (s.setRgn i v).fbx = s.fbx := rfl
@[simp] theorem State.setRgn_qm (s : State) (i : Nat) (v : Region) : (s.setRgn i v).qm = s.qm := rfl
@[simp] theorem State.setRgn_hth (s : State) (i : Nat) (v : Region) : (s.setRgn i v).hth = s.hth := rfl
@[simp] theorem State.setRgn_lnk (s : State) (i : Nat) (v : Region) : (s.setRgn i v).lnk = s.lnk := rfl
@[simp] theorem State.setRgn_fab (s : State) (i : Nat) (v : Region) : (s.setRgn i v).fab = s.fab := rfl
@[simp] theorem State.setRgn_col (s : State) (i : Nat) (v : Region) : (s.setRgn i v).col = s.col := rfl
@[simp] theorem State.setRgn_syn (s : State) (i : Nat) (v : Region) : (s.setRgn i v).syn = s.syn := rfl
@[simp] theorem State.setRgn_hst (s : State) (i : Nat) (v : Region) : (s.setRgn i v).hst = s.hst := rfl
@[simp] theorem State.setRgn_ce (s : State) (i : Nat) (v : Region) : (s.setRgn i v).ce = s.ce := rfl
@[simp] theorem State.setRgn_tel (s : State) (i : Nat) (v : Region) : (s.setRgn i v).tel = s.tel := rfl
@[simp] theorem State.setRgn_rcd (s : State) (i : Nat) (v : Region) : (s.setRgn i v).rcd = s.rcd := rfl
@[simp] theorem State.setRgn_rst (s : State) (i : Nat) (v : Region) : (s.setRgn i v).rst = s.rst := rfl
@[simp] theorem State.setRgn_lc (s : State) (i : Nat) (v : Region) : (s.setRgn i v).lc = s.lc := rfl
@[simp] theorem State.setRgn_pwr (s : State) (i : Nat) (v : Region) : (s.setRgn i v).pwr = s.pwr := rfl
@[simp] theorem State.setRgn_boot (s : State) (i : Nat) (v : Region) : (s.setRgn i v).boot = s.boot := rfl
@[simp] theorem State.setRgn_msl (s : State) (i : Nat) (v : Region) :
    (s.setRgn i v).msl = { s.msl with rgns := s.msl.rgns.set {} i v } := rfl

/-! ## `setHrg` -/

@[simp] theorem State.setHrg_pending (s : State) (i : Nat) (v : HRange) : (s.setHrg i v).pending = s.pending := rfl
@[simp] theorem State.setHrg_out (s : State) (i : Nat) (v : HRange) : (s.setHrg i v).out = s.out := rfl
@[simp] theorem State.setHrg_sys (s : State) (i : Nat) (v : HRange) : (s.setHrg i v).sys = s.sys := rfl
@[simp] theorem State.setHrg_dom (s : State) (i : Nat) (v : HRange) : (s.setHrg i v).dom = s.dom := rfl
@[simp] theorem State.setHrg_fbx (s : State) (i : Nat) (v : HRange) : (s.setHrg i v).fbx = s.fbx := rfl
@[simp] theorem State.setHrg_qm (s : State) (i : Nat) (v : HRange) : (s.setHrg i v).qm = s.qm := rfl
@[simp] theorem State.setHrg_msl (s : State) (i : Nat) (v : HRange) : (s.setHrg i v).msl = s.msl := rfl
@[simp] theorem State.setHrg_lnk (s : State) (i : Nat) (v : HRange) : (s.setHrg i v).lnk = s.lnk := rfl
@[simp] theorem State.setHrg_fab (s : State) (i : Nat) (v : HRange) : (s.setHrg i v).fab = s.fab := rfl
@[simp] theorem State.setHrg_col (s : State) (i : Nat) (v : HRange) : (s.setHrg i v).col = s.col := rfl
@[simp] theorem State.setHrg_syn (s : State) (i : Nat) (v : HRange) : (s.setHrg i v).syn = s.syn := rfl
@[simp] theorem State.setHrg_hst (s : State) (i : Nat) (v : HRange) : (s.setHrg i v).hst = s.hst := rfl
@[simp] theorem State.setHrg_ce (s : State) (i : Nat) (v : HRange) : (s.setHrg i v).ce = s.ce := rfl
@[simp] theorem State.setHrg_tel (s : State) (i : Nat) (v : HRange) : (s.setHrg i v).tel = s.tel := rfl
@[simp] theorem State.setHrg_rcd (s : State) (i : Nat) (v : HRange) : (s.setHrg i v).rcd = s.rcd := rfl
@[simp] theorem State.setHrg_rst (s : State) (i : Nat) (v : HRange) : (s.setHrg i v).rst = s.rst := rfl
@[simp] theorem State.setHrg_lc (s : State) (i : Nat) (v : HRange) : (s.setHrg i v).lc = s.lc := rfl
@[simp] theorem State.setHrg_pwr (s : State) (i : Nat) (v : HRange) : (s.setHrg i v).pwr = s.pwr := rfl
@[simp] theorem State.setHrg_boot (s : State) (i : Nat) (v : HRange) : (s.setHrg i v).boot = s.boot := rfl
@[simp] theorem State.setHrg_hth (s : State) (i : Nat) (v : HRange) :
    (s.setHrg i v).hth = { s.hth with rngs := s.hth.rngs.set {} i v } := rfl

/-! ## `setLink` -/

@[simp] theorem State.setLink_pending (s : State) (i : Nat) (v : Link) : (s.setLink i v).pending = s.pending := rfl
@[simp] theorem State.setLink_out (s : State) (i : Nat) (v : Link) : (s.setLink i v).out = s.out := rfl
@[simp] theorem State.setLink_sys (s : State) (i : Nat) (v : Link) : (s.setLink i v).sys = s.sys := rfl
@[simp] theorem State.setLink_dom (s : State) (i : Nat) (v : Link) : (s.setLink i v).dom = s.dom := rfl
@[simp] theorem State.setLink_fbx (s : State) (i : Nat) (v : Link) : (s.setLink i v).fbx = s.fbx := rfl
@[simp] theorem State.setLink_qm (s : State) (i : Nat) (v : Link) : (s.setLink i v).qm = s.qm := rfl
@[simp] theorem State.setLink_msl (s : State) (i : Nat) (v : Link) : (s.setLink i v).msl = s.msl := rfl
@[simp] theorem State.setLink_hth (s : State) (i : Nat) (v : Link) : (s.setLink i v).hth = s.hth := rfl
@[simp] theorem State.setLink_fab (s : State) (i : Nat) (v : Link) : (s.setLink i v).fab = s.fab := rfl
@[simp] theorem State.setLink_col (s : State) (i : Nat) (v : Link) : (s.setLink i v).col = s.col := rfl
@[simp] theorem State.setLink_syn (s : State) (i : Nat) (v : Link) : (s.setLink i v).syn = s.syn := rfl
@[simp] theorem State.setLink_hst (s : State) (i : Nat) (v : Link) : (s.setLink i v).hst = s.hst := rfl
@[simp] theorem State.setLink_ce (s : State) (i : Nat) (v : Link) : (s.setLink i v).ce = s.ce := rfl
@[simp] theorem State.setLink_tel (s : State) (i : Nat) (v : Link) : (s.setLink i v).tel = s.tel := rfl
@[simp] theorem State.setLink_rcd (s : State) (i : Nat) (v : Link) : (s.setLink i v).rcd = s.rcd := rfl
@[simp] theorem State.setLink_rst (s : State) (i : Nat) (v : Link) : (s.setLink i v).rst = s.rst := rfl
@[simp] theorem State.setLink_lc (s : State) (i : Nat) (v : Link) : (s.setLink i v).lc = s.lc := rfl
@[simp] theorem State.setLink_pwr (s : State) (i : Nat) (v : Link) : (s.setLink i v).pwr = s.pwr := rfl
@[simp] theorem State.setLink_boot (s : State) (i : Nat) (v : Link) : (s.setLink i v).boot = s.boot := rfl
@[simp] theorem State.setLink_lnk (s : State) (i : Nat) (v : Link) :
    (s.setLink i v).lnk = { s.lnk with links := s.lnk.links.set {} i v } := rfl

/-! ## `setPort` -/

@[simp] theorem State.setPort_pending (s : State) (i : Nat) (v : Port) : (s.setPort i v).pending = s.pending := rfl
@[simp] theorem State.setPort_out (s : State) (i : Nat) (v : Port) : (s.setPort i v).out = s.out := rfl
@[simp] theorem State.setPort_sys (s : State) (i : Nat) (v : Port) : (s.setPort i v).sys = s.sys := rfl
@[simp] theorem State.setPort_dom (s : State) (i : Nat) (v : Port) : (s.setPort i v).dom = s.dom := rfl
@[simp] theorem State.setPort_fbx (s : State) (i : Nat) (v : Port) : (s.setPort i v).fbx = s.fbx := rfl
@[simp] theorem State.setPort_qm (s : State) (i : Nat) (v : Port) : (s.setPort i v).qm = s.qm := rfl
@[simp] theorem State.setPort_msl (s : State) (i : Nat) (v : Port) : (s.setPort i v).msl = s.msl := rfl
@[simp] theorem State.setPort_hth (s : State) (i : Nat) (v : Port) : (s.setPort i v).hth = s.hth := rfl
@[simp] theorem State.setPort_fab (s : State) (i : Nat) (v : Port) : (s.setPort i v).fab = s.fab := rfl
@[simp] theorem State.setPort_col (s : State) (i : Nat) (v : Port) : (s.setPort i v).col = s.col := rfl
@[simp] theorem State.setPort_syn (s : State) (i : Nat) (v : Port) : (s.setPort i v).syn = s.syn := rfl
@[simp] theorem State.setPort_hst (s : State) (i : Nat) (v : Port) : (s.setPort i v).hst = s.hst := rfl
@[simp] theorem State.setPort_ce (s : State) (i : Nat) (v : Port) : (s.setPort i v).ce = s.ce := rfl
@[simp] theorem State.setPort_tel (s : State) (i : Nat) (v : Port) : (s.setPort i v).tel = s.tel := rfl
@[simp] theorem State.setPort_rcd (s : State) (i : Nat) (v : Port) : (s.setPort i v).rcd = s.rcd := rfl
@[simp] theorem State.setPort_rst (s : State) (i : Nat) (v : Port) : (s.setPort i v).rst = s.rst := rfl
@[simp] theorem State.setPort_lc (s : State) (i : Nat) (v : Port) : (s.setPort i v).lc = s.lc := rfl
@[simp] theorem State.setPort_pwr (s : State) (i : Nat) (v : Port) : (s.setPort i v).pwr = s.pwr := rfl
@[simp] theorem State.setPort_boot (s : State) (i : Nat) (v : Port) : (s.setPort i v).boot = s.boot := rfl
@[simp] theorem State.setPort_lnk (s : State) (i : Nat) (v : Port) :
    (s.setPort i v).lnk = { s.lnk with ports := s.lnk.ports.set {} i v } := rfl

/-! ## `setWin` -/

@[simp] theorem State.setWin_pending (s : State) (i : Nat) (v : Win) : (s.setWin i v).pending = s.pending := rfl
@[simp] theorem State.setWin_out (s : State) (i : Nat) (v : Win) : (s.setWin i v).out = s.out := rfl
@[simp] theorem State.setWin_sys (s : State) (i : Nat) (v : Win) : (s.setWin i v).sys = s.sys := rfl
@[simp] theorem State.setWin_dom (s : State) (i : Nat) (v : Win) : (s.setWin i v).dom = s.dom := rfl
@[simp] theorem State.setWin_fbx (s : State) (i : Nat) (v : Win) : (s.setWin i v).fbx = s.fbx := rfl
@[simp] theorem State.setWin_qm (s : State) (i : Nat) (v : Win) : (s.setWin i v).qm = s.qm := rfl
@[simp] theorem State.setWin_msl (s : State) (i : Nat) (v : Win) : (s.setWin i v).msl = s.msl := rfl
@[simp] theorem State.setWin_hth (s : State) (i : Nat) (v : Win) : (s.setWin i v).hth = s.hth := rfl
@[simp] theorem State.setWin_lnk (s : State) (i : Nat) (v : Win) : (s.setWin i v).lnk = s.lnk := rfl
@[simp] theorem State.setWin_col (s : State) (i : Nat) (v : Win) : (s.setWin i v).col = s.col := rfl
@[simp] theorem State.setWin_syn (s : State) (i : Nat) (v : Win) : (s.setWin i v).syn = s.syn := rfl
@[simp] theorem State.setWin_hst (s : State) (i : Nat) (v : Win) : (s.setWin i v).hst = s.hst := rfl
@[simp] theorem State.setWin_ce (s : State) (i : Nat) (v : Win) : (s.setWin i v).ce = s.ce := rfl
@[simp] theorem State.setWin_tel (s : State) (i : Nat) (v : Win) : (s.setWin i v).tel = s.tel := rfl
@[simp] theorem State.setWin_rcd (s : State) (i : Nat) (v : Win) : (s.setWin i v).rcd = s.rcd := rfl
@[simp] theorem State.setWin_rst (s : State) (i : Nat) (v : Win) : (s.setWin i v).rst = s.rst := rfl
@[simp] theorem State.setWin_lc (s : State) (i : Nat) (v : Win) : (s.setWin i v).lc = s.lc := rfl
@[simp] theorem State.setWin_pwr (s : State) (i : Nat) (v : Win) : (s.setWin i v).pwr = s.pwr := rfl
@[simp] theorem State.setWin_boot (s : State) (i : Nat) (v : Win) : (s.setWin i v).boot = s.boot := rfl
@[simp] theorem State.setWin_fab (s : State) (i : Nat) (v : Win) :
    (s.setWin i v).fab = { s.fab with wins := s.fab.wins.set {} i v } := rfl

/-! ## `setRwin` -/

@[simp] theorem State.setRwin_pending (s : State) (i : Nat) (v : Rwin) : (s.setRwin i v).pending = s.pending := rfl
@[simp] theorem State.setRwin_out (s : State) (i : Nat) (v : Rwin) : (s.setRwin i v).out = s.out := rfl
@[simp] theorem State.setRwin_sys (s : State) (i : Nat) (v : Rwin) : (s.setRwin i v).sys = s.sys := rfl
@[simp] theorem State.setRwin_dom (s : State) (i : Nat) (v : Rwin) : (s.setRwin i v).dom = s.dom := rfl
@[simp] theorem State.setRwin_fbx (s : State) (i : Nat) (v : Rwin) : (s.setRwin i v).fbx = s.fbx := rfl
@[simp] theorem State.setRwin_qm (s : State) (i : Nat) (v : Rwin) : (s.setRwin i v).qm = s.qm := rfl
@[simp] theorem State.setRwin_msl (s : State) (i : Nat) (v : Rwin) : (s.setRwin i v).msl = s.msl := rfl
@[simp] theorem State.setRwin_hth (s : State) (i : Nat) (v : Rwin) : (s.setRwin i v).hth = s.hth := rfl
@[simp] theorem State.setRwin_lnk (s : State) (i : Nat) (v : Rwin) : (s.setRwin i v).lnk = s.lnk := rfl
@[simp] theorem State.setRwin_col (s : State) (i : Nat) (v : Rwin) : (s.setRwin i v).col = s.col := rfl
@[simp] theorem State.setRwin_syn (s : State) (i : Nat) (v : Rwin) : (s.setRwin i v).syn = s.syn := rfl
@[simp] theorem State.setRwin_hst (s : State) (i : Nat) (v : Rwin) : (s.setRwin i v).hst = s.hst := rfl
@[simp] theorem State.setRwin_ce (s : State) (i : Nat) (v : Rwin) : (s.setRwin i v).ce = s.ce := rfl
@[simp] theorem State.setRwin_tel (s : State) (i : Nat) (v : Rwin) : (s.setRwin i v).tel = s.tel := rfl
@[simp] theorem State.setRwin_rcd (s : State) (i : Nat) (v : Rwin) : (s.setRwin i v).rcd = s.rcd := rfl
@[simp] theorem State.setRwin_rst (s : State) (i : Nat) (v : Rwin) : (s.setRwin i v).rst = s.rst := rfl
@[simp] theorem State.setRwin_lc (s : State) (i : Nat) (v : Rwin) : (s.setRwin i v).lc = s.lc := rfl
@[simp] theorem State.setRwin_pwr (s : State) (i : Nat) (v : Rwin) : (s.setRwin i v).pwr = s.pwr := rfl
@[simp] theorem State.setRwin_boot (s : State) (i : Nat) (v : Rwin) : (s.setRwin i v).boot = s.boot := rfl
@[simp] theorem State.setRwin_fab (s : State) (i : Nat) (v : Rwin) :
    (s.setRwin i v).fab = { s.fab with rwins := s.fab.rwins.set {} i v } := rfl

/-! ## `setPlan` -/

@[simp] theorem State.setPlan_pending (s : State) (i : Nat) (v : Plan) : (s.setPlan i v).pending = s.pending := rfl
@[simp] theorem State.setPlan_out (s : State) (i : Nat) (v : Plan) : (s.setPlan i v).out = s.out := rfl
@[simp] theorem State.setPlan_sys (s : State) (i : Nat) (v : Plan) : (s.setPlan i v).sys = s.sys := rfl
@[simp] theorem State.setPlan_dom (s : State) (i : Nat) (v : Plan) : (s.setPlan i v).dom = s.dom := rfl
@[simp] theorem State.setPlan_fbx (s : State) (i : Nat) (v : Plan) : (s.setPlan i v).fbx = s.fbx := rfl
@[simp] theorem State.setPlan_qm (s : State) (i : Nat) (v : Plan) : (s.setPlan i v).qm = s.qm := rfl
@[simp] theorem State.setPlan_msl (s : State) (i : Nat) (v : Plan) : (s.setPlan i v).msl = s.msl := rfl
@[simp] theorem State.setPlan_hth (s : State) (i : Nat) (v : Plan) : (s.setPlan i v).hth = s.hth := rfl
@[simp] theorem State.setPlan_lnk (s : State) (i : Nat) (v : Plan) : (s.setPlan i v).lnk = s.lnk := rfl
@[simp] theorem State.setPlan_fab (s : State) (i : Nat) (v : Plan) : (s.setPlan i v).fab = s.fab := rfl
@[simp] theorem State.setPlan_syn (s : State) (i : Nat) (v : Plan) : (s.setPlan i v).syn = s.syn := rfl
@[simp] theorem State.setPlan_hst (s : State) (i : Nat) (v : Plan) : (s.setPlan i v).hst = s.hst := rfl
@[simp] theorem State.setPlan_ce (s : State) (i : Nat) (v : Plan) : (s.setPlan i v).ce = s.ce := rfl
@[simp] theorem State.setPlan_tel (s : State) (i : Nat) (v : Plan) : (s.setPlan i v).tel = s.tel := rfl
@[simp] theorem State.setPlan_rcd (s : State) (i : Nat) (v : Plan) : (s.setPlan i v).rcd = s.rcd := rfl
@[simp] theorem State.setPlan_rst (s : State) (i : Nat) (v : Plan) : (s.setPlan i v).rst = s.rst := rfl
@[simp] theorem State.setPlan_lc (s : State) (i : Nat) (v : Plan) : (s.setPlan i v).lc = s.lc := rfl
@[simp] theorem State.setPlan_pwr (s : State) (i : Nat) (v : Plan) : (s.setPlan i v).pwr = s.pwr := rfl
@[simp] theorem State.setPlan_boot (s : State) (i : Nat) (v : Plan) : (s.setPlan i v).boot = s.boot := rfl
@[simp] theorem State.setPlan_col (s : State) (i : Nat) (v : Plan) :
    (s.setPlan i v).col = { s.col with plans := s.col.plans.set {} i v } := rfl

/-! ## `setSyncObj` -/

@[simp] theorem State.setSyncObj_pending (s : State) (i : Nat) (v : SyncObj) : (s.setSyncObj i v).pending = s.pending := rfl
@[simp] theorem State.setSyncObj_out (s : State) (i : Nat) (v : SyncObj) : (s.setSyncObj i v).out = s.out := rfl
@[simp] theorem State.setSyncObj_sys (s : State) (i : Nat) (v : SyncObj) : (s.setSyncObj i v).sys = s.sys := rfl
@[simp] theorem State.setSyncObj_dom (s : State) (i : Nat) (v : SyncObj) : (s.setSyncObj i v).dom = s.dom := rfl
@[simp] theorem State.setSyncObj_fbx (s : State) (i : Nat) (v : SyncObj) : (s.setSyncObj i v).fbx = s.fbx := rfl
@[simp] theorem State.setSyncObj_qm (s : State) (i : Nat) (v : SyncObj) : (s.setSyncObj i v).qm = s.qm := rfl
@[simp] theorem State.setSyncObj_msl (s : State) (i : Nat) (v : SyncObj) : (s.setSyncObj i v).msl = s.msl := rfl
@[simp] theorem State.setSyncObj_hth (s : State) (i : Nat) (v : SyncObj) : (s.setSyncObj i v).hth = s.hth := rfl
@[simp] theorem State.setSyncObj_lnk (s : State) (i : Nat) (v : SyncObj) : (s.setSyncObj i v).lnk = s.lnk := rfl
@[simp] theorem State.setSyncObj_fab (s : State) (i : Nat) (v : SyncObj) : (s.setSyncObj i v).fab = s.fab := rfl
@[simp] theorem State.setSyncObj_col (s : State) (i : Nat) (v : SyncObj) : (s.setSyncObj i v).col = s.col := rfl
@[simp] theorem State.setSyncObj_hst (s : State) (i : Nat) (v : SyncObj) : (s.setSyncObj i v).hst = s.hst := rfl
@[simp] theorem State.setSyncObj_ce (s : State) (i : Nat) (v : SyncObj) : (s.setSyncObj i v).ce = s.ce := rfl
@[simp] theorem State.setSyncObj_tel (s : State) (i : Nat) (v : SyncObj) : (s.setSyncObj i v).tel = s.tel := rfl
@[simp] theorem State.setSyncObj_rcd (s : State) (i : Nat) (v : SyncObj) : (s.setSyncObj i v).rcd = s.rcd := rfl
@[simp] theorem State.setSyncObj_rst (s : State) (i : Nat) (v : SyncObj) : (s.setSyncObj i v).rst = s.rst := rfl
@[simp] theorem State.setSyncObj_lc (s : State) (i : Nat) (v : SyncObj) : (s.setSyncObj i v).lc = s.lc := rfl
@[simp] theorem State.setSyncObj_pwr (s : State) (i : Nat) (v : SyncObj) : (s.setSyncObj i v).pwr = s.pwr := rfl
@[simp] theorem State.setSyncObj_boot (s : State) (i : Nat) (v : SyncObj) : (s.setSyncObj i v).boot = s.boot := rfl
@[simp] theorem State.setSyncObj_syn (s : State) (i : Nat) (v : SyncObj) :
    (s.setSyncObj i v).syn = { s.syn with objs := s.syn.objs.set {} i v } := rfl

/-! ## `setGrant` -/

@[simp] theorem State.setGrant_pending (s : State) (i : Nat) (v : Grant) : (s.setGrant i v).pending = s.pending := rfl
@[simp] theorem State.setGrant_out (s : State) (i : Nat) (v : Grant) : (s.setGrant i v).out = s.out := rfl
@[simp] theorem State.setGrant_sys (s : State) (i : Nat) (v : Grant) : (s.setGrant i v).sys = s.sys := rfl
@[simp] theorem State.setGrant_dom (s : State) (i : Nat) (v : Grant) : (s.setGrant i v).dom = s.dom := rfl
@[simp] theorem State.setGrant_fbx (s : State) (i : Nat) (v : Grant) : (s.setGrant i v).fbx = s.fbx := rfl
@[simp] theorem State.setGrant_qm (s : State) (i : Nat) (v : Grant) : (s.setGrant i v).qm = s.qm := rfl
@[simp] theorem State.setGrant_msl (s : State) (i : Nat) (v : Grant) : (s.setGrant i v).msl = s.msl := rfl
@[simp] theorem State.setGrant_hth (s : State) (i : Nat) (v : Grant) : (s.setGrant i v).hth = s.hth := rfl
@[simp] theorem State.setGrant_lnk (s : State) (i : Nat) (v : Grant) : (s.setGrant i v).lnk = s.lnk := rfl
@[simp] theorem State.setGrant_fab (s : State) (i : Nat) (v : Grant) : (s.setGrant i v).fab = s.fab := rfl
@[simp] theorem State.setGrant_col (s : State) (i : Nat) (v : Grant) : (s.setGrant i v).col = s.col := rfl
@[simp] theorem State.setGrant_hst (s : State) (i : Nat) (v : Grant) : (s.setGrant i v).hst = s.hst := rfl
@[simp] theorem State.setGrant_ce (s : State) (i : Nat) (v : Grant) : (s.setGrant i v).ce = s.ce := rfl
@[simp] theorem State.setGrant_tel (s : State) (i : Nat) (v : Grant) : (s.setGrant i v).tel = s.tel := rfl
@[simp] theorem State.setGrant_rcd (s : State) (i : Nat) (v : Grant) : (s.setGrant i v).rcd = s.rcd := rfl
@[simp] theorem State.setGrant_rst (s : State) (i : Nat) (v : Grant) : (s.setGrant i v).rst = s.rst := rfl
@[simp] theorem State.setGrant_lc (s : State) (i : Nat) (v : Grant) : (s.setGrant i v).lc = s.lc := rfl
@[simp] theorem State.setGrant_pwr (s : State) (i : Nat) (v : Grant) : (s.setGrant i v).pwr = s.pwr := rfl
@[simp] theorem State.setGrant_boot (s : State) (i : Nat) (v : Grant) : (s.setGrant i v).boot = s.boot := rfl
@[simp] theorem State.setGrant_syn (s : State) (i : Nat) (v : Grant) :
    (s.setGrant i v).syn = { s.syn with grants := s.syn.grants.set {} i v } := rfl

/-! ## `setSite` -/

@[simp] theorem State.setSite_pending (s : State) (i : Nat) (v : Site) : (s.setSite i v).pending = s.pending := rfl
@[simp] theorem State.setSite_out (s : State) (i : Nat) (v : Site) : (s.setSite i v).out = s.out := rfl
@[simp] theorem State.setSite_sys (s : State) (i : Nat) (v : Site) : (s.setSite i v).sys = s.sys := rfl
@[simp] theorem State.setSite_dom (s : State) (i : Nat) (v : Site) : (s.setSite i v).dom = s.dom := rfl
@[simp] theorem State.setSite_fbx (s : State) (i : Nat) (v : Site) : (s.setSite i v).fbx = s.fbx := rfl
@[simp] theorem State.setSite_qm (s : State) (i : Nat) (v : Site) : (s.setSite i v).qm = s.qm := rfl
@[simp] theorem State.setSite_msl (s : State) (i : Nat) (v : Site) : (s.setSite i v).msl = s.msl := rfl
@[simp] theorem State.setSite_hth (s : State) (i : Nat) (v : Site) : (s.setSite i v).hth = s.hth := rfl
@[simp] theorem State.setSite_lnk (s : State) (i : Nat) (v : Site) : (s.setSite i v).lnk = s.lnk := rfl
@[simp] theorem State.setSite_fab (s : State) (i : Nat) (v : Site) : (s.setSite i v).fab = s.fab := rfl
@[simp] theorem State.setSite_col (s : State) (i : Nat) (v : Site) : (s.setSite i v).col = s.col := rfl
@[simp] theorem State.setSite_syn (s : State) (i : Nat) (v : Site) : (s.setSite i v).syn = s.syn := rfl
@[simp] theorem State.setSite_ce (s : State) (i : Nat) (v : Site) : (s.setSite i v).ce = s.ce := rfl
@[simp] theorem State.setSite_tel (s : State) (i : Nat) (v : Site) : (s.setSite i v).tel = s.tel := rfl
@[simp] theorem State.setSite_rcd (s : State) (i : Nat) (v : Site) : (s.setSite i v).rcd = s.rcd := rfl
@[simp] theorem State.setSite_rst (s : State) (i : Nat) (v : Site) : (s.setSite i v).rst = s.rst := rfl
@[simp] theorem State.setSite_lc (s : State) (i : Nat) (v : Site) : (s.setSite i v).lc = s.lc := rfl
@[simp] theorem State.setSite_pwr (s : State) (i : Nat) (v : Site) : (s.setSite i v).pwr = s.pwr := rfl
@[simp] theorem State.setSite_boot (s : State) (i : Nat) (v : Site) : (s.setSite i v).boot = s.boot := rfl
@[simp] theorem State.setSite_hst (s : State) (i : Nat) (v : Site) :
    (s.setSite i v).hst = { s.hst with sites := s.hst.sites.set {} i v } := rfl

/-! ## `setCePage` -/

@[simp] theorem State.setCePage_pending (s : State) (i : Nat) (v : CePage) : (s.setCePage i v).pending = s.pending := rfl
@[simp] theorem State.setCePage_out (s : State) (i : Nat) (v : CePage) : (s.setCePage i v).out = s.out := rfl
@[simp] theorem State.setCePage_sys (s : State) (i : Nat) (v : CePage) : (s.setCePage i v).sys = s.sys := rfl
@[simp] theorem State.setCePage_dom (s : State) (i : Nat) (v : CePage) : (s.setCePage i v).dom = s.dom := rfl
@[simp] theorem State.setCePage_fbx (s : State) (i : Nat) (v : CePage) : (s.setCePage i v).fbx = s.fbx := rfl
@[simp] theorem State.setCePage_qm (s : State) (i : Nat) (v : CePage) : (s.setCePage i v).qm = s.qm := rfl
@[simp] theorem State.setCePage_msl (s : State) (i : Nat) (v : CePage) : (s.setCePage i v).msl = s.msl := rfl
@[simp] theorem State.setCePage_hth (s : State) (i : Nat) (v : CePage) : (s.setCePage i v).hth = s.hth := rfl
@[simp] theorem State.setCePage_lnk (s : State) (i : Nat) (v : CePage) : (s.setCePage i v).lnk = s.lnk := rfl
@[simp] theorem State.setCePage_fab (s : State) (i : Nat) (v : CePage) : (s.setCePage i v).fab = s.fab := rfl
@[simp] theorem State.setCePage_col (s : State) (i : Nat) (v : CePage) : (s.setCePage i v).col = s.col := rfl
@[simp] theorem State.setCePage_syn (s : State) (i : Nat) (v : CePage) : (s.setCePage i v).syn = s.syn := rfl
@[simp] theorem State.setCePage_hst (s : State) (i : Nat) (v : CePage) : (s.setCePage i v).hst = s.hst := rfl
@[simp] theorem State.setCePage_tel (s : State) (i : Nat) (v : CePage) : (s.setCePage i v).tel = s.tel := rfl
@[simp] theorem State.setCePage_rcd (s : State) (i : Nat) (v : CePage) : (s.setCePage i v).rcd = s.rcd := rfl
@[simp] theorem State.setCePage_rst (s : State) (i : Nat) (v : CePage) : (s.setCePage i v).rst = s.rst := rfl
@[simp] theorem State.setCePage_lc (s : State) (i : Nat) (v : CePage) : (s.setCePage i v).lc = s.lc := rfl
@[simp] theorem State.setCePage_pwr (s : State) (i : Nat) (v : CePage) : (s.setCePage i v).pwr = s.pwr := rfl
@[simp] theorem State.setCePage_boot (s : State) (i : Nat) (v : CePage) : (s.setCePage i v).boot = s.boot := rfl
@[simp] theorem State.setCePage_ce (s : State) (i : Nat) (v : CePage) :
    (s.setCePage i v).ce = { s.ce with pages := s.ce.pages.set {} i v } := rfl

/-! ## `setWatch` -/

@[simp] theorem State.setWatch_pending (s : State) (i : Nat) (v : Watch) : (s.setWatch i v).pending = s.pending := rfl
@[simp] theorem State.setWatch_out (s : State) (i : Nat) (v : Watch) : (s.setWatch i v).out = s.out := rfl
@[simp] theorem State.setWatch_sys (s : State) (i : Nat) (v : Watch) : (s.setWatch i v).sys = s.sys := rfl
@[simp] theorem State.setWatch_dom (s : State) (i : Nat) (v : Watch) : (s.setWatch i v).dom = s.dom := rfl
@[simp] theorem State.setWatch_fbx (s : State) (i : Nat) (v : Watch) : (s.setWatch i v).fbx = s.fbx := rfl
@[simp] theorem State.setWatch_qm (s : State) (i : Nat) (v : Watch) : (s.setWatch i v).qm = s.qm := rfl
@[simp] theorem State.setWatch_msl (s : State) (i : Nat) (v : Watch) : (s.setWatch i v).msl = s.msl := rfl
@[simp] theorem State.setWatch_hth (s : State) (i : Nat) (v : Watch) : (s.setWatch i v).hth = s.hth := rfl
@[simp] theorem State.setWatch_lnk (s : State) (i : Nat) (v : Watch) : (s.setWatch i v).lnk = s.lnk := rfl
@[simp] theorem State.setWatch_fab (s : State) (i : Nat) (v : Watch) : (s.setWatch i v).fab = s.fab := rfl
@[simp] theorem State.setWatch_col (s : State) (i : Nat) (v : Watch) : (s.setWatch i v).col = s.col := rfl
@[simp] theorem State.setWatch_syn (s : State) (i : Nat) (v : Watch) : (s.setWatch i v).syn = s.syn := rfl
@[simp] theorem State.setWatch_hst (s : State) (i : Nat) (v : Watch) : (s.setWatch i v).hst = s.hst := rfl
@[simp] theorem State.setWatch_ce (s : State) (i : Nat) (v : Watch) : (s.setWatch i v).ce = s.ce := rfl
@[simp] theorem State.setWatch_rcd (s : State) (i : Nat) (v : Watch) : (s.setWatch i v).rcd = s.rcd := rfl
@[simp] theorem State.setWatch_rst (s : State) (i : Nat) (v : Watch) : (s.setWatch i v).rst = s.rst := rfl
@[simp] theorem State.setWatch_lc (s : State) (i : Nat) (v : Watch) : (s.setWatch i v).lc = s.lc := rfl
@[simp] theorem State.setWatch_pwr (s : State) (i : Nat) (v : Watch) : (s.setWatch i v).pwr = s.pwr := rfl
@[simp] theorem State.setWatch_boot (s : State) (i : Nat) (v : Watch) : (s.setWatch i v).boot = s.boot := rfl
@[simp] theorem State.setWatch_tel (s : State) (i : Nat) (v : Watch) :
    (s.setWatch i v).tel = { s.tel with watch := s.tel.watch.set {} i v } := rfl

end Sys2Proof.Machine
end

