-- ==== Sys2Proof/WellFormed.lean ====
section
/-! DEFINITION. Well-formed commands: every operand that names a part of the block names one that exists, and every operand
with a field width fits it. The meanings are total without it; a sender that keeps it stays inside the spec's encodings. -/

namespace Sys2Proof

/-- A window command's path: the kernel driver's, or a slice's (R408). -/
def pathOk : Option Nat → Bool
  | none => true
  | some i => i < 2048

/-- A target of a hub-network request (R29, R140, R179, R246). -/
def netTargetOk : NetTarget → Bool
  | .hbm stack line => stack < 4 && line < 2 ^ 30
  | .hearth line => line < 109051904
  | .aperture entry off => entry < 16384 && off < 2 ^ 40

/-- A clock names a port, stack or site that exists (the clock table before R34). -/
def clockOk : Clock → Bool
  | .lclk p => p < 8
  | .mclk n => n < 4
  | .dclk n => n < 8
  | _ => true

/-- A hub-network request: an atomic names an assigned operation and an 8-byte offset (R29, R246). -/
def netReqOk : NetReq → Bool
  | .read t => netTargetOk t
  | .write t _ _ => netTargetOk t
  | .atomic entry off op _ _ => netTargetOk (.aperture entry off) && off % 8 = 0 && op < 16

/-- Where a receive command takes its flit from (R221, R403). -/
def flitInOk : FlitIn → Bool
  | .link l => l < 32
  | .loop => true
  | .bridge hub slot dst src payload => hub < 8 && slot.all (fun i => i < 64) && dst < 65536 && src < 65536 && payload.length ≤ 240

/-- The codewords that carry a flit: one or two of 544 symbols (R211, R215). -/
def cwsWf (cws : List (List (BitVec 10))) : Bool := 1 ≤ cws.length && cws.length ≤ 2 && cws.all fun c => c.length = 544

/-- A hello's position and package size (R405). -/
def helloOk (h : Hello) : Bool := h.pos < 8 && h.pkgSize < 4 && h.lc < 8

/-- A command is well formed. -/
def Instr.wf (i : Instr) : Bool :=
  match i with
  | .powerOn _ => true
  | .hubRstNLow _ => true
  | .resetHoldExpiry _ _ => true
  | .resetReleaseStep => true
  | .kindlingBoot _ => true
  | .networkRequest _ rq => netReqOk rq
  | .hbmReadReturn stack line _ _ _ => stack < 4 && line < 2 ^ 30
  | .metadataFetchReturn stack line _ _ _ _ => stack < 4 && line < 2 ^ 30
  | .pageReencrypt region page => region < 65 && page < 2 ^ 24
  | .hearthReadReturn line _ _ => line < 109051904
  | .powerGroupChange stack _ => stack < 4
  | .domainSwitchOff pd => pd < 30
  | .domainWake pd => pd < 30
  | .clockFault clk _ => clockOk clk
  | .kclkResume => true
  | .opsecCopy => true
  | .tamperSet _ => true
  | .domOpen _ _ _ _ => true
  | .domGroupLevel _ level count _ => level < 256 && count < 65536
  | .domSecret _ slot _ => slot < 256
  | .memberConfirmTimeout slot => slot < 256
  | .domBindSlice _ slot slice => slot < 256 && slice < 2048
  | .domAddSite _ slot site _ => slot < 256 && site < 8
  | .domActivate _ slot => slot < 256
  | .domLease _ slot => slot < 256
  | .leaseLapse slot => slot < 256
  | .admissionTimeout slot => slot < 256
  | .quarantineTimeout slot => slot < 256
  | .domResume _ slot => slot < 256
  | .domTeardown _ slot => slot < 256
  | .domQuery _ slot => slot < 256
  | .alarmAck _ _ => true
  | .tamperClear _ => true
  | .teardownAdvance slot => slot < 256
  | .spdmRequest _ _ _ _ _ => true
  | .getMeasurements _ _ _ => true
  | .memberStatementTimeout => true
  | .sliceEnable _ => true
  | .sliceDisable _ => true
  | .qmSlcfgWrite _ _ => true
  | .revokeAll _ slice => slice < 2048
  | .squashAll _ slice => slice < 2048
  | .sliceReset _ slice => slice < 2048
  | .sliceResetAdvance slice => slice < 2048
  | .qmSlLevelWrite _ slice _ => slice < 2048
  | .queueEnable _ slice => slice < 2048
  | .stopDrain _ slice => slice < 2048
  | .stopSquash _ slice => slice < 2048
  | .queueResume _ slice => slice < 2048
  | .queueDisable _ slice => slice < 2048
  | .qmDbTailWrite _ queue _ => queue < 262144
  | .qmDbCplHeadWrite _ queue _ => queue < 262144
  | .qmAbort _ slice _ => slice < 2048
  | .commandFetch slice queue _ => slice < 2048 && queue < 262144
  | .commandStart slice queue => slice < 2048 && queue < 262144
  | .commandCommit slice queue => slice < 2048 && queue < 262144
  | .objDefine slice queue seq => slice < 2048 && queue < 262144 && seq < 2 ^ 48
  | .objFree slice queue seq => slice < 2048 && queue < 262144 && seq < 2 ^ 48
  | .timeRead slice queue seq => slice < 2048 && queue < 262144 && seq < 2 ^ 48
  | .copy slice queue seq => slice < 2048 && queue < 262144 && seq < 2 ^ 48
  | .fill slice queue seq => slice < 2048 && queue < 262144 && seq < 2 ^ 48
  | .resealZero slice queue seq => slice < 2048 && queue < 262144 && seq < 2 ^ 48
  | .resealFill slice queue seq => slice < 2048 && queue < 262144 && seq < 2 ^ 48
  | .resealPage slice queue seq => slice < 2048 && queue < 262144 && seq < 2 ^ 48
  | .cipher slice queue seq => slice < 2048 && queue < 262144 && seq < 2 ^ 48
  | .cipherKeyLoad slice queue seq => slice < 2048 && queue < 262144 && seq < 2 ^ 48
  | .winOpen slice queue seq => slice < 2048 && queue < 262144 && seq < 2 ^ 48
  | .winClose slice queue seq => slice < 2048 && queue < 262144 && seq < 2 ^ 48
  | .rwinSet slice queue seq => slice < 2048 && queue < 262144 && seq < 2 ^ 48
  | .rwinClear slice queue seq => slice < 2048 && queue < 262144 && seq < 2 ^ 48
  | .fabRead slice queue seq => slice < 2048 && queue < 262144 && seq < 2 ^ 48
  | .fabWrite slice queue seq => slice < 2048 && queue < 262144 && seq < 2 ^ 48
  | .fabAtomic slice queue seq => slice < 2048 && queue < 262144 && seq < 2 ^ 48
  | .sigRemote slice queue seq => slice < 2048 && queue < 262144 && seq < 2 ^ 48
  | .flushRemote slice queue seq => slice < 2048 && queue < 262144 && seq < 2 ^ 48
  | .planLoad slice queue seq => slice < 2048 && queue < 262144 && seq < 2 ^ 48
  | .planRun slice queue seq => slice < 2048 && queue < 262144 && seq < 2 ^ 48
  | .planUnload slice queue seq => slice < 2048 && queue < 262144 && seq < 2 ^ 48
  | .quantise slice queue seq => slice < 2048 && queue < 262144 && seq < 2 ^ 48
  | .dequantise slice queue seq => slice < 2048 && queue < 262144 && seq < 2 ^ 48
  | .syncInit slice queue seq => slice < 2048 && queue < 262144 && seq < 2 ^ 48
  | .syncFree slice queue seq => slice < 2048 && queue < 262144 && seq < 2 ^ 48
  | .syncNotify slice queue seq => slice < 2048 && queue < 262144 && seq < 2 ^ 48
  | .syncGrant slice queue seq => slice < 2048 && queue < 262144 && seq < 2 ^ 48
  | .syncUngrant slice queue seq => slice < 2048 && queue < 262144 && seq < 2 ^ 48
  | .syncOp slice queue seq => slice < 2048 && queue < 262144 && seq < 2 ^ 48
  | .ctrSample slice queue seq => slice < 2048 && queue < 262144 && seq < 2 ^ 48
  | .watchArm slice queue seq => slice < 2048 && queue < 262144 && seq < 2 ^ 48
  | .watchDisarm slice queue seq => slice < 2048 && queue < 262144 && seq < 2 ^ 48
  | .watchReport slice queue seq => slice < 2048 && queue < 262144 && seq < 2 ^ 48
  | .kidBind slice queue seq => slice < 2048 && queue < 262144 && seq < 2 ^ 48
  | .kidRetire slice queue seq => slice < 2048 && queue < 262144 && seq < 2 ^ 48
  | .rgnAssign slice queue seq => slice < 2048 && queue < 262144 && seq < 2 ^ 48
  | .rgnRelease slice queue seq => slice < 2048 && queue < 262144 && seq < 2 ^ 48
  | .resealKey slice queue seq => slice < 2048 && queue < 262144 && seq < 2 ^ 48
  | .rekeySweepPage region => region < 65
  | .hrgAssign slice queue seq => slice < 2048 && queue < 262144 && seq < 2 ^ 48
  | .hrgRelease slice queue seq => slice < 2048 && queue < 262144 && seq < 2 ^ 48
  | .hearthInitDone range => range < 16
  | .phaseHint slice queue seq => slice < 2048 && queue < 262144 && seq < 2 ^ 48
  | .oppRequest slice queue seq => slice < 2048 && queue < 262144 && seq < 2 ^ 48
  | .bindPlain _ _ => true
  | .fbxRetire _ _ => true
  | .fbxCtlWrite _ _ => true
  | .kidFlushComplete _ => true
  | .remask _ => true
  | .orphanSweep => true
  | .keyDeriveDone _ => true
  | .trngFault => true
  | .epochPrepare _ slot _ => slot < 256
  | .epochSwitch _ slot _ => slot < 256
  | .epochRetire _ slot _ => slot < 256
  | .mslAssign _ => true
  | .mslRelease _ => true
  | .mslCtlWrite _ _ => true
  | .hthAssign _ => true
  | .hthRelease _ => true
  | .hthCtlWrite _ _ => true
  | .hthScrubCtlWrite _ _ => true
  | .scrubIssue engine _ _ => engine < 12
  | .scrubDeadline engine => engine < 12
  | .linkEnable _ link _ => link < 32
  | .linkRetrain _ link => link < 32
  | .linkAdapt _ link => link < 32
  | .linkSave _ link _ => link < 32
  | .lnkModeWrite _ port _ => port < 8
  | .lnkSessCtlWrite _ port _ => port < 8
  | .trainingDone link _ _ _ _ => link < 32
  | .lockAcquired link _ => link < 32
  | .lockLost link lane _ _ _ => link < 32 && lane < 16
  | .lockTimeout link => link < 32
  | .negotiateReceive link cws => link < 32 && cwsWf cws
  | .negotiateSend link => link < 32
  | .negTimeout link => link < 32
  | .adaptDone link => link < 32
  | .serRate link lane corrected symbols _ => link < 32 && lane < 16 && corrected ≤ symbols
  | .flitReceive link cws => link < 32 && cwsWf cws
  | .linkCtlReceive link cws => link < 32 && cwsWf cws
  | .linkCtlSend link => link < 32
  | .nakRepeat link => link < 32
  | .replayTimeout link => link < 32
  | .flitTransmit link => link < 32
  | .fabRequestReceive f => flitInOk f
  | .fabResponseReceive f => flitInOk f
  | .recordTimeout tid => tid < 2 ^ 20
  | .holdResend tid => tid < 2 ^ 20
  | .flagHoldExpiry => true
  | .fabTclr _ _ => true
  | .fabNodeWrite _ _ => true
  | .fabRtdataWrite _ _ => true
  | .fabMrdataWrite _ _ => true
  | .colDataReceive f => flitInOk f
  | .colCreditReceive f => flitInOk f
  | .colAbortReceive f => flitInOk f
  | .colCreditSend plan step => plan < 256 && step < 1024
  | .colFlushTimer plan step => plan < 256 && step < 1024
  | .stepStart plan step => plan < 256 && step < 1024
  | .stepComplete plan step => plan < 256 && step < 1024
  | .runTimeout plan step => plan < 256 && step < 1024
  | .synSlcfgWrite _ _ => true
  | .synCtlWrite _ _ => true
  | .hostSignal _ slice port _ => slice < 2048 && port < 15
  | .orphanAll _ slice => slice < 2048
  | .deadlockScan => true
  | .deadlockEscalate => true
  | .syncDebugRead _ => true
  | .syncForce _ _ => true
  | .atsInvalidation itag _ _ _ _ => itag < 32
  | .invalidationTimeout itag => itag < 32
  | .translationCompletion _ page _ => page < 2 ^ 52
  | .pageResponse _ group code => group < 512 && code < 16
  | .prqTimeout _ group => group < 512
  | .stkXlatCtlWrite _ _ => true
  | .hostTransferCompletion _ _ _ => true
  | .functionLevelReset => true
  | .lockInterfaceRequest _ slice stream rid _ => slice < 2048 && stream < 256 && rid < 65536
  | .startInterfaceRequest _ slice _ => slice < 2048
  | .stopInterfaceRequest _ slice => slice < 2048
  | .getDeviceInterfaceReport _ slice => slice < 2048
  | .getDeviceInterfaceState _ slice => slice < 2048
  | .getTdispVersion _ => true
  | .getTdispCapabilities _ => true
  | .ideStreamInsecure stream => stream < 256
  | .siteLinkActive site => site < 8
  | .siteSpdmResponse site _ => site < 8
  | .siteSpdmTimeout site => site < 8
  | .siteLinkInactive site => site < 8
  | .siteWindowSet _ path _ => pathOk path
  | .siteWindowClear _ path _ => pathOk path
  | .siteWindowClearKid _ path _ => pathOk path
  | .readmit _ path _ => pathOk path
  | .bridgeHeartbeatSend => true
  | .bridgePeerLost pos => pos < 8
  | .bridgeHelloReceive h => helloOk h
  | .electionClose => true
  | .ceAssign _ page => page < 64
  | .ceUnassign _ page => page < 64
  | .ceLoad _ page => page < 64
  | .ceZero _ page => page < 64
  | .ceCtlWrite _ _ => true
  | .ceParamWrite _ page _ => page < 64
  | .throttleInterval => true
  | .telSCtlWrite _ slice _ => slice < 2048
  | .telSCfgWrite _ slice _ => slice < 2048
  | .telSQvalRead _ slice => slice < 2048
  | .registerLowHalfRead _ off => off < 2 ^ 25
  | .registerLowHalfWrite _ off _ => off < 2 ^ 25
  | .registerWrite _ off width _ => off < 2 ^ 25 && [8, 16, 32, 64].contains width
  | .regAccess _ off width _ => off < 2 ^ 25 && [8, 16, 32, 64].contains width
  | .suppressed code => code < 65536
  | .permProgram _ => true
  | .recClear _ => true
  | .recRlWrite _ _ => true
  | .recDataRead _ => true
  | .resetReq _ level _ => level < 8
  | .rstReqWrite _ _ => true
  | .watchdogExpiry => true
  | .selfRefreshAck stack => stack < 4
  | .fenceTimeout => true
  | .recoveryTimeout => true
  | .rstDumpAck _ => true
  | .rstDumpDataRead _ => true
  | .rstCtlWrite _ _ => true
  | .lcTransitionRequest _ _ _ => true
  | .lcStep _ => true
  | .anchorSet _ _ _ => true
  | .anchorRevoke _ _ _ => true
  | .debugChallenge _ _ _ => true
  | .debugOpen _ _ => true
  | .debugOpenComplete => true
  | .damperInterval _ => true
  | .oppVoltageAck => true
  | .siteLevelTimeout site => site < 8
  | .budgetReallocate => true
  | .shareReceive w => w < 65536
  | .shareTimeout => true
  | .pwrBudget _ w lease => w < 65536 && lease < 65536
  | .pwrBudgetLapse => true
  | .pwrQuery _ => true
  | .pwrLimit _ limit _ => limit < 65536
  | .pwrReport => true
  | .droopTrip src => src < 9
  | .thermalWarn hottest => hottest < 65536
  | .thermalTrip hottest => hottest < 65536
  | .thermalCrit hottest => hottest < 65536
  | .pmbusPoll _ => true
  | .vinFault => true
  | .pmbusStageTimeout stage => stage < 16
  | .pwrCtlWrite _ _ => true
  | .trainingSlotWrite => true
  | .droopRecover => true
  | .thermalClear hottest => hottest < 65536
  | .brCtlReceive _ => true
  | .ideKmMessage _ _ => true
  | .hostConfigWrite _ => true
  | .translationTimeout _ page => page < 2 ^ 52
  | .mctpControlMessage _ _ => true

end Sys2Proof
end

