-- ==== Sys2Proof/Tests/Slice0.lean ====
section
/-! SUPPORT. The package's own tests: what WellFormed refuses, the spec's worked examples, and for each statement of
Certificates/Slice0/Obligations.lean states that meet its hypotheses. -/

set_option linter.unusedVariables false
set_option Elab.async false

namespace Sys2Proof.Tests
open Sys2Proof Sys2Proof.Machine

/-! ## States the tests share -/

/-- Right after reset, with every unit released, Kindling completed, a configuration in use and the group formed. -/
def up : State :=
  let s := State.reset
  { s with
    rst := { s.rst with step := 7, phase := .ready }
    boot := { s.boot with phase := 4, config := 1 }
    hst := { s.hst with group := .formed, present := 1 }
    lc := { s.lc with words := [BitVec.allOnes 32, 0, 0, 0], anchors := [.valid 7, .empty, .empty, .empty] }
    rcd := { s.rcd with loaded := true } }

/-- A session of the operator, and the management endpoint and the kernel driver as register requesters. -/
def oper : Mgmt := { secure := true, root := 7, role := true }
def mg : Req := { mgmt := true }
def kern : Req := {}

/-- A finished command, and a state in which it is the first of queue 2 of slice 4. -/
def fin0 : Cmd := { seq := 1, words := [0x45], stage := .finished, status := 1 }
def withQueue (s : State) (x : Queue) : State :=
  s.setSlice 4 { state := .active, cfg := 7 + 2 ^ 33, qsel := 2, queues := ({} : Tbl Queue).set {} 2 x }
def comm : State := withQueue up { state := .enabled, nextSeq := 2, cmds := [fin0] }
def waiting : State := { comm with hst := { comm.hst with ats := true } }
def cplBad : State := withQueue up { state := .enabled, nextSeq := 2, cmds := [fin0], xlatBad := 1 }
/-- Command 1 of queue 2 of slice 4 in its unit. -/
def cmd1 (w : List (BitVec 64)) : Cmd := { seq := 1, words := w, stage := .executing, started := true }
def runs (s : State) (w : List (BitVec 64)) : State := withQueue s { state := .enabled, nextSeq := 2, cmds := [cmd1 w] }
/-- A copy, or fill, of 8 bytes between two host objects, and a state in which it is at work. -/
def copyCmd (op : Nat) (got : List (Nat × List Byte)) (bad : Nat) : Cmd :=
  { cmd1 [BitVec.ofNat 64 op, BitVec.ofNat 64 (mkHandle 0 1 + 2 ^ 32 * (if op = 0x10 then mkHandle 1 1 else 8)), if op = 0x10 then 8 * 2 ^ 40 else 0, 0] with
    hostGot := got, xlatBad := bad }
def copying (c : Cmd) : State :=
  up.setSlice 4 { state := .active, cfg := 7 + 2 ^ 33, qsel := 2, queues := ({} : Tbl Queue).set {} 2 { state := .enabled, nextSeq := 2, cmds := [c] }, objs := (({} : Tbl ObjEntry).set {} 0 { state := .valid, kind := 2, size := 64, rd := true }).set {} 1 { state := .valid, kind := 2, base := 4096, size := 64, wr := true } }
/-- The same with address translation by the host, so that a store waits for it. -/
def storing (c : Cmd) : State := let s := copying c; { s with hst := { s.hst with ats := true } }
/-- A reseal of n pages at the start of region 3, and a state in which it is at work. -/
def reCmd (n : Nat) : Cmd :=
  { cmd1 [0x12, BitVec.ofNat 64 (mkHandle 0 1 + 2 ^ 32 * n), 0, 0] with rgn := 4 }
def fillCmd (n : Nat) : Cmd := { reCmd n with words := [0x13, BitVec.ofNat 64 (mkHandle 0 1 + 2 ^ 32 * n), 0, 5] }
def resealing (c : Cmd) : State :=
  let s : State := { up with
    msl := { up.msl with rgns := up.msl.rgns.set {} 3 { state := .active, mode := 1, kid := 9, size := 1 } }
    fbx := { up.fbx with kids := up.fbx.kids.set {} 9 { state := .active } } }
  s.setSlice 4 { state := .active, cfg := 7 + 2 ^ 33, queues := ({} : Tbl Queue).set {} 2 { state := .enabled, nextSeq := 2, cmds := [c] }, objs := ({} : Tbl ObjEntry).set {} 0 { state := .valid, size := 4096, wr := true } }
/-- A cipher command of a mode between two host objects. -/
def ceCmd (mode : Nat) (src : List Byte) (bad : Nat) : Cmd :=
  { cmd1 [0x14, BitVec.ofNat 64 (mode * 2 ^ 6 + src.length * 2 ^ 12), BitVec.ofNat 64 (mkHandle 0 1 + 2 ^ 32 * mkHandle 1 1), 0] with
    hostGot := if bad = 0 then [(0, src)] else [], xlatBad := bad }
/-- The header and the one step of a plan that receives 32 elements into OUT, and a state whose command reads them. -/
def planHdr : List (BitVec 64) := [1 + 2^16 + 2^20, BitVec.ofNat 64 (2^32 * mkHandle 1 1), 0,0,0,0,0,0]
def planStep : List (BitVec 64) := [2+2^44,2*2^20,32,0,0,0,0,0]
def planning (c : Cmd) : State :=
  let s := up.setLink 0 { up.link 0 with state := .up, peerNode := 3 }
  (s.setSlot 0 { state := .live }).setSlice 4 { state := .active, cfg := 7 + 2 ^ 33 + 2 ^ 46, bound := true, queues := ({} : Tbl Queue).set {} 2 { state := .enabled, nextSeq := 2, cmds := [c] }, objs := (({} : Tbl ObjEntry).set {} 0 { state := .valid, kind := 2, size := 128, rd := true }).set {} 1 { state := .valid, kind := 0, base := 4096, size := 1024, wr := true } }
def unbound (c : Cmd) : State := (planning c).modSlice 4 fun l => { l with bound := false }
/-- A PLAN_LOAD whose descriptor has arrived. -/
def planCmd (h : List (BitVec 64)) : Cmd :=
  { cmd1 [0x30, BitVec.ofNat 64 (mkHandle 0 1), 0] with
    hostGot := [(0, (h.map fun w => leBytes 8 w.toNat).flatten), (64, (planStep.map fun w => leBytes 8 w.toNat).flatten)] }
/-- Link 0 in a state of its own, its port out of reset, and the port's domain powered. -/
def linked (x : Link) : State :=
  let s : State := { up with boot := { up.boot with variant := BitVec.allOnes _ }, sys := { up.sys with pd := up.sys.pd.set .on 6 .on } }
  (s.setPort 0 { s.port 0 with ready := true }).setLink 0 x
/-- The plan of `planHdr` running in slot 0, one second after reset, with its step started. -/
def stepping (f : StepRun → StepRun) : State :=
  let s : State := { up with sys := { up.sys with now := 10 ^ 9 } }
  (s.setPlan 0 { loaded := true, gen := 1, slice := 4, running := true, header := planHdr, steps := [planStep] }).modSrun 0 0 fun r => f { r with stage := .started }
/-- Ten seconds after reset, on main power. -/
def late : State := { up with sys := { up.sys with now := 10 ^ 10, mainPower := true } }
/-- The same with a second die present. -/
def pair : State := { late with hst := { late.hst with present := 3 } }
/-- The alignment codewords of the lanes of a link of 32 lanes, in two consecutive superframes. -/
def aligned (n : Nat) : List LaneAlign :=
  (List.range n).map fun k => { first := (List.range 8).map fun j => alignSymbol j k 0 5, second := (List.range 8).map fun j => alignSymbol j k 0 6, arrival := 0 }
/-- A plain flit of a type with zero payload and its CRC. -/
def plainFlit (ftype : Nat) : List Byte :=
  let h := flitHeader ftype 0 0 0 0
  let pl := List.replicate 240 (0 : Byte)
  leBytes 8 h.toNat ++ pl ++ leBytes 8 (crcField h pl).toNat
/-- A record out, due for a resend, and a state that holds it. -/
def rec1 : OutRec :=
  { tid := 3, owner := .cmd 4 2 1, pairSlot := 0, node := 9, member := 0, kind := 1, deadline := 5, dest := 0, lines := 0, bytes := [], resendAt := 5 }
def recOut : State := { late with fab := { late.fab with node := 1, outs := [rec1] } }
/-- A credit, or abort, entry of a `COL_CTL` payload. -/
def colPl (op : Nat) : List Byte := leBytes 4 1 ++ leBytes 4 op ++ List.replicate 232 0
/-- The same with every site raised to level 0. -/
def calm : State := { late with pwr := { late.pwr with siteUp := (List.range 8).foldl (fun t n => t.set 0 n 15) late.pwr.siteUp } }
/-- What the damper makes of an interval without power, before it notes demand, and after. -/
def taken (s : State) : State :=
  let w := if s.runsThrottled then s.noteThrottle true else s
  { w with pwr := { w.pwr with intervalAt := w.now, pW := 0, throttled := s.runsThrottled, lowRun := min 10 (w.pwr.lowRun + 1) } }
def noted (s : State) : State :=
  (((taken s).noteDemand s.runsThrottled 0).notePacing (s.now - s.pwr.intervalAt)).applyFloors.endHolds
/-- A member's empty statement whose signature verifies (worked out by hand for a key that makes both scalars small). -/
def stm : MemberStmt :=
  { pos := 1, stmt := [], chainOk := true
    sig := (0xe2c1829d46b258e13364c9fac6c78da887f6dc4452f81d0d30331efd8fdb87689d3b7aff9dbd97ef546b4bc52262e56c,
      0x38b060a751ac96384cd9327eb1b1e36a21fdb71114be07434c0cc7bf63f6e1da274edebfe76f65fbd51ad2f14898b95b)
    key := (0xba2eae184d4fcd09acbf5436104d5a5a96426f75021790fdce6b2d574476d6b997ba2e3829a57f1896663ebdd6129c38,
      0x746b4361316516f6f5da2baf1e675da1a0b9dceb0df6591a6d24dd9f4477f48975c74746a7e278729708c75a80effb9a) }
/-- Queue 2 of slice 4 with an entry to fetch. -/
def fetching : State := withQueue up { state := .enabled, tail := 1, nextSeq := 1 }
/-- A finished PLAN_RUN whose statistics block waits for the translation of a host object, and a state in which it is the first. -/
def runFin : Cmd := { seq := 1, words := [0x31], stage := .finished }
def statsWait : State :=
  let s : State := { copying runFin with hst := { up.hst with ats := true } }
  s.setPlan 0 { loaded := true, gen := 1, slice := 4, running := true, runSeq := 1, runQ := 4 * 2 ^ 18 + 2, objs := [0, 0, 0, 2], header := planHdr, steps := [planStep] }
/-- A FAB_WRITE of one line of a host object through remote window entry 0, and a state in which it is at work. -/
def fabCmd (got : List (Nat × List Byte)) (bad : Nat) : Cmd :=
  { cmd1 [0x25, 0, BitVec.ofNat 64 (mkHandle 0 1 + 2 ^ 32), 0] with hostGot := got, xlatBad := bad }
def fabbing (c : Cmd) : State := (copying c).setRwin 0 { set := true, slice := 4, rights := 15, node := 9 }
/-- A command with one record, and remote window entry 5. -/
def oneRec (c : Cmd) (rights : BitVec 4) : State := (withQueue up { state := .enabled, nextSeq := 2, cmds := [c] }).setRwin 5 { set := true, slice := 4, rights, node := 9 }
/-- A format command of one group between two host objects, its descriptor read, and a state in which it is at work; what
its one step leaves. -/
def fmtOf (op : Nat) : Cmd :=
  { cmd1 [BitVec.ofNat 64 op] with
    desc := [0, BitVec.ofNat 64 (mkHandle 0 1 + 2 ^ 32 * mkHandle 1 1), 0, 0, 0, 0, 32, 0]
    hostGot := if op = 0x33 then [(0, List.replicate 128 0)] else [(0, List.replicate 2 0), (2, List.replicate (fmtBytes 0 - 2) 0)] }
def fmtState (c : Cmd) : State :=
  up.setSlice 4 { state := .active, cfg := 7 + 2 ^ 33, qsel := 2, queues := ({} : Tbl Queue).set {} 2 { state := .enabled, nextSeq := 2, cmds := [c] }, objs := (({} : Tbl ObjEntry).set {} 0 { state := .valid, kind := 2, size := 4096, rd := true }).set {} 1 { state := .valid, kind := 2, base := 4096, size := 4096, wr := true } }
def fmtAt (op : Nat) : State := fmtState (fmtOf op)
def runs32 (op : Nat) : State := fmtState { fmtOf op with progress := 32 }
def fmtGo (op : Nat) : Option State × State :=
  if op = 0x33 then (fmtAt op).quantStep 4 2 1 (fmtOf op) else (fmtAt op).dequantStep 4 2 1 (fmtOf op)
def fmtSide (op : Nat) : State := (fmtGo op).2
def fmtAfter (op : Nat) : State := (fmtGo op).1.getD up
def fmtNext (op : Nat) : Cmd := ((fmtAfter op).cmd? 4 2 1).getD fin0
/-- A state in which the descriptor of a PLAN_LOAD runs past its object. -/
def shortDesc : State :=
  let s := planning (planCmd planHdr)
  s.setObj 4 0 { s.obj 4 0 with size := 64 }
/-- A command that re-keys region 3, of n MiB, from KID 9 to itself, and a state in which it is at work. -/
def sweepCmd : Cmd := { cmd1 [0x64, 3] with rgn := 4 }
def sweepState (c : Cmd) (n w : Nat) : State :=
  let s : State := { withQueue up { state := .enabled, nextSeq := 2, cmds := [c] } with fbx := { up.fbx with kids := up.fbx.kids.set {} 9 { state := .active } } }
  s.setRgn 3 { state := .rekeying, mode := 1, kid := 9, size := n, newKid := 9, watermark := w }
def sweeping (n w : Nat) : State := sweepState sweepCmd n w
/-- The codeword that brings a flit as the first of its superframe, zeros behind it. -/
def flitCw (b : List Byte) : List (List (BitVec 10)) := [encodeCw (symsOf (leNat b ^^^ (prbsRun flitBits prbsInit).1))]
/-- What the decoder of link 0 hands over. -/
def hears (s : State) (b : List Byte) : RxRead := (s.rxDecode 0 (flitCw b)).1
def heard (s : State) (b : List Byte) : State := (s.rxDecode 0 (flitCw b)).2
/-- A plan with steps of one's own running in slot 0, one second after reset, its first step at a point of its run. -/
def planned (w : List (List (BitVec 64))) (r : StepRun) : State :=
  let s : State := { up with sys := { up.sys with now := 10 ^ 9 } }
  s.setPlan 0 { loaded := true, gen := 1, slice := 4, running := true, header := planHdr, steps := w, sruns := ({} : Tbl StepRun).set {} 0 r }
/-- The lead of a chiplet's signed bytes that holds one byte, with no nonce drawn and nothing else in the transcript, a signature
of them and the key that verifies it: the digest is the abscissa of the sum of that key and the base point. -/
def goodLead : List Byte := [1]
def goodSig : Nat × Nat := (0xdb83621b694bd078cc092f6f4afd10c8735221518f4ef6e57036e3923f7914e5565f65da68febc8c9506abae57127a4a, 0xdb83621b694bd078cc092f6f4afd10c8735221518f4ef6e57036e3923f7914e5565f65da68febc8c9506abae57127a4a)
def goodKey : Nat × Nat :=
  (0x2d2ca9c0221e9a8b038b6fdef47bc5a16f047635c7f07977a9d71515bab3ad6f5fcdad8d37c3a778f7404df683b5a8c4,
   0x4a5d6b54afb7cf61114c74463168490977a23d228b3a822b130d08edca9ac852f31b7b36996d8b63db17cd1bdc2c7783)
/-- A search that no index satisfies finds none. -/
theorem lowest_full {n m : Nat} {p : Nat → Bool} (h : ∀ k, k < m → p k = false) : lowest (min m n) p = none := by
  simp only [lowest, List.find?_eq_none, List.mem_range]
  intro k hk
  rw [h k (by omega)]
  decide

/-! ## WellFormed refuses -/

def ill1 : List Instr :=
  [.networkRequest 0 (.read (.hbm 4 0)),
   .hbmReadReturn 4 0 0 false false,
   .metadataFetchReturn 4 0 0 false false false,
   .pageReencrypt 65 0,
   .hearthReadReturn 109051904 0 0,
   .powerGroupChange 4 0,
   .domainSwitchOff 30,
   .domainWake 30,
   .domGroupLevel {} 256 0 [],
   .domSecret {} 256 [],
   .memberConfirmTimeout 256,
   .domBindSlice {} 256 0,
   .domAddSite {} 256 0 0,
   .domActivate {} 256,
   .domLease {} 256,
   .leaseLapse 256,
   .admissionTimeout 256,
   .quarantineTimeout 256,
   .domResume {} 256,
   .domTeardown {} 256,
   .domQuery {} 256,
   .teardownAdvance 256,
   .revokeAll {} 2048,
   .squashAll {} 2048,
   .sliceReset {} 2048,
   .sliceResetAdvance 2048,
   .qmSlLevelWrite {} 2048 0,
   .queueEnable {} 2048,
   .stopDrain {} 2048,
   .stopSquash {} 2048]

def ill2 : List Instr :=
  [.queueResume {} 2048,
   .queueDisable {} 2048,
   .qmDbTailWrite {} 262144 0,
   .qmDbCplHeadWrite {} 262144 0,
   .qmAbort {} 2048 0,
   .commandFetch 2048 0 none,
   .commandStart 2048 0,
   .commandCommit 2048 0,
   .objDefine 2048 0 0,
   .objFree 2048 0 0,
   .timeRead 2048 0 0,
   .copy 2048 0 0,
   .fill 2048 0 0,
   .resealZero 2048 0 0,
   .resealFill 2048 0 0,
   .resealPage 2048 0 0,
   .cipher 2048 0 0,
   .cipherKeyLoad 2048 0 0,
   .winOpen 2048 0 0,
   .winClose 2048 0 0,
   .rwinSet 2048 0 0,
   .rwinClear 2048 0 0,
   .fabRead 2048 0 0,
   .fabWrite 2048 0 0,
   .fabAtomic 2048 0 0,
   .sigRemote 2048 0 0,
   .flushRemote 2048 0 0,
   .planLoad 2048 0 0,
   .planRun 2048 0 0,
   .planUnload 2048 0 0]

def ill3 : List Instr :=
  [.quantise 2048 0 0,
   .dequantise 2048 0 0,
   .syncInit 2048 0 0,
   .syncFree 2048 0 0,
   .syncNotify 2048 0 0,
   .syncGrant 2048 0 0,
   .syncUngrant 2048 0 0,
   .syncOp 2048 0 0,
   .ctrSample 2048 0 0,
   .watchArm 2048 0 0,
   .watchDisarm 2048 0 0,
   .watchReport 2048 0 0,
   .kidBind 2048 0 0,
   .kidRetire 2048 0 0,
   .rgnAssign 2048 0 0,
   .rgnRelease 2048 0 0,
   .resealKey 2048 0 0,
   .rekeySweepPage 65,
   .hrgAssign 2048 0 0,
   .hrgRelease 2048 0 0,
   .hearthInitDone 16,
   .phaseHint 2048 0 0,
   .oppRequest 2048 0 0,
   .epochPrepare {} 256 0,
   .epochSwitch {} 256 0,
   .epochRetire {} 256 0,
   .scrubIssue 12 false false,
   .scrubDeadline 12,
   .linkEnable {} 32 false,
   .linkRetrain {} 32]

def ill4 : List Instr :=
  [.linkAdapt {} 32,
   .linkSave {} 32 [],
   .lnkModeWrite {} 8 0,
   .lnkSessCtlWrite {} 8 0,
   .trainingDone 32 false 0 [] [],
   .lockAcquired 32 [],
   .lockLost 32 0 [] [] [],
   .lockTimeout 32,
   .negotiateReceive 32 [],
   .negotiateSend 32,
   .negTimeout 32,
   .adaptDone 32,
   .serRate 32 0 0 0 0,
   .flitReceive 32 [],
   .linkCtlReceive 32 [],
   .linkCtlSend 32,
   .nakRepeat 32,
   .replayTimeout 32,
   .flitTransmit 32,
   .fabRequestReceive (.link 32),
   .fabResponseReceive (.link 32),
   .recordTimeout 1048576,
   .holdResend 1048576,
   .colDataReceive (.link 32),
   .colCreditReceive (.link 32),
   .colAbortReceive (.link 32),
   .colCreditSend 256 0,
   .colFlushTimer 256 0,
   .stepStart 256 0,
   .stepComplete 256 0]

def ill5 : List Instr :=
  [.runTimeout 256 0,
   .hostSignal {} 2048 0 0,
   .orphanAll {} 2048,
   .atsInvalidation 32 0 false 0 0,
   .invalidationTimeout 32,
   .translationCompletion 0 (2 ^ 52) .refused,
   .pageResponse 0 512 0,
   .prqTimeout 0 512,
   .lockInterfaceRequest {} 2048 0 0 0,
   .startInterfaceRequest {} 2048 0,
   .stopInterfaceRequest {} 2048,
   .getDeviceInterfaceReport {} 2048,
   .getDeviceInterfaceState {} 2048,
   .ideStreamInsecure 256,
   .siteLinkActive 8,
   .siteSpdmResponse 8 .error,
   .siteSpdmTimeout 8,
   .siteLinkInactive 8,
   .siteWindowSet {} (some 2048) 0,
   .siteWindowClear {} (some 2048) 0,
   .siteWindowClearKid {} (some 2048) 0,
   .readmit {} (some 2048) 0,
   .bridgePeerLost 8,
   .bridgeHelloReceive { pos := 8, serial := 0, pkgSize := 1, lc := 2 },
   .ceAssign {} 64,
   .ceUnassign {} 64,
   .ceLoad {} 64,
   .ceZero {} 64,
   .ceParamWrite {} 64 0,
   .telSCtlWrite {} 2048 0]

def ill6 : List Instr :=
  [.telSCfgWrite {} 2048 0,
   .telSQvalRead {} 2048,
   .registerLowHalfRead {} 33554432,
   .registerLowHalfWrite {} 33554432 0,
   .registerWrite {} 33554432 0 0,
   .regAccess {} 33554432 0 false,
   .suppressed 65536,
   .resetReq {} 8 false,
   .selfRefreshAck 4,
   .siteLevelTimeout 8,
   .shareReceive 65536,
   .pwrBudget {} 65536 0,
   .pwrLimit {} 65536 false,
   .droopTrip 9,
   .thermalWarn 65536,
   .thermalTrip 65536,
   .thermalCrit 65536,
   .pmbusStageTimeout 16,
   .thermalClear 65536,
   .translationTimeout 0 4503599627370496,
   .clockFault (.mclk 4) false,
   .hbmReadReturn 0 (2 ^ 30) 0 false false,
   .pageReencrypt 0 (2 ^ 24),
   .domGroupLevel {} 1 65536 [],
   .domAddSite {} 0 8 0,
   .domBindSlice {} 0 2048,
   .commandFetch 0 262144 none,
   .copy 0 262144 0,
   .copy 0 0 (2 ^ 48),
   .negotiateReceive 0 []]

def ill7 : List Instr :=
  [.lockLost 0 16 [] [] [],
   .serRate 0 16 0 0 0,
   .serRate 0 0 1 0 0,
   .flitReceive 0 [],
   .flitReceive 0 [List.replicate 543 0],
   .linkCtlReceive 0 [[], [], []],
   .colCreditSend 0 1024,
   .hostSignal {} 0 15 0,
   .pageResponse 0 0 16,
   .lockInterfaceRequest {} 0 256 0 0,
   .lockInterfaceRequest {} 0 0 65536 0,
   .registerWrite {} 0 0 0,
   .regAccess {} 0 12 false,
   .pwrBudget {} 0 65536,
   .networkRequest 0 (.write (.hearth 109051904) 0 0),
   .networkRequest 0 (.read (.hbm 0 (2 ^ 30))),
   .networkRequest 0 (.read (.aperture 16384 0)),
   .networkRequest 0 (.read (.aperture 0 (2 ^ 40))),
   .networkRequest 0 (.atomic 0 4 0 0 0),
   .networkRequest 0 (.atomic 0 0 16 0 0),
   .fabRequestReceive (.bridge 8 none 0 0 []),
   .fabRequestReceive (.bridge 0 (some 64) 0 0 []),
   .fabRequestReceive (.bridge 0 none 65536 0 []),
   .fabRequestReceive (.bridge 0 none 0 65536 []),
   .fabRequestReceive (.bridge 0 none 0 0 (List.replicate 241 0)),
   .bridgeHelloReceive { pos := 0, serial := 0, pkgSize := 4, lc := 2 },
   .bridgeHelloReceive { pos := 0, serial := 0, pkgSize := 1, lc := 8 }]

/-- Each check refuses its ill-formed terms. -/
theorem test_refuses_ill1 : ill1.all (fun i => !i.wf) = true := by decide +kernel
theorem test_refuses_ill2 : ill2.all (fun i => !i.wf) = true := by decide +kernel
theorem test_refuses_ill3 : ill3.all (fun i => !i.wf) = true := by decide +kernel
theorem test_refuses_ill4 : ill4.all (fun i => !i.wf) = true := by decide +kernel
theorem test_refuses_ill5 : ill5.all (fun i => !i.wf) = true := by decide +kernel
theorem test_refuses_ill6 : ill6.all (fun i => !i.wf) = true := by decide +kernel
theorem test_refuses_ill7 : ill7.all (fun i => !i.wf) = true := by decide +kernel

/-- The last admitted values pass. -/
theorem test_admits : [(Instr.kclkResume : Instr), (Instr.hbmReadReturn 3 (2 ^ 30 - 1) 0 false false : Instr), (Instr.copy 2047 262143 (2 ^ 48 - 1) : Instr), (Instr.networkRequest 0 (.atomic 16383 (2 ^ 40 - 8) 15 0 0) : Instr), (Instr.registerWrite {} (2 ^ 25 - 4) 32 0 : Instr), (Instr.siteWindowSet {} (some 2047) 0 : Instr), (Instr.colCreditSend 255 1023 : Instr), (Instr.domAddSite {} 255 7 0 : Instr)].all Instr.wf = true := by decide +kernel

/-! ## The spec's worked examples -/

/-- R31's example of a tag on the network. -/
theorem test_tag_fields : let t : Tag := 0x000069E62C13
    tagSite t = 3 ∧ tagSlice t = 0x2C1 ∧ tagSlot t = some 12 ∧ tagKid t = 0x1A7 ∧ tagClass t = 0 ∧ tagHub t = 0 ∧ tagRsv t = 0 := by
  decide +kernel

/-- R31: a response keeps the request's fields; only POISON is set. -/
theorem test_tag_response : respTag 0x000069E62C13 true = 0x001069E62C13 ∧ respTag 0x000069E62C13 false = 0x000069E62C13 := by
  decide +kernel

/-- R149's example: the block 0 input of a line, byte 0 of the little-endian fields entering the cipher first. -/
theorem test_input_block : inputBlock 0 (2 * 2 ^ 30 + 0xC8D159E) 17 0 1 3 =
    beNat (leBytes 16 0x00000000000000034000004632345678) := by decide +kernel

/-- R92's example of a handle. -/
theorem test_handle : mkHandle 0x123 0x3FF = 0xFFC00123 := by decide +kernel

/-- R226's example of a flit header. -/
theorem test_flit_header : withLseq (flitHeader 8 0x1B7 9 0x107 0x12) 0x5A3 = 0x5A30012010796DC8 ∧
    noLseq 0x5A30012010796DC8 = 0x0000012010796DC8 := by decide +kernel

/-- R261's example of a `SIGNAL` record: words 0 and 2. -/
theorem test_signal_record : let b := reqBytes 4 true 0 0 0xA3F 0 0x12 0x40 0x5C2E9B01 1003 0 []
    recWord b 0 = 0x0000120000A3F014 ∧ recWord b 2 = 0x000003EB5C2E9B01 := by decide +kernel

/-- The 32 values of R301's example. -/
def example32 : List Nat := (List.replicate 8 [0x40300000, 0xBFA80000, 0x3F180000, 0x3DC00000]).flatten

/-- R301's first example: the group goes out as MXFP6 E2M3, promoted, with its residual. -/
theorem test_promoted_block : let x := sendGroup 0x0000000000040726 none (example32.map (·, false)) false {}
    x.bytes = [0x7E, 0x14] ++ (List.replicate 8 [(0x9B : Byte), 0xAC, 0x08]).flatten ∧
    x.resid.take 4 = [0, 0xBD800000, 0xBD000000, 0xBD000000] := by decide +kernel

/-- R301's second example: the same values as K2T, saturated. -/
theorem test_ternary_block : let x := sendGroup 0x0000000000040088 none (example32.map (·, false)) false {}
    x.bytes = [0x7F, 0x28] ++ List.replicate 8 0x1D ∧
    x.resid.take 4 = [0x3FE00000, 0xBEA00000, 0xBED00000, 0x3DC00000] := by decide +kernel

/-- R334's example: a fence at 40 ignores a signal of 40 and takes one of 52. -/
def fence40 : State := up.setSyncObj 0 { kind := .fence, value := 40 }
theorem test_fence_regress : ((fence40.signalObj 0 40).syncObj 0).value = 40 ∧ ((fence40.signalObj 0 40).syncObj 0).regress = true := by
  decide +kernel
theorem test_fence_signal : ((fence40.signalObj 0 52).syncObj 0).value = 52 ∧ ((fence40.signalObj 0 52).syncObj 0).regress = false := by
  decide +kernel

/-- R492's example of shares (R485). -/
theorem test_shares : [800, 750, 650, 600].map (shareOf 2400 200 4 2800) = [685, 642, 557, 514] := by decide +kernel

/-- The level counts of the example region of R156. -/
theorem test_levels : levelsOf 10 11010048 = [1376256, 172032, 21504, 2688, 336, 42, 6] := by decide +kernel

/-! ## Whole commands -/

/-- PORST, its hold and the first release step, on main power. -/
theorem test_power_on : (match exec (.powerOn true) State.reset with
    | .next t => decide (t.rst.phase = .held ∧ t.sys.mainPower = true)
    | _ => false) = true := by decide +kernel

/-- The table has no bits, so no word spells a command. -/
theorem test_no_word : decodeTableWord 32 0 = none ∧ State.reset.withFetchWord 32 0 = State.reset := by decide +kernel

/-- A step takes the front command only. -/
theorem test_queue_order : (match step { up with pending := [.kclkResume, .trngFault] } with
    | .next t => decide (t.pending = [.trngFault] ∧ t.fbx.trngFailed = false)
    | _ => false) = true := by decide +kernel

/-- An idle nanosecond. -/
theorem test_idle : (match step late with
    | .next t => decide (t.sys.now = late.sys.now + 1)
    | _ => false) = true := by decide +kernel

/-! ## The hypotheses of every statement can be met -/

theorem test_meets_StepRunsFrontCommand :
    ∃ (c : Instr) (rest : List Instr) (s : State), s.pending = c :: rest :=
  ⟨.kclkResume, [], { up with pending := [.kclkResume] }, by decide +kernel⟩

theorem test_meets_IdleStepPassesPoweredTime :
    (∃ (s t : State), s.pending = [] ∧ s.sys.mainPower = true ∧ (t = { s with sys := { s.sys with now := s.sys.now + 1, opSeconds := if (s.sys.now + 1) % 1000000000 = 0 ∧ s.sys.kclkStopped = false then s.sys.opSeconds + 1 else s.sys.opSeconds } })) ∧
    (∃ (t : State), (t.loaded = [] ∨ t.clkRuns .aclk = false)) ∧
    (∃ (t : State), (t.loaded = [] ∨ t.clkRuns .aclk = false)) ∧
    (∃ (s : State), s.pending = [] ∧ s.sys.mainPower = false) :=
  ⟨⟨State.reset, { State.reset with sys := { State.reset.sys with now := 1 } }, by decide +kernel⟩,
   ⟨up, by decide +kernel⟩,
   ⟨{ up with sys := { up.sys with stopped := [.aclk] } }, by decide +kernel⟩,
   ⟨{ up with sys := { up.sys with mainPower := false } }, by decide +kernel⟩⟩

theorem test_meets_PowerOnAndPinReset :
    (∃ (ns : Nat) (s : State), 100 ≤ ns ∧ s.sys.mainPower = true ∧ (s.rst.phase = .ready ∨ s.rst.phase = .fencing ∧ s.rst.level ≠ .porst ∨ s.rst.level = .warm ∨ s.rst.level = .core)) ∧
    (∃ (ns : Nat) (s : State), 100 ≤ ns ∧ s.sys.mainPower = true) ∧
    (∃ (ns : Nat) (s : State), (ns < 10 ∨ (s.sys.mainPower = false ∧ 100 ≤ ns))) ∧
    (∃ (ns : Nat) (s : State), (ns < 10 ∨ (s.sys.mainPower = false ∧ 100 ≤ ns))) ∧
    (∃ (ns : Nat) (b : BitVec 1) (s u : State), 10 ≤ ns ∧ ns < 100 ∧ s.draw 1 = (b, u)) ∧
    (∃ (h : BitVec 3) (p : BitVec 2) (s u : State), s.rst.phase = .held ∧ s.rst.step = 0 ∧ s.sys.mainPower = true ∧ s.sys.kclkStopped = false ∧ s.rst.sourceEnd + holdNs ≤ s.sys.now ∧ State.sampleFuses { s with rst := { s.rst with step := 1 } } = u) ∧
    (∃ (h : BitVec 3) (p : BitVec 2) (s : State), (s.rst.phase ≠ .held ∨ s.rst.step ≠ 0 ∨ s.sys.now < s.rst.sourceEnd + holdNs)) :=
  ⟨⟨100, up, by decide +kernel⟩,
   ⟨100, up, by decide +kernel⟩,
   ⟨9, up, by decide +kernel⟩,
   ⟨100, { up with sys := { up.sys with mainPower := false } }, by decide +kernel⟩,
   ⟨10, (up.draw 1).1, up, (up.draw 1).2, by decide +kernel, by decide +kernel, by rfl⟩,
   ⟨0, 1, { State.reset with sys := { State.reset.sys with now := holdNs } }, State.sampleFuses { State.reset with sys := { State.reset.sys with now := holdNs }, rst := { State.reset.rst with step := 1 } }, by decide +kernel, by decide +kernel, by decide +kernel, by decide +kernel, by decide +kernel, by rfl⟩,
   ⟨0, 1, State.reset, by decide +kernel⟩⟩

theorem test_meets_ResetReleaseSteps_1 :
    (∃ (s : State), (s.rst.phase = .fencing ∨ s.sys.kclkStopped = true ∨ s.rst.step = 0 ∨ 7 ≤ s.rst.step ∨ (s.rst.step = 2 ∧ s.boot.phase ≠ 4))) ∧
    (∃ (s : State), s.rst.phase ≠ .fencing ∧ s.sys.kclkStopped = false ∧ s.rst.step = 1 ∧ s.rst.level.cold = true) ∧
    (∃ (s : State), s.rst.phase ≠ .fencing ∧ s.sys.kclkStopped = false ∧ s.rst.step = 1 ∧ s.rst.level.cold = false) ∧
    (∃ (u : State) (s : State), s.rst.phase ≠ .fencing ∧ s.sys.kclkStopped = false ∧ s.rst.step = 2 ∧ s.boot.phase = 4 ∧ s.rst.level.cold = false ∧ u = { s with rst := { s.rst with step := 3 }, sys := { s.sys with selfRefresh := {} }, msl := { s.msl with ready := true }, hth := { s.hth with ready := true, scrub := (List.range 12).foldl (fun (t : Tbl Scrub) k => t.set {} k { startAt := s.sys.now, lineAt := s.sys.now }) {} } }) ∧
    (∃ (u : State) (s : State), s.rst.phase ≠ .fencing ∧ s.sys.kclkStopped = false ∧ s.rst.step = 2 ∧ s.boot.phase = 4 ∧ s.rst.level.cold = true ∧ u = State.placeBacking { s with rst := { s.rst with step := 3 }, sys := { s.sys with selfRefresh := {} }, msl := { s.msl with ready := true }, hth := { s.hth with ready := true, scrub := (List.range 12).foldl (fun (t : Tbl Scrub) k => t.set {} k { startAt := s.sys.now, lineAt := s.sys.now }) {} } }) ∧
    (∃ (s : State), s.rst.phase ≠ .fencing ∧ s.sys.kclkStopped = false ∧ s.rst.step = 3) ∧
    (∃ (u : State) (s : State), s.rst.phase ≠ .fencing ∧ s.sys.kclkStopped = false ∧ s.rst.step = 4 ∧ { s with rst := { s.rst with step := 5 }, fab := { s.fab with ready := true }, syn := { s.syn with ready := true, scanAt := s.sys.now, progressAt := (List.range 4).foldl (fun (t : Tbl Nat) k => t.set 0 k s.sys.now) {} } } = u) ∧
    (∃ (u : State) (s : State), s.rst.phase ≠ .fencing ∧ s.sys.kclkStopped = false ∧ s.rst.step = 5 ∧ { s with rst := { s.rst with step := 6, phase := .ready, lastMs := (s.sys.now - s.rst.assertAt) / 1000000 % 2 ^ 32 } } = u) :=
  ⟨⟨up, by decide +kernel⟩,
   ⟨{ up with rst := { up.rst with step := 1, phase := .recovering, level := .sysrst } }, by decide +kernel⟩,
   ⟨{ up with rst := { up.rst with step := 1, phase := .recovering, level := .warm } }, by decide +kernel⟩,
   ⟨{ up with rst := { up.rst with step := 2, phase := .recovering, level := .warm } }.release3, { up with rst := { up.rst with step := 2, phase := .recovering, level := .warm } }, by decide +kernel, by decide +kernel, by decide +kernel, by decide +kernel, by decide +kernel, by rfl⟩,
   ⟨State.placeBacking { ({ up with rst := { up.rst with step := 2, phase := .recovering, level := .porst } } : State) with
    rst := { ({ up with rst := { up.rst with step := 2, phase := .recovering, level := .porst } } : State).rst with step := 3 }
    sys := { ({ up with rst := { up.rst with step := 2, phase := .recovering, level := .porst } } : State).sys with selfRefresh := {} }
    msl := { ({ up with rst := { up.rst with step := 2, phase := .recovering, level := .porst } } : State).msl with ready := true }
    hth := { ({ up with rst := { up.rst with step := 2, phase := .recovering, level := .porst } } : State).hth with ready := true, scrub := (List.range 12).foldl (fun (t : Tbl Scrub) k => t.set {} k { startAt := ({ up with rst := { up.rst with step := 2, phase := .recovering, level := .porst } } : State).sys.now, lineAt := ({ up with rst := { up.rst with step := 2, phase := .recovering, level := .porst } } : State).sys.now }) {} } }, { up with rst := { up.rst with step := 2, phase := .recovering, level := .porst } }, by decide +kernel, by decide +kernel, by decide +kernel, by decide +kernel, by decide +kernel, by rfl⟩,
   ⟨{ up with rst := { up.rst with step := 3, phase := .recovering, level := .sysrst } }, by decide +kernel⟩,
   ⟨{ up with rst := { up.rst with step := 4, phase := .recovering, level := .sysrst } }.release5, { up with rst := { up.rst with step := 4, phase := .recovering, level := .sysrst } }, by decide +kernel, by decide +kernel, by decide +kernel, by rfl⟩,
   ⟨{ up with rst := { up.rst with step := 5, phase := .recovering, level := .sysrst } }.release6, { up with rst := { up.rst with step := 5, phase := .recovering, level := .sysrst } }, by decide +kernel, by decide +kernel, by decide +kernel, by rfl⟩⟩

theorem test_meets_ResetReleaseSteps_2 :
    (∃ (u : State) (s : State), s.rst.phase ≠ .fencing ∧ s.sys.kclkStopped = false ∧ s.rst.step = 6 ∧ (({ s with rst := { s.rst with step := 7 } } : State).forEach allSites fun s n => s.requestLevel n (max s.wanted.2 (s.siteFloor n))) = u) ∧
    (∃ (env : BootEnv) (s : State), (s.rst.step ≠ 2 ∨ s.rst.phase ≠ .recovering ∨ s.boot.phase ≠ 0 ∨ s.lc.pending = true)) ∧
    (∃ (env : BootEnv) (k : Nat) (u s : State), s.rst.step = 2 ∧ s.rst.phase = .recovering ∧ s.boot.phase = 0 ∧ s.lc.pending = false ∧ s.pendingArea = some k ∧ s.startTransition k = u) ∧
    (∃ (env : BootEnv) (s : State), s.rst.step = 2 ∧ s.rst.phase = .recovering ∧ s.boot.phase = 0 ∧ s.lc.pending = false ∧ s.pendingArea = none ∧ s.lcCode = 5) ∧
    (∃ (env : BootEnv) (s : State), s.rst.step = 2 ∧ s.rst.phase = .recovering ∧ s.boot.phase = 0 ∧ s.lc.pending = false ∧ s.pendingArea = none ∧ s.lcCode ≠ 5 ∧ s.rst.level.cold = true ∧ s.strapFault = true) ∧
    (∃ (env : BootEnv) (u s : State), s.rst.step = 2 ∧ s.rst.phase = .recovering ∧ s.boot.phase = 0 ∧ s.lc.pending = false ∧ s.pendingArea = none ∧ s.lcCode ≠ 5 ∧ s.rst.level.cold = true ∧ s.strapFault = false ∧ ((((((s.drawScramble.loadVbat env.vbatOk (s.rst.level = .porst)).noteTamper).selfTests env.selftestOk env.trngOk).deriveBoot env.rom).selectConfig env).recLoaded State.bootRecord) = u) ∧
    (∃ (env : BootEnv) (s : State), s.rst.step = 2 ∧ s.rst.phase = .recovering ∧ s.boot.phase = 0 ∧ s.lc.pending = false ∧ s.pendingArea = none ∧ s.lcCode ≠ 5 ∧ s.rst.level.cold = false) ∧
    (∃ (env : BootEnv) (u v : State), u.deriveIdentity.broadcast env.badSlivers = v) :=
  ⟨⟨({ up with rst := { up.rst with step := 7, phase := .recovering, level := .sysrst } }.forEach allSites fun s n => s.requestLevel n (max s.wanted.2 (s.siteFloor n))), { up with rst := { up.rst with step := 6, phase := .recovering, level := .sysrst } }, by decide +kernel, by decide +kernel, by decide +kernel, by rfl⟩,
   ⟨{}, up, by decide +kernel⟩,
   ⟨{}, 3, State.startTransition { up with rst := { up.rst with step := 2, phase := .recovering, level := .porst }, boot := { up.boot with phase := 0 }, lc := { up.lc with records := [3] } } 3, { up with rst := { up.rst with step := 2, phase := .recovering, level := .porst }, boot := { up.boot with phase := 0 }, lc := { up.lc with records := [3] } }, by decide +kernel, by decide +kernel, by decide +kernel, by decide +kernel, by decide +kernel, by rfl⟩,
   ⟨{}, { up with rst := { up.rst with step := 2, phase := .recovering, level := .porst }, boot := { up.boot with phase := 0 }, lc := { up.lc with words := [0, 0, 0, BitVec.allOnes 32] } }, by decide +kernel⟩,
   ⟨{}, { up with rst := { up.rst with step := 2, phase := .recovering, level := .porst }, boot := { up.boot with phase := 0 }, sys := { up.sys with pkgSize := 0 } }, by decide +kernel⟩,
   ⟨{}, (((((((({ up with rst := { up.rst with step := 2, phase := .recovering, level := .porst }, boot := { up.boot with phase := 0 } } : State).drawScramble).loadVbat true (({ up with rst := { up.rst with step := 2, phase := .recovering, level := .porst }, boot := { up.boot with phase := 0 } } : State).rst.level = .porst)).noteTamper).selfTests true true).deriveBoot 0).selectConfig {}).recLoaded State.bootRecord), { up with rst := { up.rst with step := 2, phase := .recovering, level := .porst }, boot := { up.boot with phase := 0 } }, by decide +kernel, by decide +kernel, by decide +kernel, by decide +kernel, by decide +kernel, by decide +kernel, by decide +kernel, by decide +kernel, by rfl⟩,
   ⟨{}, { up with rst := { up.rst with step := 2, phase := .recovering, level := .warm }, boot := { up.boot with phase := 0 } }, by decide +kernel⟩,
   ⟨{}, up, up.deriveIdentity.broadcast [], by rfl⟩⟩

theorem test_meets_ResetRequests_1 :
    (∃ (m : Mgmt) (l : Nat) (dump : Bool) (u s : State), s.hears m true = true ∧ s.rst.phase = .ready ∧ s.lc.begun = false ∧ 2 ≤ l ∧ l ≤ 4 ∧ (s.answer .ok).noteSource .mgmt = u) ∧
    (∃ (m : Mgmt) (l : Nat) (dump : Bool) (u s : State), s.hears m true = true ∧ s.rst.phase = .ready ∧ s.lc.begun = false ∧ 2 ≤ l ∧ l ≤ 4 ∧ (s.answer .ok).noteSource .mgmt = u) ∧
    (∃ (m : Mgmt) (l : Nat) (dump : Bool) (s : State), s.hears m true = true) ∧
    (∃ (r : Req) (v : BitVec 32) (u s : State), s.served r 0x490018 = true ∧ kernelReq r = true ∧ s.rst.hostReqEn = true ∧ s.rst.phase = .ready ∧ (bits v.toNat 2 0 = 3 ∨ bits v.toNat 2 0 = 4) ∧ (s.dropHeld r).noteSource .host = u) ∧
    (∃ (r : Req) (v : BitVec 32) (u s : State), s.served r 0x490018 = true ∧ kernelReq r = true ∧ s.rst.hostReqEn = true ∧ s.rst.phase = .ready ∧ (bits v.toNat 2 0 = 3 ∨ bits v.toNat 2 0 = 4) ∧ (s.dropHeld r).noteSource .host = u) ∧
    (∃ (r : Req) (v : BitVec 32) (s : State), s.served r 0x490018 = true ∧ kernelReq r = true ∧ (s.rst.hostReqEn = false ∨ s.rst.phase ≠ .ready ∨ (bits v.toNat 2 0 ≠ 3 ∧ bits v.toNat 2 0 ≠ 4))) ∧
    (∃ (u s : State), 2 ≤ s.rst.step ∧ s.rst.phase = .ready ∧ s.noteSource .watchdog = u) ∧
    (∃ (stack : Nat) (s : State), s.rst.srWait.contains stack = true ∧ s.rst.phase = .fencing ∧ 4 ≤ s.rst.fenceStep ∧ s.rst.level = .warm) :=
  ⟨⟨oper, 2, false, (up.answer .ok).noteSource .mgmt, up, by decide +kernel, by decide +kernel, by decide +kernel, by decide +kernel, by decide +kernel, by rfl⟩,
   ⟨oper, 4, true, (up.answer .ok).noteSource .mgmt, up, by decide +kernel, by decide +kernel, by decide +kernel, by decide +kernel, by decide +kernel, by rfl⟩,
   ⟨oper, 2, false, up, by decide +kernel⟩,
   ⟨kern, 3, (up.dropHeld kern).noteSource .host, up, by decide +kernel, by decide +kernel, by decide +kernel, by decide +kernel, by decide +kernel, by rfl⟩,
   ⟨kern, 12, (up.dropHeld kern).noteSource .host, up, by decide +kernel, by decide +kernel, by decide +kernel, by decide +kernel, by decide +kernel, by rfl⟩,
   ⟨kern, 2, up, by decide +kernel⟩,
   ⟨up.noteSource .watchdog, up, by decide +kernel, by decide +kernel, by rfl⟩,
   ⟨2, { up with rst := { up.rst with srWait := [2], phase := .fencing, fenceStep := 6, level := .warm } }, by decide +kernel⟩⟩

theorem test_meets_ResetRequests_2 :
    (∃ (u s : State), s.rst.phase = .fencing ∧ s.rst.fenceAt + 20 * 1000000 ≤ s.sys.now ∧ (if s.rst.fenceStep < 5 then State.loseUnwritten { s with rst := { s.rst with forced := true } } else { s with rst := { s.rst with forced := true } }) = u) ∧
    (∃ (u s : State), (s.rst.phase = .held ∨ s.rst.phase = .recovering) ∧ s.rst.assertAt + 10 * 1000000000 ≤ s.sys.now ∧ s.rst.source.fenced = true ∧ s.rst.escalated = false ∧ s.noteSource .recoveryFail = u) ∧
    (∃ (r : Req) (s : State), s.served r 0x490030 = true ∧ r.mgmt = true) ∧
    (∃ (r : Req) (s : State), s.mgmtServes 0x490028 = true ∧ s.lcBars 0x490028 = false ∧ r.mgmt = true) ∧
    (∃ (r : Req) (v : BitVec 32) (s : State), s.served r 0x490010 = true ∧ r.mgmt = true) :=
  ⟨⟨{ up with rst := { up.rst with phase := .fencing, forced := true, fenceStep := 6 }, sys := { up.sys with now := 20000000 } }, { up with rst := { up.rst with phase := .fencing, fenceStep := 6 }, sys := { up.sys with now := 20000000 } }, by decide +kernel, by decide +kernel, by rfl⟩,
   ⟨State.noteSource { up with rst := { up.rst with phase := .recovering, source := .watchdog }, sys := { up.sys with now := 10000000000 } } .recoveryFail, { up with rst := { up.rst with phase := .recovering, source := .watchdog }, sys := { up.sys with now := 10000000000 } }, by decide +kernel, by decide +kernel, by decide +kernel, by decide +kernel, by rfl⟩,
   ⟨mg, up, by decide +kernel⟩,
   ⟨mg, up, by decide +kernel⟩,
   ⟨mg, 1, up, by decide +kernel⟩⟩

theorem test_meets_NetworkRequestsAndReturns_1 :
    (∃ (tag : Tag) (rq : NetReq) (s : State), s.networkUp = false) ∧
    (∃ (tag : Tag) (p : NetTarget) (n : Nat) (s : State), s.networkUp = true ∧ s.placeRuns (placeOf p) = true ∧ s.tagCheck tag (placeOf p) false true = n + 1) ∧
    (∃ (tag : Tag) (p : NetTarget) (n : Nat) (d : Line) (m : BitVec 64) (s : State), s.networkUp = true ∧ s.placeRuns (placeOf p) = true ∧ s.tagCheck tag (placeOf p) true true = n + 1) ∧
    (∃ (tag : Tag) (e off op n : Nat) (a b : BitVec 64) (s : State), s.networkUp = true ∧ s.tagCheck tag (.entry e) true true = n + 1) ∧
    (∃ (tag : Tag) (st l a : Nat) (u : State) (s : State), s.networkUp = true ∧ s.clkRuns (.mclk st) = true ∧ st * 2 ^ 30 + l = a ∧ s.tagCheck tag (.hbm st l) false true = 0 ∧ s.sys.stackGoal.get 0 st = 0 ∧ ((s.rgnAt a).any fun ri => (s.rgn ri).state = .releasing) = false ∧ s.useLine tag a = u ∧ u.hbmRoute tag a = .refused) ∧
    (∃ (tag : Tag) (st l a : Nat) (u : State) (d : Line) (m : BitVec 64) (s : State), s.networkUp = true ∧ s.clkRuns (.mclk st) = true ∧ st * 2 ^ 30 + l = a ∧ s.tagCheck tag (.hbm st l) true true = 0 ∧ s.sys.stackGoal.get 0 st = 0 ∧ ((s.rgnAt a).any fun ri => (s.rgn ri).state = .releasing) = false ∧ s.useLine tag a = u ∧ u.hbmRoute tag a = .refused) ∧
    (∃ (tag : Tag) (st l a : Nat) (u : State) (s : State), s.networkUp = true ∧ s.clkRuns (.mclk st) = true ∧ st * 2 ^ 30 + l = a ∧ s.tagCheck tag (.hbm st l) false true = 0 ∧ s.sys.stackGoal.get 0 st = 0 ∧ ((s.rgnAt a).any fun ri => (s.rgn ri).state = .releasing) = false ∧ s.useLine tag a = u ∧ u.hbmRoute tag a = .inactive) ∧
    (∃ (tag : Tag) (st l a : Nat) (u : State) (d : Line) (m : BitVec 64) (s : State), s.networkUp = true ∧ s.clkRuns (.mclk st) = true ∧ st * 2 ^ 30 + l = a ∧ s.tagCheck tag (.hbm st l) true true = 0 ∧ s.sys.stackGoal.get 0 st = 0 ∧ ((s.rgnAt a).any fun ri => (s.rgn ri).state = .releasing) = false ∧ s.useLine tag a = u ∧ u.hbmRoute tag a = .inactive) :=
  ⟨⟨8, .read (.hbm 0 0), State.reset, by decide +kernel⟩,
   ⟨11, .hbm 0 0, 0, up, by decide +kernel⟩,
   ⟨11, .hearth 0, 0, 0, 1, up, by decide +kernel⟩,
   ⟨11, 3, 0, 0, 0, 0, 0, up, by decide +kernel⟩,
   ⟨8, 0, 0, 0, State.useLine { up with msl := { up.msl with defUnassigned := true } } 8 0, { up with msl := { up.msl with defUnassigned := true } }, by decide +kernel⟩,
   ⟨8, 0, 0, 0, State.useLine { up with msl := { up.msl with defUnassigned := true } } 8 0, 0, 1, { up with msl := { up.msl with defUnassigned := true } }, by decide +kernel⟩,
   ⟨8, 0, 5, 5, State.useLine (up.setRgn 0 { state := .rekeying, keying := true, mode := 1, size := 100, newKid := 9, watermark := 64 }) 8 5, up.setRgn 0 { state := .rekeying, keying := true, mode := 1, size := 100, newKid := 9, watermark := 64 }, by decide +kernel⟩,
   ⟨8, 0, 5, 5, State.useLine (up.setRgn 0 { state := .rekeying, keying := true, mode := 1, size := 100, newKid := 9, watermark := 64 }) 8 5, 1, 1, up.setRgn 0 { state := .rekeying, keying := true, mode := 1, size := 100, newKid := 9, watermark := 64 }, by decide +kernel⟩⟩

theorem test_meets_NetworkRequestsAndReturns_2 :
    (∃ (tag : Tag) (st l a : Nat) (u : State) (s : State), s.networkUp = true ∧ s.clkRuns (.mclk st) = true ∧ st * 2 ^ 30 + l = a ∧ s.tagCheck tag (.hbm st l) false true = 0 ∧ s.sys.stackGoal.get 0 st = 0 ∧ ((s.rgnAt a).any fun ri => (s.rgn ri).state = .releasing) = false ∧ s.useLine tag a = u ∧ u.hbmRoute tag a ≠ .refused ∧ u.hbmRoute tag a ≠ .inactive) ∧
    (∃ (tag : Tag) (st l a : Nat) (u : State) (d : Line) (m : BitVec 64) (s : State), s.networkUp = true ∧ s.clkRuns (.mclk st) = true ∧ st * 2 ^ 30 + l = a ∧ s.tagCheck tag (.hbm st l) true true = 0 ∧ s.sys.stackGoal.get 0 st = 0 ∧ ((s.rgnAt a).any fun ri => (s.rgn ri).state = .releasing) = false ∧ s.useLine tag a = u ∧ u.hbmRoute tag a ≠ .refused ∧ u.hbmRoute tag a ≠ .inactive) ∧
    (∃ (tag : Tag) (st l a : Nat) (u : State) (s : State), s.networkUp = true ∧ s.clkRuns (.mclk st) = true ∧ st * 2 ^ 30 + l = a ∧ s.tagCheck tag (.hbm st l) false true = 0 ∧ (s.sys.stackGoal.get 0 st ≠ 0 ∨ ((s.rgnAt a).any fun ri => (s.rgn ri).state = .releasing) = true) ∧ s.useLine tag a = u) ∧
    (∃ (tag : Tag) (st l a : Nat) (u : State) (d : Line) (m : BitVec 64) (s : State), s.networkUp = true ∧ s.clkRuns (.mclk st) = true ∧ st * 2 ^ 30 + l = a ∧ s.tagCheck tag (.hbm st l) true true = 0 ∧ (s.sys.stackGoal.get 0 st ≠ 0 ∨ ((s.rgnAt a).any fun ri => (s.rgn ri).state = .releasing) = true) ∧ s.useLine tag a = u) ∧
    (∃ (tag : Tag) (l : Nat) (u : State) (s : State), s.networkUp = true ∧ s.tagCheck tag (.hearth l) false true = 0 ∧ s.useCell (.kid (tagKid tag)) = u) ∧
    (∃ (tag : Tag) (l : Nat) (u : State) (d : Line) (m : BitVec 64) (s : State), s.networkUp = true ∧ s.tagCheck tag (.hearth l) true true = 0 ∧ s.useCell (.kid (tagKid tag)) = u) ∧
    (∃ (tag : Tag) (e off : Nat) (s : State), s.networkUp = true ∧ s.tagCheck tag (.entry e) false true = 0) ∧
    (∃ (tag : Tag) (e off : Nat) (d : Line) (m : BitVec 64) (s : State), s.networkUp = true ∧ s.tagCheck tag (.entry e) true true = 0) :=
  ⟨⟨8, 0, 0, 0, State.useLine up 8 0, up, by decide +kernel⟩,
   ⟨8, 0, 0, 0, State.useLine up 8 0, 0, 1, up, by decide +kernel⟩,
   ⟨8, 0, 0, 0, State.useLine { up with sys := { up.sys with stackGoal := up.sys.stackGoal.set 0 0 1 } } 8 0, { up with sys := { up.sys with stackGoal := up.sys.stackGoal.set 0 0 1 } }, by decide +kernel⟩,
   ⟨8, 0, 0, 0, State.useLine { up with sys := { up.sys with stackGoal := up.sys.stackGoal.set 0 0 1 } } 8 0, 0, 1, { up with sys := { up.sys with stackGoal := up.sys.stackGoal.set 0 0 1 } }, by decide +kernel⟩,
   ⟨8, 0, up.useCell (.kid 0), up, by decide +kernel, by decide +kernel, by rfl⟩,
   ⟨8, 0, up.useCell (.kid 0), 0, 1, up, by decide +kernel, by decide +kernel, by rfl⟩,
   ⟨8, 3, 0, up, by decide +kernel⟩,
   ⟨8, 3, 0, 0, 1, up, by decide +kernel⟩⟩

theorem test_meets_NetworkRequestsAndReturns_3 :
    (∃ (tag : Tag) (e off op : Nat) (a b : BitVec 64) (s : State), s.networkUp = true ∧ s.tagCheck tag (.entry e) true true = 0) ∧
    (∃ (x : ApReq) (s : State), ((s.rwin x.entry).set && (s.rwin x.entry).aperture && (s.rwin x.entry).slice = tagSlice x.tag && (s.rwin x.entry).slot = tagSlot x.tag && (s.rwin x.entry).rights.getLsbD (x.kind - 1)) = false) ∧
    (∃ (st l : Nat) (d : Line) (p c : Bool) (s : State), s.msl.issued.contains (st * 2 ^ 30 + l) = false) ∧
    (∃ (st l a : Nat) (d : Line) (p c : Bool) (u v w s : State), st * 2 ^ 30 + l = a ∧ s.msl.issued.contains a = true ∧ u = { s with msl := { s.msl with issued := s.msl.issued.filter fun x => x ≠ a, stale := s.msl.stale.filter fun x => x ≠ a } } ∧ v = (if s.msl.stale.contains a then u else { u with msl := { u.msl with arrived := (a, d, p) :: s.msl.arrived.filter fun e => e.1 ≠ a, hbm := s.msl.hbm.set 0 a d, hbmPoison := s.msl.hbmPoison.set false a p } }) ∧ w = (if c then (v.memErr st 1 0 0).priv 0x306 1 else v)) ∧
    (∃ (st l ri : Nat) (d : Line) (p c : Bool) (s : State), s.rgnAt (st * 2 ^ 30 + l) = some ri ∧ (s.rgn ri).mode = 1 ∧ s.msl.issued.contains (st * 2 ^ 30 + l) = true) ∧
    (∃ (region page : Nat) (s : State), region ≠ 64 ∧ s.msl.reenc.contains (region, page) = false) ∧
    (∃ (region page : Nat) (rest : List (Nat × Nat)) (u s : State), region ≠ 64 ∧ s.msl.reenc = (region, page) :: rest ∧ (s.useRgn region).serveNow none (fun r => !r.write && s.pageOf r.addr = some (region, page) && s.firstReads r) = u) ∧
    (∃ (page : Nat) (s : State), page < (s.rgn 64).pages) :=
  ⟨⟨8, 3, 0, 0, 0, 0, up, by decide +kernel⟩,
   ⟨{ tag := 8, entry := 3, off := 0, kind := 1, op := 0, mask := 0, data := [] }, up, by decide +kernel⟩,
   ⟨1, 0, 0, false, false, up, by decide +kernel⟩,
   ⟨0, 5, 5, 7, false, true, { ({ up with msl := { up.msl with issued := [5] } } : State) with msl := { ({ up with msl := { up.msl with issued := [5] } } : State).msl with issued := [], stale := [] } }, { ({ up with msl := { up.msl with issued := [5] } } : State) with msl := { ({ up with msl := { up.msl with issued := [5] } } : State).msl with issued := [], stale := [], arrived := [(5, 7, false)], hbm := ({ up with msl := { up.msl with issued := [5] } } : State).msl.hbm.set 0 5 7, hbmPoison := ({ up with msl := { up.msl with issued := [5] } } : State).msl.hbmPoison.set false 5 false } }, ({ ({ up with msl := { up.msl with issued := [5] } } : State) with msl := { ({ up with msl := { up.msl with issued := [5] } } : State).msl with issued := [], stale := [], arrived := [(5, 7, false)], hbm := ({ up with msl := { up.msl with issued := [5] } } : State).msl.hbm.set 0 5 7, hbmPoison := ({ up with msl := { up.msl with issued := [5] } } : State).msl.hbmPoison.set false 5 false } } : State).memErr 0 1 0 0 |>.priv 0x306 1, ({ up with msl := { up.msl with issued := [5] } } : State), by decide +kernel⟩,
   ⟨0, 5, 3, 0, false, false, { up with msl := { up.msl with issued := [5], rgns := up.msl.rgns.set {} 3 { state := .active, mode := 1, size := 1 } } }, by decide +kernel⟩,
   ⟨3, 4, up, by decide +kernel⟩,
   ⟨3, 4, [], (({ resealing (reCmd 1) with msl := { (resealing (reCmd 1)).msl with reenc := [(3, 4)] } } : State).useRgn 3).serveNow none (fun r => !r.write && ({ resealing (reCmd 1) with msl := { (resealing (reCmd 1)).msl with reenc := [(3, 4)] } } : State).pageOf r.addr = some (3, 4) && ({ resealing (reCmd 1) with msl := { (resealing (reCmd 1)).msl with reenc := [(3, 4)] } } : State).firstReads r), ({ resealing (reCmd 1) with msl := { (resealing (reCmd 1)).msl with reenc := [(3, 4)] } } : State), by decide +kernel, by decide +kernel, by rfl⟩,
   ⟨0, { up with msl := { up.msl with rgns := up.msl.rgns.set {} 64 { state := .active, mode := 1, base := 30720, size := 2048 } } }, by decide +kernel⟩⟩

theorem test_meets_NetworkRequestsAndReturns_4 :
    (∃ (line : Nat) (d : Line) (e : BitVec 64) (r : MemReq) (s : State), (s.hth.pending.find? fun r => r.addr = line && !r.hold && !r.slot) = some r) ∧
    (∃ (line : Nat) (d : Line) (e : BitVec 64) (s : State), (∀ r ∈ s.hth.pending, r.addr = line → r.hold = true ∨ r.slot = true)) :=
  ⟨⟨5, 0, 0, { tag := 0, addr := 5, write := false }, { up with hth := { up.hth with pending := [{ tag := 0, addr := 5, write := false }] } }, by decide +kernel⟩,
   ⟨5, 0, 0, up, by decide +kernel⟩⟩

theorem test_meets_ManagementWritesFromHostIgnored_1 :
    (∃ (r : Req) (v : BitVec 32) (s : State), s.served r 0x490010 = true ∧ r.mgmt = false) ∧
    (∃ (r : Req) (s : State), s.served r 0x490030 = true ∧ r.mgmt = false) ∧
    (∃ (r : Req) (v : BitVec 32) (s : State), s.served r 0x80200 = true ∧ r.mgmt = false) ∧
    (∃ (r : Req) (v : BitVec 32) (s : State), s.served r 0x200008 = true ∧ r.mgmt = false) ∧
    (∃ (r : Req) (s : State), s.served r 0x200040 = true ∧ r.mgmt = false) ∧
    (∃ (r : Req) (c : Bool) (s : State), s.served r 0x200040 = true ∧ r.mgmt = false) ∧
    (∃ (r : Req) (v : BitVec 32) (s : State), s.served r 0x17F08 = true ∧ r.mgmt = false) ∧
    (∃ (r : Req) (v : BitVec 32) (s : State), s.served r 0x400F00 = true ∧ r.mgmt = false) :=
  ⟨⟨kern, 1, up, by decide +kernel⟩,
   ⟨kern, up, by decide +kernel⟩,
   ⟨kern, 1, up, by decide +kernel⟩,
   ⟨kern, 1, up, by decide +kernel⟩,
   ⟨kern, up, by decide +kernel⟩,
   ⟨kern, true, up, by decide +kernel⟩,
   ⟨kern, 1, up, by decide +kernel⟩,
   ⟨kern, 1, up, by decide +kernel⟩⟩

theorem test_meets_ManagementWritesFromHostIgnored_2 :
    (∃ (r : Req) (v : BitVec 32) (s : State), s.served r 0x480008 = true ∧ r.mgmt = false) ∧
    (∃ (r : Req) (v : BitVec 32) (s : State), s.served r 0x4B0010 = true ∧ r.mgmt = false) ∧
    (∃ (r : Req) (m : Mgmt) (v : BitVec 32) (s : State), s.served r 0x4A0008 = true ∧ r.mgmt = false) ∧
    (∃ (r : Req) (m : Mgmt) (v : BitVec 32) (s : State), s.served r 0x4A0010 = true ∧ r.mgmt = false) ∧
    (∃ (r : Req) (m : Mgmt) (v : BitVec 32) (s : State), s.served r 0x4A0010 = true ∧ r.mgmt = false) ∧
    (∃ (r : Req) (m : Mgmt) (v : BitVec 32) (s : State), s.served r 0x4A0300 = true ∧ r.mgmt = false) ∧
    (∃ (r : Req) (m : Mgmt) (s : State), s.served r 0x4A0300 = true ∧ r.mgmt = false) ∧
    (∃ (r : Req) (l : Nat) (on : Bool) (s : State), s.served r (lnkCtl (portOf l)) = true ∧ r.mgmt = false) :=
  ⟨⟨kern, 1, up, by decide +kernel⟩,
   ⟨kern, 1, up, by decide +kernel⟩,
   ⟨kern, oper, 1, up, by decide +kernel⟩,
   ⟨kern, oper, 1, up, by decide +kernel⟩,
   ⟨kern, oper, 1, up, by decide +kernel⟩,
   ⟨kern, oper, 1, up, by decide +kernel⟩,
   ⟨kern, oper, up, by decide +kernel⟩,
   ⟨kern, 0, true, up, by decide +kernel⟩⟩

theorem test_meets_ManagementWritesFromHostIgnored_3 :
    (∃ (r : Req) (l : Nat) (s : State), s.served r (lnkCtl (portOf l)) = true ∧ r.mgmt = false) ∧
    (∃ (r : Req) (l : Nat) (s : State), s.served r (lnkCtl (portOf l)) = true ∧ r.mgmt = false) ∧
    (∃ (r : Req) (l : Nat) (x : List (BitVec 512)) (s : State), s.served r (lnkCtl (portOf l)) = true ∧ r.mgmt = false) ∧
    (∃ (r : Req) (p : Nat) (v : BitVec 2) (s : State), s.served r (lnkCtl p) = true ∧ r.mgmt = false) ∧
    (∃ (r : Req) (p : Nat) (v : BitVec 32) (s : State), s.served r (0xA0000 + 0x8000 * p + 0x10) = true ∧ r.mgmt = false) :=
  ⟨⟨kern, 0, up, by decide +kernel⟩,
   ⟨kern, 0, up, by decide +kernel⟩,
   ⟨kern, 0, [], up, by decide +kernel⟩,
   ⟨kern, 0, 1, up, by decide +kernel⟩,
   ⟨kern, 0, 1, up, by decide +kernel⟩⟩

theorem test_meets_UnauthenticatedMessagesAnswerUnauth_1 :
    (∃ (m : Mgmt) (i : BitVec 64) (p : BitVec 32) (e : BitVec 64) (s : State), s.serving = true ∧ s.chainOk m = false) ∧
    (∃ (m : Mgmt) (slot slice : Nat) (s : State), s.serving = true ∧ s.chainOk m = false) ∧
    (∃ (m : Mgmt) (slot site : Nat) (d : BitVec 384) (s : State), s.serving = true ∧ s.chainOk m = false) ∧
    (∃ (m : Mgmt) (slot : Nat) (s : State), s.serving = true ∧ s.chainOk m = false) ∧
    (∃ (m : Mgmt) (slot : Nat) (s : State), s.serving = true ∧ s.chainOk m = false) ∧
    (∃ (m : Mgmt) (slot : Nat) (s : State), s.serving = true ∧ s.chainOk m = false) ∧
    (∃ (m : Mgmt) (s : State), s.serving = true ∧ s.chainOk m = false) ∧
    (∃ (m : Mgmt) (l c : Nat) (x : List MemberStmt) (s : State), s.serving = true ∧ s.chainOk m = false) :=
  ⟨⟨{}, 1, 1, 1, up, by decide +kernel⟩,
   ⟨{}, 1, 1, up, by decide +kernel⟩,
   ⟨{}, 1, 1, 1, up, by decide +kernel⟩,
   ⟨{}, 1, up, by decide +kernel⟩,
   ⟨{}, 1, up, by decide +kernel⟩,
   ⟨{}, 1, up, by decide +kernel⟩,
   ⟨{}, up, by decide +kernel⟩,
   ⟨{}, 2, 2, [], up, by decide +kernel⟩⟩

theorem test_meets_UnauthenticatedMessagesAnswerUnauth_2 :
    (∃ (m : Mgmt) (slot : Nat) (x : List Byte) (s : State), s.serving = true ∧ s.chainOk m = false) ∧
    (∃ (m : Mgmt) (slot : Nat) (s : State), s.serving = true ∧ s.chainOk m = false) ∧
    (∃ (m : Mgmt) (slot : Nat) (e : BitVec 16) (s : State), s.serving = true ∧ s.chainOk m = false) ∧
    (∃ (m : Mgmt) (slot : Nat) (e : BitVec 16) (s : State), s.serving = true ∧ s.chainOk m = false) ∧
    (∃ (m : Mgmt) (slot : Nat) (e : BitVec 16) (s : State), s.serving = true ∧ s.chainOk m = false) ∧
    (∃ (m : Mgmt) (w l : Nat) (s : State), s.serving = true ∧ s.chainOk m = false) ∧
    (∃ (m : Mgmt) (slot : Nat) (s : State), s.serving = true ∧ (s.chainOk m = false ∨ m.role = false)) ∧
    (∃ (m : Mgmt) (q : BitVec 32) (s : State), s.serving = true ∧ (s.chainOk m = false ∨ m.role = false)) :=
  ⟨⟨{}, 1, [], up, by decide +kernel⟩,
   ⟨{}, 1, up, by decide +kernel⟩,
   ⟨{}, 1, 1, up, by decide +kernel⟩,
   ⟨{}, 1, 1, up, by decide +kernel⟩,
   ⟨{}, 1, 1, up, by decide +kernel⟩,
   ⟨{}, 1, 1, up, by decide +kernel⟩,
   ⟨{ oper with role := false }, 2, up, by decide +kernel⟩,
   ⟨{ oper with role := false }, 1, up, by decide +kernel⟩⟩

theorem test_meets_UnauthenticatedMessagesAnswerUnauth_3 :
    (∃ (m : Mgmt) (s : State), s.serving = true ∧ (s.chainOk m = false ∨ m.role = false)) ∧
    (∃ (m : Mgmt) (s : State), s.serving = true ∧ (s.chainOk m = false ∨ m.role = false)) ∧
    (∃ (m : Mgmt) (l : Nat) (d : Bool) (s : State), s.serving = true ∧ (s.chainOk m = false ∨ m.role = false)) ∧
    (∃ (m : Mgmt) (l : Nat) (c : Bool) (s : State), s.serving = true ∧ (s.chainOk m = false ∨ m.role = false)) :=
  ⟨⟨{ oper with role := false }, up, by decide +kernel⟩,
   ⟨{ oper with role := false }, up, by decide +kernel⟩,
   ⟨{ oper with role := false }, 2, true, up, by decide +kernel⟩,
   ⟨{ oper with role := false }, 2, true, up, by decide +kernel⟩⟩

theorem test_meets_TimersWaitForTheirDeadline_1 :
    (∃ (k : Nat) (s : State), s.sys.now < (s.slot k).confirmBy) ∧
    (∃ (k : Nat) (s : State), s.sys.now < (s.slot k).leaseEnd) ∧
    (∃ (k : Nat) (s : State), s.sys.now < (s.slot k).deadline) ∧
    (∃ (k : Nat) (s : State), s.sys.now < (s.slot k).deadline) ∧
    (∃ (s : State), s.sys.now < s.dom.stmtBy) ∧
    (∃ (b : List Nat) (s : State), s.sys.now < s.fbx.remaskAt + 2 ^ s.fbx.remaskLog2.toNat * 1000) ∧
    (∃ (u : Nat) (s : State), s.sys.now < (s.scrub u).startAt + s.scrubPeriod) ∧
    (∃ (l : Nat) (s : State), s.sys.now < (s.link l).since + 1000000) :=
  ⟨⟨1, up.setSlot 1 { up.slot 1 with confirmBy := 1 }, by decide +kernel⟩,
   ⟨1, up.setSlot 1 { up.slot 1 with leaseEnd := 1 }, by decide +kernel⟩,
   ⟨1, up.setSlot 1 { up.slot 1 with deadline := 1 }, by decide +kernel⟩,
   ⟨1, up.setSlot 1 { up.slot 1 with deadline := 1 }, by decide +kernel⟩,
   ⟨{ up with dom := { up.dom with stmtBy := 1 } }, by decide +kernel⟩,
   ⟨[], up, by decide +kernel⟩,
   ⟨1, up, by decide +kernel⟩,
   ⟨0, up, by decide +kernel⟩⟩

theorem test_meets_TimersWaitForTheirDeadline_2 :
    (∃ (l : Nat) (s : State), s.sys.now < (s.link l).since + 100 * 1000000) ∧
    (∃ (l : Nat) (s : State), s.sys.now < (s.link l).nakAt + 2 * 1000) ∧
    (∃ (l : Nat) (s : State), s.sys.now < (s.link l).ackAt + 10 * 1000) ∧
    (∃ (s : State), s.sys.now < s.syn.scanAt + 100 * 1000000) ∧
    (∃ (s : State), s.sys.now < s.tel.intervalAt + 1000000) ∧
    (∃ (s : State), s.sys.now < s.pwr.reallocAt + 10 * 1000000) ∧
    (∃ (s : State), s.sys.now < s.pwr.shareAt + 50 * 1000000) ∧
    (∃ (s : State), s.sys.now < s.pwr.budgetEnd) :=
  ⟨⟨1, up, by decide +kernel⟩,
   ⟨1, up, by decide +kernel⟩,
   ⟨1, up, by decide +kernel⟩,
   ⟨up, by decide +kernel⟩,
   ⟨up, by decide +kernel⟩,
   ⟨up, by decide +kernel⟩,
   ⟨up, by decide +kernel⟩,
   ⟨{ up with pwr := { up.pwr with budgetEnd := 1 } }, by decide +kernel⟩⟩

theorem test_meets_TimersWaitForTheirDeadline_3 :
    (∃ (s : State), s.sys.now < s.pwr.reportAt + 100 * 1000000) ∧
    (∃ (p : Nat) (s : State), s.sys.now < s.pwr.intervalAt + 1000000) ∧
    (∃ (s : State), s.sys.now < s.rst.fenceAt + 20 * 1000000) ∧
    (∃ (s : State), s.sys.now < s.rst.assertAt + 10 * 1000000000) ∧
    (∃ (k : Nat) (s : State), s.sys.now < (s.site k).due) ∧
    (∃ (s : State), s.sys.now < s.hst.beatAt + 1000000) ∧
    (∃ (k : Nat) (s : State), s.sys.now < s.hst.heardAt.get 0 k + 20 * 1000000) ∧
    (∃ (k : Nat) (s : State), s.sys.now < s.pwr.stageAt.get 0 k + 10 * 1000000) :=
  ⟨⟨up, by decide +kernel⟩,
   ⟨1, up, by decide +kernel⟩,
   ⟨up, by decide +kernel⟩,
   ⟨up, by decide +kernel⟩,
   ⟨1, up.setSite 1 { up.site 1 with due := 1 }, by decide +kernel⟩,
   ⟨up, by decide +kernel⟩,
   ⟨1, up, by decide +kernel⟩,
   ⟨1, up, by decide +kernel⟩⟩

theorem test_meets_PowerDomainsAndClocks_1 :
    (∃ (stack : Nat) (p : BitVec 4) (s : State), (4 ≤ stack ∨ s.rst.step < 3 ∨ s.sys.stackGoal.get 0 stack ≠ 0)) ∧
    (∃ (stack : Nat) (s : State), stack < 4 ∧ 3 ≤ s.rst.step ∧ s.sys.stackGoal.get 0 stack = 0 ∧ s.poweredGroups stack ≠ 0 ∧ s.sys.selfRefresh.get false stack = false) ∧
    (∃ (stack : Nat) (p : BitVec 4) (s : State), stack < 4 ∧ 3 ≤ s.rst.step ∧ s.sys.stackGoal.get 0 stack = 0 ∧ s.allowedGroups stack p.toNat ≠ s.poweredGroups stack ∧ (s.allowedGroups stack p.toNat ≠ 0 ∨ s.sys.selfRefresh.get false stack = true)) ∧
    (∃ (p : Nat) (s : State), (p = 2 ∨ p = 3 ∨ (6 ≤ p ∧ p < 14)) ∧ s.pdOn p = true ∧ s.pdBusy p = false ∧ s.mayOff p = true) ∧
    (∃ (p : Nat) (s : State), (p = 2 ∨ p = 3 ∨ (6 ≤ p ∧ p < 14)) ∧ s.pdOn p = true ∧ s.pdBusy p = false ∧ s.mayOff p = true) ∧
    (∃ (p : Nat) (s : State), (p = 2 ∨ p = 3 ∨ (6 ≤ p ∧ p < 14)) ∧ s.pdOn p = true ∧ s.pdBusy p = false ∧ s.mayOff p = true) ∧
    (∃ (p : Nat) (s : State), p < 14 ∧ s.pdOn p = true ∧ s.pdBusy p = false ∧ s.mayOff p = false) ∧
    (∃ (p : Nat) (s : State), (p = 2 ∨ p = 3) ∧ s.pdOn p = true ∧ s.pdBusy p = true) :=
  ⟨⟨4, 1, up, by decide +kernel⟩,
   ⟨1, up, by decide +kernel⟩,
   ⟨1, 3, up, by decide +kernel⟩,
   ⟨2, up, by decide +kernel⟩,
   ⟨3, up, by decide +kernel⟩,
   ⟨8, up, by decide +kernel⟩,
   ⟨0, up, by decide +kernel⟩,
   ⟨2, runs up [0x14], by decide +kernel⟩⟩

theorem test_meets_PowerDomainsAndClocks_2 :
    (∃ (p : Nat) (s : State), 14 ≤ p ∧ p < 30 ∧ s.pdOn p = true) ∧
    (∃ (p : Nat) (s : State), s.pdOn p = false) ∧
    (∃ (p : Nat) (s : State), p < 14 ∧ s.pdOn p = false ∧ s.sys.pdFused.getLsbD p = false) ∧
    (∃ (p : Nat) (s : State), 14 ≤ p ∧ p < 30 ∧ s.pdOn p = false ∧ s.sys.pdFused.getLsbD p = false) ∧
    (∃ (p : Nat) (s : State), s.pdOn p = false ∧ s.sys.pdFused.getLsbD p = true) ∧
    (∃ (s : State), s.sys.kclkStopped = false ∧ s.sys.mainPower = true) ∧
    (∃ (k : Clock) (s : State), k ≠ .kclk ∧ s.sys.mainPower = true) ∧
    (∃ (k : Clock) (s : State), k ≠ .kclk ∧ s.sys.mainPower = true) :=
  ⟨⟨20, up, by decide +kernel⟩,
   ⟨2, { up with sys := { up.sys with pd := up.sys.pd.set .on 2 .off } }, by decide +kernel⟩,
   ⟨2, { up with sys := { up.sys with pd := up.sys.pd.set .on 2 .off } }, by decide +kernel⟩,
   ⟨20, { up with sys := { up.sys with pd := up.sys.pd.set .on 20 .off } }, by decide +kernel⟩,
   ⟨2, { up with sys := { up.sys with pd := up.sys.pd.set .on 2 .off, pdFused := 4 } }, by decide +kernel⟩,
   ⟨up, by decide +kernel⟩,
   ⟨.cclk, up, by decide +kernel⟩,
   ⟨.cclk, up, by decide +kernel⟩⟩

theorem test_meets_PowerDomainsAndClocks_3 :
    (∃ (s : State), s.sys.mainPower = true ∧ s.sys.kclkStopped = false ∧ s.rcd.loaded = true) ∧
    (∃ (s : State), (s.sys.mainPower = false ∨ s.sys.kclkStopped = true ∨ s.rcd.loaded = false)) ∧
    (∃ (lowNs : Option Nat) (s : State), s.sys.tamperLatch = false ∧ s.sys.mainPower = true ∧ (lowNs.all fun n => s.tamperFilter ≤ n) = true ∧ 2 ≤ s.rst.step) ∧
    (∃ (lowNs : Option Nat) (s : State), s.sys.tamperLatch = false ∧ s.sys.mainPower = true ∧ (lowNs.all fun n => s.tamperFilter ≤ n) = true ∧ s.rst.step < 2) ∧
    (∃ (lowNs : Option Nat) (s : State), s.sys.tamperLatch = false ∧ s.sys.mainPower = false ∧ (lowNs.all fun n => s.tamperFilter ≤ n) = true) ∧
    (∃ (n : Nat) (s : State), s.sys.tamperLatch = false ∧ n < s.tamperFilter) ∧
    (∃ (lowNs : Option Nat) (s : State), s.sys.tamperLatch = true) :=
  ⟨⟨up, by decide +kernel⟩,
   ⟨State.reset, by decide +kernel⟩,
   ⟨none, up, by decide +kernel⟩,
   ⟨some 100000, { up with rst := { up.rst with step := 1 } }, by decide +kernel⟩,
   ⟨some 100000, { up with sys := { up.sys with mainPower := false } }, by decide +kernel⟩,
   ⟨1000, up, by decide +kernel⟩,
   ⟨none, { up with sys := { up.sys with tamperLatch := true } }, by decide +kernel⟩⟩

theorem test_meets_OpeningAndAdmission_1 :
    (∃ (m : Mgmt) (id : BitVec 64) (p : BitVec 32) (e : BitVec 64) (i : Nat) (s : State), s.leads m = true ∧ s.sys.tamperLatch = false ∧ s.domainsAllowed = true ∧ s.pwr.testHold = false ∧ id ≠ 0 ∧ s.idCarried id = false ∧ profileOk p = true ∧ (lowest s.slotCount fun k => (s.slot k).state = .empty && e.getLsbD k) = some i) ∧
    (∃ (m : Mgmt) (id : BitVec 64) (p : BitVec 32) (e : BitVec 64) (s : State), s.leads m = true ∧ s.sys.tamperLatch = true) ∧
    (∃ (m : Mgmt) (id : BitVec 64) (p : BitVec 32) (e : BitVec 64) (s : State), s.leads m = true ∧ s.sys.tamperLatch = false ∧ s.domainsAllowed = true ∧ s.pwr.testHold = false ∧ id ≠ 0 ∧ s.idCarried id = false ∧ profileOk p = true ∧ (lowest s.slotCount fun k => (s.slot k).state = .empty && e.getLsbD k) = none) ∧
    (∃ (m : Mgmt) (l c : Nat) (x : List MemberStmt) (s : State), s.leads m = true ∧ l = s.dom.levels.length + 2 ∧ c = x.length ∧ c ≠ 0 ∧ 8 < s.sys.pkgSize.toNat + s.dom.levelBits + clog2 c) ∧
    (∃ (m : Mgmt) (l c : Nat) (x : List MemberStmt) (s : State), s.leads m = true ∧ l = s.dom.levels.length + 2 ∧ c = x.length ∧ c ≠ 0 ∧ s.sys.pkgSize.toNat + s.dom.levelBits + clog2 c ≤ 8 ∧ s.fbx.trngFailed = false ∧ x.all stmtVerified = false) ∧
    (∃ (m : Mgmt) (l c : Nat) (x : List MemberStmt) (s : State), s.leads m = true ∧ l = s.dom.levels.length + 2 ∧ c = x.length ∧ c ≠ 0 ∧ s.sys.pkgSize.toNat + s.dom.levelBits + clog2 c ≤ 8 ∧ s.fbx.trngFailed = false ∧ (s.cellOf .groupKey).all Cell.checkOk = true ∧ x.all stmtVerified = true) ∧
    (∃ (m : Mgmt) (slot : Nat) (x : List Byte) (s : State), s.leads m = true ∧ s.sys.tamperLatch = false ∧ slot < 64 ∧ x.length = 48 ∧ (s.slot slot).state = .admitting ∧ (s.slot slot).hasSecret = false ∧ s.dom.compositeOk = true ∧ s.loadsSecrets = true) ∧
    (∃ (m : Mgmt) (slot : Nat) (x : List Byte) (s : State), s.leads m = true ∧ s.sys.tamperLatch = false ∧ slot < 64 ∧ x.length = 48 ∧ (s.slot slot).state = .admitting ∧ (s.slot slot).hasSecret = false ∧ s.dom.compositeOk = true ∧ s.loadsSecrets = false) :=
  ⟨⟨oper, 5, 0, 255, 1, { up with boot := { up.boot with variant := BitVec.ofNat 64 (64 * 2 ^ 11) }, dom := { up.dom with slots := up.dom.slots.set {} 0 { state := .live, domainId := 4 } } }, by decide +kernel⟩,
   ⟨oper, 5, 0, 255, { up with sys := { up.sys with tamperLatch := true } }, by decide +kernel⟩,
   ⟨oper, 5, 0, 255, { up with boot := { up.boot with variant := 0 } }, by decide +kernel⟩,
   ⟨oper, 2, 2, [stm, stm], { up with dom := { up.dom with levelBits := 8 } }, by decide +kernel⟩,
   ⟨oper, 2, 1, [{ stm with chainOk := false }], up, by decide +kernel⟩,
   ⟨oper, 2, 1, [stm], up, by decide +kernel⟩,
   ⟨oper, 3, List.replicate 48 7, { up with dom := { up.dom with compositeOk := true, slots := up.dom.slots.set {} 3 { state := .admitting } } }, by decide +kernel⟩,
   ⟨oper, 3, List.replicate 48 7, { up with dom := { up.dom with compositeOk := true, slots := up.dom.slots.set {} 3 { state := .admitting } }, fbx := { up.fbx with selftestFail := true } }, by decide +kernel⟩⟩

theorem test_meets_OpeningAndAdmission_2 :
    (∃ (k : Nat) (s : State), s.stokerRuns = true ∧ (s.slot k).awaiting ≠ 0 ∧ (s.slot k).confirmBy ≤ s.sys.now) ∧
    (∃ (k : Nat) (s : State), (s.slot k).awaiting = 0) ∧
    (∃ (m : Mgmt) (slot slice : Nat) (s : State), s.hears m false = true ∧ s.slotFree slot = true ∧ slice < 2048 ∧ (s.slot slot).joinable = true ∧ ((s.slice slice).bound = false ∨ (s.slice slice).dslot = slot) ∧ ((s.slice slice).tdi = .locked ∨ (s.slice slice).tdi = .run)) ∧
    (∃ (m : Mgmt) (slot site : Nat) (d : BitVec 384) (s : State), s.hears m false = true ∧ s.slotFree slot = true ∧ site < 8 ∧ (s.slot slot).joinable = true ∧ ((s.site site).inSlot = false ∨ (s.site site).dslot = slot) ∧ (s.site site).state = .admitted ∧ (s.site site).digest = d) :=
  ⟨⟨3, { up with dom := { up.dom with slots := up.dom.slots.set {} 3 { state := .admitting, awaiting := 1 } } }, by decide +kernel⟩,
   ⟨3, up, by decide +kernel⟩,
   ⟨oper, 3, 4, { up with dom := { up.dom with slots := up.dom.slots.set {} 3 { state := .admitting } }, qm := { up.qm with slices := up.qm.slices.set {} 4 { state := .active, tdi := .locked } } }, by decide +kernel⟩,
   ⟨oper, 3, 4, 9, { up with dom := { up.dom with slots := up.dom.slots.set {} 3 { state := .admitting } }, hst := { up.hst with sites := up.hst.sites.set {} 4 { state := .admitted, digest := 9 } } }, by decide +kernel⟩⟩

theorem test_meets_ActivationNeedsASecret :
    (∃ (m : Mgmt) (slot : Nat) (s : State), s.leads m = true ∧ s.slotFree slot = true ∧ (s.slot slot).hasSecret = false) ∧
    (∃ (m : Mgmt) (slot : Nat) (s : State), s.leads m = true ∧ s.slotFree slot = true ∧ (s.slot slot).state = .admitting ∧ (s.slot slot).hasSecret = true ∧ s.peers = []) ∧
    (∃ (m : Mgmt) (slot : Nat) (s : State), s.leads m = true ∧ s.slotFree slot = true ∧ (s.slot slot).state = .admitting ∧ (s.slot slot).hasSecret = true ∧ s.peers ≠ []) ∧
    (∃ (h i : Nat) (s : State), s.bridgeUp = true ∧ s.peers.contains h = true ∧ h = s.hst.leadPos ∧ (s.slot i).state = .admitting ∧ (s.slot i).hasSecret = true) ∧
    (∃ (h i : Nat) (s : State), s.bridgeUp = true ∧ s.peers.contains h = true ∧ (s.slot i).awaiting ≠ 0 ∧ (s.slot i).unconfirmed.contains h = true ∧ ((s.slot i).unconfirmed.filter fun x => x ≠ h) = []) ∧
    (∃ (h i : Nat) (s : State), s.bridgeUp = true ∧ s.peers.contains h = true ∧ (s.slot i).awaiting ≠ 0 ∧ (s.slot i).unconfirmed.contains h = true ∧ ((s.slot i).unconfirmed.filter fun x => x ≠ h) ≠ []) :=
  ⟨⟨oper, 3, { up with dom := { up.dom with slots := up.dom.slots.set {} 3 { state := .admitting } } }, by decide +kernel⟩,
   ⟨oper, 3, { up with dom := { up.dom with slots := up.dom.slots.set {} 3 { state := .admitting, hasSecret := true } } }, by decide +kernel⟩,
   ⟨oper, 3, { pair with hst := { pair.hst with leadPos := 0, heardAt := pair.hst.heardAt.set 0 1 5 }, dom := { pair.dom with slots := pair.dom.slots.set {} 3 { state := .admitting, hasSecret := true } } }, by decide +kernel⟩,
   ⟨1, 3, { pair with hst := { pair.hst with leadPos := 1, heardAt := pair.hst.heardAt.set 0 1 5 }, dom := { pair.dom with slots := pair.dom.slots.set {} 3 { state := .admitting, hasSecret := true } } }, by decide +kernel⟩,
   ⟨1, 3, { pair with hst := { pair.hst with leadPos := 0, heardAt := pair.hst.heardAt.set 0 1 5 }, dom := { pair.dom with slots := pair.dom.slots.set {} 3 { state := .live, awaiting := 3, unconfirmed := [1] } } }, by decide +kernel⟩,
   ⟨1, 3, { pair with hst := { pair.hst with leadPos := 0, heardAt := pair.hst.heardAt.set 0 1 5 }, dom := { pair.dom with slots := pair.dom.slots.set {} 3 { state := .live, awaiting := 3, unconfirmed := [1, 2] } } }, by decide +kernel⟩⟩

theorem test_meets_LeaseResumeTeardownQuery_1 :
    (∃ (m : Mgmt) (slot : Nat) (s : State), s.hears m false = true ∧ s.slotFree slot = true ∧ ((s.slot slot).state = .live ∨ (s.slot slot).state = .quarantined)) ∧
    (∃ (m : Mgmt) (slot : Nat) (s : State), s.hears m false = true ∧ s.slotFree slot = true ∧ (s.slot slot).state ≠ .live ∧ (s.slot slot).state ≠ .quarantined) ∧
    (∃ (m : Mgmt) (slot : Nat) (s : State), s.hears m true = true ∧ s.slotFree slot = true ∧ (s.slot slot).state = .quarantined ∧ s.sys.now < (s.slot slot).deadline) ∧
    (∃ (m : Mgmt) (slot : Nat) (s : State), s.hears m true = true ∧ s.slotFree slot = true ∧ ((s.slot slot).state ≠ .quarantined ∨ (s.slot slot).deadline ≤ s.sys.now)) ∧
    (∃ (m : Mgmt) (slot : Nat) (s : State), s.hears m false = true ∧ slot < 64 ∧ ((s.slot slot).state = .admitting ∨ (s.slot slot).state = .live ∨ (s.slot slot).state = .quarantined)) ∧
    (∃ (m : Mgmt) (slot : Nat) (s : State), s.hears m false = true ∧ slot < 64 ∧ (s.slot slot).state = .empty) ∧
    (∃ (m : Mgmt) (slot : Nat) (s : State), s.hears m false = true ∧ slot < 64 ∧ (s.slot slot).state = .teardown) ∧
    (∃ (m : Mgmt) (slot : Nat) (s : State), s.hears m false = true ∧ slot < 64) :=
  ⟨⟨oper, 3, { up with dom := { up.dom with slots := up.dom.slots.set {} 3 { state := .live } } }, by decide +kernel⟩,
   ⟨oper, 3, { up with dom := { up.dom with slots := up.dom.slots.set {} 3 { state := .admitting } } }, by decide +kernel⟩,
   ⟨oper, 3, { up with dom := { up.dom with slots := up.dom.slots.set {} 3 { state := .quarantined, deadline := 60 } } }, by decide +kernel⟩,
   ⟨oper, 3, { up with dom := { up.dom with slots := up.dom.slots.set {} 3 { state := .live } } }, by decide +kernel⟩,
   ⟨oper, 3, { up with dom := { up.dom with slots := up.dom.slots.set {} 3 { state := .live } } }, by decide +kernel⟩,
   ⟨oper, 3, up, by decide +kernel⟩,
   ⟨oper, 3, { up with dom := { up.dom with slots := up.dom.slots.set {} 3 { state := .teardown } } }, by decide +kernel⟩,
   ⟨oper, 3, up, by decide +kernel⟩⟩

theorem test_meets_LeaseResumeTeardownQuery_2 :
    (∃ (m : Mgmt) (q : BitVec 32) (s : State), s.hears m true = true ∧ (s.rcd.nextSeq - 1 - q).toNat < 2 ^ 31) ∧
    (∃ (m : Mgmt) (q : BitVec 32) (s : State), s.hears m true = true ∧ 2 ^ 31 ≤ (s.rcd.nextSeq - 1 - q).toNat) ∧
    (∃ (m : Mgmt) (s : State), s.hears m true = true ∧ s.sys.tamperLow = false) ∧
    (∃ (m : Mgmt) (s : State), s.hears m true = true ∧ s.sys.tamperLow = true) :=
  ⟨⟨oper, 1, { up with rcd := { up.rcd with nextSeq := 9 } }, by decide +kernel⟩,
   ⟨oper, 1, up, by decide +kernel⟩,
   ⟨oper, up, by decide +kernel⟩,
   ⟨oper, { up with sys := { up.sys with tamperLow := true } }, by decide +kernel⟩⟩

theorem test_meets_SlotTimersEndSlots_1 :
    (∃ (k : Nat) (s : State), s.stokerRuns = true ∧ ((s.slot k).state = .live ∨ (s.slot k).state = .quarantined) ∧ (s.slot k).leaseSecs ≠ 0 ∧ (s.slot k).leaseEnd ≤ s.sys.now) ∧
    (∃ (k : Nat) (s : State), (s.slot k).state ≠ .live ∧ (s.slot k).state ≠ .quarantined) ∧
    (∃ (k : Nat) (s : State), s.stokerRuns = true ∧ (s.slot k).state = .admitting ∧ (s.slot k).deadline ≤ s.sys.now) ∧
    (∃ (k : Nat) (s : State), (s.slot k).state ≠ .admitting) ∧
    (∃ (k : Nat) (s : State), s.stokerRuns = true ∧ (s.slot k).state = .quarantined ∧ (s.slot k).deadline ≤ s.sys.now) ∧
    (∃ (k : Nat) (s : State), (s.slot k).state ≠ .quarantined) ∧
    (∃ (k : Nat) (s : State), s.stokerRuns = true ∧ (s.slot k).state = .teardown) ∧
    (∃ (k : Nat) (s : State), (s.slot k).state ≠ .teardown) :=
  ⟨⟨3, { up with dom := { up.dom with slots := up.dom.slots.set {} 3 { state := .live, profile := 0x2291, leaseEnd := 0, deadline := 0 } } }, by decide +kernel⟩,
   ⟨3, up, by decide +kernel⟩,
   ⟨3, { up with dom := { up.dom with slots := up.dom.slots.set {} 3 { state := .admitting, profile := 0x2291, leaseEnd := 0, deadline := 0 } } }, by decide +kernel⟩,
   ⟨3, up, by decide +kernel⟩,
   ⟨3, { up with dom := { up.dom with slots := up.dom.slots.set {} 3 { state := .quarantined, profile := 0x2291, leaseEnd := 0, deadline := 0 } } }, by decide +kernel⟩,
   ⟨3, up, by decide +kernel⟩,
   ⟨3, { up with dom := { up.dom with slots := up.dom.slots.set {} 3 { state := .teardown, profile := 0x2291, leaseEnd := 0, deadline := 0 } } }, by decide +kernel⟩,
   ⟨3, up, by decide +kernel⟩⟩

theorem test_meets_SlotTimersEndSlots_2 :
    (∃ (s : State), s.stokerRuns = true ∧ s.dom.stmtPending ≠ [] ∧ s.dom.stmtBy ≤ s.sys.now) ∧
    (∃ (s : State), s.dom.stmtPending = []) :=
  ⟨⟨{ up with dom := { up.dom with stmtPending := [2] } }, by decide +kernel⟩,
   ⟨up, by decide +kernel⟩⟩

theorem test_meets_SliceConfigureEnableDisable_1 :
    (∃ (r : Req) (v : BitVec 64) (s : State), s.served r 0x100008 = true ∧ globalPage r = true ∧ (s.slice s.qm.slsel).state = .free ∧ (s.slice s.qm.slsel).tdi = .unlocked) ∧
    (∃ (r : Req) (v : BitVec 64) (s : State), s.served r 0x100008 = true ∧ globalPage r = true ∧ ((s.slice s.qm.slsel).state ≠ .free ∨ (s.slice s.qm.slsel).tdi ≠ .unlocked)) ∧
    (∃ (r : Req) (s : State), s.served r 0x100010 = true ∧ globalPage r = true ∧ (s.slice s.qm.slsel).state = .free ∧ s.enableRefusal s.qm.slsel = 0) ∧
    (∃ (r : Req) (n : Nat) (s : State), s.served r 0x100010 = true ∧ globalPage r = true ∧ (s.slice s.qm.slsel).state = .free ∧ s.enableRefusal s.qm.slsel = n + 1) ∧
    (∃ (r : Req) (s : State), s.served r 0x100010 = true ∧ globalPage r = true ∧ (s.slice s.qm.slsel).state ≠ .free) ∧
    (∃ (r : Req) (s : State), s.served r 0x100010 = true ∧ globalPage r = true ∧ (s.slice s.qm.slsel).state = .active) ∧
    (∃ (r : Req) (s : State), s.served r 0x100010 = true ∧ globalPage r = true ∧ (s.slice s.qm.slsel).state = .resetting) ∧
    (∃ (r : Req) (s : State), s.served r 0x100010 = true ∧ globalPage r = true ∧ (s.slice s.qm.slsel).state = .free) :=
  ⟨⟨kern, 7, up, by decide +kernel⟩,
   ⟨kern, 7, { up with qm := { up.qm with slices := up.qm.slices.set {} 0 { state := .active } } }, by decide +kernel⟩,
   ⟨kern, { up with qm := { up.qm with slices := up.qm.slices.set {} 0 { cfg := BitVec.ofNat 64 (7 + 2 ^ 33 * 1 + 2 ^ 46 * 10) } } }, by decide +kernel⟩,
   ⟨kern, 1, up, by decide +kernel⟩,
   ⟨kern, { up with qm := { up.qm with slices := up.qm.slices.set {} 0 { state := .active } } }, by decide +kernel⟩,
   ⟨kern, { up with qm := { up.qm with slices := up.qm.slices.set {} 0 { state := .active } } }, by decide +kernel⟩,
   ⟨kern, { up with qm := { up.qm with slices := up.qm.slices.set {} 0 { state := .resetting } } }, by decide +kernel⟩,
   ⟨kern, up, by decide +kernel⟩⟩

theorem test_meets_SliceConfigureEnableDisable_2 :
    (∃ (r : Req) (slice : Nat) (v : BitVec 32) (s : State), s.served r (slicePage slice + 8) = true ∧ s.pageWrite slice r = true ∧ s.queuesOf slice = []) ∧
    (∃ (r : Req) (slice : Nat) (v : BitVec 32) (s : State), s.served r (slicePage slice + 8) = true ∧ s.pageWrite slice r = true ∧ s.queuesOf slice ≠ []) :=
  ⟨⟨{ pasid := some 7 }, 4, 1, { up with qm := { up.qm with slices := up.qm.slices.set {} 4 { state := .active, cfg := 7 } } }, by decide +kernel⟩,
   ⟨{ pasid := some 7 }, 4, 1, { up with qm := { up.qm with slices := up.qm.slices.set {} 4 { state := .active, cfg := 7, queues := ({} : Tbl Queue).set {} 0 { state := .enabled } } } }, by decide +kernel⟩⟩

theorem test_meets_SliceActions :
    (∃ (r : Req) (slice : Nat) (s : State), s.served r (slicePage slice + 0x10) = true ∧ s.pageWrite slice r = true ∧ (((s.dropHeld r).settleRstat slice).slice slice).rbusy = false) ∧
    (∃ (r : Req) (slice : Nat) (s : State), s.served r (slicePage slice + 0x10) = true ∧ s.pageWrite slice r = true ∧ (((s.dropHeld r).settleRstat slice).slice slice).rbusy = true) ∧
    (∃ (r : Req) (slice : Nat) (s : State), s.served r (slicePage slice + 0x10) = true ∧ s.pageWrite slice r = true ∧ (((s.dropHeld r).settleRstat slice).slice slice).rbusy = false) ∧
    (∃ (r : Req) (slice : Nat) (s : State), s.served r (slicePage slice + 0x10) = true ∧ s.pageWrite slice r = true ∧ (((s.dropHeld r).settleRstat slice).slice slice).rbusy = true) ∧
    (∃ (r : Req) (slice : Nat) (s : State), s.served r (slicePage slice + 0x10) = true ∧ s.pageWrite slice r = true ∧ ((((s.dropHeld r).settleRstat slice).slice slice).rbusy = false ∨ (((s.dropHeld r).settleRstat slice).slice slice).rop ≠ 3) ∧ (((s.dropHeld r).settleRstat slice).slice slice).state = .active) ∧
    (∃ (i : Nat) (s : State), (s.slice i).state ≠ .resetting) ∧
    (∃ (i : Nat) (s : State), (s.slice i).state = .resetting ∧ (s.slice i).rstStep = 1 ∧ s.allStopped i = true) :=
  ⟨⟨{ pasid := some 7 }, 4, { up with qm := { up.qm with slices := up.qm.slices.set {} 4 { state := .active, cfg := 7 } } }, by decide +kernel⟩,
   ⟨{ pasid := some 7 }, 4, { up with qm := { up.qm with slices := up.qm.slices.set {} 4 { state := .resetting, rop := 3, rbusy := true, cfg := 7 } } }, by decide +kernel⟩,
   ⟨{ pasid := some 7 }, 4, { up with qm := { up.qm with slices := up.qm.slices.set {} 4 { state := .active, cfg := 7 } } }, by decide +kernel⟩,
   ⟨{ pasid := some 7 }, 4, { up with qm := { up.qm with slices := up.qm.slices.set {} 4 { state := .resetting, rop := 3, rbusy := true, cfg := 7 } } }, by decide +kernel⟩,
   ⟨{ pasid := some 7 }, 4, { up with qm := { up.qm with slices := up.qm.slices.set {} 4 { state := .active, cfg := 7 } } }, by decide +kernel⟩,
   ⟨3, up, by decide +kernel⟩,
   ⟨4, { up with qm := { up.qm with slices := up.qm.slices.set {} 4 { state := .resetting, rstStep := 1, cfg := 7 } } }, by decide +kernel⟩⟩

theorem test_meets_QueueEnableAndStates_1 :
    (∃ (r : Req) (slice : Nat) (s : State), s.served r (slicePage slice + 0x40) = true ∧ s.pageWrite slice r = true ∧ (s.slice slice).state ≠ .resetting ∧ s.queueRefusal slice (s.slice slice).qsel r = 0 ∧ ((s.slice slice).qparam.get 0 (s.slice slice).qsel).getLsbD 8 = false ∧ ((s.slice slice).qparam.get 0 (s.slice slice).qsel).getLsbD 9 = false) ∧
    (∃ (r : Req) (slice : Nat) (s : State), s.served r (slicePage slice + 0x40) = true ∧ s.pageWrite slice r = true ∧ (s.slice slice).state ≠ .resetting ∧ s.queueRefusal slice (s.slice slice).qsel r = 0) ∧
    (∃ (r : Req) (slice n : Nat) (s : State), s.served r (slicePage slice + 0x40) = true ∧ s.pageWrite slice r = true ∧ (s.slice slice).state ≠ .resetting ∧ s.queueRefusal slice (s.slice slice).qsel r = n + 1) ∧
    (∃ (r : Req) (slice : Nat) (s : State), s.served r (slicePage slice + 0x40) = true ∧ s.pageWrite slice r = true ∧ (s.slice slice).state = .resetting) ∧
    (∃ (r : Req) (slice : Nat) (s : State), s.served r (slicePage slice + 0x40) = true ∧ s.pageWrite slice r = true ∧ (s.slice slice).state ≠ .resetting ∧ (s.queue slice (s.slice slice).qsel).state = .enabled) ∧
    (∃ (r : Req) (slice : Nat) (s : State), s.served r (slicePage slice + 0x40) = true ∧ s.pageWrite slice r = true ∧ (s.queue slice (s.slice slice).qsel).state ≠ .enabled) ∧
    (∃ (r : Req) (slice : Nat) (s : State), s.served r (slicePage slice + 0x40) = true ∧ s.pageWrite slice r = true ∧ (s.slice slice).state ≠ .resetting ∧ ((s.queue slice (s.slice slice).qsel).state = .enabled ∨ (s.queue slice (s.slice slice).qsel).state = .error ∨ ((s.queue slice (s.slice slice).qsel).state = .stopping ∧ (s.queue slice (s.slice slice).qsel).squash = false))) ∧
    (∃ (r : Req) (slice : Nat) (s : State), s.served r (slicePage slice + 0x40) = true ∧ s.pageWrite slice r = true ∧ ((s.queue slice (s.slice slice).qsel).state = .disabled ∨ (s.queue slice (s.slice slice).qsel).state = .stopped ∨ ((s.queue slice (s.slice slice).qsel).state = .stopping ∧ (s.queue slice (s.slice slice).qsel).squash = true))) :=
  ⟨⟨{ pasid := some 7 }, 4, { up with qm := { up.qm with slices := up.qm.slices.set {} 4 { state := .active, cfg := 7 + 2 ^ 33, qparam := ({} : Tbl (BitVec 64)).set 0 0 0x70000 } } }, by decide +kernel⟩,
   ⟨{ pasid := some 7 }, 4, { up with qm := { up.qm with slices := up.qm.slices.set {} 4 { state := .active, cfg := 7 + 2 ^ 33, qparam := ({} : Tbl (BitVec 64)).set 0 0 0x70000 } } }, by decide +kernel⟩,
   ⟨{ pasid := some 7 }, 4, 1, { up with qm := { up.qm with slices := up.qm.slices.set {} 4 { state := .active, cfg := 7 + 2 ^ 33 } } }, by decide +kernel⟩,
   ⟨{ pasid := some 7 }, 4, { up with qm := { up.qm with slices := up.qm.slices.set {} 4 { state := .resetting, cfg := 7 + 2 ^ 33 } } }, by decide +kernel⟩,
   ⟨{ pasid := some 7 }, 4, { up with qm := { up.qm with slices := up.qm.slices.set {} 4 { state := .active, cfg := 7 + 2 ^ 33, qsel := 2, queues := ({} : Tbl Queue).set {} 2 { state := .enabled, tail := 3 } } } }, by decide +kernel⟩,
   ⟨{ pasid := some 7 }, 4, { up with qm := { up.qm with slices := up.qm.slices.set {} 4 { state := .active, cfg := 7 + 2 ^ 33, qsel := 2, queues := ({} : Tbl Queue).set {} 2 { state := .stopped } } } }, by decide +kernel⟩,
   ⟨{ pasid := some 7 }, 4, { up with qm := { up.qm with slices := up.qm.slices.set {} 4 { state := .active, cfg := 7 + 2 ^ 33, qsel := 2, queues := ({} : Tbl Queue).set {} 2 { state := .stopping, stopTail := 5 } } } }, by decide +kernel⟩,
   ⟨{ pasid := some 7 }, 4, { up with qm := { up.qm with slices := up.qm.slices.set {} 4 { state := .active, cfg := 7 + 2 ^ 33, qsel := 2, queues := ({} : Tbl Queue).set {} 2 { state := .stopped } } } }, by decide +kernel⟩⟩

theorem test_meets_QueueEnableAndStates_2 :
    (∃ (r : Req) (slice : Nat) (s : State), s.served r (slicePage slice + 0x40) = true ∧ s.pageWrite slice r = true ∧ ((s.dropHeld r).settleRstat slice) = s.dropHeld r ∧ (s.slice slice).state ≠ .resetting ∧ (s.queue slice (s.slice slice).qsel).state = .stopped ∧ ((s.slice slice).bound = false ∨ (s.slot (s.slice slice).dslot).state ≠ .quarantined)) ∧
    (∃ (r : Req) (slice : Nat) (s : State), s.served r (slicePage slice + 0x40) = true ∧ s.pageWrite slice r = true ∧ ((s.dropHeld r).settleRstat slice) = s.dropHeld r ∧ ((s.queue slice (s.slice slice).qsel).state ≠ .stopped ∨ ((s.slice slice).bound = true ∧ (s.slot (s.slice slice).dslot).state = .quarantined))) ∧
    (∃ (r : Req) (slice : Nat) (s : State), s.served r (slicePage slice + 0x40) = true ∧ s.pageWrite slice r = true ∧ (s.slice slice).state ≠ .resetting ∧ (s.queue slice (s.slice slice).qsel).state = .stopped) ∧
    (∃ (r : Req) (slice : Nat) (s : State), s.served r (slicePage slice + 0x40) = true ∧ s.pageWrite slice r = true ∧ (s.queue slice (s.slice slice).qsel).state ≠ .stopped) ∧
    (∃ (r : Req) (slice : Nat) (s : State), s.served r (slicePage slice + 0x40) = true ∧ s.pageWrite slice r = true ∧ (s.slice slice).state = .resetting) ∧
    (∃ (r : Req) (slice : Nat) (s : State), s.served r (slicePage slice + 0x40) = true ∧ s.pageWrite slice r = true ∧ (s.slice slice).state = .resetting) ∧
    (∃ (r : Req) (slice : Nat) (s : State), s.served r (slicePage slice + 0x40) = true ∧ s.pageWrite slice r = true ∧ (s.slice slice).state = .resetting) :=
  ⟨⟨{ pasid := some 7 }, 4, { up with qm := { up.qm with slices := up.qm.slices.set {} 4 { state := .active, cfg := 7 + 2 ^ 33, qsel := 2, queues := ({} : Tbl Queue).set {} 2 { state := .stopped } } } }, by decide +kernel⟩,
   ⟨{ pasid := some 7 }, 4, { up with qm := { up.qm with slices := up.qm.slices.set {} 4 { state := .active, cfg := 7 + 2 ^ 33, qsel := 2, queues := ({} : Tbl Queue).set {} 2 { state := .enabled } } } }, by decide +kernel⟩,
   ⟨{ pasid := some 7 }, 4, { up with qm := { up.qm with slices := up.qm.slices.set {} 4 { state := .active, cfg := 7 + 2 ^ 33, qsel := 2, queues := ({} : Tbl Queue).set {} 2 { state := .stopped } } } }, by decide +kernel⟩,
   ⟨{ pasid := some 7 }, 4, { up with qm := { up.qm with slices := up.qm.slices.set {} 4 { state := .active, cfg := 7 + 2 ^ 33, qsel := 2, queues := ({} : Tbl Queue).set {} 2 { state := .enabled } } } }, by decide +kernel⟩,
   ⟨{ pasid := some 7 }, 4, { up with qm := { up.qm with slices := up.qm.slices.set {} 4 { state := .resetting, cfg := 7 + 2 ^ 33 } } }, by decide +kernel⟩,
   ⟨{ pasid := some 7 }, 4, { up with qm := { up.qm with slices := up.qm.slices.set {} 4 { state := .resetting, cfg := 7 + 2 ^ 33 } } }, by decide +kernel⟩,
   ⟨{ pasid := some 7 }, 4, { up with qm := { up.qm with slices := up.qm.slices.set {} 4 { state := .resetting, cfg := 7 + 2 ^ 33 } } }, by decide +kernel⟩⟩

theorem test_meets_DoorbellTailAndHead :
    (∃ (r : Req) (queue : Nat) (v : BitVec 32) (i q : Nat) (s : State), s.doorbell queue = some (i, q) ∧ s.served r (0x1000000 + queue * 0x40 + 0) = true ∧ s.pageWrite i r = true ∧ (s.queue i q).state ≠ .disabled ∧ (s.queue i q).state ≠ .enabled) ∧
    (∃ (r : Req) (queue : Nat) (v : BitVec 32) (i q : Nat) (s : State), s.doorbell queue = some (i, q) ∧ s.served r (0x1000000 + queue * 0x40 + 0) = true ∧ s.pageWrite i r = true ∧ (s.queue i q).state = .enabled ∧ (v - (s.queue i q).head).toNat ≤ 2 ^ (fld (s.queue i q).param 3 0 + 6)) ∧
    (∃ (r : Req) (queue : Nat) (v : BitVec 32) (i q : Nat) (s : State), s.doorbell queue = some (i, q) ∧ s.served r (0x1000000 + queue * 0x40 + 0) = true ∧ s.pageWrite i r = true ∧ (s.queue i q).state = .enabled ∧ 2 ^ (fld (s.queue i q).param 3 0 + 6) < (v - (s.queue i q).head).toNat) ∧
    (∃ (r : Req) (queue : Nat) (v : BitVec 32) (i q : Nat) (s : State), s.doorbell queue = some (i, q) ∧ s.served r (0x1000000 + queue * 0x40 + 0) = true ∧ s.pageWrite i r = true ∧ (s.queue i q).state = .disabled) ∧
    (∃ (r : Req) (queue : Nat) (v : BitVec 32) (i q : Nat) (s : State), s.doorbell queue = some (i, q) ∧ s.served r (0x1000000 + queue * 0x40 + 0x10) = true ∧ s.pageWrite i r = true ∧ ((s.queue i q).cplTail - v).toNat ≤ 2 ^ (fld (s.queue i q).param 7 4 + 6)) ∧
    (∃ (r : Req) (queue : Nat) (v : BitVec 32) (i q : Nat) (s : State), s.doorbell queue = some (i, q) ∧ s.served r (0x1000000 + queue * 0x40 + 0x10) = true ∧ s.pageWrite i r = true ∧ 2 ^ (fld (s.queue i q).param 7 4 + 6) < ((s.queue i q).cplTail - v).toNat) ∧
    (∃ (x : Queue), (x.state = .error ∨ x.state = .stopped ∨ x.state = .disabled ∨ (x.state = .stopping ∧ x.squash = true))) :=
  ⟨⟨{ pasid := some 7 }, 2, 70, 4, 2, { up with qm := { up.qm with slices := up.qm.slices.set {} 4 { state := .active, cfg := 7 + 2 ^ 33, qsel := 2, queues := ({} : Tbl Queue).set {} 2 { state := .stopped } } } }, by decide +kernel⟩,
   ⟨{ pasid := some 7 }, 2, 64, 4, 2, { up with qm := { up.qm with slices := up.qm.slices.set {} 4 { state := .active, cfg := 7 + 2 ^ 33, qsel := 2, queues := ({} : Tbl Queue).set {} 2 { state := .enabled } } } }, by decide +kernel⟩,
   ⟨{ pasid := some 7 }, 2, 65, 4, 2, { up with qm := { up.qm with slices := up.qm.slices.set {} 4 { state := .active, cfg := 7 + 2 ^ 33, qsel := 2, queues := ({} : Tbl Queue).set {} 2 { state := .enabled } } } }, by decide +kernel⟩,
   ⟨{ pasid := some 7 }, 2, 65, 4, 2, { up with qm := { up.qm with slices := up.qm.slices.set {} 4 { state := .active, cfg := 7 + 2 ^ 33, qsel := 2, queues := ({} : Tbl Queue).set {} 2 { tail := 0 } } } }, by decide +kernel⟩,
   ⟨{ pasid := some 7 }, 2, 5, 4, 2, { up with qm := { up.qm with slices := up.qm.slices.set {} 4 { state := .active, cfg := 7 + 2 ^ 33, qsel := 2, queues := ({} : Tbl Queue).set {} 2 { state := .enabled, cplTail := 69 } } } }, by decide +kernel⟩,
   ⟨{ pasid := some 7 }, 2, 5, 4, 2, { up with qm := { up.qm with slices := up.qm.slices.set {} 4 { state := .active, cfg := 7 + 2 ^ 33, qsel := 2, queues := ({} : Tbl Queue).set {} 2 { state := .enabled, cplTail := 70 } } } }, by decide +kernel⟩,
   ⟨{ state := .stopped }, by decide +kernel⟩⟩

theorem test_meets_FetchStartAbort_1 :
    (∃ (slice queue : Nat) (w : Option (List (BitVec 64))) (l : List (BitVec 64)) (s₁ : State) (s : State), (s.queue slice queue).fetches = true ∧ (s.fenced || s.ctxZeroed slice) = false ∧ s.clkRuns .cclk = true ∧ ((!(s.queue slice queue).ringObj || (s.obj slice (hIndex (fld (s.queue slice queue).ring 63 32))).kind = 2) && !s.hostMay slice) = false ∧ (s.queue slice queue).nextSeq < 2 ^ 48 - 1 ∧ s.ringWords slice (s.queue slice queue) w = (some l, s₁)) ∧
    (∃ (slice queue : Nat) (w : Option (List (BitVec 64))) (s₁ : State) (s : State), (s.queue slice queue).fetches = true ∧ (s.fenced || s.ctxZeroed slice) = false ∧ s.clkRuns .cclk = true ∧ ((!(s.queue slice queue).ringObj || (s.obj slice (hIndex (fld (s.queue slice queue).ring 63 32))).kind = 2) && !s.hostMay slice) = false ∧ (s.queue slice queue).nextSeq < 2 ^ 48 ∧ s.ringWords slice (s.queue slice queue) w = (none, s₁)) ∧
    (∃ (slice queue : Nat) (w : Option (List (BitVec 64))) (s : State), (s.queue slice queue).fetches = false) ∧
    (∃ (slice queue : Nat) (c : Cmd) (s : State), (s.advance slice queue).startable slice queue = some c ∧ (s.advance slice queue).outranked slice queue = false) ∧
    (∃ (slice queue : Nat) (c : Cmd) (s : State), (s.advance slice queue).startable slice queue = some c ∧ (s.advance slice queue).outranked slice queue = true) ∧
    (∃ (slice queue : Nat) (s : State), (s.advance slice queue).startable slice queue = none) ∧
    (∃ (r : Req) (slice : Nat) (v : BitVec 32) (c : Cmd) (s : State), s.served r (slicePage slice + 0x58) = true ∧ s.pageWrite slice r = true ∧ s.abortResult slice (bits v.toNat 17 0) (s.slice slice).abortSeq = 2 ∧ ((s.dropHeld r).modSlice slice fun l => { l with abortStat := 2 }).cmd? slice (bits v.toNat 17 0) (s.slice slice).abortSeq = some c) ∧
    (∃ (r : Req) (slice : Nat) (v : BitVec 32) (s : State), s.served r (slicePage slice + 0x58) = true ∧ s.pageWrite slice r = true ∧ s.abortResult slice (bits v.toNat 17 0) (s.slice slice).abortSeq ≠ 2) :=
  ⟨⟨4, 2, (some [1]), [1], fetching, { up with qm := { up.qm with slices := up.qm.slices.set {} 4 { state := .active, cfg := 7 + 2 ^ 33, qsel := 2, queues := ({} : Tbl Queue).set {} 2 { state := .enabled, tail := 1, nextSeq := 1 } } } }, by decide +kernel, by decide +kernel, by decide +kernel, by decide +kernel, by decide +kernel, by rfl⟩,
   ⟨4, 2, none, fetching, { up with qm := { up.qm with slices := up.qm.slices.set {} 4 { state := .active, cfg := 7 + 2 ^ 33, qsel := 2, queues := ({} : Tbl Queue).set {} 2 { state := .enabled, tail := 1, nextSeq := 1 } } } }, by decide +kernel, by decide +kernel, by decide +kernel, by decide +kernel, by decide +kernel, by rfl⟩,
   ⟨4, 2, none, { up with qm := { up.qm with slices := up.qm.slices.set {} 4 { state := .active, cfg := 7 + 2 ^ 33, qsel := 2, queues := ({} : Tbl Queue).set {} 2 { state := .enabled } } } }, by decide +kernel⟩,
   ⟨4, 2, { seq := 1, words := [0x45], stage := .ready, checked := true }, { up with qm := { up.qm with slices := up.qm.slices.set {} 4 { state := .active, cfg := 7 + 2 ^ 33, qsel := 2, queues := ({} : Tbl Queue).set {} 2 { state := .enabled, cmds := [{ seq := 1, words := [0x45], stage := .ready, checked := true }] } } } }, by decide +kernel⟩,
   ⟨4, 2, { seq := 1, words := [0x45], stage := .ready, checked := true }, { up with qm := { up.qm with slices := up.qm.slices.set {} 4 { state := .active, cfg := 7 + 2 ^ 33, queues := (({} : Tbl Queue).set {} 2 { state := .enabled, cmds := [{ seq := 1, words := [0x45], stage := .ready, checked := true }] }).set {} 3 { state := .enabled, param := 0x400, cmds := [{ seq := 1, words := [0x45], stage := .ready, checked := true }] } } } }, by decide +kernel⟩,
   ⟨4, 2, up, by decide +kernel⟩,
   ⟨{ pasid := some 7 }, 4, 2, { seq := 1, words := [0x45] }, { up with qm := { up.qm with slices := up.qm.slices.set {} 4 { state := .active, cfg := 7 + 2 ^ 33, qsel := 2, abortSeq := 1, queues := ({} : Tbl Queue).set {} 2 { state := .enabled, nextSeq := 2, cmds := [{ seq := 1, words := [0x45] }] } } } }, by decide +kernel⟩,
   ⟨{ pasid := some 7 }, 4, 2, { up with qm := { up.qm with slices := up.qm.slices.set {} 4 { state := .active, cfg := 7 + 2 ^ 33, qsel := 2, abortSeq := 5, queues := ({} : Tbl Queue).set {} 2 { state := .enabled, nextSeq := 2 } } } }, by decide +kernel⟩⟩

theorem test_meets_FetchStartAbort_2 :
    (∃ (i q seq : Nat) (s : State), (seq = 0 ∨ (s.queue i q).nextSeq ≤ seq ∨ (s.queue i q).state = .disabled)) ∧
    (∃ (i q seq : Nat) (s : State), seq ≠ 0 ∧ seq < (s.queue i q).nextSeq ∧ (s.queue i q).state ≠ .disabled ∧ s.cmd? i q seq = none) :=
  ⟨⟨1, 2, 0, up, by decide +kernel⟩,
   ⟨4, 2, 1, { up with qm := { up.qm with slices := up.qm.slices.set {} 4 { state := .active, cfg := 7 + 2 ^ 33, qsel := 2, queues := ({} : Tbl Queue).set {} 2 { state := .enabled, nextSeq := 2 } } } }, by decide +kernel⟩⟩

theorem test_meets_CommandsCommitInOrder :
    (∃ (slice queue : Nat) (c d : Cmd) (rest : List Cmd) (u s₀ : State) (s₁ : State) (s : State), (s.queue slice queue).cmds = c :: rest ∧ c.stage = .finished ∧ (s.queue slice queue).cplRoom = true ∧ s.ctxZeroed slice = false ∧ (if c.opcode = 0x31 then s.commitRun slice queue c else (some s, s)) = (some s₀, u) ∧ s₀.cmd? slice queue c.seq = some d ∧ s₀.cplWrite slice (s.queue slice queue) ((s₀.commitForm d).record (s.queue slice queue).ctxnum s₀.now) = (false, false, s₁)) ∧
    (∃ (slice queue : Nat) (c d : Cmd) (rest : List Cmd) (u s₀ : State) (s₁ : State) (f : Bool) (s : State), (s.queue slice queue).cmds = c :: rest ∧ c.stage = .finished ∧ (s.queue slice queue).cplRoom = true ∧ s.ctxZeroed slice = false ∧ (if c.opcode = 0x31 then s.commitRun slice queue c else (some s, s)) = (some s₀, u) ∧ s₀.cmd? slice queue c.seq = some d ∧ s₀.cplWrite slice (s.queue slice queue) ((s₀.commitForm d).record (s.queue slice queue).ctxnum s₀.now) = (true, f, s₁)) ∧
    (∃ (slice queue : Nat) (c d : Cmd) (rest : List Cmd) (u s₀ : State) (s₁ : State) (s : State), (s.queue slice queue).cmds = c :: rest ∧ c.stage = .finished ∧ (s.queue slice queue).cplRoom = true ∧ s.ctxZeroed slice = false ∧ (if c.opcode = 0x31 then s.commitRun slice queue c else (some s, s)) = (some s₀, u) ∧ s₀.cmd? slice queue c.seq = some d ∧ s₀.cplWrite slice (s.queue slice queue) ((s₀.commitForm d).record (s.queue slice queue).ctxnum s₀.now) = (false, true, s₁)) ∧
    (∃ (slice queue : Nat) (c : Cmd) (rest : List Cmd) (s₁ : State) (s : State), (s.queue slice queue).cmds = c :: rest ∧ c.stage = .finished ∧ (s.queue slice queue).cplRoom = true ∧ s.ctxZeroed slice = false ∧ c.opcode = 0x31 ∧ s.commitRun slice queue c = (none, s₁)) ∧
    (∃ (slice queue : Nat) (c : Cmd) (rest : List Cmd) (s : State), (s.queue slice queue).cmds = c :: rest ∧ (c.stage ≠ .finished ∨ (s.queue slice queue).cplRoom = false ∨ s.ctxZeroed slice = true)) ∧
    (∃ (slice queue : Nat) (s : State), (s.queue slice queue).cmds = []) ∧
    (∃ (s : State), s.rst.phase ≠ .fencing) :=
  ⟨⟨4, 2, fin0, fin0, [], comm, comm, (State.cplWrite comm 4 (State.queue comm 4 2) ((comm.commitForm fin0).record (State.queue comm 4 2).ctxnum comm.now)).2.2, comm, by decide +kernel, by decide +kernel, by decide +kernel, by decide +kernel, by rfl, by rfl, by rfl⟩,
   ⟨4, 2, fin0, fin0, [], waiting, waiting, (State.cplWrite waiting 4 (State.queue waiting 4 2) ((waiting.commitForm fin0).record (State.queue waiting 4 2).ctxnum waiting.now)).2.2, false, waiting, by decide +kernel, by decide +kernel, by decide +kernel, by decide +kernel, by rfl, by rfl, by rfl⟩,
   ⟨4, 2, fin0, fin0, [], cplBad, cplBad, (State.cplWrite cplBad 4 (State.queue cplBad 4 2) ((cplBad.commitForm fin0).record (State.queue cplBad 4 2).ctxnum cplBad.now)).2.2, cplBad, by decide +kernel, by decide +kernel, by decide +kernel, by decide +kernel, by rfl, by rfl, by rfl⟩,
   ⟨4, 2, runFin, [], (State.commitRun statsWait 4 2 runFin).2, statsWait, by decide +kernel⟩,
   ⟨4, 2, { seq := 1, words := [0x45] }, [], { up with qm := { up.qm with slices := up.qm.slices.set {} 4 { state := .active, cfg := 7 + 2 ^ 33, qsel := 2, queues := ({} : Tbl Queue).set {} 2 { state := .enabled, cmds := [{ seq := 1, words := [0x45] }] } } } }, by decide +kernel⟩,
   ⟨4, 2, up, by decide +kernel⟩,
   ⟨up, by decide +kernel⟩⟩

theorem test_meets_ObjectCommands_1 :
    (∃ (i q seq : Nat) (c : Cmd) (e : Nat) (s : State), s.works i q seq 0x01 c = true ∧ s.freeObjEntry i = some e) ∧
    (∃ (i q seq : Nat) (c : Cmd) (s : State), s.works i q seq 0x01 c = true ∧ s.freeObjEntry i = none) ∧
    (∃ (i q seq : Nat) (c : Cmd) (d : Nat) (s : State), s.works i q seq 0x02 c = true ∧ s.chkObjFree i c = (0, d)) ∧
    (∃ (i q seq : Nat) (c : Cmd) (s : State), s.works i q seq 0x02 c = true ∧ (s.chkObjFree i c).1 ≠ 0) ∧
    (∃ (i q seq : Nat) (c : Cmd) (s : State), s.works i q seq 0x03 c = true) ∧
    (∃ (i q seq : Nat) (c : Cmd) (s : State), s.works i q seq 0x45 c = true) ∧
    (∃ (i q seq : Nat) (c : Cmd) (s : State), s.works i q seq 0x70 c = true ∧ c.f 1 1 0 ≠ 3) ∧
    (∃ (i q seq : Nat) (c : Cmd) (s : State), s.works i q seq 0x70 c = true ∧ c.f 1 1 0 = 3) :=
  ⟨⟨4, 2, 1, cmd1 [1, 0x1C000000000000, 64], 0, runs up [1, 0x1C000000000000, 64], by decide +kernel⟩,
   ⟨4, 2, 1, cmd1 [1], State.setObj (runs up [1]) 4 0 { state := .valid, gen := 1 }, by decide +kernel⟩,
   ⟨4, 2, 1, cmd1 [2, BitVec.ofNat 64 (mkHandle 0 1)], dtA, { (runs up [2, BitVec.ofNat 64 (mkHandle 0 1)]) with qm := (State.setObj (runs up [2, BitVec.ofNat 64 (mkHandle 0 1)]) 4 0 { state := .valid, size := 64, gen := 1 }).qm }, by decide +kernel⟩,
   ⟨4, 2, 1, cmd1 [2, 5], runs up [2, 5], by decide +kernel⟩,
   ⟨4, 2, 1, cmd1 [3], runs up [3], by decide +kernel⟩,
   ⟨4, 2, 1, cmd1 [0x45], runs up [0x45], by decide +kernel⟩,
   ⟨4, 2, 1, cmd1 [0x70, 1], runs up [0x70, 1], by decide +kernel⟩,
   ⟨4, 2, 1, cmd1 [0x70, 3], runs up [0x70, 3], by decide +kernel⟩⟩

theorem test_meets_ObjectCommands_2 :
    (∃ (i q seq op : Nat) (f : Cmd → State → State) (s : State), (∀ c, s.works i q seq op c = false)) ∧
    (∃ (i q seq st dt d : Nat) (c : Cmd) (s : State), s.cmd? i q seq = some c ∧ c.runs = true) :=
  ⟨⟨4, 2, 1, 3, fun _ s => s, up, by intro c; rfl⟩,
   ⟨4, 2, 1, 0, 0, 0, cmd1 [3], runs up [3], by decide +kernel⟩⟩

theorem test_meets_PreferredPointOfASlice :
    (∃ (i q seq : Nat) (c : Cmd) (s : State), s.works i q seq 0x71 c = true) ∧
    (∃ (s : State), (s.pacing < 50 ∨ s.prevailingHint ≠ 1) ∧ (∀ e ∈ s.qm.slices.cells, ∀ x ∈ e.2.queues.cells, x.2.cmds = [])) ∧
    (∃ (s : State), (s.pacing < 50 ∨ s.prevailingHint ≠ 1) ∧ (∃ e ∈ s.qm.slices.cells, ∃ x ∈ e.2.queues.cells, x.2.cmds ≠ []) ∧ ((∃ e ∈ s.qm.slices.cells, (∃ x ∈ e.2.queues.cells, x.2.cmds ≠ []) ∧ s.hubPoint = e.2.prefOpp) ∧ ∀ e ∈ s.qm.slices.cells, (∃ x ∈ e.2.queues.cells, x.2.cmds ≠ []))) :=
  ⟨⟨4, 2, 1, cmd1 [0x71, 9], runs up [0x71, 9], by decide +kernel⟩,
   ⟨up, by decide +kernel⟩,
   ⟨runs up [3], by decide +kernel⟩⟩

theorem test_meets_CopyAndFill_1 :
    (∃ (i q seq : Nat) (c : Cmd) (s : State), s.works i q seq 0x10 c = true) ∧
    (∃ (i q seq : Nat) (c : Cmd) (s : State), s.works i q seq 0x11 c = true) ∧
    (∃ (i q seq : Nat) (c : Cmd) (s : State), s.works i q seq 0x10 c = true ∧ c.copyLen ≤ c.progress) ∧
    (∃ (i q seq : Nat) (c : Cmd) (b : List Byte) (s₁ s₂ : State) (s : State), s.works i q seq 0x10 c = true ∧ c.progress < c.copyLen ∧ s.fetchObj i q seq (hIndex (c.f 1 31 0)) (c.f 2 39 0 + c.progress) (copyPiece (s.obj i (hIndex (c.f 1 31 0))) (s.obj i (hIndex (c.f 1 63 32))) (c.f 2 39 0 + c.progress) (c.f 3 39 0 + c.progress) (c.copyLen - c.progress)) = (.got b, s₁) ∧ s₁.storeObj i q seq (hIndex (c.f 1 63 32)) (c.f 3 39 0 + c.progress) b = (.done, s₂) ∧ s₂.cmd? i q seq = some c ∧ c.progress + copyPiece (s.obj i (hIndex (c.f 1 31 0))) (s.obj i (hIndex (c.f 1 63 32))) (c.f 2 39 0 + c.progress) (c.f 3 39 0 + c.progress) (c.copyLen - c.progress) = c.copyLen) ∧
    (∃ (i q seq : Nat) (c : Cmd) (s : State), s.works i q seq 0x11 c = true ∧ c.fillLen ≤ c.progress) ∧
    (∃ (i q seq : Nat) (c : Cmd) (s₁ : State) (s : State), s.works i q seq 0x11 c = true ∧ c.progress < c.fillLen ∧ s.storeObj i q seq (hIndex (c.f 1 31 0)) (c.f 2 39 0 + c.progress) (patternBytes (c.w 3) c.progress (min (c.fillLen - c.progress) ((s.obj i (hIndex (c.f 1 31 0))).unitLeft (c.f 2 39 0 + c.progress)))) = (.done, s₁) ∧ s₁.cmd? i q seq = some c ∧ c.progress + min (c.fillLen - c.progress) ((s.obj i (hIndex (c.f 1 31 0))).unitLeft (c.f 2 39 0 + c.progress)) = c.fillLen) ∧
    (∃ (f i q seq : Nat) (c : Cmd) (s₁ : State) (s : State), s.cmd? i q seq = some c ∧ c.runs = true ∧ c.progress < c.copyLen ∧ s.fetchObj i q seq (hIndex (c.f 1 31 0)) (c.f 2 39 0 + c.progress) (copyPiece (s.obj i (hIndex (c.f 1 31 0))) (s.obj i (hIndex (c.f 1 63 32))) (c.f 2 39 0 + c.progress) (c.f 3 39 0 + c.progress) (c.copyLen - c.progress)) = (.wait, s₁)) ∧
    (∃ (f i q seq : Nat) (c : Cmd) (b : List Byte) (s₁ s₂ : State) (s : State), s.cmd? i q seq = some c ∧ c.runs = true ∧ c.progress < c.copyLen ∧ s.fetchObj i q seq (hIndex (c.f 1 31 0)) (c.f 2 39 0 + c.progress) (copyPiece (s.obj i (hIndex (c.f 1 31 0))) (s.obj i (hIndex (c.f 1 63 32))) (c.f 2 39 0 + c.progress) (c.f 3 39 0 + c.progress) (c.copyLen - c.progress)) = (.got b, s₁) ∧ s₁.storeObj i q seq (hIndex (c.f 1 63 32)) (c.f 3 39 0 + c.progress) b = (.wait, s₂)) :=
  ⟨⟨4, 2, 1, cmd1 [0x10, 0, 64 * 2 ^ 40], runs up [0x10, 0, 64 * 2 ^ 40], by decide +kernel⟩,
   ⟨4, 2, 1, cmd1 [0x11, 64 * 2 ^ 32], runs up [0x11, 64 * 2 ^ 32], by decide +kernel⟩,
   ⟨4, 2, 1, cmd1 [0x10], runs up [0x10], by decide +kernel⟩,
   ⟨4, 2, 1, (copyCmd 0x10 [(0, [1, 2, 3, 4, 5, 6, 7, 8])] 0), [1, 2, 3, 4, 5, 6, 7, 8], (State.fetchObj (copying (copyCmd 0x10 [(0, [1, 2, 3, 4, 5, 6, 7, 8])] 0)) 4 2 1 0 0 8).2, (State.storeObj (State.fetchObj (copying (copyCmd 0x10 [(0, [1, 2, 3, 4, 5, 6, 7, 8])] 0)) 4 2 1 0 0 8).2 4 2 1 1 0 [1, 2, 3, 4, 5, 6, 7, 8]).2, copying (copyCmd 0x10 [(0, [1, 2, 3, 4, 5, 6, 7, 8])] 0), by decide +kernel⟩,
   ⟨4, 2, 1, cmd1 [0x11], runs up [0x11], by decide +kernel⟩,
   ⟨4, 2, 1, (copyCmd 0x11 [] 0), (State.storeObj (copying (copyCmd 0x11 [] 0)) 4 2 1 0 0 (patternBytes ((copyCmd 0x11 [] 0).w 3) 0 8)).2, copying (copyCmd 0x11 [] 0), by decide +kernel⟩,
   ⟨0, 4, 2, 1, (copyCmd 0x10 [] 0), (State.fetchObj (copying (copyCmd 0x10 [] 0)) 4 2 1 0 0 8).2, (copying (copyCmd 0x10 [] 0)), by decide +kernel⟩,
   ⟨0, 4, 2, 1, (copyCmd 0x10 [(0, [1, 2, 3, 4, 5, 6, 7, 8])] 0), [1, 2, 3, 4, 5, 6, 7, 8], (State.fetchObj (storing (copyCmd 0x10 [(0, [1, 2, 3, 4, 5, 6, 7, 8])] 0)) 4 2 1 0 0 8).2, (State.storeObj (State.fetchObj (storing (copyCmd 0x10 [(0, [1, 2, 3, 4, 5, 6, 7, 8])] 0)) 4 2 1 0 0 8).2 4 2 1 1 0 [1, 2, 3, 4, 5, 6, 7, 8]).2, (storing (copyCmd 0x10 [(0, [1, 2, 3, 4, 5, 6, 7, 8])] 0)), by decide +kernel, by decide +kernel, by decide +kernel, by rfl, by rfl⟩⟩

theorem test_meets_CopyAndFill_2 :
    (∃ (f i q seq : Nat) (c : Cmd) (s₁ : State) (s : State), s.cmd? i q seq = some c ∧ c.runs = true ∧ c.progress < c.fillLen ∧ s.storeObj i q seq (hIndex (c.f 1 31 0)) (c.f 2 39 0 + c.progress) (patternBytes (c.w 3) c.progress (min (c.fillLen - c.progress) ((s.obj i (hIndex (c.f 1 31 0))).unitLeft (c.f 2 39 0 + c.progress)))) = (.wait, s₁)) ∧
    (∃ (f i q seq : Nat) (c : Cmd) (st k : Nat) (s₁ : State) (s : State), s.cmd? i q seq = some c ∧ c.runs = true ∧ c.progress < c.fillLen ∧ s.storeObj i q seq (hIndex (c.f 1 31 0)) (c.f 2 39 0 + c.progress) (patternBytes (c.w 3) c.progress (min (c.fillLen - c.progress) ((s.obj i (hIndex (c.f 1 31 0))).unitLeft (c.f 2 39 0 + c.progress)))) = (.fail st k, s₁)) ∧
    (∃ (f i q seq : Nat) (c : Cmd) (s : State), s.cmd? i q seq = some c ∧ c.runs = true ∧ c.copyLen ≤ c.progress) ∧
    (∃ (f i q seq : Nat) (c : Cmd) (b : List Byte) (s₁ s₂ : State) (s : State), s.cmd? i q seq = some c ∧ c.runs = true ∧ c.progress < c.copyLen ∧ s.fetchObj i q seq (hIndex (c.f 1 31 0)) (c.f 2 39 0 + c.progress) (copyPiece (s.obj i (hIndex (c.f 1 31 0))) (s.obj i (hIndex (c.f 1 63 32))) (c.f 2 39 0 + c.progress) (c.f 3 39 0 + c.progress) (c.copyLen - c.progress)) = (.got b, s₁) ∧ s₁.storeObj i q seq (hIndex (c.f 1 63 32)) (c.f 3 39 0 + c.progress) b = (.done, s₂)) ∧
    (∃ (f i q seq : Nat) (c : Cmd) (st k : Nat) (s₁ : State) (s : State), s.cmd? i q seq = some c ∧ c.runs = true ∧ c.progress < c.copyLen ∧ s.fetchObj i q seq (hIndex (c.f 1 31 0)) (c.f 2 39 0 + c.progress) (copyPiece (s.obj i (hIndex (c.f 1 31 0))) (s.obj i (hIndex (c.f 1 63 32))) (c.f 2 39 0 + c.progress) (c.f 3 39 0 + c.progress) (c.copyLen - c.progress)) = (.fail st k, s₁)) ∧
    (∃ (f i q seq : Nat) (c : Cmd) (b : List Byte) (st k : Nat) (s₁ s₂ : State) (s : State), s.cmd? i q seq = some c ∧ c.runs = true ∧ c.progress < c.copyLen ∧ s.fetchObj i q seq (hIndex (c.f 1 31 0)) (c.f 2 39 0 + c.progress) (copyPiece (s.obj i (hIndex (c.f 1 31 0))) (s.obj i (hIndex (c.f 1 63 32))) (c.f 2 39 0 + c.progress) (c.f 3 39 0 + c.progress) (c.copyLen - c.progress)) = (.got b, s₁) ∧ s₁.storeObj i q seq (hIndex (c.f 1 63 32)) (c.f 3 39 0 + c.progress) b = (.fail st k, s₂)) ∧
    (∃ (f i q seq : Nat) (c : Cmd) (s : State), s.cmd? i q seq = some c ∧ c.runs = true ∧ c.fillLen ≤ c.progress) ∧
    (∃ (f i q seq : Nat) (c : Cmd) (s₁ : State) (s : State), s.cmd? i q seq = some c ∧ c.runs = true ∧ c.progress < c.fillLen ∧ s.storeObj i q seq (hIndex (c.f 1 31 0)) (c.f 2 39 0 + c.progress) (patternBytes (c.w 3) c.progress (min (c.fillLen - c.progress) ((s.obj i (hIndex (c.f 1 31 0))).unitLeft (c.f 2 39 0 + c.progress)))) = (.done, s₁)) :=
  ⟨⟨0, 4, 2, 1, (copyCmd 0x11 [] 0), (State.storeObj (storing (copyCmd 0x11 [] 0)) 4 2 1 0 0 (patternBytes ((copyCmd 0x11 [] 0).w 3) 0 8)).2, (storing (copyCmd 0x11 [] 0)), by decide +kernel⟩,
   ⟨0, 4, 2, 1, (copyCmd 0x11 [] 1), stXlatFault, 0, (copying (copyCmd 0x11 [] 1)), (copying (copyCmd 0x11 [] 1)), by decide +kernel⟩,
   ⟨0, 4, 2, 1, { cmd1 [0x10] with progress := 0 }, runs up [0x10], by decide +kernel⟩,
   ⟨0, 4, 2, 1, (copyCmd 0x10 [(0, [1, 2, 3, 4, 5, 6, 7, 8])] 0), [1, 2, 3, 4, 5, 6, 7, 8], (State.fetchObj (copying (copyCmd 0x10 [(0, [1, 2, 3, 4, 5, 6, 7, 8])] 0)) 4 2 1 0 0 8).2, (State.storeObj (State.fetchObj (copying (copyCmd 0x10 [(0, [1, 2, 3, 4, 5, 6, 7, 8])] 0)) 4 2 1 0 0 8).2 4 2 1 1 0 [1, 2, 3, 4, 5, 6, 7, 8]).2, (copying (copyCmd 0x10 [(0, [1, 2, 3, 4, 5, 6, 7, 8])] 0)), by decide +kernel, by decide +kernel, by decide +kernel, by rfl, by rfl⟩,
   ⟨0, 4, 2, 1, (copyCmd 0x10 [] 1), stXlatFault, 0, (copying (copyCmd 0x10 [] 1)), (copying (copyCmd 0x10 [] 1)), by decide +kernel, by decide +kernel, by decide +kernel, by rfl⟩,
   ⟨0, 4, 2, 1, (copyCmd 0x10 [(0, [1, 2, 3, 4, 5, 6, 7, 8])] 2), [1, 2, 3, 4, 5, 6, 7, 8], stXlatFault, 0, (State.fetchObj (copying (copyCmd 0x10 [(0, [1, 2, 3, 4, 5, 6, 7, 8])] 2)) 4 2 1 0 0 8).2, (State.fetchObj (copying (copyCmd 0x10 [(0, [1, 2, 3, 4, 5, 6, 7, 8])] 2)) 4 2 1 0 0 8).2, (copying (copyCmd 0x10 [(0, [1, 2, 3, 4, 5, 6, 7, 8])] 2)), by decide +kernel, by decide +kernel, by decide +kernel, by rfl, by rfl⟩,
   ⟨0, 4, 2, 1, { cmd1 [0x11] with progress := 0 }, runs up [0x11], by decide +kernel⟩,
   ⟨0, 4, 2, 1, (copyCmd 0x11 [] 0), (State.storeObj (copying (copyCmd 0x11 [] 0)) 4 2 1 0 0 (patternBytes ((copyCmd 0x11 [] 0).w 3) 0 8)).2, (copying (copyCmd 0x11 [] 0)), by decide +kernel⟩⟩

theorem test_meets_ResealAndCipherCommands_1 :
    (∃ (i q seq : Nat) (c : Cmd) (s : State), s.works i q seq 0x12 c = true) ∧
    (∃ (i q seq : Nat) (c : Cmd) (s : State), s.works i q seq 0x13 c = true) ∧
    (∃ (i q seq : Nat) (c : Cmd) (s : State), s.works i q seq 0x13 c = true) ∧
    (∃ (i q seq : Nat) (c : Cmd) (s : State), s.works i q seq 0x12 c = true) ∧
    (∃ (i q seq : Nat) (c : Cmd) (k p : Nat) (u : State) (s : State), s.works i q seq 0x12 c = true ∧ c.rgn ≠ 0 ∧ u = s.useRgn (c.rgn - 1) ∧ (u.kid (u.rgn (c.rgn - 1)).kid).state = .active ∧ s.resealAt i c = some (k, p) ∧ u.bgTurn clsReseal (cmdJob i q seq) = true ∧ 0 < c.resealPages ∧ c.resealPages ≤ c.progress + 1) ∧
    (∃ (i q seq : Nat) (c : Cmd) (k p : Nat) (u : State) (s : State), s.works i q seq 0x13 c = true ∧ c.rgn ≠ 0 ∧ u = s.useRgn (c.rgn - 1) ∧ (u.kid (u.rgn (c.rgn - 1)).kid).state = .active ∧ s.resealAt i c = some (k, p) ∧ u.bgTurn clsReseal (cmdJob i q seq) = true ∧ 0 < c.resealPages ∧ c.resealPages ≤ c.progress + 1) ∧
    (∃ (i q seq : Nat) (c : Cmd) (k p : Nat) (u : State) (s : State), s.works i q seq 0x12 c = true ∧ c.rgn ≠ 0 ∧ u = s.useRgn (c.rgn - 1) ∧ (u.kid (u.rgn (c.rgn - 1)).kid).state = .active ∧ s.resealAt i c = some (k, p) ∧ u.bgTurn clsReseal (cmdJob i q seq) = true ∧ 0 < c.resealPages ∧ c.resealPages ≤ c.progress + 1) ∧
    (∃ (i q seq : Nat) (c : Cmd) (k p : Nat) (u : State) (s : State), s.works i q seq 0x13 c = true ∧ c.rgn ≠ 0 ∧ u = s.useRgn (c.rgn - 1) ∧ (u.kid (u.rgn (c.rgn - 1)).kid).state = .active ∧ s.resealAt i c = some (k, p) ∧ u.bgTurn clsReseal (cmdJob i q seq) = true ∧ 0 < c.resealPages ∧ c.resealPages ≤ c.progress + 1) :=
  ⟨⟨4, 2, 1, cmd1 [0x12, 2 ^ 32], runs up [0x12, 2 ^ 32], by decide +kernel⟩,
   ⟨4, 2, 1, cmd1 [0x13, 2 ^ 32], runs up [0x13, 2 ^ 32], by decide +kernel⟩,
   ⟨4, 2, 1, cmd1 [0x13, 2 ^ 32], runs up [0x13, 2 ^ 32], by decide +kernel⟩,
   ⟨4, 2, 1, cmd1 [0x12, 2 ^ 32], runs up [0x12, 2 ^ 32], by decide +kernel⟩,
   ⟨4, 2, 1, reCmd 1, 3, 0, resealing (reCmd 1), resealing (reCmd 1), by decide +kernel, by decide +kernel, by decide +kernel, by decide +kernel, by decide +kernel, by exact bgTurn_only (a := (resealing (reCmd 1)).arbiter 0 0) rfl, by decide +kernel, by decide +kernel⟩,
   ⟨4, 2, 1, fillCmd 1, 3, 0, resealing (fillCmd 1), resealing (fillCmd 1), by decide +kernel, by decide +kernel, by decide +kernel, by decide +kernel, by decide +kernel, by exact bgTurn_only (a := (resealing (fillCmd 1)).arbiter 0 0) rfl, by decide +kernel, by decide +kernel⟩,
   ⟨4, 2, 1, reCmd 1, 3, 0, resealing (reCmd 1), resealing (reCmd 1), by decide +kernel, by decide +kernel, by decide +kernel, by decide +kernel, by decide +kernel, by exact bgTurn_only (a := (resealing (reCmd 1)).arbiter 0 0) rfl, by decide +kernel, by decide +kernel⟩,
   ⟨4, 2, 1, fillCmd 1, 3, 0, resealing (fillCmd 1), resealing (fillCmd 1), by decide +kernel, by decide +kernel, by decide +kernel, by decide +kernel, by decide +kernel, by exact bgTurn_only (a := (resealing (fillCmd 1)).arbiter 0 0) rfl, by decide +kernel, by decide +kernel⟩⟩

theorem test_meets_ResealAndCipherCommands_2 :
    (∃ (f i q seq k p : Nat) (c : Cmd) (u : State) (s : State), s.cmd? i q seq = some c ∧ c.runs = true ∧ c.rgn ≠ 0 ∧ u = s.useRgn (c.rgn - 1) ∧ (u.kid (u.rgn (c.rgn - 1)).kid).state = .active ∧ s.resealAt i c = some (k, p) ∧ u.bgTurn clsReseal (cmdJob i q seq) = true ∧ c.resealPages ≤ c.progress + 1) ∧
    (∃ (f i q seq k p : Nat) (c : Cmd) (u : State) (s : State), s.cmd? i q seq = some c ∧ c.runs = true ∧ c.rgn ≠ 0 ∧ u = s.useRgn (c.rgn - 1) ∧ (u.kid (u.rgn (c.rgn - 1)).kid).state = .active ∧ s.resealAt i c = some (k, p) ∧ u.bgTurn clsReseal (cmdJob i q seq) = true ∧ c.progress + 1 < c.resealPages) ∧
    (∃ (f i q seq : Nat) (c : Cmd) (u : State) (s : State), s.cmd? i q seq = some c ∧ c.runs = true ∧ c.rgn ≠ 0 ∧ u = s.useRgn (c.rgn - 1) ∧ (u.kid (u.rgn (c.rgn - 1)).kid).state = .active ∧ u.bgTurn clsReseal (cmdJob i q seq) = false) ∧
    (∃ (f i q seq : Nat) (c : Cmd) (u : State) (s : State), s.cmd? i q seq = some c ∧ c.runs = true ∧ c.rgn ≠ 0 ∧ u = s.useRgn (c.rgn - 1) ∧ (u.kid (u.rgn (c.rgn - 1)).kid).state ≠ .active) ∧
    (∃ (i q seq : Nat) (c : Cmd) (b out : List Byte) (n : Nat) (s₁ s₂ : State) (s : State), s.works i q seq 0x14 c = true ∧ c.ceLoad = false ∧ s.fetchObj i q seq (hIndex c.ceSrc) c.ceSrcOff c.ceLen = (.got b, s₁) ∧ ceCompute c.ceMode c.ceDec c.fixed (beNat (leBytes 32 c.latchKey.toNat)) c.latchIv.toNat b = (some out, n) ∧ out ≠ [] ∧ s₁.storeObj i q seq (hIndex c.ceDst) c.ceDstOff out = (.done, s₂)) ∧
    (∃ (i q seq : Nat) (c : Cmd) (b : List Byte) (n : Nat) (s₁ : State) (s : State), s.works i q seq 0x14 c = true ∧ c.ceLoad = false ∧ s.fetchObj i q seq (hIndex c.ceSrc) c.ceSrcOff c.ceLen = (.got b, s₁) ∧ ceCompute c.ceMode c.ceDec c.fixed (beNat (leBytes 32 c.latchKey.toNat)) c.latchIv.toNat b = (none, n)) ∧
    (∃ (i q seq : Nat) (c : Cmd) (st k : Nat) (s₁ : State) (s : State), s.works i q seq 0x14 c = true ∧ c.ceLoad = false ∧ s.fetchObj i q seq (hIndex c.ceSrc) c.ceSrcOff c.ceLen = (.fail st k, s₁)) ∧
    (∃ (i q seq : Nat) (c : Cmd) (b : List Byte) (s₁ s₂ s₃ : State) (s : State), s.works i q seq 0x14 c = true ∧ c.ceLoad = true ∧ s.fbx.trngFailed = false ∧ c.progress = 0 ∧ s.fetchObj i q seq (hIndex c.ceSrc) c.ceSrcOff c.ceLen = (.got b, s₁) ∧ s₂ = (s₁.loadPage c.cePage (BitVec.ofNat 256 (leNat b))).modCmd i q seq (fun c => { c with progress := 1, latchKey := BitVec.ofNat 256 (leNat b) }) ∧ s₂.storeObj i q seq (hIndex c.ceDst) c.ceDstOff (beBytes 16 (aesEnc (beNat (leBytes 32 (BitVec.ofNat 256 (leNat b)).toNat)) 0)) = (.done, s₃)) :=
  ⟨⟨0, 4, 2, 1, 3, 0, reCmd 1, resealing (reCmd 1), resealing (reCmd 1), by decide +kernel, by decide +kernel, by decide +kernel, by decide +kernel, by decide +kernel, by decide +kernel, by exact bgTurn_only (a := (resealing (reCmd 1)).arbiter 0 0) rfl, by decide +kernel⟩,
   ⟨0, 4, 2, 1, 3, 0, reCmd 2, resealing (reCmd 2), resealing (reCmd 2), by decide +kernel, by decide +kernel, by decide +kernel, by decide +kernel, by decide +kernel, by decide +kernel, by exact bgTurn_only (a := (resealing (reCmd 2)).arbiter 0 0) rfl, by decide +kernel⟩,
   ⟨0, 4, 2, 0, { cmd1 [0x10] with seq := 0, rgn := 4 }, resealing ({ cmd1 [0x10] with seq := 0, rgn := 4 }), resealing ({ cmd1 [0x10] with seq := 0, rgn := 4 }), by decide +kernel⟩,
   ⟨0, 4, 2, 1, { reCmd 2 with rgn := 9 }, resealing { reCmd 2 with rgn := 9 }, resealing { reCmd 2 with rgn := 9 }, by decide +kernel⟩,
   ⟨4, 2, 1, (ceCmd 5 [1, 2, 3, 4] 0), [1, 2, 3, 4], beBytes 16 (cmac 0 [1, 2, 3, 4]), 0, copying (ceCmd 5 [1, 2, 3, 4] 0), (State.storeObj (copying (ceCmd 5 [1, 2, 3, 4] 0)) 4 2 1 1 0 (beBytes 16 (cmac 0 [1, 2, 3, 4]))).2, copying (ceCmd 5 [1, 2, 3, 4] 0), by decide +kernel⟩,
   ⟨4, 2, 1, { ceCmd 5 (List.replicate 32 1) 0 with words := [0x14, 5 * 64 + 1024 + 32 * 4096, BitVec.ofNat 64 (mkHandle 0 1), 0] }, List.replicate 32 1, 1, copying { ceCmd 5 (List.replicate 32 1) 0 with words := [0x14, 5 * 64 + 1024 + 32 * 4096, BitVec.ofNat 64 (mkHandle 0 1), 0] }, copying { ceCmd 5 (List.replicate 32 1) 0 with words := [0x14, 5 * 64 + 1024 + 32 * 4096, BitVec.ofNat 64 (mkHandle 0 1), 0] }, by decide +kernel⟩,
   ⟨4, 2, 1, (ceCmd 5 [1, 2, 3, 4] 1), stXlatFault, 0, copying (ceCmd 5 [1, 2, 3, 4] 1), copying (ceCmd 5 [1, 2, 3, 4] 1), by decide +kernel⟩,
   ⟨4, 2, 1, (ceCmd 6 (List.replicate 32 1) 0), List.replicate 32 1, copying (ceCmd 6 (List.replicate 32 1) 0), ((State.loadPage (copying (ceCmd 6 (List.replicate 32 1) 0)) 0 (BitVec.ofNat 256 (leNat (List.replicate 32 1)))).modCmd 4 2 1 fun c => { c with progress := 1, latchKey := (BitVec.ofNat 256 (leNat (List.replicate 32 1))) }), (((State.loadPage (copying (ceCmd 6 (List.replicate 32 1) 0)) 0 (BitVec.ofNat 256 (leNat (List.replicate 32 1)))).modCmd 4 2 1 fun c => { c with progress := 1, latchKey := (BitVec.ofNat 256 (leNat (List.replicate 32 1))) }).storeObj 4 2 1 1 0 (beBytes 16 (aesEnc (beNat (leBytes 32 (BitVec.ofNat 256 (leNat (List.replicate 32 1))).toNat)) 0))).2, copying (ceCmd 6 (List.replicate 32 1) 0), by decide +kernel, by decide +kernel, by decide +kernel, by decide +kernel, by decide +kernel, by rfl, by rfl⟩⟩

theorem test_meets_ResealAndCipherCommands_3 :
    (∃ (i q seq : Nat) (c : Cmd) (s₁ : State) (s : State), s.works i q seq 0x14 c = true ∧ c.ceLoad = false ∧ s.fetchObj i q seq (hIndex c.ceSrc) c.ceSrcOff c.ceLen = (.wait, s₁)) ∧
    (∃ (i q seq : Nat) (c : Cmd) (b out : List Byte) (n : Nat) (s₁ s₂ : State) (s : State), s.works i q seq 0x14 c = true ∧ c.ceLoad = false ∧ s.fetchObj i q seq (hIndex c.ceSrc) c.ceSrcOff c.ceLen = (.got b, s₁) ∧ ceCompute c.ceMode c.ceDec c.fixed (beNat (leBytes 32 c.latchKey.toNat)) c.latchIv.toNat b = (some out, n) ∧ out ≠ [] ∧ s₁.storeObj i q seq (hIndex c.ceDst) c.ceDstOff out = (.wait, s₂)) ∧
    (∃ (i q seq : Nat) (c : Cmd) (b out : List Byte) (n st k : Nat) (s₁ s₂ : State) (s : State), s.works i q seq 0x14 c = true ∧ c.ceLoad = false ∧ s.fetchObj i q seq (hIndex c.ceSrc) c.ceSrcOff c.ceLen = (.got b, s₁) ∧ ceCompute c.ceMode c.ceDec c.fixed (beNat (leBytes 32 c.latchKey.toNat)) c.latchIv.toNat b = (some out, n) ∧ out ≠ [] ∧ s₁.storeObj i q seq (hIndex c.ceDst) c.ceDstOff out = (.fail st k, s₂)) ∧
    (∃ (i q seq : Nat) (c : Cmd) (b : List Byte) (s₁ s₂ : State) (s : State), s.works i q seq 0x14 c = true ∧ c.ceLoad = true ∧ c.progress ≠ 0 ∧ s.fetchObj i q seq (hIndex c.ceSrc) c.ceSrcOff c.ceLen = (.got b, s₁) ∧ s₁.storeObj i q seq (hIndex c.ceDst) c.ceDstOff (beBytes 16 (aesEnc (beNat (leBytes 32 c.latchKey.toNat)) 0)) = (.done, s₂)) ∧
    (∃ (i q seq : Nat) (c : Cmd) (s : State), s.works i q seq 0x14 c = true ∧ c.ceLoad = true ∧ s.fbx.trngFailed = true ∧ c.progress = 0) :=
  ⟨⟨4, 2, 1, { ceCmd 5 [1, 2, 3, 4] 0 with hostGot := [] }, (State.fetchObj (copying { ceCmd 5 [1, 2, 3, 4] 0 with hostGot := [] }) 4 2 1 0 0 4).2, copying { ceCmd 5 [1, 2, 3, 4] 0 with hostGot := [] }, by decide +kernel, by decide +kernel, by rfl⟩,
   ⟨4, 2, 1, (ceCmd 5 [1, 2, 3, 4] 0), [1, 2, 3, 4], beBytes 16 (cmac 0 [1, 2, 3, 4]), 0, storing (ceCmd 5 [1, 2, 3, 4] 0), (State.storeObj (storing (ceCmd 5 [1, 2, 3, 4] 0)) 4 2 1 1 0 (beBytes 16 (cmac 0 [1, 2, 3, 4]))).2, storing (ceCmd 5 [1, 2, 3, 4] 0), by decide +kernel, by decide +kernel, by decide +kernel, by decide +kernel, by decide +kernel, by rfl⟩,
   ⟨4, 2, 1, { ceCmd 5 [1, 2, 3, 4] 0 with xlatBad := 2 }, [1, 2, 3, 4], beBytes 16 (cmac 0 [1, 2, 3, 4]), 0, stXlatFault, 0, copying { ceCmd 5 [1, 2, 3, 4] 0 with xlatBad := 2 }, copying { ceCmd 5 [1, 2, 3, 4] 0 with xlatBad := 2 }, copying { ceCmd 5 [1, 2, 3, 4] 0 with xlatBad := 2 }, by decide +kernel⟩,
   ⟨4, 2, 1, { ceCmd 6 (List.replicate 32 1) 0 with progress := 1 }, List.replicate 32 1, copying { ceCmd 6 (List.replicate 32 1) 0 with progress := 1 }, (State.storeObj (copying { ceCmd 6 (List.replicate 32 1) 0 with progress := 1 }) 4 2 1 1 0 (beBytes 16 (aesEnc (beNat (leBytes 32 0)) 0))).2, copying { ceCmd 6 (List.replicate 32 1) 0 with progress := 1 }, by decide +kernel⟩,
   ⟨4, 2, 1, cmd1 [0x14, 384], { runs up [0x14, 384] with fbx := { up.fbx with trngFailed := true } }, by decide +kernel⟩⟩

theorem test_meets_FabricCommands_1 :
    (∃ (i q seq : Nat) (c : Cmd) (n : Nat) (s : State), s.works i q seq 0x20 c = true ∧ s.freeWin = some n ∧ s.fbx.trngFailed = false ∧ c.winSync = true) ∧
    (∃ (i q seq : Nat) (c : Cmd) (n : Nat) (s : State), s.works i q seq 0x20 c = true ∧ s.freeWin = some n ∧ s.fbx.trngFailed = false ∧ c.winSync = false) ∧
    (∃ (i q seq : Nat) (c : Cmd) (n : Nat) (s : State), s.works i q seq 0x20 c = true ∧ s.freeWin = some n ∧ s.fbx.trngFailed = true) ∧
    (∃ (i q seq : Nat) (c : Cmd) (s : State), s.works i q seq 0x20 c = true ∧ s.freeWin = none) ∧
    (∃ (i q seq : Nat) (c : Cmd) (s : State), s.works i q seq 0x21 c = true ∧ (s.win (c.f 1 11 0)).state = .free) ∧
    (∃ (i q seq : Nat) (c : Cmd) (s : State), s.works i q seq 0x21 c = true ∧ (s.win (c.f 1 11 0)).state ≠ .free) ∧
    (∃ (i q seq : Nat) (c : Cmd) (n : Nat) (s : State), s.works i q seq 0x22 c = true ∧ s.freeRwin = some n) ∧
    (∃ (i q seq : Nat) (c : Cmd) (s : State), s.works i q seq 0x22 c = true ∧ s.freeRwin = none) :=
  ⟨⟨4, 2, 1, cmd1 [0x20, 2 ^ 32 + 8 * 2 ^ 33, 0, 1], 0, runs up [0x20, 2 ^ 32 + 8 * 2 ^ 33, 0, 1], by decide +kernel⟩,
   ⟨4, 2, 1, cmd1 [0x20, 2 ^ 33, 0, 64], 0, runs up [0x20, 2 ^ 33, 0, 64], by decide +kernel⟩,
   ⟨4, 2, 1, cmd1 [0x20], 0, { runs up [0x20] with fbx := { up.fbx with trngFailed := true } }, by decide +kernel⟩,
   ⟨4, 2, 1, cmd1 [0x20], { runs up [0x20] with fab := { up.fab with wins := fillTbl {} {} 0 4096 fun _ => { state := .closing } } }, by decide +kernel, by exact lowest_full fun k h => by simp [State.win, get_fillTbl, h]⟩,
   ⟨4, 2, 1, cmd1 [0x21, 5], runs up [0x21, 5], by decide +kernel⟩,
   ⟨4, 2, 1, cmd1 [0x21, 5], (runs up [0x21, 5]).setWin 5 { state := .opened }, by decide +kernel⟩,
   ⟨4, 2, 1, cmd1 [0x22, 2 ^ 15, 9], 0, runs up [0x22, 2 ^ 15, 9], by decide +kernel⟩,
   ⟨4, 2, 1, cmd1 [0x22, 2 ^ 15, 9], { runs up [0x22, 2 ^ 15, 9] with fab := { up.fab with rwins := fillTbl {} {} 0 16384 fun _ => { set := true } } }, by decide +kernel, by exact lowest_full fun k h => by simp [State.rwin, get_fillTbl, h]⟩⟩

theorem test_meets_FabricCommands_2 :
    (∃ (i q seq : Nat) (c : Cmd) (s : State), s.works i q seq 0x23 c = true ∧ (s.rwin (c.f 1 13 0)).set = true ∧ (s.rwin (c.f 1 13 0)).slice = i) ∧
    (∃ (i q seq : Nat) (c : Cmd) (s : State), s.works i q seq 0x23 c = true ∧ ((s.rwin (c.f 1 13 0)).set = false ∨ (s.rwin (c.f 1 13 0)).slice ≠ i)) ∧
    (∃ (i q seq : Nat) (c : Cmd) (s : State), s.works i q seq 0x24 c = true) ∧
    (∃ (i q seq : Nat) (c : Cmd) (s : State), s.works i q seq 0x25 c = true) ∧
    (∃ (i q seq : Nat) (c : Cmd) (s : State), s.works i q seq 0x26 c = true) ∧
    (∃ (i q seq : Nat) (c : Cmd) (s : State), s.works i q seq 0x27 c = true) ∧
    (∃ (i q seq : Nat) (c : Cmd) (s : State), s.works i q seq 0x28 c = true) ∧
    (∃ (f i q seq : Nat) (c : Cmd) (s : State), s.cmd? i q seq = some c ∧ c.runs = true ∧ c.issuedAll = true) :=
  ⟨⟨4, 2, 1, cmd1 [0x23, 5], (runs up [0x23, 5]).setRwin 5 { set := true, slice := 4 }, by decide +kernel⟩,
   ⟨4, 2, 1, cmd1 [0x23, 5], runs up [0x23, 5], by decide +kernel⟩,
   ⟨4, 2, 1, cmd1 [0x24], runs up [0x24], by decide +kernel⟩,
   ⟨4, 2, 1, cmd1 [0x25], runs up [0x25], by decide +kernel⟩,
   ⟨4, 2, 1, cmd1 [0x26], runs up [0x26], by decide +kernel⟩,
   ⟨4, 2, 1, cmd1 [0x27], runs up [0x27], by decide +kernel⟩,
   ⟨4, 2, 1, cmd1 [0x28], runs up [0x28], by decide +kernel⟩,
   ⟨0, 4, 2, 1, { cmd1 [0x24] with issuedAll := true }, withQueue up { cmds := [{ cmd1 [0x24] with issuedAll := true }] }, by decide +kernel⟩⟩

theorem test_meets_FabricCommands_3 :
    (∃ (f i q seq : Nat) (c : Cmd) (s : State), s.cmd? i q seq = some c ∧ c.runs = true ∧ c.issuedAll = false ∧ c.status = 0 ∧ c.fabLines ≤ c.progress) ∧
    (∃ (f i q seq : Nat) (c : Cmd) (s : State), s.cmd? i q seq = some c ∧ c.runs = true ∧ c.issuedAll = false ∧ c.status = 0 ∧ c.progress < c.fabLines ∧ (s.chkEntry i c.fabEntry (some (b2n (c.opcode = 0x25))) dtA).1 ≠ 0) ∧
    (∃ (f i q seq : Nat) (c : Cmd) (r : Issue) (s₁ : State) (s : State), s.cmd? i q seq = some c ∧ c.runs = true ∧ c.issuedAll = false ∧ c.status = 0 ∧ c.progress < c.fabLines ∧ c.opcode = 0x24 ∧ (s.chkEntry i c.fabEntry (some 0) dtA).1 = 0 ∧ s.issueRec (.cmd i q seq) (s.rwin c.fabEntry) fkRead ((min 3 (c.fabLines - c.progress)) - 1) 0 false (c.f 1 55 16 + 64 * c.progress) 0 [] (64 * c.progress) = (r, s₁)) ∧
    (∃ (f i q seq : Nat) (c : Cmd) (b : List Byte) (r : Issue) (s₀ s₁ : State) (s : State), s.cmd? i q seq = some c ∧ c.runs = true ∧ c.issuedAll = false ∧ c.status = 0 ∧ c.progress < c.fabLines ∧ c.opcode = 0x25 ∧ (s.chkEntry i c.fabEntry (some 1) dtA).1 = 0 ∧ s.fetchObj i q seq (hIndex (c.f 2 31 0)) (c.f 3 39 0 + 64 * c.progress) (64 * (min 3 (c.fabLines - c.progress))) = (.got b, s₀) ∧ s₀.issueRec (.cmd i q seq) (s₀.rwin c.fabEntry) fkWrite ((min 3 (c.fabLines - c.progress)) - 1) 0 false (c.f 1 55 16 + 64 * c.progress) (if (min 3 (c.fabLines - c.progress)) = 1 then fullMask else 0) b (64 * c.progress) = (r, s₁)) ∧
    (∃ (f i q seq : Nat) (c : Cmd) (s₀ : State) (s : State), s.cmd? i q seq = some c ∧ c.runs = true ∧ c.issuedAll = false ∧ c.status = 0 ∧ c.progress < c.fabLines ∧ c.opcode = 0x25 ∧ (s.chkEntry i c.fabEntry (some 1) dtA).1 = 0 ∧ s.fetchObj i q seq (hIndex (c.f 2 31 0)) (c.f 3 39 0 + 64 * c.progress) (64 * (min 3 (c.fabLines - c.progress))) = (.wait, s₀)) ∧
    (∃ (f i q seq st k : Nat) (c : Cmd) (s₀ : State) (s : State), s.cmd? i q seq = some c ∧ c.runs = true ∧ c.issuedAll = false ∧ c.status = 0 ∧ c.progress < c.fabLines ∧ c.opcode = 0x25 ∧ (s.chkEntry i c.fabEntry (some 1) dtA).1 = 0 ∧ s.fetchObj i q seq (hIndex (c.f 2 31 0)) (c.f 3 39 0 + 64 * c.progress) (64 * (min 3 (c.fabLines - c.progress))) = (.fail st k, s₀)) ∧
    (∃ (i q seq : Nat) (c : Cmd) (r : Issue) (s₁ : State) (s : State), s.works i q seq 0x26 c = true ∧ c.issuedAll = false ∧ c.progress ≠ 1 ∧ c.status = 0 ∧ (s.chkEntry i c.fabEntry (some 2) dtA).1 = 0 ∧ s.issueRec (.cmd i q seq) (s.rwin c.fabEntry) fkAtomic 0 (c.f 1 17 14) false (c.f 1 57 18) 0 (leBytes 8 (c.w 2).toNat ++ leBytes 8 (c.w 3).toNat) 0 = (r, s₁)) ∧
    (∃ (i q seq : Nat) (c : Cmd) (r : Issue) (s₁ : State) (s : State), s.works i q seq 0x27 c = true ∧ c.issuedAll = false ∧ c.progress ≠ 1 ∧ c.status = 0 ∧ (s.chkEntry i (sigEntry (c.w 1)) (some 3) dtA).1 = 0 ∧ s.issueRec (.cmd i q seq) (s.rwin (sigEntry (c.w 1))) fkSignal 0 (b2n (sigPost (c.w 1))) true (sigObject (c.w 1)) 0 (leBytes 8 (c.w 2).toNat ++ leBytes 8 0) 0 = (r, s₁)) :=
  ⟨⟨0, 4, 2, 1, cmd1 [0x24], runs up [0x24], by decide +kernel⟩,
   ⟨0, 4, 2, 1, cmd1 [0x24, 0, 2 ^ 32], runs up [0x24, 0, 2 ^ 32], by decide +kernel⟩,
   ⟨0, 4, 2, 1, cmd1 [0x24, 5, 2 ^ 32], .ended stNoRoute, (State.issueRec ((runs up [0x24, 5, 2 ^ 32]).setRwin 5 { set := true, slice := 4, rights := 1, node := 9 }) (.cmd 4 2 1) { set := true, slice := 4, rights := 1, node := 9 } fkRead 0 0 false 0 0 [] 0).2, (runs up [0x24, 5, 2 ^ 32]).setRwin 5 { set := true, slice := 4, rights := 1, node := 9 }, by decide +kernel⟩,
   ⟨0, 4, 2, 1, (fabCmd [(0, List.replicate 64 3)] 0), List.replicate 64 3, .ended stNoRoute, (fabbing (fabCmd [(0, List.replicate 64 3)] 0)), (State.issueRec (fabbing (fabCmd [(0, List.replicate 64 3)] 0)) (.cmd 4 2 1) (State.rwin (fabbing (fabCmd [(0, List.replicate 64 3)] 0)) 0) fkWrite 0 0 false 0 fullMask (List.replicate 64 3) 0).2, (fabbing (fabCmd [(0, List.replicate 64 3)] 0)), by decide +kernel, by decide +kernel, by decide +kernel, by decide +kernel, by decide +kernel, by decide +kernel, by decide +kernel, by rfl, by rfl⟩,
   ⟨0, 4, 2, 1, (fabCmd [] 0), (State.fetchObj (fabbing (fabCmd [] 0)) 4 2 1 0 0 64).2, (fabbing (fabCmd [] 0)), by decide +kernel⟩,
   ⟨0, 4, 2, 1, stXlatFault, 0, (fabCmd [] 1), (fabbing (fabCmd [] 1)), (fabbing (fabCmd [] 1)), by decide +kernel⟩,
   ⟨4, 2, 1, cmd1 [0x26, 5], .ended stNoRoute, (State.issueRec (oneRec (cmd1 [0x26, 5]) 4) (.cmd 4 2 1) (State.rwin (oneRec (cmd1 [0x26, 5]) 4) 5) fkAtomic 0 0 false 0 0 (List.replicate 16 0) 0).2, oneRec (cmd1 [0x26, 5]) 4, by decide +kernel⟩,
   ⟨4, 2, 1, cmd1 [0x27, 2 ^ 56 * 0 + 5], .ended stNoRoute, (State.issueRec (oneRec (cmd1 [0x27, 2 ^ 56 * 0 + 5]) 8) (.cmd 4 2 1) (State.rwin (oneRec (cmd1 [0x27, 2 ^ 56 * 0 + 5]) 8) 5) fkSignal 0 0 true 0 0 (List.replicate 16 0) 0).2, oneRec (cmd1 [0x27, 2 ^ 56 * 0 + 5]) 8, by decide +kernel⟩⟩

theorem test_meets_FabricCommands_4 :
    (∃ (i q seq : Nat) (c : Cmd) (s : State), s.cmd? i q seq = some c ∧ (c.remoteSig = false ∨ c.sigIssued = true)) ∧
    (∃ (w : Nat) (s : State), (s.win w).state ≠ .free ∧ (s.win w).inflight ≠ 0) ∧
    (∃ (w : Nat) (s : State), (s.win w).state ≠ .free ∧ (s.win w).inflight = 0) :=
  ⟨⟨4, 2, 1, cmd1 [0x26], runs up [0x26], by decide +kernel⟩,
   ⟨5, up.setWin 5 { state := .opened, inflight := 1 }, by decide +kernel⟩,
   ⟨5, up.setWin 5 { state := .opened }, by decide +kernel⟩⟩

theorem test_meets_PlanCommands_1 :
    (∃ (i q seq : Nat) (c : Cmd) (s₁ : State) (s : State), s.works i q seq 0x30 c = true ∧ s.fetchObj i q seq (hIndex (c.f 1 31 0)) (c.f 2 39 0) 64 = (.wait, s₁)) ∧
    (∃ (i q seq : Nat) (c : Cmd) (st n : Nat) (s₁ : State) (s : State), s.works i q seq 0x30 c = true ∧ s.fetchObj i q seq (hIndex (c.f 1 31 0)) (c.f 2 39 0) 64 = (.fail st n, s₁)) ∧
    (∃ (i q seq : Nat) (c : Cmd) (b : List Byte) (s₁ : State) (s : State), s.works i q seq 0x30 c = true ∧ s.fetchObj i q seq (hIndex (c.f 1 31 0)) (c.f 2 39 0) 64 = (.got b, s₁) ∧ hdrOk (s₁.slice i).level (wordsOf b) = false) ∧
    (∃ (i q seq : Nat) (c : Cmd) (b : List Byte) (s₁ : State) (s : State), s.works i q seq 0x30 c = true ∧ s.fetchObj i q seq (hIndex (c.f 1 31 0)) (c.f 2 39 0) 64 = (.got b, s₁) ∧ hdrOk (s₁.slice i).level (wordsOf b) = true ∧ (s₁.obj i (hIndex (c.f 1 31 0))).size < c.f 2 39 0 + 64 * (hf (wordsOf b) 0 30 20 + 1)) ∧
    (∃ (i q seq : Nat) (c : Cmd) (b : List Byte) (s₁ s₂ : State) (s : State), s.works i q seq 0x30 c = true ∧ s.fetchObj i q seq (hIndex (c.f 1 31 0)) (c.f 2 39 0) 64 = (.got b, s₁) ∧ hdrOk (s₁.slice i).level (wordsOf b) = true ∧ c.f 2 39 0 + 64 * (hf (wordsOf b) 0 30 20 + 1) ≤ (s₁.obj i (hIndex (c.f 1 31 0))).size ∧ s₁.fetchObj i q seq (hIndex (c.f 1 31 0)) (c.f 2 39 0 + 64) (64 * hf (wordsOf b) 0 30 20) = (.wait, s₂)) ∧
    (∃ (i q seq : Nat) (c : Cmd) (b : List Byte) (st n : Nat) (s₁ s₂ : State) (s : State), s.works i q seq 0x30 c = true ∧ s.fetchObj i q seq (hIndex (c.f 1 31 0)) (c.f 2 39 0) 64 = (.got b, s₁) ∧ hdrOk (s₁.slice i).level (wordsOf b) = true ∧ c.f 2 39 0 + 64 * (hf (wordsOf b) 0 30 20 + 1) ≤ (s₁.obj i (hIndex (c.f 1 31 0))).size ∧ s₁.fetchObj i q seq (hIndex (c.f 1 31 0)) (c.f 2 39 0 + 64) (64 * hf (wordsOf b) 0 30 20) = (.fail st n, s₂)) ∧
    (∃ (i q seq : Nat) (c : Cmd) (b b₂ : List Byte) (s₁ s₂ : State) (s : State), s.works i q seq 0x30 c = true ∧ s.fetchObj i q seq (hIndex (c.f 1 31 0)) (c.f 2 39 0) 64 = (.got b, s₁) ∧ hdrOk (s₁.slice i).level (wordsOf b) = true ∧ c.f 2 39 0 + 64 * (hf (wordsOf b) 0 30 20 + 1) ≤ (s₁.obj i (hIndex (c.f 1 31 0))).size ∧ s₁.fetchObj i q seq (hIndex (c.f 1 31 0)) (c.f 2 39 0 + 64) (64 * hf (wordsOf b) 0 30 20) = (.got b₂, s₂)) ∧
    (∃ (i q seq k st dt : Nat) (h : HdrW) (steps : List StepW) (s : State), s.chkPlan i h steps = (k, (st, dt)) ∧ st ≠ 0) :=
  ⟨⟨4, 2, 1, { planCmd planHdr with hostGot := [] }, (State.fetchObj (unbound { planCmd planHdr with hostGot := [] }) 4 2 1 0 0 64).2, unbound { planCmd planHdr with hostGot := [] }, by decide +kernel⟩,
   ⟨4, 2, 1, { planCmd planHdr with hostGot := [], xlatBad := 1 }, stXlatFault, 0, planning { planCmd planHdr with hostGot := [], xlatBad := 1 }, planning { planCmd planHdr with hostGot := [], xlatBad := 1 }, by decide +kernel⟩,
   ⟨4, 2, 1, planCmd (List.replicate 8 0), leBytes 64 0, planning (planCmd (List.replicate 8 0)), planning (planCmd (List.replicate 8 0)), by decide +kernel⟩,
   ⟨4, 2, 1, planCmd planHdr, ((planHdr).map fun w => leBytes 8 w.toNat).flatten, shortDesc, shortDesc, by decide +kernel⟩,
   ⟨4, 2, 1, { planCmd planHdr with hostGot := [(0, (planHdr.map fun w => leBytes 8 w.toNat).flatten)] }, ((planHdr).map fun w => leBytes 8 w.toNat).flatten, unbound { planCmd planHdr with hostGot := [(0, (planHdr.map fun w => leBytes 8 w.toNat).flatten)] }, (State.fetchObj (unbound { planCmd planHdr with hostGot := [(0, (planHdr.map fun w => leBytes 8 w.toNat).flatten)] }) 4 2 1 0 64 64).2, unbound { planCmd planHdr with hostGot := [(0, (planHdr.map fun w => leBytes 8 w.toNat).flatten)] }, by decide +kernel⟩,
   ⟨4, 2, 1, { planCmd planHdr with hostGot := [(0, (planHdr.map fun w => leBytes 8 w.toNat).flatten)], xlatBad := 1 }, ((planHdr).map fun w => leBytes 8 w.toNat).flatten, stXlatFault, 0, planning { planCmd planHdr with hostGot := [(0, (planHdr.map fun w => leBytes 8 w.toNat).flatten)], xlatBad := 1 }, planning { planCmd planHdr with hostGot := [(0, (planHdr.map fun w => leBytes 8 w.toNat).flatten)], xlatBad := 1 }, planning { planCmd planHdr with hostGot := [(0, (planHdr.map fun w => leBytes 8 w.toNat).flatten)], xlatBad := 1 }, by decide +kernel⟩,
   ⟨4, 2, 1, planCmd planHdr, ((planHdr).map fun w => leBytes 8 w.toNat).flatten, ((planStep).map fun w => leBytes 8 w.toNat).flatten, planning (planCmd planHdr), planning (planCmd planHdr), planning (planCmd planHdr), by decide +kernel⟩,
   ⟨4, 2, 1, 2047, 112, 21, List.replicate 8 0, [], planning (planCmd planHdr), by decide +kernel⟩⟩

theorem test_meets_PlanCommands_2 :
    (∃ (i : Nat) (h : HdrW) (steps : List StepW) (s : State), s.freePlan = none) ∧
    (∃ (i q seq k dt p : Nat) (h : HdrW) (steps : List StepW) (s : State), s.chkPlan i h steps = (k, (0, dt)) ∧ s.freePlan = some p ∧ s.overDemand i h steps = false) ∧
    (∃ (i q seq k dt p : Nat) (h : HdrW) (steps : List StepW) (s : State), s.chkPlan i h steps = (k, (0, dt)) ∧ s.freePlan = some p ∧ s.overDemand i h steps = true) ∧
    (∃ (i q seq : Nat) (c : Cmd) (s : State), s.works i q seq 0x31 c = true) ∧
    (∃ (k : Nat) (s : State), (s.plan k).running = true ∧ (s.plan k).fail = 0 ∧ ((s.plan k).indices.all fun x => ((s.plan k).srun x).stage = .completed) = true) ∧
    (∃ (i q seq : Nat) (c : Cmd) (s : State), s.works i q seq 0x32 c = true ∧ s.planOf i (c.f 1 31 0) = none) ∧
    (∃ (i q seq : Nat) (c : Cmd) (k : Nat) (s : State), s.works i q seq 0x32 c = true ∧ s.planOf i (c.f 1 31 0) = some k ∧ (s.plan k).running = true) ∧
    (∃ (i q seq : Nat) (c : Cmd) (k : Nat) (s : State), s.works i q seq 0x32 c = true ∧ s.planOf i (c.f 1 31 0) = some k ∧ (s.plan k).running = false) :=
  ⟨⟨4, planHdr, [planStep], { planning (planCmd planHdr) with col := { up.col with plans := fillTbl {} {} 0 256 fun _ => { loaded := true } } }, by exact lowest_full (m := 256) (n := 256) fun k h => by simp [State.plan, get_fillTbl, h]⟩,
   ⟨4, 2, 1, 2047, 0, 0, planHdr, [planStep], planning (planCmd planHdr), by decide +kernel⟩,
   ⟨4, 2, 1, 2047, 0, 0, planHdr, [[2+2^44,2*2^20+17*6,32,0,0,0,0,0]], planning (planCmd planHdr), by decide +kernel⟩,
   ⟨4, 2, 1, cmd1 [0x31, 256], runs up [0x31, 256], by decide +kernel⟩,
   ⟨0, up.setPlan 0 { running := true }, by decide +kernel⟩,
   ⟨4, 2, 1, cmd1 [0x32, 256], runs up [0x32, 256], by decide +kernel⟩,
   ⟨4, 2, 1, cmd1 [0x32, 256], 0, (runs up [0x32, 256]).setPlan 0 { loaded := true, gen := 1, slice := 4, running := true }, by decide +kernel⟩,
   ⟨4, 2, 1, cmd1 [0x32, 256], 0, (runs up [0x32, 256]).setPlan 0 { loaded := true, gen := 1, slice := 4 }, by decide +kernel⟩⟩

theorem test_meets_PlanCommands_3 :
    (∃ (i q seq : Nat) (c : Cmd) (s : State), s.works i q seq 0x33 c = true) ∧
    (∃ (i q seq : Nat) (c : Cmd) (s : State), s.works i q seq 0x34 c = true) ∧
    (∃ (i q seq : Nat) (c : Cmd) (s : State), s.works i q seq 0x33 c = true ∧ c.desc.isEmpty = false ∧ (c.fixed ≠ 0 ∨ dsCount c.desc ≤ c.progress) ∧ dsStats c.desc = 0) ∧
    (∃ (i q seq : Nat) (c : Cmd) (s : State), s.works i q seq 0x34 c = true ∧ c.desc.isEmpty = false ∧ (c.fixed ≠ 0 ∨ dsCount c.desc ≤ c.progress) ∧ dsStats c.desc = 0) ∧
    (∃ (i q seq : Nat) (c : Cmd) (d : Cmd) (s₁ u : State) (s : State), s.works i q seq 0x33 c = true ∧ c.desc.isEmpty = false ∧ c.fixed = 0 ∧ c.progress < dsCount c.desc ∧ s.quantStep i q seq c = (some s₁, u) ∧ s₁.cmd? i q seq = some d ∧ d.runs = true ∧ d.desc.isEmpty = false ∧ (d.fixed ≠ 0 ∨ dsCount d.desc ≤ d.progress)) ∧
    (∃ (i q seq : Nat) (c : Cmd) (d : Cmd) (s₁ u : State) (s : State), s.works i q seq 0x34 c = true ∧ c.desc.isEmpty = false ∧ c.fixed = 0 ∧ c.progress < dsCount c.desc ∧ s.dequantStep i q seq c = (some s₁, u) ∧ s₁.cmd? i q seq = some d ∧ d.runs = true ∧ d.desc.isEmpty = false ∧ (d.fixed ≠ 0 ∨ dsCount d.desc ≤ d.progress)) ∧
    (∃ (f i q seq : Nat) (c : Cmd) (s₁ u : State) (s : State), s.cmd? i q seq = some c ∧ c.runs = true ∧ c.desc.isEmpty = false ∧ c.fixed = 0 ∧ c.progress < dsCount c.desc ∧ (if c.opcode = 0x33 then s.quantStep i q seq c else s.dequantStep i q seq c) = (some s₁, u)) ∧
    (∃ (f i q seq : Nat) (c : Cmd) (s₁ : State) (s : State), s.cmd? i q seq = some c ∧ c.runs = true ∧ c.desc.isEmpty = false ∧ c.fixed = 0 ∧ c.progress < dsCount c.desc ∧ (if c.opcode = 0x33 then s.quantStep i q seq c else s.dequantStep i q seq c) = (none, s₁)) :=
  ⟨⟨4, 2, 1, cmd1 [0x33], runs up [0x33], by decide +kernel⟩,
   ⟨4, 2, 1, cmd1 [0x34], runs up [0x34], by decide +kernel⟩,
   ⟨4, 2, 1, { fmtOf 0x33 with progress := 32 }, runs32 0x33, by decide +kernel⟩,
   ⟨4, 2, 1, { fmtOf 0x34 with progress := 32 }, runs32 0x34, by decide +kernel⟩,
   ⟨4, 2, 1, fmtOf 0x33, fmtNext 0x33, fmtAfter 0x33, fmtSide 0x33, fmtAt 0x33, by decide +kernel⟩,
   ⟨4, 2, 1, fmtOf 0x34, fmtNext 0x34, fmtAfter 0x34, fmtSide 0x34, fmtAt 0x34, by decide +kernel⟩,
   ⟨0, 4, 2, 1, fmtOf 0x34, fmtAfter 0x34, fmtSide 0x34, fmtAt 0x34, by decide +kernel⟩,
   ⟨0, 4, 2, 1, { fmtOf 0x34 with hostGot := [] }, ((fmtState { fmtOf 0x34 with hostGot := [] }).dequantStep 4 2 1 { fmtOf 0x34 with hostGot := [] }).2, fmtState { fmtOf 0x34 with hostGot := [] }, by decide +kernel, by decide +kernel, by decide +kernel, by decide +kernel, by decide +kernel, by rfl⟩⟩

theorem test_meets_PlanCommands_4 :
    ∃ (i q seq : Nat) (c : Cmd) (b : List Byte) (s₁ : State) (s : State), s.cmd? i q seq = some c ∧ c.runs = true ∧ c.desc.isEmpty = true ∧ s.fetchObj i q seq (hIndex (c.f 1 31 0)) (c.f 2 39 0) 64 = (.got b, s₁) ∧ (s₁.chkFmt i (c.opcode = 0x33) (wordsOf b)).1 ≠ 0 :=
  ⟨4, 2, 1, planCmd (List.replicate 8 0), leBytes 64 0, planning (planCmd (List.replicate 8 0)), planning (planCmd (List.replicate 8 0)), by decide +kernel⟩

theorem test_meets_SpdmAndMeasurements_1 :
    (∃ (m : Mgmt) (code p1 p2 : BitVec 8) (body : List Byte) (s : State), s.serving = true ∧ code = 0xE0) ∧
    (∃ (m : Mgmt) (code p1 p2 : BitVec 8) (body : List Byte) (b : List Byte) (u : State) (s : State), s.serving = true ∧ code ≠ 0xE0 ∧ s.spdmBody code.toNat p1.toNat body = .ok (b, u)) ∧
    (∃ (m : Mgmt) (code p1 p2 : BitVec 8) (body : List Byte) (e : Nat) (s : State), s.serving = true ∧ code ≠ 0xE0 ∧ s.spdmBody code.toNat p1.toNat body = .error e) ∧
    (∃ (m : Mgmt) (code p1 p2 : BitVec 8) (body : List Byte) (s : State), s.serving = true ∧ code = 0x84) ∧
    (∃ (m : Mgmt) (code p1 p2 : BitVec 8) (body : List Byte) (s : State), s.serving = true ∧ code = 0xE4 ∧ 4 ≤ s.dom.sessions) ∧
    (∃ (m : Mgmt) (code p1 p2 : BitVec 8) (body : List Byte) (s : State), s.serving = true ∧ code = 0xE4 ∧ ¬ 4 ≤ s.dom.sessions ∧ s.fbx.trngFailed = true) ∧
    (∃ (m : Mgmt) (code p1 p2 : BitVec 8) (body : List Byte) (s : State), s.serving = true ∧ code = 0xE4 ∧ ¬ 4 ≤ s.dom.sessions ∧ s.fbx.trngFailed = false ∧ s.dom.algs = false) ∧
    (∃ (m : Mgmt) (code p1 p2 : BitVec 8) (body : List Byte) (s : State), s.serving = true ∧ code = 0xE4 ∧ ¬ 4 ≤ s.dom.sessions ∧ s.fbx.trngFailed = false ∧ s.dom.algs = true) :=
  ⟨⟨{}, 0xE0, 0, 0, [], up, by decide +kernel⟩,
   ⟨{}, 0xE8, 0, 0, [], [0, 0], up, up, by decide +kernel, by decide +kernel, by rfl⟩,
   ⟨{}, 0x85, 0, 0, [], spdmUnsupported, up, by decide +kernel, by decide +kernel, by rfl⟩,
   ⟨{}, 0x84, 0, 0, [], up, by decide +kernel⟩,
   ⟨{}, 0xE4, 0, 0, [], { up with dom := { up.dom with sessions := 4 } }, by decide +kernel⟩,
   ⟨{}, 0xE4, 0, 0, [], { up with fbx := { up.fbx with trngFailed := true } }, by decide +kernel⟩,
   ⟨{}, 0xE4, 0, 0, [], up, by decide +kernel⟩,
   ⟨{}, 0xE4, 0, 0, [], { up with dom := { up.dom with algs := true } }, by decide +kernel⟩⟩

theorem test_meets_SpdmAndMeasurements_2 :
    (∃ (m : Mgmt) (code p1 p2 : BitVec 8) (body : List Byte) (s : State), s.serving = true ∧ code = 0x83 ∧ s.certSlots.contains p1.toNat = true ∧ s.fbx.trngFailed = true) ∧
    (∃ (m : Mgmt) (code p1 p2 : BitVec 8) (body : List Byte) (s : State), s.serving = true ∧ code = 0x83 ∧ s.certSlots.contains p1.toNat = false) ∧
    (∃ (m : Mgmt) (code p1 p2 : BitVec 8) (body : List Byte) (s : State), s.serving = true ∧ code = 0x82 ∧ s.certSlots.contains p1.toNat = false) ∧
    (∃ (m : Mgmt) (code p1 p2 : BitVec 8) (body : List Byte) (s : State), s.serving = true ∧ code = 0xE5) ∧
    (∃ (m : Mgmt) (code p1 p2 : BitVec 8) (body : List Byte) (s : State), s.serving = true ∧ code = 0xE8) ∧
    (∃ (m : Mgmt) (code p1 p2 : BitVec 8) (body : List Byte) (s : State), s.serving = true ∧ code = 0xE9) ∧
    (∃ (m : Mgmt) (code p1 p2 : BitVec 8) (body : List Byte) (s : State), s.serving = true ∧ code = 0xEC) ∧
    (∃ (m : Mgmt) (code p1 p2 : BitVec 8) (body : List Byte) (s : State), s.serving = true ∧ code = 0x85) :=
  ⟨⟨{}, 0x83, 0, 0, [], { up with fbx := { up.fbx with trngFailed := true } }, by decide +kernel⟩,
   ⟨{}, 0x83, 7, 0, [], up, by decide +kernel⟩,
   ⟨{}, 0x82, 7, 0, [], up, by decide +kernel⟩,
   ⟨{}, 0xE5, 0, 0, [], up, by decide +kernel⟩,
   ⟨{}, 0xE8, 0, 0, [], up, by decide +kernel⟩,
   ⟨{}, 0xE9, 0, 0, [], up, by decide +kernel⟩,
   ⟨{}, 0xEC, 0, 0, [], up, by decide +kernel⟩,
   ⟨{}, 0x85, 0, 0, [], up, by decide +kernel⟩⟩

theorem test_meets_SpdmAndMeasurements_3 :
    (∃ (m : Mgmt) (nonce : BitVec 256) (s : State), s.serving = true) ∧
    (∃ (m : Mgmt) (nonce : BitVec 256) (s : State), s.serving = true) ∧
    (∃ (m : Mgmt) (nonce : BitVec 256) (s : State), s.serving = true) ∧
    (∃ (m : Mgmt) (nonce : BitVec 256) (s : State), s.serving = true ∧ s.fbx.trngFailed = false) ∧
    (∃ (m : Mgmt) (nonce : BitVec 256) (s : State), s.serving = true ∧ s.fbx.trngFailed = true) ∧
    (∃ (m : Mgmt) (index : BitVec 8) (nonce : BitVec 256) (b : List Byte) (s : State), s.serving = true ∧ 1 ≤ index.toNat ∧ index.toNat ≤ 7 ∧ s.measOf index.toNat = some b) :=
  ⟨⟨{}, 0, up, by decide +kernel⟩,
   ⟨{}, 0, up, by decide +kernel⟩,
   ⟨{}, 0, up, by decide +kernel⟩,
   ⟨{}, 0, up, by decide +kernel⟩,
   ⟨{}, 0, { up with fbx := { up.fbx with trngFailed := true } }, by decide +kernel⟩,
   ⟨{}, 1, 0, (up.measOf 1).get!, up, by decide +kernel⟩⟩

theorem test_meets_SyncCommands_1 :
    (∃ (i q seq : Nat) (c : Cmd) (d : Nat) (st : Nat) (s : State), s.works i q seq 0x40 c = true ∧ s.chkSyncInit i c = (st, d) ∧ st ≠ 0) ∧
    (∃ (i q seq : Nat) (c : Cmd) (d : Nat) (s : State), s.works i q seq 0x40 c = true ∧ s.chkSyncInit i c = (0, d)) ∧
    (∃ (i q seq : Nat) (c : Cmd) (d : Nat) (st : Nat) (s : State), s.works i q seq 0x41 c = true ∧ s.chkSyncFree i c = (st, d) ∧ st ≠ 0) ∧
    (∃ (i q seq : Nat) (c : Cmd) (d : Nat) (s : State), s.works i q seq 0x41 c = true ∧ s.chkSyncFree i c = (0, d)) ∧
    (∃ (i q seq : Nat) (c : Cmd) (d : Nat) (st : Nat) (s : State), s.works i q seq 0x42 c = true ∧ s.chkSyncNotify i c = (st, d) ∧ st ≠ 0) ∧
    (∃ (i q seq : Nat) (c : Cmd) (d : Nat) (s : State), s.works i q seq 0x42 c = true ∧ s.chkSyncNotify i c = (0, d)) ∧
    (∃ (i q seq : Nat) (c : Cmd) (n d : Nat) (s : State), s.works i q seq 0x43 c = true ∧ s.freeGrant = some n ∧ s.chkSyncGrant i c = (0, d)) ∧
    (∃ (i q seq : Nat) (c : Cmd) (d : Nat) (s : State), s.works i q seq 0x43 c = true ∧ s.freeGrant = none ∧ s.chkSyncGrant i c = (0, d)) :=
  ⟨⟨4, 2, 1, cmd1 [0x40, 3], 0, 40, runs up [0x40, 3], by decide +kernel⟩,
   ⟨4, 2, 1, cmd1 [0x40, 3], 0, (runs up [0x40, 3]).modSlice 4 fun l => { l with synCount := 1 }, by decide +kernel⟩,
   ⟨4, 2, 1, cmd1 [0x41, 0xFFFF], (State.chkSyncFree (runs up [0x41, 0xFFFF]) 4 (cmd1 [0x41, 0xFFFF])).2, (State.chkSyncFree (runs up [0x41, 0xFFFF]) 4 (cmd1 [0x41, 0xFFFF])).1, runs up [0x41, 0xFFFF], by decide +kernel⟩,
   ⟨4, 2, 1, cmd1 [0x41, 3], 0, (((runs up [0x41, 3]).modSlice 4 fun l => { l with synCount := 1 }).setSyncObj 3 { kind := .event }), by decide +kernel⟩,
   ⟨4, 2, 1, cmd1 [0x42, 0xFFFF], (State.chkSyncNotify (runs up [0x42, 0xFFFF]) 4 (cmd1 [0x42, 0xFFFF])).2, (State.chkSyncNotify (runs up [0x42, 0xFFFF]) 4 (cmd1 [0x42, 0xFFFF])).1, runs up [0x42, 0xFFFF], by decide +kernel⟩,
   ⟨4, 2, 1, cmd1 [0x42, 3], 0, (((runs up [0x42, 3]).modSlice 4 fun l => { l with synCount := 1 }).setSyncObj 3 { kind := .event }), by decide +kernel⟩,
   ⟨4, 2, 1, cmd1 [0x43, 2 ^ 20 + 3 * 2 ^ 48], 0, 0, (((runs up [0x43, 2 ^ 20 + 3 * 2 ^ 48]).modSlice 4 fun l => { l with synCount := 1 }).setSyncObj 3 { kind := .event }), by decide +kernel⟩,
   ⟨4, 2, 1, cmd1 [0x43, 2 ^ 20 + 3 * 2 ^ 48], 0, { ((((runs up [0x43, 2 ^ 20 + 3 * 2 ^ 48]).modSlice 4 fun l => { l with synCount := 1 }).setSyncObj 3 { kind := .event }) : State) with syn := { ((((runs up [0x43, 2 ^ 20 + 3 * 2 ^ 48]).modSlice 4 fun l => { l with synCount := 1 }).setSyncObj 3 { kind := .event }) : State).syn with grants := fillTbl {} {} 0 65536 fun _ => { used := true } } }, by decide +kernel, by exact lowest_full fun k h => by simp [State.grant, get_fillTbl, h], by decide +kernel⟩⟩

theorem test_meets_SyncCommands_2 :
    (∃ (i q seq : Nat) (c : Cmd) (st d : Nat) (s : State), s.works i q seq 0x43 c = true ∧ s.chkSyncGrant i c = (st, d) ∧ st ≠ 0) ∧
    (∃ (i q seq : Nat) (c : Cmd) (d : Nat) (st : Nat) (s : State), s.works i q seq 0x44 c = true ∧ s.chkSyncUngrant i c = (st, d) ∧ st ≠ 0) ∧
    (∃ (i q seq : Nat) (c : Cmd) (d : Nat) (s : State), s.works i q seq 0x44 c = true ∧ s.chkSyncUngrant i c = (0, d)) :=
  ⟨⟨4, 2, 1, cmd1 [0x43, 3], 22, 0, runs up [0x43, 3], by decide +kernel⟩,
   ⟨4, 2, 1, cmd1 [0x44, 0xFFFF], (State.chkSyncUngrant (runs up [0x44, 0xFFFF]) 4 (cmd1 [0x44, 0xFFFF])).2, (State.chkSyncUngrant (runs up [0x44, 0xFFFF]) 4 (cmd1 [0x44, 0xFFFF])).1, runs up [0x44, 0xFFFF], by decide +kernel⟩,
   ⟨4, 2, 1, cmd1 [0x44, 2 ^ 16], 0, (runs up [0x44, 2 ^ 16]).setGrant 0 { used := true, owner := 4, gen := 1 }, by decide +kernel⟩⟩

theorem test_meets_WitnessCommands_1 :
    (∃ (i q seq : Nat) (c : Cmd) (s₁ : State) (s : State), s.works i q seq 0x50 c = true ∧ s.storeObj i q seq (hIndex (c.f 1 31 0)) (c.f 2 39 0) c.latch = (.done, s₁)) ∧
    (∃ (i q seq : Nat) (c : Cmd) (st n : Nat) (s₁ : State) (s : State), s.works i q seq 0x50 c = true ∧ s.storeObj i q seq (hIndex (c.f 1 31 0)) (c.f 2 39 0) c.latch = (.fail st n, s₁)) ∧
    (∃ (i q seq : Nat) (c : Cmd) (s₁ : State) (s : State), s.works i q seq 0x50 c = true ∧ s.storeObj i q seq (hIndex (c.f 1 31 0)) (c.f 2 39 0) c.latch = (.wait, s₁)) ∧
    (∃ (i q seq : Nat) (c : Cmd) (s₁ : State) (s : State), s.works i q seq 0x53 c = true ∧ s.storeObj i q seq (hIndex (c.f 2 31 0)) (c.f 3 39 0) c.latch = (.done, s₁)) ∧
    (∃ (i q seq : Nat) (c : Cmd) (st n : Nat) (s₁ : State) (s : State), s.works i q seq 0x53 c = true ∧ s.storeObj i q seq (hIndex (c.f 2 31 0)) (c.f 3 39 0) c.latch = (.fail st n, s₁)) ∧
    (∃ (i q seq : Nat) (c : Cmd) (s₁ : State) (s : State), s.works i q seq 0x53 c = true ∧ s.storeObj i q seq (hIndex (c.f 2 31 0)) (c.f 3 39 0) c.latch = (.wait, s₁)) ∧
    (∃ (i q seq : Nat) (c : Cmd) (d n : Nat) (s : State), s.works i q seq 0x51 c = true ∧ s.chkWatchArm i c = (0, d) ∧ s.freeWatch = some n) ∧
    (∃ (i q seq : Nat) (c : Cmd) (st d : Nat) (s : State), s.works i q seq 0x51 c = true ∧ s.chkWatchArm i c = (st, d) ∧ st ≠ 0) :=
  ⟨⟨4, 2, 1, { cmd1 [0x50, BitVec.ofNat 64 (mkHandle 1 1), 0] with latch := [5] }, (State.storeObj (copying { cmd1 [0x50, BitVec.ofNat 64 (mkHandle 1 1), 0] with latch := [5] }) 4 2 1 1 0 [5]).2, copying { cmd1 [0x50, BitVec.ofNat 64 (mkHandle 1 1), 0] with latch := [5] }, by decide +kernel⟩,
   ⟨4, 2, 1, { cmd1 [0x50, BitVec.ofNat 64 (mkHandle 1 1), 0] with latch := [5], xlatBad := 2 }, stXlatFault, 0, copying { cmd1 [0x50, BitVec.ofNat 64 (mkHandle 1 1), 0] with latch := [5], xlatBad := 2 }, copying { cmd1 [0x50, BitVec.ofNat 64 (mkHandle 1 1), 0] with latch := [5], xlatBad := 2 }, by decide +kernel⟩,
   ⟨4, 2, 1, { cmd1 [0x50, BitVec.ofNat 64 (mkHandle 1 1), 0] with latch := [5] }, (State.storeObj ({ copying { cmd1 [0x50, BitVec.ofNat 64 (mkHandle 1 1), 0] with latch := [5] } with hst := { up.hst with ats := true } }) 4 2 1 1 0 [5]).2, { copying { cmd1 [0x50, BitVec.ofNat 64 (mkHandle 1 1), 0] with latch := [5] } with hst := { up.hst with ats := true } }, by decide +kernel⟩,
   ⟨4, 2, 1, { cmd1 [0x53, 0, BitVec.ofNat 64 (mkHandle 1 1), 0] with latch := [5] }, (State.storeObj (copying { cmd1 [0x53, 0, BitVec.ofNat 64 (mkHandle 1 1), 0] with latch := [5] }) 4 2 1 1 0 [5]).2, copying { cmd1 [0x53, 0, BitVec.ofNat 64 (mkHandle 1 1), 0] with latch := [5] }, by decide +kernel⟩,
   ⟨4, 2, 1, { cmd1 [0x53, 0, BitVec.ofNat 64 (mkHandle 1 1), 0] with latch := [5], xlatBad := 2 }, stXlatFault, 0, copying { cmd1 [0x53, 0, BitVec.ofNat 64 (mkHandle 1 1), 0] with latch := [5], xlatBad := 2 }, copying { cmd1 [0x53, 0, BitVec.ofNat 64 (mkHandle 1 1), 0] with latch := [5], xlatBad := 2 }, by decide +kernel⟩,
   ⟨4, 2, 1, { cmd1 [0x53, 0, BitVec.ofNat 64 (mkHandle 1 1), 0] with latch := [5] }, (State.storeObj ({ copying { cmd1 [0x53, 0, BitVec.ofNat 64 (mkHandle 1 1), 0] with latch := [5] } with hst := { up.hst with ats := true } }) 4 2 1 1 0 [5]).2, { copying { cmd1 [0x53, 0, BitVec.ofNat 64 (mkHandle 1 1), 0] with latch := [5] } with hst := { up.hst with ats := true } }, by decide +kernel⟩,
   ⟨4, 2, 1, cmd1 [0x51, BitVec.ofNat 64 (2 ^ 4 + 64 * 2 ^ 24), BitVec.ofNat 64 (mkHandle 0 1), 0], 0, 0, ((runs up [0x51, BitVec.ofNat 64 (2 ^ 4 + 64 * 2 ^ 24), BitVec.ofNat 64 (mkHandle 0 1), 0]).modSlice 4 fun l => { l with cfg := 7 + 2 ^ 33 + 2 ^ 46, watchMax := 1, objs := ({} : Tbl ObjEntry).set {} 0 { state := .valid, kind := 0, base := 4096, size := 1024, rd := true } }), by decide +kernel⟩,
   ⟨4, 2, 1, cmd1 [0x51], 21, 0, runs up [0x51], by decide +kernel⟩⟩

theorem test_meets_WitnessCommands_2 :
    (∃ (i q seq : Nat) (c : Cmd) (d : Nat) (st : Nat) (s : State), s.works i q seq 0x52 c = true ∧ s.chkWatch i c = (st, d) ∧ st ≠ 0) ∧
    (∃ (i q seq : Nat) (c : Cmd) (d : Nat) (s : State), s.works i q seq 0x52 c = true ∧ s.chkWatch i c = (0, d)) :=
  ⟨⟨4, 2, 1, cmd1 [0x52, 5], (State.chkWatch (runs up [0x52, 5]) 4 (cmd1 [0x52, 5])).2, (State.chkWatch (runs up [0x52, 5]) 4 (cmd1 [0x52, 5])).1, runs up [0x52, 5], by decide +kernel⟩,
   ⟨4, 2, 1, cmd1 [0x52, 3], 0, (runs up [0x52, 3]).setWatch 3 { armed := true, slice := 4 }, by decide +kernel⟩⟩

theorem test_meets_KeyCommandsAndSweeps_1 :
    (∃ (i q seq : Nat) (c : Cmd) (d : Nat) (u : State) (s : State), s.works i q seq 0x60 c = true ∧ u = s.useCell (.prkDom ((s.domainOf i).getD 0)) ∧ u.chkKidBind i = (0, d)) ∧
    (∃ (i q seq : Nat) (c : Cmd) (st d : Nat) (u : State) (s : State), s.works i q seq 0x60 c = true ∧ u = s.useCell (.prkDom ((s.domainOf i).getD 0)) ∧ u.chkKidBind i = (st, d) ∧ st ≠ 0) ∧
    (∃ (i q seq : Nat) (c : Cmd) (s : State), s.works i q seq 0x61 c = true ∧ c.f 1 11 0 ≠ 0 ∧ (s.kid (c.f 1 11 0)).state = .active ∧ (s.kid (c.f 1 11 0)).dvalid = true ∧ some (s.kid (c.f 1 11 0)).dslot = s.domainOf i) ∧
    (∃ (i q seq : Nat) (c : Cmd) (s : State), s.works i q seq 0x61 c = true ∧ (c.f 1 11 0 = 0 ∨ (s.kid (c.f 1 11 0)).state ≠ .active ∨ (s.kid (c.f 1 11 0)).dvalid = false ∨ some (s.kid (c.f 1 11 0)).dslot ≠ s.domainOf i)) ∧
    (∃ (i q seq : Nat) (c : Cmd) (n : Nat) (s : State), s.works i q seq 0x62 c = true ∧ s.freeRgn = some n ∧ s.asgRgn (rgnOf (c.w 1)) (some (s.domainOf i)) = 0) ∧
    (∃ (i q seq : Nat) (c : Cmd) (n m : Nat) (s : State), s.works i q seq 0x62 c = true ∧ s.freeRgn = some n ∧ s.asgRgn (rgnOf (c.w 1)) (some (s.domainOf i)) = m ∧ asgStatus m ≠ 0) ∧
    (∃ (i q seq : Nat) (c : Cmd) (s : State), s.works i q seq 0x62 c = true ∧ s.freeRgn = none) ∧
    (∃ (i q seq : Nat) (c : Cmd) (s : State), s.works i q seq 0x63 c = true ∧ c.rgn = 0 ∧ s.relRgn (c.f 1 5 0) (some (s.domainOf i)) = 0) :=
  ⟨⟨4, 2, 1, cmd1 [0x60], 0, (((runs up [0x60]).modSlice 4 fun l => { l with bound := true }).setSlot 0 { state := .live }), (((runs up [0x60]).modSlice 4 fun l => { l with bound := true }).setSlot 0 { state := .live }), by decide +kernel⟩,
   ⟨4, 2, 1, cmd1 [0x60], stDomState, 0, runs up [0x60], runs up [0x60], by decide +kernel⟩,
   ⟨4, 2, 1, cmd1 [0x61, 9], ((runs up [0x61, 9]).modSlice 4 fun l => { l with bound := true }).setKid 9 { state := .active, dvalid := true }, by decide +kernel⟩,
   ⟨4, 2, 1, cmd1 [0x61, 9], runs up [0x61, 9], by decide +kernel⟩,
   ⟨4, 2, 1, cmd1 [0x62, 1 + 2 ^ 19 + 9 * 2 ^ 35], 0, ((runs up [0x62, 1 + 2 ^ 19 + 9 * 2 ^ 35]).modSlice 4 fun l => { l with bound := true }).setKid 9 { state := .active, dvalid := true }, by decide +kernel⟩,
   ⟨4, 2, 1, cmd1 [0x62], 0, 2, runs up [0x62], by decide +kernel⟩,
   ⟨4, 2, 1, cmd1 [0x62], { runs up [0x62] with msl := { up.msl with rgns := (List.range 64).foldl (fun t k => t.set {} k { state := .active }) {} } }, by decide +kernel⟩,
   ⟨4, 2, 1, cmd1 [0x63, 3], ((((runs up [0x63, 3]).modSlice 4 fun l => { l with bound := true }).setKid 9 { state := .active, dvalid := true }).setRgn 3 { state := .active, mode := 1, kid := 9, size := 1 }), by decide +kernel⟩⟩

theorem test_meets_KeyCommandsAndSweeps_2 :
    (∃ (i q seq : Nat) (c : Cmd) (n : Nat) (s : State), s.works i q seq 0x63 c = true ∧ c.rgn = 0 ∧ s.relRgn (c.f 1 5 0) (some (s.domainOf i)) = n ∧ n ≠ 0) ∧
    (∃ (i q seq : Nat) (c : Cmd) (s : State), s.works i q seq 0x63 c = true ∧ c.rgn ≠ 0) ∧
    (∃ (i q seq : Nat) (c : Cmd) (n : Nat) (s : State), s.works i q seq 0x65 c = true ∧ c.rgn = 0 ∧ s.freeHrg = some n ∧ s.asgHrg (hrgOf (c.w 1)) (some (s.domainOf i)) = 0) ∧
    (∃ (i q seq : Nat) (c : Cmd) (n m : Nat) (s : State), s.works i q seq 0x65 c = true ∧ c.rgn = 0 ∧ s.freeHrg = some n ∧ s.asgHrg (hrgOf (c.w 1)) (some (s.domainOf i)) = m ∧ asgStatus m ≠ 0) ∧
    (∃ (i q seq : Nat) (c : Cmd) (s : State), s.works i q seq 0x65 c = true ∧ c.rgn = 0 ∧ s.freeHrg = none) ∧
    (∃ (i q seq : Nat) (c : Cmd) (s : State), s.works i q seq 0x65 c = true ∧ c.rgn ≠ 0) ∧
    (∃ (i q seq : Nat) (c : Cmd) (s : State), s.works i q seq 0x66 c = true ∧ c.rgn = 0 ∧ s.relHrg (c.f 1 3 0) (some (s.domainOf i)) = 0) ∧
    (∃ (i q seq : Nat) (c : Cmd) (n : Nat) (s : State), s.works i q seq 0x66 c = true ∧ c.rgn = 0 ∧ s.relHrg (c.f 1 3 0) (some (s.domainOf i)) = n ∧ n ≠ 0) :=
  ⟨⟨4, 2, 1, cmd1 [0x63, 3], 1, runs up [0x63, 3], by decide +kernel⟩,
   ⟨4, 2, 1, { cmd1 [0x63, 3] with rgn := 4 }, withQueue up { state := .enabled, nextSeq := 2, cmds := [{ cmd1 [0x63, 3] with rgn := 4 }] }, by decide +kernel⟩,
   ⟨4, 2, 1, cmd1 [0x65, 2 + 2 ^ 15 + 9 * 2 ^ 28], 0, ((runs up [0x65, 2 + 2 ^ 15 + 9 * 2 ^ 28]).modSlice 4 fun l => { l with bound := true }).setKid 9 { state := .active, dvalid := true }, by decide +kernel⟩,
   ⟨4, 2, 1, cmd1 [0x65], 0, 2, runs up [0x65], by decide +kernel⟩,
   ⟨4, 2, 1, cmd1 [0x65], { runs up [0x65] with hth := { up.hth with rngs := (List.range 16).foldl (fun t k => t.set {} k { state := .active }) {} } }, by decide +kernel⟩,
   ⟨4, 2, 1, { cmd1 [0x65, 3] with rgn := 4 }, withQueue up { state := .enabled, nextSeq := 2, cmds := [{ cmd1 [0x65, 3] with rgn := 4 }] }, by decide +kernel⟩,
   ⟨4, 2, 1, cmd1 [0x66, 3], (((runs up [0x66, 3]).modSlice 4 fun l => { l with bound := true }).setKid 9 { state := .active, dvalid := true }).setHrg 3 { state := .active, mode := 2, kid := 9, size := 1 }, by decide +kernel⟩,
   ⟨4, 2, 1, cmd1 [0x66, 3], 1, runs up [0x66, 3], by decide +kernel⟩⟩

theorem test_meets_KeyCommandsAndSweeps_3 :
    (∃ (i q seq : Nat) (c : Cmd) (s : State), s.works i q seq 0x66 c = true ∧ c.rgn ≠ 0) ∧
    (∃ (i q seq : Nat) (c : Cmd) (s : State), s.works i q seq 0x64 c = true) ∧
    (∃ (region : Nat) (i q : Nat) (c : Cmd) (s : State), (s.allCmds.find? fun e => e.2.2.rgn = region + 1 && e.2.2.opcode = 0x64 && e.2.2.runs) = some (i, q, c) ∧ s.works i q c.seq 0x64 c = true) ∧
    (∃ (region : Nat) (s : State), (s.allCmds.find? fun e => e.2.2.rgn = region + 1 && e.2.2.opcode = 0x64 && e.2.2.runs) = none) ∧
    (∃ (i q seq : Nat) (c : Cmd) (u w : State) (s : State), s.works i q seq 0x64 c = true ∧ c.rgn ≠ 0 ∧ u = s.useRgn (c.rgn - 1) ∧ (u.kid (u.rgn (c.rgn - 1)).kid).state = .active ∧ (u.kid (u.rgn (c.rgn - 1)).newKid).state = .active ∧ u.bgTurn clsReseal (cmdJob i q seq) = true ∧ w = (u.bgTaken clsReseal (cmdJob i q seq)).sweepPage (c.rgn - 1) ∧ (u.rgn (c.rgn - 1)).pages ≤ (w.rgn (c.rgn - 1)).watermark) ∧
    (∃ (region i q : Nat) (c : Cmd) (u w : State) (s : State), s.works i q c.seq 0x64 c = true ∧ c.rgn ≠ 0 ∧ u = s.useRgn (c.rgn - 1) ∧ (u.kid (u.rgn (c.rgn - 1)).kid).state = .active ∧ (u.kid (u.rgn (c.rgn - 1)).newKid).state = .active ∧ u.bgTurn clsReseal (cmdJob i q c.seq) = true ∧ w = (u.bgTaken clsReseal (cmdJob i q c.seq)).sweepPage (c.rgn - 1) ∧ (u.rgn (c.rgn - 1)).pages ≤ (w.rgn (c.rgn - 1)).watermark ∧ (s.allCmds.find? fun e => e.2.2.rgn = region + 1 && e.2.2.opcode = 0x64 && e.2.2.runs) = some (i, q, c)) ∧
    (∃ (f i q seq : Nat) (c : Cmd) (u w : State) (s : State), s.cmd? i q seq = some c ∧ c.runs = true ∧ c.rgn ≠ 0 ∧ u = s.useRgn (c.rgn - 1) ∧ (u.kid (u.rgn (c.rgn - 1)).kid).state = .active ∧ (u.kid (u.rgn (c.rgn - 1)).newKid).state = .active ∧ u.bgTurn clsReseal (cmdJob i q seq) = true ∧ w = (u.bgTaken clsReseal (cmdJob i q seq)).sweepPage (c.rgn - 1) ∧ (u.rgn (c.rgn - 1)).pages ≤ (w.rgn (c.rgn - 1)).watermark) ∧
    (∃ (f i q seq : Nat) (c : Cmd) (u w : State) (s : State), s.cmd? i q seq = some c ∧ c.runs = true ∧ c.rgn ≠ 0 ∧ u = s.useRgn (c.rgn - 1) ∧ (u.kid (u.rgn (c.rgn - 1)).kid).state = .active ∧ (u.kid (u.rgn (c.rgn - 1)).newKid).state = .active ∧ u.bgTurn clsReseal (cmdJob i q seq) = true ∧ w = (u.bgTaken clsReseal (cmdJob i q seq)).sweepPage (c.rgn - 1) ∧ (w.rgn (c.rgn - 1)).watermark < (u.rgn (c.rgn - 1)).pages) :=
  ⟨⟨4, 2, 1, { cmd1 [0x66, 3] with rgn := 4 }, withQueue up { state := .enabled, nextSeq := 2, cmds := [{ cmd1 [0x66, 3] with rgn := 4 }] }, by decide +kernel⟩,
   ⟨4, 2, 1, cmd1 [0x64, 3], runs up [0x64, 3], by decide +kernel⟩,
   ⟨3, 4, 2, sweepCmd, (sweeping 1 448), by decide +kernel⟩,
   ⟨3, up, by decide +kernel⟩,
   ⟨4, 2, 1, sweepCmd, (sweeping 1 448), (State.sweepPage (State.bgTaken (sweeping 1 448) clsReseal (cmdJob 4 2 1)) 3), (sweeping 1 448), by decide +kernel, by decide +kernel, by decide +kernel, by decide +kernel, by decide +kernel, by exact bgTurn_only (a := (sweeping 1 448).arbiter ((sweeping 1 448).rgn 3).stack (((sweeping 1 448).rgn 3).stackPage 448)) rfl, by rfl, by decide +kernel⟩,
   ⟨3, 4, 2, sweepCmd, (sweeping 1 448), (State.sweepPage (State.bgTaken (sweeping 1 448) clsReseal (cmdJob 4 2 1)) 3), (sweeping 1 448), by decide +kernel, by decide +kernel, by decide +kernel, by decide +kernel, by decide +kernel, by exact bgTurn_only (a := (sweeping 1 448).arbiter ((sweeping 1 448).rgn 3).stack (((sweeping 1 448).rgn 3).stackPage 448)) rfl, by rfl, by decide +kernel, by decide +kernel⟩,
   ⟨0, 4, 2, 1, sweepCmd, (sweeping 1 448), (State.sweepPage (State.bgTaken (sweeping 1 448) clsReseal (cmdJob 4 2 1)) 3), (sweeping 1 448), by decide +kernel, by decide +kernel, by decide +kernel, by decide +kernel, by decide +kernel, by decide +kernel, by exact bgTurn_only (a := (sweeping 1 448).arbiter ((sweeping 1 448).rgn 3).stack (((sweeping 1 448).rgn 3).stackPage 448)) rfl, by rfl, by decide +kernel⟩,
   ⟨0, 4, 2, 1, sweepCmd, (sweeping 1 0), (State.sweepPage (State.bgTaken (sweeping 1 0) clsReseal (cmdJob 4 2 1)) 3), (sweeping 1 0), by decide +kernel, by decide +kernel, by decide +kernel, by decide +kernel, by decide +kernel, by decide +kernel, by exact bgTurn_only (a := (sweeping 1 0).arbiter ((sweeping 1 0).rgn 3).stack (((sweeping 1 0).rgn 3).stackPage 0)) rfl, by rfl, by decide +kernel⟩⟩

theorem test_meets_KeyCommandsAndSweeps_4 :
    (∃ (f i q seq : Nat) (c : Cmd) (u : State) (s : State), s.cmd? i q seq = some c ∧ c.runs = true ∧ c.rgn ≠ 0 ∧ u = s.useRgn (c.rgn - 1) ∧ (u.kid (u.rgn (c.rgn - 1)).kid).state = .active ∧ (u.kid (u.rgn (c.rgn - 1)).newKid).state = .active ∧ u.bgTurn clsReseal (cmdJob i q seq) = false) ∧
    (∃ (f i q seq : Nat) (c : Cmd) (u : State) (s : State), s.cmd? i q seq = some c ∧ c.runs = true ∧ c.rgn ≠ 0 ∧ u = s.useRgn (c.rgn - 1) ∧ ((u.kid (u.rgn (c.rgn - 1)).kid).state ≠ .active ∨ (u.kid (u.rgn (c.rgn - 1)).newKid).state ≠ .active)) ∧
    (∃ (n : Nat) (u : State) (s : State), u = s.useCell (.kid (s.hrg n).kid) ∧ (u.hrg n).state = .initialising ∧ u.kidServes (u.hrg n).kid = true ∧ u.kidAdmits (u.hrg n).kid = true ∧ (u.hrg n).size ≤ (u.hrg n).initDone) ∧
    (∃ (n : Nat) (u : State) (s : State), u = s.useCell (.kid (s.hrg n).kid) ∧ (u.hrg n).state = .initialising ∧ u.kidServes (u.hrg n).kid = true ∧ u.kidAdmits (u.hrg n).kid = true ∧ (u.hrg n).initDone < (u.hrg n).size ∧ u.bgTurn clsInit n = true ∧ ((u.initMib n).hrg n).size ≤ ((u.initMib n).hrg n).initDone) ∧
    (∃ (n : Nat) (u : State) (s : State), u = s.useCell (.kid (s.hrg n).kid) ∧ (u.hrg n).state = .initialising ∧ u.kidServes (u.hrg n).kid = true ∧ u.kidAdmits (u.hrg n).kid = true ∧ (u.hrg n).initDone < (u.hrg n).size ∧ u.bgTurn clsInit n = false) ∧
    (∃ (n : Nat) (u : State) (s : State), u = s.useCell (.kid (s.hrg n).kid) ∧ ((u.hrg n).state ≠ .initialising ∨ u.kidServes (u.hrg n).kid = false ∨ u.kidAdmits (u.hrg n).kid = false)) ∧
    (∃ (n : Nat) (s : State), (s.hrg n).byReg = true) ∧
    (∃ (n : Nat) (s : State), (s.hrg n).byReg = false) :=
  ⟨⟨0, 4, 2, 1, { sweepCmd with words := [0x10] }, (sweepState { sweepCmd with words := [0x10] } 1 0), (sweepState { sweepCmd with words := [0x10] } 1 0), by decide +kernel⟩,
   ⟨0, 4, 2, 1, sweepCmd, { (sweeping 1 448) with fbx := up.fbx }, { (sweeping 1 448) with fbx := up.fbx }, by decide +kernel⟩,
   ⟨2, (up.setHrg 2 { state := .initialising, size := 1, initDone := 1 }), (up.setHrg 2 { state := .initialising, size := 1, initDone := 1 }), by decide +kernel⟩,
   ⟨2, (up.setHrg 2 { state := .initialising, size := 1, initDone := 0 }), (up.setHrg 2 { state := .initialising, size := 1, initDone := 0 }), by decide +kernel⟩,
   ⟨2, ((up.setHrg 2 { state := .initialising, size := 1, initDone := 0 })).setHrg 1 { state := .initialising, size := 1 }, ((up.setHrg 2 { state := .initialising, size := 1, initDone := 0 })).setHrg 1 { state := .initialising, size := 1 }, by decide +kernel⟩,
   ⟨2, up, up, by decide +kernel⟩,
   ⟨2, up.setHrg 2 { state := .initialising, size := 1, byReg := true }, by decide +kernel⟩,
   ⟨2, up, by decide +kernel⟩⟩

theorem test_meets_FireboxRegisters_1 :
    (∃ (r : Req) (kid : Kid) (t : State) (s : State), s.served r 0x20028 = true ∧ s.dropHeld r = t ∧ t.fbx.kres = 1) ∧
    (∃ (r : Req) (kid : Kid) (t : State) (s : State), s.served r 0x20028 = true ∧ s.dropHeld r = t ∧ t.fbx.kres = 1) ∧
    (∃ (r : Req) (kid : Kid) (t : State) (s : State), s.served r 0x20028 = true ∧ s.dropHeld r = t ∧ t.fbx.kres ≠ 1 ∧ kid = 0) ∧
    (∃ (r : Req) (kid : Kid) (t : State) (s : State), s.served r 0x20028 = true ∧ s.dropHeld r = t ∧ t.fbx.kres ≠ 1 ∧ kid = 0) ∧
    (∃ (r : Req) (kid : Kid) (t : State) (s : State), s.served r 0x20028 = true ∧ s.dropHeld r = t ∧ t.fbx.kres ≠ 1 ∧ kid.toNat ≠ 0 ∧ t.kidPlain kid.toNat = false) ∧
    (∃ (r : Req) (kid : Kid) (t : State) (s : State), s.served r 0x20028 = true ∧ s.dropHeld r = t ∧ t.fbx.kres ≠ 1 ∧ kid.toNat ≠ 0 ∧ t.kidPlain kid.toNat = false) ∧
    (∃ (r : Req) (kid : Kid) (t : State) (s : State), s.served r 0x20028 = true ∧ s.dropHeld r = t ∧ t.fbx.kres ≠ 1 ∧ kid.toNat ≠ 0 ∧ t.kidPlain kid.toNat = true ∧ (t.kid kid.toNat).state ≠ .free) ∧
    (∃ (r : Req) (kid : Kid) (t : State) (s : State), s.served r 0x20028 = true ∧ s.dropHeld r = t ∧ t.fbx.kres ≠ 1 ∧ kid.toNat ≠ 0 ∧ t.kidPlain kid.toNat = true ∧ (t.kid kid.toNat).state = .free ∧ t.fbx.trngFailed = true) :=
  ⟨⟨mg, 5, ({ up with fbx := { up.fbx with kres := 1 } }).dropHeld mg, { up with fbx := { up.fbx with kres := 1 } }, by decide +kernel⟩,
   ⟨mg, 5, ({ up with fbx := { up.fbx with kres := 1 } }).dropHeld mg, { up with fbx := { up.fbx with kres := 1 } }, by decide +kernel⟩,
   ⟨mg, 0, (up).dropHeld mg, up, by decide +kernel⟩,
   ⟨mg, 0, (up).dropHeld mg, up, by decide +kernel⟩,
   ⟨mg, 0x200, (up).dropHeld mg, up, by decide +kernel⟩,
   ⟨mg, 0x200, (up).dropHeld mg, up, by decide +kernel⟩,
   ⟨mg, 5, (({ up with fbx := { up.fbx with plainKidMax := 8 } } : State).setKid 5 { state := .active }).dropHeld mg, ({ up with fbx := { up.fbx with plainKidMax := 8 } } : State).setKid 5 { state := .active }, by decide +kernel⟩,
   ⟨mg, 5, ({ up with fbx := { up.fbx with plainKidMax := 8, trngFailed := true } }).dropHeld mg, { up with fbx := { up.fbx with plainKidMax := 8, trngFailed := true } }, by decide +kernel⟩⟩

theorem test_meets_FireboxRegisters_2 :
    (∃ (r : Req) (kid : Kid) (t : State) (s : State), s.served r 0x20028 = true ∧ s.dropHeld r = t ∧ t.fbx.kres ≠ 1 ∧ kid.toNat ≠ 0 ∧ t.kidPlain kid.toNat = true ∧ (t.kid kid.toNat).state = .free ∧ t.fbx.trngFailed = false) ∧
    (∃ (r : Req) (kid : Kid) (t : State) (s : State), s.served r 0x20028 = true ∧ s.dropHeld r = t ∧ t.fbx.kres ≠ 1 ∧ kid.toNat ≠ 0 ∧ t.kidPlain kid.toNat = true ∧ (t.kid kid.toNat).state ≠ .active) ∧
    (∃ (r : Req) (kid : Kid) (t : State) (s : State), s.served r 0x20028 = true ∧ s.dropHeld r = t ∧ t.fbx.kres ≠ 1 ∧ kid.toNat ≠ 0 ∧ t.kidPlain kid.toNat = true ∧ (t.kid kid.toNat).state = .active) ∧
    (∃ (r : Req) (v : BitVec 32) (t : State) (s : State), s.served r 0x20008 = true ∧ s.dropHeld r = t ∧ t.fbx.lock = true) ∧
    (∃ (r : Req) (v : BitVec 32) (t : State) (s : State), s.served r 0x20008 = true ∧ s.dropHeld r = t ∧ t.fbx.lock = false) ∧
    (∃ (kid : Kid) (s : State), s.stokerRuns = true ∧ (s.kid kid.toNat).state = .retiring ∧ s.kidInUse kid.toNat = false ∧ s.kidKeyed kid.toNat = true) ∧
    (∃ (kid : Kid) (s : State), s.stokerRuns = true ∧ (s.kid kid.toNat).state = .retiring ∧ s.kidInUse kid.toNat = false ∧ s.kidKeyed kid.toNat = false) ∧
    (∃ (kid : Kid) (s : State), (s.kid kid.toNat).state ≠ .retiring) :=
  ⟨⟨mg, 5, ({ up with fbx := { up.fbx with plainKidMax := 8 } }).dropHeld mg, { up with fbx := { up.fbx with plainKidMax := 8 } }, by decide +kernel⟩,
   ⟨mg, 5, ({ up with fbx := { up.fbx with plainKidMax := 8 } }).dropHeld mg, { up with fbx := { up.fbx with plainKidMax := 8 } }, by decide +kernel⟩,
   ⟨mg, 5, (({ up with fbx := { up.fbx with plainKidMax := 8 } } : State).setKid 5 { state := .active }).dropHeld mg, ({ up with fbx := { up.fbx with plainKidMax := 8 } } : State).setKid 5 { state := .active }, by decide +kernel⟩,
   ⟨mg, 5, ({ up with fbx := { up.fbx with lock := true } }).dropHeld mg, { up with fbx := { up.fbx with lock := true } }, by decide +kernel⟩,
   ⟨mg, 5, (up).dropHeld mg, up, by decide +kernel⟩,
   ⟨9, ({ up with fbx := { up.fbx with kids := up.fbx.kids.set {} 9 { state := .retiring }, cells := [{ id := .kid 9, s0 := 0, s1 := 0 }] } } : State), by decide +kernel⟩,
   ⟨5, up.setKid 5 { state := .retiring }, by decide +kernel⟩,
   ⟨5, up, by decide +kernel⟩⟩

theorem test_meets_FireboxRegisters_3 :
    (∃ (kid : Kid) (s : State), s.kidInUse kid.toNat = true) ∧
    (∃ (kid : Kid) (s : State), s.stokerRuns = false) :=
  ⟨⟨5, { up with hth := { up.hth with pending := [{ tag := BitVec.ofNat 48 (5 * 2 ^ 22), addr := 0, write := false }] } }, by decide +kernel⟩,
   ⟨5, State.reset, by decide +kernel⟩⟩

theorem test_meets_EpochAndFireboxEvents_1 :
    (∃ (m : Mgmt) (slot : Nat) (epoch : BitVec 16) (s : State), s.leads m = true ∧ s.slotFree slot = true ∧ ((s.slot slot).state = .live ∨ (s.slot slot).state = .quarantined) ∧ (¬ ((s.slot slot).phase = .steady ∧ (s.slot slot).epoch = 0xFFFF)) ∧ epochFits (s.slot slot) 0 epoch = true) ∧
    (∃ (m : Mgmt) (slot : Nat) (epoch : BitVec 16) (s : State), s.leads m = true ∧ s.slotFree slot = true ∧ ((s.slot slot).state = .live ∨ (s.slot slot).state = .quarantined) ∧ (¬ ((s.slot slot).phase = .steady ∧ (s.slot slot).epoch = 0xFFFF)) ∧ epochFits (s.slot slot) 0 epoch = false) ∧
    (∃ (m : Mgmt) (slot : Nat) (epoch : BitVec 16) (s : State), s.leads m = true ∧ s.slotFree slot = true ∧ ((s.slot slot).state = .live ∨ (s.slot slot).state = .quarantined) ∧ (s.slot slot).phase = .steady ∧ (s.slot slot).epoch = 0xFFFF) ∧
    (∃ (m : Mgmt) (slot : Nat) (epoch : BitVec 16) (s : State), s.leads m = true ∧ s.slotFree slot = true ∧ (s.slot slot).state ≠ .live ∧ (s.slot slot).state ≠ .quarantined) ∧
    (∃ (m : Mgmt) (slot : Nat) (epoch : BitVec 16) (s : State), s.leads m = true ∧ s.slotFree slot = true ∧ ((s.slot slot).state = .live ∨ (s.slot slot).state = .quarantined) ∧ epochFits (s.slot slot) 1 epoch = true) ∧
    (∃ (m : Mgmt) (slot : Nat) (epoch : BitVec 16) (s : State), s.leads m = true ∧ s.slotFree slot = true ∧ ((s.slot slot).state = .live ∨ (s.slot slot).state = .quarantined) ∧ epochFits (s.slot slot) 1 epoch = false) ∧
    (∃ (m : Mgmt) (slot : Nat) (epoch : BitVec 16) (s : State), s.leads m = true ∧ s.slotFree slot = true ∧ (s.slot slot).state ≠ .live ∧ (s.slot slot).state ≠ .quarantined) ∧
    (∃ (m : Mgmt) (slot : Nat) (epoch : BitVec 16) (s : State), s.leads m = true ∧ s.slotFree slot = true ∧ ((s.slot slot).state = .live ∨ (s.slot slot).state = .quarantined) ∧ epochFits (s.slot slot) 2 epoch = true) :=
  ⟨⟨oper, 3, 2, { up with dom := { up.dom with slots := up.dom.slots.set {} 3 { state := .live, epoch := 1 } } }, by decide +kernel⟩,
   ⟨oper, 3, 9, { up with dom := { up.dom with slots := up.dom.slots.set {} 3 { state := .live, epoch := 1 } } }, by decide +kernel⟩,
   ⟨oper, 3, 0, { up with dom := { up.dom with slots := up.dom.slots.set {} 3 { state := .live, epoch := 0xFFFF } } }, by decide +kernel⟩,
   ⟨oper, 3, 1, up, by decide +kernel⟩,
   ⟨oper, 3, 2, { up with dom := { up.dom with slots := up.dom.slots.set {} 3 { state := .live, epoch := 1, phase := .prepared } } }, by decide +kernel⟩,
   ⟨oper, 3, 9, { up with dom := { up.dom with slots := up.dom.slots.set {} 3 { state := .live, epoch := 1 } } }, by decide +kernel⟩,
   ⟨oper, 3, 1, up, by decide +kernel⟩,
   ⟨oper, 3, 1, { up with dom := { up.dom with slots := up.dom.slots.set {} 3 { state := .live, epoch := 1, phase := .switched } } }, by decide +kernel⟩⟩

theorem test_meets_EpochAndFireboxEvents_2 :
    (∃ (m : Mgmt) (slot : Nat) (epoch : BitVec 16) (s : State), s.leads m = true ∧ s.slotFree slot = true ∧ ((s.slot slot).state = .live ∨ (s.slot slot).state = .quarantined) ∧ epochFits (s.slot slot) 2 epoch = false) ∧
    (∃ (m : Mgmt) (slot : Nat) (epoch : BitVec 16) (s : State), s.leads m = true ∧ s.slotFree slot = true ∧ (s.slot slot).state ≠ .live ∧ (s.slot slot).state ≠ .quarantined) ∧
    (∃ (bad : List Nat) (s : State), (s.rst.step < 2 ∨ s.sys.now < s.fbx.remaskAt + 2 ^ s.fbx.remaskLog2.toNat * 1000)) ∧
    (∃ (bad : List Nat) (s : State), 2 ≤ s.rst.step ∧ s.fbx.remaskAt + 2 ^ s.fbx.remaskLog2.toNat * 1000 ≤ s.sys.now) ∧
    (∃ (bad : List Nat) (s : State), 2 ≤ s.rst.step ∧ s.fbx.remaskAt + 2 ^ s.fbx.remaskLog2.toNat * 1000 ≤ s.sys.now ∧ s.fbx.cells = []) ∧
    (∃ (bad : List Nat) (e : Cell) (s : State), 2 ≤ s.rst.step ∧ s.fbx.remaskAt + 2 ^ s.fbx.remaskLog2.toNat * 1000 ≤ s.sys.now ∧ s.fbx.cells = [e] ∧ e.checkOk = true ∧ 0 ∉ bad) ∧
    (∃ (bad : List Nat) (e : Cell) (s : State), 2 ≤ s.rst.step ∧ s.fbx.remaskAt + 2 ^ s.fbx.remaskLog2.toNat * 1000 ≤ s.sys.now ∧ s.fbx.cells = [e] ∧ (e.checkOk = false ∨ 0 ∈ bad)) ∧
    (∃ (ok : Bool) (s : State), s.fbx.deriving_ = []) :=
  ⟨⟨oper, 3, 9, { up with dom := { up.dom with slots := up.dom.slots.set {} 3 { state := .live, epoch := 1 } } }, by decide +kernel⟩,
   ⟨oper, 3, 1, up, by decide +kernel⟩,
   ⟨[], up, by decide +kernel⟩,
   ⟨[], { up with sys := { up.sys with now := 10 ^ 9 }, fbx := { up.fbx with cells := [] } }, by decide +kernel⟩,
   ⟨[], { up with sys := { up.sys with now := 10 ^ 9 }, fbx := { up.fbx with cells := [] } }, by decide +kernel⟩,
   ⟨[], { id := .bootRoot, s0 := 0, s1 := 0 }, { up with sys := { up.sys with now := 10 ^ 9 }, fbx := { up.fbx with cells := [{ id := .bootRoot, s0 := 0, s1 := 0 }] } }, by decide +kernel⟩,
   ⟨[0], { id := .bootRoot, s0 := 0, s1 := 0 }, { up with sys := { up.sys with now := 10 ^ 9 }, fbx := { up.fbx with cells := [{ id := .bootRoot, s0 := 0, s1 := 0 }] } }, by decide +kernel⟩,
   ⟨true, up, by decide +kernel⟩⟩

theorem test_meets_EpochAndFireboxEvents_3 :
    (∃ (slot src dst : Nat) (e : BitVec 16) (rest : List (Nat × BitVec 16 × Nat × Nat)) (key : BitVec 288) (t u : State) (s : State), s.fbx.deriving_ = (slot, e, src, dst) :: rest ∧ { s with fbx := { s.fbx with deriving_ := rest } } = t ∧ t.useCell (.epochKey slot e.toNat) = u ∧ u.pairKey slot e.toNat src dst = some key) ∧
    (∃ (slot src dst : Nat) (e : BitVec 16) (rest : List (Nat × BitVec 16 × Nat × Nat)) (t u : State) (s : State), s.fbx.deriving_ = (slot, e, src, dst) :: rest ∧ { s with fbx := { s.fbx with deriving_ := rest } } = t ∧ t.useCell (.epochKey slot e.toNat) = u ∧ u.pairKey slot e.toNat src dst = none) ∧
    (∃ (x : Nat × BitVec 16 × Nat × Nat) (rest : List (Nat × BitVec 16 × Nat × Nat)) (u : State) (s : State), s.fbx.deriving_ = x :: rest ∧ (({ s with fbx := { s.fbx with deriving_ := rest, alarm := s.fbx.alarm ||| 4 } } : State).record 0x60 srcFirebox [(1, 4), (1, 0)]).resumeLinks none = u) :=
  ⟨⟨0, 1, 2, 1, [], (State.pairKey ({ up with fbx := { up.fbx with deriving_ := [], cells := [{ id := .epochKey 0 1, s0 := 0, s1 := 0 }] } }) 0 1 1 2).get (by rfl), { up with fbx := { up.fbx with deriving_ := [], cells := [{ id := .epochKey 0 1, s0 := 0, s1 := 0 }] } }, { up with fbx := { up.fbx with deriving_ := [], cells := [{ id := .epochKey 0 1, s0 := 0, s1 := 0 }] } }, { up with fbx := { up.fbx with deriving_ := [(0, 1, 1, 2)], cells := [{ id := .epochKey 0 1, s0 := 0, s1 := 0 }] } }, by rfl, by rfl, by rfl, by exact (Option.some_get _).symm⟩,
   ⟨0, 1, 2, 1, [], up, up.useCell (.epochKey 0 1), { up with fbx := { up.fbx with deriving_ := [(0, 1, 1, 2)] } }, by decide +kernel, by decide +kernel, by decide +kernel, by rfl⟩,
   ⟨(0, 1, 1, 2), [], (({ ({ up with fbx := { up.fbx with deriving_ := [(0, 1, 1, 2)] } } : State) with fbx := { ({ up with fbx := { up.fbx with deriving_ := [(0, 1, 1, 2)] } } : State).fbx with deriving_ := [], alarm := ({ up with fbx := { up.fbx with deriving_ := [(0, 1, 1, 2)] } } : State).fbx.alarm ||| 4 } } : State).record 0x60 srcFirebox [(1, 4), (1, 0)]).resumeLinks none, ({ up with fbx := { up.fbx with deriving_ := [(0, 1, 1, 2)] } } : State), by decide +kernel, by rfl⟩⟩

theorem test_meets_RegionsAndScrubbing_1 :
    (∃ (r : Req) (t : State) (s : State), s.served r 0x40028 = true ∧ s.dropHeld r = t ∧ t.msl.rres = 1) ∧
    (∃ (r : Req) (t : State) (s : State), s.served r 0x40028 = true ∧ s.dropHeld r = t ∧ t.msl.rres ≠ 1 ∧ (t.rgn t.msl.rsel).state ≠ .unassigned) ∧
    (∃ (r : Req) (t : State) (s : State), s.served r 0x40028 = true ∧ s.dropHeld r = t ∧ t.msl.rres ≠ 1 ∧ (t.rgn t.msl.rsel).state = .unassigned ∧ t.asgRgn (rgnOf t.msl.rcfg) none = 0) ∧
    (∃ (r : Req) (m : Nat) (t : State) (s : State), s.served r 0x40028 = true ∧ s.dropHeld r = t ∧ t.msl.rres ≠ 1 ∧ (t.rgn t.msl.rsel).state = .unassigned ∧ t.asgRgn (rgnOf t.msl.rcfg) none = m ∧ m ≠ 0) ∧
    (∃ (r : Req) (t : State) (s : State), s.served r 0x40028 = true ∧ s.dropHeld r = t ∧ t.msl.rres = 1) ∧
    (∃ (r : Req) (t : State) (s : State), s.served r 0x40028 = true ∧ s.dropHeld r = t ∧ t.msl.rres ≠ 1 ∧ t.relRgn t.msl.rsel none = 0) ∧
    (∃ (r : Req) (m : Nat) (t : State) (s : State), s.served r 0x40028 = true ∧ s.dropHeld r = t ∧ t.msl.rres ≠ 1 ∧ t.relRgn t.msl.rsel none = m ∧ m ≠ 0) ∧
    (∃ (r : Req) (t : State) (s : State), s.served r 0x80020 = true ∧ s.dropHeld r = t ∧ t.hth.rres = 1) :=
  ⟨⟨mg, ({ up with msl := { up.msl with rres := 1 } }).dropHeld mg, { up with msl := { up.msl with rres := 1 } }, by decide +kernel⟩,
   ⟨mg, ({ up with msl := { up.msl with rgns := up.msl.rgns.set {} 0 { state := .active } } }).dropHeld mg, { up with msl := { up.msl with rgns := up.msl.rgns.set {} 0 { state := .active } } }, by decide +kernel⟩,
   ⟨mg, ({ up with msl := { up.msl with rcfg := 2 ^ 19 } }).dropHeld mg, { up with msl := { up.msl with rcfg := 2 ^ 19 } }, by decide +kernel⟩,
   ⟨mg, 2, (up).dropHeld mg, up, by decide +kernel⟩,
   ⟨mg, ({ up with msl := { up.msl with rres := 1 } }).dropHeld mg, { up with msl := { up.msl with rres := 1 } }, by decide +kernel⟩,
   ⟨mg, (up.setRgn 0 { state := .active, size := 1 }).dropHeld mg, up.setRgn 0 { state := .active, size := 1 }, by decide +kernel⟩,
   ⟨mg, 1, (up).dropHeld mg, up, by decide +kernel⟩,
   ⟨mg, ({ up with hth := { up.hth with rres := 1 } }).dropHeld mg, { up with hth := { up.hth with rres := 1 } }, by decide +kernel⟩⟩

theorem test_meets_RegionsAndScrubbing_2 :
    (∃ (r : Req) (t : State) (s : State), s.served r 0x80020 = true ∧ s.dropHeld r = t ∧ t.hth.rres ≠ 1 ∧ (t.hrg t.hth.rsel).state ≠ .unassigned) ∧
    (∃ (r : Req) (t : State) (s : State), s.served r 0x80020 = true ∧ s.dropHeld r = t ∧ t.hth.rres ≠ 1 ∧ (t.hrg t.hth.rsel).state = .unassigned ∧ t.asgHrg (hrgOf t.hth.rcfg) none = 0) ∧
    (∃ (r : Req) (m : Nat) (t : State) (s : State), s.served r 0x80020 = true ∧ s.dropHeld r = t ∧ t.hth.rres ≠ 1 ∧ (t.hrg t.hth.rsel).state = .unassigned ∧ t.asgHrg (hrgOf t.hth.rcfg) none = m ∧ m ≠ 0) ∧
    (∃ (r : Req) (t : State) (s : State), s.served r 0x80020 = true ∧ s.dropHeld r = t ∧ t.hth.rres = 1) ∧
    (∃ (r : Req) (t : State) (s : State), s.served r 0x80020 = true ∧ s.dropHeld r = t ∧ t.hth.rres ≠ 1 ∧ t.relHrg t.hth.rsel none = 0) ∧
    (∃ (r : Req) (m : Nat) (t : State) (s : State), s.served r 0x80020 = true ∧ s.dropHeld r = t ∧ t.hth.rres ≠ 1 ∧ t.relHrg t.hth.rsel none = m ∧ m ≠ 0) ∧
    (∃ (r : Req) (v : BitVec 32) (t : State) (s : State), s.served r 0x40008 = true ∧ s.dropHeld r = t) ∧
    (∃ (r : Req) (v : BitVec 32) (t : State) (s : State), s.served r 0x80008 = true ∧ s.dropHeld r = t) :=
  ⟨⟨mg, ({ up with hth := { up.hth with rngs := up.hth.rngs.set {} 0 { state := .active } } }).dropHeld mg, { up with hth := { up.hth with rngs := up.hth.rngs.set {} 0 { state := .active } } }, by decide +kernel⟩,
   ⟨mg, ({ up with hth := { up.hth with rcfg := 2 ^ 15 } }).dropHeld mg, { up with hth := { up.hth with rcfg := 2 ^ 15 } }, by decide +kernel⟩,
   ⟨mg, 2, (up).dropHeld mg, up, by decide +kernel⟩,
   ⟨mg, ({ up with hth := { up.hth with rres := 1 } }).dropHeld mg, { up with hth := { up.hth with rres := 1 } }, by decide +kernel⟩,
   ⟨mg, (up.setHrg 0 { state := .active, size := 1 }).dropHeld mg, up.setHrg 0 { state := .active, size := 1 }, by decide +kernel⟩,
   ⟨mg, 1, (up).dropHeld mg, up, by decide +kernel⟩,
   ⟨mg, 3, (up).dropHeld mg, up, by decide +kernel⟩,
   ⟨mg, 3, (up).dropHeld mg, up, by decide +kernel⟩⟩

theorem test_meets_RegionsAndScrubbing_3 :
    (∃ (r : Req) (v : BitVec 32) (t : State) (s : State), s.served r 0x80200 = true ∧ r.mgmt = true ∧ s.dropHeld r = t ∧ bits v.toNat 7 0 ≤ 168) ∧
    (∃ (r : Req) (v : BitVec 32) (t : State) (s : State), s.served r 0x80200 = true ∧ r.mgmt = true ∧ s.dropHeld r = t ∧ 168 < bits v.toNat 7 0) ∧
    (∃ (u : Nat) (corrected poison : Bool) (w : State) (s : State), u < 12 ∧ s.hth.period ≠ 0 ∧ 3 ≤ s.rst.step ∧ ((s.scrub u).behind = true ∨ (s.scrub u).startAt + s.scrubPeriod - (s.scrub u).lineAt ≤ (s.sys.now - (s.scrub u).lineAt) * (scrubLines u - (s.scrub u).progress)) ∧ s.bgTurn (s.scrubClass u) u = true ∧ (if u < 4 then (s.bgTaken (s.scrubClass u) u).scrubStack u (s.scrub u).progress corrected poison else (s.bgTaken (s.scrubClass u) u).scrubTier (u - 4) (s.scrub u).progress corrected poison) = w ∧ (w.scrub u).progress + 1 < scrubLines u) ∧
    (∃ (u : Nat) (corrected poison : Bool) (w : State) (s : State), u < 12 ∧ s.hth.period ≠ 0 ∧ 3 ≤ s.rst.step ∧ ((s.scrub u).behind = true ∨ (s.scrub u).startAt + s.scrubPeriod - (s.scrub u).lineAt ≤ (s.sys.now - (s.scrub u).lineAt) * (scrubLines u - (s.scrub u).progress)) ∧ s.bgTurn (s.scrubClass u) u = true ∧ (if u < 4 then (s.bgTaken (s.scrubClass u) u).scrubStack u (s.scrub u).progress corrected poison else (s.bgTaken (s.scrubClass u) u).scrubTier (u - 4) (s.scrub u).progress corrected poison) = w ∧ scrubLines u ≤ (w.scrub u).progress + 1) ∧
    (∃ (u : Nat) (corrected poison : Bool) (s : State), s.bgTurn (s.scrubClass u) u = false) ∧
    (∃ (u : Nat) (corrected poison : Bool) (s : State), (s.scrub u).behind = false ∧ (s.sys.now - (s.scrub u).lineAt) * (scrubLines u - (s.scrub u).progress) < (s.scrub u).startAt + s.scrubPeriod - (s.scrub u).lineAt) ∧
    (∃ (u : Nat) (corrected poison : Bool) (s : State), (12 ≤ u ∨ s.hth.period = 0 ∨ s.rst.step < 3)) ∧
    (∃ (u : Nat) (s : State), u < 12 ∧ s.hth.period ≠ 0 ∧ (s.scrub u).startAt + s.scrubPeriod < s.sys.now) :=
  ⟨⟨mg, 168, (up).dropHeld mg, up, by decide +kernel⟩,
   ⟨mg, 169, (up).dropHeld mg, up, by decide +kernel⟩,
   ⟨1, false, false, ((up.setScrub 1 { behind := true }).bgTaken (State.scrubClass (up.setScrub 1 { behind := true }) 1) 1).scrubStack 1 (State.scrub (up.setScrub 1 { behind := true }) 1).progress false false, (up.setScrub 1 { behind := true }), by decide +kernel, by decide +kernel, by decide +kernel, by decide +kernel, by exact bgTurn_only (a := (up.setScrub 1 { behind := true }).arbiter 1 ((State.scrub (up.setScrub 1 { behind := true }) 1).progress / 64)) rfl, by rfl, by decide +kernel⟩,
   ⟨1, false, false, ((up.setScrub 1 { progress := 2 ^ 30 - 1, behind := true }).bgTaken (State.scrubClass (up.setScrub 1 { progress := 2 ^ 30 - 1, behind := true }) 1) 1).scrubStack 1 (State.scrub (up.setScrub 1 { progress := 2 ^ 30 - 1, behind := true }) 1).progress false false, (up.setScrub 1 { progress := 2 ^ 30 - 1, behind := true }), by decide +kernel, by decide +kernel, by decide +kernel, by decide +kernel, by exact bgTurn_only (a := (up.setScrub 1 { progress := 2 ^ 30 - 1, behind := true }).arbiter 1 ((State.scrub (up.setScrub 1 { progress := 2 ^ 30 - 1, behind := true }) 1).progress / 64)) rfl, by rfl, by decide +kernel⟩,
   ⟨1, false, false, up, by decide +kernel⟩,
   ⟨1, false, false, up, by decide +kernel⟩,
   ⟨12, false, false, up, by decide +kernel⟩,
   ⟨1, { up with sys := { up.sys with now := 10 ^ 18 } }, by decide +kernel⟩⟩

theorem test_meets_RegionsAndScrubbing_4 :
    ∃ (u : Nat) (s : State), (12 ≤ u ∨ s.hth.period = 0 ∨ s.sys.now ≤ (s.scrub u).startAt + s.scrubPeriod) :=
  ⟨12, up, by decide +kernel⟩

theorem test_meets_LinkControlAndTraining_1 :
    (∃ (r : Req) (link : Nat) (w t : State) (s : State), r.mgmt = true ∧ 4 ≤ s.rst.step ∧ s.linkInMode link = true ∧ s.sys.pdFused.getLsbD (6 + portOf link) = false ∧ { s with sys := { s.sys with pd := s.sys.pd.set .on (6 + portOf link) .on } } = w ∧ w.served r (lnkCtl (portOf link)) = true ∧ w.dropHeld r = t ∧ t.linkPresent link = true ∧ ((t.modLink link fun x => { x with enable := true }).link link).state = .disabled) ∧
    (∃ (r : Req) (link : Nat) (w t : State) (s : State), r.mgmt = true ∧ 4 ≤ s.rst.step ∧ s.linkInMode link = true ∧ s.sys.pdFused.getLsbD (6 + portOf link) = false ∧ { s with sys := { s.sys with pd := s.sys.pd.set .on (6 + portOf link) .on } } = w ∧ w.served r (lnkCtl (portOf link)) = true ∧ w.dropHeld r = t ∧ t.linkPresent link = true ∧ ((t.modLink link fun x => { x with enable := true }).link link).state ≠ .disabled) ∧
    (∃ (r : Req) (link : Nat) (on : Bool) (t : State) (s : State), s.served r (lnkCtl (portOf link)) = true ∧ r.mgmt = true ∧ s.dropHeld r = t ∧ s.linkInMode link = false ∧ t.linkPresent link = false) ∧
    (∃ (r : Req) (link : Nat) (t : State) (s : State), s.served r (lnkCtl (portOf link)) = true ∧ r.mgmt = true ∧ s.dropHeld r = t ∧ t.linkPresent link = true ∧ ((t.modLink link fun x => { x with enable := false }).link link).state ≠ .disabled) ∧
    (∃ (r : Req) (link : Nat) (t : State) (s : State), s.served r (lnkCtl (portOf link)) = true ∧ r.mgmt = true ∧ s.dropHeld r = t ∧ t.linkPresent link = true ∧ ((t.modLink link fun x => { x with enable := false }).link link).state = .disabled) ∧
    (∃ (r : Req) (link : Nat) (t : State) (s : State), s.served r (lnkCtl (portOf link)) = true ∧ r.mgmt = true ∧ s.dropHeld r = t ∧ t.linkPresent link = true ∧ (t.link link).state = .up) ∧
    (∃ (r : Req) (link : Nat) (t : State) (s : State), s.served r (lnkCtl (portOf link)) = true ∧ r.mgmt = true ∧ s.dropHeld r = t ∧ t.linkPresent link = true ∧ (t.link link).state = .downFailed) ∧
    (∃ (r : Req) (link : Nat) (t : State) (s : State), s.served r (lnkCtl (portOf link)) = true ∧ r.mgmt = true ∧ s.dropHeld r = t ∧ (t.link link).state ≠ .up ∧ (t.link link).state ≠ .downFailed) :=
  ⟨⟨mg, 0, { linked { state := .disabled } with sys := { (linked { state := .disabled }).sys with pd := (linked { state := .disabled }).sys.pd.set .on 6 .on } }, ({ linked { state := .disabled } with sys := { (linked { state := .disabled }).sys with pd := (linked { state := .disabled }).sys.pd.set .on 6 .on } } : State).dropHeld mg, linked { state := .disabled }, by decide +kernel⟩,
   ⟨mg, 0, { linked { state := .up } with sys := { (linked { state := .up }).sys with pd := (linked { state := .up }).sys.pd.set .on 6 .on } }, ({ linked { state := .up } with sys := { (linked { state := .up }).sys with pd := (linked { state := .up }).sys.pd.set .on 6 .on } } : State).dropHeld mg, linked { state := .up }, by decide +kernel⟩,
   ⟨mg, 0, true, ({ linked { state := .up } with boot := { up.boot with variant := 0 } }).dropHeld mg, { linked { state := .up } with boot := { up.boot with variant := 0 } }, by decide +kernel⟩,
   ⟨mg, 0, (linked { state := .up }).dropHeld mg, linked { state := .up }, by decide +kernel⟩,
   ⟨mg, 0, (linked { state := .disabled }).dropHeld mg, linked { state := .disabled }, by decide +kernel⟩,
   ⟨mg, 0, (linked { state := .up }).dropHeld mg, linked { state := .up }, by decide +kernel⟩,
   ⟨mg, 0, (linked { state := .downFailed }).dropHeld mg, linked { state := .downFailed }, by decide +kernel⟩,
   ⟨mg, 0, (linked { state := .locking }).dropHeld mg, linked { state := .locking }, by decide +kernel⟩⟩

theorem test_meets_LinkControlAndTraining_2 :
    (∃ (r : Req) (link : Nat) (t : State) (s : State), s.served r (lnkCtl (portOf link)) = true ∧ r.mgmt = true ∧ s.dropHeld r = t ∧ t.linkPresent link = true ∧ (t.link link).state = .up) ∧
    (∃ (r : Req) (link : Nat) (t : State) (s : State), s.served r (lnkCtl (portOf link)) = true ∧ r.mgmt = true ∧ s.dropHeld r = t ∧ (t.link link).state ≠ .up) ∧
    (∃ (r : Req) (link : Nat) (x : List (BitVec 512)) (t : State) (s : State), s.served r (lnkCtl (portOf link)) = true ∧ r.mgmt = true ∧ s.dropHeld r = t ∧ t.linkPresent link = true ∧ (t.link link).state = .up) ∧
    (∃ (r : Req) (link : Nat) (x : List (BitVec 512)) (t : State) (s : State), s.served r (lnkCtl (portOf link)) = true ∧ r.mgmt = true ∧ s.dropHeld r = t ∧ (t.link link).state ≠ .up) ∧
    (∃ (r : Req) (port : Nat) (v : BitVec 2) (t : State) (s : State), s.served r (lnkCtl port) = true ∧ r.mgmt = true ∧ s.dropHeld r = t ∧ v ≠ 3 ∧ ((List.range 4).any fun k => (t.link (4 * port + k)).state ≠ .disabled) = false) ∧
    (∃ (r : Req) (port : Nat) (v : BitVec 2) (t : State) (s : State), s.served r (lnkCtl port) = true ∧ r.mgmt = true ∧ s.dropHeld r = t ∧ (v = 3 ∨ ((List.range 4).any fun k => (t.link (4 * port + k)).state ≠ .disabled) = true)) ∧
    (∃ (r : Req) (port : Nat) (v : BitVec 32) (t : State) (s : State), s.served r (0xA0000 + 0x8000 * port + 0x10) = true ∧ r.mgmt = true ∧ s.dropHeld r = t ∧ 32 ≤ bits v.toNat 5 0 ∧ bits v.toNat 5 0 ≤ 47) ∧
    (∃ (r : Req) (port : Nat) (v : BitVec 32) (t : State) (s : State), s.served r (0xA0000 + 0x8000 * port + 0x10) = true ∧ r.mgmt = true ∧ s.dropHeld r = t ∧ (bits v.toNat 5 0 < 32 ∨ 47 < bits v.toNat 5 0)) :=
  ⟨⟨mg, 0, (linked { state := .up }).dropHeld mg, linked { state := .up }, by decide +kernel⟩,
   ⟨mg, 0, (linked { state := .locking }).dropHeld mg, linked { state := .locking }, by decide +kernel⟩,
   ⟨mg, 0, [3], (linked { state := .up }).dropHeld mg, linked { state := .up }, by decide +kernel⟩,
   ⟨mg, 0, [3], (linked { state := .locking }).dropHeld mg, linked { state := .locking }, by decide +kernel⟩,
   ⟨mg, 0, 1, (linked { state := .disabled }).dropHeld mg, linked { state := .disabled }, by decide +kernel⟩,
   ⟨mg, 0, 3, (linked { state := .disabled }).dropHeld mg, linked { state := .disabled }, by decide +kernel⟩,
   ⟨mg, 0, 40, (linked { state := .up }).dropHeld mg, linked { state := .up }, by decide +kernel⟩,
   ⟨mg, 0, 48, (linked { state := .up }).dropHeld mg, linked { state := .up }, by decide +kernel⟩⟩

theorem test_meets_LinkControlAndTraining_3 :
    (∃ (link lockNs : Nat) (x : List (BitVec 512)) (lanes : List LaneTrain) (t : State) (s : State), s.linkOn link = true ∧ (s.link link).state = .training ∧ s.laneReads link lanes = t ∧ (t.link link).savedUsed = true ∧ lockNs ≤ 50000000 ∧ (lanes.all fun y => decide (y.corrected * 10000 ≤ y.symbols)) = true) ∧
    (∃ (link lockNs : Nat) (x : List (BitVec 512)) (lanes : List LaneTrain) (t : State) (s : State), s.linkOn link = true ∧ (s.link link).state = .training ∧ s.laneReads link lanes = t ∧ (t.link link).savedUsed = false) ∧
    (∃ (ok : Bool) (link lockNs : Nat) (x : List (BitVec 512)) (lanes : List LaneTrain) (t : State) (s : State), s.linkOn link = true ∧ (s.link link).state = .training ∧ s.laneReads link lanes = t ∧ (t.link link).savedUsed = true ∧ (ok = false ∨ 50000000 < lockNs ∨ (lanes.all fun y => decide (y.corrected * 10000 ≤ y.symbols)) = false)) ∧
    (∃ (link lockNs : Nat) (x : List (BitVec 512)) (lanes : List LaneTrain) (t : State) (s : State), s.linkOn link = true ∧ (s.link link).state = .training ∧ s.laneReads link lanes = t ∧ (t.link link).savedUsed = false) ∧
    (∃ (ok : Bool) (link lockNs : Nat) (x : List (BitVec 512)) (lanes : List LaneTrain) (s : State), (s.link link).state ≠ .training) ∧
    (∃ (link : Nat) (lanes : List LaneAlign) (ls : List (Nat × Bool)) (s : State), s.linkOn link = true ∧ (s.link link).state = .locking ∧ lockLanes (s.linkMode link) (modeLanes (s.linkMode link)) lanes = some ls) ∧
    (∃ (link : Nat) (lanes : List LaneAlign) (s : State), s.linkOn link = true ∧ (s.link link).state = .locking ∧ lockLanes (s.linkMode link) (modeLanes (s.linkMode link)) lanes = none) ∧
    (∃ (link : Nat) (lanes : List LaneAlign) (s : State), (s.link link).state ≠ .locking) :=
  ⟨⟨0, 0, [], [], linked { state := .training, savedUsed := true }, linked { state := .training, savedUsed := true }, by decide +kernel⟩,
   ⟨0, 0, [], [], linked { state := .training }, linked { state := .training }, by decide +kernel⟩,
   ⟨true, 0, 50000001, [], [], linked { state := .training, savedUsed := true }, linked { state := .training, savedUsed := true }, by decide +kernel⟩,
   ⟨0, 0, [], [], linked { state := .training }, linked { state := .training }, by decide +kernel⟩,
   ⟨true, 0, 0, [], [], linked { state := .up }, by decide +kernel⟩,
   ⟨0, aligned (modeLanes 0), (List.range (modeLanes 0)).map (fun k => (k, false)), linked { state := .locking }, by decide +kernel⟩,
   ⟨0, [], linked { state := .locking }, by decide +kernel⟩,
   ⟨0, [], linked { state := .up }, by decide +kernel⟩⟩

theorem test_meets_LinkControlAndTraining_4 :
    (∃ (link lane : Nat) (first second third : List (BitVec 10)) (s : State), s.linkOn link = true ∧ (s.link link).state = .up ∧ lane < modeLanes (s.linkMode link) ∧ ([first, second, third].all (alignFails (s.linkMode link) (s.lnk.lanes.get {} ((s.lanesOf link).getD lane 0)))) = true) ∧
    (∃ (link lane : Nat) (first second third : List (BitVec 10)) (s : State), (([first, second, third].all (alignFails (s.linkMode link) (s.lnk.lanes.get {} ((s.lanesOf link).getD lane 0)))) = false ∨ (s.link link).state ≠ .up ∨ modeLanes (s.linkMode link) ≤ lane)) ∧
    (∃ (link : Nat) (s : State), s.linkOn link = true ∧ (s.link link).state = .locking ∧ (s.link link).since + 1000000 ≤ s.sys.now) ∧
    (∃ (link : Nat) (s : State), s.linkOn link = true ∧ (s.link link).state = .adapting) ∧
    (∃ (link lane corrected symbols snr g n : Nat) (t : State) (s : State), s.linkOn link = true ∧ lane < modeLanes (s.linkMode link) ∧ (s.lanesOf link).getD lane 0 = g ∧ (s.lnk.lanes.get {} g).window + corrected = n ∧ (s.modLane g fun y => { y with corrected := min (2 ^ 32 - 1) (y.corrected + corrected), window := 0, snr := snr % 65536 }) = t ∧ (t.link link).state = .up ∧ symbols < n * 10000) ∧
    (∃ (link lane corrected symbols snr g n : Nat) (t : State) (s : State), s.linkOn link = true ∧ lane < modeLanes (s.linkMode link) ∧ (s.lanesOf link).getD lane 0 = g ∧ (s.lnk.lanes.get {} g).window + corrected = n ∧ (s.modLane g fun y => { y with corrected := min (2 ^ 32 - 1) (y.corrected + corrected), window := 0, snr := snr % 65536 }) = t ∧ ((t.link link).state ≠ .up ∨ n * 10000 ≤ symbols)) ∧
    (∃ (link lane corrected symbols snr : Nat) (s : State), (s.linkOn link = false ∨ modeLanes (s.linkMode link) ≤ lane)) ∧
    (∃ (link : Nat) (cws : List (List (BitVec 10))) (s : State), s.linkOn link = false) :=
  ⟨⟨0, 0, [], [], [], linked { state := .up }, by decide +kernel⟩,
   ⟨0, 0, [], [], [], linked { state := .locking }, by decide +kernel⟩,
   ⟨0, { (linked { state := .locking }) with sys := { (linked {}).sys with now := 10 ^ 9 } }, by decide +kernel⟩,
   ⟨0, linked { state := .adapting }, by decide +kernel⟩,
   ⟨0, 0, 1, 9999, 3, 0, 1, ((linked { state := .up }).modLane 0 fun y => { y with corrected := min (2 ^ 32 - 1) (y.corrected + 1), window := 0, snr := 3 }), linked { state := .up }, by decide +kernel⟩,
   ⟨0, 0, 1, 10000, 3, 0, 1, ((linked { state := .up }).modLane 0 fun y => { y with corrected := min (2 ^ 32 - 1) (y.corrected + 1), window := 0, snr := 3 }), linked { state := .up }, by decide +kernel⟩,
   ⟨0, 0, 1, 1, 1, up, by decide +kernel⟩,
   ⟨0, [], up, by decide +kernel⟩⟩

theorem test_meets_LinkControlAndTraining_5 :
    (∃ (link : Nat) (cws : List (List (BitVec 10))) (s : State), s.linkOn link = true ∧ ((s.link link).state = .training ∨ (s.link link).state = .locking ∨ (s.link link).state = .adapting)) ∧
    (∃ (link : Nat) (cws : List (List (BitVec 10))) (s : State), ((s.link link).state = .disabled ∨ (s.link link).state = .downFailed)) ∧
    (∃ (link : Nat) (cws : List (List (BitVec 10))) (r : RxRead) (t : State) (s : State), s.linkOn link = true ∧ (s.link link).state = .negotiating ∧ s.rxDecode link cws = (r, t) ∧ (r.damaged = true ∨ typeAssigned (hType (fHeader (leBytes 256 r.data))) = false)) ∧
    (∃ (link : Nat) (cws : List (List (BitVec 10))) (r : RxRead) (t : State) (s : State), s.linkOn link = true ∧ (s.link link).state = .negotiating ∧ s.rxDecode link cws = (r, t) ∧ r.damaged = false ∧ hType (fHeader (leBytes 256 r.data)) ≠ 2 ∧ typeAssigned (hType (fHeader (leBytes 256 r.data))) = true) ∧
    (∃ (link : Nat) (cws : List (List (BitVec 10))) (r : RxRead) (t : State) (s : State), s.linkOn link = true ∧ (s.link link).state = .negotiating ∧ s.rxDecode link cws = (r, t) ∧ r.damaged = false ∧ hType (fHeader (leBytes 256 r.data)) = 2 ∧ fTag (leBytes 256 r.data) = crcField (fHeader (leBytes 256 r.data)) (fPayload (leBytes 256 r.data))) ∧
    (∃ (link : Nat) (cws : List (List (BitVec 10))) (r : RxRead) (t : State) (s : State), s.linkOn link = true ∧ (s.link link).state = .negotiating ∧ s.rxDecode link cws = (r, t) ∧ r.damaged = false ∧ hType (fHeader (leBytes 256 r.data)) = 2 ∧ fTag (leBytes 256 r.data) ≠ crcField (fHeader (leBytes 256 r.data)) (fPayload (leBytes 256 r.data))) ∧
    (∃ (link : Nat) (n : Neg) (s : State), (s.link link).state = .negotiating ∧ n.format = 1 ∧ min 1 n.levelMax < max 1 n.levelMin) ∧
    (∃ (link : Nat) (n : Neg) (s : State), (s.link link).state = .negotiating ∧ n.format = 1 ∧ max 1 n.levelMin ≤ min 1 n.levelMax ∧ n.width ≠ s.linkMode link) :=
  ⟨⟨0, [], linked { state := .locking }, by decide +kernel⟩,
   ⟨0, [], linked { state := .downFailed }, by decide +kernel⟩,
   ⟨0, [], (State.rxDecode (linked { state := .negotiating }) 0 []).1, (State.rxDecode (linked { state := .negotiating }) 0 []).2, linked { state := .negotiating }, by decide +kernel⟩,
   ⟨0, flitCw (plainFlit 0), hears (linked { state := .negotiating }) (plainFlit 0), heard (linked { state := .negotiating }) (plainFlit 0), linked { state := .negotiating }, by decide +kernel⟩,
   ⟨0, flitCw (plainFlit 2), hears (linked { state := .negotiating }) (plainFlit 2), heard (linked { state := .negotiating }) (plainFlit 2), linked { state := .negotiating }, by decide +kernel⟩,
   ⟨0, flitCw ((plainFlit 2).take 255 ++ [0x5A]), hears (linked { state := .negotiating }) ((plainFlit 2).take 255 ++ [0x5A]), heard (linked { state := .negotiating }) ((plainFlit 2).take 255 ++ [0x5A]), linked { state := .negotiating }, by decide +kernel⟩,
   ⟨0, { format := 1, levelMin := 2, levelMax := 2, width := 0, link := 0, port := 0, node := 3, member := 0, hub := 0, serial := 0, rxNext := 0, peerSeen := false, resumeOk := false, credits := [] }, linked { state := .negotiating }, by decide +kernel⟩,
   ⟨0, { format := 1, levelMin := 1, levelMax := 1, width := 1, link := 0, port := 0, node := 3, member := 0, hub := 0, serial := 0, rxNext := 0, peerSeen := false, resumeOk := false, credits := [] }, linked { state := .negotiating }, by decide +kernel⟩⟩

theorem test_meets_LinkControlAndTraining_6 :
    (∃ (link : Nat) (n : Neg) (s : State), (s.link link).state = .negotiating ∧ n.format = 1 ∧ max 1 n.levelMin ≤ min 1 n.levelMax ∧ n.width = s.linkMode link ∧ n.peerSeen = true) ∧
    (∃ (link : Nat) (n : Neg) (s : State), (s.link link).state = .negotiating ∧ n.format = 1 ∧ max 1 n.levelMin ≤ min 1 n.levelMax ∧ n.width = s.linkMode link ∧ n.peerSeen = false) ∧
    (∃ (link : Nat) (n : Neg) (s : State), (s.link link).state = .negotiating ∧ n.format ≠ 1) ∧
    (∃ (link : Nat) (n : Neg) (s : State), (s.link link).state = .up ∧ n.node ≠ (s.link link).peerNode) ∧
    (∃ (link : Nat) (s : State), s.linkOn link = true ∧ ((s.link link).state = .negotiating ∨ (s.link link).state = .up) ∧ ((s.link link).negSentAt = 0 ∨ (s.link link).negSentAt + 100000 ≤ s.sys.now)) ∧
    (∃ (link : Nat) (s : State), s.linkOn link = true ∧ (s.link link).state = .negotiating ∧ (s.link link).since + 100000000 ≤ s.sys.now) ∧
    (∃ (link : Nat) (s : State), (s.link link).state ≠ .locking) ∧
    (∃ (link : Nat) (s : State), (s.link link).state ≠ .adapting) :=
  ⟨⟨0, { format := 1, levelMin := 1, levelMax := 1, width := 0, link := 0, port := 0, node := 3, member := 0, hub := 0, serial := 0, rxNext := 0, peerSeen := true, resumeOk := false, credits := [] }, linked { state := .negotiating }, by decide +kernel⟩,
   ⟨0, { format := 1, levelMin := 1, levelMax := 1, width := 0, link := 0, port := 0, node := 3, member := 0, hub := 0, serial := 0, rxNext := 0, peerSeen := false, resumeOk := false, credits := [] }, linked { state := .negotiating }, by decide +kernel⟩,
   ⟨0, { format := 2, levelMin := 1, levelMax := 1, width := 0, link := 0, port := 0, node := 3, member := 0, hub := 0, serial := 0, rxNext := 0, peerSeen := false, resumeOk := false, credits := [] }, linked { state := .negotiating }, by decide +kernel⟩,
   ⟨0, { format := 1, levelMin := 1, levelMax := 1, width := 0, link := 0, port := 0, node := 9, member := 0, hub := 0, serial := 0, rxNext := 0, peerSeen := false, resumeOk := false, credits := [] }, linked { state := .up, peerNode := 3 }, by decide +kernel⟩,
   ⟨0, linked { state := .negotiating }, by decide +kernel⟩,
   ⟨0, { (linked { state := .negotiating }) with sys := { (linked {}).sys with now := 10 ^ 9 } }, by decide +kernel⟩,
   ⟨0, linked { state := .disabled }, by decide +kernel⟩,
   ⟨0, linked { state := .disabled }, by decide +kernel⟩⟩

theorem test_meets_LinkControlAndTraining_7 :
    ∃ (link : Nat) (s : State), (s.link link).state ≠ .negotiating :=
  ⟨0, linked { state := .disabled }, by decide +kernel⟩

theorem test_meets_LinkFlits_1 :
    (∃ (link : Nat) (cws : List (List (BitVec 10))) (r : RxRead) (t : State) (s : State), s.linkOn link = true ∧ (s.link link).state = .up ∧ s.rxDecode link cws = (r, t) ∧ (t.link link).rxHold = []) ∧
    (∃ (link : Nat) (cws : List (List (BitVec 10))) (r : RxRead) (t : State) (s : State), s.linkOn link = true ∧ (s.link link).state = .up ∧ s.rxDecode link cws = (r, t) ∧ (t.link link).rxHold ≠ []) ∧
    (∃ (link : Nat) (cws : List (List (BitVec 10))) (r : RxRead) (t : State) (s : State), s.linkOn link = true ∧ (s.link link).state = .up ∧ s.rxDecode link cws = (r, t) ∧ (t.link link).rxHold = []) ∧
    (∃ (link : Nat) (cws : List (List (BitVec 10))) (r : RxRead) (t : State) (s : State), s.linkOn link = true ∧ (s.link link).state = .up ∧ s.rxDecode link cws = (r, t) ∧ (t.link link).rxHold ≠ []) ∧
    (∃ (link : Nat) (cws : List (List (BitVec 10))) (r : RxRead) (t : State) (s : State), s.linkOn link = true ∧ (s.link link).state = .up ∧ s.rxDecode link cws = (r, t) ∧ (t.link link).rxHold = []) ∧
    (∃ (link : Nat) (cws : List (List (BitVec 10))) (r : RxRead) (t : State) (s : State), s.linkOn link = true ∧ (s.link link).state = .up ∧ s.rxDecode link cws = (r, t) ∧ (t.link link).rxHold ≠ []) ∧
    (∃ (link : Nat) (cws : List (List (BitVec 10))) (s : State), s.linkOn link = false) ∧
    (∃ (link : Nat) (cws : List (List (BitVec 10))) (s : State), s.linkOn link = true ∧ ((s.link link).state = .training ∨ (s.link link).state = .locking ∨ (s.link link).state = .adapting)) :=
  ⟨⟨0, [], (State.rxDecode (linked { state := .up }) 0 []).1, (State.rxDecode (linked { state := .up }) 0 []).2, linked { state := .up }, by decide +kernel⟩,
   ⟨0, [], (State.rxDecode (linked { state := .up, rxHold := [(0, false, [])] }) 0 []).1, (State.rxDecode (linked { state := .up, rxHold := [(0, false, [])] }) 0 []).2, linked { state := .up, rxHold := [(0, false, [])] }, by decide +kernel⟩,
   ⟨0, [], (State.rxDecode (linked { state := .up }) 0 []).1, (State.rxDecode (linked { state := .up }) 0 []).2, linked { state := .up }, by decide +kernel⟩,
   ⟨0, [], (State.rxDecode (linked { state := .up, rxHold := [(0, false, [])] }) 0 []).1, (State.rxDecode (linked { state := .up, rxHold := [(0, false, [])] }) 0 []).2, linked { state := .up, rxHold := [(0, false, [])] }, by decide +kernel⟩,
   ⟨0, [], (State.rxDecode (linked { state := .up }) 0 []).1, (State.rxDecode (linked { state := .up }) 0 []).2, linked { state := .up }, by decide +kernel⟩,
   ⟨0, [], (State.rxDecode (linked { state := .up, rxHold := [(0, false, [])] }) 0 []).1, (State.rxDecode (linked { state := .up, rxHold := [(0, false, [])] }) 0 []).2, linked { state := .up, rxHold := [(0, false, [])] }, by decide +kernel⟩,
   ⟨0, [], up, by decide +kernel⟩,
   ⟨0, [], linked { state := .locking }, by decide +kernel⟩⟩

theorem test_meets_LinkFlits_2 :
    (∃ (link : Nat) (cws : List (List (BitVec 10))) (s : State), ((s.link link).state = .disabled ∨ (s.link link).state = .downFailed)) ∧
    (∃ (link : Nat) (cws : List (List (BitVec 10))) (s : State), s.linkOn link = false) ∧
    (∃ (link : Nat) (cws : List (List (BitVec 10))) (s : State), s.linkOn link = true ∧ ((s.link link).state = .training ∨ (s.link link).state = .locking ∨ (s.link link).state = .adapting)) ∧
    (∃ (link : Nat) (cws : List (List (BitVec 10))) (s : State), ((s.link link).state = .disabled ∨ (s.link link).state = .downFailed)) ∧
    (∃ (l : Nat) (n : Nat) (d : Bool) (b : List Byte) (t u : State) (s : State), (s.link l).state = .up ∧ s.rxFlit l false d b = (some t, u)) ∧
    (∃ (l : Nat) (n : Nat) (d : Bool) (b : List Byte) (t : State) (s : State), (s.link l).state = .up ∧ s.rxFlit l false d b = (none, t)) ∧
    (∃ (l : Nat) (refused : Bool) (b : List Byte) (s : State), (b.length ≠ 256 ∨ typeAssigned (hType (fHeader b)) = false)) ∧
    (∃ (l : Nat) (refused : Bool) (b : List Byte) (s : State), b.length = 256 ∧ hType (fHeader b) = 0) :=
  ⟨⟨0, [], linked { state := .downFailed }, by decide +kernel⟩,
   ⟨0, [], up, by decide +kernel⟩,
   ⟨0, [], linked { state := .locking }, by decide +kernel⟩,
   ⟨0, [], linked { state := .downFailed }, by decide +kernel⟩,
   ⟨0, 0, true, [], State.rxDamaged (linked { state := .up }) 0, linked { state := .up }, linked { state := .up }, by decide +kernel⟩,
   ⟨0, 0, false, (leBytes 8 (flitHeader 8 5 1 1 3).toNat ++ List.replicate 248 0), (State.rxFlit (({ linked { state := .up, peerNode := 3 } with dom := { up.dom with slots := up.dom.slots.set {} 0 { state := .live, domainId := 5, epoch := 1 } }, fab := { up.fab with node := 1 } })) 0 false false (leBytes 8 (flitHeader 8 5 1 1 3).toNat ++ List.replicate 248 0)).2, ({ linked { state := .up, peerNode := 3 } with dom := { up.dom with slots := up.dom.slots.set {} 0 { state := .live, domainId := 5, epoch := 1 } }, fab := { up.fab with node := 1 } }), by decide +kernel⟩,
   ⟨0, false, [], linked { state := .up }, by decide +kernel⟩,
   ⟨0, false, plainFlit 0, linked { state := .up }, by decide +kernel⟩⟩

theorem test_meets_LinkFlits_3 :
    (∃ (l : Nat) (refused : Bool) (b : List Byte) (s : State), b.length = 256 ∧ hType (fHeader b) = 1 ∧ fTag b = crcField (fHeader b) (fPayload b)) ∧
    (∃ (l : Nat) (refused : Bool) (b : List Byte) (s : State), b.length = 256 ∧ (hType (fHeader b) = 1 ∨ hType (fHeader b) = 2) ∧ fTag b ≠ crcField (fHeader b) (fPayload b)) ∧
    (∃ (l : Nat) (refused : Bool) (b : List Byte) (s : State), b.length = 256 ∧ typeAssigned (hType (fHeader b)) = true ∧ 2 < hType (fHeader b) ∧ (2048 < ((s.link l).rxNext + 4096 - hLseq (fHeader b)) % 4096)) ∧
    (∃ (l : Nat) (refused : Bool) (b : List Byte) (s : State), b.length = 256 ∧ typeAssigned (hType (fHeader b)) = true ∧ 2 < hType (fHeader b) ∧ 0 < ((s.link l).rxNext + 4096 - hLseq (fHeader b)) % 4096 ∧ ((s.link l).rxNext + 4096 - hLseq (fHeader b)) % 4096 ≤ 2048) ∧
    (∃ (link : Nat) (s : State), s.linkOn link = true ∧ (s.link link).state = .up) ∧
    (∃ (link : Nat) (s : State), s.linkOn link = true ∧ (s.link link).state = .up ∧ (s.link link).nakWait = true ∧ (s.link link).nakAt + 2000 ≤ s.sys.now) ∧
    (∃ (link : Nat) (s : State), (s.link link).nakWait = false) ∧
    (∃ (link : Nat) (s : State), s.linkOn link = true ∧ (s.link link).state = .up ∧ (s.link link).replay.isEmpty = false ∧ (s.link link).ackAt + 10000 ≤ s.sys.now) :=
  ⟨⟨0, false, plainFlit 1, linked { state := .up }, by decide +kernel⟩,
   ⟨0, false, (plainFlit 1).take 255 ++ [0x5A], linked { state := .up }, by decide +kernel⟩,
   ⟨0, false, plainFlit 8, linked { state := .up, rxNext := 3000 }, by decide +kernel⟩,
   ⟨0, false, plainFlit 8, linked { state := .up, rxNext := 1 }, by decide +kernel⟩,
   ⟨0, linked { state := .up }, by decide +kernel⟩,
   ⟨0, { (linked { state := .up, nakWait := true }) with sys := { (linked {}).sys with now := 10 ^ 9 } }, by decide +kernel⟩,
   ⟨0, linked { state := .up }, by decide +kernel⟩,
   ⟨0, { (linked { state := .up, replay := [{ lseq := 1, header := 0, payload := [], tagField := 0 }] }) with sys := { (linked {}).sys with now := 10 ^ 9 } }, by decide +kernel⟩⟩

theorem test_meets_LinkFlits_4 :
    (∃ (link : Nat) (s : State), (s.link link).replay.isEmpty = true) ∧
    (∃ (l : Nat) (fs : List SentFlit) (s : State), (s.link l).retries < 7) ∧
    (∃ (l : Nat) (fs : List SentFlit) (s : State), 7 ≤ (s.link l).retries) ∧
    (∃ (link : Nat) (t : State) (s : State), s.linkOn link = true ∧ (s.link link).state = .up ∧ (s.link link).replay.length < replayCap (s.linkMode link) ∧ State.txFirst (s.link link).txQueue [] link s = (true, t)) ∧
    (∃ (link : Nat) (t : State) (s : State), s.linkOn link = true ∧ (s.link link).state = .up ∧ (s.link link).replay.length < replayCap (s.linkMode link) ∧ State.txFirst (s.link link).txQueue [] link s = (false, t)) ∧
    (∃ (link : Nat) (s : State), s.linkOn link = true ∧ (s.link link).state = .up ∧ replayCap (s.linkMode link) ≤ (s.link link).replay.length) ∧
    (∃ (link : Nat) (s : State), s.linkOn link = true ∧ ((s.link link).state = .negotiating ∨ (s.link link).state = .locking)) ∧
    (∃ (link : Nat) (s : State), (s.linkOn link = false ∨ ((s.link link).state ≠ .up ∧ (s.link link).state ≠ .negotiating ∧ (s.link link).state ≠ .locking))) :=
  ⟨⟨0, linked { state := .up }, by decide +kernel⟩,
   ⟨0, [], linked { state := .up }, by decide +kernel⟩,
   ⟨0, [], linked { state := .up, retries := 7 }, by decide +kernel⟩,
   ⟨0, (State.txFirst [{ ftype := 8, slot := none, dst := 2, src := 1, payload := List.replicate 240 0 }] [] 0 (linked { state := .up, txQueue := [{ ftype := 8, slot := none, dst := 2, src := 1, payload := List.replicate 240 0 }], txGranted := ({} : Tbl Nat).set 0 0 5 })).2, linked { state := .up, txQueue := [{ ftype := 8, slot := none, dst := 2, src := 1, payload := List.replicate 240 0 }], txGranted := ({} : Tbl Nat).set 0 0 5 }, by decide +kernel⟩,
   ⟨0, linked { state := .up }, linked { state := .up }, by decide +kernel⟩,
   ⟨0, linked { state := .up, replay := List.replicate (replayCap 0) { lseq := 1, header := 0, payload := [], tagField := 0 } }, by decide +kernel⟩,
   ⟨0, linked { state := .locking }, by decide +kernel⟩,
   ⟨0, linked { state := .training }, by decide +kernel⟩⟩

theorem test_meets_LinkFlits_5 :
    (∃ (link : Nat) (s : State), (s.link link).state ≠ .up) ∧
    (∃ (link : Nat) (s : State), (s.link link).state ≠ .up) ∧
    (∃ (link : Nat) (s : State), (s.link link).state ≠ .up) :=
  ⟨⟨0, linked { state := .locking }, by decide +kernel⟩,
   ⟨0, linked { state := .locking }, by decide +kernel⟩,
   ⟨0, linked { state := .locking }, by decide +kernel⟩⟩

theorem test_meets_FabricReceiveAndTables_1 :
    (∃ (f : FlitIn) (s : State), s.fabUp = false) ∧
    (∃ (f : FlitIn) (s₁ : State) (s : State), s.fabUp = true ∧ s.takeFlit f 8 = (none, s₁)) ∧
    (∃ (f : FlitIn) (x : RxFlit) (recs : List (List Byte)) (cut : Bool) (s₁ : State) (s : State), s.fabUp = true ∧ s.takeFlit f 8 = (some x, s₁) ∧ splitRecords 15 x.payload = (recs, cut) ∧ s₁.mayEnter f x.dst = false) ∧
    (∃ (f : FlitIn) (x : RxFlit) (recs : List (List Byte)) (cut : Bool) (s₁ : State) (s : State), s.fabUp = true ∧ s.takeFlit f 8 = (some x, s₁) ∧ splitRecords 15 x.payload = (recs, cut) ∧ s₁.mayEnter f x.dst = true ∧ (s₁.flitHere x.dst (recMember (recs.headD []))) = false) ∧
    (∃ (f : FlitIn) (x : RxFlit) (recs : List (List Byte)) (cut : Bool) (s₁ : State) (s : State), s.fabUp = true ∧ s.takeFlit f 8 = (some x, s₁) ∧ splitRecords 15 x.payload = (recs, cut) ∧ s₁.mayEnter f x.dst = true ∧ (s₁.flitHere x.dst (recMember (recs.headD []))) = true ∧ cut = false) ∧
    (∃ (f : FlitIn) (x : RxFlit) (recs : List (List Byte)) (cut : Bool) (s₁ : State) (s : State), s.fabUp = true ∧ s.takeFlit f 8 = (some x, s₁) ∧ splitRecords 15 x.payload = (recs, cut) ∧ s₁.mayEnter f x.dst = true ∧ (s₁.flitHere x.dst (recMember (recs.headD []))) = true ∧ cut = true) ∧
    (∃ (f : FlitIn) (s : State), s.fabUp = false) ∧
    (∃ (f : FlitIn) (s₁ : State) (s : State), s.fabUp = true ∧ s.takeFlit f 9 = (none, s₁)) :=
  ⟨⟨.loop, up, by decide +kernel⟩,
   ⟨.loop, { up with fab := { up.fab with node := 1, loop := [] } }, { up with fab := { up.fab with node := 1, loop := [] } }, by decide +kernel⟩,
   ⟨.link 0, { ftype := 8, slot := none, dst := 1, src := 9, payload := List.replicate 240 0 }, (splitRecords 15 (List.replicate 240 0)).1, (splitRecords 15 (List.replicate 240 0)).2, (State.takeFlit ({ linked { state := .up, accepted := [{ ftype := 8, slot := none, dst := 1, src := 9, payload := List.replicate 240 0 }] } with fab := { up.fab with node := 1, loop := [] }, hst := { up.hst with leadPos := 5 } }) (.link 0) 8).2, { linked { state := .up, accepted := [{ ftype := 8, slot := none, dst := 1, src := 9, payload := List.replicate 240 0 }] } with fab := { up.fab with node := 1, loop := [] }, hst := { up.hst with leadPos := 5 } }, by decide +kernel⟩,
   ⟨.bridge 1 none 1 9 (List.replicate 240 0), { ftype := 8, slot := none, dst := 1, src := 9, payload := List.replicate 240 0 }, (splitRecords 15 (List.replicate 240 0)).1, (splitRecords 15 (List.replicate 240 0)).2, ({ up with fab := { up.fab with node := 2, loop := [] } } : State).heard 1, { up with fab := { up.fab with node := 2, loop := [] } }, by decide +kernel⟩,
   ⟨.bridge 1 none 1 9 (List.replicate 240 0), { ftype := 8, slot := none, dst := 1, src := 9, payload := List.replicate 240 0 }, (splitRecords 15 (List.replicate 240 0)).1, (splitRecords 15 (List.replicate 240 0)).2, ({ up with fab := { up.fab with node := 1, loop := [] } } : State).heard 1, { up with fab := { up.fab with node := 1, loop := [] } }, by decide +kernel⟩,
   ⟨.bridge 1 none 1 9 (List.replicate 240 (255 : Byte)), { ftype := 8, slot := none, dst := 1, src := 9, payload := List.replicate 240 (255 : Byte) }, (splitRecords 15 (List.replicate 240 (255 : Byte))).1, (splitRecords 15 (List.replicate 240 (255 : Byte))).2, ({ up with fab := { up.fab with node := 1, loop := [] } } : State).heard 1, { up with fab := { up.fab with node := 1, loop := [] } }, by decide +kernel⟩,
   ⟨.loop, up, by decide +kernel⟩,
   ⟨.loop, { up with fab := { up.fab with node := 1, loop := [] } }, { up with fab := { up.fab with node := 1, loop := [] } }, by decide +kernel⟩⟩

theorem test_meets_FabricReceiveAndTables_2 :
    (∃ (f : FlitIn) (x : RxFlit) (recs : List (List Byte)) (cut : Bool) (s₁ : State) (s : State), s.fabUp = true ∧ s.takeFlit f 9 = (some x, s₁) ∧ splitRecords 15 x.payload = (recs, cut) ∧ s₁.mayEnter f x.dst = false) ∧
    (∃ (f : FlitIn) (x : RxFlit) (recs : List (List Byte)) (cut : Bool) (s₁ : State) (s : State), s.fabUp = true ∧ s.takeFlit f 9 = (some x, s₁) ∧ splitRecords 15 x.payload = (recs, cut) ∧ s₁.mayEnter f x.dst = true ∧ ((decide (x.dst = s₁.fab.node) && decide (recMember (recs.headD []) = s₁.fab.member))) = false) ∧
    (∃ (f : FlitIn) (x : RxFlit) (recs : List (List Byte)) (cut : Bool) (s₁ : State) (s : State), s.fabUp = true ∧ s.takeFlit f 9 = (some x, s₁) ∧ splitRecords 15 x.payload = (recs, cut) ∧ s₁.mayEnter f x.dst = true ∧ ((decide (x.dst = s₁.fab.node) && decide (recMember (recs.headD []) = s₁.fab.member))) = true ∧ cut = false) ∧
    (∃ (f : FlitIn) (x : RxFlit) (recs : List (List Byte)) (cut : Bool) (s₁ : State) (s : State), s.fabUp = true ∧ s.takeFlit f 9 = (some x, s₁) ∧ splitRecords 15 x.payload = (recs, cut) ∧ s₁.mayEnter f x.dst = true ∧ ((decide (x.dst = s₁.fab.node) && decide (recMember (recs.headD []) = s₁.fab.member))) = true ∧ cut = true) ∧
    (∃ (tid : Nat) (s : State), (s.fab.outs.find? fun o => o.tid = tid) = none) ∧
    (∃ (tid : Nat) (o : OutRec) (s : State), (s.fab.outs.find? fun o => o.tid = tid) = some o ∧ o.deadline ≤ s.sys.now) ∧
    (∃ (tid : Nat) (o : OutRec) (s : State), (s.fab.outs.find? fun o => o.tid = tid) = some o ∧ s.sys.now < o.deadline) ∧
    (∃ (tid : Nat) (s : State), (s.fab.outs.find? fun o => o.tid = tid) = none) :=
  ⟨⟨.link 0, { ftype := 9, slot := none, dst := 1, src := 9, payload := List.replicate 240 0 }, (splitRecords 15 (List.replicate 240 0)).1, (splitRecords 15 (List.replicate 240 0)).2, (State.takeFlit ({ linked { state := .up, accepted := [{ ftype := 9, slot := none, dst := 1, src := 9, payload := List.replicate 240 0 }] } with fab := { up.fab with node := 1, loop := [] }, hst := { up.hst with leadPos := 5 } }) (.link 0) 9).2, { linked { state := .up, accepted := [{ ftype := 9, slot := none, dst := 1, src := 9, payload := List.replicate 240 0 }] } with fab := { up.fab with node := 1, loop := [] }, hst := { up.hst with leadPos := 5 } }, by decide +kernel⟩,
   ⟨.bridge 1 none 1 9 (List.replicate 240 0), { ftype := 9, slot := none, dst := 1, src := 9, payload := List.replicate 240 0 }, (splitRecords 15 (List.replicate 240 0)).1, (splitRecords 15 (List.replicate 240 0)).2, ({ up with fab := { up.fab with node := 2, loop := [] } } : State).heard 1, { up with fab := { up.fab with node := 2, loop := [] } }, by decide +kernel⟩,
   ⟨.bridge 1 none 1 9 (List.replicate 240 0), { ftype := 9, slot := none, dst := 1, src := 9, payload := List.replicate 240 0 }, (splitRecords 15 (List.replicate 240 0)).1, (splitRecords 15 (List.replicate 240 0)).2, ({ up with fab := { up.fab with node := 1, loop := [] } } : State).heard 1, { up with fab := { up.fab with node := 1, loop := [] } }, by decide +kernel⟩,
   ⟨.bridge 1 none 1 9 (List.replicate 240 (255 : Byte)), { ftype := 9, slot := none, dst := 1, src := 9, payload := List.replicate 240 (255 : Byte) }, (splitRecords 15 (List.replicate 240 (255 : Byte))).1, (splitRecords 15 (List.replicate 240 (255 : Byte))).2, ({ up with fab := { up.fab with node := 1, loop := [] } } : State).heard 1, { up with fab := { up.fab with node := 1, loop := [] } }, by decide +kernel⟩,
   ⟨3, up, by decide +kernel⟩,
   ⟨3, rec1, recOut, by decide +kernel⟩,
   ⟨3, { rec1 with deadline := 10 ^ 11 }, { late with fab := { late.fab with node := 1, outs := [{ rec1 with deadline := 10 ^ 11 }] } }, by decide +kernel⟩,
   ⟨3, up, by decide +kernel⟩⟩

theorem test_meets_FabricReceiveAndTables_3 :
    (∃ (tid : Nat) (o : OutRec) (s : State), (s.fab.outs.find? fun o => o.tid = tid) = some o ∧ (o.resendAt = 0 ∨ s.sys.now < o.resendAt)) ∧
    (∃ (tid : Nat) (o : OutRec) (t u : State) (s : State), (s.fab.outs.find? fun o => o.tid = tid) = some o ∧ o.resendAt ≠ 0 ∧ o.resendAt ≤ s.sys.now ∧ { s with fab := { s.fab with outs := s.fab.outs.map fun (x : OutRec) => if x.tid = tid then { x with resendAt := 0 } else x } } = t ∧ t.sendFab { ftype := 8, slot := keySlot o.pairSlot, dst := o.node, member := o.member, src := t.fab.node, payload := padFlit o.bytes } (recKey o.bytes) = some u) ∧
    (∃ (tid : Nat) (o : OutRec) (t : State) (s : State), (s.fab.outs.find? fun o => o.tid = tid) = some o ∧ o.resendAt ≠ 0 ∧ o.resendAt ≤ s.sys.now ∧ { s with fab := { s.fab with outs := s.fab.outs.map fun (x : OutRec) => if x.tid = tid then { x with resendAt := 0 } else x } } = t ∧ t.sendFab { ftype := 8, slot := keySlot o.pairSlot, dst := o.node, member := o.member, src := t.fab.node, payload := padFlit o.bytes } (recKey o.bytes) = none) ∧
    (∃ (r : Req) (v : BitVec 32) (t : State) (s : State), s.served r 0xE0030 = true ∧ kernelReq r = true ∧ s.dropHeld r = t ∧ ((t.fab.outs.any fun o => o.node = bits v.toNat 15 0) || (t.fab.held.any fun h => h.pair.2.1 = bits v.toNat 15 0) || t.fab.parked.any fun p => p.src = bits v.toNat 15 0) = true) ∧
    (∃ (r : Req) (v : BitVec 32) (t : State) (s : State), s.served r 0xE0030 = true ∧ kernelReq r = true ∧ s.dropHeld r = t ∧ ((t.fab.outs.any fun o => o.node = bits v.toNat 15 0) || (t.fab.held.any fun h => h.pair.2.1 = bits v.toNat 15 0) || t.fab.parked.any fun p => p.src = bits v.toNat 15 0) = false) ∧
    (∃ (r : Req) (v : BitVec 64) (t : State) (s : State), s.served r 0xE0008 = true ∧ r.mgmt = true ∧ s.dropHeld r = t ∧ (allSlots.any fun i => (t.slot i).state ≠ .empty) = true) ∧
    (∃ (r : Req) (v : BitVec 64) (w : State) (t : State) (s : State), s.served r 0xE0008 = true ∧ r.mgmt = true ∧ s.dropHeld r = t ∧ (allSlots.any fun i => (t.slot i).state ≠ .empty) = false ∧ { t with fab := { t.fab with node := fld v 15 0, member := fld v 23 16, offBits := if fld v 27 24 ≤ 8 then fld v 27 24 else t.fab.offBits } } = w ∧ fld v 15 0 = t.fab.node ∧ fld v 23 16 = t.fab.member) ∧
    (∃ (r : Req) (v : BitVec 64) (w : State) (t : State) (s : State), s.served r 0xE0008 = true ∧ r.mgmt = true ∧ s.dropHeld r = t ∧ (allSlots.any fun i => (t.slot i).state ≠ .empty) = false ∧ { t with fab := { t.fab with node := fld v 15 0, member := fld v 23 16, offBits := if fld v 27 24 ≤ 8 then fld v 27 24 else t.fab.offBits } } = w ∧ (fld v 15 0 ≠ t.fab.node ∨ fld v 23 16 ≠ t.fab.member)) :=
  ⟨⟨3, { rec1 with resendAt := 0 }, { late with fab := { late.fab with node := 1, outs := [{ rec1 with resendAt := 0 }] } }, by decide +kernel⟩,
   ⟨3, rec1, ({ ({ recOut with fab := { recOut.fab with node := rec1.node } } : State) with fab := { ({ recOut with fab := { recOut.fab with node := rec1.node } } : State).fab with outs := [{ rec1 with resendAt := 0 }] } } : State), (State.sendFab ({ ({ recOut with fab := { recOut.fab with node := rec1.node } } : State) with fab := { ({ recOut with fab := { recOut.fab with node := rec1.node } } : State).fab with outs := [{ rec1 with resendAt := 0 }] } } : State) { ftype := 8, slot := keySlot rec1.pairSlot, dst := rec1.node, member := rec1.member, src := ({ ({ recOut with fab := { recOut.fab with node := rec1.node } } : State) with fab := { ({ recOut with fab := { recOut.fab with node := rec1.node } } : State).fab with outs := [{ rec1 with resendAt := 0 }] } } : State).fab.node, payload := padFlit rec1.bytes } (recKey rec1.bytes)).get (by rfl), ({ recOut with fab := { recOut.fab with node := rec1.node } } : State), by rfl, by decide, by decide, by rfl, by exact (Option.some_get _).symm⟩,
   ⟨3, rec1, { recOut with fab := { recOut.fab with outs := [{ rec1 with resendAt := 0 }] } }, recOut, by decide +kernel⟩,
   ⟨kern, 9, ({ up with fab := { up.fab with node := 1, outs := [rec1] } }).dropHeld kern, { up with fab := { up.fab with node := 1, outs := [rec1] } }, by decide +kernel⟩,
   ⟨kern, 5, (up).dropHeld kern, up, by decide +kernel⟩,
   ⟨mg, 5, (up.setSlot 3 { state := .live }).dropHeld mg, up.setSlot 3 { state := .live }, by decide +kernel⟩,
   ⟨mg, 2 ^ 24 * 2, ({ up.dropHeld mg with fab := { (up.dropHeld mg).fab with node := fld (2 ^ 24 * 2 : BitVec 64) 15 0, member := fld (2 ^ 24 * 2 : BitVec 64) 23 16, offBits := if fld (2 ^ 24 * 2 : BitVec 64) 27 24 ≤ 8 then fld (2 ^ 24 * 2 : BitVec 64) 27 24 else up.fab.offBits } } : State), (up).dropHeld mg, up, by decide +kernel⟩,
   ⟨mg, 2 ^ 24 + 7, ({ up.dropHeld mg with fab := { (up.dropHeld mg).fab with node := fld (2 ^ 24 + 7 : BitVec 64) 15 0, member := fld (2 ^ 24 + 7 : BitVec 64) 23 16, offBits := if fld (2 ^ 24 + 7 : BitVec 64) 27 24 ≤ 8 then fld (2 ^ 24 + 7 : BitVec 64) 27 24 else up.fab.offBits } } : State), (up).dropHeld mg, up, by decide +kernel⟩⟩

theorem test_meets_FabricReceiveAndTables_4 :
    (∃ (r : Req) (v : BitVec 64) (t : State) (s : State), s.served r 0xE0018 = true ∧ r.mgmt = true ∧ s.dropHeld r = t) ∧
    (∃ (r : Req) (v : BitVec 64) (u : State) (t : State) (s : State), s.served r 0xE0028 = true ∧ r.mgmt = true ∧ s.dropHeld r = t ∧ { t with fab := { t.fab with mroutes := t.fab.mroutes.set {} t.fab.mrsel (routeOf v) } } = u ∧ u.isLead = false) ∧
    (∃ (r : Req) (v : BitVec 64) (u : State) (t : State) (s : State), s.served r 0xE0028 = true ∧ r.mgmt = true ∧ s.dropHeld r = t ∧ { t with fab := { t.fab with mroutes := t.fab.mroutes.set {} t.fab.mrsel (routeOf v) } } = u ∧ u.isLead = true) :=
  ⟨⟨mg, 5, (up).dropHeld mg, up, by decide +kernel⟩,
   ⟨mg, 1, ({ ({ up with hst := { up.hst with leadPos := 1 } } : State).dropHeld mg with fab := { up.fab with mroutes := up.fab.mroutes.set {} up.fab.mrsel (routeOf 1) } } : State), ({ up with hst := { up.hst with leadPos := 1 } }).dropHeld mg, { up with hst := { up.hst with leadPos := 1 } }, by decide +kernel⟩,
   ⟨mg, 5, ({ up.dropHeld mg with fab := { up.fab with mroutes := up.fab.mroutes.set {} up.fab.mrsel (routeOf 5) } } : State), (up).dropHeld mg, up, by decide +kernel⟩⟩

theorem test_meets_CollectiveProgress_1 :
    (∃ (f : FlitIn) (x : RxFlit) (s₁ : State) (s : State), 5 ≤ s.rst.step ∧ s.takeFlit f 0x10 = (some x, s₁)) ∧
    (∃ (f : FlitIn) (s₁ : State) (s : State), 5 ≤ s.rst.step ∧ s.takeFlit f 0x10 = (none, s₁)) ∧
    (∃ (link : Nat) (f : RxFlit) (s : State), s.rxStep link f.slot (leNat (f.payload.take 2) % 4096) = none) ∧
    (∃ (f : FlitIn) (s : State), s.rst.step < 5) ∧
    (∃ (f : FlitIn) (pl : List Byte) (x : RxFlit) (s₁ : State) (s : State), 5 ≤ s.rst.step ∧ s.peekFlit f 0x11 = some pl ∧ decide (((ctlEntries 15 pl).headD (0, 0, 0, 0)).2.2.1 = 2) = false ∧ s.takeFlit f 0x11 = (some x, s₁)) ∧
    (∃ (f : FlitIn) (pl : List Byte) (s : State), s.peekFlit f 0x11 = some pl ∧ (s.rst.step < 5 ∨ decide (((ctlEntries 15 pl).headD (0, 0, 0, 0)).2.2.1 = 2) = true)) ∧
    (∃ (f : FlitIn) (s : State), s.peekFlit f 0x11 = none) ∧
    (∃ (f : FlitIn) (pl : List Byte) (x : RxFlit) (s₁ : State) (s : State), 5 ≤ s.rst.step ∧ s.peekFlit f 0x11 = some pl ∧ decide (((ctlEntries 15 pl).headD (0, 0, 0, 0)).2.2.1 = 2) = true ∧ s.takeFlit f 0x11 = (some x, s₁)) :=
  ⟨⟨.bridge 1 (some 3) 1 9 [], { ftype := 16, slot := some 3, dst := 1, src := 9, payload := [] }, up.heard 1, up, by decide +kernel⟩,
   ⟨.loop, up, up, by decide +kernel⟩,
   ⟨1, { ftype := 16, slot := some 3, dst := 1, src := 9, payload := [] }, up, by decide +kernel⟩,
   ⟨.loop, State.reset, by decide +kernel⟩,
   ⟨.bridge 1 (some 3) 1 9 (colPl 1), colPl 1, { ftype := 17, slot := some 3, dst := 1, src := 9, payload := colPl 1 }, late.heard 1, late, by decide +kernel⟩,
   ⟨.bridge 1 (some 3) 1 9 (colPl 2), colPl 2, late, by decide +kernel⟩,
   ⟨.loop, up, by decide +kernel⟩,
   ⟨.bridge 1 (some 3) 1 9 (colPl 2), colPl 2, { ftype := 17, slot := some 3, dst := 1, src := 9, payload := colPl 2 }, late.heard 1, late, by decide +kernel⟩⟩

theorem test_meets_CollectiveProgress_2 :
    (∃ (f : FlitIn) (pl : List Byte) (s : State), s.peekFlit f 0x11 = some pl ∧ (s.rst.step < 5 ∨ decide (((ctlEntries 15 pl).headD (0, 0, 0, 0)).2.2.1 = 2) = false)) ∧
    (∃ (f : FlitIn) (s : State), s.peekFlit f 0x11 = none) ∧
    (∃ (plan step : Nat) (s : State), (s.plan plan).loaded = true ∧ step < (s.plan plan).steps.length ∧ stRecv ((s.plan plan).step step) = true ∧ ((s.plan plan).srun step).freed ≠ ((s.plan plan).srun step).freedSent ∧ (stRxBuf ((s.plan plan).step step) ≤ 4 * ((((s.plan plan).srun step).freed + 2 ^ 64 - ((s.plan plan).srun step).freedSent) % 2 ^ 64) ∨ ((s.plan plan).srun step).creditAt + 1000 ≤ s.sys.now)) ∧
    (∃ (plan step : Nat) (s : State), ((s.plan plan).srun step).freed = ((s.plan plan).srun step).freedSent) ∧
    (∃ (plan step : Nat) (s : State), 4 * ((((s.plan plan).srun step).freed + 2 ^ 64 - ((s.plan plan).srun step).freedSent) % 2 ^ 64) < stRxBuf ((s.plan plan).step step) ∧ s.sys.now < ((s.plan plan).srun step).creditAt + 1000) ∧
    (∃ (plan step : Nat) (s : State), (s.plan plan).live step = true ∧ ((s.plan plan).srun step).txBytes.isEmpty = false ∧ ((s.plan plan).srun step).txAt + 34 ≤ s.sys.now) ∧
    (∃ (plan step : Nat) (s : State), ((s.plan plan).live step = false ∨ ((s.plan plan).srun step).txBytes.isEmpty = true ∨ s.sys.now < ((s.plan plan).srun step).txAt + 34)) ∧
    (∃ (link : Nat) (slot : Option Nat) (e : Nat × Nat × Nat × Nat) (s : State), e.2.2.1 = 1) :=
  ⟨⟨.bridge 1 (some 3) 1 9 (colPl 1), colPl 1, late, by decide +kernel⟩,
   ⟨.loop, up, by decide +kernel⟩,
   ⟨0, 0, stepping fun r => { r with freed := 1 }, by decide +kernel⟩,
   ⟨0, 0, up, by decide +kernel⟩,
   ⟨0, 0, planned [planStep] { stage := .started, freed := 1, freedSent := 1, creditAt := 10 ^ 12 }, by decide +kernel⟩,
   ⟨0, 0, stepping fun r => { r with txBytes := [5] }, by decide +kernel⟩,
   ⟨0, 0, up, by decide +kernel⟩,
   ⟨0, none, (0, 0, 1, 5), up, by decide +kernel⟩⟩

theorem test_meets_CollectiveProgress_3 :
    (∃ (link : Nat) (slot : Option Nat) (e : Nat × Nat × Nat × Nat) (s : State), e.2.2.1 ≠ 1) ∧
    (∃ (link stream v : Nat) (slot : Option Nat) (s : State), s.txStep link slot stream = none) ∧
    (∃ (link stream v k x : Nat) (slot : Option Nat) (s : State), s.txStep link slot stream = some (k, x) ∧ v ≤ ((s.plan k).srun x).freedLast) ∧
    (∃ (link stream v k x : Nat) (slot : Option Nat) (s : State), s.txStep link slot stream = some (k, x) ∧ ((s.plan k).srun x).freedLast < v ∧ ((s.plan k).srun x).stallAt = 0) ∧
    (∃ (link stream run : Nat) (slot : Option Nat) (s : State), s.rxStep link slot stream = none) ∧
    (∃ (link stream run k x : Nat) (slot : Option Nat) (s : State), s.rxStep link slot stream = some (k, x) ∧ (s.plan k).live x = true ∧ run = (s.plan k).run.toNat % 65536) ∧
    (∃ (link stream run k x : Nat) (slot : Option Nat) (s : State), s.rxStep link slot stream = some (k, x) ∧ ((s.plan k).live x = false ∨ run ≠ (s.plan k).run.toNat % 65536)) ∧
    (∃ (link k x : Nat) (f : RxFlit) (s : State), s.rxStep link f.slot (leNat (f.payload.take 2) % 4096) = some (k, x) ∧ (s.slot (s.plan k).dslot).state ≠ .quarantined ∧ (s.plan k).fail = 0 ∧ leNat ((f.payload.drop 2).take 2) = (s.plan k).run.toNat % 65536 ∧ ((s.plan k).srun x).buf.length < stRxBuf ((s.plan k).step x)) :=
  ⟨⟨0, none, (0, 0, 2, 5), up, by decide +kernel⟩,
   ⟨0, 0, 0, none, up, by decide +kernel⟩,
   ⟨0, 0, 5, 0, 0, some 0, planned [[1, 2 * 2 ^ 20, 32, 0, 0, 0, 0, 0]] { stage := .started, freedLast := 9 }, by decide +kernel⟩,
   ⟨0, 0, 5, 0, 0, some 0, planned [[1, 2 * 2 ^ 20, 32, 0, 0, 0, 0, 0]] { stage := .started }, by decide +kernel⟩,
   ⟨0, 0, 0, none, up, by decide +kernel⟩,
   ⟨0, 0, 0, 0, 0, some 0, planned [planStep] { stage := .started }, by decide +kernel⟩,
   ⟨0, 0, 9, 0, 0, some 0, planned [planStep] { stage := .started }, by decide +kernel⟩,
   ⟨0, 0, 0, { ftype := 16, slot := some 0, dst := 1, src := 9, payload := [] }, planned [planStep] { stage := .started }, by decide +kernel⟩⟩

theorem test_meets_CollectiveProgress_4 :
    (∃ (link k x : Nat) (f : RxFlit) (s : State), s.rxStep link f.slot (leNat (f.payload.take 2) % 4096) = some (k, x) ∧ (s.slot (s.plan k).dslot).state = .quarantined) ∧
    (∃ (k f x : Nat) (s : State), (s.plan k).running = false) ∧
    (∃ (k f x : Nat) (s : State), (s.plan k).running = true ∧ (s.plan k).fail = 0 ∧ x < (s.plan k).steps.length ∧ (s.plan k).startable x = true ∧ (stWaits ((s.plan k).step x) = false ∨ ((s.plan k).srun x).waitMet = true) ∧ stWithPrev ((((s.startStep k x).registerSteps k).plan k).step (x + 1)) = false) ∧
    (∃ (k f x : Nat) (s : State), (s.plan k).running = true ∧ (s.plan k).fail = 0 ∧ x < (s.plan k).steps.length ∧ (s.plan k).startable x = true ∧ (stWaits ((s.plan k).step x) = false ∨ ((s.plan k).srun x).waitMet = true) ∧ stWithPrev ((((s.startStep k x).registerSteps k).plan k).step (x + 1)) = true) ∧
    (∃ (k f x : Nat) (s : State), ((s.plan k).fail ≠ 0 ∨ (s.plan k).startable x = false ∨ (stWaits ((s.plan k).step x) = true ∧ ((s.plan k).srun x).waitMet = false))) ∧
    (∃ (plan step : Nat) (s : State), s.stepDone (s.plan plan) step = true ∧ (stSignal ((s.plan plan).step step)).getLsbD 21 = true ∧ ((s.modSrun plan step fun r => { r with stage := .completed }).syncObj ((s.modSrun plan step fun r => { r with stage := .completed }).gateObj (s.plan plan) (stSignal ((s.plan plan).step step)))).kind ≠ .fence) ∧
    (∃ (plan step : Nat) (s : State), s.stepDone (s.plan plan) step = true ∧ (stSignal ((s.plan plan).step step)).getLsbD 21 = false) ∧
    (∃ (plan step : Nat) (s : State), s.stepDone (s.plan plan) step = true ∧ (stSignal ((s.plan plan).step step)).getLsbD 21 = true ∧ ((s.modSrun plan step fun r => { r with stage := .completed }).syncObj ((s.modSrun plan step fun r => { r with stage := .completed }).gateObj (s.plan plan) (stSignal ((s.plan plan).step step)))).kind = .fence) :=
  ⟨⟨0, 0, 0, { ftype := 16, slot := some 0, dst := 1, src := 9, payload := [] }, (planned [planStep] { stage := .started }).setSlot 0 { state := .quarantined }, by decide +kernel⟩,
   ⟨0, 1, 0, up, by decide +kernel⟩,
   ⟨0, 0, 0, up.setPlan 0 { loaded := true, gen := 1, slice := 4, running := true, header := planHdr, steps := [planStep] }, by decide +kernel⟩,
   ⟨0, 0, 0, planned [planStep, [18, 2 * 2 ^ 20, 32, 0, 0, 0, 0, 0]] {}, by decide +kernel⟩,
   ⟨0, 1, 0, planned [planStep] { stage := .started }, by decide +kernel⟩,
   ⟨0, 0, planned [[2 + 2 ^ 44, 2 * 2 ^ 20, 32, 0, 0, 0, 0, 2 ^ 21]] { stage := .started, blocks := 1 }, by decide +kernel⟩,
   ⟨0, 0, stepping fun r => { r with blocks := 1 }, by decide +kernel⟩,
   ⟨0, 0, ({ (planned [[2 + 2 ^ 44, 2 * 2 ^ 20, 32, 0, 0, 0, 0, 2 ^ 21]] { stage := .started, blocks := 1 }) with qm := { up.qm with slices := up.qm.slices.set {} 4 { state := .active, synCount := 1 } }, syn := { up.syn with objs := up.syn.objs.set {} 0 { kind := .fence } } } : State), by decide +kernel⟩⟩

theorem test_meets_CollectiveProgress_5 :
    (∃ (plan step : Nat) (s : State), s.stepDone (s.plan plan) step = false) ∧
    (∃ (plan step l : Nat) (s : State), (s.plan plan).live step = true ∧ stSend ((s.plan plan).step step) = true ∧ ((s.plan plan).srun step).stallAt ≠ 0 ∧ ((s.plan plan).srun step).stallAt - 1 + phTimeout (s.plan plan).header ≤ s.sys.now ∧ stTxLink ((s.plan plan).step step) = l ∧ l < 32) ∧
    (∃ (plan step l : Nat) (s : State), (s.plan plan).live step = true ∧ stSend ((s.plan plan).step step) = true ∧ ((s.plan plan).srun step).stallAt ≠ 0 ∧ ((s.plan plan).srun step).stallAt - 1 + phTimeout (s.plan plan).header ≤ s.sys.now ∧ stTxLink ((s.plan plan).step step) = l ∧ 32 ≤ l) ∧
    (∃ (plan step l : Nat) (s : State), (s.plan plan).live step = true ∧ (stSend ((s.plan plan).step step) = false ∨ ((s.plan plan).srun step).stallAt = 0 ∨ s.sys.now < ((s.plan plan).srun step).stallAt - 1 + phTimeout (s.plan plan).header) ∧ stRecv ((s.plan plan).step step) = true ∧ ((s.plan plan).srun step).blocks < stBlocks ((s.plan plan).step step) ∧ (((s.plan plan).srun step).nextBlk ((s.plan plan).run.toNat % 65536)).isNone = true ∧ ((s.plan plan).srun step).activeAt + phTimeout (s.plan plan).header ≤ s.sys.now ∧ stRxLink ((s.plan plan).step step) = l ∧ l < 32) ∧
    (∃ (plan step l : Nat) (s : State), (s.plan plan).live step = true ∧ (stSend ((s.plan plan).step step) = false ∨ ((s.plan plan).srun step).stallAt = 0 ∨ s.sys.now < ((s.plan plan).srun step).stallAt - 1 + phTimeout (s.plan plan).header) ∧ stRecv ((s.plan plan).step step) = true ∧ ((s.plan plan).srun step).blocks < stBlocks ((s.plan plan).step step) ∧ (((s.plan plan).srun step).nextBlk ((s.plan plan).run.toNat % 65536)).isNone = true ∧ ((s.plan plan).srun step).activeAt + phTimeout (s.plan plan).header ≤ s.sys.now ∧ stRxLink ((s.plan plan).step step) = l ∧ 32 ≤ l) ∧
    (∃ (plan step : Nat) (s : State), (stSend ((s.plan plan).step step) = false ∨ ((s.plan plan).srun step).stallAt = 0 ∨ s.sys.now < ((s.plan plan).srun step).stallAt - 1 + phTimeout (s.plan plan).header) ∧ (stRecv ((s.plan plan).step step) = false ∨ stBlocks ((s.plan plan).step step) ≤ ((s.plan plan).srun step).blocks ∨ (((s.plan plan).srun step).nextBlk ((s.plan plan).run.toNat % 65536)).isNone = false ∨ s.sys.now < ((s.plan plan).srun step).activeAt + phTimeout (s.plan plan).header)) ∧
    (∃ (plan step : Nat) (s : State), (s.plan plan).live step = false) :=
  ⟨⟨0, 0, up, by decide +kernel⟩,
   ⟨0, 0, 0, planned [[1 + 0 * 2 ^ 26, 2 * 2 ^ 20, 32, 0, 0, 0, 0, 0]] { stage := .started, stallAt := 1 }, by decide +kernel⟩,
   ⟨0, 0, 33, planned [[1 + 33 * 2 ^ 26, 2 * 2 ^ 20, 32, 0, 0, 0, 0, 0]] { stage := .started, stallAt := 1 }, by decide +kernel⟩,
   ⟨0, 0, 0, planned [[2 + 0 * 2 ^ 8, 2 * 2 ^ 20, 32, 0, 0, 0, 0, 0]] { stage := .started }, by decide +kernel⟩,
   ⟨0, 0, 33, planned [[2 + 33 * 2 ^ 8, 2 * 2 ^ 20, 32, 0, 0, 0, 0, 0]] { stage := .started }, by decide +kernel⟩,
   ⟨0, 0, up, by decide +kernel⟩,
   ⟨0, 0, up, by decide +kernel⟩⟩

theorem test_meets_SyncRegistersAndDeadlock_1 :
    (∃ (r : Req) (slice port : Nat) (v : BitVec 64) (t : State) (s : State), s.served r (signalPage slice + 0x28 + port * 0x20) = true ∧ (decide (port < 15) && s.pageWrite slice r) = true ∧ s.dropHeld r = t ∧ (bits ((t.slice slice).psel.get 0 port).toNat 19 0) < (t.slice slice).syncSize ∧ ((t.slice slice).psel.get 0 port).getLsbD 20 = true ∧ (t.syncObj ((t.slice slice).syncObj (bits ((t.slice slice).psel.get 0 port).toNat 19 0))).kind = .event) ∧
    (∃ (r : Req) (slice port : Nat) (v : BitVec 64) (t : State) (s : State), s.served r (signalPage slice + 0x28 + port * 0x20) = true ∧ (decide (port < 15) && s.pageWrite slice r) = true ∧ s.dropHeld r = t ∧ (bits ((t.slice slice).psel.get 0 port).toNat 19 0) < (t.slice slice).syncSize ∧ ((t.slice slice).psel.get 0 port).getLsbD 20 = false ∧ (t.syncObj ((t.slice slice).syncObj (bits ((t.slice slice).psel.get 0 port).toNat 19 0))).kind = .fence) ∧
    (∃ (r : Req) (slice port : Nat) (v : BitVec 64) (t : State) (s : State), s.served r (signalPage slice + 0x28 + port * 0x20) = true ∧ (decide (port < 15) && s.pageWrite slice r) = true ∧ s.dropHeld r = t ∧ ((t.slice slice).syncSize ≤ (bits ((t.slice slice).psel.get 0 port).toNat 19 0) ∨ (t.syncObj ((t.slice slice).syncObj (bits ((t.slice slice).psel.get 0 port).toNat 19 0))).kind ≠ (if ((t.slice slice).psel.get 0 port).getLsbD 20 = true then SyncKind.event else SyncKind.fence))) ∧
    (∃ (r : Req) (slice : Nat) (t : State) (s : State), s.served r (signalPage slice) = true ∧ (s.pageWrite slice r || (decide (slice < 2048) && kernelReq r)) = true ∧ s.dropHeld r = t) ∧
    (∃ (r : Req) (v : BitVec 64) (t : State) (s : State), s.served r 0x200018 = true ∧ globalPage r = true ∧ s.dropHeld r = t ∧ t.slcfgResult t.syn.slsel v = 1) ∧
    (∃ (r : Req) (v : BitVec 64) (n : Nat) (t : State) (s : State), s.served r 0x200018 = true ∧ globalPage r = true ∧ s.dropHeld r = t ∧ t.slcfgResult t.syn.slsel v = n ∧ n ≠ 1) ∧
    (∃ (r : Req) (v : BitVec 32) (t : State) (s : State), s.served r 0x200008 = true ∧ r.mgmt = true ∧ s.dropHeld r = t) ∧
    (∃ (r : Req) (i k : Nat) (t : State) (s : State), s.served r 0x200040 = true ∧ r.mgmt = true ∧ s.dropHeld r = t ∧ t.dbgObj = (i, k) ∧ t.dbgRefusal = 0) :=
  ⟨⟨{ pasid := some 7 }, 4, 1, 9, (((comm.modSlice 4 fun l => { l with synCount := 1, psel := l.psel.set 0 1 (3 + 2 ^ 20) }).setSyncObj 3 { kind := .event })).dropHeld { pasid := some 7 }, ((comm.modSlice 4 fun l => { l with synCount := 1, psel := l.psel.set 0 1 (3 + 2 ^ 20) }).setSyncObj 3 { kind := .event }), by decide +kernel⟩,
   ⟨{ pasid := some 7 }, 4, 1, 9, (((comm.modSlice 4 fun l => { l with synCount := 1, psel := l.psel.set 0 1 3 }).setSyncObj 3 { kind := .fence })).dropHeld { pasid := some 7 }, ((comm.modSlice 4 fun l => { l with synCount := 1, psel := l.psel.set 0 1 3 }).setSyncObj 3 { kind := .fence }), by decide +kernel⟩,
   ⟨{ pasid := some 7 }, 4, 1, 9, (comm).dropHeld { pasid := some 7 }, comm, by decide +kernel⟩,
   ⟨{ pasid := some 7 }, 4, (comm).dropHeld { pasid := some 7 }, comm, by decide +kernel⟩,
   ⟨mg, 0, (up).dropHeld mg, up, by decide +kernel⟩,
   ⟨kern, BitVec.allOnes 64, 4, up.dropHeld kern, up, by decide +kernel⟩,
   ⟨mg, 5, (up).dropHeld mg, up, by decide +kernel⟩,
   ⟨mg, 0, 0, ({ up with qm := { up.qm with slices := up.qm.slices.set {} 0 { state := .active, synCount := 1 } }, syn := { up.syn with objs := up.syn.objs.set {} 0 { kind := .event } } } : State).dropHeld mg, ({ up with qm := { up.qm with slices := up.qm.slices.set {} 0 { state := .active, synCount := 1 } }, syn := { up.syn with objs := up.syn.objs.set {} 0 { kind := .event } } } : State), by decide +kernel⟩⟩

theorem test_meets_SyncRegistersAndDeadlock_2 :
    (∃ (r : Req) (i k n : Nat) (t : State) (s : State), s.served r 0x200040 = true ∧ r.mgmt = true ∧ s.dropHeld r = t ∧ t.dbgObj = (i, k) ∧ t.dbgRefusal = n + 1) ∧
    (∃ (r : Req) (clear : Bool) (i k : Nat) (u : State) (t : State) (s : State), s.served r 0x200040 = true ∧ r.mgmt = true ∧ s.dropHeld r = t ∧ t.dbgObj = (i, k) ∧ t.dbgRefusal = 0 ∧ ((t.record 0x91 srcSync [(2, i), (4, k), (8, t.syn.dbgData.toNat)]).forceObj ((t.slice i).syncObj k) t.syn.dbgData clear) = u) ∧
    (∃ (r : Req) (clear : Bool) (i k n : Nat) (t : State) (s : State), s.served r 0x200040 = true ∧ r.mgmt = true ∧ s.dropHeld r = t ∧ t.dbgObj = (i, k) ∧ t.dbgRefusal = n + 1) ∧
    (∃ (s : State), s.watching = true ∧ s.syn.scanAt + 100000000 ≤ s.sys.now) ∧
    (∃ (s : State), s.watching = false) ∧
    (∃ (u : Nat) (s : State), s.stalledUnit = some u ∧ s.watching = true) ∧
    (∃ (s : State), (s.stalledUnit = none ∨ s.watching = false)) ∧
    (∃ (s : State), s.sys.now < s.syn.scanAt + 100000000) :=
  ⟨⟨mg, 0, 0, 3, (up).dropHeld mg, up, by decide +kernel⟩,
   ⟨mg, false, 0, 0, ((({ up with qm := { up.qm with slices := up.qm.slices.set {} 0 { state := .active, synCount := 1 } }, syn := { up.syn with objs := up.syn.objs.set {} 0 { kind := .event } } } : State).dropHeld mg).record 0x91 srcSync [(2, 0), (4, 0), (8, 0)]).forceObj 0 0 false, ({ up with qm := { up.qm with slices := up.qm.slices.set {} 0 { state := .active, synCount := 1 } }, syn := { up.syn with objs := up.syn.objs.set {} 0 { kind := .event } } } : State).dropHeld mg, ({ up with qm := { up.qm with slices := up.qm.slices.set {} 0 { state := .active, synCount := 1 } }, syn := { up.syn with objs := up.syn.objs.set {} 0 { kind := .event } } } : State), by decide +kernel⟩,
   ⟨mg, true, 0, 0, 3, (up).dropHeld mg, up, by decide +kernel⟩,
   ⟨{ up with sys := { up.sys with now := 10 ^ 9 } }, by decide +kernel⟩,
   ⟨State.reset, by decide +kernel⟩,
   ⟨0, { runs up [0x20] with sys := { up.sys with now := 10 ^ 12 } }, by decide +kernel⟩,
   ⟨up, by decide +kernel⟩,
   ⟨up, by decide +kernel⟩⟩

theorem test_meets_Translations_1 :
    (∃ (pasid : BitVec 20) (page : Nat) (c : XlatCpl) (s : State), (s.hst.xreqs.find? fun r => r.1 = pasid && r.2.1 = page) = none) ∧
    (∃ (pasid : BitVec 20) (page : Nat) (write : Bool) (t : State) (s : State), (s.hst.xreqs.find? fun r => r.1 = pasid && r.2.1 = page) = some (pasid, page, write) ∧ { s with hst := { s.hst with xreqs := s.hst.xreqs.filter fun r => !(r.1 = pasid && r.2.1 = page), groups := s.hst.groups.filter fun g => !(g.pasid = pasid && g.page = page && g.retried) } } = t) ∧
    (∃ (pasid : BitVec 20) (page : Nat) (write : Bool) (t : State) (base size trans : Nat) (rd wr : Bool) (s : State), (s.hst.xreqs.find? fun r => r.1 = pasid && r.2.1 = page) = some (pasid, page, write) ∧ { s with hst := { s.hst with xreqs := s.hst.xreqs.filter fun r => !(r.1 = pasid && r.2.1 = page), groups := s.hst.groups.filter fun g => !(g.pasid = pasid && g.page = page && g.retried) } } = t ∧ (if write then wr else rd) = true) ∧
    (∃ (pasid : BitVec 20) (page : Nat) (write : Bool) (t : State) (base size trans : Nat) (rd wr : Bool) (s : State), (s.hst.xreqs.find? fun r => r.1 = pasid && r.2.1 = page) = some (pasid, page, write) ∧ { s with hst := { s.hst with xreqs := s.hst.xreqs.filter fun r => !(r.1 = pasid && r.2.1 = page), groups := s.hst.groups.filter fun g => !(g.pasid = pasid && g.page = page && g.retried) } } = t ∧ (if write then wr else rd) = false ∧ (s.hst.pri && !s.hst.priBlocked && !(s.hst.groups.any fun g => g.pasid = pasid && g.page = page && g.retried)) = true) ∧
    (∃ (pasid : BitVec 20) (page : Nat) (write : Bool) (t : State) (base size trans : Nat) (rd wr : Bool) (s : State), (s.hst.xreqs.find? fun r => r.1 = pasid && r.2.1 = page) = some (pasid, page, write) ∧ { s with hst := { s.hst with xreqs := s.hst.xreqs.filter fun r => !(r.1 = pasid && r.2.1 = page), groups := s.hst.groups.filter fun g => !(g.pasid = pasid && g.page = page && g.retried) } } = t ∧ (if write then wr else rd) = false ∧ (s.hst.pri && !s.hst.priBlocked && !(s.hst.groups.any fun g => g.pasid = pasid && g.page = page && g.retried)) = false) ∧
    (∃ (pasid : BitVec 20) (page : Nat) (t : State) (s : State), (s.hst.xreqs.any fun r => r.1 = pasid && r.2.1 = page) = true ∧ { s with hst := { s.hst with xreqs := s.hst.xreqs.filter fun r => !(r.1 = pasid && r.2.1 = page), groups := s.hst.groups.filter fun g => !(g.pasid = pasid && g.page = page && g.retried) } } = t) ∧
    (∃ (pasid : BitVec 20) (page : Nat) (s : State), (s.hst.xreqs.any fun r => r.1 = pasid && r.2.1 = page) = false) ∧
    (∃ (pasid : BitVec 20) (group : Nat) (x : PageGroup) (s : State), s.groupOf pasid group = some x ∧ x.void = false) :=
  ⟨⟨7, 3, .refused, up, by decide +kernel⟩,
   ⟨7, 3, false, { up with hst := { up.hst with xreqs := [] } }, { up with hst := { up.hst with xreqs := [(7, 3, false)] } }, by decide +kernel⟩,
   ⟨7, 3, false, { up with hst := { up.hst with xreqs := [] } }, 12288, 4096, 0, true, false, { up with hst := { up.hst with xreqs := [(7, 3, false)] } }, by decide +kernel⟩,
   ⟨7, 3, false, { up with hst := { up.hst with xreqs := [], pri := true } }, 12288, 4096, 0, false, false, { up with hst := { up.hst with pri := true, xreqs := [(7, 3, false)] } }, by decide +kernel⟩,
   ⟨7, 3, false, { up with hst := { up.hst with xreqs := [] } }, 12288, 4096, 0, false, false, { up with hst := { up.hst with xreqs := [(7, 3, false)] } }, by decide +kernel⟩,
   ⟨7, 3, { up with hst := { up.hst with xreqs := [] } }, { up with hst := { up.hst with xreqs := [(7, 3, false)] } }, by decide +kernel⟩,
   ⟨7, 3, up, by decide +kernel⟩,
   ⟨7, 2, { pasid := 7, group := 2, page := 3, write := false, due := 0 }, { up with hst := { up.hst with groups := [{ pasid := 7, group := 2, page := 3, write := false, due := 0 }] } }, by decide +kernel⟩⟩

theorem test_meets_Translations_2 :
    (∃ (pasid : BitVec 20) (group : Nat) (x : PageGroup) (s : State), s.groupOf pasid group = some x ∧ x.void = false) ∧
    (∃ (pasid : BitVec 20) (group : Nat) (x : PageGroup) (code : Nat) (s : State), s.groupOf pasid group = some x ∧ x.void = false ∧ 2 ≤ code) ∧
    (∃ (pasid : BitVec 20) (group code : Nat) (s : State), s.groupOf pasid group = none) ∧
    (∃ (pasid : BitVec 20) (group : Nat) (x : PageGroup) (s : State), s.groupOf pasid group = some x ∧ x.due ≤ s.sys.now) ∧
    (∃ (pasid : BitVec 20) (group : Nat) (s : State), s.groupOf pasid group = none) ∧
    (∃ (r : Req) (v : BitVec 32) (t : State) (s : State), s.served r 0x17F08 = true ∧ r.mgmt = true ∧ s.dropHeld r = t ∧ 1 ≤ bits v.toNat 6 0 ∧ bits v.toNat 6 0 ≤ 100) ∧
    (∃ (itag : Nat) (pasid : BitVec 20) (global : Bool) (addr size : Nat) (s : State), s.hostServes = true ∧ s.hst.invals.length < 32) ∧
    (∃ (itag : Nat) (v : Inval) (s : State), (s.hst.invals.find? fun v => v.itag = itag && v.due ≤ s.now) = some v) :=
  ⟨⟨7, 1, { group := 1, pasid := 7, page := 5, write := false, due := 9 }, { up with hst := { up.hst with groups := [{ group := 1, pasid := 7, page := 5, write := false, due := 9 }] } }, by decide +kernel⟩,
   ⟨7, 1, { group := 1, pasid := 7, page := 5, write := false, due := 9 }, 2, { up with hst := { up.hst with groups := [{ group := 1, pasid := 7, page := 5, write := false, due := 9 }] } }, by decide +kernel⟩,
   ⟨7, 2, 0, up, by decide +kernel⟩,
   ⟨7, 2, { pasid := 7, group := 2, page := 3, write := false, due := 0 }, { up with hst := { up.hst with groups := [{ pasid := 7, group := 2, page := 3, write := false, due := 0 }] } }, by decide +kernel⟩,
   ⟨7, 2, up, by decide +kernel⟩,
   ⟨mg, 50, (up).dropHeld mg, up, by decide +kernel⟩,
   ⟨1, 7, false, 0, 4096, up, by decide +kernel⟩,
   ⟨1, { itag := 1, xfers := [], due := 0 }, { up with hst := { up.hst with invals := [{ itag := 1, xfers := [], due := 0 }] } }, by decide +kernel⟩⟩

theorem test_meets_Translations_3 :
    (∃ (itag : Nat) (s : State), (s.hst.invals.find? fun v => v.itag = itag && v.due ≤ s.now) = none) ∧
    (∃ (pasid : BitVec 20) (group : Nat) (x : PageGroup) (code : Nat) (s : State), s.groupOf pasid group = some x ∧ x.void = true) ∧
    (∃ (pasid : BitVec 20) (group : Nat) (x : PageGroup) (s : State), s.groupOf pasid group = some x ∧ s.sys.now < x.due) ∧
    (∃ (itag : Nat) (pasid : BitVec 20) (global : Bool) (addr size : Nat) (s : State), (s.hostServes = false ∨ 32 ≤ s.hst.invals.length)) ∧
    (∃ (r : Req) (v : BitVec 32) (t : State) (s : State), s.served r 0x17F08 = true ∧ r.mgmt = true ∧ s.dropHeld r = t ∧ (bits v.toNat 6 0 = 0 ∨ 100 < bits v.toNat 6 0)) :=
  ⟨⟨1, up, by decide +kernel⟩,
   ⟨7, 2, { pasid := 7, group := 2, page := 3, write := false, due := 0, void := true }, 0, { up with hst := { up.hst with groups := [{ pasid := 7, group := 2, page := 3, write := false, due := 0, void := true }] } }, by decide +kernel⟩,
   ⟨7, 2, { pasid := 7, group := 2, page := 3, write := false, due := 5 }, { up with hst := { up.hst with groups := [{ pasid := 7, group := 2, page := 3, write := false, due := 5 }] } }, by decide +kernel⟩,
   ⟨1, 7, false, 0, 4096, State.reset, by decide +kernel⟩,
   ⟨mg, 0, (up).dropHeld mg, up, by decide +kernel⟩⟩

theorem test_meets_HostTransfersAndFunction_1 :
    (∃ (id : Nat) (data : List Byte) (ok : Bool) (s : State), (s.hst.xfers.find? fun t => t.id = id) = none) ∧
    (∃ (id : Nat) (data : List Byte) (ok : Bool) (x : Xfer) (u : State) (s : State), (s.hst.xfers.find? fun t => t.id = id) = some x ∧ { s with hst := { s.hst with xfers := s.hst.xfers.filter fun y => y.id ≠ id } } = u ∧ x.abandoned = true) ∧
    (∃ (id : Nat) (data : List Byte) (x : Xfer) (u : State) (s : State), (s.hst.xfers.find? fun t => t.id = id) = some x ∧ { s with hst := { s.hst with xfers := s.hst.xfers.filter fun y => y.id ≠ id } } = u ∧ x.abandoned = false ∧ x.queue ≠ 2 ^ 18) ∧
    (∃ (id : Nat) (data : List Byte) (x : Xfer) (u : State) (s : State), (s.hst.xfers.find? fun t => t.id = id) = some x ∧ { s with hst := { s.hst with xfers := s.hst.xfers.filter fun y => y.id ≠ id } } = u ∧ x.abandoned = false ∧ x.queue ≠ 2 ^ 18) ∧
    (∃ (id : Nat) (data : List Byte) (ok : Bool) (x : Xfer) (u : State) (s : State), (s.hst.xfers.find? fun t => t.id = id) = some x ∧ { s with hst := { s.hst with xfers := s.hst.xfers.filter fun y => y.id ≠ id } } = u ∧ x.abandoned = false ∧ x.queue = 2 ^ 18) ∧
    (∃ (s : State), s.hostServes = false) ∧
    (∃ (u : State) (s : State), s.hostServes = true ∧ (s.forEach ((s.qm.slices.cells.filter fun e => e.2.state ≠ .free).map Prod.fst) fun s i => (if (s.slice i).state = .active then (s.startAction i 2 (s.squashable i)).startReset i true else s.modSlice i fun l => { l with toFree := true }).modSlice i fun l => { l with tdi := .unlocked, stream := none, tdiNonce := 0 }) = u) ∧
    (∃ (c : HostCfg) (s : State), s.hostServes = false) :=
  ⟨⟨1, [], true, up, by decide +kernel⟩,
   ⟨1, [], true, { id := 1, slice := 4, queue := 2, seq := 1, pasid := 7, addr := 0, len := 0, write := false, abandoned := true }, up, { up with hst := { up.hst with xfers := [{ id := 1, slice := 4, queue := 2, seq := 1, pasid := 7, addr := 0, len := 0, write := false, abandoned := true }] } }, by decide +kernel⟩,
   ⟨1, [], { id := 1, slice := 4, queue := 2, seq := 1, pasid := 7, addr := 0, len := 0, write := false }, up, { up with hst := { up.hst with xfers := [{ id := 1, slice := 4, queue := 2, seq := 1, pasid := 7, addr := 0, len := 0, write := false }] } }, by decide +kernel⟩,
   ⟨1, [], { id := 1, slice := 4, queue := 2, seq := 1, pasid := 7, addr := 0, len := 0, write := false }, up, { up with hst := { up.hst with xfers := [{ id := 1, slice := 4, queue := 2, seq := 1, pasid := 7, addr := 0, len := 0, write := false }] } }, by decide +kernel⟩,
   ⟨1, [], true, { id := 1, slice := 4, queue := 2 ^ 18, seq := 1, pasid := 7, addr := 0, len := 0, write := false }, up, { up with hst := { up.hst with xfers := [{ id := 1, slice := 4, queue := 2 ^ 18, seq := 1, pasid := 7, addr := 0, len := 0, write := false }] } }, by decide +kernel⟩,
   ⟨State.reset, by decide +kernel⟩,
   ⟨up, up, by decide +kernel⟩,
   ⟨.ats true, State.reset, by decide +kernel⟩⟩

theorem test_meets_HostTransfersAndFunction_2 :
    (∃ (s : State), s.hostServes = true) ∧
    (∃ (s : State), s.hostServes = true) ∧
    (∃ (on : Bool) (s : State), s.hostServes = true) ∧
    (∃ (s : State), s.hostServes = true) :=
  ⟨⟨up, by decide +kernel⟩,
   ⟨up, by decide +kernel⟩,
   ⟨true, up, by decide +kernel⟩,
   ⟨up, by decide +kernel⟩⟩

theorem test_meets_HostProtocols_1 :
    (∃ (m : Mgmt) (slice : Nat) (stream rid : Nat) (flags : BitVec 16) (s : State), s.tdHears m slice = true ∧ ((s.slice slice).tdi ≠ .unlocked ∨ (s.slice slice).state ≠ .active)) ∧
    (∃ (m : Mgmt) (slice : Nat) (stream rid : Nat) (flags : BitVec 16) (s : State), s.tdHears m slice = true ∧ (s.slice slice).tdi = .unlocked ∧ (s.slice slice).state = .active ∧ lockFlagsOk flags = true ∧ (64 ≤ stream ∨ s.hst.ide.contains (stream, rid) = false)) ∧
    (∃ (m : Mgmt) (slice stream rid : Nat) (flags : BitVec 16) (s : State), s.tdHears m slice = true ∧ (s.slice slice).tdi = .unlocked ∧ (s.slice slice).state = .active ∧ lockFlagsOk flags = true ∧ stream < 64 ∧ s.hst.ide.contains (stream, rid) = true ∧ (s.qm.slices.cells.any fun e => e.2.stream = some stream && e.2.bound && (s.slice slice).bound && e.2.dslot ≠ (s.slice slice).dslot) = false ∧ s.fbx.trngFailed = false) ∧
    (∃ (m : Mgmt) (slice stream rid : Nat) (flags : BitVec 16) (s : State), s.tdHears m slice = true ∧ (s.slice slice).tdi = .unlocked ∧ (s.slice slice).state = .active ∧ lockFlagsOk flags = false) ∧
    (∃ (m : Mgmt) (slice stream rid : Nat) (flags : BitVec 16) (s : State), s.tdHears m slice = true ∧ (s.slice slice).tdi = .unlocked ∧ (s.slice slice).state = .active ∧ lockFlagsOk flags = true ∧ stream < 64 ∧ s.hst.ide.contains (stream, rid) = true ∧ (s.qm.slices.cells.any fun e => e.2.stream = some stream && e.2.bound && (s.slice slice).bound && e.2.dslot ≠ (s.slice slice).dslot) = true) ∧
    (∃ (m : Mgmt) (slice stream rid : Nat) (flags : BitVec 16) (s : State), s.tdHears m slice = true ∧ (s.slice slice).tdi = .unlocked ∧ (s.slice slice).state = .active ∧ lockFlagsOk flags = true ∧ stream < 64 ∧ s.hst.ide.contains (stream, rid) = true ∧ (s.qm.slices.cells.any fun e => e.2.stream = some stream && e.2.bound && (s.slice slice).bound && e.2.dslot ≠ (s.slice slice).dslot) = false ∧ s.fbx.trngFailed = true) ∧
    (∃ (m : Mgmt) (slice : Nat) (nonce : BitVec 256) (s : State), s.tdHears m slice = true ∧ (s.slice slice).tdi ≠ .locked) ∧
    (∃ (m : Mgmt) (slice : Nat) (nonce : BitVec 256) (s : State), s.tdHears m slice = true ∧ (s.slice slice).tdi = .locked ∧ (s.slice slice).tdiNonce ≠ nonce) :=
  ⟨⟨{ secure := true }, 4, 3, 9, 0, up, by decide +kernel⟩,
   ⟨{ secure := true }, 4, 3, 9, 0, comm, by decide +kernel⟩,
   ⟨{ secure := true }, 4, 3, 9, 0, ({ comm with hst := { comm.hst with ide := [(3, 9)] } } : State), by decide +kernel⟩,
   ⟨{ secure := true }, 4, 3, 9, 0xFFFF, ({ comm with hst := { comm.hst with ide := [(3, 9)] } } : State), by decide +kernel⟩,
   ⟨{ secure := true }, 4, 3, 9, 0, (({ comm with hst := { comm.hst with ide := [(3, 9)] } } : State).modSlice 4 fun l => { l with bound := true }).setSlice 5 { state := .active, stream := some 3, bound := true, dslot := 2 }, by decide +kernel⟩,
   ⟨{ secure := true }, 4, 3, 9, 0, { ({ comm with hst := { comm.hst with ide := [(3, 9)] } } : State) with fbx := { up.fbx with trngFailed := true } }, by decide +kernel⟩,
   ⟨{ secure := true }, 4, 5, up, by decide +kernel⟩,
   ⟨{ secure := true }, 4, 5, comm.modSlice 4 fun l => { l with tdi := .locked }, by decide +kernel⟩⟩

theorem test_meets_HostProtocols_2 :
    (∃ (m : Mgmt) (slice : Nat) (nonce : BitVec 256) (s : State), s.tdHears m slice = true ∧ (s.slice slice).tdi = .locked ∧ (s.slice slice).tdiNonce = nonce) ∧
    (∃ (m : Mgmt) (slice : Nat) (s : State), s.tdHears m slice = true) ∧
    (∃ (m : Mgmt) (slice : Nat) (s : State), s.tdHears m slice = true ∧ ((s.slice slice).tdi = .locked ∨ (s.slice slice).tdi = .run)) ∧
    (∃ (m : Mgmt) (slice : Nat) (s : State), s.tdHears m slice = true ∧ (s.slice slice).tdi ≠ .locked ∧ (s.slice slice).tdi ≠ .run) ∧
    (∃ (m : Mgmt) (slice : Nat) (s : State), s.tdHears m slice = true) ∧
    (∃ (m : Mgmt) (s : State), s.tdHears m 0 = true) ∧
    (∃ (m : Mgmt) (s : State), s.tdHears m 0 = true) ∧
    (∃ (stream : Nat) (s : State), (s.hst.ide.any fun e => e.1 = stream) = true) :=
  ⟨⟨{ secure := true }, 4, 5, comm.modSlice 4 fun l => { l with tdi := .locked, tdiNonce := 5 }, by decide +kernel⟩,
   ⟨{ secure := true }, 4, comm.modSlice 4 fun l => { l with tdi := .run }, by decide +kernel⟩,
   ⟨{ secure := true }, 4, comm.modSlice 4 fun l => { l with tdi := .run }, by decide +kernel⟩,
   ⟨{ secure := true }, 4, up, by decide +kernel⟩,
   ⟨{ secure := true }, 4, up, by decide +kernel⟩,
   ⟨{ secure := true }, up, by decide +kernel⟩,
   ⟨{ secure := true }, up, by decide +kernel⟩,
   ⟨3, ({ comm with hst := { comm.hst with ide := [(3, 9)] } } : State), by decide +kernel⟩⟩

theorem test_meets_HostProtocols_3 :
    (∃ (stream : Nat) (s : State), (s.hst.ide.any fun e => e.1 = stream) = false) ∧
    (∃ (m : Mgmt) (st : Nat) (s : State), s.hostServes = true ∧ m.secure = true) ∧
    (∃ (m : Mgmt) (st : Nat) (s : State), s.hostServes = true ∧ m.secure = true ∧ 64 < st) ∧
    (∃ (m : Mgmt) (st : Nat) (s : State), s.hostServes = true ∧ m.secure = true ∧ st ≤ 64) ∧
    (∃ (m : Mgmt) (st rid : Nat) (s : State), s.hostServes = true ∧ m.secure = true ∧ s.hst.ideKeys.contains st = true) ∧
    (∃ (m : Mgmt) (st rid : Nat) (s : State), s.hostServes = true ∧ m.secure = true ∧ s.hst.ideKeys.contains st = false) ∧
    (∃ (m : Mgmt) (st : Nat) (s : State), s.hostServes = true ∧ m.secure = true) ∧
    (∃ (body : List Byte) (e : Nat) (s : State), 2 ≤ s.rst.step ∧ 2 ≤ body.length ∧ (body.getD 1 0).toNat = e ∧ 8 ≤ e ∧ e < 0xFF) :=
  ⟨⟨3, up, by decide +kernel⟩,
   ⟨{ secure := true }, 3, up, by decide +kernel⟩,
   ⟨{ secure := true }, 65, up, by decide +kernel⟩,
   ⟨{ secure := true }, 64, up, by decide +kernel⟩,
   ⟨{ secure := true }, 3, 9, { up with hst := { up.hst with ideKeys := [3] } }, by decide +kernel⟩,
   ⟨{ secure := true }, 3, 9, up, by decide +kernel⟩,
   ⟨{ secure := true }, 3, up, by decide +kernel⟩,
   ⟨[0, 9], 9, up, by decide +kernel⟩⟩

theorem test_meets_HostProtocols_4 :
    (∃ (body : List Byte) (e : Nat) (s : State), 2 ≤ s.rst.step ∧ 2 ≤ body.length ∧ (body.getD 1 0).toNat = e ∧ (e < 8 ∨ e = 0xFF)) ∧
    (∃ (body : List Byte) (s : State), 2 ≤ s.rst.step) ∧
    (∃ (body : List Byte) (s : State), 2 ≤ s.rst.step ∧ 1 ≤ body.length ∧ [0xFF, 0, 5, 6].contains (body.getD 0 0).toNat = true) ∧
    (∃ (body : List Byte) (s : State), 2 ≤ s.rst.step) ∧
    (∃ (body : List Byte) (s : State), 2 ≤ s.rst.step ∧ body.length < 2) ∧
    (∃ (body : List Byte) (s : State), 2 ≤ s.rst.step ∧ body.length < 1) ∧
    (∃ (body : List Byte) (s : State), 2 ≤ s.rst.step ∧ 1 ≤ body.length ∧ [0xFF, 0, 5, 6].contains (body.getD 0 0).toNat = false) ∧
    (∃ (command : BitVec 8) (body : List Byte) (s : State), 2 ≤ s.rst.step ∧ command.toNat ≠ 1 ∧ command.toNat ≠ 2 ∧ command.toNat ≠ 4 ∧ command.toNat ≠ 5) :=
  ⟨⟨[0, 7], 7, up, by decide +kernel⟩,
   ⟨[], up, by decide +kernel⟩,
   ⟨[5], up, by decide +kernel⟩,
   ⟨[], up, by decide +kernel⟩,
   ⟨[], up, by decide +kernel⟩,
   ⟨[], up, by decide +kernel⟩,
   ⟨[9], up, by decide +kernel⟩,
   ⟨9, [], up, by decide +kernel⟩⟩

theorem test_meets_HostProtocols_5 :
    (∃ (command : BitVec 8) (body : List Byte) (s : State), s.rst.step < 2) ∧
    (∃ (m : Mgmt) (k : IdeKm) (s : State), (s.hostServes = false ∨ m.secure = false)) :=
  ⟨⟨9, [], State.reset, by decide +kernel⟩,
   ⟨{}, .stop 3, up, by decide +kernel⟩⟩

theorem test_meets_SiteLinksAndWindows_1 :
    (∃ (site : Nat) (s : State), site < 8 ∧ (s.site site).linkUp = false ∧ (s.setSite site { s.site site with linkUp := true }).siteUp = true ∧ (s.setSite site { s.site site with linkUp := true }).clkRuns (.dclk site) = true ∧ (s.site site).state ≠ .probing) ∧
    (∃ (site : Nat) (s : State), site < 8 ∧ (s.site site).linkUp = false ∧ ((s.setSite site { s.site site with linkUp := true }).siteUp = false ∨ (s.setSite site { s.site site with linkUp := true }).clkRuns (.dclk site) = false ∨ (s.site site).state = .probing)) ∧
    (∃ (site : Nat) (s : State), (8 ≤ site ∨ (s.site site).linkUp = true)) ∧
    (∃ (site : Nat) (rsp : SiteRsp) (s : State), (s.site site).state ≠ .probing) ∧
    (∃ (site : Nat) (s : State), (s.site site).state = .probing ∧ (s.site site).step = 1) ∧
    (∃ (site : Nat) (s : State), (s.site site).state = .probing ∧ (s.site site).step = 1) ∧
    (∃ (site : Nat) (e : Nat) (s : State), (s.site site).state = .probing ∧ (s.site site).step = 2) ∧
    (∃ (site : Nat) (cert meas : Bool) (e : Nat) (s : State), (s.site site).state = .probing ∧ (s.site site).step = 2 ∧ (cert && meas) = false) :=
  ⟨⟨2, up, by decide +kernel⟩,
   ⟨2, State.reset, by decide +kernel⟩,
   ⟨9, up, by decide +kernel⟩,
   ⟨2, .digests, up, by decide +kernel⟩,
   ⟨2, up.setSite 2 { state := .probing, step := 1 }, by decide +kernel⟩,
   ⟨2, up.setSite 2 { state := .probing, step := 1 }, by decide +kernel⟩,
   ⟨2, 3, up.setSite 2 { state := .probing, step := 2 }, by decide +kernel⟩,
   ⟨2, true, false, 3, up.setSite 2 { state := .probing, step := 2 }, by decide +kernel⟩⟩

theorem test_meets_SiteLinksAndWindows_2 :
    (∃ (site : Nat) (s : State), (s.site site).state = .probing ∧ (s.site site).step = 3) ∧
    (∃ (site : Nat) (s : State), (s.site site).state = .probing ∧ (s.site site).step = 3) ∧
    (∃ (site : Nat) (s : State), (s.site site).state = .probing ∧ (s.site site).step = 4) ∧
    (∃ (site : Nat) (s : State), (s.site site).state = .probing ∧ (s.site site).step = 4) ∧
    (∃ (site : Nat) (bytes certs : Nat) (root : BitVec 384) (verifies leafSigns : Bool) (key : Nat × Nat) (s : State), (s.site site).state = .probing ∧ (s.site site).step = 5 ∧ s.chainAccepted bytes certs root verifies leafSigns = false) ∧
    (∃ (site : Nat) (bytes certs : Nat) (root : BitVec 384) (verifies leafSigns : Bool) (key : Nat × Nat) (s : State), (s.site site).state = .probing ∧ (s.site site).step = 5 ∧ s.chainAccepted bytes certs root verifies leafSigns = true) ∧
    (∃ (site : Nat) (r x h m y : List Byte) (g : Nat × Nat) (s : State), (s.site site).state = .probing ∧ (s.site site).step = 6 ∧ ecVerify (s.site site).leafKey g ((s.site site).signed r x h m y) = true) ∧
    (∃ (site : Nat) (r x h m y : List Byte) (g : Nat × Nat) (s : State), (s.site site).state = .probing ∧ (s.site site).step = 6 ∧ ecVerify (s.site site).leafKey g ((s.site site).signed r x h m y) = false) :=
  ⟨⟨2, up.setSite 2 { state := .probing, step := 3 }, by decide +kernel⟩,
   ⟨2, up.setSite 2 { state := .probing, step := 3 }, by decide +kernel⟩,
   ⟨2, up.setSite 2 { state := .probing, step := 4 }, by decide +kernel⟩,
   ⟨2, up.setSite 2 { state := .probing, step := 4 }, by decide +kernel⟩,
   ⟨2, 0, 0, 0, false, false, (0, 0), up.setSite 2 { state := .probing, step := 5 }, by decide +kernel⟩,
   ⟨1, 0, 0, 7, true, true, (0, 0), { up.setSite 1 { up.site 1 with state := .probing, step := 5 } with boot := { up.boot with anchors := [7] } }, by decide +kernel⟩,
   ⟨2, [], goodLead, [], [], [], goodSig, up.setSite 2 { state := .probing, step := 6, leafKey := goodKey }, by decide +kernel⟩,
   ⟨2, [], [], [], [], [], (0, 0), up.setSite 2 { state := .probing, step := 6 }, by decide +kernel⟩⟩

theorem test_meets_SiteLinksAndWindows_3 :
    (∃ (site : Nat) (rsp : SiteRsp) (s : State), (s.site site).state = .probing ∧ ((match rsp with | .version _ => 1 | .capabilities _ _ _ => 2 | .algorithms _ => 3 | .digests => 4 | .certificate _ _ _ _ _ _ => 5 | .measurements _ _ _ _ _ _ => 6 | .error => 0) ≠ (s.site site).step ∨ rsp = .error)) ∧
    (∃ (site : Nat) (s : State), ((s.site site).state ≠ .probing ∨ s.sys.now < (s.site site).due)) ∧
    (∃ (site : Nat) (s : State), (s.site site).state ≠ .admitted ∧ (s.site site).state ≠ .probing) ∧
    (∃ (site : Nat) (s : State), (s.site site).state = .probing ∧ (s.site site).due ≤ s.sys.now ∧ (s.site site).sends < 3) ∧
    (∃ (site : Nat) (s : State), (s.site site).state = .probing ∧ (s.site site).due ≤ s.sys.now ∧ 3 ≤ (s.site site).sends) ∧
    (∃ (site : Nat) (s : State), (s.site site).state = .admitted) ∧
    (∃ (site : Nat) (s : State), (s.site site).state = .probing) ∧
    (∃ (r : Req) (path : Option Nat) (v : BitVec 32) (t : State) (s : State), s.served r (swCmdOff path) = true ∧ s.swAdmits r path = true ∧ s.dropHeld r = t ∧ swOp v = 1 ∧ t.swOwns path (t.site (swSite v)) = false) :=
  ⟨⟨2, .error, up.setSite 2 { state := .probing, step := 4 }, by decide +kernel⟩,
   ⟨2, up, by decide +kernel⟩,
   ⟨2, up, by decide +kernel⟩,
   ⟨2, up.setSite 2 { state := .probing }, by decide +kernel⟩,
   ⟨2, up.setSite 2 { state := .probing, sends := 3 }, by decide +kernel⟩,
   ⟨2, up.setSite 2 { state := .admitted }, by decide +kernel⟩,
   ⟨2, up.setSite 2 { state := .probing }, by decide +kernel⟩,
   ⟨kern, none, 1 * 2 ^ 19, ((up.setSite 0 { up.site 0 with state := .admitted, inSlot := true })).dropHeld kern, (up.setSite 0 { up.site 0 with state := .admitted, inSlot := true }), by decide +kernel⟩⟩

theorem test_meets_SiteLinksAndWindows_4 :
    (∃ (r : Req) (path : Option Nat) (v : BitVec 32) (t : State) (s : State), s.served r (swCmdOff path) = true ∧ s.swAdmits r path = true ∧ s.dropHeld r = t ∧ swOp v = 2 ∧ t.swOwns path (t.site (swSite v)) = false) ∧
    (∃ (r : Req) (path : Option Nat) (v : BitVec 32) (t : State) (s : State), s.served r (swCmdOff path) = true ∧ s.swAdmits r path = true ∧ s.dropHeld r = t ∧ swOp v = 3 ∧ t.swOwns path (t.site (swSite v)) = false) ∧
    (∃ (r : Req) (path : Option Nat) (v : BitVec 32) (t : State) (s : State), s.served r (swCmdOff path) = true ∧ s.swAdmits r path = true ∧ s.dropHeld r = t ∧ swOp v = 4 ∧ t.swOwns path (t.site (swSite v)) = false) ∧
    (∃ (r : Req) (path : Option Nat) (v : BitVec 32) (t : State) (s : State), s.served r (swCmdOff path) = true ∧ s.swAdmits r path = true ∧ s.dropHeld r = t ∧ swOp v = 1 ∧ t.swOwns path (t.site (swSite v)) = true ∧ (winOfRange (t.swRangeOf path) (swKid v)).okFields = false) ∧
    (∃ (r : Req) (path : Option Nat) (v : BitVec 32) (t : State) (s : State), s.served r (swCmdOff path) = true ∧ s.swAdmits r path = true ∧ s.dropHeld r = t ∧ swOp v = 1 ∧ t.swOwns path (t.site (swSite v)) = true ∧ (winOfRange (t.swRangeOf path) (swKid v)).okFields = true ∧ t.swKidOk path (winOfRange (t.swRangeOf path) (swKid v)).kid = false) ∧
    (∃ (r : Req) (path : Option Nat) (v : BitVec 32) (t : State) (s : State), s.served r (swCmdOff path) = true ∧ s.swAdmits r path = true ∧ s.dropHeld r = t ∧ swOp v = 1 ∧ t.swOwns path (t.site (swSite v)) = true ∧ (winOfRange (t.swRangeOf path) (swKid v)).okFields = true ∧ t.swKidOk path (winOfRange (t.swRangeOf path) (swKid v)).kid = true) ∧
    (∃ (r : Req) (path : Option Nat) (v : BitVec 32) (t : State) (s : State), s.served r (swCmdOff path) = true ∧ s.swAdmits r path = true ∧ s.dropHeld r = t ∧ swOp v = 2 ∧ t.swOwns path (t.site (swSite v)) = true) ∧
    (∃ (r : Req) (path : Option Nat) (v : BitVec 32) (t : State) (s : State), s.served r (swCmdOff path) = true ∧ s.swAdmits r path = true ∧ s.dropHeld r = t ∧ swOp v = 3 ∧ t.swOwns path (t.site (swSite v)) = true) :=
  ⟨⟨kern, none, 2 * 2 ^ 19, ((up.setSite 0 { up.site 0 with state := .admitted, inSlot := true })).dropHeld kern, (up.setSite 0 { up.site 0 with state := .admitted, inSlot := true }), by decide +kernel⟩,
   ⟨kern, none, 3 * 2 ^ 19, ((up.setSite 0 { up.site 0 with state := .admitted, inSlot := true })).dropHeld kern, (up.setSite 0 { up.site 0 with state := .admitted, inSlot := true }), by decide +kernel⟩,
   ⟨kern, none, 4 * 2 ^ 19, ((up.setSite 0 { up.site 0 with state := .admitted, inSlot := true })).dropHeld kern, (up.setSite 0 { up.site 0 with state := .admitted, inSlot := true }), by decide +kernel⟩,
   ⟨kern, none, 2 ^ 19, (({ up with hst := { up.hst with swkRange := 3 } } : State)).dropHeld kern, ({ up with hst := { up.hst with swkRange := 3 } } : State), by decide +kernel⟩,
   ⟨kern, none, 2 ^ 19 + 5 * 2 ^ 7, (({ up with hst := { up.hst with swkRange := 2 ^ 20 + 2 ^ 37 } } : State)).dropHeld kern, ({ up with hst := { up.hst with swkRange := 2 ^ 20 + 2 ^ 37 } } : State), by decide +kernel⟩,
   ⟨kern, none, 2 ^ 19, (({ up with hst := { up.hst with swkRange := 2 ^ 20 + 2 ^ 37 } } : State)).dropHeld kern, ({ up with hst := { up.hst with swkRange := 2 ^ 20 + 2 ^ 37 } } : State), by decide +kernel⟩,
   ⟨kern, none, 2 * 2 ^ 19, (up).dropHeld kern, up, by decide +kernel⟩,
   ⟨kern, none, 3 * 2 ^ 19, (up).dropHeld kern, up, by decide +kernel⟩⟩

theorem test_meets_SiteLinksAndWindows_5 :
    (∃ (r : Req) (path : Option Nat) (v : BitVec 32) (t : State) (s : State), s.served r (swCmdOff path) = true ∧ s.swAdmits r path = true ∧ s.dropHeld r = t ∧ swOp v = 4 ∧ t.swOwns path (t.site (swSite v)) = true ∧ path = none ∧ (t.site (swSite v)).state ≠ .probing) ∧
    (∃ (r : Req) (path : Option Nat) (v : BitVec 32) (t : State) (s : State), s.served r (swCmdOff path) = true ∧ s.swAdmits r path = true ∧ s.dropHeld r = t ∧ swOp v = 4 ∧ t.swOwns path (t.site (swSite v)) = true ∧ path = none ∧ (t.site (swSite v)).state = .probing) ∧
    (∃ (r : Req) (path : Option Nat) (v : BitVec 32) (t : State) (s : State), s.served r (swCmdOff path) = true ∧ s.swAdmits r path = true ∧ s.dropHeld r = t ∧ swOp v = 4 ∧ t.swOwns path (t.site (swSite v)) = true ∧ path.isSome = true) ∧
    (∃ (r : Req) (path : Option Nat) (v : BitVec 32) (t : State) (s : State), s.served r (swCmdOff path) = true ∧ s.swAdmits r path = true ∧ s.dropHeld r = t ∧ swOp v ≠ 1) ∧
    (∃ (r : Req) (path : Option Nat) (v : BitVec 32) (t : State) (s : State), s.served r (swCmdOff path) = true ∧ s.swAdmits r path = true ∧ s.dropHeld r = t ∧ swOp v ≠ 2) ∧
    (∃ (r : Req) (path : Option Nat) (v : BitVec 32) (t : State) (s : State), s.served r (swCmdOff path) = true ∧ s.swAdmits r path = true ∧ s.dropHeld r = t ∧ swOp v ≠ 3) ∧
    (∃ (r : Req) (path : Option Nat) (v : BitVec 32) (t : State) (s : State), s.served r (swCmdOff path) = true ∧ s.swAdmits r path = true ∧ s.dropHeld r = t ∧ swOp v ≠ 4) :=
  ⟨⟨kern, none, 4 * 2 ^ 19, (up).dropHeld kern, up, by decide +kernel⟩,
   ⟨kern, none, 4 * 2 ^ 19 + 1, ((up.setSite 1 { up.site 1 with state := .probing })).dropHeld kern, (up.setSite 1 { up.site 1 with state := .probing }), by decide +kernel⟩,
   ⟨{ pasid := some 7, stream := some 3, tbit := true }, some 4, 4 * 2 ^ 19, (((({ comm with hst := { comm.hst with ide := [(3, 9)] } } : State).modSlice 4 fun l => { l with bound := true, tdi := .run, stream := some 3 }).setSite 0 { comm.site 0 with inSlot := true })).dropHeld { pasid := some 7, stream := some 3, tbit := true }, ((({ comm with hst := { comm.hst with ide := [(3, 9)] } } : State).modSlice 4 fun l => { l with bound := true, tdi := .run, stream := some 3 }).setSite 0 { comm.site 0 with inSlot := true }), by decide +kernel⟩,
   ⟨kern, none, 0, up.dropHeld kern, up, by decide +kernel⟩,
   ⟨kern, none, 0, up.dropHeld kern, up, by decide +kernel⟩,
   ⟨kern, none, 0, up.dropHeld kern, up, by decide +kernel⟩,
   ⟨kern, none, 0, up.dropHeld kern, up, by decide +kernel⟩⟩

theorem test_meets_BridgeControl_1 :
    (∃ (t : State) (s : State), s.bridgeUp = true ∧ s.hst.beatAt + 1000000 ≤ s.sys.now ∧ { s with hst := { s.hst with beatAt := s.now } } = t ∧ s.hst.electing = false ∧ 5 ≤ s.rst.step) ∧
    (∃ (pos : Nat) (u : State) (s : State), s.peers.contains pos = true ∧ s.hst.electing = false ∧ s.hst.heardAt.get 0 pos + 20000000 ≤ s.sys.now ∧ (({ s with hst := { s.hst with lost := s.hst.lost ||| ((1 : BitVec 8) <<< pos), group := if pos = s.hst.leadPos then .leadLost else s.hst.group }, dom := { s.dom with compositeOk := false } } : State).record 0xA1 (0x50 + pos) [(1, 0), (1, 2 ^ pos)]) = u) ∧
    (∃ (pos : Nat) (s : State), s.peers.contains pos = false) ∧
    (∃ (h : Hello) (s : State), (8 ≤ h.pos ∨ h.pos = s.pos)) ∧
    (∃ (h : Hello) (t : State) (s : State), s.bridgeUp = true ∧ h.pos < 8 ∧ h.pos ≠ s.pos ∧ h.rejoin = none ∧ s.hst.electing = true ∧ s.heardPos h.pos = t) ∧
    (∃ (h : Hello) (t : State) (s : State), s.bridgeUp = true ∧ h.pos < 8 ∧ h.pos ≠ s.pos ∧ h.rejoin = none ∧ s.hst.electing = false ∧ (s.hst.present.getLsbD h.pos = false ∨ s.hst.lost.getLsbD h.pos = true) ∧ (allSlots.all fun i => (s.slot i).state = .empty) = true ∧ s.openElection.heardPos h.pos = t) ∧
    (∃ (h : Hello) (lead : Nat) (serial : BitVec 64) (z : _) (s : State), s.bridgeUp = true ∧ h.pos < 8 ∧ h.pos ≠ s.pos ∧ h.rejoin = some (lead, serial, z) ∧ s.rejoins h lead serial = true) ∧
    (∃ (s : State), s.hst.electing = false) :=
  ⟨⟨{ ({ up with sys := { up.sys with now := 10 ^ 9 }, hst := { up.hst with present := 3, electing := false } }) with hst := { ({ up with sys := { up.sys with now := 10 ^ 9 }, hst := { up.hst with present := 3, electing := false } } : State).hst with beatAt := 10 ^ 9 } }, { up with sys := { up.sys with now := 10 ^ 9 }, hst := { up.hst with present := 3, electing := false } }, by decide +kernel⟩,
   ⟨1, State.record { pair with hst := { pair.hst with lost := 2 }, dom := { pair.dom with compositeOk := false } } 0xA1 (0x50 + 1) [(1, 0), (1, 2)], pair, by decide +kernel⟩,
   ⟨3, up, by decide +kernel⟩,
   ⟨{ pos := 9, serial := 5, pkgSize := 1, lc := 2 }, up, by decide +kernel⟩,
   ⟨{ pos := 1, serial := 5, pkgSize := 1, lc := 2 }, ({ pair with hst := { pair.hst with electing := true } } : State).heardPos 1, { pair with hst := { pair.hst with electing := true } }, by decide +kernel⟩,
   ⟨{ pos := 1, serial := 5, pkgSize := 1, lc := 2 }, late.openElection.heardPos 1, late, by decide +kernel⟩,
   ⟨{ pos := 1, serial := 5, pkgSize := 1, lc := 2, rejoin := some (0, 0, 3) }, 0, 0, 3, { pair with hst := { pair.hst with lost := 2, hellos := [(1, 5, 1, 2)] } }, by decide +kernel⟩,
   ⟨up, by decide +kernel⟩⟩

theorem test_meets_BridgeControl_2 :
    (∃ (s : State), s.hst.electing = true ∧ s.hst.hellos.length + 1 < s.positions ∧ s.sys.now < s.hst.electBy) ∧
    (∃ (s : State), s.hst.electing = true ∧ s.hst.hellos = [] ∧ s.hst.electBy ≤ s.sys.now) ∧
    (∃ (msg : BrCtl) (s : State), s.peers.contains (brPos msg) = false) ∧
    (∃ (h : Nat) (s : State), s.bridgeUp = true ∧ s.peers.contains h = true) ∧
    (∃ (h w : Nat) (t : State) (s : State), s.bridgeUp = true ∧ s.peers.contains h = true ∧ s.heardPos h = t ∧ t.isLead = true) ∧
    (∃ (h i : Nat) (ok : Bool) (s : State), s.bridgeUp = true ∧ s.peers.contains h = true) ∧
    (∃ (s : State), (s.bridgeUp = false ∨ s.sys.now < s.hst.beatAt + 1000000)) ∧
    (∃ (t u : State) (s : State), s.bridgeUp = true ∧ s.hst.beatAt + 1000000 ≤ s.sys.now ∧ { s with hst := { s.hst with beatAt := s.now } } = t ∧ t.hst.electing = true ∧ (t.forEach ((List.range t.positions).filter fun h => h ≠ t.pos) fun s h => s.toPeer h bkHello (s.helloVals false)) = u ∧ 5 ≤ u.rst.step) :=
  ⟨⟨{ up with sys := { up.sys with pkgSize := 2 }, hst := { up.hst with electing := true, electBy := 5 } }, by decide +kernel⟩,
   ⟨{ up with sys := { up.sys with now := 10 ^ 9 }, hst := { up.hst with present := 3, electing := true } }, by decide +kernel⟩,
   ⟨.heartbeat 5, up, by decide +kernel⟩,
   ⟨1, { up with sys := { up.sys with now := 10 ^ 9 }, hst := { up.hst with present := 3, electing := false } }, by decide +kernel⟩,
   ⟨1, 5, pair.heardPos 1, pair, by decide +kernel⟩,
   ⟨1, 3, true, { up with sys := { up.sys with now := 10 ^ 9 }, hst := { up.hst with present := 3, electing := false } }, by decide +kernel⟩,
   ⟨State.reset, by decide +kernel⟩,
   ⟨({ ({ up with  sys := { up.sys with now := 10 ^ 9 }, hst := { up.hst with present := 3, electing := true } }) with hst := { ({ up with  sys := { up.sys with now := 10 ^ 9 }, hst := { up.hst with present := 3, electing := true } } : State).hst with beatAt := 10 ^ 9 } } : State), ({ ({ up with  sys := { up.sys with now := 10 ^ 9 }, hst := { up.hst with present := 3, electing := true } }) with hst := { ({ up with  sys := { up.sys with now := 10 ^ 9 }, hst := { up.hst with present := 3, electing := true } } : State).hst with beatAt := 10 ^ 9 } } : State).forEach ((List.range ({ ({ up with  sys := { up.sys with now := 10 ^ 9 }, hst := { up.hst with present := 3, electing := true } }) with hst := { ({ up with  sys := { up.sys with now := 10 ^ 9 }, hst := { up.hst with present := 3, electing := true } } : State).hst with beatAt := 10 ^ 9 } } : State).positions).filter fun h => h ≠ ({ ({ up with  sys := { up.sys with now := 10 ^ 9 }, hst := { up.hst with present := 3, electing := true } }) with hst := { ({ up with  sys := { up.sys with now := 10 ^ 9 }, hst := { up.hst with present := 3, electing := true } } : State).hst with beatAt := 10 ^ 9 } } : State).pos) fun s h => s.toPeer h bkHello (s.helloVals false), { up with  sys := { up.sys with now := 10 ^ 9 }, hst := { up.hst with present := 3, electing := true } }, by decide +kernel⟩⟩

theorem test_meets_BridgeControl_3 :
    (∃ (t u : State) (s : State), s.bridgeUp = true ∧ s.hst.beatAt + 1000000 ≤ s.sys.now ∧ { s with hst := { s.hst with beatAt := s.now } } = t ∧ t.hst.electing = true ∧ (t.forEach ((List.range t.positions).filter fun h => h ≠ t.pos) fun s h => s.toPeer h bkHello (s.helloVals false)) = u ∧ u.rst.step < 5) ∧
    (∃ (t : State) (s : State), s.bridgeUp = true ∧ s.hst.beatAt + 1000000 ≤ s.sys.now ∧ { s with hst := { s.hst with beatAt := s.now } } = t ∧ s.hst.electing = false ∧ s.rst.step < 5) ∧
    (∃ (pos : Nat) (s : State), (s.hst.electing = true ∨ s.sys.now < s.hst.heardAt.get 0 pos + 20000000)) ∧
    (∃ (h : Hello) (lead : Nat) (serial : BitVec 64) (z : BitVec 8) (s : State), s.bridgeUp = true ∧ h.pos < 8 ∧ h.pos ≠ s.pos ∧ h.rejoin = some (lead, serial, z) ∧ s.rejoins h lead serial = false) ∧
    (∃ (h : Hello) (s : State), s.bridgeUp = true ∧ h.pos < 8 ∧ h.pos ≠ s.pos ∧ h.rejoin = none ∧ s.hst.electing = false ∧ ((s.hst.present.getLsbD h.pos = true ∧ s.hst.lost.getLsbD h.pos = false) ∨ (allSlots.all fun i => (s.slot i).state = .empty) = false)) ∧
    (∃ (good : List (Nat × BitVec 64 × Nat × Nat)) (all : List (Nat × BitVec 64)) (lead : Nat × BitVec 64) (u : State) (s : State), s.hst.electing = true ∧ (s.positions ≤ s.hst.hellos.length + 1 ∨ s.hst.electBy ≤ s.sys.now) ∧ s.hst.hellos.filter (fun (e : Nat × BitVec 64 × Nat × Nat) => decide (e.2.2.1 = s.sys.pkgSize.toNat) && decide (e.2.2.2 = s.lcCode) && decide (e.1 < s.positions)) = good ∧ (s.pos, s.lc.serial) :: good.map (fun e => (e.1, e.2.1)) = all ∧ all.foldl (fun (a b : Nat × BitVec 64) => if b.1 < a.1 then b else a) (s.pos, s.lc.serial) = lead ∧ (s.hst.hellos.filter fun e => !((fun (e : Nat × BitVec 64 × Nat × Nat) => decide (e.2.2.1 = s.sys.pkgSize.toNat) && decide (e.2.2.2 = s.lcCode) && decide (e.1 < s.positions))) e).foldl (fun s e => s.record 0xA1 srcStoker [(1, 1), (1, 2 ^ e.1)]) s = u) ∧
    (∃ (msg : BrCtl) (s : State), s.bridgeUp = false) ∧
    (∃ (h w : Nat) (t : State) (s : State), s.bridgeUp = true ∧ s.peers.contains h = true ∧ s.heardPos h = t ∧ t.isLead = false) :=
  ⟨⟨({ ({ up with rst := { up.rst with step := 4, phase := .ready },  sys := { up.sys with now := 10 ^ 9 }, hst := { up.hst with present := 3, electing := true } }) with hst := { ({ up with rst := { up.rst with step := 4, phase := .ready },  sys := { up.sys with now := 10 ^ 9 }, hst := { up.hst with present := 3, electing := true } } : State).hst with beatAt := 10 ^ 9 } } : State), ({ ({ up with rst := { up.rst with step := 4, phase := .ready },  sys := { up.sys with now := 10 ^ 9 }, hst := { up.hst with present := 3, electing := true } }) with hst := { ({ up with rst := { up.rst with step := 4, phase := .ready },  sys := { up.sys with now := 10 ^ 9 }, hst := { up.hst with present := 3, electing := true } } : State).hst with beatAt := 10 ^ 9 } } : State).forEach ((List.range ({ ({ up with rst := { up.rst with step := 4, phase := .ready },  sys := { up.sys with now := 10 ^ 9 }, hst := { up.hst with present := 3, electing := true } }) with hst := { ({ up with rst := { up.rst with step := 4, phase := .ready },  sys := { up.sys with now := 10 ^ 9 }, hst := { up.hst with present := 3, electing := true } } : State).hst with beatAt := 10 ^ 9 } } : State).positions).filter fun h => h ≠ ({ ({ up with rst := { up.rst with step := 4, phase := .ready },  sys := { up.sys with now := 10 ^ 9 }, hst := { up.hst with present := 3, electing := true } }) with hst := { ({ up with rst := { up.rst with step := 4, phase := .ready },  sys := { up.sys with now := 10 ^ 9 }, hst := { up.hst with present := 3, electing := true } } : State).hst with beatAt := 10 ^ 9 } } : State).pos) fun s h => s.toPeer h bkHello (s.helloVals false), { up with rst := { up.rst with step := 4, phase := .ready },  sys := { up.sys with now := 10 ^ 9 }, hst := { up.hst with present := 3, electing := true } }, by decide +kernel⟩,
   ⟨({ ({ up with rst := { up.rst with step := 4, phase := .ready },  sys := { up.sys with now := 10 ^ 9 }, hst := { up.hst with present := 3, electing := false } }) with hst := { ({ up with rst := { up.rst with step := 4, phase := .ready },  sys := { up.sys with now := 10 ^ 9 }, hst := { up.hst with present := 3, electing := false } } : State).hst with beatAt := 10 ^ 9 } } : State), { up with rst := { up.rst with step := 4, phase := .ready },  sys := { up.sys with now := 10 ^ 9 }, hst := { up.hst with present := 3, electing := false } }, by decide +kernel⟩,
   ⟨3, up, by decide +kernel⟩,
   ⟨{ pos := 1, serial := 5, pkgSize := 1, lc := 2, rejoin := some (0, 0, 3) }, 0, 0, 3, pair, by decide +kernel⟩,
   ⟨{ pos := 1, serial := 5, pkgSize := 1, lc := 2 }, pair, by decide +kernel⟩,
   ⟨[], [((({ up with sys := { up.sys with now := 10 ^ 9 }, hst := { up.hst with present := 3, electing := true } }) : State).pos, (({ up with sys := { up.sys with now := 10 ^ 9 }, hst := { up.hst with present := 3, electing := true } }) : State).lc.serial)], ((({ up with sys := { up.sys with now := 10 ^ 9 }, hst := { up.hst with present := 3, electing := true } }) : State).pos, (({ up with sys := { up.sys with now := 10 ^ 9 }, hst := { up.hst with present := 3, electing := true } }) : State).lc.serial), ({ up with sys := { up.sys with now := 10 ^ 9 }, hst := { up.hst with present := 3, electing := true } }), ({ up with sys := { up.sys with now := 10 ^ 9 }, hst := { up.hst with present := 3, electing := true } }), by decide +kernel⟩,
   ⟨.heartbeat 5, State.reset, by decide +kernel⟩,
   ⟨1, 5, ({ up with sys := { up.sys with now := 10 ^ 9 }, hst := { up.hst with present := 3, electing := false, leadPos := 1 } }).heardPos 1, { up with sys := { up.sys with now := 10 ^ 9 }, hst := { up.hst with present := 3, electing := false, leadPos := 1 } }, by decide +kernel⟩⟩

theorem test_meets_BridgeControl_4 :
    (∃ (x : MemberStmt) (sites : BitVec 16) (s : State), s.bridgeUp = true ∧ s.peers.contains x.pos = true) ∧
    (∃ (msg : BrCtl) (t : State) (s : State), s.bridgeUp = true ∧ s.peers.contains (brPos msg) = true ∧ (match msg with | .heartbeat _ => false | .demand _ _ => false | .confirm _ _ _ => false | .statement _ _ => false | _ => true) = true ∧ s.heardPos (brPos msg) = t) :=
  ⟨⟨{ pos := 1, stmt := [], sig := (0, 0), key := (0, 0), chainOk := false }, 0, { up with sys := { up.sys with now := 10 ^ 9 }, hst := { up.hst with present := 3, electing := false } }, by decide +kernel⟩,
   ⟨.mapGen 1 3, ({ up with sys := { up.sys with now := 10 ^ 9 }, hst := { up.hst with present := 3, electing := false } }).heardPos 1, { up with sys := { up.sys with now := 10 ^ 9 }, hst := { up.hst with present := 3, electing := false } }, by decide +kernel⟩⟩

theorem test_meets_CipherRegisters_1 :
    (∃ (r : Req) (page : Nat) (w t : State) (s : State), s.wakeCipher r page = w ∧ w.served r (cePageAt page + 0x808) = true ∧ ceKernel r page = true ∧ w.dropHeld r = t ∧ (t.cePage page).pgRes ≠ 1 ∧ (t.cePage page).state ≠ .free) ∧
    (∃ (r : Req) (page : Nat) (w t : State) (s : State), s.wakeCipher r page = w ∧ w.served r (cePageAt page + 0x808) = true ∧ ceKernel r page = true ∧ w.dropHeld r = t ∧ (t.cePage page).pgRes ≠ 1 ∧ (t.cePage page).state = .free ∧ (t.slice (t.cePage page).pgCfg).state ≠ .active) ∧
    (∃ (r : Req) (page : Nat) (w t : State) (s : State), s.wakeCipher r page = w ∧ w.served r (cePageAt page + 0x808) = true ∧ ceKernel r page = true ∧ w.dropHeld r = t ∧ (t.cePage page).pgRes ≠ 1 ∧ (t.cePage page).state = .free ∧ (t.slice (t.cePage page).pgCfg).state = .active) ∧
    (∃ (r : Req) (page : Nat) (t : State) (s : State), s.served r (cePageAt page + 0x808) = true ∧ ceKernel r page = true ∧ s.dropHeld r = t ∧ (t.cePage page).pgRes ≠ 1 ∧ (t.cePage page).state = .free) ∧
    (∃ (r : Req) (page : Nat) (t : State) (s : State), s.served r (cePageAt page + 0x808) = true ∧ ceKernel r page = true ∧ s.dropHeld r = t ∧ (t.cePage page).pgRes ≠ 1 ∧ (t.cePage page).state ≠ .free) ∧
    (∃ (r : Req) (page : Nat) (t : State) (s : State), s.served r (cePageAt page + 0x40) = true ∧ s.ceOwner r page = true ∧ s.dropHeld r = t ∧ (t.cePage page).state = .free) ∧
    (∃ (r : Req) (page : Nat) (t : State) (s : State), s.served r (cePageAt page + 0x40) = true ∧ s.ceOwner r page = true ∧ s.dropHeld r = t ∧ (t.cePage page).state ≠ .free ∧ (t.slice (t.cePage page).slice).bound = true) ∧
    (∃ (r : Req) (page : Nat) (t : State) (s : State), s.served r (cePageAt page + 0x40) = true ∧ s.ceOwner r page = true ∧ s.dropHeld r = t ∧ (t.cePage page).state ≠ .free ∧ (t.slice (t.cePage page).slice).bound = false ∧ t.fbx.trngFailed = true) :=
  ⟨⟨kern, 3, (comm.setCePage 3 { slice := 4, state := .empty }).wakeCipher kern 3, ((comm.setCePage 3 { slice := 4, state := .empty }).wakeCipher kern 3).dropHeld kern, comm.setCePage 3 { slice := 4, state := .empty }, by decide +kernel⟩,
   ⟨kern, 3, (up).wakeCipher kern 3, ((up).wakeCipher kern 3).dropHeld kern, up, by decide +kernel⟩,
   ⟨kern, 3, (comm.setCePage 3 { pgCfg := 4 }).wakeCipher kern 3, ((comm.setCePage 3 { pgCfg := 4 }).wakeCipher kern 3).dropHeld kern, comm.setCePage 3 { pgCfg := 4 }, by decide +kernel⟩,
   ⟨kern, 3, (up).dropHeld kern, up, by decide +kernel⟩,
   ⟨kern, 3, (comm.setCePage 3 { slice := 4, state := .empty }).dropHeld kern, comm.setCePage 3 { slice := 4, state := .empty }, by decide +kernel⟩,
   ⟨{ pasid := some (State.slice ({ up with qm := { up.qm with slices := up.qm.slices.set {} 0 { state := .active, cfg := 7 } } }) 0).pasid }, 1, State.dropHeld ({ up with qm := { up.qm with slices := up.qm.slices.set {} 0 { state := .active, cfg := 7 } } }) { pasid := some (State.slice ({ up with qm := { up.qm with slices := up.qm.slices.set {} 0 { state := .active, cfg := 7 } } }) 0).pasid }, { up with qm := { up.qm with slices := up.qm.slices.set {} 0 { state := .active, cfg := 7 } } }, by decide +kernel⟩,
   ⟨{ pasid := some 7 }, 1, ({ up with boot := { up.boot with variant := BitVec.allOnes _ }, ce := { up.ce with pages := up.ce.pages.set {} 1 { state := .empty, slice := 4 } }, qm := { up.qm with slices := up.qm.slices.set {} 4 { state := .active, cfg := 7, bound := true } } } : State).dropHeld { pasid := some 7 }, ({ up with boot := { up.boot with variant := BitVec.allOnes _ }, ce := { up.ce with pages := up.ce.pages.set {} 1 { state := .empty, slice := 4 } }, qm := { up.qm with slices := up.qm.slices.set {} 4 { state := .active, cfg := 7, bound := true } } } : State), by decide +kernel⟩,
   ⟨{ pasid := some 7 }, 1, ({ up with boot := { up.boot with variant := BitVec.allOnes _ }, fbx := { up.fbx with trngFailed := true }, ce := { up.ce with pages := up.ce.pages.set {} 1 { state := .empty, slice := 4 } }, qm := { up.qm with slices := up.qm.slices.set {} 4 { state := .active, cfg := 7, bound := false } } } : State).dropHeld { pasid := some 7 }, ({ up with boot := { up.boot with variant := BitVec.allOnes _ }, fbx := { up.fbx with trngFailed := true }, ce := { up.ce with pages := up.ce.pages.set {} 1 { state := .empty, slice := 4 } }, qm := { up.qm with slices := up.qm.slices.set {} 4 { state := .active, cfg := 7, bound := false } } } : State), by decide +kernel⟩⟩

theorem test_meets_CipherRegisters_2 :
    (∃ (r : Req) (page : Nat) (t : State) (s : State), s.served r (cePageAt page + 0x40) = true ∧ s.ceOwner r page = true ∧ s.dropHeld r = t ∧ (t.cePage page).state ≠ .free ∧ (t.slice (t.cePage page).slice).bound = false ∧ t.fbx.trngFailed = false) ∧
    (∃ (r : Req) (page : Nat) (t : State) (s : State), s.served r (cePageAt page + 0x40) = true ∧ s.ceOwner r page = true ∧ s.dropHeld r = t ∧ (t.cePage page).state = .free) ∧
    (∃ (r : Req) (page : Nat) (t : State) (s : State), s.served r (cePageAt page + 0x40) = true ∧ s.ceOwner r page = true ∧ s.dropHeld r = t ∧ (t.cePage page).state ≠ .free) ∧
    (∃ (r : Req) (v : BitVec 32) (t : State) (s : State), s.served r 0x400F00 = true ∧ r.mgmt = true ∧ s.dropHeld r = t) ∧
    (∃ (r : Req) (page : Nat) (v : BitVec 32) (t : State) (s : State), s.served r (cePageAt page + 8) = true ∧ s.ceOwner r page = true ∧ s.dropHeld r = t) ∧
    (∃ (r : Req) (page : Nat) (w t : State) (s : State), s.wakeCipher r page = w ∧ w.served r (cePageAt page + 0x808) = true ∧ ceKernel r page = true ∧ w.dropHeld r = t ∧ (t.cePage page).pgRes = 1) ∧
    (∃ (r : Req) (page : Nat) (t : State) (s : State), s.served r (cePageAt page + 0x808) = true ∧ ceKernel r page = true ∧ s.dropHeld r = t ∧ (t.cePage page).pgRes = 1) :=
  ⟨⟨{ pasid := some 7 }, 3, (comm.setCePage 3 { slice := 4, state := .empty }).dropHeld { pasid := some 7 }, comm.setCePage 3 { slice := 4, state := .empty }, by decide +kernel⟩,
   ⟨{ pasid := some (State.slice ({ up with qm := { up.qm with slices := up.qm.slices.set {} 0 { state := .active, cfg := 7 } } }) 0).pasid }, 1, State.dropHeld ({ up with qm := { up.qm with slices := up.qm.slices.set {} 0 { state := .active, cfg := 7 } } }) { pasid := some (State.slice ({ up with qm := { up.qm with slices := up.qm.slices.set {} 0 { state := .active, cfg := 7 } } }) 0).pasid }, { up with qm := { up.qm with slices := up.qm.slices.set {} 0 { state := .active, cfg := 7 } } }, by decide +kernel⟩,
   ⟨{ pasid := some 7 }, 3, (comm.setCePage 3 { slice := 4, state := .empty }).dropHeld { pasid := some 7 }, comm.setCePage 3 { slice := 4, state := .empty }, by decide +kernel⟩,
   ⟨mg, 3, (up).dropHeld mg, up, by decide +kernel⟩,
   ⟨{ pasid := some 7 }, 3, 5, (comm.setCePage 3 { slice := 4, state := .empty }).dropHeld { pasid := some 7 }, comm.setCePage 3 { slice := 4, state := .empty }, by decide +kernel⟩,
   ⟨kern, 3, (up.setCePage 3 { pgRes := 1 }).wakeCipher kern 3, ((up.setCePage 3 { pgRes := 1 }).wakeCipher kern 3).dropHeld kern, up.setCePage 3 { pgRes := 1 }, by decide +kernel⟩,
   ⟨kern, 3, ((up.setCePage 3 { pgRes := 1 })).dropHeld kern, (up.setCePage 3 { pgRes := 1 }), by decide +kernel⟩⟩

theorem test_meets_RegisterAccesses_1 :
    (∃ (r : Req) (off : Nat) (s : State), s.unserved r off = true ∧ r.mgmt = false) ∧
    (∃ (r : Req) (off : Nat) (s : State), s.unserved r off = false ∧ mailboxOk off 32 = false ∧ s.reaches off = true ∧ s.regOf r off 32 = none) ∧
    (∃ (r : Req) (off : Nat) (g : Reg) (p : Part) (s : State), s.unserved r off = false ∧ mailboxOk off 32 = false ∧ s.reaches off = true ∧ s.regOf r off 32 = some (g, p) ∧ g.ok = true ∧ (g.mgmt && !r.mgmt) = true) ∧
    (∃ (r : Req) (off : Nat) (g : Reg) (v : BitVec 64) (u : State) (s : State), s.unserved r off = false ∧ mailboxOk off 32 = false ∧ s.reaches off = true ∧ s.regOf r off 32 = some (g, .low) ∧ g.ok = true ∧ (g.mgmt && !r.mgmt) = false ∧ s.readVal r off g = (v, u)) ∧
    (∃ (r : Req) (off : Nat) (g : Reg) (v : BitVec 64) (u : State) (s : State), s.unserved r off = false ∧ mailboxOk off 32 = false ∧ s.reaches off = true ∧ s.regOf r off 32 = some (g, .whole) ∧ g.ok = true ∧ (g.mgmt && !r.mgmt) = false ∧ s.readVal r off g = (v, u)) ∧
    (∃ (r : Req) (off : Nat) (g : Reg) (s : State), s.unserved r off = false ∧ mailboxOk off 32 = false ∧ s.reaches off = true ∧ s.regOf r off 32 = some (g, .high) ∧ g.ok = true ∧ (g.mgmt && !r.mgmt) = false) ∧
    (∃ (r : Req) (off : Nat) (v : BitVec 32) (g : Reg) (s : State), s.regOf r off 32 = some (g, .low) ∧ s.unserved r off = false ∧ mailboxOk off 32 = false ∧ s.reaches off = true ∧ g.ok = true ∧ (g.mgmt && !r.mgmt) = false) ∧
    (∃ (r : Req) (off width : Nat) (v : BitVec 64) (s : State), s.unserved r off = true) :=
  ⟨⟨kern, 0, State.reset, by decide +kernel⟩,
   ⟨mg, 0x4A0F00, up, by decide +kernel⟩,
   ⟨kern, 0x490010, { width := 32, val := 14, mgmt := true }, .whole, up, by decide +kernel⟩,
   ⟨mg, 0xE0008, { width := 64, mgmt := true }, (up.readVal mg 0xE0008 { width := 64, mgmt := true }).1, (up.readVal mg 0xE0008 { width := 64, mgmt := true }).2, up, by decide +kernel⟩,
   ⟨mg, 0x490010, { width := 32, val := 14, mgmt := true }, (up.readVal mg 0x490010 { width := 32, val := 14, mgmt := true }).1, (up.readVal mg 0x490010 { width := 32, val := 14, mgmt := true }).2, up, by decide +kernel⟩,
   ⟨mg, 0xE000C, { width := 64, mgmt := true }, up, by decide +kernel⟩,
   ⟨mg, 0xE0008, 5, { width := 64, mgmt := true }, up, by decide +kernel⟩,
   ⟨kern, 0, 32, 5, State.reset, by decide +kernel⟩⟩

theorem test_meets_RegisterAccesses_2 :
    (∃ (r : Req) (off width : Nat) (v : BitVec 64) (s : State), s.unserved r off = false ∧ mailboxOk off width = false ∧ s.regOf r off width = none) ∧
    (∃ (r : Req) (off : Nat) (v : BitVec 64) (g : Reg) (s : State), s.unserved r off = false ∧ mailboxOk off 32 = false ∧ s.reaches off = true ∧ s.regOf r off 32 = some (g, .high) ∧ g.ok = true ∧ (g.mgmt && !r.mgmt) = false) ∧
    (∃ (r : Req) (off width : Nat) (v : BitVec 64) (g : Reg) (p : Part) (s : State), s.unserved r off = false ∧ mailboxOk off width = false ∧ s.reaches off = true ∧ s.regOf r off width = some (g, p) ∧ g.ok = true ∧ g.mgmt = true ∧ r.mgmt = false) ∧
    (∃ (r : Req) (off width : Nat) (s : State), s.unserved r off = false ∧ mailboxOk off width = false ∧ s.regOf r off width = none) ∧
    (∃ (r : Req) (off width : Nat) (s : State), s.unserved r off = true) ∧
    (∃ (r : Req) (s : State), r.mgmt = false) ∧
    (∃ (r : Req) (s : State), r.mgmt = true ∧ s.mgmtServes 0x480020 = true) :=
  ⟨⟨mg, 0x4A0F00, 32, 5, up, by decide +kernel⟩,
   ⟨mg, 0xE000C, 5, { width := 64, mgmt := true }, up, by decide +kernel⟩,
   ⟨kern, 0x490010, 32, 5, { width := 32, val := 14, mgmt := true }, .whole, up, by decide +kernel⟩,
   ⟨mg, 0x4A0F00, 32, up, by decide +kernel⟩,
   ⟨kern, 0, 32, State.reset, by decide +kernel⟩,
   ⟨kern, up, by decide +kernel⟩,
   ⟨mg, up, by decide +kernel⟩⟩

theorem test_meets_TelemetryAndRecorder_1 :
    (∃ (r : Req) (slice : Nat) (v : BitVec 32) (t : State) (s : State), s.served r (telPage slice + 8) = true ∧ s.pageWrite slice r = true ∧ s.dropHeld r = t) ∧
    (∃ (r : Req) (slice : Nat) (v : BitVec 32) (t : State) (s : State), s.served r (telPage slice) = true ∧ (decide (slice < 2048) && decide (r.pasid = none)) = true ∧ s.dropHeld r = t) ∧
    (∃ (r : Req) (slice : Nat) (s : State), (r.mgmt = true ∨ s.hostUp = true) ∧ (r.mgmt = false ∨ s.mgmtServes (telPage slice + 0x18) = true) ∧ (s.pageRead slice r && s.blockUp ⟨5, some 4, .cclk⟩) = true) ∧
    (∃ (r : Req) (slice : Nat) (s : State), (r.mgmt = true ∨ s.hostUp = true) ∧ (r.mgmt = false ∨ s.mgmtServes (telPage slice + 0x18) = true) ∧ (s.pageRead slice r && s.blockUp ⟨5, some 4, .cclk⟩) = false) ∧
    (∃ (s : State), s.tel.intervalAt + 1000000 ≤ s.sys.now ∧ s.tel.throttled = true) ∧
    (∃ (s : State), s.tel.intervalAt + 1000000 ≤ s.sys.now ∧ s.tel.throttled = false) ∧
    (∃ (code : Nat) (s : State), (s.bucket code).drops ≠ 0 ∧ (s.bucket code).firstAt + 1000000000 ≤ s.sys.now) ∧
    (∃ (code : Nat) (s : State), (s.bucket code).drops = 0) :=
  ⟨⟨{ pasid := some 7 }, 4, 1, (comm).dropHeld { pasid := some 7 }, comm, by decide +kernel⟩,
   ⟨kern, 4, 1, (up).dropHeld kern, up, by decide +kernel⟩,
   ⟨{ pasid := some 7 }, 4, comm, by decide +kernel⟩,
   ⟨{ pasid := some 7 }, 5, comm, by decide +kernel⟩,
   ⟨{ up with sys := { up.sys with now := 10 ^ 9 }, tel := { up.tel with throttled := true } }, by decide +kernel⟩,
   ⟨{ up with sys := { up.sys with now := 10 ^ 9 } }, by decide +kernel⟩,
   ⟨5, { late with rcd := { late.rcd with buckets := late.rcd.buckets.set {} 5 { drops := 1 } } }, by decide +kernel⟩,
   ⟨5, up, by decide +kernel⟩⟩

theorem test_meets_TelemetryAndRecorder_2 :
    (∃ (ok : Bool) (x : Rec) (l : List Rec) (s : State), s.rcd.permQ = x :: l ∧ s.rcd.perm.length < 256) ∧
    (∃ (ok : Bool) (x : Rec) (l : List Rec) (s : State), s.rcd.permQ = x :: l ∧ 256 ≤ s.rcd.perm.length) ∧
    (∃ (ok : Bool) (s : State), s.rcd.permQ = []) ∧
    (∃ (m : Mgmt) (s : State), s.hears m true = true ∧ s.rcd.valid ≠ 0) ∧
    (∃ (m : Mgmt) (s : State), s.hears m true = true ∧ s.rcd.valid = 0) ∧
    (∃ (r : Req) (v : BitVec 32) (t : State) (s : State), s.served r 0x480008 = true ∧ r.mgmt = true ∧ s.dropHeld r = t ∧ bits v.toNat 7 0 ≠ 0 ∧ bits v.toNat 15 8 ≠ 0 ∧ t.rcd.buckets.cells = []) ∧
    (∃ (r : Req) (v : BitVec 32) (t : State) (s : State), s.served r 0x480008 = true ∧ r.mgmt = true ∧ s.dropHeld r = t ∧ bits v.toNat 7 0 = 0 ∧ bits v.toNat 15 8 = 0 ∧ t.rcd.buckets.cells = []) ∧
    (∃ (r : Req) (slice : Nat) (s : State), r.mgmt = false ∧ s.hostUp = false) :=
  ⟨⟨true, { code := 1, severity := 0, source := 0, seq := 0, seconds := 0, cycles := 0, payload := 0 }, [], { up with rcd := { up.rcd with permQ := [{ code := 1, severity := 0, source := 0, seq := 0, seconds := 0, cycles := 0, payload := 0 }] } }, by decide +kernel⟩,
   ⟨true, { code := 1, severity := 0, source := 0, seq := 0, seconds := 0, cycles := 0, payload := 0 }, [], { up with rcd := { up.rcd with perm := List.replicate 256 none, permQ := [{ code := 1, severity := 0, source := 0, seq := 0, seconds := 0, cycles := 0, payload := 0 }] } }, by decide +kernel⟩,
   ⟨true, up, by decide +kernel⟩,
   ⟨oper, { up with rcd := { up.rcd with valid := 1 } }, by decide +kernel⟩,
   ⟨oper, up, by decide +kernel⟩,
   ⟨mg, 0x505, (up).dropHeld mg, up, by decide +kernel⟩,
   ⟨mg, 0, (up).dropHeld mg, up, by decide +kernel⟩,
   ⟨kern, 4, State.reset, by decide +kernel⟩⟩

theorem test_meets_TelemetryAndRecorder_3 :
    (∃ (r : Req) (slice : Nat) (s : State), r.mgmt = true ∧ s.mgmtServes (telPage slice + 0x18) = false) ∧
    (∃ (s : State), s.sys.now < s.tel.intervalAt + 1000000) ∧
    (∃ (code : Nat) (s : State), s.sys.now < (s.bucket code).firstAt + 1000000000) ∧
    (∃ (r : Req) (v : BitVec 32) (bs : Tbl Bucket) (t : State) (s : State), s.served r 0x480008 = true ∧ r.mgmt = true ∧ s.dropHeld r = t ∧ Tbl.mk (t.rcd.buckets.cells.map fun (e : Nat × Bucket) => (e.1, { e.2.refill t.rcd.rate t.now with base := if (e.2.refill t.rcd.rate t.now).taken = 0 then 0 else t.now, returned := 0 })) = bs) :=
  ⟨⟨mg, 4, State.reset, by decide +kernel⟩,
   ⟨up, by decide +kernel⟩,
   ⟨5, up, by decide +kernel⟩,
   ⟨mg, 5, {}, (up).dropHeld mg, up, by decide +kernel⟩⟩

theorem test_meets_LifeCycleAnchorsAndDebug_1 :
    (∃ (r : Req) (m : Mgmt) (v : BitVec 32) (t : State) (s : State), s.served r 0x4A0008 = true ∧ r.mgmt = true ∧ s.dropHeld r = t ∧ t.lc.tres = 1) ∧
    (∃ (r : Req) (m : Mgmt) (v : BitVec 32) (t : State) (s : State), s.served r 0x4A0008 = true ∧ r.mgmt = true ∧ s.dropHeld r = t ∧ t.lc.tres ≠ 1 ∧ lcRow t.lcCode (bits v.toNat 2 0) = false) ∧
    (∃ (r : Req) (m : Mgmt) (v : BitVec 32) (t : State) (s : State), s.served r 0x4A0008 = true ∧ r.mgmt = true ∧ s.dropHeld r = t ∧ t.lc.tres ≠ 1 ∧ lcRow t.lcCode (bits v.toNat 2 0) = true ∧ t.lcAuth m (bits v.toNat 2 0) = false) ∧
    (∃ (r : Req) (m : Mgmt) (v : BitVec 32) (t : State) (s : State), s.served r 0x4A0008 = true ∧ r.mgmt = true ∧ s.dropHeld r = t ∧ t.lc.tres ≠ 1 ∧ lcRow t.lcCode (bits v.toNat 2 0) = true ∧ t.lcAuth m (bits v.toNat 2 0) = true ∧ bits v.toNat 2 0 = 2 ∧ t.lc.fault = false ∧ t.lc.pending = false ∧ t.lc.opening = false ∧ t.resetting = false ∧ t.lcCode = 1) ∧
    (∃ (r : Req) (m : Mgmt) (v : BitVec 32) (t : State) (s : State), s.served r 0x4A0008 = true ∧ r.mgmt = true ∧ s.dropHeld r = t ∧ t.lc.tres ≠ 1 ∧ lcRow t.lcCode (bits v.toNat 2 0) = true ∧ t.lcAuth m (bits v.toNat 2 0) = true ∧ bits v.toNat 2 0 = 5 ∧ t.lc.pending = false ∧ t.lc.opening = false ∧ t.resetting = false ∧ t.lcCode ≠ 1) ∧
    (∃ (ok : Bool) (s : State), s.lcMayStep = false) ∧
    (∃ (u : State) (s : State), s.lcMayStep = true ∧ { s with lc := { s.lc with begun := true, records := if s.lc.records.contains s.lc.target then s.lc.records else s.lc.target :: s.lc.records } } = u ∧ s.lc.target ≠ 5 ∧ 2 ≤ u.lc.attempts) ∧
    (∃ (u : State) (s : State), s.lcMayStep = true ∧ { s with lc := { s.lc with begun := true, records := if s.lc.records.contains s.lc.target then s.lc.records else s.lc.target :: s.lc.records } } = u ∧ u.lc.attempts < 2) :=
  ⟨⟨mg, {}, 2, ({ up with lc := { up.lc with tres := 1 } }).dropHeld mg, { up with lc := { up.lc with tres := 1 } }, by decide +kernel⟩,
   ⟨mg, {}, 7, (up).dropHeld mg, up, by decide +kernel⟩,
   ⟨mg, {}, 3, (up).dropHeld mg, up, by decide +kernel⟩,
   ⟨mg, { secure := true, kilyen := true }, 2, ({ up with lc := { up.lc with words := [0, 0, 0, 0] } }).dropHeld mg, { up with lc := { up.lc with words := [0, 0, 0, 0] } }, by decide +kernel⟩,
   ⟨mg, oper, 5, (up).dropHeld mg, up, by decide +kernel⟩,
   ⟨true, up, by decide +kernel⟩,
   ⟨{ ({ up with lc := { up.lc with pending := true, target := 3, next := 1, attempts := 2 } } : State) with lc := { ({ up with lc := { up.lc with pending := true, target := 3, next := 1, attempts := 2 } } : State).lc with begun := true, records := if ({ up with lc := { up.lc with pending := true, target := 3, next := 1, attempts := 2 } } : State).lc.records.contains ({ up with lc := { up.lc with pending := true, target := 3, next := 1, attempts := 2 } } : State).lc.target then ({ up with lc := { up.lc with pending := true, target := 3, next := 1, attempts := 2 } } : State).lc.records else ({ up with lc := { up.lc with pending := true, target := 3, next := 1, attempts := 2 } } : State).lc.target :: ({ up with lc := { up.lc with pending := true, target := 3, next := 1, attempts := 2 } } : State).lc.records } }, ({ up with lc := { up.lc with pending := true, target := 3, next := 1, attempts := 2 } } : State), by decide +kernel⟩,
   ⟨{ up with lc := { up.lc with pending := true, target := 5, next := 1, begun := true, records := [5] } }, { up with lc := { up.lc with pending := true, target := 5, next := 1 } }, by decide +kernel⟩⟩

theorem test_meets_LifeCycleAnchorsAndDebug_2 :
    (∃ (u w : State) (s : State), s.lcMayStep = true ∧ { s with lc := { s.lc with begun := true, records := if s.lc.records.contains s.lc.target then s.lc.records else s.lc.target :: s.lc.records } } = u ∧ u.programStep s.lc.target s.lc.next = w) ∧
    (∃ (r : Req) (m : Mgmt) (v : BitVec 32) (t : State) (s : State), s.served r 0x4A0010 = true ∧ r.mgmt = true ∧ s.dropHeld r = t ∧ acmdOp v = 1 ∧ (if t.validAnchors = 0 then m.secure else t.chainOk m) = false) ∧
    (∃ (r : Req) (m : Mgmt) (v : BitVec 32) (t : State) (s : State), s.served r 0x4A0010 = true ∧ r.mgmt = true ∧ s.dropHeld r = t ∧ acmdOp v = 1 ∧ (if t.validAnchors = 0 then m.secure else t.chainOk m) = true ∧ t.lcCode ≠ 2) ∧
    (∃ (r : Req) (m : Mgmt) (v : BitVec 32) (t : State) (s : State), s.served r 0x4A0010 = true ∧ r.mgmt = true ∧ s.dropHeld r = t ∧ acmdOp v = 1 ∧ (if t.validAnchors = 0 then m.secure else t.chainOk m) = true ∧ t.lcCode = 2 ∧ (t.lc.anchors.getD (acmdSlot v) .empty) ≠ .empty) ∧
    (∃ (r : Req) (m : Mgmt) (v : BitVec 32) (t : State) (s : State), s.served r 0x4A0010 = true ∧ r.mgmt = true ∧ s.dropHeld r = t ∧ acmdOp v = 1 ∧ (if t.validAnchors = 0 then m.secure else t.chainOk m) = true ∧ t.lcCode = 2 ∧ (t.lc.anchors.getD (acmdSlot v) .empty) = .empty) ∧
    (∃ (r : Req) (m : Mgmt) (v : BitVec 32) (t : State) (s : State), s.served r 0x4A0010 = true ∧ r.mgmt = true ∧ s.dropHeld r = t ∧ acmdOp v = 2 ∧ t.operatorOk m = false) ∧
    (∃ (r : Req) (m : Mgmt) (v : BitVec 32) (t : State) (s : State), s.served r 0x4A0010 = true ∧ r.mgmt = true ∧ s.dropHeld r = t ∧ acmdOp v = 2 ∧ t.operatorOk m = true ∧ t.lcCode ≠ 2 ∧ t.lcCode ≠ 3) ∧
    (∃ (r : Req) (m : Mgmt) (v : BitVec 32) (t : State) (s : State), s.served r 0x4A0010 = true ∧ r.mgmt = true ∧ s.dropHeld r = t ∧ acmdOp v = 2 ∧ t.operatorOk m = true ∧ (t.lcCode = 2 ∨ t.lcCode = 3) ∧ (t.lc.anchors.getD (acmdSlot v) .empty).isValid = true ∧ t.validAnchors = 1) :=
  ⟨⟨{ ({ up with lc := { up.lc with pending := true, target := 3, next := 1, attempts := 2 } } : State) with lc := { ({ up with lc := { up.lc with pending := true, target := 3, next := 1, attempts := 2 } } : State).lc with begun := true, records := if ({ up with lc := { up.lc with pending := true, target := 3, next := 1, attempts := 2 } } : State).lc.records.contains ({ up with lc := { up.lc with pending := true, target := 3, next := 1, attempts := 2 } } : State).lc.target then ({ up with lc := { up.lc with pending := true, target := 3, next := 1, attempts := 2 } } : State).lc.records else ({ up with lc := { up.lc with pending := true, target := 3, next := 1, attempts := 2 } } : State).lc.target :: ({ up with lc := { up.lc with pending := true, target := 3, next := 1, attempts := 2 } } : State).lc.records } }, State.programStep { ({ up with lc := { up.lc with pending := true, target := 3, next := 1, attempts := 2 } } : State) with lc := { ({ up with lc := { up.lc with pending := true, target := 3, next := 1, attempts := 2 } } : State).lc with begun := true, records := if ({ up with lc := { up.lc with pending := true, target := 3, next := 1, attempts := 2 } } : State).lc.records.contains ({ up with lc := { up.lc with pending := true, target := 3, next := 1, attempts := 2 } } : State).lc.target then ({ up with lc := { up.lc with pending := true, target := 3, next := 1, attempts := 2 } } : State).lc.records else ({ up with lc := { up.lc with pending := true, target := 3, next := 1, attempts := 2 } } : State).lc.target :: ({ up with lc := { up.lc with pending := true, target := 3, next := 1, attempts := 2 } } : State).lc.records } } 3 1, ({ up with lc := { up.lc with pending := true, target := 3, next := 1, attempts := 2 } } : State), by decide +kernel⟩,
   ⟨mg, {}, 4, (up).dropHeld mg, up, by decide +kernel⟩,
   ⟨mg, oper, 5, State.dropHeld { up with lc := { up.lc with words := [BitVec.allOnes 32, BitVec.allOnes 32, 0, 0] } } mg, { up with lc := { up.lc with words := [BitVec.allOnes 32, BitVec.allOnes 32, 0, 0] } }, by decide +kernel⟩,
   ⟨mg, oper, 4, up.dropHeld mg, up, by decide +kernel⟩,
   ⟨mg, oper, 5, (up).dropHeld mg, up, by decide +kernel⟩,
   ⟨mg, {}, 8, (up).dropHeld mg, up, by decide +kernel⟩,
   ⟨mg, oper, 8, State.dropHeld { up with lc := { up.lc with words := [BitVec.allOnes 32, BitVec.allOnes 32, BitVec.allOnes 32, 0] } } mg, { up with lc := { up.lc with words := [BitVec.allOnes 32, BitVec.allOnes 32, BitVec.allOnes 32, 0] } }, by decide +kernel⟩,
   ⟨mg, oper, 8, (up).dropHeld mg, up, by decide +kernel⟩⟩

theorem test_meets_LifeCycleAnchorsAndDebug_3 :
    (∃ (r : Req) (m : Mgmt) (v : BitVec 32) (t : State) (s : State), s.served r 0x4A0010 = true ∧ r.mgmt = true ∧ s.dropHeld r = t ∧ acmdOp v = 2 ∧ t.operatorOk m = true ∧ (t.lcCode = 2 ∨ t.lcCode = 3) ∧ t.validAnchors ≠ 1 ∧ (t.lc.anchors.getD (acmdSlot v) .empty) ≠ .valid m.root) ∧
    (∃ (r : Req) (m : Mgmt) (v : BitVec 32) (t : State) (s : State), s.served r 0x4A0300 = true ∧ r.mgmt = true ∧ s.dropHeld r = t ∧ t.lc.dres ≠ 1 ∧ bits v.toNat 1 0 = 1 ∧ bits v.toNat 3 2 ≠ puDebug ∧ bits v.toNat 3 2 ≠ puReturn) ∧
    (∃ (r : Req) (m : Mgmt) (v : BitVec 32) (n : BitVec 256) (u : State) (t : State) (s : State), s.served r 0x4A0300 = true ∧ r.mgmt = true ∧ s.dropHeld r = t ∧ t.lc.dres ≠ 1 ∧ bits v.toNat 1 0 = 1 ∧ (bits v.toNat 3 2 = puDebug ∨ bits v.toNat 3 2 = puReturn) ∧ t.fbx.trngFailed = false ∧ t.nonce = (n, u)) ∧
    (∃ (r : Req) (m : Mgmt) (t : State) (s : State), s.served r 0x4A0300 = true ∧ r.mgmt = true ∧ s.dropHeld r = t ∧ t.lc.dres ≠ 1 ∧ (t.lcCode = 5 ∨ t.lc.pending = true ∨ t.lc.begun = true)) ∧
    (∃ (r : Req) (m : Mgmt) (t : State) (s : State), s.served r 0x4A0300 = true ∧ r.mgmt = true ∧ s.dropHeld r = t ∧ t.lc.dres ≠ 1 ∧ t.lcCode ≠ 5 ∧ t.lc.pending = false ∧ t.lc.begun = false ∧ t.debugAuth m = false) ∧
    (∃ (r : Req) (m : Mgmt) (u : State) (t : State) (s : State), s.served r 0x4A0300 = true ∧ r.mgmt = true ∧ s.dropHeld r = t ∧ t.lc.dres ≠ 1 ∧ (t.lcCode = 1 ∨ t.lcCode = 2) ∧ t.lc.pending = false ∧ t.lc.begun = false ∧ t.debugAuth m = true ∧ t.teardownAll alDebugOpen .debugOpen = u) ∧
    (∃ (u : State) (s : State), s.lc.opening = true ∧ 2 ≤ s.rst.step ∧ s.rst.phase ≠ .fencing ∧ s.slotsQuiet = true ∧ s.deriveFw 1 = u) ∧
    (∃ (s : State), s.lc.opening = false) :=
  ⟨⟨mg, oper, 9, ({ up with lc := { up.lc with anchors := [.valid 7, .valid 8, .empty, .empty] } }).dropHeld mg, { up with lc := { up.lc with anchors := [.valid 7, .valid 8, .empty, .empty] } }, by decide +kernel⟩,
   ⟨mg, {}, 1, up.dropHeld mg, up, by decide +kernel⟩,
   ⟨mg, {}, 1 + 4 * BitVec.ofNat 32 puDebug, (State.nonce (up.dropHeld mg)).1, (State.nonce (up.dropHeld mg)).2, up.dropHeld mg, up, by decide +kernel, by decide +kernel, by decide +kernel, by decide +kernel, by decide +kernel, by decide +kernel, by decide +kernel, by rfl⟩,
   ⟨mg, oper, ({ up with lc := { up.lc with begun := true } }).dropHeld mg, { up with lc := { up.lc with begun := true } }, by decide +kernel⟩,
   ⟨mg, {}, (up).dropHeld mg, up, by decide +kernel⟩,
   ⟨mg, oper, (up.dropHeld mg).teardownAll alDebugOpen .debugOpen, up.dropHeld mg, up, by decide +kernel⟩,
   ⟨State.deriveFw { up with lc := { up.lc with opening := true } } 1, { up with lc := { up.lc with opening := true } }, by decide +kernel⟩,
   ⟨up, by decide +kernel⟩⟩

theorem test_meets_LifeCycleAnchorsAndDebug_4 :
    (∃ (r : Req) (m : Mgmt) (v : BitVec 32) (t : State) (s : State), s.served r 0x4A0008 = true ∧ r.mgmt = true ∧ s.dropHeld r = t ∧ t.lc.tres ≠ 1 ∧ lcRow t.lcCode (bits v.toNat 2 0) = true ∧ t.lcAuth m (bits v.toNat 2 0) = true ∧ bits v.toNat 2 0 = 4 ∧ t.responseOk puReturn = false) ∧
    (∃ (r : Req) (m : Mgmt) (v : BitVec 32) (t : State) (s : State), s.served r 0x4A0008 = true ∧ r.mgmt = true ∧ s.dropHeld r = t ∧ t.lc.tres ≠ 1 ∧ lcRow t.lcCode (bits v.toNat 2 0) = true ∧ t.lcAuth m (bits v.toNat 2 0) = true ∧ bits v.toNat 2 0 ≠ 3 ∧ bits v.toNat 2 0 ≠ 4 ∧ bits v.toNat 2 0 ≠ 5 ∧ t.lc.fault = true) ∧
    (∃ (r : Req) (m : Mgmt) (v : BitVec 32) (t : State) (s : State), s.served r 0x4A0008 = true ∧ r.mgmt = true ∧ s.dropHeld r = t ∧ t.lc.tres ≠ 1 ∧ lcRow t.lcCode (bits v.toNat 2 0) = true ∧ t.lcAuth m (bits v.toNat 2 0) = true ∧ bits v.toNat 2 0 ≠ 3 ∧ bits v.toNat 2 0 ≠ 4 ∧ t.lc.fault = false ∧ (t.lc.pending = true ∨ t.lc.opening = true ∨ t.resetting = true)) ∧
    (∃ (u : State) (s : State), s.lcMayStep = true ∧ { s with lc := { s.lc with begun := true, records := if s.lc.records.contains s.lc.target then s.lc.records else s.lc.target :: s.lc.records } } = u ∧ s.lc.target = 5 ∧ 2 ≤ u.lc.attempts) ∧
    (∃ (r : Req) (m : Mgmt) (v : BitVec 32) (t : State) (s : State), s.served r 0x4A0010 = true ∧ r.mgmt = true ∧ s.dropHeld r = t ∧ acmdOp v ≠ 1) ∧
    (∃ (r : Req) (m : Mgmt) (v : BitVec 32) (t : State) (s : State), s.served r 0x4A0010 = true ∧ r.mgmt = true ∧ s.dropHeld r = t ∧ acmdOp v ≠ 2) ∧
    (∃ (r : Req) (m : Mgmt) (v : BitVec 32) (t : State) (s : State), s.served r 0x4A0010 = true ∧ r.mgmt = true ∧ s.dropHeld r = t ∧ acmdOp v = 2 ∧ t.operatorOk m = true ∧ (t.lcCode = 2 ∨ t.lcCode = 3) ∧ t.validAnchors ≠ 1 ∧ (t.lc.anchors.getD (acmdSlot v) .empty) = .valid m.root) ∧
    (∃ (r : Req) (m : Mgmt) (v : BitVec 32) (t : State) (s : State), s.served r 0x4A0300 = true ∧ r.mgmt = true ∧ s.dropHeld r = t ∧ (t.lc.dres = 1 ∨ bits v.toNat 1 0 ≠ 1)) :=
  ⟨⟨mg, oper, 4, ({ up with lc := { up.lc with words := [BitVec.allOnes 32, BitVec.allOnes 32, 0, 0] } } : State).dropHeld mg, { up with lc := { up.lc with words := [BitVec.allOnes 32, BitVec.allOnes 32, 0, 0] } }, by decide +kernel⟩,
   ⟨mg, { secure := true, kilyen := true }, 2, ({ up with lc := { up.lc with words := [0, 0, 0, 0], fault := true } } : State).dropHeld mg, { up with lc := { up.lc with words := [0, 0, 0, 0], fault := true } }, by decide +kernel⟩,
   ⟨mg, oper, 5, ({ up with lc := { up.lc with pending := true } }).dropHeld mg, { up with lc := { up.lc with pending := true } }, by decide +kernel⟩,
   ⟨{ up with lc := { up.lc with pending := true, target := 5, next := 1, begun := true, records := [5], attempts := 2 } }, { up with lc := { up.lc with pending := true, target := 5, next := 1, attempts := 2 } }, by decide +kernel⟩,
   ⟨mg, {}, 8, (up).dropHeld mg, up, by decide +kernel⟩,
   ⟨mg, {}, 4, (up).dropHeld mg, up, by decide +kernel⟩,
   ⟨mg, oper, 8, ({ up with lc := { up.lc with anchors := [.valid 7, .valid 8, .empty, .empty] } } : State).dropHeld mg, { up with lc := { up.lc with anchors := [.valid 7, .valid 8, .empty, .empty] } }, by decide +kernel⟩,
   ⟨mg, {}, 2, (up).dropHeld mg, up, by decide +kernel⟩⟩

theorem test_meets_LifeCycleAnchorsAndDebug_5 :
    (∃ (r : Req) (m : Mgmt) (v : BitVec 32) (t : State) (s : State), s.served r 0x4A0300 = true ∧ r.mgmt = true ∧ s.dropHeld r = t ∧ t.lc.dres ≠ 1 ∧ bits v.toNat 1 0 = 1 ∧ (bits v.toNat 3 2 = puDebug ∨ bits v.toNat 3 2 = puReturn) ∧ t.fbx.trngFailed = true) ∧
    (∃ (r : Req) (m : Mgmt) (t : State) (s : State), s.served r 0x4A0300 = true ∧ r.mgmt = true ∧ s.dropHeld r = t ∧ t.lc.dres = 1) ∧
    (∃ (r : Req) (m : Mgmt) (u : State) (t : State) (s : State), s.served r 0x4A0300 = true ∧ r.mgmt = true ∧ s.dropHeld r = t ∧ t.lc.dres ≠ 1 ∧ (t.lcCode = 3 ∨ t.lcCode = 4) ∧ t.lc.pending = false ∧ t.lc.begun = false ∧ t.debugAuth m = true ∧ t.useChallenge.teardownAll alDebugOpen .debugOpen = u) ∧
    (∃ (s : State), (s.rst.step < 2 ∨ s.rst.phase = .fencing ∨ s.slotsQuiet = false)) :=
  ⟨⟨mg, {}, 5, ({ up with fbx := { up.fbx with trngFailed := true } } : State).dropHeld mg, { up with fbx := { up.fbx with trngFailed := true } }, by decide +kernel, by decide +kernel, by decide +kernel, by decide +kernel, by decide +kernel, by exact Or.inl (by decide), by decide +kernel⟩,
   ⟨mg, oper, ({ up with lc := { up.lc with dres := 1 } }).dropHeld mg, { up with lc := { up.lc with dres := 1 } }, by decide +kernel⟩,
   ⟨mg, oper, ({ up with lc := { up.lc with words := [BitVec.allOnes 32, BitVec.allOnes 32, 0, 0] } } : State).dropHeld mg, State.teardownAll (State.useChallenge (({ up with lc := { up.lc with words := [BitVec.allOnes 32, BitVec.allOnes 32, 0, 0] } } : State).dropHeld mg)) alDebugOpen .debugOpen, { up with lc := { up.lc with words := [BitVec.allOnes 32, BitVec.allOnes 32, 0, 0] } }, by decide +kernel, by decide +kernel, by decide +kernel, by decide +kernel, by exact Or.inl (by decide), by decide +kernel, by decide +kernel, by decide +kernel, by rfl⟩,
   ⟨{ up with rst := { up.rst with step := 0 } }, by exact Or.inl (by decide)⟩⟩

theorem test_meets_PowerLoopAndMessages_1 :
    (∃ (p : Nat) (w u x : State) (s : State), 2 ≤ s.rst.step ∧ s.pwr.intervalAt + 1000000 ≤ s.sys.now ∧ (if s.runsThrottled then s.noteThrottle true else s) = w ∧ { w with pwr := { w.pwr with intervalAt := w.now, pW := min 65535 p, throttled := s.runsThrottled, lowRun := if 10 * min 65535 p ≤ 90 * w.pwr.shareW then min 10 (w.pwr.lowRun + 1) else 0 } } = u ∧ ((u.noteDemand s.runsThrottled (min 65535 p)).notePacing (s.now - s.pwr.intervalAt)).applyFloors.endHolds = x ∧ (if x.inService && !x.pwr.testHold then x.loopStep.applyFloors else x.applyPoints).runsThrottled = false) ∧
    (∃ (p : Nat) (w u x y : State) (s : State), 2 ≤ s.rst.step ∧ s.pwr.intervalAt + 1000000 ≤ s.sys.now ∧ (if s.runsThrottled then s.noteThrottle true else s) = w ∧ { w with pwr := { w.pwr with intervalAt := w.now, pW := min 65535 p, throttled := s.runsThrottled, lowRun := if 10 * min 65535 p ≤ 90 * w.pwr.shareW then min 10 (w.pwr.lowRun + 1) else 0 } } = u ∧ ((u.noteDemand s.runsThrottled (min 65535 p)).notePacing (s.now - s.pwr.intervalAt)).applyFloors.endHolds = x ∧ (if x.inService && !x.pwr.testHold then x.loopStep.applyFloors else x.applyPoints) = y ∧ y.runsThrottled = true) ∧
    (∃ (p : Nat) (s : State), s.pwr.raising = some p) ∧
    (∃ (s : State), s.pwr.raising = none) ∧
    (∃ (site : Nat) (s : State), (s.pwr.siteWait.any fun e => e.1 = site && e.2 ≤ s.now) = true) ∧
    (∃ (site : Nat) (s : State), (s.pwr.siteWait.any fun e => e.1 = site && e.2 ≤ s.now) = false) ∧
    (∃ (t u : State) (s : State), 2 ≤ s.rst.step ∧ s.boot.phase = 4 ∧ s.hst.group ≠ .electing ∧ s.pwr.reallocAt + 10000000 ≤ s.sys.now ∧ { s with pwr := { s.pwr with reallocAt := s.now } } = t ∧ t.isLead = true ∧ (t.shares.foldl (fun s e => if e.1 = s.pos then s else s.toPeer e.1 bkShare [e.2]) t) = u) ∧
    (∃ (t : State) (s : State), 2 ≤ s.rst.step ∧ s.boot.phase = 4 ∧ s.hst.group ≠ .electing ∧ s.pwr.reallocAt + 10000000 ≤ s.sys.now ∧ { s with pwr := { s.pwr with reallocAt := s.now } } = t ∧ t.isLead = false) :=
  ⟨⟨0, if calm.runsThrottled then calm.noteThrottle true else calm, taken calm, noted calm, calm, by decide +kernel⟩,
   ⟨0, if late.runsThrottled then late.noteThrottle true else late, taken late, noted late, if (noted late).inService && !(noted late).pwr.testHold then (noted late).loopStep.applyFloors else (noted late).applyPoints, late, by decide +kernel, by decide +kernel, by decide +kernel, by decide +kernel, by rfl, by rfl, by rfl⟩,
   ⟨3, { up with pwr := { up.pwr with raising := some 3 } }, by decide +kernel⟩,
   ⟨up, by decide +kernel⟩,
   ⟨2, { up with pwr := { up.pwr with siteWait := [(2, 0)] } }, by decide +kernel⟩,
   ⟨2, up, by decide +kernel⟩,
   ⟨{ late with pwr := { late.pwr with reallocAt := late.now } }, ((State.shares { late with pwr := { late.pwr with reallocAt := late.now } }).foldl (fun s e => if e.1 = s.pos then s else s.toPeer e.1 bkShare [e.2]) { late with pwr := { late.pwr with reallocAt := late.now } }), late, by decide +kernel⟩,
   ⟨{ late with hst := { late.hst with leadPos := 1 }, pwr := { late.pwr with reallocAt := late.now } }, { late with hst := { late.hst with leadPos := 1 } }, by decide +kernel⟩⟩

theorem test_meets_PowerLoopAndMessages_2 :
    (∃ (w : Nat) (s : State), 2 ≤ s.rst.step ∧ s.hst.group ≠ .electing ∧ s.isLead = false) ∧
    (∃ (w : Nat) (s : State), s.isLead = true) ∧
    (∃ (s : State), 2 ≤ s.rst.step ∧ s.isLead = false ∧ s.pwr.shareAt + 50000000 ≤ s.sys.now) ∧
    (∃ (m : Mgmt) (w lease : Nat) (t : State) (s : State), s.leads m = true ∧ w < 65536 ∧ lease ≤ 3600 ∧ { s with pwr := { s.pwr with budget := w, budgetEnd := if lease = 0 then 0 else s.now + lease * 1000000000 } } = t) ∧
    (∃ (m : Mgmt) (w lease : Nat) (s : State), s.leads m = true ∧ (65536 ≤ w ∨ 3600 < lease)) ∧
    (∃ (s : State), 2 ≤ s.rst.step ∧ s.pwr.budgetEnd ≠ 0 ∧ s.pwr.budgetEnd ≤ s.sys.now) ∧
    (∃ (m : Mgmt) (s : State), s.hears m false = true) ∧
    (∃ (m : Mgmt) (limit : Nat) (clearCeil : Bool) (s : State), s.hears m true = true ∧ limit < 65536) :=
  ⟨⟨500, { up with hst := { up.hst with leadPos := 3 } }, by decide +kernel⟩,
   ⟨500, up, by decide +kernel⟩,
   ⟨{ up with sys := { up.sys with now := 10 ^ 10, mainPower := true }, hst := { up.hst with leadPos := 3 } }, by decide +kernel⟩,
   ⟨oper, 500, 0, { up with pwr := { up.pwr with budget := 500, budgetEnd := 0 } }, up, by decide +kernel⟩,
   ⟨oper, 500, 3601, up, by decide +kernel⟩,
   ⟨{ up with sys := { up.sys with now := 10 ^ 10, mainPower := true }, pwr := { up.pwr with budgetEnd := 5 } }, by decide +kernel⟩,
   ⟨oper, up, by decide +kernel⟩,
   ⟨oper, 500, true, up, by decide +kernel⟩⟩

theorem test_meets_PowerLoopAndMessages_3 :
    (∃ (m : Mgmt) (limit : Nat) (clearCeil : Bool) (s : State), s.hears m true = true ∧ 65536 ≤ limit) ∧
    (∃ (s : State), 2 ≤ s.rst.step ∧ s.pwr.reportAt + 100000000 ≤ s.sys.now ∧ (allSlots.any fun i => (s.slot i).state = .live) = true) ∧
    (∃ (s : State), (allSlots.any fun i => (s.slot i).state = .live) = false) ∧
    (∃ (r : Req) (v : BitVec 32) (u : State) (t : State) (s : State), s.served r 0x4B0010 = true ∧ r.mgmt = true ∧ s.dropHeld r = t ∧ { t with pwr := { t.pwr with lock := t.pwr.lock || v.getLsbD 0, recoveryOpp := if t.pwr.lock then t.pwr.recoveryOpp else bits v.toNat 3 1, testHold := if v.getLsbD 4 && !(allSlots.all fun i => (t.slot i).state = .empty) then t.pwr.testHold else v.getLsbD 4, testOpp := bits v.toNat 7 5, testLevel := bits v.toNat 11 8 } } = u) :=
  ⟨⟨oper, 65536, true, up, by decide +kernel⟩,
   ⟨({ up with sys := { up.sys with now := 10 ^ 10, mainPower := true } } : State).setSlot 3 { state := .live }, by decide +kernel⟩,
   ⟨up, by decide +kernel⟩,
   ⟨mg, 5, { up.dropHeld mg with pwr := { up.pwr with lock := true, recoveryOpp := 2, testHold := false, testOpp := 0, testLevel := 0 } }, up.dropHeld mg, up, by decide +kernel⟩⟩

theorem test_meets_PowerFaults_1 :
    (∃ (s : State), s.sys.mainPower = true) ∧
    (∃ (src : Nat) (t : State) (s : State), s.sys.mainPower = true ∧ src < 8 ∧ s.requestLevel src (s.siteLevel src + 4) = t) ∧
    (∃ (src : Nat) (s : State), 9 ≤ src) ∧
    (∃ (hottest : Nat) (s : State), s.sys.mainPower = true ∧ thermCode s.pwr.therm.1 ≤ hottest) ∧
    (∃ (hottest : Nat) (s : State), s.sys.mainPower = true ∧ thermCode s.pwr.therm.2.1 ≤ hottest) ∧
    (∃ (hottest : Nat) (s : State), s.sys.mainPower = true ∧ thermCode s.pwr.therm.2.2 ≤ hottest) ∧
    (∃ (hottest : Nat) (s : State), s.sys.mainPower = true ∧ hottest < thermCode s.pwr.therm.1) ∧
    (∃ (s : State), 2 ≤ s.rst.step) :=
  ⟨⟨{ up with sys := { up.sys with now := 10 ^ 10, mainPower := true } }, by decide +kernel⟩,
   ⟨0, late.requestLevel 0 (late.siteLevel 0 + 4), late, by decide +kernel⟩,
   ⟨9, up, by decide +kernel⟩,
   ⟨65535, { up with sys := { up.sys with now := 10 ^ 10, mainPower := true } }, by decide +kernel⟩,
   ⟨65535, { up with sys := { up.sys with now := 10 ^ 10, mainPower := true } }, by decide +kernel⟩,
   ⟨65535, { up with sys := { up.sys with now := 10 ^ 10, mainPower := true } }, by decide +kernel⟩,
   ⟨0, { up with sys := { up.sys with now := 10 ^ 10, mainPower := true } }, by decide +kernel⟩,
   ⟨up, by decide +kernel⟩⟩

theorem test_meets_PowerFaults_2 :
    (∃ (k c v : Nat) (s : State), 2 ≤ s.rst.step ∧ k < s.pwr.stages.length ∧ (s.isInput k && decide (c = pmReadVin)) = false) ∧
    (∃ (t0 : Nat) (s : State), s.pwr.vinBadSince = some t0 ∧ t0 + 10000000 ≤ s.sys.now ∧ s.pwr.vinFault = false) ∧
    (∃ (s : State), s.pwr.vinBadSince = none) ∧
    (∃ (stage : Nat) (s : State), 2 ≤ s.rst.step ∧ stage < s.pwr.stages.length ∧ s.pwr.stageAt.get 0 stage + 10000000 ≤ s.sys.now) ∧
    (∃ (stage : Nat) (s : State), s.pwr.stages.length ≤ stage) ∧
    (∃ (s : State), 2 ≤ s.rst.step ∧ s.boot.trainDirty = true ∧ (s.boot.trainAt = 0 ∨ s.boot.trainAt + 10000000000 ≤ s.now + 1)) ∧
    (∃ (s : State), s.boot.trainDirty = false) ∧
    (∃ (p : Nat) (s : State), (s.rst.step < 2 ∨ s.now < s.pwr.intervalAt + 1000000)) :=
  ⟨⟨0, 0, 5, { late with pwr := { late.pwr with stages := [(1, 2, 3)] } }, by decide +kernel⟩,
   ⟨5, { up with sys := { up.sys with now := 10 ^ 10, mainPower := true }, pwr := { up.pwr with vinBadSince := some 5 } }, by decide +kernel⟩,
   ⟨up, by decide +kernel⟩,
   ⟨0, { late with pwr := { late.pwr with stages := [(1, 2, 3)] } }, by decide +kernel⟩,
   ⟨99, up, by decide +kernel⟩,
   ⟨{ up with boot := { up.boot with trainDirty := true } }, by decide +kernel⟩,
   ⟨up, by decide +kernel⟩,
   ⟨9, { up with rst := { up.rst with step := 1 } }, by exact Or.inl (by decide)⟩⟩

theorem test_meets_PowerFaults_3 :
    (∃ (s : State), (s.rst.step < 2 ∨ s.boot.phase ≠ 4 ∨ s.hst.group = .electing ∨ s.now < s.pwr.reallocAt + 10000000)) ∧
    (∃ (w : Nat) (s : State), (s.rst.step < 2 ∨ s.hst.group = .electing ∨ s.isLead = true)) ∧
    (∃ (s : State), (s.rst.step < 2 ∨ s.isLead = true ∨ s.now < s.pwr.shareAt + 50000000)) ∧
    (∃ (s : State), (s.rst.step < 2 ∨ s.pwr.budgetEnd = 0 ∨ s.now < s.pwr.budgetEnd)) ∧
    (∃ (s : State), (s.rst.step < 2 ∨ s.now < s.pwr.reportAt + 100000000)) ∧
    (∃ (src : Nat) (s : State), s.sys.mainPower = false) ∧
    (∃ (hottest : Nat) (s : State), (s.sys.mainPower = false ∨ hottest < thermCode s.pwr.therm.1)) ∧
    (∃ (hottest : Nat) (s : State), (s.sys.mainPower = false ∨ hottest < thermCode s.pwr.therm.2.1)) :=
  ⟨⟨{ up with rst := { up.rst with step := 1 } }, by exact Or.inl (by decide)⟩,
   ⟨500, { up with rst := { up.rst with step := 1 } }, by exact Or.inl (by decide)⟩,
   ⟨{ up with rst := { up.rst with step := 1 } }, by exact Or.inl (by decide)⟩,
   ⟨{ up with rst := { up.rst with step := 1 } }, by exact Or.inl (by decide)⟩,
   ⟨{ up with rst := { up.rst with step := 1 } }, by exact Or.inl (by decide)⟩,
   ⟨2, { up with sys := { up.sys with mainPower := false } }, by decide +kernel⟩,
   ⟨9, { up with sys := { up.sys with mainPower := false } }, by exact Or.inl (by decide)⟩,
   ⟨9, { up with sys := { up.sys with mainPower := false } }, by exact Or.inl (by decide)⟩⟩

theorem test_meets_PowerFaults_4 :
    (∃ (hottest : Nat) (s : State), (s.sys.mainPower = false ∨ hottest < thermCode s.pwr.therm.2.2)) ∧
    (∃ (hottest : Nat) (s : State), (s.sys.mainPower = false ∨ thermCode s.pwr.therm.1 ≤ hottest)) ∧
    (∃ (l : List (Nat × Nat × Nat)) (s : State), s.rst.step < 2) ∧
    (∃ (k c v : Nat) (s : State), 2 ≤ s.rst.step ∧ s.pwr.stages.length ≤ k) ∧
    (∃ (k v : Nat) (s : State), 2 ≤ s.rst.step ∧ k < s.pwr.stages.length ∧ s.isInput k = true) ∧
    (∃ (s : State), s.pwr.vinFault = true) ∧
    (∃ (t0 : Nat) (s : State), s.pwr.vinBadSince = some t0 ∧ s.now < t0 + 10000000) ∧
    (∃ (stage : Nat) (s : State), (s.rst.step < 2 ∨ s.now < s.pwr.stageAt.get 0 stage + 10000000)) :=
  ⟨⟨9, { up with sys := { up.sys with mainPower := false } }, by exact Or.inl (by decide)⟩,
   ⟨9, { up with sys := { up.sys with mainPower := false } }, by exact Or.inl (by decide)⟩,
   ⟨[(1, 2, 3)], { up with rst := { up.rst with step := 1 } }, by decide +kernel⟩,
   ⟨99, 1, 2, up, by decide +kernel⟩,
   ⟨0, 5, { late with pwr := { late.pwr with stages := [(1, 2, 0)] } }, by decide +kernel⟩,
   ⟨{ up with pwr := { up.pwr with vinFault := true } }, by decide +kernel⟩,
   ⟨5, { up with pwr := { up.pwr with vinBadSince := some 5 }, sys := { up.sys with now := 7 } }, by decide +kernel⟩,
   ⟨1, { up with rst := { up.rst with step := 1 } }, by exact Or.inl (by decide)⟩⟩

theorem test_meets_PowerFaults_5 :
    ∃ (s : State), (s.rst.step < 2 ∨ s.boot.trainAt ≠ 0 ∧ s.now + 1 < s.boot.trainAt + 10000000000) :=
  ⟨{ up with rst := { up.rst with step := 1 } }, by exact Or.inl (by decide)⟩

theorem test_meets_HandleLookup :
    (∃ (s : State) (i h off len : Nat) (rd wr at_ : Bool), (hGen h = 0 ∨ 2 ^ fld (s.slice i).cfg 50 46 ≤ hIndex h)) ∧
    (∃ (s : State) (i h off len : Nat) (rd wr at_ : Bool), hGen h ≠ 0 ∧ hIndex h < 2 ^ fld (s.slice i).cfg 50 46) :=
  ⟨⟨up, 4, 5, 0, 8, true, false, false, by decide +kernel⟩,
   ⟨copying (cmd1 [0x10]), 4, mkHandle 0 1, 0, 8, true, false, false, by decide +kernel⟩⟩

theorem test_meets_BindingNeedsALockedInterface :
    ∃ (m : Mgmt) (slot slice : Nat) (s : State), s.hears m false = true ∧ s.slotFree slot = true ∧ slice < 2048 ∧ (s.slot slot).joinable = true ∧ (s.slice slice).tdi ≠ .locked ∧ (s.slice slice).tdi ≠ .run :=
  ⟨oper, 3, 4, { up with dom := { up.dom with slots := up.dom.slots.set {} 3 { state := .admitting } }, qm := { up.qm with slices := up.qm.slices.set {} 4 { state := .active } } }, by decide +kernel⟩

theorem test_meets_LevelOfASlice :
    (∃ (r : Req) (slice : Nat) (v : BitVec 32) (s : State), s.served r (slicePage slice + 8) = true ∧ s.pageWrite slice r = true ∧ s.queuesOf slice = []) ∧
    (∃ (r : Req) (slice : Nat) (v : BitVec 32) (s : State), s.served r (slicePage slice + 8) = true ∧ s.pageWrite slice r = true ∧ s.queuesOf slice ≠ []) ∧
    (∃ (r : Req) (slice : Nat) (s : State), s.served r (slicePage slice + 0x40) = true ∧ s.pageWrite slice r = true ∧ (s.slice slice).level = 0) :=
  ⟨⟨{ pasid := some 7 }, 4, 9, { up with qm := { up.qm with slices := up.qm.slices.set {} 4 { state := .active, cfg := 7 } } }, by decide +kernel⟩,
   ⟨{ pasid := some 7 }, 4, 1, { up with qm := { up.qm with slices := up.qm.slices.set {} 4 { state := .active, cfg := 7, queues := ({} : Tbl Queue).set {} 2 { state := .enabled } } } }, by decide +kernel⟩,
   ⟨{ pasid := some 7 }, 4, { up with qm := { up.qm with slices := up.qm.slices.set {} 4 { state := .active, cfg := 7, level := 0 } } }, by decide +kernel⟩⟩

theorem test_meets_FormatLadder :
    ∃ (s : State) (a : BitVec 64), s.chkArith a = 0 :=
  ⟨{ up with boot := { up.boot with variant := BitVec.ofNat 64 (1023 * 2 ^ 32) } }, 0x0000_0000_0004_0726, by decide +kernel⟩

theorem test_meets_NarrowIntegers :
    (∃ (c : Nat), c < 256) ∧
    (∃ (s : State) (b : List Byte), bits (leNat (b.take 2)) 11 8 = 8 ∧ (∃ i, i < 32 ∧ bits (leNat (b.drop 2)) (2 * i + 1) (2 * i) = 2)) :=
  ⟨⟨128, by decide +kernel⟩,
   ⟨up, [0x7F, 0x28, 2, 0, 0, 0, 0, 0, 0, 0], by decide +kernel⟩⟩

theorem test_meets_MaskedWritesMergeBytes :
    ∃ (old new : Line) (m : BitVec 64) (k : Nat), k < 512 :=
  ⟨0, 1, 1, 511, by decide +kernel⟩

theorem test_meets_OtpWrittenByThreeCommandsOnly :
    (∃ (c : Instr) (s t : State), (∀ ok, c ≠ .lcStep ok) ∧ (∀ r m v, c ≠ .anchorSet r m v) ∧ (∀ r m v, c ≠ .anchorRevoke r m v) ∧ exec c s = .next t) ∧
    (∃ (c : Instr) (s t : State), exec c s = .next t) :=
  ⟨⟨.kclkResume, up, _, by intros; simp, by intros; simp, by intros; simp, rfl⟩,
   ⟨.kclkResume, up, _, rfl⟩⟩

theorem test_meets_OtpOnlyMovesForward :
    ∃ s t : State, step s = .next t :=
  ⟨up, _, rfl⟩

theorem test_meets_StateWordsStayWhole :
    ∃ s t : State, (s.otpWhole) ∧ step s = .next t :=
  ⟨up, _, ⟨by decide +kernel, by decide +kernel, by simp [up]⟩, rfl⟩

theorem test_meets_StoredMemoriesReadBack :
    (∃ (s : State) (a b : Nat) (d : Line) (m : BitVec 64), s.memWf = true) ∧
    (∃ (s : State) (a b : Nat) (l : Line) (kid : Nat) (w : BitVec 8), s.memWf = true) ∧
    (∃ (s : State) (r u b : Nat), s.memWf = true) ∧
    (∃ (s : State) (lo n kid mode b : Nat), s.memWf = true) :=
  ⟨⟨up, 5, 5, 7, fullMask, by decide +kernel⟩,
   ⟨up, 5, 6, 7, 0, 255, by decide +kernel⟩,
   ⟨up, 3, 0, 100, by decide +kernel⟩,
   ⟨up, 16384, 2, 0, 0, 16384, by decide +kernel⟩⟩

end Sys2Proof.Tests
end

/-! The idle step, and register writes that the host link may not make (R6, R18, R35). -/

namespace Sys2Proof.Proofs
open Sys2Proof Sys2Proof.Machine

/-- Without main power an idle block does nothing. -/
theorem tick_unpowered {s : State} (h : s.sys.mainPower = false) : s.tick = s := by
  simp [State.tick, h]

/-- With main power an idle block lets a nanosecond pass, and then the slots of the walled steps. -/
theorem tick_powered {s : State} (h : s.sys.mainPower = true) :
    s.tick = State.wallSteps { s with sys := { s.sys with
      now := s.sys.now + 1,
      opSeconds := if (s.sys.now + 1) % 1000000000 = 0 ∧ s.sys.kclkStopped = false then s.sys.opSeconds + 1
        else s.sys.opSeconds } } := by
  by_cases h1 : (s.sys.now + 1) % 1000000000 = 0 <;> cases h2 : s.sys.kclkStopped <;> simp [State.tick, h, h1, h2, sec]

/-- No walled step takes a slot while nothing is loaded or ACLK is found stopped. -/
theorem wallSteps_of_none {s : State} (h : s.loaded = [] ∨ s.clkRuns .aclk = false) : s.wallSteps = s := by
  rcases h with h | h <;> simp [State.wallSteps, h]

theorem step_idle {s : State} (h : s.pending = []) : step s = .next s.tick := by
  simp [step, h]

/-- Settles O2: an empty queue lets the block tick, and the tick is the passing of powered time. -/
theorem idleStepPassesPoweredTime : Obligations.IdleStepPassesPoweredTime := by
  refine ⟨fun s t hq hp ht => ?_, fun t => wallSteps_of_none, fun s hq hp => ?_⟩
  · rw [step_idle hq, tick_powered hp, ht]
  · rw [step_idle hq, tick_unpowered hp]

/-- The outcome of a served write of a management-only register from the host link (R18). -/
theorem next_regWriteMgmt_host {s : State} {r : Req} {off width : Nat} {f : State → State} (h : s.served r off = true)
    (hm : r.mgmt = false) : (.next (s.regWriteMgmt r off width f) : Res) = .next (s.dropHeld r) := by
  rw [regWriteMgmt_host h hm]

/-- From the host link `LNK_CTL.ENABLE` does not switch the port's domain on, so that the write is ignored whole. -/
theorem execLinkEnable_host {s : State} {r : Req} {l : Nat} {on : Bool} (h : s.served r (lnkCtl (portOf l)) = true)
    (hm : r.mgmt = false) : execLinkEnable r l on s = .next (s.dropHeld r) := by
  simp [execLinkEnable, hm, regWriteMgmt_host h hm]

/-- Settles O8: each command is one write of a management-only register, which the shared gate ignores from the host link. -/
theorem managementWritesFromHostIgnored : Obligations.ManagementWritesFromHostIgnored :=
  ⟨fun _ _ _ => next_regWriteMgmt_host, fun _ _ => next_regWriteMgmt_host, fun _ _ _ => next_regWriteMgmt_host,
   fun _ _ _ => next_regWriteMgmt_host, fun _ _ => next_regWriteMgmt_host, fun _ _ _ => next_regWriteMgmt_host,
   fun _ _ _ => next_regWriteMgmt_host, fun _ _ _ => next_regWriteMgmt_host, fun _ _ _ => next_regWriteMgmt_host,
   fun _ _ _ => next_regWriteMgmt_host, fun _ _ _ _ => next_regWriteMgmt_host, fun _ _ _ _ => next_regWriteMgmt_host,
   fun _ _ _ _ => next_regWriteMgmt_host, fun _ _ _ _ => next_regWriteMgmt_host, fun _ _ _ => next_regWriteMgmt_host,
   fun _ _ _ _ => execLinkEnable_host, fun _ _ _ => next_regWriteMgmt_host, fun _ _ _ => next_regWriteMgmt_host,
   fun _ _ _ _ => next_regWriteMgmt_host, fun _ _ _ _ => next_regWriteMgmt_host, fun _ _ _ _ => next_regWriteMgmt_host⟩

end Sys2Proof.Proofs

/-! Reset requests, the end of a fence, and the RST registers (R453 to R469). -/

namespace Sys2Proof.Proofs
open Sys2Proof Sys2Proof.Machine

/-! ## What the parts of an assertion leave of the boot state and the sealed memory -/

@[simp] theorem clearRst_phase (s : State) (l : Level) : (s.clearRst l).rst.phase = .held := rfl
@[simp] theorem clearRst_step (s : State) (l : Level) : (s.clearRst l).rst.step = 0 := rfl
@[simp] theorem clearRst_fenceStep (s : State) (l : Level) : (s.clearRst l).rst.fenceStep = 0 := rfl
@[simp] theorem clearRst_boot (s : State) (l : Level) : (s.clearRst l).boot = s.boot := rfl
@[simp] theorem clearRst_msl (s : State) (l : Level) : (s.clearRst l).msl = s.msl := rfl
@[simp] theorem clearSys_boot (s : State) (l : Level) : (s.clearSys l).boot = s.boot := by cases l <;> rfl
@[simp] theorem clearSys_msl (s : State) (l : Level) : (s.clearSys l).msl = s.msl := by cases l <;> rfl
@[simp] theorem clearBoot_phase (s : State) (l : Level) : (s.clearBoot l).boot.phase = 0 := by cases l <;> rfl
@[simp] theorem clearBoot_msl (s : State) (l : Level) : (s.clearBoot l).msl = s.msl := rfl
@[simp] theorem clearPwr_msl (s : State) (l : Level) : (s.clearPwr l).msl = s.msl := rfl
@[simp] theorem clearLc_msl (s : State) : s.clearLc.msl = s.msl := rfl
@[simp] theorem clearRcd_msl (s : State) (l : Level) : (s.clearRcd l).msl = s.msl := by cases l <;> rfl
@[simp] theorem clearHst_msl (s : State) (l : Level) : (s.clearHst l).msl = s.msl := rfl
@[simp] theorem clearHth_msl (s : State) (l : Level) : (s.clearHth l).msl = s.msl := rfl
@[simp] theorem clearMsl_ready (s : State) (l : Level) : (s.clearMsl l).msl.ready = false := by cases l <;> rfl

/-- At every level the assertion of a reset holds each unit. -/
theorem assertLevel_holds (s : State) : s.assertLevel.rst.phase = .held ∧ s.assertLevel.rst.step = 0 ∧
    s.assertLevel.rst.fenceStep = 0 ∧ s.assertLevel.boot.phase = 0 ∧ s.assertLevel.msl.ready = false := by
  simp [State.assertLevel]

/-! ## Requests (R454) -/

/-- The answer to a reset request leaves what its level is judged by. -/
theorem levelFor_answer (s : State) (a : DomResult) (src : Source) (l : Level) :
    (s.answer a).levelFor src l = s.levelFor src l := rfl

theorem levelFor_dropHeld (s : State) (r : Req) (src : Source) (l : Level) :
    (s.dropHeld r).levelFor src l = s.levelFor src l := rfl

theorem execResetReq_begins {m : Mgmt} {l : Nat} {dump : Bool} {s : State} (hh : s.hears m true = true)
    (hp : s.rst.phase = .ready) (hb : s.lc.begun = false) (h2 : 2 ≤ l) (h4 : l ≤ 4) :
    exec (.resetReq m l dump) s = .next ((s.answer .ok).beginReset .mgmt
      (if l = 2 then .sysrst else if l = 3 then .warm else .core) dump) := by
  change execResetReq m l dump s = _
  have hr : s.resetting = false := by simp [State.resetting, hp]
  obtain rfl | rfl | rfl : l = 2 ∨ l = 3 ∨ l = 4 := by omega
  all_goals simp [execResetReq, domMsg_hears hh, hr, hb]

theorem execResetReq_badParam {m : Mgmt} {l : Nat} {dump : Bool} {s : State} (hh : s.hears m true = true)
    (hl : l < 2 ∨ 4 < l) : exec (.resetReq m l dump) s = .next (s.answer .badParam) := by
  change execResetReq m l dump s = _
  obtain rfl | rfl | ⟨k, rfl⟩ : l = 0 ∨ l = 1 ∨ ∃ k, l = k + 5 := by
    rcases hl with hl | hl
    · omega
    · exact .inr (.inr ⟨l - 5, by omega⟩)
  all_goals exact congrArg Host.Outcome.next (domMsg_hears hh)

theorem execResetReq_busy {m : Mgmt} {l : Nat} {dump : Bool} {s : State} (hh : s.hears m true = true)
    (h2 : 2 ≤ l) (h4 : l ≤ 4) (hb : s.rst.phase ≠ .ready ∨ s.lc.begun = true) :
    exec (.resetReq m l dump) s = .next (s.answer .busy) := by
  change execResetReq m l dump s = _
  have hr : (s.resetting || s.lc.begun) = true := by simpa [State.resetting] using hb
  obtain rfl | rfl | rfl : l = 2 ∨ l = 3 ∨ l = 4 := by omega
  all_goals simp only [execResetReq, domMsg_hears hh, hr, if_true]

theorem execRstReqWrite_begins {r : Req} {v : BitVec 32} {s : State} (hs : s.served r 0x490018 = true)
    (hk : kernelReq r = true) (he : s.rst.hostReqEn = true) (hp : s.rst.phase = .ready)
    (hv : bits v.toNat 2 0 = 3 ∨ bits v.toNat 2 0 = 4) :
    exec (.rstReqWrite r v) s = .next ((s.dropHeld r).beginReset .host
      (if bits v.toNat 2 0 = 3 then .warm else .core) (v.getLsbD 3)) := by
  change execRstReqWrite r v s = _
  have hr : (s.dropHeld r).resetting = false := by simp [State.resetting, State.dropHeld, hp]
  have he' : (s.dropHeld r).rst.hostReqEn = true := he
  rcases hv with hv | hv <;> simp [execRstReqWrite, regWrite_served hs hk, he', hr, hv]

theorem execRstReqWrite_ignored {r : Req} {v : BitVec 32} {s : State} (hs : s.served r 0x490018 = true)
    (hk : kernelReq r = true)
    (h : s.rst.hostReqEn = false ∨ s.rst.phase ≠ .ready ∨ (bits v.toNat 2 0 ≠ 3 ∧ bits v.toNat 2 0 ≠ 4)) :
    exec (.rstReqWrite r v) s = .next (s.dropHeld r) := by
  change execRstReqWrite r v s = _
  unfold execRstReqWrite
  rw [regWrite_served hs hk]
  split
  · rfl
  · rename_i hc
    have hen : s.rst.hostReqEn = true ∧ s.rst.phase = .ready := by simpa [State.resetting, State.dropHeld] using hc
    split
    case h_3 => rfl
    all_goals simp_all

/-! ## Waits of a fence, and its end (R459, R460) -/

/-- Past its queues, a `SYSRST_WARM` fence that awaits no stack any more ends. -/
theorem fenceAdvance_warm {s : State} (hp : s.rst.phase = .fencing) (hf : 4 ≤ s.rst.fenceStep) (hl : s.rst.level = .warm) :
    s.fenceAdvance = if s.rst.srWait = [] then s.fenceEnd else s := by
  unfold State.fenceAdvance
  rw [if_neg (by simp [hp]), if_neg (by omega)]
  simp [hl]

theorem execFenceTimeout_late {s u : State} (hp : s.rst.phase = .fencing) (hn : s.rst.fenceAt + 20 * 1000000 ≤ s.sys.now)
    (hu : (if s.rst.fenceStep < 5 then State.loseUnwritten { s with rst := { s.rst with forced := true } }
      else { s with rst := { s.rst with forced := true } }) = u) :
    exec .fenceTimeout s = .next (if u.rst.level = .warm then
      (u.releaseStacks (if s.rst.fenceStep < 6 then [0, 1, 2, 3] else s.rst.srWait)).fenceEnd else u.fenceEnd) := by
  subst hu
  change execFenceTimeout s = _
  unfold execFenceTimeout
  have hlate : ¬ s.now < s.rst.fenceAt + 20 * ms := Nat.not_lt.mpr hn
  rw [if_neg (by simp [hp, hlate])]
  dsimp only
  rw [← apply_ite State.fenceEnd]

theorem execRecoveryTimeout_late {s : State} (hp : s.rst.phase = .held ∨ s.rst.phase = .recovering)
    (hn : s.rst.assertAt + 10 * 1000000000 ≤ s.sys.now) (hf : s.rst.source.fenced = true) (he : s.rst.escalated = false) :
    exec .recoveryTimeout s = .next (State.assertLevel { s.noteSource .recoveryFail with
      rst := { (s.noteSource .recoveryFail).rst with source := .recoveryFail, level := .sysrst, escalated := true, wantDump := false } }) := by
  change execRecoveryTimeout s = _
  unfold execRecoveryTimeout
  have hp' : (decide (s.rst.phase = .held) || decide (s.rst.phase = .recovering)) = true := by simpa using hp
  rw [if_neg (by rw [hp']; simp [hf, he, State.now, sec, hn])]

theorem execRstDumpDataRead_served {r : Req} {s : State} (hs : s.mgmtServes 0x490028 = true)
    (hl : s.lcBars 0x490028 = false) (hm : r.mgmt = true) :
    exec (.rstDumpDataRead r) s = .next (s.readDump.2.emit (.regRead s.readDump.1)) := by
  change execRstDumpDataRead r s = _
  simp [execRstDumpDataRead, hs, hl, hm]

/-- Settles O6: the requests through the rule of a source that arises while no reset runs, the waits and registers row by row. -/
theorem resetRequests : Obligations.ResetRequests := by
  refine ⟨fun m l dump u s hh hp hb h2 h4 hu => ?_, fun m l dump s hh => ⟨execResetReq_badParam hh, fun h => ?_⟩,
    fun r v u s hs hk he hp hv hu => ?_, fun r v s => execRstReqWrite_ignored, fun u s h2 hp hu => ?_,
    fun stack s hw hp hf hl => ?_, fun u s => execFenceTimeout_late, fun u => assertLevel_holds _,
    fun u s hp hn hf he hu => ?_, fun r s hs hm => ?_, fun r s => execRstDumpDataRead_served, fun r v s hs hm => ?_⟩
  · subst hu
    rw [execResetReq_begins hh hp hb h2 h4, beginReset_ready (s := s.answer .ok) hp rfl, levelFor_answer]
  · obtain ⟨h2, h4, hb⟩ := h
    exact execResetReq_busy hh h2 h4 hb
  · subst hu
    rw [execRstReqWrite_begins hs hk he hp hv, beginReset_ready (s := s.dropHeld r) hp rfl, levelFor_dropHeld]
  · subst hu
    change execWatchdogExpiry s = _
    rw [execWatchdogExpiry, if_neg (by omega), beginReset_ready hp rfl]
  · change execSelfRefreshAck stack s = _
    unfold execSelfRefreshAck
    rw [if_neg (by simpa using hw)]
    exact congrArg _ (fenceAdvance_warm hp hf hl)
  · subst hu
    exact execRecoveryTimeout_late hp hn hf he
  · exact congrArg _ (regWriteMgmt_served hs hm)
  · change execRstCtlWrite r v s = _
    rw [execRstCtlWrite, regWriteMgmt_served hs hm]
    rfl

end Sys2Proof.Proofs

/-! SPDM requests and measurements (R58, R60, R132). -/

namespace Sys2Proof.Proofs
open Sys2Proof Sys2Proof.Machine

/-! ## Requests (R4, R58) -/

/-- GET_MEASUREMENTS over SPDM names its index in the second parameter and its nonce in the body (R60). -/
theorem execSpdmRequest_measurements {m : Mgmt} {code p1 p2 : BitVec 8} {body : List Byte} {s : State} (hs : s.serving = true)
    (hc : code = 0xE0) :
    exec (.spdmRequest m code p1 p2 body) s = .next (s.measurements p2.toNat (BitVec.ofNat 256 (leNat (body.take 32)))) :=
  congrArg Host.Outcome.next ((spdmServe_serving hs).trans (if_pos hc))

/-- Another request is answered with its body, under the code 0x80 lower. -/
theorem execSpdmRequest_ok {m : Mgmt} {code p1 p2 : BitVec 8} {body b : List Byte} {s u : State} (hs : s.serving = true)
    (hc : code ≠ 0xE0) (hb : s.spdmBody code.toNat p1.toNat body = .ok (b, u)) :
    exec (.spdmRequest m code p1 p2 body) s = .next (u.emit (.spdm (code.toNat - 0x80) b)) := by
  change execSpdmRequest m code p1 p2 body s = _
  rw [execSpdmRequest, spdmServe_serving hs, if_neg hc, hb]

theorem execSpdmRequest_error {m : Mgmt} {code p1 p2 : BitVec 8} {body : List Byte} {e : Nat} {s : State} (hs : s.serving = true)
    (hc : code ≠ 0xE0) (hb : s.spdmBody code.toNat p1.toNat body = .error e) :
    exec (.spdmRequest m code p1 p2 body) s = .next (s.spdmError e) := by
  change execSpdmRequest m code p1 p2 body s = _
  rw [execSpdmRequest, spdmServe_serving hs, if_neg hc, hb]

/-! ## Bodies (R58) -/

/-- KEY_EXCHANGE judges the limit of sessions, the entropy and the algorithms, in this order. -/
theorem spdmBody_keyExchange_sessions {s : State} {p1 : Nat} {body : List Byte} (h : 4 ≤ s.dom.sessions) :
    s.spdmBody 0xE4 p1 body = .error spdmSessions := if_pos h

theorem spdmBody_keyExchange_busy {s : State} {p1 : Nat} {body : List Byte} (h : ¬ 4 ≤ s.dom.sessions)
    (ht : s.fbx.trngFailed = true) : s.spdmBody 0xE4 p1 body = .error spdmBusy := (if_neg h).trans (if_pos ht)

theorem spdmBody_keyExchange_unexpected {s : State} {p1 : Nat} {body : List Byte} (h : ¬ 4 ≤ s.dom.sessions)
    (ht : s.fbx.trngFailed = false) (ha : s.dom.algs = false) : s.spdmBody 0xE4 p1 body = .error spdmUnexpected := by
  simp [State.spdmBody, h, ht, ha]

/-- An accepted KEY_EXCHANGE opens a session; what it draws sends nothing. -/
theorem spdmBody_keyExchange_ok {s : State} {p1 : Nat} {body : List Byte} (h : ¬ 4 ≤ s.dom.sessions)
    (ht : s.fbx.trngFailed = false) (ha : s.dom.algs = true) :
    ∃ b u, s.spdmBody 0xE4 p1 body = .ok (b, u) ∧ u.dom.sessions = s.dom.sessions + 1 ∧ u.out = s.out := by
  simp only [State.spdmBody, h, ht, ha, if_false, Bool.not_true, Bool.false_eq_true]
  exact ⟨_, _, rfl, rfl, rfl⟩

/-- KEY_UPDATE answers its parameter. -/
theorem spdmBody_keyUpdate {s : State} {p1 : BitVec 8} {body : List Byte} :
    s.spdmBody 0xE9 p1.toNat body = .ok ([p1, 0], s) := by
  simp [State.spdmBody]

theorem spdmBody_challenge_busy {s : State} {p1 : Nat} {body : List Byte} (h : s.certSlots.contains p1 = true)
    (ht : s.fbx.trngFailed = true) : s.spdmBody 0x83 p1 body = .error spdmBusy :=
  (if_neg (by simpa using h)).trans (if_pos ht)

/-- CHALLENGE and GET_CERTIFICATE of a certificate slot that is not provisioned are invalid requests. -/
theorem spdmBody_unprovisioned {s : State} {p1 : Nat} {body : List Byte} (h : s.certSlots.contains p1 = false) :
    s.spdmBody 0x83 p1 body = .error spdmInvalid ∧ s.spdmBody 0x82 p1 body = .error spdmInvalid :=
  ⟨if_pos (by rw [h]; rfl), if_pos (by rw [h]; rfl)⟩

/-! ## Measurements (R60, R132) -/

theorem execGetMeasurements_serving {m : Mgmt} {index : BitVec 8} {nonce : BitVec 256} {s : State} (hs : s.serving = true) :
    exec (.getMeasurements m index nonce) s = .next (s.measurements index.toNat nonce) :=
  congrArg Host.Outcome.next (spdmServe_serving hs)

theorem measurements_member {s : State} {nonce : BitVec 256} (ht : s.fbx.trngFailed = false) :
    s.measurements 0x10 nonce = (s.memberStatement nonce).2.measAnswer [measBlock 0x10 measRaw (s.memberStatement nonce).1] :=
  if_neg (by simp [ht])

theorem measurements_busy {s : State} {nonce : BitVec 256} (ht : s.fbx.trngFailed = true) :
    s.measurements 0x10 nonce = s.spdmError spdmBusy := if_pos ht

/-- An index of one measurement is answered its block. -/
theorem measurements_block {s : State} {k : Nat} {nonce : BitVec 256} {b : List Byte} (h1 : 1 ≤ k) (h7 : k ≤ 7)
    (hb : s.measOf k = some b) : s.measurements k nonce = s.measAnswer [b] := by
  unfold State.measurements
  split
  case h_5 => rw [hb]
  all_goals omega

/-- Settles O28, from the bodies of the subset's requests and the measurement of each index. -/
theorem spdmAndMeasurements : Obligations.SpdmAndMeasurements := by
  refine ⟨fun m code p1 p2 body s => execSpdmRequest_measurements, fun m code p1 p2 body b u s => execSpdmRequest_ok,
    fun m code p1 p2 body e s => execSpdmRequest_error, fun m code p1 p2 body s hs hc => ?_,
    fun m code p1 p2 body s hs hc h => ?_, fun m code p1 p2 body s hs hc h ht => ?_,
    fun m code p1 p2 body s hs hc h ht ha => ?_, fun m code p1 p2 body s hs hc h ht ha => ?_,
    fun m code p1 p2 body s hs hc h ht => ?_, fun m code p1 p2 body s hs hc h => ?_,
    fun m code p1 p2 body s hs hc h => ?_, fun m code p1 p2 body s hs hc => ?_, fun m code p1 p2 body s hs hc => ?_,
    fun m code p1 p2 body s hs hc => ?_, fun m code p1 p2 body s hs hc => ?_, fun m code p1 p2 body s hs hc => ?_,
    fun m nonce s hs => execGetMeasurements_serving hs, fun m nonce s hs => execGetMeasurements_serving hs,
    fun m nonce s hs => execGetMeasurements_serving hs, fun m nonce s hs ht => ?_, fun m nonce s hs ht => ?_,
    fun m index nonce b s hs h1 h7 hb => ?_⟩
  · subst hc
    exact execSpdmRequest_ok hs (by decide) rfl
  · subst hc
    exact execSpdmRequest_error hs (by decide) (spdmBody_keyExchange_sessions h)
  · subst hc
    exact execSpdmRequest_error hs (by decide) (spdmBody_keyExchange_busy h ht)
  · subst hc
    exact execSpdmRequest_error hs (by decide) (spdmBody_keyExchange_unexpected h ht ha)
  · subst hc
    obtain ⟨b, u, hb, hn, ho⟩ := spdmBody_keyExchange_ok (p1 := p1.toNat) (body := body) h ht ha
    exact ⟨_, execSpdmRequest_ok hs (by decide) hb, hn, b, congrArg _ ho⟩
  · subst hc
    exact execSpdmRequest_error hs (by decide) (spdmBody_challenge_busy h ht)
  · subst hc
    exact execSpdmRequest_error hs (by decide) (spdmBody_unprovisioned h).1
  · subst hc
    exact execSpdmRequest_error hs (by decide) (spdmBody_unprovisioned h).2
  · subst hc
    exact execSpdmRequest_ok hs (by decide) rfl
  · subst hc
    exact execSpdmRequest_ok hs (by decide) rfl
  · subst hc
    exact execSpdmRequest_ok hs (by decide) spdmBody_keyUpdate
  · subst hc
    exact execSpdmRequest_ok hs (by decide) rfl
  · subst hc
    exact execSpdmRequest_error hs (by decide) rfl
  · exact (execGetMeasurements_serving hs).trans (congrArg _ (measurements_member ht))
  · exact (execGetMeasurements_serving hs).trans (congrArg _ (measurements_busy ht))
  · rw [execGetMeasurements_serving hs, measurements_block h1 h7 hb]

end Sys2Proof.Proofs

/-! The Firebox's registers and the flush of a retiring KID (R113, R120, R122, R134). -/

namespace Sys2Proof.Proofs
open Sys2Proof Sys2Proof.Machine

/-! ## Commands of `FBX_KCMD` (R120, R122) -/

/-- A served command of `FBX_KCMD` does nothing while the last one is pending. -/
theorem fbxCmd_pending {r : Req} {s t : State} {f : State → State} (hs : s.served r 0x20028 = true) (ht : s.dropHeld r = t)
    (hk : t.fbx.kres = 1) : s.fbxCmd r f = t := by
  subst ht
  rw [State.fbxCmd, regWrite_served hs rfl, if_pos hk]

theorem fbxCmd_free {r : Req} {s t : State} {f : State → State} (hs : s.served r 0x20028 = true) (ht : s.dropHeld r = t)
    (hk : t.fbx.kres ≠ 1) : s.fbxCmd r f = f t := by
  subst ht
  rw [State.fbxCmd, regWrite_served hs rfl, if_neg hk]

/-- What `BIND_PLAIN` does once no command is pending: the checks of R122 in their order. -/
theorem execBindPlain_free {r : Req} {kid : Kid} {s t : State} (hs : s.served r 0x20028 = true) (ht : s.dropHeld r = t)
    (hk : t.fbx.kres ≠ 1) :
    exec (.bindPlain r kid) s = .next (
      if kid.toNat = 0 then t.setFbxRes 5
      else if !t.kidPlain kid.toNat then t.setFbxRes 4
      else if (t.kid kid.toNat).state ≠ .free then t.setFbxRes 3
      else if t.fbx.trngFailed then t.setFbxRes 6
      else ((t.useCell .bootRoot).bindKid kid.toNat none).setFbxRes 2) :=
  congrArg _ (fbxCmd_free hs ht hk)

/-- What `RETIRE` does once no command is pending: the checks of R120 in their order. -/
theorem execFbxRetire_free {r : Req} {kid : Kid} {s t : State} (hs : s.served r 0x20028 = true) (ht : s.dropHeld r = t)
    (hk : t.fbx.kres ≠ 1) :
    exec (.fbxRetire r kid) s = .next (
      if kid.toNat = 0 then t.setFbxRes 5
      else if !t.kidPlain kid.toNat then t.setFbxRes 4
      else if (t.kid kid.toNat).state ≠ .active then t.setFbxRes 3
      else (t.modKid kid.toNat fun e => { e with state := .retiring }).setFbxRes 2) :=
  congrArg _ (fbxCmd_free hs ht hk)

/-! ## The control register (R134) -/

theorem execFbxCtlWrite_served {r : Req} {v : BitVec 32} {s t : State} (hs : s.served r 0x20008 = true)
    (ht : s.dropHeld r = t) :
    exec (.fbxCtlWrite r v) s = .next (if t.fbx.lock then t else { t with fbx := { t.fbx with
      lock := v.getLsbD 0, plainKidMax := if t.allKidsFree then v.extractLsb' 1 12 else t.fbx.plainKidMax,
      remaskLog2 := v.extractLsb' 13 4 } }) := by
  subst ht
  exact congrArg _ (regWrite_served hs rfl)

/-! ## The flush (R120, R509) -/

/-- The flush of a KID ends only while the Stoker runs, the KID is `RETIRING` and no accepted request needs it. -/
theorem execKidFlushComplete_early {kid : Kid} {s : State}
    (h : s.stokerRuns = false ∨ (s.kid kid.toNat).state ≠ .retiring ∨ s.kidInUse kid.toNat = true) :
    exec (.kidFlushComplete kid) s = .next s := by
  refine congrArg Host.Outcome.next (if_pos ?_)
  rcases h with h | h | h <;> simp [h]

theorem execKidFlushComplete_due {kid : Kid} {s : State} (hr : s.stokerRuns = true)
    (hk : (s.kid kid.toNat).state = .retiring) (hu : s.kidInUse kid.toNat = false) :
    exec (.kidFlushComplete kid) s = .next ((((((if s.kidKeyed kid.toNat then s.writeBackAll (Cached.under kid.toNat) else s).dropCached
      (Cached.under kid.toNat)).cellDrop (.kid kid.toNat)).modKid kid.toNat fun e => { e with state := .cooling }).kidSettle)) := by
  refine congrArg Host.Outcome.next (if_neg ?_)
  simp [hr, hk, hu]

/-- Settles O32, from the checks of each command in their order. -/
theorem fireboxRegisters : Obligations.FireboxRegisters := by
  refine ⟨fun r kid t s hs ht hk => congrArg _ (fbxCmd_pending hs ht hk),
    fun r kid t s hs ht hk => congrArg _ (fbxCmd_pending hs ht hk),
    fun r kid t s hs ht hk h0 => ?_, fun r kid t s hs ht hk h0 => ?_, fun r kid t s hs ht hk h0 hp => ?_,
    fun r kid t s hs ht hk h0 hp => ?_, fun r kid t s hs ht hk h0 hp hf => ?_, fun r kid t s hs ht hk h0 hp hf he => ?_,
    fun r kid t s hs ht hk h0 hp hf he => ?_, fun r kid t s hs ht hk h0 hp ha => ?_,
    fun r kid t s hs ht hk h0 hp ha => ?_, fun r v t s hs ht hl => ?_, fun r v t s hs ht hl => ?_,
    fun kid s hr hk hu hl => ?_, fun kid s hr hk hu hl => ?_,
    fun kid s h => execKidFlushComplete_early (.inr (.inl h)), fun kid s h => execKidFlushComplete_early (.inr (.inr h)),
    fun kid s h => execKidFlushComplete_early (.inl h)⟩
  · simp [execBindPlain_free hs ht hk, h0]
  · simp [execFbxRetire_free hs ht hk, h0]
  · simp [execBindPlain_free hs ht hk, h0, hp]
  · simp [execFbxRetire_free hs ht hk, h0, hp]
  · simp [execBindPlain_free hs ht hk, h0, hp, hf]
  · simp [execBindPlain_free hs ht hk, h0, hp, hf, he]
  · simp [execBindPlain_free hs ht hk, h0, hp, hf, he]
  · simp [execFbxRetire_free hs ht hk, h0, hp, ha]
  · simp [execFbxRetire_free hs ht hk, h0, hp, ha]
  · simp [execFbxCtlWrite_served hs ht, hl]
  · simp [execFbxCtlWrite_served hs ht, hl]
  · simp [execKidFlushComplete_due hr hk hu, hl]
  · simp [execKidFlushComplete_due hr hk hu, hl]

end Sys2Proof.Proofs

/-! Regions and hearth ranges by register, and scrubbing (R167, R168, R186, R199 to R207). -/

namespace Sys2Proof.Proofs
open Sys2Proof Sys2Proof.Machine

/-! ## Assignment and release by register (R167, R168, R186) -/

/-- What a served `ASSIGN` of `MSL_RCMD` does: the checks of R167 in their order. -/
theorem execMslAssign_served {r : Req} {s t : State} (hs : s.served r 0x40028 = true) (ht : s.dropHeld r = t) :
    exec (.mslAssign r) s = .next (
      if t.msl.rres = 1 then t
      else if (t.rgn t.msl.rsel).state ≠ .unassigned then t.setMslRes 3
      else if t.asgRgn (rgnOf t.msl.rcfg) none = 0 then (t.assignRgn t.msl.rsel (rgnOf t.msl.rcfg)).setMslRes 2
      else t.setMslRes (asgReport (t.asgRgn (rgnOf t.msl.rcfg) none))) := by
  subst ht
  refine (congrArg _ (regWrite_served hs rfl)).trans ?_
  cases h : (s.dropHeld r).asgRgn (rgnOf (s.dropHeld r).msl.rcfg) none <;> simp [h]

/-- What a served `RELEASE` of `MSL_RCMD` does (R168). -/
theorem execMslRelease_served {r : Req} {s t : State} (hs : s.served r 0x40028 = true) (ht : s.dropHeld r = t) :
    exec (.mslRelease r) s = .next (
      if t.msl.rres = 1 then t
      else if t.relRgn t.msl.rsel none = 0 then (t.setMslRes 1).releaseRgn t.msl.rsel true
      else t.setMslRes (relReport (t.relRgn t.msl.rsel none))) := by
  subst ht
  refine (congrArg _ (regWrite_served hs rfl)).trans ?_
  cases h : (s.dropHeld r).relRgn (s.dropHeld r).msl.rsel none <;> simp [h]

/-- What a served `ASSIGN` of `HTH_RCMD` does: the checks of R186 in their order. -/
theorem execHthAssign_served {r : Req} {s t : State} (hs : s.served r 0x80020 = true) (ht : s.dropHeld r = t) :
    exec (.hthAssign r) s = .next (
      if t.hth.rres = 1 then t
      else if (t.hrg t.hth.rsel).state ≠ .unassigned then t.setHthRes 3
      else if t.asgHrg (hrgOf t.hth.rcfg) none = 0 then
        (t.setHrg t.hth.rsel { hrgOf t.hth.rcfg with state := .initialising, byReg := true }).setHthRes 1
      else t.setHthRes (asgReport (t.asgHrg (hrgOf t.hth.rcfg) none))) := by
  subst ht
  refine (congrArg _ (regWrite_served hs rfl)).trans ?_
  cases h : (s.dropHeld r).asgHrg (hrgOf (s.dropHeld r).hth.rcfg) none <;> simp [h]

/-- What a served `RELEASE` of `HTH_RCMD` does (R186). -/
theorem execHthRelease_served {r : Req} {s t : State} (hs : s.served r 0x80020 = true) (ht : s.dropHeld r = t) :
    exec (.hthRelease r) s = .next (
      if t.hth.rres = 1 then t
      else if t.relHrg t.hth.rsel none = 0 then (t.setHthRes 1).releaseHrg t.hth.rsel true
      else t.setHthRes (relReport (t.relHrg t.hth.rsel none))) := by
  subst ht
  refine (congrArg _ (regWrite_served hs rfl)).trans ?_
  cases h : (s.dropHeld r).relHrg (s.dropHeld r).hth.rsel none <;> simp [h]

/-! ## Scrubbing (R199 to R204, R207) -/

/-- What a served write of `HTH_SCRUB_CTL` by the management endpoint does (R207). -/
theorem execHthScrubCtlWrite_served {r : Req} {v : BitVec 32} {s t : State} (hs : s.served r 0x80200 = true)
    (hm : r.mgmt = true) (ht : s.dropHeld r = t) :
    exec (.hthScrubCtlWrite r v) s = .next (if 168 < bits v.toNat 7 0 then t
      else ({ t with hth := { t.hth with period := bits v.toNat 7 0 } } : State).wakeSlots) := by
  subst ht
  exact congrArg _ (regWriteMgmt_served hs hm)

/-- An engine is due when it exists, scrubbing is on, Kindling step 3 is past, and it is escalated or at its pace. -/
theorem scrubDue_iff (s : State) (u : Nat) : s.scrubDue u = true ↔ u < 12 ∧ s.hth.period ≠ 0 ∧ 3 ≤ s.rst.step ∧
    ((s.scrub u).behind = true ∨ (s.scrub u).startAt + s.scrubPeriod - (s.scrub u).lineAt ≤
      (s.sys.now - (s.scrub u).lineAt) * (scrubLines u - (s.scrub u).progress)) := by
  simp [State.scrubDue, State.now, and_assoc]

/-- An engine that is not due, or whose turn it is not, scrubs nothing. -/
theorem execScrubIssue_idle {u : Nat} {corrected poison : Bool} {s : State}
    (h : s.scrubDue u = false ∨ s.bgTurn (s.scrubClass u) u = false) :
    exec (.scrubIssue u corrected poison) s = .next s := by
  refine congrArg Host.Outcome.next (if_pos ?_)
  rcases h with h | h <;> simp [h]

/-- An engine that is due, in its turn, scrubs the line its progress names, and then waiting requests go on. -/
theorem execScrubIssue_due {u : Nat} {corrected poison : Bool} {s w : State} (hd : s.scrubDue u = true)
    (ht : s.bgTurn (s.scrubClass u) u = true)
    (hw : (if u < 4 then (s.bgTaken (s.scrubClass u) u).scrubStack u (s.scrub u).progress corrected poison
      else (s.bgTaken (s.scrubClass u) u).scrubTier (u - 4) (s.scrub u).progress corrected poison) = w) :
    exec (.scrubIssue u corrected poison) s = .next (w.scrubNext u).runHbm.wakeHearth := by
  subst hw
  refine congrArg Host.Outcome.next (if_neg ?_)
  simp [hd, ht]

theorem scrubNext_within {w : State} {u : Nat} (h : (w.scrub u).progress + 1 < scrubLines u) :
    w.scrubNext u = w.setScrub u { w.scrub u with progress := (w.scrub u).progress + 1, lineAt := w.now } :=
  if_neg (Nat.not_le.mpr h)

theorem scrubNext_last {w : State} {u : Nat} (h : scrubLines u ≤ (w.scrub u).progress + 1) :
    w.scrubNext u = w.setScrub u
      { progress := 0, passes := min 65535 ((w.scrub u).passes + 1), behind := false, startAt := w.now, lineAt := w.now } :=
  if_pos h

theorem execScrubDeadline_past {u : Nat} {s : State} (hu : u < 12) (hp : s.hth.period ≠ 0)
    (hn : (s.scrub u).startAt + s.scrubPeriod < s.sys.now) :
    exec (.scrubDeadline u) s = .next (s.setScrub u { s.scrub u with behind := true }) := by
  refine congrArg Host.Outcome.next (if_neg ?_)
  have hn' : ¬ s.now ≤ (s.scrub u).startAt + s.scrubPeriod := Nat.not_le.mpr hn
  simp [hu, hp, hn']

theorem execScrubDeadline_early {u : Nat} {s : State}
    (h : 12 ≤ u ∨ s.hth.period = 0 ∨ s.sys.now ≤ (s.scrub u).startAt + s.scrubPeriod) :
    exec (.scrubDeadline u) s = .next s := by
  refine congrArg Host.Outcome.next (if_pos ?_)
  have h' : 12 ≤ u ∨ s.hth.period = 0 ∨ s.now ≤ (s.scrub u).startAt + s.scrubPeriod := h
  simpa [or_assoc] using h'

/-- Settles O34, from the checks of each register command in their order and the engine's due time and turn. -/
theorem regionsAndScrubbing : Obligations.RegionsAndScrubbing := by
  refine ⟨fun r t s hs ht hr => ?_, fun r t s hs ht hr hu => ?_, fun r t s hs ht hr hu hf => ?_,
    fun r m t s hs ht hr hu hf hm => ?_, fun r t s hs ht hr => ?_, fun r t s hs ht hr hf => ?_,
    fun r m t s hs ht hr hf hm => ?_, fun r t s hs ht hr => ?_, fun r t s hs ht hr hu => ?_,
    fun r t s hs ht hr hu hf => ?_, fun r m t s hs ht hr hu hf hm => ?_, fun r t s hs ht hr => ?_,
    fun r t s hs ht hr hf => ?_, fun r m t s hs ht hr hf hm => ?_, fun r v t s hs ht => ?_, fun r v t s hs ht => ?_,
    fun r v t s hs hm ht hv => ?_, fun r v t s hs hm ht hv => ?_, fun u c p w s hu hp h3 hd ht hw hl => ?_,
    fun u c p w s hu hp h3 hd ht hw hl => ?_, fun u c p s h => execScrubIssue_idle (.inr h), fun u c p s hb hn => ?_,
    fun u c p s h => ?_, fun u s => execScrubDeadline_past, fun u s => execScrubDeadline_early⟩
  · simp [execMslAssign_served hs ht, hr]
  · simp [execMslAssign_served hs ht, hr, hu]
  · simp [execMslAssign_served hs ht, hr, hu, hf]
  · simp [execMslAssign_served hs ht, hr, hu, hf, hm]
  · simp [execMslRelease_served hs ht, hr]
  · simp [execMslRelease_served hs ht, hr, hf]
  · simp [execMslRelease_served hs ht, hr, hf, hm]
  · simp [execHthAssign_served hs ht, hr]
  · simp [execHthAssign_served hs ht, hr, hu]
  · simp [execHthAssign_served hs ht, hr, hu, hf]
  · simp [execHthAssign_served hs ht, hr, hu, hf, hm]
  · simp [execHthRelease_served hs ht, hr]
  · simp [execHthRelease_served hs ht, hr, hf]
  · simp [execHthRelease_served hs ht, hr, hf, hm]
  · subst ht; exact congrArg _ (regWrite_served hs rfl)
  · subst ht; exact congrArg _ (regWrite_served hs rfl)
  · rw [execHthScrubCtlWrite_served hs hm ht, if_neg (Nat.not_lt.mpr hv)]
  · rw [execHthScrubCtlWrite_served hs hm ht, if_pos hv]
  · rw [execScrubIssue_due ((scrubDue_iff s u).mpr ⟨hu, hp, h3, hd⟩) ht hw, scrubNext_within hl]
  · rw [execScrubIssue_due ((scrubDue_iff s u).mpr ⟨hu, hp, h3, hd⟩) ht hw, scrubNext_last hl]
  · refine execScrubIssue_idle (.inl ?_)
    rw [Bool.eq_false_iff, ne_eq, scrubDue_iff]
    rintro ⟨-, -, -, h | h⟩
    · simp [hb] at h
    · exact absurd hn (Nat.not_lt.mpr h)
  · refine execScrubIssue_idle (.inl ?_)
    rw [Bool.eq_false_iff, ne_eq, scrubDue_iff]
    omega

end Sys2Proof.Proofs

/-! TDISP, IDE key messages and MCTP control messages (R380 to R385, R497). -/

namespace Sys2Proof.Proofs
open Sys2Proof Sys2Proof.Machine

/-! ## TDISP (R382 to R385) -/

/-- A stream that another bound slot's slice is locked to may not be taken by a bound slice (R383). -/
def foreignStream (s : State) (slice stream : Nat) : Bool :=
  s.qm.slices.cells.any fun e =>
    e.2.stream = some stream && e.2.bound && (s.slice slice).bound && e.2.dslot ≠ (s.slice slice).dslot

/-- What a `LOCK_INTERFACE_REQUEST` that is heard does: the checks of R383 in their order. -/
theorem execLockInterfaceRequest_hears {m : Mgmt} {slice stream rid : Nat} {flags : BitVec 16} {s : State}
    (h : s.tdHears m slice = true) :
    exec (.lockInterfaceRequest m slice stream rid flags) s = .next (
      if (s.slice slice).tdi ≠ .unlocked ∨ (s.slice slice).state ≠ .active then s.tdError tdInvalidState
      else if lockFlagsOk flags = false then s.tdError tdInvalidRequest
      else if 64 ≤ stream ∨ s.hst.ide.contains (stream, rid) = false then s.tdError tdInvalidRequest
      else if foreignStream s slice stream = true then s.tdError tdInvalidRequest
      else if s.fbx.trngFailed = true then s.tdError tdNoEntropy
      else ((s.draw 256).2.modSlice slice fun l =>
        { l with tdi := .locked, stream := some stream, tdiNonce := (s.draw 256).1 }).emit (.tdisp 0x03 [(s.draw 256).1.toNat])) := by
  refine (congrArg Host.Outcome.next (tdMsg_hears h)).trans ?_
  simp only [Bool.or_eq_true, decide_eq_true_eq, Bool.not_eq_true']
  rfl

/-- What a `START_INTERFACE_REQUEST` that is heard does (R385). -/
theorem execStartInterfaceRequest_hears {m : Mgmt} {slice : Nat} {nonce : BitVec 256} {s : State}
    (h : s.tdHears m slice = true) :
    exec (.startInterfaceRequest m slice nonce) s = .next (
      if (s.slice slice).tdi ≠ .locked then s.tdError tdInvalidState
      else if (s.slice slice).tdiNonce ≠ nonce then s.tdError tdInvalidNonce
      else (s.setSlice slice { s.slice slice with tdi := .run, tdiNonce := 0 }).emit (.tdisp 0x06 [])) :=
  congrArg _ (tdMsg_hears h)

/-- The report is given only of an interface that is locked or runs (R384). -/
theorem execGetDeviceInterfaceReport_hears {m : Mgmt} {slice : Nat} {s : State} (h : s.tdHears m slice = true) :
    exec (.getDeviceInterfaceReport m slice) s = .next (
      if (s.slice slice).tdi = .locked ∨ (s.slice slice).tdi = .run then s.emit (.tdisp 0x04 (s.tdReport slice))
      else s.tdError tdInvalidState) := by
  refine (congrArg Host.Outcome.next (tdMsg_hears h)).trans ?_
  simp only [Bool.or_eq_true, decide_eq_true_eq]

/-! ## IDE (R380, R385) -/

theorem execIdeStreamInsecure_running {stream : Nat} {s : State} (h : (s.hst.ide.any fun e => e.1 = stream) = true) :
    exec (.ideStreamInsecure stream) s = .next (s.ideDrop stream) :=
  congrArg _ (if_pos h)

theorem execIdeStreamInsecure_idle {stream : Nat} {s : State} (h : (s.hst.ide.any fun e => e.1 = stream) = false) :
    exec (.ideStreamInsecure stream) s = .next s :=
  congrArg _ (if_neg (by simp [h]))

/-- What a key message over a secure session does while the host is served (R380). -/
def ideKmServe (s : State) : IdeKm → State
  | .query st => s.emit (.ideKm kmQueryResp [st, b2n (s.hst.ideKeys.contains st), b2n (s.hst.ide.any fun e => e.1 = st)])
  | .keyProg st =>
    if 64 < st then s.emit (.ideKm kmKpAck [st, 1])
    else State.emit { s with hst := { s.hst with ideKeys := st :: s.hst.ideKeys.filter fun x => x ≠ st } } (.ideKm kmKpAck [st, 0])
  | .start st rid =>
    if s.hst.ideKeys.contains st then
      State.emit { s with hst := { s.hst with ide := (st, rid) :: s.hst.ide.filter fun e => e.1 ≠ st } } (.ideKm kmGoStopAck [st])
    else s.emit (.ideKm kmGoStopAck [st])
  | .stop st => (s.ideDrop st).emit (.ideKm kmGoStopAck [st])

theorem execIdeKmMessage_served {m : Mgmt} {k : IdeKm} {s : State} (hs : s.hostServes = true) (hm : m.secure = true) :
    exec (.ideKmMessage m k) s = .next (ideKmServe s k) := by
  refine congrArg Host.Outcome.next ((if_neg (by simp [hs, hm])).trans ?_)
  cases k <;> rfl

theorem execIdeKmMessage_unheard {m : Mgmt} {k : IdeKm} {s : State} (h : s.hostServes = false ∨ m.secure = false) :
    exec (.ideKmMessage m k) s = .next s :=
  congrArg _ (if_pos (by simpa using h))

/-! ## MCTP control (R497) -/

theorem execMctpControlMessage_early {c : BitVec 8} {body : List Byte} {s : State} (h : s.rst.step < 2) :
    exec (.mctpControlMessage c body) s = .next s :=
  congrArg _ (if_pos h)

theorem execMctp_setEid {body : List Byte} {s : State} (h : 2 ≤ s.rst.step) :
    exec (.mctpControlMessage 1 body) s = .next (
      if body.length < 2 then s.emit (.mctp mcSetEid [3])
      else if (body.getD 1 0).toNat < 8 ∨ (body.getD 1 0).toNat = 0xFF then s.emit (.mctp mcSetEid [2])
      else State.emit { s with hst := { s.hst with eid := (body.getD 1 0).toNat } }
        (.mctp mcSetEid [0, 0, (body.getD 1 0).toNat, 0])) := by
  refine congrArg Host.Outcome.next ((if_neg (Nat.not_lt.mpr h)).trans ?_)
  have hc : (decide ((body.getD 1 0).toNat = 0) || decide ((body.getD 1 0).toNat = 0xFF) || decide ((body.getD 1 0).toNat < 8)) = true ↔
      (body.getD 1 0).toNat < 8 ∨ (body.getD 1 0).toNat = 0xFF := by
    simp only [Bool.or_eq_true, decide_eq_true_eq]; omega
  simp only [← hc]
  rfl

theorem execMctp_getVersion {body : List Byte} {s : State} (h : 2 ≤ s.rst.step) :
    exec (.mctpControlMessage 4 body) s = .next (
      if body.length < 1 then s.emit (.mctp mcGetVersion [3])
      else if [0xFF, 0, 5, 6].contains (body.getD 0 0).toNat = true then s.emit (.mctp mcGetVersion [0, 1, 0xF1, 0xF3, 0xF0, 0])
      else s.emit (.mctp mcGetVersion [0x80])) :=
  congrArg _ (if_neg (Nat.not_lt.mpr h))

/-- A command outside the set that is answered: 5, UNSUPPORTED_CMD. -/
theorem execMctp_other {c : BitVec 8} {body : List Byte} {s : State} (h : 2 ≤ s.rst.step) (h1 : c.toNat ≠ 1)
    (h2 : c.toNat ≠ 2) (h4 : c.toNat ≠ 4) (h5 : c.toNat ≠ 5) :
    exec (.mctpControlMessage c body) s = .next (s.emit (.mctp c.toNat [5])) := by
  refine congrArg Host.Outcome.next ((if_neg (Nat.not_lt.mpr h)).trans ?_)
  split <;> [contradiction; contradiction; contradiction; contradiction; rfl]

/-- Settles O42, from what each request does once it is heard. -/
theorem hostProtocols : Obligations.HostProtocols := by
  refine ⟨fun m slice stream rid flags s h hb => ?_, fun m slice stream rid flags s h hu ha hf hs => ?_,
    fun m slice stream rid flags s h hu ha hf hs hi ho ht => ?_, fun m slice stream rid flags s h hu ha hf => ?_,
    fun m slice stream rid flags s h hu ha hf hs hi ho => ?_, fun m slice stream rid flags s h hu ha hf hs hi ho ht => ?_,
    fun m slice nonce s h hl => ?_, fun m slice nonce s h hl hn => ?_, fun m slice nonce s h hl hn => ?_,
    fun m slice s h => congrArg _ (tdMsg_hears h), fun m slice s h hl => ?_, fun m slice s h hl hr => ?_,
    fun m slice s h => congrArg _ (tdMsg_hears h), fun m s h => congrArg _ (tdMsg_hears h),
    fun m s h => congrArg _ (tdMsg_hears h), fun stream s => execIdeStreamInsecure_running,
    fun stream s => execIdeStreamInsecure_idle, fun m st s hs hm => execIdeKmMessage_served hs hm,
    fun m st s hs hm h => ?_, fun m st s hs hm h => ?_, fun m st rid s hs hm h => ?_, fun m st rid s hs hm h => ?_,
    fun m st s hs hm => execIdeKmMessage_served hs hm, fun body e s h hb he h8 hf => ?_, fun body e s h hb he hf => ?_,
    fun body s h => congrArg _ (if_neg (Nat.not_lt.mpr h)), fun body s h hb hc => ?_,
    fun body s h => congrArg _ (if_neg (Nat.not_lt.mpr h)), fun body s h hb => ?_, fun body s h hb => ?_,
    fun body s h hb hc => ?_, fun c body s => execMctp_other, fun c body s => execMctpControlMessage_early,
    fun m k s => execIdeKmMessage_unheard⟩
  · rw [execLockInterfaceRequest_hears h, if_pos hb]
  · rw [execLockInterfaceRequest_hears h, if_neg (by simp [hu, ha]), if_neg (ne_false_of_eq_true hf), if_pos hs]
  · rw [execLockInterfaceRequest_hears h, if_neg (by simp [hu, ha]), if_neg (ne_false_of_eq_true hf),
      if_neg (not_or.mpr ⟨Nat.not_le.mpr hs, ne_false_of_eq_true hi⟩), if_neg (ne_true_of_eq_false (b := foreignStream s slice stream) ho),
      if_neg (ne_true_of_eq_false ht)]
  · rw [execLockInterfaceRequest_hears h, if_neg (by simp [hu, ha]), if_pos hf]
  · rw [execLockInterfaceRequest_hears h, if_neg (by simp [hu, ha]), if_neg (ne_false_of_eq_true hf),
      if_neg (not_or.mpr ⟨Nat.not_le.mpr hs, ne_false_of_eq_true hi⟩), if_pos (c := foreignStream s slice stream = true) ho]
  · rw [execLockInterfaceRequest_hears h, if_neg (by simp [hu, ha]), if_neg (ne_false_of_eq_true hf),
      if_neg (not_or.mpr ⟨Nat.not_le.mpr hs, ne_false_of_eq_true hi⟩), if_neg (ne_true_of_eq_false (b := foreignStream s slice stream) ho), if_pos ht]
  · rw [execStartInterfaceRequest_hears h, if_pos hl]
  · simp [execStartInterfaceRequest_hears h, hl, hn]
  · simp [execStartInterfaceRequest_hears h, hl, hn]
  · rw [execGetDeviceInterfaceReport_hears h, if_pos hl]
  · simp [execGetDeviceInterfaceReport_hears h, hl, hr]
  · simp [execIdeKmMessage_served hs hm, ideKmServe, h]
  · simp [execIdeKmMessage_served hs hm, ideKmServe, Nat.not_lt.mpr h]
  · rw [execIdeKmMessage_served hs hm, ideKmServe, if_pos h]
  · rw [execIdeKmMessage_served hs hm, ideKmServe, if_neg (ne_true_of_eq_false h)]
  · subst he
    rw [execMctp_setEid h, if_neg (by omega), if_neg (by omega)]
  · subst he
    rw [execMctp_setEid h, if_neg (by omega), if_pos hf]
  · rw [execMctp_getVersion h, if_neg (by omega), if_pos hc]
  · rw [execMctp_setEid h, if_pos hb]
  · rw [execMctp_getVersion h, if_pos hb]
  · rw [execMctp_getVersion h, if_neg (by omega), if_neg (ne_true_of_eq_false hc)]

end Sys2Proof.Proofs

/-! Cipher pages by register (R410 to R421). -/

namespace Sys2Proof.Proofs
open Sys2Proof Sys2Proof.Machine

/-! ## Assignment (R410, R411) -/

/-- What a served `ASSIGN` writes into its page: the checks of R411 in their order. -/
theorem execCeAssign_served {r : Req} {page : Nat} {s w t : State} (hw : s.wakeCipher r page = w)
    (hs : w.served r (cePageAt page + 0x808) = true) (hk : ceKernel r page = true) (ht : w.dropHeld r = t) :
    exec (.ceAssign r page) s = .next (t.setCePage page (
      if (t.cePage page).pgRes = 1 then t.cePage page
      else if (t.cePage page).state ≠ .free then { t.cePage page with pgRes := 3 }
      else if (t.slice (t.cePage page).pgCfg).state ≠ .active then { t.cePage page with pgRes := 4 }
      else { t.cePage page with state := .empty, slice := (t.cePage page).pgCfg, pgRes := 2 })) := by
  subst hw ht
  exact congrArg _ (regWrite_served hs hk)

/-- What a served `UNASSIGN` does (R410). -/
theorem execCeUnassign_served {r : Req} {page : Nat} {s t : State} (hs : s.served r (cePageAt page + 0x808) = true)
    (hk : ceKernel r page = true) (ht : s.dropHeld r = t) :
    exec (.ceUnassign r page) s = .next (
      if (t.cePage page).pgRes = 1 then t
      else if (t.cePage page).state = .free then t.setCePage page { t.cePage page with pgRes := 2 }
      else (t.setCePage page { t.cePage page with leaving := true, pgRes := 1 }).settlePages) := by
  subst ht
  exact congrArg _ (regWrite_served hs hk)

/-! ## The owner's commands (R410, R412, R413, R417) -/

/-- What a served `LOAD` of the owner does: the checks of R412 and R413 in their order. -/
theorem execCeLoad_served {r : Req} {page : Nat} {s t : State} (hs : s.served r (cePageAt page + 0x40) = true)
    (ho : s.ceOwner r page = true) (ht : s.dropHeld r = t) :
    exec (.ceLoad r page) s = .next (
      if (t.cePage page).state = .free then t.modCePage page fun p => { p with kres := 5 }
      else if (t.slice (t.cePage page).slice).bound then t.modCePage page fun p => { p with kres := 4 }
      else if t.fbx.trngFailed then t.modCePage page fun p => { p with kres := 3 }
      else (t.loadPage page (t.cePage page).staged).modCePage page fun p => { p with kres := 2 }) := by
  subst ht
  exact congrArg _ (regWrite_served hs ho)

/-- What a served `ZERO` of the owner writes into its page (R410). -/
theorem execCeZero_served {r : Req} {page : Nat} {s t : State} (hs : s.served r (cePageAt page + 0x40) = true)
    (ho : s.ceOwner r page = true) (ht : s.dropHeld r = t) :
    exec (.ceZero r page) s = .next (t.setCePage page (
      if (t.cePage page).state = .free then { t.cePage page with kres := 5 }
      else { (t.cePage page).zeroed with kres := 2 })) := by
  subst ht
  exact congrArg _ (regWrite_served hs ho)

/-- Settles O45, from the checks of each served write in their order. -/
theorem cipherRegisters : Obligations.CipherRegisters := by
  refine ⟨fun r page w t s hw hs hk ht h1 hf => ?_, fun r page w t s hw hs hk ht h1 hf ha => ?_,
    fun r page w t s hw hs hk ht h1 hf ha => ?_, fun r page t s hs hk ht h1 hf => ?_,
    fun r page t s hs hk ht h1 hf => ?_, fun r page t s hs ho ht hf => ?_, fun r page t s hs ho ht hf hb => ?_,
    fun r page t s hs ho ht hf hb hn => ?_, fun r page t s hs ho ht hf hb hn => ?_, fun r page t s hs ho ht hf => ?_,
    fun r page t s hs ho ht hf => ?_, fun r v t s hs hm ht => ?_, fun r page v t s hs ho ht => ?_,
    fun r page w t s hw hs hk ht h1 => ?_, fun r page t s hs hk ht h1 => ?_⟩
  · rw [execCeAssign_served hw hs hk ht, if_neg h1, if_pos hf]
  · rw [execCeAssign_served hw hs hk ht, if_neg h1, if_neg (not_not.mpr hf), if_pos ha]
  · rw [execCeAssign_served hw hs hk ht, if_neg h1, if_neg (not_not.mpr hf), if_neg (not_not.mpr ha)]
  · rw [execCeUnassign_served hs hk ht, if_neg h1, if_pos hf]
  · rw [execCeUnassign_served hs hk ht, if_neg h1, if_neg hf]
  · rw [execCeLoad_served hs ho ht, if_pos hf]
  · rw [execCeLoad_served hs ho ht, if_neg hf, if_pos hb]
  · rw [execCeLoad_served hs ho ht, if_neg hf, if_neg (ne_true_of_eq_false hb), if_pos hn]
  · rw [execCeLoad_served hs ho ht, if_neg hf, if_neg (ne_true_of_eq_false hb), if_neg (ne_true_of_eq_false hn)]
  · rw [execCeZero_served hs ho ht, if_pos hf]
  · rw [execCeZero_served hs ho ht, if_neg hf]
  · subst ht
    exact congrArg _ (regWriteMgmt_served hs hm)
  · subst ht
    exact congrArg _ (regWrite_served hs ho)
  · rw [execCeAssign_served hw hs hk ht, if_pos h1]
  · rw [execCeUnassign_served hs hk ht, if_pos h1]

end Sys2Proof.Proofs

/-! Reads and writes of registers (R9 to R18, R449). -/

namespace Sys2Proof.Proofs
open Sys2Proof Sys2Proof.Machine

/-! ## Reads (R10, R12, R18) -/

/-- A read before its side is released is answered all ones to the host link only (R458). -/
theorem readReg_unserved_host {s : State} {r : Req} {off width : Nat} (hu : s.unserved r off = true) (hm : r.mgmt = false) :
    s.readReg r off width = s.emit (.regRead (BitVec.allOnes 64)) := by
  simp [State.readReg, hu, hm]

/-- A read of no register is recorded and answers 0 (R12). -/
theorem readReg_none {s : State} {r : Req} {off width : Nat} (hu : s.unserved r off = false)
    (hb : mailboxOk off width = false) (hg : s.regOf r off width = none) :
    s.readReg r off width = (s.regBad r off width).emit (.regRead 0) := by
  simp [State.readReg, hu, hb, hg]

/-- What the read of a part of a register answers (R10). -/
def readPart (s : State) (r : Req) (off : Nat) (g : Reg) : Part → State
  | .whole => (s.readVal r off g).2.emit (.regRead (s.readVal r off g).1)
  | .low => ((s.readVal r off g).2.capture r (off + 4) (BitVec.ofNat 64 ((s.readVal r off g).1.toNat / 2 ^ 32))).emit
      (.regRead (BitVec.ofNat 64 ((s.readVal r off g).1.toNat % 2 ^ 32)))
  | .high => s.emit (.regRead ((s.captured r off).getD (BitVec.ofNat 64 (g.val / 2 ^ 32))))

/-- A served read of a register is answered by its part, but 0 where the host link reads a management-only one (R18). -/
theorem readReg_some {s : State} {r : Req} {off width : Nat} {g : Reg} {p : Part} (hu : s.unserved r off = false)
    (hb : mailboxOk off width = false) (hr : s.reaches off = true) (hg : s.regOf r off width = some (g, p)) (hok : g.ok = true) :
    s.readReg r off width = if (g.mgmt && !r.mgmt) = true then s.emit (.regRead 0) else readPart s r off g p := by
  cases p <;> simp [State.readReg, readPart, hu, hb, hr, hg, hok]

/-! ## Writes (R11 to R13, R18) -/

theorem writeReg_unserved {s : State} {r : Req} {off width : Nat} {v : BitVec 64} (hu : s.unserved r off = true) :
    s.writeReg r off width v = s := by
  simp [State.writeReg, hu]

/-- A write of no register is recorded (R12). -/
theorem writeReg_none {s : State} {r : Req} {off width : Nat} {v : BitVec 64} (hu : s.unserved r off = false)
    (hb : mailboxOk off width = false) (hg : s.regOf r off width = none) :
    s.writeReg r off width v = s.regWrite r off width false id := by
  simp [State.writeReg, hu, hb, hg]

/-- What the write of a part of a register does (R11). -/
def writePart (s : State) (r : Req) (off width : Nat) (v : BitVec 64) (g : Reg) : Part → State
  | .whole => if width = 64 then s.write64 r off v else s.write32 r off v
  | .low => s.holdLow r off (v.extractLsb' 0 32)
  | .high => s.write64 r (off - 4) (BitVec.ofNat 64
      (((s.heldLow r (off - 4)).map BitVec.toNat).getD (s.presentLow (off - 4) g) + 2 ^ 32 * low v 32))

/-- A served write of a register goes to its part, but only drops the held half where the host link writes a
management-only one (R18). -/
theorem writeReg_some {s : State} {r : Req} {off width : Nat} {v : BitVec 64} {g : Reg} {p : Part}
    (hu : s.unserved r off = false) (hb : mailboxOk off width = false) (hr : s.reaches off = true)
    (hg : s.regOf r off width = some (g, p)) (hok : g.ok = true) :
    s.writeReg r off width v = if (g.mgmt && !r.mgmt) = true then s.dropHeld r else writePart s r off width v g p := by
  cases p <;> simp [State.writeReg, writePart, hu, hb, hr, hg, hok]

/-- The write of a low half is the write of that part of its register. -/
theorem execRegisterLowHalfWrite_low {s : State} {r : Req} {off : Nat} {v : BitVec 32} {g : Reg}
    (hg : s.regOf r off 32 = some (g, .low)) :
    exec (.registerLowHalfWrite r off v) s = .next (s.writeReg r off 32 (v.setWidth 64)) := by
  change execRegisterLowHalfWrite r off v s = _
  simp [execRegisterLowHalfWrite, hg]

/-! ## Any access (R12) -/

theorem execRegAccess_write_none {s : State} {r : Req} {off width : Nat} (hu : s.unserved r off = false)
    (hb : mailboxOk off width = false) (hg : s.regOf r off width = none) :
    exec (.regAccess r off width true) s = .next (s.regWrite r off width false id) := by
  change execRegAccess r off width true s = _
  simp [execRegAccess, hu, hb, hg]

theorem execRegAccess_write_unserved {s : State} {r : Req} {off width : Nat} (hu : s.unserved r off = true) :
    exec (.regAccess r off width true) s = .next s := by
  change execRegAccess r off width true s = _
  simp [execRegAccess, hu]

/-! ## The selected record (R449) -/

theorem execRecDataRead_host {s : State} {r : Req} (hm : r.mgmt = false) :
    exec (.recDataRead r) s = .next (s.emit (.regRead (if s.hostUp then 0 else BitVec.allOnes 64))) :=
  congrArg _ (if_pos (by simp [hm]))

theorem execRecDataRead_mgmt {s : State} {r : Req} (hm : r.mgmt = true) (hs : s.mgmtServes 0x480020 = true) :
    exec (.recDataRead r) s = .next ((s.recCapture r).emit (.regRead (s.recSelected.getD 0 0))) := by
  change execRecDataRead r s = _
  simp [execRecDataRead, hm, hs]

/-- Settles O46, from what the read and the write of each part of a register do. -/
theorem registerAccesses : Obligations.RegisterAccesses := by
  refine ⟨fun r off s hu hm => congrArg _ (readReg_unserved_host hu hm),
    fun r off s hu hb _ hg => congrArg _ (readReg_none hu hb hg), fun r off g p s hu hb hr hg hok hm => congrArg Host.Outcome.next ?_,
    fun r off g v u s hu hb hr hg hok hm hv => congrArg Host.Outcome.next ?_, fun r off g v u s hu hb hr hg hok hm hv => congrArg Host.Outcome.next ?_,
    fun r off g s hu hb hr hg hok hm => congrArg Host.Outcome.next ?_, fun r off v g s hg hu hb hr hok hm => ?_,
    fun r off width v s hu => congrArg _ (writeReg_unserved hu),
    fun r off width v s hu hb hg => congrArg _ (writeReg_none hu hb hg),
    fun r off v g s hu hb hr hg hok hm => congrArg Host.Outcome.next ?_, fun r off width v g p s hu hb hr hg hok hgm hm => congrArg Host.Outcome.next ?_,
    fun r off width s => rfl, fun r off width s => execRegAccess_write_none, fun r off width s => execRegAccess_write_unserved,
    fun r s => execRecDataRead_host, fun r s => execRecDataRead_mgmt⟩
  · rw [readReg_some hu hb hr hg hok, if_pos hm]
  · rw [readReg_some hu hb hr hg hok, if_neg (ne_true_of_eq_false hm), readPart, hv]
  · rw [readReg_some hu hb hr hg hok, if_neg (ne_true_of_eq_false hm), readPart, hv]
  · rw [readReg_some hu hb hr hg hok, if_neg (ne_true_of_eq_false hm), readPart]
  · have hv : (v.setWidth 64).extractLsb' 0 32 = v := by
      ext i hi
      simp [hi, show i < 64 by omega]
    rw [execRegisterLowHalfWrite_low hg, writeReg_some hu hb hr hg hok, if_neg (ne_true_of_eq_false hm), writePart, hv]
  · rw [writeReg_some hu hb hr hg hok, if_neg (ne_true_of_eq_false hm), writePart]
  · rw [writeReg_some hu hb hr hg hok, if_pos (by rw [hgm, hm]; rfl)]

end Sys2Proof.Proofs

/-! Power-on, the pin reset, and the end of the hold (R40, R41, R453, R456, R468). -/

namespace Sys2Proof.Proofs
open Sys2Proof Sys2Proof.Machine

/-! ## What an assertion leaves (R468) -/

/-- What a cold reset of `s` leaves in `t`: every unit is held, nothing of the domains is there, and the state words, the
anchors and the queue are those of `s`. -/
def NothingLeft (s t : State) : Prop :=
  t.rst.phase = .held ∧ t.rst.step = 0 ∧ t.dom.slots = {} ∧ t.fbx.cells = [] ∧ t.fbx.kids = {} ∧ t.fbx.roots = {} ∧
    t.qm.slices = {} ∧ t.msl.rgns = {} ∧ t.msl.ready = false ∧ t.hth.rngs = {} ∧ t.col.plans = {} ∧ t.syn.objs = {} ∧
    t.fab.wins = {} ∧ t.ce.pages = {} ∧ t.lc.words = s.lc.words ∧ t.lc.anchors = s.lc.anchors ∧ t.pending = s.pending

@[simp] theorem clearMsl_porst_hbm (s : State) : (s.clearMsl .porst).msl.hbm = {} := rfl

/-- A reset of PORST begins powered time anew and empties the stacks and the recorder's numbering. -/
theorem assertLevel_porst {s : State} (h : s.rst.level = .porst) :
    s.assertLevel.sys.now = 0 ∧ s.assertLevel.msl.hbm = {} ∧ s.assertLevel.rcd.nextSeq = 0 := by
  rw [State.assertLevel, h]
  exact ⟨rfl, by simp, rfl⟩

/-- A cold level of an unfenced source is asserted at once, and leaves nothing of the domains (R457, R468). -/
theorem nothingLeft_runReset {s : State} {src : Source} {l : Level} {dump : Bool} (hf : src.fenced = false)
    (hl : l.cold = true) : NothingLeft s (s.runReset src l dump) := by
  have hk : (s.runReset src l dump).kept = s.kept := State.runReset_kept ..
  simp only [State.kept, Prod.mk.injEq] at hk
  obtain ⟨hp, hw, ha, -⟩ := hk
  have hc := assertLevel_cold (s := { s with
    rst := { s.rst with source := src, level := l, wantDump := dump, escalated := s.rst.escalated } }) hl
  rw [← runReset_unfenced hf] at hc
  simpa only [NothingLeft, and_assoc] using And.intro hc ⟨hw, ha, hp⟩

theorem runReset_porst {s : State} {src : Source} {dump : Bool} (hf : src.fenced = false) :
    (s.runReset src .porst dump).sys.now = 0 ∧ (s.runReset src .porst dump).msl.hbm = {} ∧
      (s.runReset src .porst dump).rcd.nextSeq = 0 := by
  rw [runReset_unfenced hf]
  exact assertLevel_porst rfl

/-! ## The pin (R453, R456) -/

/-- The end of a pulse on `HUB_RST_N` of `ns` nanoseconds: where the pin holds the units, its source ends no earlier. -/
def pinHolds (ns : Nat) (v : State) : State :=
  if v.rst.source = .pin ∧ v.rst.phase = .held then
    { v with rst := { v.rst with sourceEnd := max v.rst.sourceEnd (v.now + ns) } } else v

theorem nothingLeft_pinHolds {ns : Nat} {s v : State} (h : NothingLeft s v) : NothingLeft s (pinHolds ns v) := by
  unfold pinHolds
  split <;> exact h

/-- The pin takes over whatever a SYSRST clears more than, or the fence of its own level (R456). -/
theorem beginReset_pin {s : State} (h : s.rst.phase = .ready ∨ s.rst.phase = .fencing ∧ s.rst.level ≠ .porst ∨
      s.rst.level = .warm ∨ s.rst.level = .core) :
    s.beginReset .pin .sysrst = (s.noteSource .pin).runReset .pin .sysrst false := by
  refine beginReset_takes ?_
  have hl : s.levelFor .pin .sysrst = .sysrst := rfl
  rw [hl]
  rcases h with h | ⟨hp, hl⟩ | h | h
  · exact .inl h
  · exact .inr (.inl ⟨hp, rfl, by cases hv : s.rst.level <;> simp_all [Level.rank, Level.code]⟩)
  · exact .inr (.inr (by rw [h]; decide))
  · exact .inr (.inr (by rw [h]; decide))

/-- A pulse of 100 ns or more is the source PIN. -/
theorem execHubRstNLow_long {ns : Nat} {s : State} (hn : 100 ≤ ns) (hm : s.sys.mainPower = true) :
    exec (.hubRstNLow ns) s = .next (pinHolds ns (s.beginReset .pin .sysrst)) := by
  change execHubRstNLow ns s = _
  simp [execHubRstNLow, pinHolds, hm, show ¬ ns < 100 by omega, show ¬ ns < 10 by omega]

/-- A pulse below 10 ns, or one without main power that needs no draw, changes nothing. -/
theorem execHubRstNLow_ignored {ns : Nat} {s : State} (h : ns < 10 ∨ (s.sys.mainPower = false ∧ 100 ≤ ns)) :
    exec (.hubRstNLow ns) s = .next s := by
  change execHubRstNLow ns s = _
  rcases h with h | ⟨hm, hn⟩
  · simp [execHubRstNLow, h, show ¬ 10 ≤ ns by omega]
  · simp [execHubRstNLow, hm, show ¬ ns < 100 by omega]

/-- A pulse from 10 ns to 100 ns is taken or not, as the bit it draws says. -/
theorem execHubRstNLow_open {ns : Nat} {b : BitVec 1} {s u : State} (h10 : 10 ≤ ns) (h100 : ns < 100) (hd : s.draw 1 = (b, u)) :
    exec (.hubRstNLow ns) s = .next (if u.sys.mainPower = false ∨ b = 0 then u else pinHolds ns (u.beginReset .pin .sysrst)) := by
  change execHubRstNLow ns s = _
  simp [execHubRstNLow, pinHolds, h10, h100, hd, show ¬ ns < 10 by omega]

/-! ## The hold (R41, R457) -/

/-- The hold ends once 32 KCLK cycles have passed since the source ended; until then nothing happens. -/
theorem execResetHoldExpiry_early {h : BitVec 3} {p : BitVec 2} {s : State}
    (he : s.rst.phase ≠ .held ∨ s.rst.step ≠ 0 ∨ s.sys.now < s.rst.sourceEnd + holdNs) :
    exec (.resetHoldExpiry h p) s = .next s := by
  refine congrArg Host.Outcome.next (if_pos ?_)
  rcases he with he | he | he <;> simp [State.now, he]

theorem execResetHoldExpiry_due {h : BitVec 3} {p : BitVec 2} {s u : State} (hp : s.rst.phase = .held) (h0 : s.rst.step = 0)
    (hm : s.sys.mainPower = true) (hk : s.sys.kclkStopped = false) (hn : s.rst.sourceEnd + holdNs ≤ s.sys.now)
    (hu : State.sampleFuses { s with rst := { s.rst with step := 1 } } = u) :
    exec (.resetHoldExpiry h p) s = .next (if s.rst.level = .porst then
      { u with sys := { u.sys with hubPos := h, pkgSize := p } } else u) := by
  subst hu
  have hn' : ¬ s.now < s.rst.sourceEnd + holdNs := Nat.not_lt.mpr hn
  refine congrArg Host.Outcome.next ((if_neg (by simp [hp, h0, hm, hk, hn'])).trans ?_)
  dsimp only
  rw [sampleFuses_rst]

/-- Settles O4: power-on and the pin are the unfenced sources, and what a cold level leaves is known. -/
theorem powerOnAndPinReset : Obligations.PowerOnAndPinReset := by
  refine ⟨fun present s => ⟨_, rfl, rfl, ?_⟩, fun ns s hn hm hs => ⟨_, execHubRstNLow_long hn hm, ?_⟩,
    fun ns s => execHubRstNLow_long, fun ns s => execHubRstNLow_ignored, fun ns b s u h10 h100 hd => ⟨fun hb => ?_, fun hb hm => ?_⟩,
    fun h p s u => execResetHoldExpiry_due, fun h p s => execResetHoldExpiry_early⟩
  · obtain ⟨hn, hh, hq⟩ := runReset_porst (s := s) (src := .powerOn) (dump := false) rfl
    have hl := nothingLeft_runReset (s := s) (src := .powerOn) (l := .porst) (dump := false) rfl rfl
    generalize s.runReset .powerOn .porst false = t at hn hh hq hl ⊢
    exact ⟨hn, hh, hq, hl⟩
  · rw [beginReset_pin hs]
    exact nothingLeft_pinHolds (nothingLeft_runReset (s := s.noteSource .pin) rfl rfl)
  · rw [execHubRstNLow_open h10 h100 hd, if_pos (.inr hb)]
  · have hu : u.sys.mainPower = true := by
      rw [show u = (s.draw 1).2 by rw [hd]]
      exact hm
    rw [execHubRstNLow_open h10 h100 hd, if_neg (by simpa [hu] using hb)]
    rfl

end Sys2Proof.Proofs

/-! The release steps and Kindling's boot (R41, R67, R457, R467, R499 to R505). -/

namespace Sys2Proof.Proofs
open Sys2Proof Sys2Proof.Machine

/-! ## The release steps (R457) -/

/-- What begins after release step `n`. -/
def releaseAfter (s : State) : Nat → State
  | 1 => s.release2
  | 2 => if s.boot.phase = 4 then s.release3 else s
  | 3 => s.release4
  | 4 => s.release5
  | 5 => s.release6
  | 6 => s.release7
  | _ => s

/-- Without a fence and with KCLK, the step after the present one begins. -/
theorem execResetReleaseStep_next {s t : State} {n : Nat} (hp : s.rst.phase ≠ .fencing) (hk : s.sys.kclkStopped = false)
    (hn : s.rst.step = n) (ht : releaseAfter s n = t) : exec .resetReleaseStep s = .next t := by
  subst ht
  refine congrArg Host.Outcome.next ((if_neg (by simp [hp, hk])).trans ?_)
  rw [hn]
  rfl

theorem execResetReleaseStep_held {s : State} (h : s.rst.phase = .fencing ∨ s.sys.kclkStopped = true) :
    exec .resetReleaseStep s = .next s :=
  congrArg _ (if_pos (by simpa using h))

/-- Before step 1, after step 7, and after step 2 until Kindling has completed, no step begins. -/
theorem releaseAfter_none {s : State} {n : Nat} (h : n = 0 ∨ 7 ≤ n ∨ (n = 2 ∧ s.boot.phase ≠ 4)) : releaseAfter s n = s := by
  unfold releaseAfter
  split
  case h_2 => exact if_neg (by omega)
  case h_7 => rfl
  all_goals omega

/-- Step 3 begins once Kindling has completed (R499). -/
theorem releaseAfter_two {s : State} (hb : s.boot.phase = 4) : releaseAfter s 2 = s.release3 := if_pos hb

/-- Step 4: the links that are enabled, `DISABLED` and present begin to train. -/
theorem release4_eq (s : State) :
    s.release4 = ({ s with rst := { s.rst with step := 4 } } : State).forEach s.lnk.links.keys fun s l =>
      if (s.link l).enable = true ∧ (s.link l).state = .disabled ∧ s.linkPresent l = true then s.toTraining l none false else s := by
  simp [State.release4, and_assoc]

/-- Step 6 after a warm level: the quarantine of `RECOVERY` runs from here (R67). -/
theorem release6_eq (s : State) :
    s.release6 = if s.rst.level.cold = true then
        { s with rst := { s.rst with step := 6, phase := .ready, lastMs := (s.sys.now - s.rst.assertAt) / 1000000 % 2 ^ 32 } }
      else State.forEach
        { s with rst := { s.rst with step := 6, phase := .ready, lastMs := (s.sys.now - s.rst.assertAt) / 1000000 % 2 ^ 32 } }
        allSlots fun s i => s.modSlot i fun p =>
          if p.state = .quarantined ∧ p.cause = .alarm alRecovery then { p with deadline := s.sys.now + 60 * 1000000000 } else p := by
  simp [State.release6, State.now, sec, ms]

/-- Step 7: the sites leave level 15, and those with a link that no admission has yet are admitted (R395, R491). -/
theorem release7_eq (s : State) :
    s.release7 = (({ s with rst := { s.rst with step := 7 } } : State).forEach allSites fun s n =>
        s.requestLevel n (max s.wanted.2 (s.siteFloor n))).forEach (List.range 8) fun s n =>
      if (s.site n).linkUp = true ∧ (s.site n).state ≠ .probing ∧ (s.site n).state ≠ .admitted then s.startAdmission n else s := by
  simp [State.release7, and_assoc]

/-- The backing store is region 64, and no other region changes (R143, R146). -/
theorem rgn_placeBacking (s : State) (n : Nat) : s.placeBacking.rgn n =
    if n = 64 then { state := .active, mode := 1, stack := 0, base := 30720, size := 2048 } else s.rgn n :=
  Tbl.get_set ..

/-- Gates and reset controller are as they were. -/
theorem placeBacking_frame (s : State) : s.placeBacking.hth = s.hth ∧ s.placeBacking.rst = s.rst := by
  simp [State.placeBacking, State.setRoot]

/-! ## Kindling (R475, R477, R499) -/

/-- Kindling runs once, on the Stoker just released, and after no transition that is being carried on. -/
theorem execKindlingBoot_idle {env : BootEnv} {s : State}
    (h : s.rst.step ≠ 2 ∨ s.rst.phase ≠ .recovering ∨ s.boot.phase ≠ 0 ∨ s.lc.pending = true) :
    exec (.kindlingBoot env) s = .next s := by
  refine congrArg Host.Outcome.next (if_pos ?_)
  simpa [or_assoc] using h

section
variable {env : BootEnv} {s : State} (h2 : s.rst.step = 2) (hp : s.rst.phase = .recovering) (hb : s.boot.phase = 0)
  (hl : s.lc.pending = false)
include h2 hp hb hl

/-- A transition whose record word is programmed comes first (R475). -/
theorem execKindlingBoot_transition {k : Nat} (hk : s.pendingArea = some k) :
    exec (.kindlingBoot env) s = .next { s.startTransition k with lc := { (s.startTransition k).lc with begun := true } } := by
  refine congrArg Host.Outcome.next ((if_neg ?_).trans ?_)
  · simp [h2, hp, hb, hl]
  · rw [hk]

/-- Without one, the life cycle, the level and the straps decide what runs. -/
theorem execKindlingBoot_boots (hk : s.pendingArea = none) :
    exec (.kindlingBoot env) s = .next (
      if s.lcCode = 5 then ((((s.loadVbat env.vbatOk (s.rst.level = .porst)).noteTamper).recLoaded id).bootStops 0)
      else if s.rst.level.cold = true ∧ s.strapFault = true then
        ((s.record 0x12 srcKindling [(1, s.sys.hubPos.toNat), (1, s.sys.pkgSize.toNat)]).recLoaded id).bootStops 1
      else if s.rst.level.cold = true then s.bootCold env
      else ((s.selfTests env.selftestOk env.trngOk).selectConfig env).bootTail env) := by
  refine congrArg Host.Outcome.next ((if_neg ?_).trans ?_)
  · simp [h2, hp, hb, hl]
  · rw [hk]
    simp only [Bool.and_eq_true]

end

/-! ## Images, and the tail of the boot (R499, R504) -/

theorem selectImages_noFirmware {env : BootEnv} {u : State} (h : pickImage u.boot.minVersions.1 env.firmware = none) :
    u.selectImages env = (none, State.bootStops { u with boot := { u.boot with phase := 2 } } 2) := by
  simp [State.selectImages, h]

theorem selectImages_noMicrocode {env : BootEnv} {u : State} {f : Nat × FlashImage}
    (hf : pickImage u.boot.minVersions.1 env.firmware = some f) (h : pickImage u.boot.minVersions.2 env.microcode = none) :
    u.selectImages env = (none, State.bootStops { u with boot := { u.boot with phase := 2 } } 3) := by
  simp [State.selectImages, hf, h]

/-- The tail of the boot stops at a stack without groups. -/
theorem bootTail_stackLost {env : BootEnv} {u v : State} (hv : u.deriveIdentity.broadcast env.badSlivers = v)
    (h : v.stackLost = true) : u.bootTail env = v.bootStops 3 := by
  subst hv
  exact if_pos h

/-- Otherwise it ends with the boot `DONE`. -/
theorem bootTail_done {env : BootEnv} {u v : State} (hv : u.deriveIdentity.broadcast env.badSlivers = v)
    (h : v.stackLost = false) : (u.bootTail env).boot.phase = 4 := by
  subst hv
  rw [State.bootTail, if_neg (by simp [h])]
  dsimp only
  split <;> rfl

/-- Settles O5: each release step by its number, and Kindling by the guards of its boot in their order. -/
theorem resetReleaseSteps : Obligations.ResetReleaseSteps := by
  refine ⟨fun s h => ?_, fun s hp hk hs hc => execResetReleaseStep_next hp hk hs (if_pos hc),
    fun s hp hk hs hc => execResetReleaseStep_next hp hk hs (if_neg (by simpa using hc)),
    fun u s hp hk hs hb hc hu => ?_, fun u s hp hk hs hb hc hu => ?_, fun s => ⟨?_, fun n hn => ?_, placeBacking_frame s⟩,
    fun s hp hk hs => execResetReleaseStep_next hp hk hs (release4_eq s), fun u s hp hk hs hu => ?_, fun u s hp hk hs hu => ?_,
    fun u s hp hk hs hu => ?_, fun env s => execKindlingBoot_idle, fun env k u s h2 hp hb hl hk hu => ?_,
    fun env s h2 hp hb hl hk h5 => ?_, fun env s h2 hp hb hl hk h5 hc hf => ?_, fun env u s h2 hp hb hl hk h5 hc hf hu => ?_,
    fun env u => ⟨fun hf => ?_, fun f hf hm => ?_⟩, fun env s h2 hp hb hl hk h5 hc => ?_,
    fun env u v hv => ⟨bootTail_stackLost hv, bootTail_done hv⟩⟩
  · rcases h with h | h | h
    · exact execResetReleaseStep_held (.inl h)
    · exact execResetReleaseStep_held (.inr h)
    · by_cases hh : s.rst.phase = .fencing ∨ s.sys.kclkStopped = true
      · exact execResetReleaseStep_held hh
      · rw [not_or, Bool.not_eq_true] at hh
        exact execResetReleaseStep_next hh.1 hh.2 rfl (releaseAfter_none h)
  · subst hu
    exact execResetReleaseStep_next hp hk hs ((releaseAfter_two hb).trans (if_neg (by simpa using hc)))
  · subst hu
    exact execResetReleaseStep_next hp hk hs ((releaseAfter_two hb).trans (if_pos hc))
  · rw [rgn_placeBacking, if_pos rfl]
  · rw [rgn_placeBacking, if_neg hn]
  · subst hu
    exact execResetReleaseStep_next hp hk hs rfl
  · subst hu
    exact execResetReleaseStep_next hp hk hs (release6_eq s)
  · subst hu
    exact execResetReleaseStep_next hp hk hs (release7_eq s)
  · subst hu
    exact execKindlingBoot_transition h2 hp hb hl hk
  · rw [execKindlingBoot_boots h2 hp hb hl hk, if_pos h5]
  · rw [execKindlingBoot_boots h2 hp hb hl hk, if_neg h5, if_pos ⟨hc, hf⟩]
  · subst hu
    rw [execKindlingBoot_boots h2 hp hb hl hk, if_neg h5, if_neg (by simp [hf]), if_pos hc]
    rfl
  · rw [selectImages_noFirmware hf]
    exact ⟨rfl, rfl, rfl⟩
  · rw [selectImages_noMicrocode hf hm]
    exact ⟨rfl, rfl, rfl⟩
  · rw [execKindlingBoot_boots h2 hp hb hl hk, if_neg h5, if_neg (by simp [hc]), if_neg (by simp [hc])]

end Sys2Proof.Proofs

/-! Requests of the hub network and the lines that return for them (R29, R30, R140, R157 to R166, R184, R188, R246). -/

namespace Sys2Proof.Proofs
open Sys2Proof Sys2Proof.Machine

/-! ## The checks at ingress (R29, R30, R458) -/

/-- The place a request addresses, and whether its checks are those of a write. -/
def reqPlace : NetReq → Place × Bool
  | .read p => (placeOf p, false)
  | .write p _ _ => (placeOf p, true)
  | .atomic e _ _ _ _ => (.entry e, true)

/-- Where a request that passes its checks goes. -/
def acceptReq (s : State) (tag : Tag) : NetReq → State
  | .read p => s.acceptLine tag p false 0 0
  | .write p d m => s.acceptLine tag p true d m
  | .atomic e off op a b => s.aperture
    { tag, entry := e, off, kind := fkAtomic, op, mask := 0, data := leBytes 8 a.toNat ++ leBytes 8 b.toNat }

theorem execNetworkRequest_down {tag : Tag} {rq : NetReq} {s : State} (hu : s.networkUp = false) :
    exec (.networkRequest tag rq) s = .next (s.emit (.net (respTag tag true) (BitVec.allOnes 512) true)) := by
  cases rq <;> exact congrArg Host.Outcome.next (if_pos (by simp [hu]))

section
variable {tag : Tag} {rq : NetReq} {s : State} (hu : s.networkUp = true) (hp : s.placeRuns (reqPlace rq).1 = true)
include hu hp

theorem execNetworkRequest_refused {n : Nat} (hc : s.tagCheck tag (reqPlace rq).1 (reqPlace rq).2 true = n + 1) :
    exec (.networkRequest tag rq) s = .next ((s.tagRefused tag (n + 1)).netAnswer tag none) := by
  cases rq
  all_goals
    simp only [reqPlace] at hp hc
    refine congrArg Host.Outcome.next ((if_neg (by simp [hu, hp])).trans ?_)
    rw [hc]
    rfl

theorem execNetworkRequest_admitted (hc : s.tagCheck tag (reqPlace rq).1 (reqPlace rq).2 true = 0) :
    exec (.networkRequest tag rq) s = .next (acceptReq s tag rq) := by
  cases rq
  all_goals
    simp only [reqPlace] at hp hc
    refine congrArg Host.Outcome.next ((if_neg (by simp [hu, hp])).trans ?_)
    rw [hc]
    rfl

end

/-! ## Line requests to a stack (R26, R140, R141, R168) -/

/-- A request joins those that wait for the stacks, and these are served. -/
def joinHbm (s : State) (r : MemReq) : State := State.runHbm { s with msl := { s.msl with pending := s.msl.pending ++ [r] } }

/-- A change of power groups or a release holds the line. -/
def hbmHeld (s : State) (st a : Nat) : Bool :=
  s.sys.stackGoal.get 0 st ≠ 0 || (s.rgnAt a).any fun ri => (s.rgn ri).state = .releasing

/-- What becomes of a line request once its keys are used. -/
def acceptHbm (s : State) (t : Tag) (a : Nat) (write : Bool) (d : Line) (m : BitVec 64) (hold : Bool) : State :=
  if hold = true then joinHbm s { tag := t, addr := a, write, data := d, mask := m, hold := true, slot := true }
  else if s.hbmRoute t a = .refused then
    (if write then s.kidRefused t a else ((s.kidRefused t a).poisonedAt a).readCounted t (.bad true)).netAnswer t none
  else if s.hbmRoute t a = .inactive then
    (if write then s.kidInactive t else ((s.kidInactive t).poisonedAt a).readCounted t (.bad false)).netAnswer t none
  else joinHbm s { tag := t, addr := a, write, data := d, mask := m, slot := true, route := some (s.hbmRoute t a) }

theorem acceptLine_hbm {s : State} {t : Tag} {st l : Nat} {write : Bool} {d : Line} {m : BitVec 64} {hold : Bool}
    (hh : hbmHeld s st (st * 2 ^ 30 + l) = hold) :
    s.acceptLine t (.hbm st l) write d m =
      acceptHbm (s.useLine t (st * 2 ^ 30 + l)) t (st * 2 ^ 30 + l) write d m hold := by
  unfold State.acceptLine acceptHbm
  dsimp only
  generalize s.useLine t (st * 2 ^ 30 + l) = u
  unfold hbmHeld at hh
  cases hr : s.rgnAt (st * 2 ^ 30 + l)
  all_goals
    rw [hr] at hh
    simp only [Option.any_none, Option.any_some] at hh
    simp only [hh]
    cases hold
    case true => rfl
    case false => cases u.hbmRoute t (st * 2 ^ 30 + l) <;> cases write <;> rfl

theorem hbmHeld_eq_true {s : State} {st a : Nat}
    (h : s.sys.stackGoal.get 0 st ≠ 0 ∨ ((s.rgnAt a).any fun ri => (s.rgn ri).state = .releasing) = true) :
    hbmHeld s st a = true := by
  rcases h with h | h <;> simp only [hbmHeld, h, Bool.or_true, Bool.true_or, decide_true, ne_eq, not_false_eq_true]

theorem hbmHeld_eq_false {s : State} {st a : Nat} (h0 : s.sys.stackGoal.get 0 st = 0)
    (hr : ((s.rgnAt a).any fun ri => (s.rgn ri).state = .releasing) = false) : hbmHeld s st a = false := by
  rw [hbmHeld, hr, h0]
  rfl

section
variable {u : State} {t : Tag} {a : Nat} {write : Bool} {d : Line} {m : BitVec 64}

theorem acceptHbm_held : acceptHbm u t a write d m true =
    joinHbm u { tag := t, addr := a, write, data := d, mask := m, hold := true, slot := true } := if_pos rfl

theorem acceptHbm_refused (h : u.hbmRoute t a = .refused) : acceptHbm u t a write d m false =
    (if write then u.kidRefused t a else ((u.kidRefused t a).poisonedAt a).readCounted t (.bad true)).netAnswer t none :=
  (if_neg Bool.false_ne_true).trans (if_pos h)

theorem acceptHbm_inactive (h : u.hbmRoute t a = .inactive) : acceptHbm u t a write d m false =
    (if write then u.kidInactive t else ((u.kidInactive t).poisonedAt a).readCounted t (.bad false)).netAnswer t none :=
  (if_neg Bool.false_ne_true).trans ((if_neg (by rw [h]; decide)).trans (if_pos h))

theorem acceptHbm_joins (hr : u.hbmRoute t a ≠ .refused) (hi : u.hbmRoute t a ≠ .inactive) : acceptHbm u t a write d m false =
    joinHbm u { tag := t, addr := a, write, data := d, mask := m, slot := true, route := some (u.hbmRoute t a) } :=
  (if_neg Bool.false_ne_true).trans ((if_neg hr).trans (if_neg hi))

end

section
variable {tag : Tag} {st l : Nat} {s : State} {hold : Bool} (hu : s.networkUp = true) (hk : s.clkRuns (.mclk st) = true)
  (hh : hbmHeld s st (st * 2 ^ 30 + l) = hold)
include hu hk hh

/-- A read of a stack line that passes its checks (R140). -/
theorem execNetworkRequest_hbmRead (hc : s.tagCheck tag (.hbm st l) false true = 0) :
    exec (.networkRequest tag (.read (.hbm st l))) s =
      .next (acceptHbm (s.useLine tag (st * 2 ^ 30 + l)) tag (st * 2 ^ 30 + l) false 0 0 hold) :=
  (execNetworkRequest_admitted (rq := .read (.hbm st l)) hu hk hc).trans (congrArg _ (acceptLine_hbm hh))

/-- A write of a stack line that passes its checks (R140). -/
theorem execNetworkRequest_hbmWrite {d : Line} {m : BitVec 64} (hc : s.tagCheck tag (.hbm st l) true true = 0) :
    exec (.networkRequest tag (.write (.hbm st l) d m)) s =
      .next (acceptHbm (s.useLine tag (st * 2 ^ 30 + l)) tag (st * 2 ^ 30 + l) true d m hold) :=
  (execNetworkRequest_admitted (rq := .write (.hbm st l) d m) hu hk hc).trans (congrArg _ (acceptLine_hbm hh))

end

/-! ## Lines that return (R157, R162, R184) -/

/-- A line that nothing has asked for has no effect. -/
theorem lineReturned_unasked {s : State} {st l : Nat} {d : Line} {p c : Bool}
    (h : s.msl.issued.contains (st * 2 ^ 30 + l) = false) : s.lineReturned st l d p c = s :=
  if_pos (by rw [h]; rfl)

/-- A line that was asked for is taken from what waits for it, with its poison, unless it was written since. -/
def lineTaken (s : State) (a : Nat) (d : Line) (p : Bool) : State :=
  let u : State := { s with msl := { s.msl with
    issued := s.msl.issued.filter fun x => x ≠ a
    stale := s.msl.stale.filter fun x => x ≠ a } }
  if s.msl.stale.contains a then u else { u with msl := { u.msl with
    arrived := (a, d, p) :: s.msl.arrived.filter fun e => e.1 ≠ a
    hbm := s.msl.hbm.set 0 a d
    hbmPoison := s.msl.hbmPoison.set false a p } }

/-- A corrected error counts at the stack, and at the slice whose request waits first. -/
def countCorrected (w : State) (st a : Nat) (c : Bool) : State :=
  let w := if c then (w.memErr st 1 0 0).priv 0x306 1 else w
  match w.msl.pending.find? fun r => r.addr = a with
  | some r => w.count (tagSlice r.tag) 8 (b2n c)
  | none => w

theorem lineReturned_asked {s : State} {st l : Nat} {d : Line} {p c : Bool}
    (h : s.msl.issued.contains (st * 2 ^ 30 + l) = true) :
    s.lineReturned st l d p c =
      (countCorrected (lineTaken s (st * 2 ^ 30 + l) d p) st (st * 2 ^ 30 + l) c).runHbm.settleHbm :=
  if_neg (by rw [h]; decide)

/-- Where the root block above the line passes its check, a metadata fetch is a line's return. -/
theorem execMetadataFetchReturn_rootOk {s : State} {st l : Nat} {d : Line} {p c : Bool} :
    exec (.metadataFetchReturn st l d p c true) s = .next (s.lineReturned st l d p c) := by
  change execMetadataFetchReturn st l d p c true s = _
  unfold execMetadataFetchReturn
  dsimp only
  cases s.rgnAt (st * 2 ^ 30 + l) <;> rfl

/-- Where it fails, the region is lost first (R128). -/
theorem execMetadataFetchReturn_rootBad {s : State} {st l ri : Nat} {d : Line} {p c : Bool}
    (hr : s.rgnAt (st * 2 ^ 30 + l) = some ri) (hm : (s.rgn ri).mode = 1)
    (hi : s.msl.issued.contains (st * 2 ^ 30 + l) = true) :
    exec (.metadataFetchReturn st l d p c false) s = .next ((s.rootFault ri).lineReturned st l d p c) := by
  change execMetadataFetchReturn st l d p c false s = _
  unfold execMetadataFetchReturn
  simp only [hr, hm, hi]
  rfl

/-! ## Page re-encryption (R188 to R190) -/

theorem execPageReencrypt_idle {region page : Nat} {s : State} (h : region ≠ 64)
    (hc : s.msl.reenc.contains (region, page) = false) : exec (.pageReencrypt region page) s = .next s :=
  congrArg Host.Outcome.next ((if_neg h).trans (if_pos (by simp only [hc, Bool.not_false, Bool.true_or])))

/-- A page that is first on its sliver completes the reads in flight, re-encrypts, and the held writes follow. -/
theorem execPageReencrypt_due {region page : Nat} {rest : List (Nat × Nat)} {s : State} (h : region ≠ 64)
    (hr : s.msl.reenc = (region, page) :: rest) :
    exec (.pageReencrypt region page) s = .next
      (((((s.useRgn region).serveNow none fun r => !r.write && s.pageOf r.addr = some (region, page) && s.firstReads r).runHbm
        (some (region, page))).runHbm).settleHbm) :=
  congrArg Host.Outcome.next ((if_neg h).trans (if_neg (by simp [hr])))

/-! ## The hearth (R184, R185) -/

theorem execHearthReadReturn_unasked {line : Nat} {d : Line} {e : BitVec 64} {s : State}
    (h : ∀ r ∈ s.hth.pending, r.addr = line → r.hold = true ∨ r.slot = true) :
    exec (.hearthReadReturn line d e) s = .next s := by
  have hf : (s.hth.pending.find? fun r => r.addr = line && !r.hold && !r.slot) = none := by
    refine List.find?_eq_none.mpr fun r hr => ?_
    simp only [Bool.and_eq_true, decide_eq_true_eq, Bool.not_eq_true']
    rintro ⟨⟨ha, hh⟩, hs⟩
    simpa [hh, hs] using h r hr ha
  change execHearthReadReturn line d e s = _
  unfold execHearthReadReturn
  rw [hf]

theorem execHearthReadReturn_asked {line : Nat} {d : Line} {e : BitVec 64} {r : MemReq} {s : State}
    (h : (s.hth.pending.find? fun r => r.addr = line && !r.hold && !r.slot) = some r) :
    exec (.hearthReadReturn line d e) s = .next (((State.serveHearth { s with hth := { s.hth with
      store := s.hth.store.set 0 line d, ecc := s.hth.ecc.set 0 line e, pending := s.hth.pending.erase r } } r
        (some (d, e))).2.wakeHearth).kidSettle.settleHearth) := by
  change execHearthReadReturn line d e s = _
  unfold execHearthReadReturn
  rw [h]

/-- Settles O7: requests by their checks and their place, returns by what waits for them. -/
theorem networkRequestsAndReturns : Obligations.NetworkRequestsAndReturns := by
  refine ⟨fun tag rq s => execNetworkRequest_down,
    fun tag p n s hu hp hc => execNetworkRequest_refused (rq := .read p) hu hp hc,
    fun tag p n d m s hu hp hc => execNetworkRequest_refused (rq := .write p d m) hu hp hc,
    fun tag e off op n a b s hu hc => execNetworkRequest_refused (rq := .atomic e off op a b) hu rfl hc,
    fun tag st l a u s hu hk ha hc h0 hr hul hroute => ?_, fun tag st l a u d m s hu hk ha hc h0 hr hul hroute => ?_,
    fun tag st l a u s hu hk ha hc h0 hr hul hroute => ?_, fun tag st l a u d m s hu hk ha hc h0 hr hul hroute => ?_,
    fun tag st l a u s hu hk ha hc h0 hr hul hnr hni => ?_, fun tag st l a u d m s hu hk ha hc h0 hr hul hnr hni => ?_,
    fun tag st l a u s hu hk ha hc hh hul => ?_, fun tag st l a u d m s hu hk ha hc hh hul => ?_,
    fun tag l u s hu hc hul => ?_, fun tag l u d m s hu hc hul => ?_,
    fun tag e off s hu hc => execNetworkRequest_admitted (rq := .read (.aperture e off)) hu rfl hc,
    fun tag e off d m s hu hc => execNetworkRequest_admitted (rq := .write (.aperture e off) d m) hu rfl hc,
    fun tag e off op a b s hu hc => execNetworkRequest_admitted (rq := .atomic e off op a b) hu rfl hc,
    fun x s hx => if_pos (by rw [hx]; rfl),
    fun st l d p c s h => ⟨congrArg _ (lineReturned_unasked h),
      execMetadataFetchReturn_rootOk.trans (congrArg _ (lineReturned_unasked h))⟩,
    fun st l a d p c u v w s ha hi hu hv hw => ?_, fun st l ri d p c s => execMetadataFetchReturn_rootBad,
    fun region page s => execPageReencrypt_idle, fun region page rest u s h hr hu => ?_,
    fun page s h => congrArg Host.Outcome.next (if_pos h), fun line d e r s => execHearthReadReturn_asked,
    fun line d e s => execHearthReadReturn_unasked⟩
  · subst ha hul
    rw [execNetworkRequest_hbmRead hu hk (hbmHeld_eq_false h0 hr) hc, acceptHbm_refused hroute]
    rfl
  · subst ha hul
    rw [execNetworkRequest_hbmWrite hu hk (hbmHeld_eq_false h0 hr) hc, acceptHbm_refused hroute]
    rfl
  · subst ha hul
    rw [execNetworkRequest_hbmRead hu hk (hbmHeld_eq_false h0 hr) hc, acceptHbm_inactive hroute]
    rfl
  · subst ha hul
    rw [execNetworkRequest_hbmWrite hu hk (hbmHeld_eq_false h0 hr) hc, acceptHbm_inactive hroute]
    rfl
  · subst ha hul
    rw [execNetworkRequest_hbmRead hu hk (hbmHeld_eq_false h0 hr) hc, acceptHbm_joins hnr hni]
    rfl
  · subst ha hul
    rw [execNetworkRequest_hbmWrite hu hk (hbmHeld_eq_false h0 hr) hc, acceptHbm_joins hnr hni]
    rfl
  · subst ha hul
    rw [execNetworkRequest_hbmRead hu hk (hbmHeld_eq_true hh) hc, acceptHbm_held]
    rfl
  · subst ha hul
    rw [execNetworkRequest_hbmWrite hu hk (hbmHeld_eq_true hh) hc, acceptHbm_held]
    rfl
  · subst hul
    exact execNetworkRequest_admitted (rq := .read (.hearth l)) hu rfl hc
  · subst hul
    exact execNetworkRequest_admitted (rq := .write (.hearth l) d m) hu rfl hc
  · intro t
    have hv' : v = lineTaken s a d p := by
      rw [hv, hu]
      rfl
    have ht : s.lineReturned st l d p c = t := by
      subst ha hw
      rw [lineReturned_asked hi, ← hv']
      rfl
    exact ⟨congrArg Host.Outcome.next ht, execMetadataFetchReturn_rootOk.trans (congrArg Host.Outcome.next ht)⟩
  · subst hu
    exact execPageReencrypt_due h hr

end Sys2Proof.Proofs

/-! Power groups, power domains, clocks, the operating-second copy and the tamper pin (R24 to R26, R35 to R39, R43, R68). -/

namespace Sys2Proof.Proofs
open Sys2Proof Sys2Proof.Machine

/-! ## Power groups (R24 to R26) -/

/-- Of no groups, none may be on. -/
theorem allowedGroups_none (s : State) (stack : Nat) : s.allowedGroups stack 0 = 0 := by
  simp [State.allowedGroups, bit]

/-- No change begins for a stack that is none, whose controller is not released, or whose last change is under way (R26). -/
theorem changeGroups_ignored {s : State} {stack mask : Nat}
    (h : 4 ≤ stack ∨ s.rst.step < 3 ∨ s.sys.stackGoal.get 0 stack ≠ 0) : s.changeGroups stack mask = s := by
  refine if_pos ?_
  rcases h with h | h | h <;> simp [h]

/-- The change of a stack that is free to begin one to a set other than what is powered (R25, R26). -/
theorem changeGroups_begins {s : State} {stack mask : Nat} (h4 : stack < 4) (h3 : 3 ≤ s.rst.step)
    (hg : s.sys.stackGoal.get 0 stack = 0) (hm : s.allowedGroups stack mask ≠ s.poweredGroups stack) :
    s.changeGroups stack mask =
      if s.allowedGroups stack mask = 0 ∧ s.sys.selfRefresh.get false stack = false then s.groupRefused stack
      else State.settleHbm { s with sys := { s.sys with
        stackGoal := s.sys.stackGoal.set 0 stack (s.allowedGroups stack mask + 1) } } := by
  refine (if_neg (by simp [hg, hm, h4, h3])).trans ?_
  simp only [Bool.and_eq_true, decide_eq_true_eq, Bool.not_eq_true']

/-! ## Switched domains (R36 to R39) -/

@[simp] theorem pdOn_setPd_same (s : State) (p : Nat) (v : PdState) : (s.setPd p v).pdOn p = decide (v = .on) := by
  simp [State.pdOn, State.setPd]

/-- A domain of no memory group that is on: a command at work abandons the switching off, and otherwise the Damper's
condition decides (R36, R39). -/
theorem execDomainSwitchOff_on {p : Nat} {s : State} (hp : p < 14) (ho : s.pdOn p = true) :
    exec (.domainSwitchOff p) s = .next (
      if s.pdBusy p = true then s.record 0xB1 srcDamper [(1, drAbandon + p), (1, 0)]
      else if s.mayOff p = true then (s.loseDomain p).setPd p .off else s) := by
  change execDomainSwitchOff p s = _
  simp [execDomainSwitchOff, ho, show ¬ 30 ≤ p by omega, show ¬ 14 ≤ p by omega]

/-- A memory group is switched off by a change of its stack's groups (R26). -/
theorem execDomainSwitchOff_group {p : Nat} {s : State} (h14 : 14 ≤ p) (h30 : p < 30) (ho : s.pdOn p = true) :
    exec (.domainSwitchOff p) s =
      .next (s.changeGroups ((p - 14) / 4) (s.poweredGroups ((p - 14) / 4) - 2 ^ ((p - 14) % 4))) := by
  refine congrArg Host.Outcome.next ((if_neg ?_).trans (if_pos h14))
  simp [ho, h30]

theorem execDomainSwitchOff_off {p : Nat} {s : State} (ho : s.pdOn p = false) : exec (.domainSwitchOff p) s = .next s :=
  congrArg _ (if_pos (by simp [ho]))

theorem execDomainWake_domain {p : Nat} {s : State} (hp : p < 14) (ho : s.pdOn p = false)
    (hf : s.sys.pdFused.getLsbD p = false) : exec (.domainWake p) s = .next (s.setPd p .on) := by
  change execDomainWake p s = _
  simp [execDomainWake, ho, hf, show ¬ 30 ≤ p by omega, show ¬ 14 ≤ p by omega]

theorem execDomainWake_group {p : Nat} {s : State} (h14 : 14 ≤ p) (h30 : p < 30) (ho : s.pdOn p = false)
    (hf : s.sys.pdFused.getLsbD p = false) :
    exec (.domainWake p) s =
      .next (s.changeGroups ((p - 14) / 4) (s.poweredGroups ((p - 14) / 4) + 2 ^ ((p - 14) % 4))) := by
  refine congrArg Host.Outcome.next ((if_neg ?_).trans (if_pos h14))
  rw [ho, hf]
  simpa using h30

theorem execDomainWake_fused {p : Nat} {s : State} (hf : s.sys.pdFused.getLsbD p = true) :
    exec (.domainWake p) s = .next s :=
  congrArg _ (if_pos (by rw [hf, Bool.or_true]))

/-! ## Clocks and operating seconds (R35, R39) -/

/-- KCLK found stopped under main power is held and recorded. -/
theorem execClockFault_kclk {s : State} (hk : s.sys.kclkStopped = false) (hm : s.sys.mainPower = true) :
    exec (.clockFault .kclk false) s =
      .next (({ s with sys := { s.sys with kclkStopped := true } } : State).record 0x13 srcStoker [(1, 6)]) := by
  refine congrArg Host.Outcome.next ((if_neg ?_).trans ((if_pos rfl).trans (if_neg ?_)))
  · simp [hm]
  · simp [hk]

/-- Another clock is listed as stopped, or no more. -/
theorem execClockFault_other {k : Clock} {running : Bool} {s : State} (hk : k ≠ .kclk) (hm : s.sys.mainPower = true) :
    exec (.clockFault k running) s = .next { s with sys := { s.sys with
      stopped := if running then s.sys.stopped.filter fun c => c ≠ k else k :: s.sys.stopped.filter fun c => c ≠ k } } := by
  refine congrArg Host.Outcome.next ((if_neg ?_).trans (if_neg hk))
  simp [hm]

/-! ## Tamper (R43, R68) -/

/-- A level on TAMPER_N while the latch is not set: the filter decides, and then the supply. -/
theorem execTamperSet_clear {lowNs : Option Nat} {s : State} (hl : s.sys.tamperLatch = false) :
    exec (.tamperSet lowNs) s = .next (
      if (lowNs.all fun n => s.tamperFilter ≤ n) = false then { s with sys := { s.sys with tamperLow := lowNs.isNone } }
      else if s.sys.mainPower = false then
        { s with sys := { s.sys with tamperLow := lowNs.isNone, tamperLatch := true, tamperUnrec := true } }
      else if 2 ≤ s.rst.step then
        State.teardownAll (State.record { s with sys := { s.sys with tamperLow := lowNs.isNone, tamperLatch := true } }
          0x22 srcReset [(1, 1)]) alTamper .tamper
      else State.record { s with sys := { s.sys with tamperLow := lowNs.isNone, tamperLatch := true } } 0x22 srcReset [(1, 1)]) := by
  change execTamperSet lowNs s = _
  cases hp : lowNs.all fun n => s.tamperFilter ≤ n <;> cases hm : s.sys.mainPower <;>
    simp [execTamperSet, hl, hp, hm]

/-- With the latch set, only the level of the pin is taken. -/
theorem execTamperSet_set {lowNs : Option Nat} {s : State} (hl : s.sys.tamperLatch = true) :
    exec (.tamperSet lowNs) s = .next { s with sys := { s.sys with tamperLow := lowNs.isNone } } := by
  change execTamperSet lowNs s = _
  simp [execTamperSet, hl]

/-- Settles O11, from what each command does once its guards are judged. -/
theorem powerDomainsAndClocks : Obligations.PowerDomainsAndClocks := by
  refine ⟨fun stack p s h => congrArg _ (changeGroups_ignored h), fun stack s h4 h3 hg hp hr => congrArg Host.Outcome.next ?_,
    fun stack p s h4 h3 hg hm ha => congrArg Host.Outcome.next ?_,
    fun p s hp ho hb hm => ⟨_, ?_, rfl, by simp, ?_, ?_⟩, fun p s hp ho hb hm => ?_, fun p s hp ho hb => ?_,
    fun p s => execDomainSwitchOff_group, fun p s => execDomainSwitchOff_off,
    fun p s hp ho hf => ⟨_, execDomainWake_domain hp ho hf, rfl, by simp⟩, fun p s => execDomainWake_group,
    fun p s _ => execDomainWake_fused, fun s => execClockFault_kclk, fun k s => execClockFault_other,
    fun k s => execClockFault_other, fun s => rfl, fun s hm hk hl => congrArg Host.Outcome.next (if_pos ?_),
    fun s h => congrArg Host.Outcome.next (if_neg ?_),
    fun lowNs s hl hm hf h2 => ?_, fun lowNs s hl hm hf h2 => ?_, fun lowNs s hl hm hf => ?_, fun n s hl hf => ?_,
    fun lowNs s => execTamperSet_set⟩
  · have h0 := allowedGroups_none s stack
    exact (changeGroups_begins h4 h3 hg (h0 ▸ hp.symm)).trans (if_pos ⟨h0, hr⟩)
  · rw [changeGroups_begins h4 h3 hg hm, if_neg]
    rintro ⟨h0, hr⟩
    rcases ha with ha | ha
    · exact ha h0
    · simp [hr] at ha
  · rw [execDomainSwitchOff_on (by omega) ho, if_neg (by simp [hb]), if_pos hm]
  · rintro rfl; rfl
  · rintro rfl; exact ⟨rfl, rfl⟩
  · rw [execDomainSwitchOff_on hp ho, if_neg (by simp [hb]), if_neg (by simp [hm])]
  · rw [execDomainSwitchOff_on (by omega) ho, if_pos hb]
  · simp [hm, hk, hl]
  · rcases h with h | h | h <;> simp [h]
  · rw [execTamperSet_clear hl, if_neg (by simp [hf]), if_neg (by simp [hm]), if_pos h2]
  · rw [execTamperSet_clear hl, if_neg (by simp [hf]), if_neg (by simp [hm]), if_neg (Nat.not_le.mpr h2)]
  · rw [execTamperSet_clear hl, if_neg (by simp [hf]), if_pos hm]
  · rw [execTamperSet_clear hl, if_pos (by simpa using hf)]
    rfl

end Sys2Proof.Proofs

/-! Messages outside an accepted session (R52), and events before their time. -/

namespace Sys2Proof.Proofs
open Sys2Proof Sys2Proof.Machine

/-! ## Messages outside an accepted session (R52) -/

/-- Where the chain ends in no valid anchor, the message is not heard. -/
theorem not_hears_of_not_chainOk {s : State} {m : Mgmt} (role : Bool) (h : s.chainOk m = false) : s.hears m role = false := by
  simp [State.hears, h]

/-- An operator-role message is not heard from a leaf without the role either. -/
theorem not_hears_operator {s : State} {m : Mgmt} (h : s.chainOk m = false ∨ m.role = false) : s.hears m true = false := by
  rcases h with h | h <;> simp [State.hears, h]

theorem next_domMsg_unauth {s : State} {m : Mgmt} {f : State → State} (hs : s.serving = true) (h : s.chainOk m = false) :
    (.next (s.domMsg m false f) : Res) = .next (s.answer .unauth) := by
  rw [domMsg_unauth hs (not_hears_of_not_chainOk false h)]

/-- A message to the lead is judged by its session before the lead is looked for. -/
theorem next_leadMsg_unauth {s : State} {m : Mgmt} {f : State → State} (hs : s.serving = true) (h : s.chainOk m = false) :
    (.next (s.leadMsg m f) : Res) = .next (s.answer .unauth) :=
  next_domMsg_unauth hs h

theorem next_operatorMsg_unauth {s : State} {m : Mgmt} {f : State → State} (hs : s.serving = true)
    (h : s.chainOk m = false ∨ m.role = false) : (.next (s.domMsg m true f) : Res) = .next (s.answer .unauth) := by
  rw [domMsg_unauth hs (not_hears_operator h)]

/-- Settles O9: each message passes one of the three shared gates, to any member, to the lead, or of an operator. -/
theorem unauthenticatedMessagesAnswerUnauth : Obligations.UnauthenticatedMessagesAnswerUnauth :=
  ⟨fun _ _ _ _ _ => next_domMsg_unauth, fun _ _ _ _ => next_domMsg_unauth, fun _ _ _ _ _ => next_domMsg_unauth,
   fun _ _ _ => next_domMsg_unauth, fun _ _ _ => next_domMsg_unauth, fun _ _ _ => next_domMsg_unauth,
   fun _ _ => next_domMsg_unauth, fun _ _ _ _ _ => next_leadMsg_unauth, fun _ _ _ _ => next_leadMsg_unauth,
   fun _ _ _ => next_leadMsg_unauth, fun _ _ _ _ => next_leadMsg_unauth, fun _ _ _ _ => next_leadMsg_unauth,
   fun _ _ _ _ => next_leadMsg_unauth, fun _ _ _ _ => next_leadMsg_unauth, fun _ _ _ => next_operatorMsg_unauth,
   fun _ _ _ => next_operatorMsg_unauth, fun _ _ => next_operatorMsg_unauth, fun _ _ => next_operatorMsg_unauth,
   fun _ _ _ _ => next_operatorMsg_unauth, fun _ _ _ _ => next_operatorMsg_unauth⟩

/-! ## Events before their time -/

/-- An event that acts once its time has come, whatever else it asks for, does nothing before. -/
theorem next_of_not_due {now due : Nat} {b : Bool} {s u : State} (h : now < due) :
    (.next (if b && decide (due ≤ now) then u else s) : Res) = .next s := by
  rw [if_neg (by simp [h])]

/-- An event that is passed over until its time, or for another reason, does nothing before. -/
theorem next_of_early {now due : Nat} {b : Bool} {s u : State} (h : now < due) :
    (.next (if b || decide (now < due) then s else u) : Res) = .next s := by
  rw [if_pos (by simp [h])]

theorem execRecoveryTimeout_early {s : State} (h : s.sys.now < s.rst.assertAt + 10 * 1000000000) :
    exec .recoveryTimeout s = .next s := by
  have hn : ¬ s.rst.assertAt + 10 * sec ≤ s.now := Nat.not_le.mpr h
  exact congrArg _ (if_pos (by simp [hn]))

/-- A report is due only every 100 ms, with a slot `LIVE` or not. -/
theorem execPwrReport_early {s : State} (h : s.sys.now < s.pwr.reportAt + 100 * 1000000) : exec .pwrReport s = .next s := by
  have hn : s.now < s.pwr.reportAt + 100 * ms := h
  exact congrArg _ (if_pos (by simp [hn]))

/-- Settles O10: an event acts only once due, or is passed over while early; the scrub deadline, the throttle interval, the
report and the recovery timeout judge their time in a guard of another shape. -/
theorem timersWaitForTheirDeadline : Obligations.TimersWaitForTheirDeadline :=
  ⟨fun _ _ => next_of_not_due, fun _ _ => next_of_not_due, fun _ _ => next_of_not_due, fun _ _ => next_of_not_due,
   fun _ => next_of_not_due, fun _ _ => next_of_early, fun _ _ h => execScrubDeadline_early (.inr (.inr h.le)),
   fun _ _ => next_of_not_due, fun _ _ => next_of_not_due, fun _ _ => next_of_not_due, fun _ _ => next_of_not_due,
   fun _ => next_of_early, fun _ h => congrArg _ (if_pos h), fun _ => next_of_early, fun _ => next_of_early,
   fun _ => next_of_early, fun _ => execPwrReport_early, fun _ _ => next_of_early, fun _ => next_of_early,
   fun _ => execRecoveryTimeout_early, fun _ _ => next_of_early, fun _ => next_of_early, fun _ _ => next_of_early,
   fun _ _ => next_of_early⟩

end Sys2Proof.Proofs

/-! The activation of a slot at the lead and at its members (R51, R56). -/

namespace Sys2Proof.Proofs
open Sys2Proof Sys2Proof.Machine

/-! ## Activated slots -/

@[simp] theorem activateSlot_out (s : State) (i : Nat) : (s.activateSlot i).out = s.out := by
  obtain ⟨_, _, _, e⟩ := activateSlot_frame s i; rw [e]
@[simp] theorem activateSlot_fbx (s : State) (i : Nat) : (s.activateSlot i).fbx = s.fbx := by
  obtain ⟨_, _, _, e⟩ := activateSlot_frame s i; rw [e]
@[simp] theorem activateSlot_qm (s : State) (i : Nat) : (s.activateSlot i).qm = s.qm := by
  obtain ⟨_, _, _, e⟩ := activateSlot_frame s i; rw [e]
@[simp] theorem activateSlot_sys (s : State) (i : Nat) : (s.activateSlot i).sys = s.sys := by
  obtain ⟨_, _, _, e⟩ := activateSlot_frame s i; rw [e]

theorem activateSlot_slot_other (s : State) {i j : Nat} (h : j ≠ i) : (s.activateSlot i).slot j = s.slot j := by
  unfold State.activateSlot State.modSlot State.moveSlot
  simp [slot_setSlot_other _ _ h]

/-- The lead's slot once the members have been told: `LIVE`, with its lease running. -/
theorem activateSlot_toPeers_slot (s : State) (k : Nat) (v : List Nat) (i : Nat) :
    ((s.toPeers k v).activateSlot i).slot i = { s.slot i with
      state := .live, cause := .activate, leaseEnd := s.sys.now + (s.slot i).leaseSecs * 1000000000 } := by
  rw [activateSlot_slot, toPeers_slot, toPeers_now]
  rfl

@[simp] theorem answer_out (s : State) (r : DomResult) (v : List Nat) : (s.answer r v).out = .dom r v :: s.out := rfl
@[simp] theorem answer_fbx (s : State) (r : DomResult) (v : List Nat) : (s.answer r v).fbx = s.fbx := rfl
@[simp] theorem answer_qm (s : State) (r : DomResult) (v : List Nat) : (s.answer r v).qm = s.qm := rfl
@[simp] theorem toPeers_fbx (s : State) (k : Nat) (v : List Nat) : (s.toPeers k v).fbx = s.fbx := by rw [toPeers_eq]
@[simp] theorem toPeers_qm (s : State) (k : Nat) (v : List Nat) : (s.toPeers k v).qm = s.qm := by rw [toPeers_eq]

/-! ## `DOM_ACTIVATE` at the lead -/

/-- A message without another member to wait for is answered at once. -/
theorem awaitPeers_alone {s : State} {i kind : Nat} (h : s.peers = []) : s.awaitPeers i kind = s.answer .ok := by
  simp [State.awaitPeers, h]

/-- Otherwise the slot waits for every other member, and nothing is answered. -/
theorem awaitPeers_waits {s : State} {i kind : Nat} (h : s.peers ≠ []) :
    s.awaitPeers i kind =
      s.setSlot i { s.slot i with awaiting := kind, unconfirmed := s.peers, confirmBy := s.now + 10 * ms } := by
  simp [State.awaitPeers, State.modSlot, h]

/-- `DOM_ACTIVATE` that reaches the lead: the slot's state and secret decide. -/
theorem execDomActivate_leads {m : Mgmt} {slot : Nat} {s : State} (hl : s.leads m = true) (hf : s.slotFree slot = true) :
    exec (.domActivate m slot) s = .next (
      if (s.slot slot).state = .admitting ∧ (s.slot slot).hasSecret = true then
        ((s.toPeers bkActivate [slot]).activateSlot slot).awaitPeers slot 3
      else s.answer .badState) := by
  change execDomActivate m slot s = _
  rw [execDomActivate, leadMsg_leads hl, slotMsg_free hf]
  by_cases ha : (s.slot slot).state = .admitting <;> cases hx : (s.slot slot).hasSecret <;> simp [ha, hx]

/-! ## Confirmations over the bridge -/

@[simp] theorem heardPos_slot (s : State) (h i : Nat) : (s.heardPos h).slot i = s.slot i := rfl
@[simp] theorem heardPos_out (s : State) (h : Nat) : (s.heardPos h).out = s.out := rfl
@[simp] theorem heardPos_sys (s : State) (h : Nat) : (s.heardPos h).sys = s.sys := rfl

/-- A present die's confirmation is taken. -/
theorem execBrCtlReceive_confirm {h i : Nat} {ok : Bool} {s : State} (hb : s.bridgeUp = true)
    (hp : s.peers.contains h = true) :
    exec (.brCtlReceive (.confirm h i ok)) s = .next ((s.heardPos h).takeConfirm h i ok) :=
  congrArg _ (if_neg (by simp only [brPos, hb, hp]; decide))

/-- A member told to activate by its lead makes an admitted slot `LIVE` and confirms. -/
theorem execBrCtlReceive_slotActivate {h i : Nat} {s : State} (hb : s.bridgeUp = true) (hp : s.peers.contains h = true)
    (hl : h = s.hst.leadPos) (ha : (s.slot i).state = .admitting) (hx : (s.slot i).hasSecret = true) :
    exec (.brCtlReceive (.slotActivate h i)) s = .next (((s.heardPos h).activateSlot i).confirmTo h i true) := by
  refine congrArg Host.Outcome.next ((if_neg (by simp only [brPos, hb, hp]; decide)).trans ((if_pos hl).trans (if_pos ?_)))
  simp [ha, hx]

/-- A confirmation of a member that is waited for answers the message if it is the last, and is only struck off otherwise. -/
theorem takeConfirm_awaited {s : State} {h i : Nat} (ha : (s.slot i).awaiting ≠ 0)
    (hu : (s.slot i).unconfirmed.contains h = true) :
    s.takeConfirm h i true =
      if ((s.slot i).unconfirmed.filter fun x => x ≠ h) = [] then
        (s.setSlot i { s.slot i with awaiting := 0, unconfirmed := [], confirmBy := 0 }).answer .ok
      else s.setSlot i { s.slot i with unconfirmed := (s.slot i).unconfirmed.filter fun x => x ≠ h } := by
  refine (if_neg (by rw [hu]; simp [ha])).trans ((if_neg (by decide)).trans ?_)
  simp only [List.isEmpty_iff]

/-- Such a confirmation as it arrives from a present die. -/
theorem execBrCtlReceive_confirm_awaited {h i : Nat} {s : State} (hb : s.bridgeUp = true) (hp : s.peers.contains h = true)
    (ha : (s.slot i).awaiting ≠ 0) (hu : (s.slot i).unconfirmed.contains h = true) :
    exec (.brCtlReceive (.confirm h i true)) s = .next (
      if ((s.slot i).unconfirmed.filter fun x => x ≠ h) = [] then
        ((s.heardPos h).setSlot i { s.slot i with awaiting := 0, unconfirmed := [], confirmBy := 0 }).answer .ok
      else (s.heardPos h).setSlot i
        { s.slot i with unconfirmed := (s.slot i).unconfirmed.filter fun x => x ≠ h }) := by
  rw [execBrCtlReceive_confirm hb hp, takeConfirm_awaited (s := s.heardPos h) ha hu, heardPos_slot]

/-- Settles O13: at the lead the slot's secret decides and its members are waited for; a member activates and confirms; the
last confirmation answers. -/
theorem activationNeedsASecret : Obligations.ActivationNeedsASecret := by
  refine ⟨fun m slot s hl hf hx => ?_, fun m slot s hl hf ha hx hp => ?_, fun m slot s hl hf ha hx hp => ?_,
    fun h i s hb hp hl ha hx => ⟨_, execBrCtlReceive_slotActivate hb hp hl ha hx, ?_, activateSlot_slot _ i⟩,
    fun h i s hb hp ha hu hl => ⟨_,
      (execBrCtlReceive_confirm_awaited hb hp ha hu).trans (congrArg _ (if_pos hl)), rfl, slot_setSlot_same _ _ _⟩,
    fun h i s hb hp ha hu hl => ⟨_,
      (execBrCtlReceive_confirm_awaited hb hp ha hu).trans (congrArg _ (if_neg hl)), rfl, slot_setSlot_same _ _ _⟩⟩
  · rw [execDomActivate_leads hl hf, if_neg (by simp [hx])]
  · refine ⟨_, (execDomActivate_leads hl hf).trans (congrArg _ (if_pos ⟨ha, hx⟩)), ?_⟩
    rw [awaitPeers_alone (by simp [hp])]
    refine ⟨?_, ?_, fun j hj => ?_, ?_, ?_⟩
    · simp [toPeers_eq, hp]
    · rw [answer_slot, activateSlot_toPeers_slot]
    · rw [answer_slot, activateSlot_slot_other _ hj, toPeers_slot]
    · simp
    · simp
  · refine ⟨_, (execDomActivate_leads hl hf).trans (congrArg _ (if_pos ⟨ha, hx⟩)), ?_⟩
    rw [awaitPeers_waits (by simp [hp])]
    refine ⟨?_, ?_, fun j hj => ?_, ?_, ?_⟩
    · simp [toPeers_eq]
    · rw [slot_setSlot_same, activateSlot_toPeers_slot, activateSlot_peers, toPeers_peers, activateSlot_now, toPeers_now]
      rfl
    · rw [slot_setSlot_other _ _ hj, activateSlot_slot_other _ hj, toPeers_slot]
    · simp
    · simp
  · simp [State.confirmTo, State.toPeer, State.emit, State.pos, b2n]

end Sys2Proof.Proofs

/-! Slices: configuration, enabling, level, the actions of `QM_SL_CTL` and the slice reset (R73, R74, R94, R100, R101, R106). -/

namespace Sys2Proof.Proofs
open Sys2Proof Sys2Proof.Machine

/-! ## What dropping a held half leaves (R11) -/

@[simp] theorem dropHeld_qm (s : State) (r : Req) : (s.dropHeld r).qm = s.qm := rfl
@[simp] theorem dropHeld_slice (s : State) (r : Req) (i : Nat) : (s.dropHeld r).slice i = s.slice i := rfl
@[simp] theorem dropHeld_queue (s : State) (r : Req) (i q : Nat) : (s.dropHeld r).queue i q = s.queue i q := rfl
@[simp] theorem dropHeld_queuesOf (s : State) (r : Req) (i : Nat) : (s.dropHeld r).queuesOf i = s.queuesOf i := rfl
@[simp] theorem dropHeld_slot (s : State) (r : Req) (i : Nat) : (s.dropHeld r).slot i = s.slot i := rfl

/-! ## The pages of the kernel driver (R73, R74) -/

/-- `QM_SLCFG` of a `FREE` slice whose TDI is unlocked is written. -/
theorem execQmSlcfgWrite_takes {r : Req} {v : BitVec 64} {s : State} (hs : s.served r 0x100008 = true)
    (hp : globalPage r = true) (hf : (s.slice s.qm.slsel).state = .free) (hu : (s.slice s.qm.slsel).tdi = .unlocked) :
    exec (.qmSlcfgWrite r v) s = .next ((s.dropHeld r).setSlice s.qm.slsel
      { s.slice s.qm.slsel with cfg := v &&& 0x7FFFFFFFFFFFF }) := by
  refine congrArg Host.Outcome.next ((regWrite_served hs hp).trans
    (congrArg ((s.dropHeld r).setSlice s.qm.slsel) (if_pos ?_)))
  simp [hf, hu]

theorem execQmSlcfgWrite_refuses {r : Req} {v : BitVec 64} {s : State} (hs : s.served r 0x100008 = true)
    (hp : globalPage r = true) (h : (s.slice s.qm.slsel).state ≠ .free ∨ (s.slice s.qm.slsel).tdi ≠ .unlocked) :
    exec (.qmSlcfgWrite r v) s = .next ((s.dropHeld r).setSlice s.qm.slsel { s.slice s.qm.slsel with refuse := 1 }) := by
  refine congrArg Host.Outcome.next ((regWrite_served hs hp).trans
    (congrArg ((s.dropHeld r).setSlice s.qm.slsel) (if_neg ?_)))
  rcases h with h | h <;> simp [h]

/-- `ENABLE` refuses a slice that is not `FREE`, and another for what `enableRefusal` says. -/
theorem execSliceEnable_served {r : Req} {s : State} (hs : s.served r 0x100010 = true) (hp : globalPage r = true) {n : Nat}
    (hn : (if (s.slice s.qm.slsel).state ≠ .free then 1 else s.enableRefusal s.qm.slsel) = n) :
    exec (.sliceEnable r) s = .next ((s.dropHeld r).modSlice s.qm.slsel fun l =>
      if n = 0 then { l with state := .active, pagedSince := false } else { l with refuse := n }) := by
  subst hn
  exact congrArg Host.Outcome.next (regWrite_served hs hp)

/-- What a served `DISABLE` does in each state of the slice. -/
theorem execSliceDisable_served {r : Req} {s : State} (hs : s.served r 0x100010 = true) (hp : globalPage r = true) :
    exec (.sliceDisable r) s = .next (match (s.slice s.qm.slsel).state with
      | .free => s.dropHeld r
      | .active => (s.dropHeld r).startReset s.qm.slsel true
      | .resetting => (s.dropHeld r).modSlice s.qm.slsel fun l => { l with toFree := true }) :=
  congrArg Host.Outcome.next (regWrite_served hs hp)

/-! ## Level (R106) -/

theorem execQmSlLevelWrite_idle {r : Req} {slice : Nat} {v : BitVec 32} {s : State} (hs : s.served r (slicePage slice + 8) = true)
    (hp : s.pageWrite slice r = true) (hq : s.queuesOf slice = []) :
    exec (.qmSlLevelWrite r slice v) s = .next ((s.dropHeld r).modSlice slice fun l =>
      { l with level := if bits v.toNat 3 0 = 0 then 0 else 1 }) := by
  refine congrArg Host.Outcome.next ((regWrite_served hs hp).trans (if_neg ?_))
  simp [hq]

/-- The level is frozen while a queue of the slice is not `DISABLED`. -/
theorem execQmSlLevelWrite_frozen {r : Req} {slice : Nat} {v : BitVec 32} {s : State}
    (hs : s.served r (slicePage slice + 8) = true) (hp : s.pageWrite slice r = true) (hq : s.queuesOf slice ≠ []) :
    exec (.qmSlLevelWrite r slice v) s = .next (s.dropHeld r) := by
  refine congrArg Host.Outcome.next ((regWrite_served hs hp).trans (if_pos ?_))
  simpa using hq

/-- Settles O16, from what each served write does in each state of its slice. -/
theorem sliceConfigureEnableDisable : Obligations.SliceConfigureEnableDisable := by
  refine ⟨fun r v s => execQmSlcfgWrite_takes, fun r v s => execQmSlcfgWrite_refuses, fun r s hs hp hf hn => ?_,
    fun r n s hs hp hf hn => ?_, fun r s hs hp hf => ?_, fun r s hs hp h => ?_, fun r s hs hp h => ?_, fun r s hs hp h => ?_,
    fun r slice v s => execQmSlLevelWrite_idle, fun r slice v s => execQmSlLevelWrite_frozen⟩
  · exact execSliceEnable_served hs hp ((if_neg (not_not.mpr hf)).trans hn)
  · exact execSliceEnable_served hs hp ((if_neg (not_not.mpr hf)).trans hn)
  · exact execSliceEnable_served hs hp (if_pos hf)
  · rw [execSliceDisable_served hs hp, h]
  · rw [execSliceDisable_served hs hp, h]
  · rw [execSliceDisable_served hs hp, h]

/-! ## Actions of `QM_SL_CTL` (R94, R100, R101) -/

/-- A served action finds BUSY settled, whether the kernel driver may write it or not. -/
theorem slCtl_served {s : State} {r : Req} {i : Nat} {kernel : Bool} {f : State → State}
    (hs : s.served r (slicePage i + 0x10) = true) (hp : s.pageWrite i r = true) :
    s.slCtl r i kernel f = f ((s.dropHeld r).settleRstat i) :=
  regWrite_served hs (by rw [hp, Bool.true_or])

/-- `RESET` of an `ACTIVE` slice supersedes any action but another `RESET`. -/
theorem execSliceReset_active {r : Req} {slice : Nat} {s u : State} (hs : s.served r (slicePage slice + 0x10) = true)
    (hp : s.pageWrite slice r = true) (hu : (s.dropHeld r).settleRstat slice = u)
    (hb : (u.slice slice).rbusy = false ∨ (u.slice slice).rop ≠ 3) (ha : (u.slice slice).state = .active) :
    exec (.sliceReset r slice) s =
      .next (((u.startAction slice 3 (u.squashable slice)).startReset slice false).settleRstat slice) := by
  subst hu
  refine congrArg Host.Outcome.next ((slCtl_served hs hp).trans ((if_neg ?_).trans ?_))
  · rcases hb with hb | hb <;> simp [hb]
  · simp only [ha, if_true]

/-! ## The slice reset (R100) -/

@[simp] theorem resetStep2_rstStep (s : State) (i : Nat) : ((s.resetStep2 i).slice i).rstStep = 3 := by
  rw [State.resetStep2, State.modSlice, slice_setSlice_same]

theorem advanceReset_not_resetting {s : State} {i : Nat} (h : (s.slice i).state ≠ .resetting) : s.advanceReset i = s :=
  if_pos h

/-- With every queue stopped, step 1 goes on to step 2, and on to step 4 once nothing of the slice is in flight. -/
theorem advanceReset_stopped {s : State} {i : Nat} (hr : (s.slice i).state = .resetting) (h1 : (s.slice i).rstStep = 1)
    (hq : s.allStopped i = true) :
    s.advanceReset i = if (s.resetStep2 i).inflight i = 0 ∧ (s.resetStep2 i).winsClosing i = false then
      (s.resetStep2 i).resetStep4 i else s.resetStep2 i := by
  simp [State.advanceReset, hr, h1, hq]

/-- Settles O17, from the shared gate of the actions and the two waits of the reset. -/
theorem sliceActions : Obligations.SliceActions := by
  refine ⟨fun r slice s hs hp hb => ?_, fun r slice s hs hp hb => ?_, fun r slice s hs hp hb => ?_,
    fun r slice s hs hp hb => ?_, fun r slice s hs hp => execSliceReset_active hs hp rfl, fun slice s => rfl,
    fun i s => advanceReset_not_resetting, fun i s => advanceReset_stopped⟩
  · exact congrArg Host.Outcome.next ((slCtl_served hs hp).trans (if_neg (ne_true_of_eq_false hb)))
  · exact congrArg Host.Outcome.next ((slCtl_served hs hp).trans (if_pos hb))
  · exact congrArg Host.Outcome.next ((slCtl_served hs hp).trans (if_neg (ne_true_of_eq_false hb)))
  · exact congrArg Host.Outcome.next ((slCtl_served hs hp).trans (if_pos hb))

end Sys2Proof.Proofs

/-! Commands of `QM_QCMD`, and the level that bars them (R78, R82, R83, R87, R98, R99, R106). -/

namespace Sys2Proof.Proofs
open Sys2Proof Sys2Proof.Machine

/-! ## The gate of `QM_QCMD` (R82) -/

/-- A served command acts on the queue that `QM_QSEL` selects. -/
theorem qcmd_served {s : State} {r : Req} {i : Nat} {f : Nat → State → State} (hs : s.served r (slicePage i + 0x40) = true)
    (hp : s.pageWrite i r = true) : s.qcmd r i f = f (s.slice i).qsel (s.dropHeld r) :=
  regWrite_served hs hp

/-- A command of the state table with a row for the queue's state, the slice not `RESETTING`. -/
theorem qmove_row {s : State} {i q : Nat} {row : Bool} {f : State → State} (hr : (s.slice i).state ≠ .resetting)
    (h : row = true) : s.qmove i q row f = f (s.qrefuse i q 0) :=
  if_neg (by simp [hr, h])

theorem qmove_no_row {s : State} {i q : Nat} {row : Bool} {f : State → State} (h : row = false) :
    s.qmove i q row f = s.qrefuse i q 1 :=
  if_pos (by simp [h])

theorem qmove_resetting {s : State} {i q : Nat} {row : Bool} {f : State → State} (h : (s.slice i).state = .resetting) :
    s.qmove i q row f = s.qrefuse i q 1 :=
  if_pos (by simp [h])

/-! ## `ENABLE` (R83, R87) -/

/-- The context that an accepted `ENABLE` starts. -/
def enabledQueue (s : State) (r : Req) (i q : Nat) : Queue :=
  { ring := (s.slice i).qring.get 0 q, cpl := (s.slice i).qcpl.get 0 q, param := (s.slice i).qparam.get 0 q, state := .enabled
    nextSeq := 1, bound := s.overIface i r }

/-- The ring objects of a context, each once. -/
def ringUsers (x : Queue) : List Nat :=
  ((if x.ringObj then [hIndex (fld x.ring 63 32)] else []) ++ if x.cplObj then [hIndex (fld x.cpl 63 32)] else []).eraseDups

/-- A context whose rings lie in host memory holds no object. -/
theorem ringUsers_host {x : Queue} (hr : x.ringObj = false) (hc : x.cplObj = false) : ringUsers x = [] := by
  simp [ringUsers, hr, hc]

theorem execQueueEnable_accepts {r : Req} {slice : Nat} {s : State} (hs : s.served r (slicePage slice + 0x40) = true)
    (hp : s.pageWrite slice r = true) (hr : (s.slice slice).state ≠ .resetting)
    (hn : s.queueRefusal slice (s.slice slice).qsel r = 0) :
    exec (.queueEnable r slice) s = .next (
      (ringUsers (enabledQueue s r slice (s.slice slice).qsel)).foldl (fun t e => t.objHold slice e)
        ((s.dropHeld r).setQueue slice (s.slice slice).qsel { enabledQueue s r slice (s.slice slice).qsel with
          ringObjs := ringUsers (enabledQueue s r slice (s.slice slice).qsel) })) := by
  refine congrArg Host.Outcome.next ((qcmd_served hs hp).trans ((if_neg hr).trans ?_))
  rw [show (s.dropHeld r).queueRefusal slice (s.slice slice).qsel r = 0 from hn]
  rfl

theorem execQueueEnable_refuses {r : Req} {slice n : Nat} {s : State} (hs : s.served r (slicePage slice + 0x40) = true)
    (hp : s.pageWrite slice r = true) (hr : (s.slice slice).state ≠ .resetting)
    (hn : s.queueRefusal slice (s.slice slice).qsel r = n + 1) :
    exec (.queueEnable r slice) s = .next ((s.dropHeld r).qrefuse slice (s.slice slice).qsel (n + 1)) := by
  refine congrArg Host.Outcome.next ((qcmd_served hs hp).trans ((if_neg hr).trans ?_))
  rw [show (s.dropHeld r).queueRefusal slice (s.slice slice).qsel r = n + 1 from hn]
  rfl

theorem execQueueEnable_resetting {r : Req} {slice : Nat} {s : State} (hs : s.served r (slicePage slice + 0x40) = true)
    (hp : s.pageWrite slice r = true) (hr : (s.slice slice).state = .resetting) :
    exec (.queueEnable r slice) s = .next ((s.dropHeld r).qrefuse slice (s.slice slice).qsel 1) :=
  congrArg Host.Outcome.next ((qcmd_served hs hp).trans (if_pos hr))

/-! ## Stops, `RESUME`, `DISABLE` (R82, R98, R99) -/

theorem execStopDrain_served {r : Req} {slice : Nat} {s : State} (hs : s.served r (slicePage slice + 0x40) = true)
    (hp : s.pageWrite slice r = true) :
    exec (.stopDrain r slice) s = .next ((s.dropHeld r).qmove slice (s.slice slice).qsel
      ((s.queue slice (s.slice slice).qsel).state = .enabled) fun t => t.modQueue slice (s.slice slice).qsel fun x =>
        Queue.settle { x with state := .stopping, squash := false, stopTail := x.tail }) :=
  congrArg Host.Outcome.next (qcmd_served hs hp)

/-- A squash stops the queues whose commands may still start (R82). -/
theorem execStopSquash_served {r : Req} {slice : Nat} {s : State} {x : Queue}
    (hs : s.served r (slicePage slice + 0x40) = true) (hp : s.pageWrite slice r = true)
    (hx : s.queue slice (s.slice slice).qsel = x) :
    exec (.stopSquash r slice) s = .next ((s.dropHeld r).qmove slice (s.slice slice).qsel x.open fun t =>
      (t.squashQueue slice (s.slice slice).qsel dtByStop 0).settleSync) := by
  subst hx
  exact congrArg Host.Outcome.next (qcmd_served hs hp)

/-- `RESUME` where no action of the slice has been completed that BUSY still shows. -/
theorem execQueueResume_served {r : Req} {slice : Nat} {s : State} (hs : s.served r (slicePage slice + 0x40) = true)
    (hp : s.pageWrite slice r = true) (hb : (s.dropHeld r).settleRstat slice = s.dropHeld r) :
    exec (.queueResume r slice) s = .next ((s.dropHeld r).qmove slice (s.slice slice).qsel
      ((s.queue slice (s.slice slice).qsel).state = .stopped &&
        !((s.slice slice).bound && (s.slot (s.slice slice).dslot).state = .quarantined)) fun t =>
      t.modQueue slice (s.slice slice).qsel fun x => Queue.judgeTail { x with state := .enabled }) := by
  refine congrArg Host.Outcome.next ((qcmd_served hs hp).trans ?_)
  dsimp only
  rw [hb]
  rfl

theorem execQueueDisable_served {r : Req} {slice : Nat} {s : State} (hs : s.served r (slicePage slice + 0x40) = true)
    (hp : s.pageWrite slice r = true) :
    exec (.queueDisable r slice) s = .next ((s.dropHeld r).qmove slice (s.slice slice).qsel
      ((s.queue slice (s.slice slice).qsel).state = .stopped) fun t =>
        ((t.disableQueue slice (s.slice slice).qsel).kidSettle).settleRstat slice) :=
  congrArg Host.Outcome.next (qcmd_served hs hp)

theorem open_iff (x : Queue) :
    x.open = true ↔ x.state = .enabled ∨ x.state = .error ∨ (x.state = .stopping ∧ x.squash = false) := by
  simp [Queue.open, or_assoc]

theorem not_open_iff (x : Queue) :
    x.open = false ↔ x.state = .disabled ∨ x.state = .stopped ∨ (x.state = .stopping ∧ x.squash = true) := by
  cases h : x.state <;> simp [Queue.open, h]

/-- Settles O18: `ENABLE` by what it refuses first, the others by their rows of the state table. -/
theorem queueEnableAndStates : Obligations.QueueEnableAndStates := by
  refine ⟨fun r slice s hs hp hr hn h8 h9 => ?_, fun r slice s => execQueueEnable_accepts,
    fun r slice n s => execQueueEnable_refuses, fun r slice s => execQueueEnable_resetting,
    fun r slice s hs hp hr h => ?_, fun r slice s hs hp h => ?_, fun r slice s hs hp hr h => ?_, fun r slice s hs hp h => ?_,
    fun r slice s hs hp hd hr h hb => ?_, fun r slice s hs hp hd h => ?_, fun r slice s hs hp hr h => ?_,
    fun r slice s hs hp h => ?_, fun r slice s hs hp h => ?_, fun r slice s hs hp h => ?_, fun r slice s hs hp h => ?_⟩
  · rw [execQueueEnable_accepts hs hp hr hn, ringUsers_host (x := enabledQueue s r slice (s.slice slice).qsel) h8 h9]
    rfl
  · rw [execStopDrain_served hs hp, qmove_row (s := s.dropHeld r) hr (decide_eq_true h)]
  · rw [execStopDrain_served hs hp, qmove_no_row (s := s.dropHeld r) (decide_eq_false h)]
  · rw [execStopSquash_served hs hp rfl, qmove_row (s := s.dropHeld r) hr ((open_iff _).mpr h)]
  · rw [execStopSquash_served hs hp rfl, qmove_no_row (s := s.dropHeld r) ((not_open_iff _).mpr h)]
  · rw [execQueueResume_served hs hp hd, qmove_row (s := s.dropHeld r) hr]
    rcases hb with hb | hb <;> simp [h, hb]
  · rw [execQueueResume_served hs hp hd, qmove_no_row (s := s.dropHeld r)]
    rcases h with h | ⟨hb, hq⟩
    · simp [h]
    · simp [hb, hq]
  · rw [execQueueDisable_served hs hp, qmove_row (s := s.dropHeld r) hr (decide_eq_true h)]
  · rw [execQueueDisable_served hs hp, qmove_no_row (s := s.dropHeld r) (decide_eq_false h)]
  · rw [execStopDrain_served hs hp, qmove_resetting (s := s.dropHeld r) h]
  · rw [execStopSquash_served hs hp rfl, qmove_resetting (s := s.dropHeld r) h]
  · rw [execQueueDisable_served hs hp, qmove_resetting (s := s.dropHeld r) h]

/-! ## The level (R106) -/

/-- With level 0 no queue can be enabled. -/
theorem queueRefusal_of_level_zero {s : State} {i q : Nat} {r : Req} (h : (s.slice i).level = 0) :
    s.queueRefusal i q r ≠ 0 := by
  simp only [State.queueRefusal, h, if_true]
  split_ifs <;> decide

/-- A refusal is reported in its queue, and moves no queue of the slice. -/
theorem qrefuse_refuse (s : State) (i q n : Nat) : ((s.qrefuse i q n).queue i q).refuse = n := by
  rw [State.qrefuse, State.modQueue, queue_setQueue_same]

theorem qrefuse_state (s : State) (i q n k : Nat) : ((s.qrefuse i q n).queue i k).state = (s.queue i k).state := by
  simp only [State.qrefuse, State.modQueue, State.setQueue, State.modSlice, State.queue, slice_setSlice_same, Tbl.get_set]
  split
  · next h => subst h; rfl
  · rfl

/-- Under level 0 a served `ENABLE` is refused with a reason. -/
theorem execQueueEnable_level_zero {r : Req} {slice : Nat} {s : State} (hs : s.served r (slicePage slice + 0x40) = true)
    (hp : s.pageWrite slice r = true) (hl : (s.slice slice).level = 0) :
    ∃ n, n ≠ 0 ∧ exec (.queueEnable r slice) s = .next ((s.dropHeld r).qrefuse slice (s.slice slice).qsel n) := by
  by_cases hr : (s.slice slice).state = .resetting
  · exact ⟨1, by decide, execQueueEnable_resetting hs hp hr⟩
  · obtain ⟨n, hn⟩ := Nat.exists_eq_succ_of_ne_zero (queueRefusal_of_level_zero (q := (s.slice slice).qsel) (r := r) hl)
    exact ⟨n + 1, n.succ_ne_zero, execQueueEnable_refuses hs hp hr hn⟩

/-- Settles O53: the write by its two cases, `ENABLE` by the refusal that level 0 makes certain. -/
theorem levelOfASlice : Obligations.LevelOfASlice := by
  refine ⟨fun i => rfl, fun r slice v s hs hp hq => ⟨_, execQmSlLevelWrite_idle hs hp hq, ?_, fun j hj => ?_, rfl, rfl, rfl,
    rfl, rfl⟩, fun r slice v s => execQmSlLevelWrite_frozen, fun r slice s hs hp hl => ?_⟩
  · rw [State.modSlice, slice_setSlice_same, dropHeld_slice]
    by_cases h : bits v.toNat 3 0 = 0
    · rw [if_pos h, if_neg (by omega)]
    · rw [if_neg h, if_pos (by omega)]
  · rw [State.modSlice, slice_setSlice_other _ _ hj, dropHeld_slice]
  · obtain ⟨n, hn, he⟩ := execQueueEnable_level_zero hs hp hl
    exact ⟨_, n, he, hn, qrefuse_refuse _ _ _ n, fun q => qrefuse_state _ _ _ n q, rfl, rfl⟩

end Sys2Proof.Proofs

/-! Doorbells, fetch, start and abort (R77, R78, R84, R87, R95 to R97). -/

namespace Sys2Proof.Proofs
open Sys2Proof Sys2Proof.Machine

/-! ## Doorbells (R77, R78) -/

/-- A served doorbell acts on the queue whose granule it lies in. -/
theorem dbWrite_served {s : State} {r : Req} {queue off i q : Nat} {f : Nat → Nat → State → State}
    (hd : s.doorbell queue = some (i, q)) (hs : s.served r (0x1000000 + queue * 0x40 + off) = true)
    (hp : s.pageWrite i r = true) : s.dbWrite r queue off f = f i q (s.dropHeld r) := by
  rw [State.dbWrite, hd]
  exact regWrite_served hs hp

/-- A served TAIL leaves a `DISABLED` queue as it is, and is stored and judged in any other. -/
theorem execQmDbTailWrite_served {r : Req} {queue i q : Nat} {v : BitVec 32} {s : State}
    (hd : s.doorbell queue = some (i, q)) (hs : s.served r (0x1000000 + queue * 0x40 + 0) = true)
    (hp : s.pageWrite i r = true) {x : Queue}
    (hx : (if (s.queue i q).state = .disabled then s.queue i q else Queue.judgeTail { s.queue i q with tail := v }) = x) :
    exec (.qmDbTailWrite r queue v) s = .next ((s.dropHeld r).setQueue i q x) := by
  subst hx
  exact congrArg Host.Outcome.next (dbWrite_served hd hs hp)

/-- A served completion head is stored where the completion ring reaches back to it. -/
theorem execQmDbCplHeadWrite_served {r : Req} {queue i q : Nat} {v : BitVec 32} {s : State}
    (hd : s.doorbell queue = some (i, q)) (hs : s.served r (0x1000000 + queue * 0x40 + 0x10) = true)
    (hp : s.pageWrite i r = true) {x : Queue}
    (hx : (if ((s.queue i q).cplTail - v).toNat ≤ (s.queue i q).cplEntries then { s.queue i q with cplHead := v }
      else s.queue i q) = x) :
    exec (.qmDbCplHeadWrite r queue v) s = .next ((s.dropHeld r).setQueue i q x) := by
  subst hx
  exact congrArg Host.Outcome.next (dbWrite_served hd hs hp)

/-- The tail of a queue that is not `ENABLED` is not judged. -/
theorem judgeTail_not_enabled {x : Queue} (h : x.state ≠ .enabled) : x.judgeTail = x :=
  if_neg (by simp [h])

theorem judgeTail_near {x : Queue} (h : (x.tail - x.head).toNat ≤ x.entries) : x.judgeTail = x := by
  have hb : x.tailBad = false := decide_eq_false (Nat.not_lt.mpr h)
  exact if_neg (by simp [hb])

theorem judgeTail_far {x : Queue} (he : x.state = .enabled) (h : x.entries < (x.tail - x.head).toNat) :
    x.judgeTail = { x with state := .error, cause := 1 } := by
  have hb : x.tailBad = true := decide_eq_true h
  exact if_pos (by simp [he, hb])

/-- A queue past its commands, or whose stop is a squash, does not fetch. -/
theorem not_fetches {x : Queue}
    (h : x.state = .error ∨ x.state = .stopped ∨ x.state = .disabled ∨ (x.state = .stopping ∧ x.squash = true)) :
    x.fetches = false := by
  rcases h with h | h | h | ⟨h, hq⟩ <;> simp [Queue.fetches, *]

/-- Settles O19, from the judgement of the tail. -/
theorem doorbellTailAndHead : Obligations.DoorbellTailAndHead := by
  refine ⟨fun r queue v i q s hd hs hp h1 h2 => ?_, fun r queue v i q s hd hs hp he hv => ?_,
    fun r queue v i q s hd hs hp he hv => ?_, fun r queue v i q s hd hs hp h1 => ?_, fun r queue v i q s hd hs hp hv => ?_,
    fun r queue v i q s hd hs hp hv => ?_, fun x => not_fetches⟩
  · exact execQmDbTailWrite_served hd hs hp ((if_neg h1).trans (judgeTail_not_enabled h2))
  · exact execQmDbTailWrite_served hd hs hp ((if_neg (by simp [he])).trans (judgeTail_near hv))
  · exact execQmDbTailWrite_served hd hs hp ((if_neg (by simp [he])).trans (judgeTail_far he hv))
  · exact execQmDbTailWrite_served hd hs hp (if_pos h1)
  · exact execQmDbCplHeadWrite_served hd hs hp (if_pos hv)
  · exact execQmDbCplHeadWrite_served hd hs hp (if_neg (Nat.not_le.mpr hv))

/-! ## Fetch (R84, R87) -/

/-- A queue fetches while its slice is neither fenced nor zeroed, CCLK runs, and the slice may reach a ring of the host. -/
theorem fetchGuard_passed {s : State} {i : Nat} {f h : Bool} (hf : f = true) (hz : (s.fenced || s.ctxZeroed i) = false)
    (hc : s.clkRuns .cclk = true) (hh : h = false) :
    (!f || s.fenced || s.ctxZeroed i || !s.clkRuns .cclk || h) = false := by
  rw [Bool.or_eq_false_iff] at hz
  rw [hf, hz.1, hz.2, hc, hh]
  rfl

/-- The words that a fetch reads become the command of the next sequence number. -/
theorem execCommandFetch_reads {slice queue : Nat} {w : Option (List (BitVec 64))} {l : List (BitVec 64)} {s u : State}
    (hf : (s.queue slice queue).fetches = true) (hz : (s.fenced || s.ctxZeroed slice) = false)
    (hc : s.clkRuns .cclk = true)
    (hh : ((!(s.queue slice queue).ringObj || (s.obj slice (hIndex (fld (s.queue slice queue).ring 63 32))).kind = 2) &&
      !s.hostMay slice) = false)
    (hn : (s.queue slice queue).nextSeq < 2 ^ 48 - 1)
    (hw : s.ringWords slice (s.queue slice queue) w = (some l, u)) :
    exec (.commandFetch slice queue w) s = .next (((u.progress unQm).modQueue slice queue fun x => { x with
      cmds := x.cmds ++ [{ seq := (s.queue slice queue).nextSeq, words := (List.range 8).map fun k => l.getD k 0
                           fetchedAt := u.sys.now }]
      head := x.head + 1, nextSeq := x.nextSeq + 1 }).advance slice queue) := by
  change execCommandFetch slice queue w s = _
  unfold execCommandFetch
  simp only [fetchGuard_passed hf hz hc hh, hw, Bool.false_eq_true, if_false,
    if_neg (show ¬ 2 ^ 48 ≤ (s.queue slice queue).nextSeq by omega),
    if_neg (show ¬ (s.queue slice queue).nextSeq = 2 ^ 48 - 1 by omega)]
  rfl

/-- A fetch that reads no words is a fault of its queue. -/
theorem execCommandFetch_faults {slice queue : Nat} {w : Option (List (BitVec 64))} {s u : State}
    (hf : (s.queue slice queue).fetches = true) (hz : (s.fenced || s.ctxZeroed slice) = false)
    (hc : s.clkRuns .cclk = true)
    (hh : ((!(s.queue slice queue).ringObj || (s.obj slice (hIndex (fld (s.queue slice queue).ring 63 32))).kind = 2) &&
      !s.hostMay slice) = false)
    (hn : (s.queue slice queue).nextSeq < 2 ^ 48) (hw : s.ringWords slice (s.queue slice queue) w = (none, u)) :
    exec (.commandFetch slice queue w) s = .next (u.modQueue slice queue fun x => x.faulted 2) := by
  change execCommandFetch slice queue w s = _
  unfold execCommandFetch
  simp only [fetchGuard_passed hf hz hc hh, hw, Bool.false_eq_true, if_false,
    if_neg (show ¬ 2 ^ 48 ≤ (s.queue slice queue).nextSeq by omega)]

theorem execCommandFetch_idle {slice queue : Nat} {w : Option (List (BitVec 64))} {s : State}
    (hf : (s.queue slice queue).fetches = false) : exec (.commandFetch slice queue w) s = .next s :=
  congrArg Host.Outcome.next (if_pos (by simp [hf]))

/-! ## Start (R84) -/

/-- What the head advance leaves startable starts, unless its queue is outranked. -/
theorem execCommandStart_eq {slice queue : Nat} {s u : State} (hu : s.advance slice queue = u) :
    exec (.commandStart slice queue) s = .next (match u.startable slice queue with
      | none => u
      | some c => if u.outranked slice queue = true then u
        else ((u.rrMove slice queue).startCmd slice queue c).advance slice queue) := by
  subst hu
  rfl

/-! ## Abort (R95 to R97) -/

/-- A served abort that is not accepted only reports its result. -/
theorem execQmAbort_reports {r : Req} {slice : Nat} {v : BitVec 32} {s : State} (hs : s.served r (slicePage slice + 0x58) = true)
    (hp : s.pageWrite slice r = true) (hn : s.abortResult slice (bits v.toNat 17 0) (s.slice slice).abortSeq ≠ 2) :
    exec (.qmAbort r slice v) s = .next ((s.dropHeld r).modSlice slice fun l =>
      { l with abortStat := s.abortResult slice (bits v.toNat 17 0) (s.slice slice).abortSeq }) := by
  refine congrArg Host.Outcome.next ((regWrite_served hs hp).trans ?_)
  dsimp only
  split
  · next he _ => exact absurd he hn
  · rfl

/-- An accepted abort ends its command. -/
theorem execQmAbort_accepted {r : Req} {slice : Nat} {v : BitVec 32} {c : Cmd} {s u : State}
    (hs : s.served r (slicePage slice + 0x58) = true) (hp : s.pageWrite slice r = true)
    (hn : s.abortResult slice (bits v.toNat 17 0) (s.slice slice).abortSeq = 2)
    (hu : (s.dropHeld r).modSlice slice (fun l => { l with abortStat := 2 }) = u)
    (hc : u.cmd? slice (bits v.toNat 17 0) (s.slice slice).abortSeq = some c) :
    exec (.qmAbort r slice v) s = .next
      (((u.stopCmd slice (bits v.toNat 17 0) c 1 dtByAbort).settleSync).advance slice (bits v.toNat 17 0)) := by
  refine congrArg Host.Outcome.next ((regWrite_served hs hp).trans ?_)
  dsimp only
  rw [show (s.dropHeld r).abortResult slice (bits v.toNat 17 0) ((s.dropHeld r).slice slice).abortSeq = 2 from hn, hu,
    dropHeld_slice, hc]
  rfl

theorem abortResult_unknown {s : State} {i q seq : Nat}
    (h : seq = 0 ∨ (s.queue i q).nextSeq ≤ seq ∨ (s.queue i q).state = .disabled) : s.abortResult i q seq = 4 :=
  if_pos (by simpa [or_assoc] using h)

theorem abortResult_late {s : State} {i q seq : Nat} (h0 : seq ≠ 0) (hn : seq < (s.queue i q).nextSeq)
    (hd : (s.queue i q).state ≠ .disabled) (hc : s.cmd? i q seq = none) : s.abortResult i q seq = 3 := by
  refine (if_neg (by simp [h0, hd, hn])).trans ?_
  rw [hc]

/-- Settles O20, from the fetch, start and abort of a queue's commands. -/
theorem fetchStartAbort : Obligations.FetchStartAbort := by
  refine ⟨fun slice queue w l u s hf hz hc hh hn hw => ⟨_, execCommandFetch_reads hf hz hc hh hn hw, rfl⟩,
    fun slice queue w u s => execCommandFetch_faults, fun slice queue w s => execCommandFetch_idle,
    fun slice queue c s hc ho => ?_, fun slice queue c s hc ho => ?_, fun slice queue s hc => ?_,
    fun r slice v c s hs hp hn hc => execQmAbort_accepted hs hp hn rfl hc, fun r slice v s => execQmAbort_reports,
    fun i q seq s => abortResult_unknown, fun i q seq s => abortResult_late⟩
  · simp only [execCommandStart_eq rfl, hc, ho, Bool.false_eq_true, if_false]
  · simp only [execCommandStart_eq rfl, hc, ho, if_true]
  · simp only [execCommandStart_eq rfl, hc]

end Sys2Proof.Proofs

/-! The commit of a command (R79, R88, R323), and the fence that waits for it (R459). -/

namespace Sys2Proof.Proofs
open Sys2Proof Sys2Proof.Machine

/-! ## What the commit waits for -/

theorem tryCommit_empty {s : State} {slice queue : Nat} (h : (s.queue slice queue).cmds = []) :
    s.tryCommit slice queue = s := by
  rw [State.tryCommit]
  dsimp only
  rw [h]

/-- While the first command works, the completion ring is full or the contexts are zeroed, nothing is committed. -/
theorem tryCommit_waits {s : State} {slice queue : Nat} {c : Cmd} {rest : List Cmd}
    (hq : (s.queue slice queue).cmds = c :: rest)
    (h : c.stage ≠ .finished ∨ (s.queue slice queue).cplRoom = false ∨ s.ctxZeroed slice = true) :
    s.tryCommit slice queue = s := by
  rw [State.tryCommit]
  dsimp only
  rw [hq]
  refine if_pos ?_
  rcases h with h | h | h <;> simp [h]

/-- The guard of a commit that has nothing to wait for. -/
theorem commitGuard_passed {s : State} {slice : Nat} {x : Queue} {c : Cmd} (hf : c.stage = .finished) (hr : x.cplRoom = true)
    (hz : s.ctxZeroed slice = false) : ¬ (decide (c.stage ≠ .finished) || !x.cplRoom || s.ctxZeroed slice) = true := by
  simp [hf, hr, hz]

/-! ## The statistics block and the record -/

/-- A `PLAN_RUN` waits while its statistics block cannot be written. -/
theorem tryCommit_run_waits {s s₁ : State} {slice queue : Nat} {c : Cmd} {rest : List Cmd}
    (hq : (s.queue slice queue).cmds = c :: rest) (hf : c.stage = .finished) (hr : (s.queue slice queue).cplRoom = true)
    (hz : s.ctxZeroed slice = false) (hc : c.opcode = 0x31) (hw : s.commitRun slice queue c = (none, s₁)) :
    s.tryCommit slice queue = s₁ := by
  rw [State.tryCommit]
  dsimp only
  rw [hq]
  refine (if_neg (commitGuard_passed hf hr hz)).trans ?_
  rw [if_pos hc, hw]

/-- Past the statistics block, the write of the record decides. -/
theorem tryCommit_writes {s s₀ s₁ u : State} {slice queue : Nat} {c d : Cmd} {rest : List Cmd} {wait fault : Bool}
    (hq : (s.queue slice queue).cmds = c :: rest) (hf : c.stage = .finished) (hr : (s.queue slice queue).cplRoom = true)
    (hz : s.ctxZeroed slice = false)
    (hs : (if c.opcode = 0x31 then s.commitRun slice queue c else (some s, s)) = (some s₀, u))
    (hd : s₀.cmd? slice queue c.seq = some d)
    (hw : s₀.cplWrite slice (s.queue slice queue) ((s₀.commitForm d).record (s.queue slice queue).ctxnum s₀.now) =
      (wait, fault, s₁)) :
    s.tryCommit slice queue =
      if wait = true then s₁
      else (if fault = true then s₁.modQueue slice queue fun x => { x.faulted 3 with xlatBad := 0 }
        else s₁.emit (.record slice queue ((s₀.commitForm d).record (s.queue slice queue).ctxnum s₀.now))).committed
          slice queue (s₀.commitForm d) := by
  rw [State.tryCommit]
  dsimp only
  rw [hq]
  refine (if_neg (commitGuard_passed hf hr hz)).trans ?_
  rw [hs]
  dsimp only
  rw [hd]
  dsimp only
  rw [hw]
  cases wait
  · rw [if_neg Bool.false_ne_true]
  · rw [if_pos rfl]

/-- A commit that leaves a given state lets the slots and a fence that wait go on. -/
theorem execCommandCommit_of_tryCommit {s t : State} {slice queue : Nat} (h : s.tryCommit slice queue = t) :
    exec (.commandCommit slice queue) s = .next t.wakeSlots.fenceAdvance := by
  subst h
  rfl

theorem fenceAdvance_not_fencing {s : State} (h : s.rst.phase ≠ .fencing) : s.fenceAdvance = s :=
  if_pos h

/-- Settles O21, from what each outcome of the record's write leaves. -/
theorem commandsCommitInOrder : Obligations.CommandsCommitInOrder := by
  refine ⟨fun slice queue c d rest u s₀ s₁ s hq hf hr hz hs hd hw => execCommandCommit_of_tryCommit ?_,
    fun slice queue c d rest u s₀ s₁ f s hq hf hr hz hs hd hw => execCommandCommit_of_tryCommit ?_,
    fun slice queue c d rest u s₀ s₁ s hq hf hr hz hs hd hw => execCommandCommit_of_tryCommit ?_,
    fun slice queue c rest s₁ s hq hf hr hz hc hw => execCommandCommit_of_tryCommit (tryCommit_run_waits hq hf hr hz hc hw),
    fun slice queue c rest s hq h => execCommandCommit_of_tryCommit (tryCommit_waits hq h),
    fun slice queue s hq => execCommandCommit_of_tryCommit (tryCommit_empty hq), fun s => fenceAdvance_not_fencing⟩
  · rw [tryCommit_writes hq hf hr hz hs hd hw, if_neg Bool.false_ne_true, if_neg Bool.false_ne_true]
  · rw [tryCommit_writes hq hf hr hz hs hd hw, if_pos rfl]
  · rw [tryCommit_writes hq hf hr hz hs hd hw, if_neg Bool.false_ne_true, if_pos rfl]

end Sys2Proof.Proofs

/-! The object commands in their units, and the lookup of a handle (R91 to R93, R362, R363, R488). -/

namespace Sys2Proof.Proofs
open Sys2Proof Sys2Proof.Machine

/-! ## Commands that end (R84, R357) -/

/-- What a command's unit does for a command at work in it. -/
theorem next_unit_works {s : State} {i q seq op : Nat} {c : Cmd} {f : Cmd → State → State}
    (h : s.works i q seq op c = true) : (.next (s.unit i q seq op f) : Res) = .next (f c s) :=
  congrArg _ (unit_works h)

theorem endWith_ok {s : State} {i q seq : Nat} {r : Chk} {f : State → State} {result : BitVec 64} (h : r.1 = 0) :
    s.endWith i q seq r f result = (f s).endCmd i q seq 0 result :=
  if_neg (not_not.mpr h)

theorem endWith_fails {s : State} {i q seq : Nat} {r : Chk} {f : State → State} {result : BitVec 64} (h : r.1 ≠ 0) :
    s.endWith i q seq r f result = s.failCmd i q seq r.1 r.2 0 :=
  if_pos h

@[simp] theorem endCmd_obj (s : State) (i q seq d : Nat) (r : BitVec 64) (j e : Nat) :
    (s.endCmd i q seq d r).obj j e = s.obj j e :=
  obj_modCmd s i q seq j e _

/-- The work of a command outside its queue's commands leaves what its end finds. -/
theorem endCmd_after {s t : State} {i q seq op : Nat} {c : Cmd} (h : s.works i q seq op c = true)
    (ht : t.cmd? i q seq = s.cmd? i q seq) (d : Nat) (r : BitVec 64) :
    (t.endCmd i q seq d r).cmd? i q seq = some (c.finishOk d r) := by
  obtain ⟨hc, hr⟩ := works_cmd h
  exact endCmd_cmd (ht.trans hc) hr d r

/-! ## `OBJ_DEFINE` (R91, R363) -/

/-- The entry that `OBJ_DEFINE` writes under a generation. -/
def definedObj (c : Cmd) (gen : Nat) : ObjEntry :=
  { state := .valid, gen, kind := c.f 1 49 48, base := c.f 1 47 0, size := c.f 2 39 0, kid := c.f 2 51 40
    rd := bit (c.f 1 52 50) 0, wr := bit (c.f 1 52 50) 1, at_ := bit (c.f 1 52 50) 2 }

theorem execObjDefine_free {i q seq e : Nat} {c : Cmd} {s : State} (h : s.works i q seq 0x01 c = true)
    (he : s.freeObjEntry i = some e) :
    exec (.objDefine i q seq) s = .next ((s.setObj i e (definedObj c (s.obj i e).gen)).endCmd i q seq 0
      (BitVec.ofNat 64 (mkHandle e (s.obj i e).gen))) := by
  refine (next_unit_works h).trans ?_
  rw [he]
  rfl

theorem execObjDefine_full {i q seq : Nat} {c : Cmd} {s : State} (h : s.works i q seq 0x01 c = true)
    (he : s.freeObjEntry i = none) :
    exec (.objDefine i q seq) s = .next (s.failCmd i q seq stNoObjSlot dtNone 0) := by
  refine (next_unit_works h).trans ?_
  rw [he]

/-! ## `PHASE_HINT` (R488) -/

/-- The hints once a slot has given one. -/
def hinted (s : State) (k hint : Nat) : State :=
  { s with pwr := { s.pwr with hints := (k, hint, s.sys.now + 100 * 1000000) :: s.pwr.hints.filter fun h => h.1 ≠ k } }

theorem execPhaseHint_ok {i q seq : Nat} {c : Cmd} {s : State} (h : s.works i q seq 0x70 c = true) (hc : c.f 1 1 0 ≠ 3) :
    exec (.phaseHint i q seq) s =
      .next ((hinted s ((s.domainOf i).getD 64) (c.f 1 1 0)).endCmd i q seq 0) := by
  refine (next_unit_works h).trans (congrArg Host.Outcome.next (endWith_ok ?_))
  simp [chkPhaseHint, chkIf, chkOk, hc]

theorem execPhaseHint_bad {i q seq : Nat} {c : Cmd} {s : State} (h : s.works i q seq 0x70 c = true) (hc : c.f 1 1 0 = 3) :
    exec (.phaseHint i q seq) s = .next (s.failCmd i q seq stBadOperand dtNone 0) := by
  have hk : chkPhaseHint c = (stBadOperand, dtNone) := by simp [chkPhaseHint, chkIf, hc]
  refine (next_unit_works h).trans (congrArg Host.Outcome.next ?_)
  rw [hk]
  exact endWith_fails (by decide)

/-- Settles O22, from how each command ends in its unit. -/
theorem objectCommands : Obligations.ObjectCommands := by
  refine ⟨fun i q seq c e s h he => ⟨_, execObjDefine_free h he, ?_, endCmd_after h (cmd_setObj ..) _ _⟩,
    fun i q seq c s => execObjDefine_full, fun i q seq c d s h hk => ?_, fun i q seq c s h hk => ?_,
    fun i q seq c s h => ⟨_, next_unit_works h, endCmd_after h rfl _ _⟩,
    fun i q seq c s h => ⟨_, next_unit_works h, endCmd_after h rfl _ _⟩,
    fun i q seq c s h hc => ⟨_, execPhaseHint_ok h hc, rfl, endCmd_after h rfl _ _⟩,
    fun i q seq c s => execPhaseHint_bad, fun i q seq op f s => unit_idle,
    fun i q seq st dt d c s hc hr => failCmd_cmd hc hr st dt d⟩
  · rw [endCmd_obj, obj_setObj_same]
    rfl
  · exact (next_unit_works h).trans (congrArg Host.Outcome.next (endWith_ok (by rw [hk])))
  · exact (next_unit_works h).trans (congrArg Host.Outcome.next (endWith_fails hk))

/-! ## Handles (R92) -/

theorem lookup_out_of_table {s : State} {i h off len : Nat} {rd wr at_ : Bool}
    (hg : hGen h = 0 ∨ (s.slice i).otSize ≤ hIndex h) : s.lookup i h off len rd wr at_ = stObjInvalid :=
  if_pos (by simpa using hg)

/-- Past the first two rules the generations are compared, and then the entry decides. -/
theorem lookup_in_table {s : State} {i h off len : Nat} {rd wr at_ : Bool} {e : ObjEntry} (h0 : hGen h ≠ 0)
    (hi : hIndex h < (s.slice i).otSize) (he : s.obj i (hIndex h) = e) :
    s.lookup i h off len rd wr at_ =
      if hGen h < e.gen then stObjRevoked
      else if e.gen < hGen h then stObjInvalid
      else match e.state with
        | .free => stObjInvalid
        | .revoked => stObjRevoked
        | .spent => stObjRevoked
        | .valid =>
          if e.size < off + len then stObjRange
          else if (rd && !e.rd) || (wr && !e.wr) || (at_ && !e.at_) then stObjRights
          else 0 := by
  subst he
  exact if_neg (by simp [h0, hi])

/-- Settles O51: the rules in their order, those of the entry under equal generations. -/
theorem handleLookup : Obligations.HandleLookup := by
  refine ⟨fun s i h off len rd wr at_ => lookup_out_of_table, fun s i h off len rd wr at_ h0 hi =>
    ⟨fun hg => ?_, fun hg => ?_, fun hg => ?_⟩⟩
  all_goals rw [lookup_in_table h0 hi rfl]
  · exact if_pos hg
  · exact (if_neg hg.asymm).trans (if_pos hg)
  · rw [if_neg (by omega), if_neg (by omega)]
    refine ⟨fun hf => by rw [hf], fun hr => ?_, fun hv => ?_⟩
    · rcases hr with hr | hr <;> rw [hr]
    · rw [hv]
      refine ⟨fun hl => if_pos hl, fun hl => ⟨fun hb => ?_, fun hrd hwr hat => ?_⟩⟩
      · refine (if_neg (Nat.not_lt.mpr hl)).trans (if_pos ?_)
        simpa [or_assoc] using hb
      · refine (if_neg (Nat.not_lt.mpr hl)).trans (if_neg ?_)
        simpa [or_imp, not_or] using ⟨⟨hrd, hwr⟩, hat⟩

end Sys2Proof.Proofs

/-! The state right after reset (R134, R207, R239, R348, R407, R421, R439, R452, R469; logs 4, 5 and 7). -/

namespace Sys2Proof.Proofs
open Sys2Proof Sys2Proof.Machine

/-! ## Every table is empty, so that each of its entries reads the default of its structure -/

@[simp] theorem reset_slot (i : Nat) : State.reset.slot i = {} := Tbl.get_empty ..
@[simp] theorem reset_kid (i : Nat) : State.reset.kid i = {} := Tbl.get_empty ..
@[simp] theorem reset_slice (i : Nat) : State.reset.slice i = {} := Tbl.get_empty ..
@[simp] theorem reset_rgn (i : Nat) : State.reset.rgn i = {} := Tbl.get_empty ..
@[simp] theorem reset_hrg (i : Nat) : State.reset.hrg i = {} := Tbl.get_empty ..
@[simp] theorem reset_link (i : Nat) : State.reset.link i = {} := Tbl.get_empty ..
@[simp] theorem reset_port (i : Nat) : State.reset.port i = {} := Tbl.get_empty ..
@[simp] theorem reset_win (i : Nat) : State.reset.win i = {} := Tbl.get_empty ..
@[simp] theorem reset_syncObj (i : Nat) : State.reset.syncObj i = {} := Tbl.get_empty ..
@[simp] theorem reset_site (i : Nat) : State.reset.site i = {} := Tbl.get_empty ..
@[simp] theorem reset_cePage (i : Nat) : State.reset.cePage i = {} := Tbl.get_empty ..
@[simp] theorem reset_watch (i : Nat) : State.reset.watch i = {} := Tbl.get_empty ..
@[simp] theorem reset_plan (i : Nat) : State.reset.plan i = {} := Tbl.get_empty ..
@[simp] theorem reset_queue (i q : Nat) : State.reset.queue i q = {} := by simp [State.queue]
@[simp] theorem reset_obj (i e : Nat) : State.reset.obj i e = {} := by simp [State.obj]

/-! ## The invariants of the model hold at reset -/

/-- Every state word is clear (R471). -/
theorem reset_otpWhole : State.reset.otpWhole :=
  ⟨rfl, rfl, fun _ h => .inl (List.eq_of_mem_replicate (n := 4) h)⟩

/-- No stored memory lists a line. -/
theorem reset_memWf : State.reset.memWf = true := by
  simp only [State.memWf, Bool.and_eq_true]
  exact ⟨⟨⟨Tbl.wf_empty _, Tbl.wf_empty _⟩, Tbl.wf_empty _⟩, Tbl.wf_empty _⟩

/-- Settles O3: the reset state has every field at its default, the invariants included. -/
theorem resetLeavesTheStatedValues : Obligations.ResetLeavesTheStatedValues := by
  refine ⟨by decide, fun i => ?_, by decide, reset_otpWhole, reset_memWf⟩
  simp

end Sys2Proof.Proofs

/-! The key commands, and the sweeps of regions and hearth ranges (R113, R120, R122, R156, R167 to R171, R186, R206, R375,
R376). The details of the failures (log 51) and the turns of the background jobs (log 45) are the model's choice. -/

namespace Sys2Proof.Proofs
open Sys2Proof Sys2Proof.Machine

/-! ## `KID_BIND` and `KID_RETIRE` (R113, R120, R122, R376) -/

/-- The rules of a binding in their order. -/
theorem chkKidBind_eq (i : Nat) (s : State) : s.chkKidBind i =
    if s.slotBinds (s.domainOf i) = false then (stDomState, dtNone) else if s.freeKid = none then (stKidNone, dtNone)
    else if s.fbx.trngFailed = true then (stNoEntropy, dtNone) else (0, 0) := by
  unfold State.chkKidBind
  cases s.slotBinds (s.domainOf i)
  · rfl
  cases s.freeKid
  · rfl
  cases s.fbx.trngFailed <;> rfl

/-- A binding is judged after the use of the domain secret. -/
theorem execKidBind_works {i q seq : Nat} {c : Cmd} {s u : State} (h : s.works i q seq 0x60 c = true)
    (hu : u = s.useCell (.prkDom ((s.domainOf i).getD 0))) :
    exec (.kidBind i q seq) s = .next (u.endWith i q seq (u.chkKidBind i)
      (fun s => s.bindKid (u.freeKid.getD 0) (u.domainOf i)) (BitVec.ofNat 64 (u.freeKid.getD 0))) := by
  subst hu
  exact next_unit_works h

theorem execKidRetire_works {i q seq : Nat} {c : Cmd} {s : State} (h : s.works i q seq 0x61 c = true) :
    exec (.kidRetire i q seq) s = .next (s.endWith i q seq (s.chkKidRetire i c) fun s =>
      s.modKid (c.f 1 11 0) fun e => { e with state := .retiring }) :=
  next_unit_works h

/-- A KID retires that is `ACTIVE`, is not 0 and belongs to the slot of the slice; of any other the state is wrong. -/
theorem chkKidRetire_eq (s : State) (i : Nat) (c : Cmd) : s.chkKidRetire i c =
    if c.f 1 11 0 ≠ 0 ∧ (s.kid (c.f 1 11 0)).state = .active ∧ (s.kid (c.f 1 11 0)).dvalid = true ∧
      some (s.kid (c.f 1 11 0)).dslot = s.domainOf i then chkOk else (stKidState, dtNone) := by
  simp [State.chkKidRetire, chkIf, and_assoc]

@[simp] theorem kid_modKid_same (s : State) (k : Nat) (f : KidEntry → KidEntry) : (s.modKid k f).kid k = f (s.kid k) :=
  Tbl.get_set_same ..

@[simp] theorem endCmd_kid (s : State) (i q seq d : Nat) (r : BitVec 64) (k : Nat) :
    (s.endCmd i q seq d r).kid k = s.kid k := rfl

/-! ## Assignment and release of regions and hearth ranges (R167, R168, R186, R375) -/

/-- Every fault of a release has a status of its own kind. -/
theorem relStatus_ne_zero {n : Nat} (h : n ≠ 0) : relStatus n ≠ 0 := by
  unfold relStatus
  rw [if_neg h]
  split <;> decide

theorem execRgnAssign_works {i q seq : Nat} {c : Cmd} {s : State} (h : s.works i q seq 0x62 c = true) :
    exec (.rgnAssign i q seq) s = .next (s.endWith i q seq (s.chkRgnAssign i c)
      (fun s => s.assignRgn (s.freeRgn.getD 0) (rgnOf (c.w 1)))
      (BitVec.ofNat 64 (s.freeRgn.getD 0 + 64 * (rgnOf (c.w 1)).depth + 512 * (rgnOf (c.w 1)).pages))) :=
  next_unit_works h

theorem chkRgnAssign_full {s : State} (i : Nat) (c : Cmd) (h : s.freeRgn = none) :
    s.chkRgnAssign i c = (stNoRgn, dtNone) := by
  simp [State.chkRgnAssign, h]

theorem chkRgnAssign_free {s : State} (i : Nat) (c : Cmd) {n : Nat} (h : s.freeRgn = some n) :
    s.chkRgnAssign i c = (asgStatus (s.asgRgn (rgnOf (c.w 1)) (some (s.domainOf i))), dtNone) := by
  simp [State.chkRgnAssign, h]

theorem chkHrgAssign_full {s : State} (i : Nat) (c : Cmd) (h : s.freeHrg = none) :
    s.chkHrgAssign i c = (stNoRgn, dtNone) := by
  simp [State.chkHrgAssign, h]

theorem chkHrgAssign_free {s : State} (i : Nat) (c : Cmd) {n : Nat} (h : s.freeHrg = some n) :
    s.chkHrgAssign i c = (asgStatus (s.asgHrg (hrgOf (c.w 1)) (some (s.domainOf i))), dtNone) := by
  simp [State.chkHrgAssign, h]

/-- What a command of this group does whose end comes later: nothing once it has begun; otherwise it fails with the status
of its rules, or begins. -/
def beginOnce (s : State) (i q seq : Nat) (c : Cmd) (r : Chk) (begun : State) : State :=
  if c.rgn ≠ 0 then s else if r.1 ≠ 0 then s.failCmd i q seq r.1 r.2 0 else begun

section
variable {i q seq : Nat} {c : Cmd} {s begun : State} {r : Chk}

theorem beginOnce_begun (h : c.rgn ≠ 0) : beginOnce s i q seq c r begun = s := if_pos h

theorem beginOnce_fails (h : c.rgn = 0) {st dt : Nat} (hr : r = (st, dt)) (h0 : st ≠ 0) :
    beginOnce s i q seq c r begun = s.failCmd i q seq st dt 0 := by
  subst hr
  exact (if_neg (not_not.mpr h)).trans (if_pos h0)

theorem beginOnce_begins (h : c.rgn = 0) (hr : r.1 = 0) : beginOnce s i q seq c r begun = begun :=
  (if_neg (not_not.mpr h)).trans (if_neg (not_not.mpr hr))

theorem execRgnRelease_works (h : s.works i q seq 0x63 c = true) :
    exec (.rgnRelease i q seq) s = .next (beginOnce s i q seq c (s.chkRgnRelease i c)
      ((s.modCmd i q seq fun x => { x with rgn := c.f 1 5 0 + 1 }).releaseRgn (c.f 1 5 0) false)) :=
  next_unit_works h

theorem execHrgAssign_works (h : s.works i q seq 0x65 c = true) :
    exec (.hrgAssign i q seq) s = .next (beginOnce s i q seq c (s.chkHrgAssign i c)
      ((s.setHrg (s.freeHrg.getD 0) { hrgOf (c.w 1) with state := .initialising }).modCmd i q seq fun x =>
        { x with rgn := s.freeHrg.getD 0 + 1 })) :=
  next_unit_works h

theorem execHrgRelease_works (h : s.works i q seq 0x66 c = true) :
    exec (.hrgRelease i q seq) s = .next (beginOnce s i q seq c (s.chkHrgRelease i c)
      ((s.modCmd i q seq fun x => { x with rgn := c.f 1 3 0 + 1 }).releaseHrg (c.f 1 3 0) false)) :=
  next_unit_works h

end

/-! ## The sweep of a region (R170, R171) -/

/-- Both KIDs of a region are `ACTIVE`, so that its sweep goes on. -/
def sweepKeyed (u : State) (ri : Nat) : Prop :=
  (u.kid (u.rgn ri).kid).state = .active ∧ (u.kid (u.rgn ri).newKid).state = .active

/-- The command of a sweep with the progress of its region's watermark. -/
def sweepNoted (w : State) (i q seq ri : Nat) : State :=
  w.modCmd i q seq fun x => { x with progress := (w.rgn ri).watermark, done := 4096 * (w.rgn ri).watermark }

section
variable {f i q seq : Nat} {c : Cmd} {s u w : State}

theorem sweepRun_succ (hc : s.cmd? i q seq = some c) (hr : c.runs = true) (h0 : c.rgn ≠ 0)
    (hu : u = s.useRgn (c.rgn - 1)) :
    State.sweepRun i q seq (f + 1) s =
      if (u.kid (u.rgn (c.rgn - 1)).kid).state ≠ .active || (u.kid (u.rgn (c.rgn - 1)).newKid).state ≠ .active then
        u.failCmd i q seq stRgnKid dtNone (4096 * (u.rgn (c.rgn - 1)).watermark)
      else if !u.bgTurn clsReseal (cmdJob i q seq) then u
      else
        let w := (u.bgTaken clsReseal (cmdJob i q seq)).sweepPage (c.rgn - 1)
        if (u.rgn (c.rgn - 1)).pages ≤ (w.rgn (c.rgn - 1)).watermark then
          (((sweepNoted w i q seq (c.rgn - 1)).endSweep (c.rgn - 1)).endCmd i q seq
            (4096 * (u.rgn (c.rgn - 1)).pages)).runHbm.settleHbm
        else State.sweepRun i q seq f (sweepNoted w i q seq (c.rgn - 1)).runHbm.settleHbm := by
  subst hu
  rw [State.sweepRun, hc]
  exact if_neg (by simp [hr, h0])

theorem sweepRun_unkeyed (hc : s.cmd? i q seq = some c) (hr : c.runs = true) (h0 : c.rgn ≠ 0)
    (hu : u = s.useRgn (c.rgn - 1)) (hk : ¬ sweepKeyed u (c.rgn - 1)) :
    State.sweepRun i q seq (f + 1) s = u.failCmd i q seq stRgnKid dtNone (4096 * (u.rgn (c.rgn - 1)).watermark) := by
  rw [sweepRun_succ hc hr h0 hu, if_pos]
  simpa [sweepKeyed, imp_iff_not_or] using hk

theorem sweepRun_waits (hc : s.cmd? i q seq = some c) (hr : c.runs = true) (h0 : c.rgn ≠ 0)
    (hu : u = s.useRgn (c.rgn - 1)) (hk : sweepKeyed u (c.rgn - 1))
    (ht : u.bgTurn clsReseal (cmdJob i q seq) = false) : State.sweepRun i q seq (f + 1) s = u := by
  rw [sweepRun_succ hc hr h0 hu, if_neg (by simp [hk.1, hk.2]), if_pos (by simp [ht])]

/-- In its turn a sweep reseals a page, and then ends or goes on. -/
theorem sweepRun_turn (hc : s.cmd? i q seq = some c) (hr : c.runs = true) (h0 : c.rgn ≠ 0)
    (hu : u = s.useRgn (c.rgn - 1)) (hk : sweepKeyed u (c.rgn - 1))
    (ht : u.bgTurn clsReseal (cmdJob i q seq) = true)
    (hw : w = (u.bgTaken clsReseal (cmdJob i q seq)).sweepPage (c.rgn - 1)) :
    State.sweepRun i q seq (f + 1) s =
      if (u.rgn (c.rgn - 1)).pages ≤ (w.rgn (c.rgn - 1)).watermark then
        (((sweepNoted w i q seq (c.rgn - 1)).endSweep (c.rgn - 1)).endCmd i q seq
          (4096 * (u.rgn (c.rgn - 1)).pages)).runHbm.settleHbm
      else State.sweepRun i q seq f (sweepNoted w i q seq (c.rgn - 1)).runHbm.settleHbm := by
  subst hw
  rw [sweepRun_succ hc hr h0 hu, if_neg (by simp [hk.1, hk.2]), if_neg (by simp [ht])]

theorem sweepRun_last (hc : s.cmd? i q seq = some c) (hr : c.runs = true) (h0 : c.rgn ≠ 0)
    (hu : u = s.useRgn (c.rgn - 1)) (hk : sweepKeyed u (c.rgn - 1))
    (ht : u.bgTurn clsReseal (cmdJob i q seq) = true)
    (hw : w = (u.bgTaken clsReseal (cmdJob i q seq)).sweepPage (c.rgn - 1))
    (hl : (u.rgn (c.rgn - 1)).pages ≤ (w.rgn (c.rgn - 1)).watermark) :
    State.sweepRun i q seq (f + 1) s = (((sweepNoted w i q seq (c.rgn - 1)).endSweep (c.rgn - 1)).endCmd i q seq
      (4096 * (u.rgn (c.rgn - 1)).pages)).runHbm.settleHbm :=
  (sweepRun_turn hc hr h0 hu hk ht hw).trans (if_pos hl)

theorem execResealKey_works (h : s.works i q seq 0x64 c = true) :
    exec (.resealKey i q seq) s = .next (State.sweepRun i q seq ((s.rgn (c.rgn - 1)).pages + 1) s) :=
  next_unit_works h

/-- The first command that sweeps a region. -/
def sweepOf (s : State) (region : Nat) : Option (Nat × Nat × Cmd) :=
  s.allCmds.find? fun e => e.2.2.rgn = region + 1 && e.2.2.opcode = 0x64 && e.2.2.runs

theorem execRekeySweepPage_works {region : Nat} (hf : sweepOf s region = some (i, q, c))
    (h : s.works i q c.seq 0x64 c = true) :
    exec (.rekeySweepPage region) s = .next (State.sweepRun i q c.seq 1 s) := by
  change execRekeySweepPage region s = _
  unfold sweepOf at hf
  rw [execRekeySweepPage, hf]
  exact next_unit_works h

theorem execRekeySweepPage_idle {region : Nat} (hf : sweepOf s region = none) :
    exec (.rekeySweepPage region) s = .next s := by
  change execRekeySweepPage region s = _
  unfold sweepOf at hf
  rw [execRekeySweepPage, hf]

end

/-! ## The initialisation of a hearth range (R186, R206) -/

section
variable {n f : Nat} {s u : State}

theorem initRun_done (h : (s.hrg n).size ≤ (s.hrg n).initDone) : State.initRun n (f + 1) s = s.initEnd n :=
  if_pos h

theorem initRun_waits (h : (s.hrg n).initDone < (s.hrg n).size) (ht : s.bgTurn clsInit n = false) :
    State.initRun n (f + 1) s = s :=
  (if_neg (Nat.not_le.mpr h)).trans (if_pos (by simp [ht]))

theorem initRun_mib (h : (s.hrg n).initDone < (s.hrg n).size) (ht : s.bgTurn clsInit n = true) :
    State.initRun n (f + 1) s = State.initRun n f (s.initMib n) :=
  (if_neg (Nat.not_le.mpr h)).trans (if_neg (by simp [ht]))

/-- A range whose last MiB is zeroed in its turn ends its initialisation, however many steps more are left. -/
theorem initRun_last (h : (s.hrg n).initDone < (s.hrg n).size) (ht : s.bgTurn clsInit n = true)
    (hl : ((s.initMib n).hrg n).size ≤ ((s.initMib n).hrg n).initDone) :
    State.initRun n (f + 2) s = (s.initMib n).initEnd n :=
  (initRun_mib h ht).trans (initRun_done hl)

theorem execHearthInitDone_runs (hu : u = s.useCell (.kid (s.hrg n).kid)) (hi : (u.hrg n).state = .initialising)
    (hk : u.kidServes (u.hrg n).kid = true) (ha : u.kidAdmits (u.hrg n).kid = true) :
    exec (.hearthInitDone n) s = .next (State.initRun n ((u.hrg n).size + 1) u) := by
  subst hu
  exact congrArg Host.Outcome.next (if_neg (by simp [hi, hk, ha]))

/-- An initialisation that is over, or has stopped with its key, goes no further. -/
theorem execHearthInitDone_stopped (hu : u = s.useCell (.kid (s.hrg n).kid))
    (h : (u.hrg n).state ≠ .initialising ∨ u.kidServes (u.hrg n).kid = false ∨ u.kidAdmits (u.hrg n).kid = false) :
    exec (.hearthInitDone n) s = .next u := by
  subst hu
  refine congrArg Host.Outcome.next (if_pos ?_)
  simpa [or_assoc] using h

theorem execHearthInitDone_last (hu : u = s.useCell (.kid (s.hrg n).kid)) (hi : (u.hrg n).state = .initialising)
    (hk : u.kidServes (u.hrg n).kid = true) (ha : u.kidAdmits (u.hrg n).kid = true)
    (h : (u.hrg n).initDone < (u.hrg n).size) (ht : u.bgTurn clsInit n = true)
    (hl : ((u.initMib n).hrg n).size ≤ ((u.initMib n).hrg n).initDone) :
    exec (.hearthInitDone n) s = .next ((u.initMib n).initEnd n) := by
  obtain ⟨k, hz⟩ : ∃ k, (u.hrg n).size = k + 1 := Nat.exists_eq_succ_of_ne_zero (by omega)
  rw [execHearthInitDone_runs hu hi hk ha, hz, initRun_last h ht hl]

theorem initEnd_byReg (h : (s.hrg n).byReg = true) : s.initEnd n =
    (let u := s.setHrg n { s.hrg n with state := .active, byReg := false }; { u with hth := { u.hth with rres := 2 } }) :=
  if_pos h

theorem initEnd_byCmd (h : (s.hrg n).byReg = false) : s.initEnd n =
    (s.setHrg n { s.hrg n with state := .active, byReg := false }).endRgnCmds 0x65 n 0 (BitVec.ofNat 64 n) :=
  if_neg (by simp [h])

end

/-- Settles O31, from the rules of each command and from one page, or one MiB, of its work. -/
theorem keyCommandsAndSweeps : Obligations.KeyCommandsAndSweeps := by
  refine ⟨
    -- `KID_BIND`
    fun i q seq c d u s h hu hk => (execKidBind_works h hu).trans (congrArg _ (endWith_ok (by rw [hk]))),
    fun i q seq c st d u s h hu hk h0 => ?_, chkKidBind_eq,
    -- `KID_RETIRE`
    fun i q seq c s h h0 ha hv hd => ?_, fun i q seq c s h hb => ?_,
    -- `RGN_ASSIGN`
    fun i q seq c n s h hn ha => ?_, fun i q seq c n m s h hn ha h0 => ?_, fun i q seq c s h hn => ?_,
    -- `RGN_RELEASE`
    fun i q seq c s h hb hr => ?_, fun i q seq c n s h hb hr h0 => ?_,
    fun i q seq c s h hb => (execRgnRelease_works h).trans (congrArg _ (beginOnce_begun hb)),
    -- `HRG_ASSIGN`
    fun i q seq c n s h hb hn ha => ?_, fun i q seq c n m s h hb hn ha h0 => ?_, fun i q seq c s h hb hn => ?_,
    fun i q seq c s h hb => (execHrgAssign_works h).trans (congrArg _ (beginOnce_begun hb)),
    -- `HRG_RELEASE`
    fun i q seq c s h hb hr => ?_, fun i q seq c n s h hb hr h0 => ?_,
    fun i q seq c s h hb => (execHrgRelease_works h).trans (congrArg _ (beginOnce_begun hb)),
    -- `RESEAL_KEY` and `REKEY_SWEEP_PAGE`
    fun i q seq c s => execResealKey_works, fun region i q c s => execRekeySweepPage_works,
    fun region s => execRekeySweepPage_idle,
    fun i q seq c u w s h h0 hu ha hn ht hw hl => ?_, fun region i q c u w s h h0 hu ha hn ht hw hl hf => ?_,
    fun f i q seq c u w s hc hr h0 hu ha hn ht hw hl => sweepRun_last hc hr h0 hu ⟨ha, hn⟩ ht hw hl,
    fun f i q seq c u w s hc hr h0 hu ha hn ht hw hl =>
      (sweepRun_turn hc hr h0 hu ⟨ha, hn⟩ ht hw).trans (if_neg (Nat.not_le.mpr hl)),
    fun f i q seq c u s hc hr h0 hu ha hn ht => sweepRun_waits hc hr h0 hu ⟨ha, hn⟩ ht,
    fun f i q seq c u s hc hr h0 hu hk => sweepRun_unkeyed hc hr h0 hu (not_and_or.mpr hk),
    -- `HEARTH_INIT_DONE`
    fun n u s hu hi hk ha hz => (execHearthInitDone_runs hu hi hk ha).trans (congrArg _ (initRun_done hz)),
    fun n u s => execHearthInitDone_last,
    fun n u s hu hi hk ha hz ht => (execHearthInitDone_runs hu hi hk ha).trans (congrArg _ (initRun_waits hz ht)),
    fun n u s => execHearthInitDone_stopped, fun n s => initEnd_byReg, fun n s => initEnd_byCmd⟩
  · rw [execKidBind_works h hu, hk, endWith_fails h0]
  · refine ⟨_, (execKidRetire_works h).trans (congrArg _ (endWith_ok ?_)), ?_, endCmd_after h rfl _ _⟩
    · rw [chkKidRetire_eq, if_pos ⟨h0, ha, hv, hd⟩]
      rfl
    · rw [endCmd_kid, kid_modKid_same]
  · have hk : s.chkKidRetire i c = (stKidState, dtNone) := by
      rw [chkKidRetire_eq, if_neg]
      rintro ⟨h0, ha, hv, hd⟩
      simp [h0, ha, hv, hd] at hb
    rw [execKidRetire_works h, hk, endWith_fails (by decide)]
  · rw [execRgnAssign_works h, endWith_ok (by rw [chkRgnAssign_free i c hn, ha]; rfl), hn]
    rfl
  · rw [execRgnAssign_works h, chkRgnAssign_free i c hn, ha, endWith_fails h0]
  · rw [execRgnAssign_works h, chkRgnAssign_full i c hn, endWith_fails (by decide)]
  · rw [execRgnRelease_works h, beginOnce_begins hb (by rw [State.chkRgnRelease, hr]; rfl)]
  · rw [execRgnRelease_works h, beginOnce_fails hb (by rw [State.chkRgnRelease, hr]) (relStatus_ne_zero h0)]
  · rw [execHrgAssign_works h, beginOnce_begins hb (by rw [chkHrgAssign_free i c hn, ha]; rfl), hn]
    rfl
  · rw [execHrgAssign_works h, beginOnce_fails hb (by rw [chkHrgAssign_free i c hn, ha]) h0]
  · rw [execHrgAssign_works h, beginOnce_fails hb (chkHrgAssign_full i c hn) (by decide)]
  · rw [execHrgRelease_works h, beginOnce_begins hb (by rw [State.chkHrgRelease, hr]; rfl)]
  · rw [execHrgRelease_works h, beginOnce_fails hb (by rw [State.chkHrgRelease, hr]) (relStatus_ne_zero h0)]
  · obtain ⟨hc, hr⟩ := works_cmd h
    exact (execResealKey_works h).trans (congrArg _ (sweepRun_last hc hr h0 hu ⟨ha, hn⟩ ht hw hl))
  · obtain ⟨hc, hr⟩ := works_cmd h
    exact (execRekeySweepPage_works hf h).trans (congrArg _ (sweepRun_last hc hr h0 hu ⟨ha, hn⟩ ht hw hl))

end Sys2Proof.Proofs

/-! Merging under a byte mask (R163): one fact about the bits of the bit mask, from which the merged line's bits follow. -/

namespace Sys2Proof.Proofs
open Sys2Proof Sys2Proof.Machine

/-! ## The bit mask of a byte mask -/

/-- Bit `k` of a line that has only the byte at offset `i` set. -/
theorem getLsbD_byteOnes (i : ℕ) {k : ℕ} (hk : k < 512) :
    ((0xFF : Line) <<< (8 * i)).getLsbD k = decide (k / 8 = i) := by
  have hbit (j : ℕ) : (0xFF : Line).getLsbD j = decide (j < 8) := by
    have hlow : (0xFF : ℕ).testBit j = decide (j < 8) := Nat.testBit_two_pow_sub_one 8 j
    refine (BitVec.getLsbD_ofNat 512 0xFF j).trans ?_
    rw [hlow, Bool.and_eq_right_iff_imp, decide_eq_true_eq, decide_eq_true_eq]
    omega
  rw [BitVec.getLsbD_shiftLeft, hbit, Bool.eq_iff_iff]
  simp only [Bool.and_eq_true, Bool.not_eq_true', decide_eq_true_eq, decide_eq_false_iff_not]
  omega

/-- One turn of the fold of `maskBits`: the bits of byte `i` are set where the byte mask holds it. -/
def orMaskedByte (m : BitVec 64) (a : Line) (i : ℕ) : Line :=
  if m.getLsbD i then a ||| ((0xFF : Line) <<< (8 * i)) else a

theorem maskBits_eq_foldl (m : BitVec 64) : maskBits m = (List.range 64).foldl (orMaskedByte m) 0 := rfl

theorem getLsbD_orMaskedByte (m : BitVec 64) (a : Line) (i : ℕ) {k : ℕ} (hk : k < 512) :
    (orMaskedByte m a i).getLsbD k = (a.getLsbD k || (m.getLsbD (k / 8) && decide (k / 8 = i))) := by
  rw [orMaskedByte]
  by_cases hi : k / 8 = i
  · subst hi
    cases m.getLsbD (k / 8) with
    | false => simp
    | true => rw [if_pos rfl, BitVec.getLsbD_or, getLsbD_byteOnes _ hk, Bool.true_and]
  · cases m.getLsbD i with
    | false => simp [hi]
    | true => rw [if_pos rfl, BitVec.getLsbD_or, getLsbD_byteOnes _ hk, decide_eq_false hi, Bool.and_false]

/-- After the bytes of `l` are folded in, a bit is set iff it was set before or `l` holds its masked byte. -/
theorem getLsbD_foldl_orMaskedByte (m : BitVec 64) {k : ℕ} (hk : k < 512) (l : List ℕ) (a : Line) :
    (l.foldl (orMaskedByte m) a).getLsbD k =
      (a.getLsbD k || (m.getLsbD (k / 8) && decide (k / 8 ∈ l))) := by
  induction l generalizing a with
  | nil => rw [List.foldl_nil, decide_eq_false List.not_mem_nil, Bool.and_false, Bool.or_false]
  | cons i l ih =>
    rw [List.foldl_cons, ih, getLsbD_orMaskedByte m a i hk, Bool.or_assoc, ← Bool.and_or_distrib_left]
    simp only [List.mem_cons, Bool.decide_or]

/-- The bit mask of a byte mask repeats each mask bit over the eight bits of its byte. -/
theorem getLsbD_maskBits (m : BitVec 64) {k : ℕ} (hk : k < 512) :
    (maskBits m).getLsbD k = m.getLsbD (k / 8) := by
  have hbyte : k / 8 ∈ List.range 64 := List.mem_range.mpr (by omega)
  rw [maskBits_eq_foldl, getLsbD_foldl_orMaskedByte m hk]
  simp [hbyte]

/-! ## The merged line -/

theorem getLsbD_mergeLine (old new : Line) (m : BitVec 64) {k : ℕ} (hk : k < 512) :
    (mergeLine old new m).getLsbD k = if m.getLsbD (k / 8) then new.getLsbD k else old.getLsbD k := by
  rw [mergeLine, BitVec.getLsbD_or, BitVec.getLsbD_and, BitVec.getLsbD_and, BitVec.getLsbD_not,
    getLsbD_maskBits m hk]
  cases m.getLsbD (k / 8) <;> simp [hk]

theorem mergeLine_fullMask (old new : Line) : mergeLine old new fullMask = new := by
  refine BitVec.eq_of_getLsbD_eq fun k hk => ?_
  have hfull : fullMask.getLsbD (k / 8) = true := by
    rw [fullMask, BitVec.getLsbD_allOnes, decide_eq_true_eq]
    omega
  rw [getLsbD_mergeLine old new _ hk, if_pos hfull]

theorem mergeLine_zero (old new : Line) : mergeLine old new 0 = old := by
  refine BitVec.eq_of_getLsbD_eq fun k hk => ?_
  rw [getLsbD_mergeLine old new _ hk, if_neg]
  simp

/-- Settles O56, bit by bit from the bit mask of the byte mask; the full and the empty mask are its two extremes. -/
theorem maskedWritesMergeBytes : Obligations.MaskedWritesMergeBytes :=
  ⟨fun old new m _ hk => getLsbD_mergeLine old new m hk,
    fun old new => ⟨mergeLine_fullMask old new, mergeLine_zero old new⟩⟩

end Sys2Proof.Proofs

/-! RESEAL_ZERO and RESEAL_FILL page after page, and CIPHER with its KEY_LOAD mode, at work in their units (R196, R197,
R366, R410, R413, R415, R416). -/

namespace Sys2Proof.Proofs
open Sys2Proof Sys2Proof.Machine

/-! ## The pages of a reseal (R196, R197, R202) -/

/-- The first page of a reseal's range and the one behind its last. -/
def resealSpan (s : State) (i : Nat) (c : Cmd) : Nat × Nat :=
  match s.resealAt i c with
  | some (_, p) => (p, p + c.resealPages)
  | none => (0, 0)

theorem resealSpan_found {s : State} {i k p : Nat} {c : Cmd} (h : s.resealAt i c = some (k, p)) :
    resealSpan s i c = (p, p + c.resealPages) := by
  rw [resealSpan, h]

/-- A reseal takes its turn: the page at its progress is done and noted, and the requests that waited for it go on. -/
def resealStep (u : State) (i q seq : Nat) (c : Cmd) (lo hi : Nat) : State :=
  (((u.bgTaken clsReseal (cmdJob i q seq)).resealPage (c.rgn - 1) (lo + c.progress) c.fixed
    (if c.opcode = 0x13 then some (c.w 3) else none) lo hi).modCmd i q seq fun c' =>
      { c' with progress := c.progress + 1, done := 4096 * (c.progress + 1) }).runHbm.settleHbm.wakeHearth

section
variable {f i q seq k p : Nat} {c : Cmd} {s u : State}

section
variable (hc : s.cmd? i q seq = some c) (hr : c.runs = true) (h0 : c.rgn ≠ 0) (hu : u = s.useRgn (c.rgn - 1))
include hc hr h0 hu

theorem resealRun_succ :
    State.resealRun i q seq (f + 1) s =
      if (u.kid (u.rgn (c.rgn - 1)).kid).state ≠ .active then u.failCmd i q seq stRgnKid dtA (4096 * c.progress)
      else if !u.bgTurn clsReseal (cmdJob i q seq) then u
      else
        let t := resealStep u i q seq c (resealSpan s i c).1 (resealSpan s i c).2
        if c.resealPages ≤ c.progress + 1 then t.endCmd i q seq (4096 * c.resealPages)
        else State.resealRun i q seq f t := by
  subst hu
  rw [State.resealRun, hc]
  exact if_neg (by simp [hr, h0])

theorem resealRun_unkeyed (hk : (u.kid (u.rgn (c.rgn - 1)).kid).state ≠ .active) :
    State.resealRun i q seq (f + 1) s = u.failCmd i q seq stRgnKid dtA (4096 * c.progress) := by
  rw [resealRun_succ hc hr h0 hu, if_pos hk]

variable (hk : (u.kid (u.rgn (c.rgn - 1)).kid).state = .active)
include hk

theorem resealRun_waits (ht : u.bgTurn clsReseal (cmdJob i q seq) = false) :
    State.resealRun i q seq (f + 1) s = u := by
  rw [resealRun_succ hc hr h0 hu, if_neg (not_not.mpr hk), if_pos (by simp [ht])]

variable (ha : s.resealAt i c = some (k, p)) (ht : u.bgTurn clsReseal (cmdJob i q seq) = true)
include ha ht

/-- In its turn a reseal does a page, and then ends or goes on. -/
theorem resealRun_turn :
    State.resealRun i q seq (f + 1) s =
      if c.resealPages ≤ c.progress + 1 then
        (resealStep u i q seq c p (p + c.resealPages)).endCmd i q seq (4096 * c.resealPages)
      else State.resealRun i q seq f (resealStep u i q seq c p (p + c.resealPages)) := by
  rw [resealRun_succ hc hr h0 hu, if_neg (not_not.mpr hk), if_neg (by simp [ht]), resealSpan_found ha]

theorem resealRun_last (hl : c.resealPages ≤ c.progress + 1) :
    State.resealRun i q seq (f + 1) s =
      (resealStep u i q seq c p (p + c.resealPages)).endCmd i q seq (4096 * c.resealPages) :=
  (resealRun_turn hc hr h0 hu hk ha ht).trans (if_pos hl)

theorem resealRun_next (hl : c.progress + 1 < c.resealPages) :
    State.resealRun i q seq (f + 1) s =
      State.resealRun i q seq f (resealStep u i q seq c p (p + c.resealPages)) :=
  (resealRun_turn hc hr h0 hu hk ha ht).trans (if_neg (Nat.not_le.mpr hl))

end

/-! ## The reseal commands in their unit -/

theorem execResealZero_works (h : s.works i q seq 0x12 c = true) :
    exec (.resealZero i q seq) s = .next (State.resealRun i q seq c.resealPages s) :=
  next_unit_works h

theorem execResealFill_works (h : s.works i q seq 0x13 c = true) :
    exec (.resealFill i q seq) s = .next (State.resealRun i q seq c.resealPages s) :=
  next_unit_works h

theorem works_opcode {op : Nat} (h : s.works i q seq op c = true) : c.opcode = op := by
  simp only [State.works, Bool.and_eq_true, decide_eq_true_eq] at h
  obtain ⟨⟨⟨⟨-, hop⟩, -⟩, -⟩, -⟩ := h
  exact hop

/-- `RESEAL_PAGE` finds the opcode of the command it works for. -/
theorem execResealPage_works {op : Nat} (hop : op = 0x12 ∨ op = 0x13) (h : s.works i q seq op c = true) :
    exec (.resealPage i q seq) s = .next (State.resealRun i q seq 1 s) := by
  have hsel : (if (s.cmd? i q seq).any fun c => c.opcode = 0x12 then 0x12 else 0x13) = op := by
    rw [(works_cmd h).1, Option.any_some, works_opcode h]
    rcases hop with rfl | rfl <;> rfl
  change execResealPage i q seq s = _
  rw [execResealPage, hsel]
  exact next_unit_works h

/-- A reseal command that takes its turn at its last page ends there, however many pages it was to do. -/
theorem works_resealRun_last {op : Nat} (h : s.works i q seq op c = true) (h0 : c.rgn ≠ 0)
    (hu : u = s.useRgn (c.rgn - 1)) (hk : (u.kid (u.rgn (c.rgn - 1)).kid).state = .active)
    (ha : s.resealAt i c = some (k, p)) (ht : u.bgTurn clsReseal (cmdJob i q seq) = true)
    (hl : c.resealPages ≤ c.progress + 1) (hf : 0 < f) :
    State.resealRun i q seq f s =
      (resealStep u i q seq c p (p + c.resealPages)).endCmd i q seq (4096 * c.resealPages) := by
  obtain ⟨hc, hr⟩ := works_cmd h
  obtain ⟨f, rfl⟩ := Nat.exists_eq_add_one.mpr hf
  exact resealRun_last hc hr h0 hu hk ha ht hl

end

/-! ## Input and output of a CIPHER command (R357, R366) -/

section
variable {i q seq st k n : Nat} {c : Cmd} {s s₁ : State} {g : List Byte → State → State} {b out : List Byte}
  {r : BitVec 64}

theorem cipherInput_waits (h : s.fetchObj i q seq (hIndex c.ceSrc) c.ceSrcOff c.ceLen = (.wait, s₁)) :
    s.cipherInput i q seq c g = s₁ := by
  rw [State.cipherInput, h]

theorem cipherInput_fails (h : s.fetchObj i q seq (hIndex c.ceSrc) c.ceSrcOff c.ceLen = (.fail st k, s₁)) :
    s.cipherInput i q seq c g = s₁.failCmd i q seq st dtA 0 := by
  rw [State.cipherInput, h]

theorem cipherInput_got (h : s.fetchObj i q seq (hIndex c.ceSrc) c.ceSrcOff c.ceLen = (.got b, s₁)) :
    s.cipherInput i q seq c g = g b s₁ := by
  rw [State.cipherInput, h]

theorem cipherOutput_waits (h0 : out ≠ [])
    (h : s.storeObj i q seq (hIndex c.ceDst) c.ceDstOff out = (.wait, s₁)) :
    s.cipherOutput i q seq c out r = s₁ := by
  rw [State.cipherOutput, if_neg (mt List.isEmpty_iff.mp h0), h]

theorem cipherOutput_fails (h0 : out ≠ [])
    (h : s.storeObj i q seq (hIndex c.ceDst) c.ceDstOff out = (.fail st k, s₁)) :
    s.cipherOutput i q seq c out r = s₁.failCmd i q seq st dtB (ceDone c.ceMode c.ceDec c.ceLen k) := by
  rw [State.cipherOutput, if_neg (mt List.isEmpty_iff.mp h0), h]

theorem cipherOutput_done (h0 : out ≠ [])
    (h : s.storeObj i q seq (hIndex c.ceDst) c.ceDstOff out = (.done, s₁)) :
    s.cipherOutput i q seq c out r = s₁.endCmd i q seq c.ceLen r := by
  rw [State.cipherOutput, if_neg (mt List.isEmpty_iff.mp h0), h]

/-! ## The modes other than KEY_LOAD (R415, R416) -/

/-- What a mode makes of the input under the command's latched key and IV. -/
def ceAnswer (c : Cmd) (b : List Byte) : Option (List Byte) × Nat :=
  ceCompute c.ceMode c.ceDec c.fixed (beNat (leBytes 32 c.latchKey.toNat)) c.latchIv.toNat b

/-- The end of a command whose input has come. -/
def cipherFinish (i q seq : Nat) (c : Cmd) (b : List Byte) (s : State) : State :=
  match ceAnswer c b with
  | (none, n) => s.endCmd i q seq c.ceLen (c.result + BitVec.ofNat 64 n)
  | (some out, n) => s.cipherOutput i q seq c out (c.result + BitVec.ofNat 64 n)

section
variable (h : s.works i q seq 0x14 c = true) (hl : c.ceLoad = false)
include h hl

theorem execCipher_works : exec (.cipher i q seq) s = .next (s.cipherInput i q seq c (cipherFinish i q seq c)) :=
  (next_unit_works h).trans (congrArg _ (if_neg (by simp [hl])))

theorem execCipher_waits (hb : s.fetchObj i q seq (hIndex c.ceSrc) c.ceSrcOff c.ceLen = (.wait, s₁)) :
    exec (.cipher i q seq) s = .next s₁ := by
  rw [execCipher_works h hl, cipherInput_waits hb]

theorem execCipher_fails (hb : s.fetchObj i q seq (hIndex c.ceSrc) c.ceSrcOff c.ceLen = (.fail st k, s₁)) :
    exec (.cipher i q seq) s = .next (s₁.failCmd i q seq st dtA 0) := by
  rw [execCipher_works h hl, cipherInput_fails hb]

variable (hb : s.fetchObj i q seq (hIndex c.ceSrc) c.ceSrcOff c.ceLen = (.got b, s₁))
include hb

theorem execCipher_noOutput (ho : ceAnswer c b = (none, n)) :
    exec (.cipher i q seq) s = .next (s₁.endCmd i q seq c.ceLen (c.result + BitVec.ofNat 64 n)) := by
  rw [execCipher_works h hl, cipherInput_got hb, cipherFinish, ho]

theorem execCipher_output (ho : ceAnswer c b = (some out, n)) :
    exec (.cipher i q seq) s = .next (s₁.cipherOutput i q seq c out (c.result + BitVec.ofNat 64 n)) := by
  rw [execCipher_works h hl, cipherInput_got hb, cipherFinish, ho]

end

/-! ## KEY_LOAD (R410, R413, R415) -/

/-- The AES encryption of a zero block under a key. -/
def zeroBlock (key : BitVec 256) : List Byte := beBytes 16 (aesEnc (beNat (leBytes 32 key.toNat)) 0)

theorem zeroBlock_ne_nil (key : BitVec 256) : zeroBlock key ≠ [] :=
  List.reverse_ne_nil_iff.mpr (List.cons_ne_nil _ _)

/-- The command loads its page with a key, and latches it. -/
def keyLoaded (s : State) (i q seq : Nat) (c : Cmd) (key : BitVec 256) : State :=
  (s.loadPage c.cePage key).modCmd i q seq fun c => { c with progress := 1, latchKey := key }

/-- The end of a `KEY_LOAD` whose input has come: the page is loaded once. -/
def keyLoadFinish (i q seq : Nat) (c : Cmd) (b : List Byte) (s : State) : State :=
  let key := if c.progress = 0 then BitVec.ofNat 256 (leNat b) else c.latchKey
  (if c.progress = 0 then keyLoaded s i q seq c key else s).cipherOutput i q seq c (zeroBlock key) 0

theorem keyLoadFinish_first (hp : c.progress = 0) :
    keyLoadFinish i q seq c b s =
      (keyLoaded s i q seq c (BitVec.ofNat 256 (leNat b))).cipherOutput i q seq c
        (zeroBlock (BitVec.ofNat 256 (leNat b))) 0 := by
  rw [keyLoadFinish, if_pos hp, if_pos hp]

theorem keyLoadFinish_loaded (hp : c.progress ≠ 0) :
    keyLoadFinish i q seq c b s = s.cipherOutput i q seq c (zeroBlock c.latchKey) 0 := by
  rw [keyLoadFinish, if_neg hp, if_neg hp]

section
variable (h : s.works i q seq 0x14 c = true) (hl : c.ceLoad = true)
include h hl

theorem execCipherKeyLoad_works : exec (.cipherKeyLoad i q seq) s = .next
    (if s.fbx.trngFailed && c.progress = 0 then s.failCmd i q seq stNoEntropy dtNone 0
      else s.cipherInput i q seq c (keyLoadFinish i q seq c)) :=
  (next_unit_works h).trans (congrArg _ (if_neg (by simp [hl])))

theorem execCipherKeyLoad_noEntropy (ht : s.fbx.trngFailed = true) (hp : c.progress = 0) :
    exec (.cipherKeyLoad i q seq) s = .next (s.failCmd i q seq stNoEntropy dtNone 0) := by
  rw [execCipherKeyLoad_works h hl, if_pos (by simp [ht, hp])]

theorem execCipherKeyLoad_input (hn : s.fbx.trngFailed = false ∨ c.progress ≠ 0)
    (hb : s.fetchObj i q seq (hIndex c.ceSrc) c.ceSrcOff c.ceLen = (.got b, s₁)) :
    exec (.cipherKeyLoad i q seq) s = .next (keyLoadFinish i q seq c b s₁) := by
  have hgo : ¬ (s.fbx.trngFailed && decide (c.progress = 0)) = true := by
    rcases hn with ht | hp
    · simp [ht]
    · simp [hp]
  rw [execCipherKeyLoad_works h hl, if_neg hgo, cipherInput_got hb]

end

end

/-- Settles O25, from one page of a reseal, and from the input, the answer and the output of a `CIPHER` command. -/
theorem resealAndCipherCommands : Obligations.ResealAndCipherCommands := by
  refine ⟨
    -- the reseal commands run the pages of their range
    fun i q seq c s => execResealZero_works, fun i q seq c s => execResealFill_works,
    fun i q seq c s => execResealPage_works (.inr rfl), fun i q seq c s => execResealPage_works (.inl rfl),
    -- and end at its last page
    fun i q seq c k p u s h h0 hu hk ha ht hn hl =>
      (execResealZero_works h).trans (congrArg _ (works_resealRun_last h h0 hu hk ha ht hl hn)),
    fun i q seq c k p u s h h0 hu hk ha ht hn hl =>
      (execResealFill_works h).trans (congrArg _ (works_resealRun_last h h0 hu hk ha ht hl hn)),
    fun i q seq c k p u s h h0 hu hk ha ht _ hl =>
      (execResealPage_works (.inl rfl) h).trans (congrArg _ (works_resealRun_last h h0 hu hk ha ht hl Nat.one_pos)),
    fun i q seq c k p u s h h0 hu hk ha ht _ hl =>
      (execResealPage_works (.inr rfl) h).trans (congrArg _ (works_resealRun_last h h0 hu hk ha ht hl Nat.one_pos)),
    -- one page
    fun f i q seq k p c u s => resealRun_last, fun f i q seq k p c u s => resealRun_next,
    fun f i q seq c u s => resealRun_waits, fun f i q seq c u s => resealRun_unkeyed,
    -- `CIPHER`
    fun i q seq c b out n s₁ s₂ s h hl hb ho h0 hs =>
      (execCipher_output h hl hb ho).trans (congrArg _ (cipherOutput_done h0 hs)),
    fun i q seq c b n s₁ s => execCipher_noOutput, fun i q seq c st k s₁ s => execCipher_fails,
    fun i q seq c b s₁ s₂ s₃ s h hl ht hp hb h2 hs => ?_,
    fun i q seq c s₁ s => execCipher_waits,
    fun i q seq c b out n s₁ s₂ s h hl hb ho h0 hs =>
      (execCipher_output h hl hb ho).trans (congrArg _ (cipherOutput_waits h0 hs)),
    fun i q seq c b out n st k s₁ s₂ s h hl hb ho h0 hs =>
      (execCipher_output h hl hb ho).trans (congrArg _ (cipherOutput_fails h0 hs)),
    -- `KEY_LOAD`
    fun i q seq c b s₁ s₂ s h hl hp hb hs => ?_,
    fun i q seq c s => execCipherKeyLoad_noEntropy⟩
  · subst h2
    rw [execCipherKeyLoad_input h hl (.inl ht) hb, keyLoadFinish_first hp]
    exact congrArg _ (cipherOutput_done (zeroBlock_ne_nil _) hs)
  · rw [execCipherKeyLoad_input h hl (.inr hp) hb, keyLoadFinish_loaded hp]
    exact congrArg _ (cipherOutput_done (zeroBlock_ne_nil _) hs)

end Sys2Proof.Proofs

/-! Control writes of the link ports, and training, lock, adaptation and negotiation (R208, R213, R214, R219, R234 to
R240). -/

namespace Sys2Proof.Proofs
open Sys2Proof Sys2Proof.Machine

/-! ## Control writes (R208, R239) -/

/-- The outcome of a served write of a management-only register by the management endpoint. -/
theorem next_regWriteMgmt_served {s t u : State} {r : Req} {off width : Nat} {f : State → State}
    (hs : s.served r off = true) (hm : r.mgmt = true) (ht : s.dropHeld r = t) (hu : f t = u) :
    (.next (s.regWriteMgmt r off width f) : Res) = .next u := by
  rw [regWriteMgmt_served hs hm, ht, hu]

/-- The state in which a write of `LNK_CTL.ENABLE` meets its port: set for a link the port's mode has, in a port not
fused out, it has switched the port's domain on. -/
def portWoken (r : Req) (link : Nat) (on : Bool) (s : State) : State :=
  if on && r.mgmt && 4 ≤ s.rst.step && s.linkInMode link && !s.sys.pdFused.getLsbD (6 + portOf link) then
    { s with sys := { s.sys with pd := s.sys.pd.set .on (6 + portOf link) .on } }
  else s

theorem portWoken_set {r : Req} {link : Nat} {s : State} (hm : r.mgmt = true) (h4 : 4 ≤ s.rst.step)
    (hl : s.linkInMode link = true) (hf : s.sys.pdFused.getLsbD (6 + portOf link) = false) :
    portWoken r link true s = { s with sys := { s.sys with pd := s.sys.pd.set .on (6 + portOf link) .on } } :=
  if_pos (by simp [hm, h4, hl, hf])

theorem portWoken_absent {r : Req} {link : Nat} {on : Bool} {s : State} (hl : s.linkInMode link = false) :
    portWoken r link on s = s :=
  if_neg (by simp [hl])

theorem portWoken_cleared (r : Req) (link : Nat) (s : State) : portWoken r link false s = s := rfl

/-- What a served write of `LNK_CTL.ENABLE` does, the port's domain being switched on before (R237, R239). -/
theorem execLinkEnable_served {r : Req} {link : Nat} {on : Bool} {s w t : State} (hw : portWoken r link on s = w)
    (hs : w.served r (lnkCtl (portOf link)) = true) (hm : r.mgmt = true) (ht : w.dropHeld r = t) :
    exec (.linkEnable r link on) s = .next (
      if !t.linkPresent link then t
      else if on then
        if ((t.modLink link fun x => { x with enable := on }).link link).state = .disabled then
          ((t.modLink link fun x => { x with enable := on }).modLink link fun x => { x with attempts := 0 }).toTraining
            link none false
        else t.modLink link fun x => { x with enable := on }
      else if ((t.modLink link fun x => { x with enable := on }).link link).state = .disabled then
        t.modLink link fun x => { x with enable := on }
      else (t.modLink link fun x => { x with enable := on }).toDown link .disabled lcOperator) := by
  subst hw
  exact next_regWriteMgmt_served hs hm ht rfl

/-- What a served `LNK_CTL.RETRAIN` does. -/
theorem execLinkRetrain_served {r : Req} {link : Nat} {s t : State}
    (hs : s.served r (lnkCtl (portOf link)) = true) (hm : r.mgmt = true) (ht : s.dropHeld r = t) :
    exec (.linkRetrain r link) s = .next (
      if !t.linkPresent link then t
      else if (t.link link).state = .up then t.toTraining link (some lcOperator) true
      else if (t.link link).state = .downFailed then
        (t.modLink link fun x => { x with attempts := 0 }).toTraining link (some lcOperator) true
      else t) :=
  next_regWriteMgmt_served hs hm ht rfl

/-! ## Training and lock (R213, R214, R234, R237) -/

/-- Saved settings are good exactly with lock in time and no lane above its rate (R234). -/
theorem savedGood_iff (lockNs : Nat) (lanes : List LaneTrain) : savedGood lockNs lanes = true ↔
    lockNs ≤ 50000000 ∧ (lanes.all fun y => decide (y.corrected * 10000 ≤ y.symbols)) = true := by
  rw [savedGood, Bool.and_eq_true, decide_eq_true_eq]
  exact Iff.rfl

theorem savedGood_eq_false {lockNs : Nat} {lanes : List LaneTrain}
    (h : 50000000 < lockNs ∨ (lanes.all fun y => decide (y.corrected * 10000 ≤ y.symbols)) = false) :
    savedGood lockNs lanes = false := by
  rw [Bool.eq_false_iff, ne_eq, savedGood_iff]
  rintro ⟨hk, hl⟩
  rcases h with h | h
  · omega
  · exact Bool.false_ne_true (h.symm.trans hl)

/-- What `TRAINING_DONE` of a `TRAINING` link does, once the lane readbacks are taken. -/
theorem execTrainingDone_training {link lockNs : Nat} {ok : Bool} {x : List (BitVec 512)} {lanes : List LaneTrain}
    {s t : State} (ho : s.linkOn link = true) (hst : (s.link link).state = .training)
    (ht : s.laneReads link lanes = t) :
    exec (.trainingDone link ok lockNs x lanes) s = .next (
      if ok && (!(t.link link).savedUsed || savedGood lockNs lanes) then
        (if (t.link link).savedUsed then t else t.saveRecord link x).toLocking link none
      else if (t.link link).savedUsed then (t.modLink link fun x => { x with savedUsed := false }).serdes link 1
      else t.attemptFailed link lcTrainFail true) := by
  subst ht
  exact congrArg _ (if_neg (by simp [ho, hst]))

/-- Saved settings that prove good lead to `LOCKING` as they are. -/
theorem execTrainingDone_savedGood {link lockNs : Nat} {x : List (BitVec 512)} {lanes : List LaneTrain} {s t : State}
    (ho : s.linkOn link = true) (hst : (s.link link).state = .training) (ht : s.laneReads link lanes = t)
    (hu : (t.link link).savedUsed = true) (hg : savedGood lockNs lanes = true) :
    exec (.trainingDone link true lockNs x lanes) s = .next (t.toLocking link none) := by
  simp [execTrainingDone_training ho hst ht, hu, hg]

/-- Saved settings that do not are followed by cold training. -/
theorem execTrainingDone_savedBad {link lockNs : Nat} {ok : Bool} {x : List (BitVec 512)} {lanes : List LaneTrain}
    {s t : State} (ho : s.linkOn link = true) (hst : (s.link link).state = .training) (ht : s.laneReads link lanes = t)
    (hu : (t.link link).savedUsed = true) (hb : ok = false ∨ savedGood lockNs lanes = false) :
    exec (.trainingDone link ok lockNs x lanes) s =
      .next ((t.modLink link fun x => { x with savedUsed := false }).serdes link 1) := by
  have hg : ¬(ok && (!(t.link link).savedUsed || savedGood lockNs lanes)) = true := by
    rcases hb with hb | hb <;> simp [hb, hu]
  rw [execTrainingDone_training ho hst ht, if_neg hg, if_pos hu]

/-- Lock takes the logical number and polarity of each lane and opens the negotiation. -/
theorem execLockAcquired_locked {link : Nat} {lanes : List LaneAlign} {ls : List (Nat × Bool)} {s : State}
    (ho : s.linkOn link = true) (hst : (s.link link).state = .locking)
    (hl : lockLanes (s.linkMode link) (modeLanes (s.linkMode link)) lanes = some ls) :
    exec (.lockAcquired link lanes) s = .next (((((s.lanesOf link).zip ls).foldl (fun s e =>
      s.modLane e.1 fun y => { y with logical := e.2.1, inverted := e.2.2 }) s).moveLink link .negotiating none).modLink
        link fun x => { x with peerHeard := false, negSentAt := 0, pcs := { x.pcs with rxPos := 0, rxScr := 0 } }) := by
  change execLockAcquired link lanes s = _
  rw [execLockAcquired, if_neg (by simp [ho, hst]), hl]

/-- Lanes that do not read as one link's give no lock. -/
theorem execLockAcquired_unread {link : Nat} {lanes : List LaneAlign} {s : State}
    (ho : s.linkOn link = true) (hst : (s.link link).state = .locking)
    (hl : lockLanes (s.linkMode link) (modeLanes (s.linkMode link)) lanes = none) :
    exec (.lockAcquired link lanes) s = .next s := by
  change execLockAcquired link lanes s = _
  rw [execLockAcquired, if_neg (by simp [ho, hst]), hl]

/-- What the end of a lane's millisecond does: its counts, and adaptation of an `UP` link above the rate (R234). -/
theorem execSerRate_counted {link lane corrected symbols snr g n : Nat} {s t : State} (ho : s.linkOn link = true)
    (hl : lane < modeLanes (s.linkMode link)) (hg : (s.lanesOf link).getD lane 0 = g)
    (hn : (s.lnk.lanes.get {} g).window + corrected = n)
    (ht : (s.modLane g fun y =>
      { y with corrected := min (2 ^ 32 - 1) (y.corrected + corrected), window := 0, snr := snr % 65536 }) = t) :
    exec (.serRate link lane corrected symbols snr) s =
      .next (if (t.link link).state = .up && decide (symbols < n * 10000) then t.adapt link lcSerRate else t) := by
  subst hg hn ht
  exact congrArg _ (if_neg (by simp [ho, hl]))

/-- A lane whose three alignment codewords fail takes its `UP` link back to `LOCKING`. -/
theorem execLockLost_lost {link lane : Nat} {first second third : List (BitVec 10)} {s : State}
    (ho : s.linkOn link = true) (hst : (s.link link).state = .up) (hl : lane < modeLanes (s.linkMode link))
    (hf : ([first, second, third].all
      (alignFails (s.linkMode link) (s.lnk.lanes.get {} ((s.lanesOf link).getD lane 0)))) = true) :
    exec (.lockLost link lane first second third) s = .next ((s.toLocking link (some lcLockLost)).leaveUp link) := by
  refine congrArg Host.Outcome.next (if_pos ?_)
  simp only [Bool.and_eq_true, decide_eq_true_eq]
  exact ⟨⟨⟨ho, hst⟩, hl⟩, hf⟩

theorem execLockLost_unlost {link lane : Nat} {first second third : List (BitVec 10)} {s : State}
    (h : ([first, second, third].all
        (alignFails (s.linkMode link) (s.lnk.lanes.get {} ((s.lanesOf link).getD lane 0)))) = false ∨
      (s.link link).state ≠ .up ∨ modeLanes (s.linkMode link) ≤ lane) :
    exec (.lockLost link lane first second third) s = .next s := by
  refine congrArg Host.Outcome.next (if_neg ?_)
  rcases h with h | h | h
  · rw [h, Bool.and_false]
    exact Bool.false_ne_true
  · simp [h]
  · simp [h]

theorem execLockTimeout_late {link : Nat} {s : State} (ho : s.linkOn link = true) (hst : (s.link link).state = .locking)
    (hn : (s.link link).since + 1000000 ≤ s.sys.now) :
    exec (.lockTimeout link) s = .next (s.attemptFailed link lcTrainFail false) := by
  refine congrArg Host.Outcome.next (if_pos ?_)
  simp only [Bool.and_eq_true, decide_eq_true_eq]
  exact ⟨⟨ho, hst⟩, hn⟩

/-! ## Arrival of a flit (R215, R233) -/

theorem arrive_off {s : State} {l : Nat} {cws : List (List (BitVec 10))} (h : s.linkOn l = false) :
    s.arrive l cws = s :=
  if_pos (by simp [h])

/-- Without lock a flit that arrives is damaged. -/
theorem arrive_unlocked {s : State} {l : Nat} {cws : List (List (BitVec 10))} (ho : s.linkOn l = true)
    (hst : (s.link l).state = .training ∨ (s.link l).state = .locking ∨ (s.link l).state = .adapting) :
    s.arrive l cws = s.rxDamaged l := by
  have hu : (s.link l).state.unlocked = true := by
    rcases hst with h | h | h <;> rw [h] <;> rfl
  rw [State.arrive, if_neg (by simp [ho]), if_pos hu]

/-- A link that is down takes nothing, powered or not. -/
theorem arrive_down {s : State} {l : Nat} {cws : List (List (BitVec 10))}
    (hst : (s.link l).state = .disabled ∨ (s.link l).state = .downFailed) : s.arrive l cws = s := by
  rcases hst with h | h <;> simp [State.arrive, h, LinkState.unlocked]

/-- An `UP` link takes a flit at once while it holds none, and else holds it behind the others. -/
theorem arrive_up {s t : State} {l : Nat} {cws : List (List (BitVec 10))} {r : RxRead} (ho : s.linkOn l = true)
    (hst : (s.link l).state = .up) (hd : s.rxDecode l cws = (r, t)) :
    s.arrive l cws =
      if (t.link l).rxHold.isEmpty then State.rxAll 1 l false [(r.badCw, r.damaged, leBytes 256 r.data)] t
      else t.setLink l { t.link l with rxHold := (t.link l).rxHold ++ [(r.badCw, r.damaged, leBytes 256 r.data)] } := by
  simp [State.arrive, ho, hst, hd, LinkState.unlocked]

/-- A negotiating link judges damage, then the type, then the CRC, and takes a `NEGOTIATE`. -/
theorem arrive_negotiating {s t : State} {l : Nat} {cws : List (List (BitVec 10))} {r : RxRead} (ho : s.linkOn l = true)
    (hst : (s.link l).state = .negotiating) (hd : s.rxDecode l cws = (r, t)) :
    s.arrive l cws =
      if r.damaged || !typeAssigned (hType (fHeader (leBytes 256 r.data))) then t.rxDamaged l
      else if hType (fHeader (leBytes 256 r.data)) ≠ 2 then t
      else if fTag (leBytes 256 r.data) = crcField (fHeader (leBytes 256 r.data)) (fPayload (leBytes 256 r.data)) then
        t.takeNeg l (negOf (fPayload (leBytes 256 r.data)))
      else t.rxDamaged l := by
  simp only [State.arrive, ho, hst, hd, LinkState.unlocked]
  rfl

/-- An undamaged flit of an assigned type passes the first check. -/
theorem not_damaged_or_unassigned {d : Bool} {t : Nat} (hd : d = false) (ht : typeAssigned t = true) :
    ¬(d || !typeAssigned t) = true := by
  simp [hd, ht]

/-- An undamaged `NEGOTIATE` is judged by its CRC. -/
theorem arrive_negotiating_negotiate {s t : State} {l : Nat} {cws : List (List (BitVec 10))} {r : RxRead}
    (ho : s.linkOn l = true) (hst : (s.link l).state = .negotiating) (hd : s.rxDecode l cws = (r, t))
    (hr : r.damaged = false) (h2 : hType (fHeader (leBytes 256 r.data)) = 2) :
    s.arrive l cws =
      if fTag (leBytes 256 r.data) = crcField (fHeader (leBytes 256 r.data)) (fPayload (leBytes 256 r.data)) then
        t.takeNeg l (negOf (fPayload (leBytes 256 r.data)))
      else t.rxDamaged l := by
  rw [arrive_negotiating ho hst hd, if_neg (not_damaged_or_unassigned hr (by rw [h2]; rfl)), if_neg (not_not.mpr h2)]

/-! ## Negotiation (R235, R236) -/

/-- What a negotiating link does with a valid `NEGOTIATE`: the checks of R235 in their order. -/
theorem takeNeg_negotiating {s : State} {link : Nat} {n : Neg} (h : (s.link link).state = .negotiating) :
    s.takeNeg link n =
      if n.format ≠ 1 then s.attemptFailed link lcNegFormat false
      else if min 1 n.levelMax < max 1 n.levelMin then s.attemptFailed link lcNegLevel false
      else if n.width ≠ s.linkMode link then s.attemptFailed link lcNegWidth false
      else if n.peerSeen then ((s.modLink link fun x => { x with peerHeard := true }).sendNeg link).linkUp link n
      else s.modLink link fun x => { x with peerHeard := true } := by
  rw [State.takeNeg, if_neg (by simp [h]), if_neg (by simp [h])]

/-- An `UP` link negotiates again when the peer's node number changed (R236). -/
theorem takeNeg_up_changed {s : State} {link : Nat} {n : Neg} (h : (s.link link).state = .up)
    (hn : n.node ≠ (s.link link).peerNode) : s.takeNeg link n = s.renegotiate link := by
  rw [State.takeNeg, if_pos h, if_pos hn]

section
variable {s : State} {link : Nat} {n : Neg} (h : (s.link link).state = .negotiating) (hf : n.format = 1)
include h hf

theorem takeNeg_level (hl : min 1 n.levelMax < max 1 n.levelMin) :
    s.takeNeg link n = s.attemptFailed link lcNegLevel false := by
  rw [takeNeg_negotiating h, if_neg (not_not.mpr hf), if_pos hl]

theorem takeNeg_width (hl : max 1 n.levelMin ≤ min 1 n.levelMax) (hw : n.width ≠ s.linkMode link) :
    s.takeNeg link n = s.attemptFailed link lcNegWidth false := by
  rw [takeNeg_negotiating h, if_neg (not_not.mpr hf), if_neg (Nat.not_lt.mpr hl), if_pos hw]

/-- A `NEGOTIATE` that is not refused is noted, and completes the negotiation if the peer has seen this end's. -/
theorem takeNeg_accepted (hl : max 1 n.levelMin ≤ min 1 n.levelMax) (hw : n.width = s.linkMode link) :
    s.takeNeg link n =
      if n.peerSeen then ((s.modLink link fun x => { x with peerHeard := true }).sendNeg link).linkUp link n
      else s.modLink link fun x => { x with peerHeard := true } := by
  rw [takeNeg_negotiating h, if_neg (not_not.mpr hf), if_neg (Nat.not_lt.mpr hl), if_neg (not_not.mpr hw)]

end

theorem execNegotiateSend_due {link : Nat} {s : State} (ho : s.linkOn link = true)
    (hst : (s.link link).state = .negotiating ∨ (s.link link).state = .up)
    (hn : (s.link link).negSentAt = 0 ∨ (s.link link).negSentAt + 100000 ≤ s.sys.now) :
    exec (.negotiateSend link) s = .next (s.sendNeg link) := by
  refine congrArg Host.Outcome.next (if_pos ?_)
  simp only [Bool.and_eq_true, Bool.or_eq_true, decide_eq_true_eq]
  exact ⟨⟨ho, hst⟩, hn⟩

theorem execNegTimeout_late {link : Nat} {s : State} (ho : s.linkOn link = true)
    (hst : (s.link link).state = .negotiating) (hn : (s.link link).since + 100000000 ≤ s.sys.now) :
    exec (.negTimeout link) s = .next (s.attemptFailed link lcNegTimeout false) := by
  refine congrArg Host.Outcome.next (if_pos ?_)
  simp only [Bool.and_eq_true, decide_eq_true_eq]
  exact ⟨⟨ho, hst⟩, hn⟩

/-- Settles O35: the writes by what each does once served, the events by the guard and the state each asks for. -/
theorem linkControlAndTraining : Obligations.LinkControlAndTraining := by
  refine ⟨
    -- `LNK_CTL.ENABLE`
    fun r l w t s hm h4 hl hf hw hs ht hp hd => ?_, fun r l w t s hm h4 hl hf hw hs ht hp hd => ?_,
    fun r l on t s hs hm ht hl hp => ?_,
    fun r l t s hs hm ht hp hd => ?_, fun r l t s hs hm ht hp hd => ?_,
    -- RETRAIN, ADAPT, SAVE
    fun r l t s hs hm ht hp hu => ?_, fun r l t s hs hm ht hp hd => ?_, fun r l t s hs hm ht hu hd => ?_,
    fun r l t s hs hm ht hp hu => next_regWriteMgmt_served hs hm ht (if_pos (by simp [hp, hu])),
    fun r l t s hs hm ht hu => next_regWriteMgmt_served hs hm ht (if_neg (by simp [hu])),
    fun r l x t s hs hm ht hp hu => next_regWriteMgmt_served hs hm ht (if_pos (by simp [hp, hu])),
    fun r l x t s hs hm ht hu => next_regWriteMgmt_served hs hm ht (if_neg (by simp [hu])),
    -- MODE and `LNK_SESS_CTL`
    fun r p v t s hs hm ht hv hd => next_regWriteMgmt_served hs hm ht (if_neg (by simpa using And.intro hv hd)),
    fun r p v t s hs hm ht h => next_regWriteMgmt_served hs hm ht (if_pos (by simpa using h)),
    fun r p v t s hs hm ht hlo hhi => next_regWriteMgmt_served hs hm ht (if_pos (by simp [hlo, hhi])),
    fun r p v t s hs hm ht h => next_regWriteMgmt_served hs hm ht (if_neg (by simp; omega)),
    -- `TRAINING_DONE`
    fun l k x lanes t s ho hst ht hu hk hl =>
      execTrainingDone_savedGood ho hst ht hu ((savedGood_iff k lanes).mpr ⟨hk, hl⟩),
    fun l k x lanes t s ho hst ht hu => ?_,
    fun ok l k x lanes t s ho hst ht hu hb =>
      execTrainingDone_savedBad ho hst ht hu (hb.imp_right savedGood_eq_false),
    fun l k x lanes t s ho hst ht hu => ?_,
    fun ok l k x lanes s hst => congrArg Host.Outcome.next (if_pos (by simp [hst])),
    -- lock, its loss, and adaptation
    fun l lanes ls s => execLockAcquired_locked, fun l lanes s => execLockAcquired_unread,
    fun l lanes s hst => congrArg Host.Outcome.next (if_pos (by simp [hst])),
    fun l k a b c s => execLockLost_lost, fun l k a b c s => execLockLost_unlost, fun l s => execLockTimeout_late,
    fun l s ho hst => congrArg Host.Outcome.next (if_pos (by simp [ho, hst])),
    fun l k c y z g n t s ho hl hg hn ht hst hr => ?_, fun l k c y z g n t s ho hl hg hn ht h => ?_,
    fun l k c y z s h => congrArg Host.Outcome.next (if_pos (by simpa using h)),
    -- `NEGOTIATE_RECEIVE`
    fun l cws s h => congrArg Host.Outcome.next (arrive_off h),
    fun l cws s ho h => congrArg Host.Outcome.next (arrive_unlocked ho h),
    fun l cws s h => congrArg Host.Outcome.next (arrive_down h),
    fun l cws r t s ho hst hd h =>
      congrArg Host.Outcome.next ((arrive_negotiating ho hst hd).trans (if_pos (by simpa using h))),
    fun l cws r t s ho hst hd hr ht ha => congrArg Host.Outcome.next
      ((arrive_negotiating ho hst hd).trans ((if_neg (not_damaged_or_unassigned hr ha)).trans (if_pos ht))),
    fun l cws r t s ho hst hd hr ht hc =>
      congrArg Host.Outcome.next ((arrive_negotiating_negotiate ho hst hd hr ht).trans (if_pos hc)),
    fun l cws r t s ho hst hd hr ht hc =>
      congrArg Host.Outcome.next ((arrive_negotiating_negotiate ho hst hd hr ht).trans (if_neg hc)),
    -- a `NEGOTIATE` taken
    fun l n s h hf => takeNeg_level h hf, fun l n s h hf => takeNeg_width h hf,
    fun l n s h hf hl hw hp => (takeNeg_accepted h hf hl hw).trans (if_pos hp),
    fun l n s h hf hl hw hp => (takeNeg_accepted h hf hl hw).trans (if_neg (by simp [hp])),
    fun l n s h hf => (takeNeg_negotiating h).trans (if_pos hf), fun l n s => takeNeg_up_changed,
    -- `NEGOTIATE_SEND` and the timeouts
    fun l s => execNegotiateSend_due, fun l s => execNegTimeout_late,
    fun l s h => congrArg Host.Outcome.next (if_neg (by simp [h])),
    fun l s h => congrArg Host.Outcome.next (if_neg (by simp [h])),
    fun l s h => congrArg Host.Outcome.next (if_neg (by simp [h]))⟩
  · simp [execLinkEnable_served ((portWoken_set hm h4 hl hf).trans hw) hs hm ht, hp, hd]
  · simp [execLinkEnable_served ((portWoken_set hm h4 hl hf).trans hw) hs hm ht, hp, hd]
  · simp [execLinkEnable_served (portWoken_absent hl) hs hm ht, hp]
  · simp [execLinkEnable_served (portWoken_cleared r l s) hs hm ht, hp, hd]
  · simp [execLinkEnable_served (portWoken_cleared r l s) hs hm ht, hp, hd]
  · simp [execLinkRetrain_served hs hm ht, hp, hu]
  · simp [execLinkRetrain_served hs hm ht, hp, hd]
  · simp [execLinkRetrain_served hs hm ht, hu, hd]
  · simp [execTrainingDone_training ho hst ht, hu]
  · simp [execTrainingDone_training ho hst ht, hu]
  · simp [execSerRate_counted ho hl hg hn ht, hst, hr]
  · rw [execSerRate_counted ho hl hg hn ht, if_neg]
    rcases h with h | h
    · simp [h]
    · simp [h]

end Sys2Proof.Proofs

/-! Flits and `LINK_CTL` on an `UP` link: reception, acknowledgement, repetition, replay and transmission (R215 to R224,
R228 to R233). -/

namespace Sys2Proof.Proofs
open Sys2Proof Sys2Proof.Machine

/-! ## Reception (R215, R217, R219, R221 to R223, R233) -/

section
variable {s t : State} {l : Nat} {cws : List (List (BitVec 10))} {r : RxRead} (ho : s.linkOn l = true)
  (hst : (s.link l).state = .up) (hd : s.rxDecode l cws = (r, t))
include ho hst hd

theorem next_arrive_up_taken (hh : (t.link l).rxHold = []) :
    (.next (s.arrive l cws) : Res) =
      .next (State.rxAll 1 l false [(r.badCw, r.damaged, leBytes 256 r.data)] t) := by
  rw [arrive_up ho hst hd, if_pos (by rw [hh]; rfl)]

theorem next_arrive_up_held (hh : (t.link l).rxHold ≠ []) :
    (.next (s.arrive l cws) : Res) = .next (t.setLink l
      { t.link l with rxHold := (t.link l).rxHold ++ [(r.badCw, r.damaged, leBytes 256 r.data)] }) := by
  rw [arrive_up ho hst hd, if_neg (by simpa using hh)]

end

/-- One flit alone is what `rxFlit` makes of it. -/
theorem rxAll_one_taken {s t u : State} {l n : Nat} {d : Bool} {b : List Byte} (hst : (s.link l).state = .up)
    (hr : s.rxFlit l false d b = (some t, u)) : State.rxAll 1 l false [(n, d, b)] s = t := by
  rw [State.rxAll, if_neg (not_not.mpr hst), hr]
  exact State.rxAll.eq_1 0 l false t

/-- One that waits for its key is held. -/
theorem rxAll_one_held {s t : State} {l n : Nat} {d : Bool} {b : List Byte} (hst : (s.link l).state = .up)
    (hr : s.rxFlit l false d b = (none, t)) :
    State.rxAll 1 l false [(n, d, b)] s = t.modLink l fun x => { x with rxHold := [(n, d, b)] } := by
  rw [State.rxAll, if_neg (not_not.mpr hst), hr]

section
variable {s : State} {l : Nat} {refused : Bool} {b : List Byte}

/-- A flit of another length or of an unassigned type is damaged. -/
theorem rxFlit_misshapen (h : b.length ≠ 256 ∨ typeAssigned (hType (fHeader b)) = false) :
    s.rxFlit l refused false b = (some (s.rxDamaged l), s) :=
  if_pos (by simpa using h)

variable (hb : b.length = 256)
include hb

theorem not_misshapen (ha : typeAssigned (hType (fHeader b)) = true) :
    ¬(false || decide (b.length ≠ 256) || !typeAssigned (hType (fHeader b))) = true := by
  simp [hb, ha]

theorem rxFlit_null (h : hType (fHeader b) = 0) : s.rxFlit l refused false b = (some s, s) :=
  (if_neg (not_misshapen hb (by rw [h]; rfl))).trans (if_pos h)

/-- A `LINK_CTL` is judged by its CRC alone. -/
theorem rxFlit_ctl (h : hType (fHeader b) = 1) : s.rxFlit l refused false b =
    (some (if fTag b = crcField (fHeader b) (fPayload b) then s.takeCtl l (fPayload b) else s.rxDamaged l), s) :=
  (if_neg (not_misshapen hb (by rw [h]; rfl))).trans ((if_neg (by omega)).trans (if_pos h))

theorem rxFlit_negotiate (h : hType (fHeader b) = 2) : s.rxFlit l refused false b =
    (some (if fTag b = crcField (fHeader b) (fPayload b) then s.takeNeg l (negOf (fPayload b))
      else s.rxDamaged l), s) :=
  (if_neg (not_misshapen hb (by rw [h]; rfl))).trans ((if_neg (by omega)).trans ((if_neg (by omega)).trans (if_pos h)))

/-- A sequenced flit out of order is one already taken, which is acknowledged again, or one ahead of a lost one
(R221). -/
theorem rxFlit_outOfOrder (ha : typeAssigned (hType (fHeader b)) = true) (h : 2 < hType (fHeader b))
    (hk : ((s.link l).rxNext + 4096 - hLseq (fHeader b)) % 4096 ≠ 0) :
    s.rxFlit l refused false b =
      if ((s.link l).rxNext + 4096 - hLseq (fHeader b)) % 4096 ≤ 2048 then (some (s.sendCtl l false), s)
      else (some (s.rxDamaged l), s) :=
  (if_neg (not_misshapen hb ha)).trans
    ((if_neg (by omega)).trans ((if_neg (by omega)).trans ((if_neg (by omega)).trans (if_pos hk))))

end

/-! ## Repetition and replay (R221, R222) -/

theorem retry_below {s : State} {l : Nat} {fs : List SentFlit} (h : (s.link l).retries < 7) :
    s.retry l fs = (s.setLink l { s.link l with retries := (s.link l).retries + 1, ackAt := s.now }).resend l fs :=
  if_neg (by omega)

theorem retry_eighth {s : State} {l : Nat} {fs : List SentFlit} (h : 7 ≤ (s.link l).retries) :
    s.retry l fs = (s.setLink l { s.link l with retries := 0 }).toTraining l (some lcRetryLimit) false :=
  if_pos (by omega)

theorem execNakRepeat_due {link : Nat} {s : State} (ho : s.linkOn link = true) (hst : (s.link link).state = .up)
    (hw : (s.link link).nakWait = true) (hn : (s.link link).nakAt + 2000 ≤ s.sys.now) :
    exec (.nakRepeat link) s = .next (s.sendCtl link true) := by
  refine congrArg Host.Outcome.next (if_pos ?_)
  simp only [Bool.and_eq_true, decide_eq_true_eq]
  exact ⟨⟨⟨ho, hst⟩, hw⟩, hn⟩

theorem execReplayTimeout_due {link : Nat} {s : State} (ho : s.linkOn link = true) (hst : (s.link link).state = .up)
    (hr : (s.link link).replay.isEmpty = false) (hn : (s.link link).ackAt + 10000 ≤ s.sys.now) :
    exec (.replayTimeout link) s = .next (s.retry link (s.link link).replay) := by
  refine congrArg Host.Outcome.next (if_pos ?_)
  simp only [Bool.and_eq_true, Bool.not_eq_true', decide_eq_true_eq]
  exact ⟨⟨⟨ho, hst⟩, hr⟩, hn⟩

/-! ## Transmission (R217, R220, R228) -/

section
variable {link : Nat} {s : State}

/-- With room in the replay buffer the first waiting flit that may go is sent, or a `NULL`. -/
theorem execFlitTransmit_room {t : State} {sent : Bool} (ho : s.linkOn link = true) (hst : (s.link link).state = .up)
    (hr : (s.link link).replay.length < replayCap (s.linkMode link))
    (ht : State.txFirst (s.link link).txQueue [] link s = (sent, t)) :
    exec (.flitTransmit link) s = .next (if sent then t else t.sendNull link) := by
  change execFlitTransmit link s = _
  simp [execFlitTransmit, ho, hst, hr, ht]

/-- Without it, or from lock on while not yet `UP`, only a `NULL` goes. -/
theorem execFlitTransmit_null (ho : s.linkOn link = true)
    (h : ((s.link link).state = .up ∧ replayCap (s.linkMode link) ≤ (s.link link).replay.length) ∨
      (s.link link).state = .negotiating ∨ (s.link link).state = .locking) :
    exec (.flitTransmit link) s = .next (s.sendNull link) := by
  change execFlitTransmit link s = _
  rcases h with ⟨h, hf⟩ | h | h
  · simp [execFlitTransmit, ho, h, Nat.not_lt.mpr hf]
  · simp [execFlitTransmit, ho, h]
  · simp [execFlitTransmit, ho, h]

/-- In the other states, or switched off, a link sends nothing. -/
theorem execFlitTransmit_idle (h : s.linkOn link = false ∨
      ((s.link link).state ≠ .up ∧ (s.link link).state ≠ .negotiating ∧ (s.link link).state ≠ .locking)) :
    exec (.flitTransmit link) s = .next s := by
  change execFlitTransmit link s = _
  rcases h with h | ⟨hu, hn, hl⟩
  · simp [execFlitTransmit, h]
  · simp [execFlitTransmit, hu, hn, hl]

end

/-- Settles O36: the three receive rows are one arrival, a flit is judged by its shape, type, CRC and order, and the
events by the guard and the state each asks for. -/
theorem linkFlits : Obligations.LinkFlits := by
  refine ⟨
    -- the arrival of a flit
    fun l cws r t s => next_arrive_up_taken, fun l cws r t s => next_arrive_up_held,
    fun l cws r t s => next_arrive_up_taken, fun l cws r t s => next_arrive_up_held,
    fun l cws r t s => next_arrive_up_taken, fun l cws r t s => next_arrive_up_held,
    fun l cws s h => congrArg Host.Outcome.next (arrive_off h),
    fun l cws s ho h => congrArg Host.Outcome.next (arrive_unlocked ho h),
    fun l cws s h => congrArg Host.Outcome.next (arrive_down h),
    fun l cws s h => congrArg Host.Outcome.next (arrive_off h),
    fun l cws s ho h => congrArg Host.Outcome.next (arrive_unlocked ho h),
    fun l cws s h => congrArg Host.Outcome.next (arrive_down h),
    fun l cws s => ⟨rfl, rfl⟩,
    -- one flit
    fun l n d b t u s => rxAll_one_taken, fun l n d b t s => rxAll_one_held,
    fun l f b s => rxFlit_misshapen, fun l f b s => rxFlit_null,
    fun l f b s hb h hc => ?_, fun l f b s hb h hc => ?_,
    fun l f b s hb ha h hk => (rxFlit_outOfOrder hb ha h (by omega)).trans (if_neg (Nat.not_le.mpr hk)),
    fun l f b s hb ha h h0 hk => (rxFlit_outOfOrder hb ha h h0.ne').trans (if_pos hk),
    fun l s => rfl,
    -- `LINK_CTL_SEND`, `NAK_REPEAT` and `REPLAY_TIMEOUT`
    fun l s ho hst => congrArg Host.Outcome.next (if_pos (by simp [ho, hst])),
    fun l s => execNakRepeat_due, fun l s h => congrArg Host.Outcome.next (if_neg (by simp [h])),
    fun l s => execReplayTimeout_due, fun l s h => congrArg Host.Outcome.next (if_neg (by simp [h])),
    fun l fs s => retry_below, fun l fs s => retry_eighth,
    -- `FLIT_TRANSMIT`
    fun l t s ho hst hr => execFlitTransmit_room ho hst hr, fun l t s ho hst hr => execFlitTransmit_room ho hst hr,
    fun l s ho hst hf => execFlitTransmit_null ho (.inl ⟨hst, hf⟩),
    fun l s ho h => execFlitTransmit_null ho (.inr h),
    fun l s => execFlitTransmit_idle,
    -- what asks for an `UP` link
    fun l s h => congrArg Host.Outcome.next (if_neg (by simp [h])),
    fun l s h => congrArg Host.Outcome.next (if_neg (by simp [h])),
    fun l s h => congrArg Host.Outcome.next (if_neg (by simp [h]))⟩
  · rw [rxFlit_ctl hb h, if_pos hc]
  · rcases h with h | h
    · rw [rxFlit_ctl hb h, if_neg hc]
    · rw [rxFlit_negotiate hb h, if_neg hc]

end Sys2Proof.Proofs

/-! The fabric commands in their units, the issue of their records, and the closing of a window (R244, R245, R250, R259,
R260, R262, R264, R367 to R369). -/

namespace Sys2Proof.Proofs
open Sys2Proof Sys2Proof.Machine

/-! ## Windows and remote window entries (R243 to R245) -/

@[simp] theorem win_setWin_same (s : State) (w : Nat) (v : Win) : (s.setWin w v).win w = v :=
  Tbl.get_set_same ..

@[simp] theorem rwin_setRwin_same (s : State) (w : Nat) (v : Rwin) : (s.setRwin w v).rwin w = v :=
  Tbl.get_set_same ..

@[simp] theorem endCmd_win (s : State) (i q seq d : Nat) (r : BitVec 64) (w : Nat) :
    (s.endCmd i q seq d r).win w = s.win w := rfl

@[simp] theorem endCmd_rwin (s : State) (i q seq d : Nat) (r : BitVec 64) (w : Nat) :
    (s.endCmd i q seq d r).rwin w = s.rwin w := rfl

/-- A window key is one more than a remainder by 2^32 - 1, so that it is not zero (R243). -/
theorem drawKey_ne_zero (s : State) : s.drawKey.1 ≠ 0 := by
  intro h
  have hk : (1 + (s.draw 32).1.toNat % 4294967295) % 4294967296 = 0 := congrArg BitVec.toNat h
  omega

/-- The window that `WIN_OPEN` opens for a slice of a domain under a key. -/
def openedWin (c : Cmd) (i : Nat) (d : Option Nat) (key : BitVec 32) : Win :=
  { state := .opened, sync := c.winSync, dvalid := d.isSome, dslot := d.getD 0, slice := i, obj := hIndex (c.f 1 31 0)
    objOff := if c.winSync then 0 else c.f 2 39 0, syncBase := if c.winSync then c.f 2 19 0 else 0, size := c.winSize
    rights := BitVec.ofNat 4 c.winRights, key, srcNode := c.f 1 52 37 }

section
variable {i q seq n : Nat} {c : Cmd} {s : State}

theorem execWinOpen_opens (h : s.works i q seq 0x20 c = true) (hn : s.freeWin = some n) (ht : s.fbx.trngFailed = false) :
    exec (.winOpen i q seq) s = .next ((if c.winSync then
        s.drawKey.2.setWin n (openedWin c i (s.domainOf i) s.drawKey.1)
      else (s.drawKey.2.setWin n (openedWin c i (s.domainOf i) s.drawKey.1)).objHold i (hIndex (c.f 1 31 0))).endCmd
        i q seq 0 (BitVec.ofNat 64 (s.drawKey.1.toNat + 2 ^ 32 * n))) := by
  refine (next_unit_works h).trans ?_
  rw [hn]
  exact congrArg Host.Outcome.next (if_neg (ne_true_of_eq_false ht))

theorem execWinOpen_noEntropy (h : s.works i q seq 0x20 c = true) (hn : s.freeWin = some n)
    (ht : s.fbx.trngFailed = true) :
    exec (.winOpen i q seq) s = .next (s.failCmd i q seq stNoEntropy dtNone 0) := by
  refine (next_unit_works h).trans ?_
  rw [hn]
  exact congrArg Host.Outcome.next (if_pos ht)

theorem execWinOpen_noWindow (h : s.works i q seq 0x20 c = true) (hn : s.freeWin = none) :
    exec (.winOpen i q seq) s = .next (s.failCmd i q seq stNoWindow dtNone 0) := by
  refine (next_unit_works h).trans ?_
  rw [hn]

theorem execWinClose_free (h : s.works i q seq 0x21 c = true) (hf : (s.win (c.f 1 11 0)).state = .free) :
    exec (.winClose i q seq) s = .next (s.endCmd i q seq 0) :=
  (next_unit_works h).trans (congrArg Host.Outcome.next (if_pos hf))

theorem execWinClose_closes (h : s.works i q seq 0x21 c = true) (hf : (s.win (c.f 1 11 0)).state ≠ .free) :
    exec (.winClose i q seq) s =
      .next ((s.modCmd i q seq fun c => { c with progress := 1 }).closeWin (c.f 1 11 0)) :=
  (next_unit_works h).trans (congrArg Host.Outcome.next (if_neg hf))

/-- The entry that `RWIN_SET` sets for a slice of a domain. -/
def setEntry (c : Cmd) (i : Nat) (d : Option Nat) : Rwin :=
  { set := true, dvalid := d.isSome, dslot := d.getD 0, slice := i, node := c.f 1 34 19, member := c.f 1 42 35
    window := c.f 1 54 43, key := BitVec.ofNat 32 (c.f 2 31 0), rights := BitVec.ofNat 4 (c.f 1 18 15)
    timeout := c.f 1 61 55, aperture := (c.w 1).getLsbD 14 }

theorem execRwinSet_sets (h : s.works i q seq 0x22 c = true) (hn : s.freeRwin = some n) :
    exec (.rwinSet i q seq) s =
      .next ((s.setRwin n (setEntry c i (s.domainOf i))).endCmd i q seq 0 (BitVec.ofNat 64 n)) := by
  refine (next_unit_works h).trans ?_
  rw [hn]
  rfl

theorem execRwinSet_noWindow (h : s.works i q seq 0x22 c = true) (hn : s.freeRwin = none) :
    exec (.rwinSet i q seq) s = .next (s.failCmd i q seq stNoWindow dtNone 0) := by
  refine (next_unit_works h).trans ?_
  rw [hn]

/-- An entry that is set for the slice passes where no right is asked for. -/
theorem chkEntry_set {e dt : Nat} (hs : (s.rwin e).set = true) (hi : (s.rwin e).slice = i) :
    s.chkEntry i e none dt = chkOk :=
  if_neg (by simp [hs, hi])

theorem chkEntry_denied {e dt : Nat} {right : Option Nat} (h : (s.rwin e).set = false ∨ (s.rwin e).slice ≠ i) :
    s.chkEntry i e right dt = (stFabDenied, dt) :=
  if_pos (by simpa using h)

theorem execRwinClear_clears (h : s.works i q seq 0x23 c = true) (hs : (s.rwin (c.f 1 13 0)).set = true)
    (hi : (s.rwin (c.f 1 13 0)).slice = i) :
    exec (.rwinClear i q seq) s = .next ((s.setRwin (c.f 1 13 0) {}).endCmd i q seq 0) :=
  (next_unit_works h).trans (congrArg Host.Outcome.next (endWith_ok (congrArg Prod.fst (chkEntry_set hs hi))))

theorem execRwinClear_denied (h : s.works i q seq 0x23 c = true)
    (hd : (s.rwin (c.f 1 13 0)).set = false ∨ (s.rwin (c.f 1 13 0)).slice ≠ i) :
    exec (.rwinClear i q seq) s = .next (s.failCmd i q seq stFabDenied dtA 0) := by
  have hk : s.chkRwinClear i c = (stFabDenied, dtA) := chkEntry_denied hd
  refine (next_unit_works h).trans (congrArg Host.Outcome.next ?_)
  rw [hk]
  exact endWith_fails (by decide)

end

/-- With something in flight a window closes later (R244). -/
theorem closeWin_inFlight {s : State} {w : Nat} (hf : (s.win w).state ≠ .free) (hn : (s.win w).inflight ≠ 0) :
    s.closeWin w = s.setWin w { s.win w with state := .closing } :=
  (if_neg hf).trans (if_neg hn)

/-- With nothing in flight it is `FREE` at once. -/
theorem closeWin_idle {s : State} {w : Nat} (hf : (s.win w).state ≠ .free) (hn : (s.win w).inflight = 0) :
    (s.closeWin w).win w = {} := by
  simp only [State.closeWin, hf, hn, if_true, if_false, win_setWin_same]

/-! ## The issue of records (R249, R259, R368, R369) -/

/-- What follows an issue: a record that was sent lets the command go on, any other outcome settles it. -/
def afterIssue (i q : Nat) (r : Bool × State) (go : State → State) : State :=
  if r.1 then go r.2 else r.2.settleFab i q

section
variable {f i q seq st k : Nat} {c : Cmd} {b : List Byte} {r : Issue} {s s₀ s₁ : State}

theorem trailSignal_none (hc : s.cmd? i q seq = some c) (h : c.remoteSig = false ∨ c.sigIssued = true) :
    s.trailSignal i q seq = s.allIssued i q seq := by
  rw [State.trailSignal, hc]
  exact if_pos (by simpa using h)

/-- A command's one record goes while it is neither issued nor failed and its entry grants the right; sent, the trailing
signal follows. -/
theorem issueOne_issues {entry right kind op off : Nat} {flag : Bool} {data : List Byte} (hc : s.cmd? i q seq = some c)
    (hi : c.issuedAll = false) (hp : c.progress ≠ 1) (hs : c.status = 0)
    (hk : (s.chkEntry i entry (some right) dtA).1 = 0)
    (hr : s.issueRec (.cmd i q seq) (s.rwin entry) kind 0 op flag off 0 data 0 = (r, s₁)) :
    s.issueOne i q seq entry right kind op flag off data =
      afterIssue i q (s₁.tookIssue i q seq r dtA) fun t =>
        (t.modCmd i q seq fun x => { x with progress := 1 }).trailSignal i q seq := by
  simp only [State.issueOne, hc, hi, hp, hs, hk, hr, afterIssue]
  rcases s₁.tookIssue i q seq r dtA with ⟨_ | _, t⟩ <;> rfl

theorem right_of_read (ho : c.opcode = 0x24) : b2n (c.opcode = 0x25) = 0 := by rw [ho]; rfl

theorem right_of_write (ho : c.opcode = 0x25) : b2n (c.opcode = 0x25) = 1 := by rw [ho]; rfl

/-- The source of a command's next lines: those of a write come from its object. -/
def lineFetch (s : State) (i q seq : Nat) (c : Cmd) : Fetch × State :=
  if c.opcode = 0x25 then s.fetchObj i q seq (hIndex (c.f 2 31 0)) (c.f 3 39 0 + 64 * c.progress)
    (64 * min 3 (c.fabLines - c.progress)) else (.got [], s)

/-- The issue of a command's next lines. -/
def lineIssue (s : State) (i q seq : Nat) (c : Cmd) (b : List Byte) : Issue × State :=
  s.issueRec (.cmd i q seq) (s.rwin c.fabEntry) (if c.opcode = 0x25 then fkWrite else fkRead)
    (min 3 (c.fabLines - c.progress) - 1) 0 false (c.f 1 55 16 + 64 * c.progress)
    (if c.opcode = 0x25 ∧ min 3 (c.fabLines - c.progress) = 1 then fullMask else 0) b (64 * c.progress)

variable (hc : s.cmd? i q seq = some c) (hr : c.runs = true)
include hc hr

theorem issueLines_issued (hi : c.issuedAll = true) : State.issueLines i q seq (f + 1) s = s.settleFab i q := by
  simp [State.issueLines, hc, hr, hi]

variable (hi : c.issuedAll = false) (hs : c.status = 0)
include hi hs

theorem issueLines_done (hp : c.fabLines ≤ c.progress) :
    State.issueLines i q seq (f + 1) s = s.trailSignal i q seq := by
  simp [State.issueLines, hc, hr, hi, hs, Nat.sub_eq_zero_of_le hp]

variable (hp : c.progress < c.fabLines)
include hp

theorem issueLines_barred (hk : (s.chkEntry i c.fabEntry (some (b2n (c.opcode = 0x25))) dtA).1 ≠ 0) :
    State.issueLines i q seq (f + 1) s = (s.modCmd i q seq fun x =>
      x.fail (s.chkEntry i c.fabEntry (some (b2n (c.opcode = 0x25))) dtA).1 dtA).allIssued i q seq := by
  have hn : min 3 (c.fabLines - c.progress) ≠ 0 := by omega
  simp [State.issueLines, hc, hr, hi, hs, hn, hk]

variable (hk : (s.chkEntry i c.fabEntry (some (b2n (c.opcode = 0x25))) dtA).1 = 0)
include hk

theorem issueLines_waits (hf : lineFetch s i q seq c = (.wait, s₀)) : State.issueLines i q seq (f + 1) s = s₀ := by
  have hn : min 3 (c.fabLines - c.progress) ≠ 0 := by omega
  unfold lineFetch at hf
  simp [State.issueLines, hc, hr, hi, hs, hn, hk, hf]

theorem issueLines_source_fails (hf : lineFetch s i q seq c = (.fail st k, s₀)) :
    State.issueLines i q seq (f + 1) s = (s₀.modCmd i q seq fun x => x.fail st dtB).allIssued i q seq := by
  have hn : min 3 (c.fabLines - c.progress) ≠ 0 := by omega
  unfold lineFetch at hf
  simp [State.issueLines, hc, hr, hi, hs, hn, hk, hf]

/-- Up to three lines go in one record, and when it was sent the next ones follow. -/
theorem issueLines_issues (hf : lineFetch s i q seq c = (.got b, s₀)) (hl : lineIssue s₀ i q seq c b = (r, s₁)) :
    State.issueLines i q seq (f + 1) s = afterIssue i q (s₁.tookIssue i q seq r dtA) fun t =>
      State.issueLines i q seq f (t.modCmd i q seq fun x =>
        { x with progress := c.progress + min 3 (c.fabLines - c.progress), hostGot := [] }) := by
  have hn : min 3 (c.fabLines - c.progress) ≠ 0 := by omega
  unfold lineFetch at hf
  unfold lineIssue at hl
  simp only [State.issueLines, hc, hr, hi, hs, hn, hk, Bool.not_true, Bool.false_eq_true, ne_eq, not_true_eq_false,
    decide_false, Bool.false_and, Bool.and_eq_true, decide_eq_true_eq, if_false, hf, hl, afterIssue]
  rcases s₁.tookIssue i q seq r dtA with ⟨_ | _, t⟩ <;> rfl

end

/-- Settles O26: each command by its unit, the issue of lines by what stands before it, an issue by its outcome. -/
theorem fabricCommands : Obligations.FabricCommands := by
  refine ⟨
    -- windows and entries
    fun i q seq c n s h hn ht hs => ⟨_, execWinOpen_opens h hn ht, s.drawKey.1, drawKey_ne_zero s, ?_, ?_⟩,
    fun i q seq c n s h hn ht hs => ?_, fun i q seq c n s => execWinOpen_noEntropy,
    fun i q seq c s => execWinOpen_noWindow, fun i q seq c s h hf => ⟨_, execWinClose_free h hf, endCmd_after h rfl _ _⟩,
    fun i q seq c s => execWinClose_closes,
    fun i q seq c n s h hn => ⟨_, execRwinSet_sets h hn, ?_, endCmd_after h rfl _ _⟩,
    fun i q seq c s => execRwinSet_noWindow,
    fun i q seq c s h hs hi => ⟨_, execRwinClear_clears h hs hi, ?_, endCmd_after h rfl _ _⟩,
    fun i q seq c s => execRwinClear_denied,
    -- the record commands in their units
    fun i q seq c s => next_unit_works, fun i q seq c s => next_unit_works, fun i q seq c s => next_unit_works,
    fun i q seq c s => next_unit_works, fun i q seq c s => next_unit_works,
    -- the issue of lines
    fun i q seq st dt s => ⟨rfl, rfl, rfl⟩, fun f i q seq c s => issueLines_issued,
    fun f i q seq c s => issueLines_done, fun f i q seq c s => issueLines_barred,
    fun f i q seq c r s₁ s hc hr hi hs hp ho hk hl => ?_,
    fun f i q seq c b r s₀ s₁ s hc hr hi hs hp ho hk hf hl => ?_,
    fun f i q seq c s₀ s hc hr hi hs hp ho hk hf => ?_,
    fun f i q seq st k c s₀ s hc hr hi hs hp ho hk hf => ?_,
    -- the issue of one record, the trailing signal, and the closing of a window
    fun i q seq c r s₁ s h hi hp hs hk hr => ?_, fun i q seq c r s₁ s h hi hp hs hk hr => ?_,
    fun i q seq c s => trailSignal_none, fun w s => closeWin_inFlight, fun w s => closeWin_idle⟩
  · rw [endCmd_win, if_pos hs, win_setWin_same]
    rfl
  · rw [if_pos hs]
    exact endCmd_after h rfl _ _
  · rw [execWinOpen_opens h hn ht, if_neg (ne_true_of_eq_false hs)]
    rfl
  · rw [endCmd_rwin, rwin_setRwin_same]
    rfl
  · rw [endCmd_rwin, rwin_setRwin_same]
  · exact issueLines_issues hc hr hi hs hp (by rwa [right_of_read ho]) (if_neg (by simp [ho]))
      (by simpa [lineIssue, ho] using hl)
  · exact issueLines_issues hc hr hi hs hp (by rwa [right_of_write ho]) ((if_pos ho).trans hf)
      (by simpa [lineIssue, ho] using hl)
  · exact issueLines_waits hc hr hi hs hp (by rwa [right_of_write ho]) ((if_pos ho).trans hf)
  · exact issueLines_source_fails hc hr hi hs hp (by rwa [right_of_write ho]) ((if_pos ho).trans hf)
  · exact (next_unit_works h).trans
      (congrArg Host.Outcome.next (issueOne_issues (works_cmd h).1 hi hp hs hk hr))
  · exact (next_unit_works h).trans
      (congrArg Host.Outcome.next (issueOne_issues (works_cmd h).1 hi hp hs hk hr))

end Sys2Proof.Proofs

/-! Received records, record timeouts, and the node and routing tables of the fabric (R247, R249, R252 to R257, R261, R264,
R265, R268 to R271). -/

namespace Sys2Proof.Proofs
open Sys2Proof Sys2Proof.Machine

/-! ## Received records (R253, R255, R256) -/

/-- What becomes of a flit: undeliverable where it may not enter, forwarded where it is not for this die, and otherwise
applied, a payload that breaks off being counted and recorded (R249). -/
def received (enters here cut : Bool) (src : Nat) (undeliverable forwarded applied : State) : State :=
  if !enters then undeliverable
  else if !here then forwarded
  else if cut then (applied.fabErr 7 1).record 0x80 srcFabric [(1, 2), (2, src)] else applied

section
variable {f : FlitIn} {x : RxFlit} {recs : List (List Byte)} {cut : Bool} {s s₁ : State}

theorem execFabRequestReceive_down (hu : s.fabUp = false) : exec (.fabRequestReceive f) s = .next s :=
  congrArg Host.Outcome.next (if_pos (by simp [hu]))

theorem execFabResponseReceive_down (hu : s.fabUp = false) : exec (.fabResponseReceive f) s = .next s :=
  congrArg Host.Outcome.next (if_pos (by simp [hu]))

variable (hu : s.fabUp = true)
include hu

theorem execFabRequestReceive_untaken (ht : s.takeFlit f 8 = (none, s₁)) :
    exec (.fabRequestReceive f) s = .next s₁ := by
  refine congrArg Host.Outcome.next ((if_neg (by simp [hu])).trans ?_)
  rw [ht]

theorem execFabResponseReceive_untaken (ht : s.takeFlit f 9 = (none, s₁)) :
    exec (.fabResponseReceive f) s = .next s₁ := by
  refine congrArg Host.Outcome.next ((if_neg (by simp [hu])).trans ?_)
  rw [ht]

/-- A request flit that was taken: undeliverable, forwarded, or its records taken in order. -/
theorem execFabRequestReceive_taken (ht : s.takeFlit f 8 = (some x, s₁)) (hs : splitRecords 15 x.payload = (recs, cut)) :
    exec (.fabRequestReceive f) s = .next (
      received (s₁.mayEnter f x.dst) (s₁.flitHere x.dst (recMember (recs.headD []))) cut x.src
        (s₁.undeliverable 8 x.slot x.dst x.src x.payload) (s₁.forward x recs)
        (recs.foldl (fun s b => s.requestRec x.slot x.src b) s₁)) := by
  refine congrArg Host.Outcome.next ((if_neg (by simp [hu])).trans ?_)
  rw [ht]
  simp only [hs]
  rfl

/-- A response flit that was taken: its records are taken at the one die of its node and member. -/
theorem execFabResponseReceive_taken (ht : s.takeFlit f 9 = (some x, s₁)) (hs : splitRecords 15 x.payload = (recs, cut)) :
    exec (.fabResponseReceive f) s = .next (
      received (s₁.mayEnter f x.dst) (x.dst = s₁.fab.node && recMember (recs.headD []) = s₁.fab.member) cut x.src
        (s₁.undeliverable 9 x.slot x.dst x.src x.payload) (s₁.forward x recs)
        (recs.foldl (fun s b => s.responseRec x.slot x.src b) s₁)) := by
  refine congrArg Host.Outcome.next ((if_neg (by simp [hu])).trans ?_)
  rw [ht]
  simp only [hs]
  rfl

end

/-! ## Timeouts of records and flags (R261, R264, R265) -/

section
variable {tid : Nat} {o : OutRec} {s t : State}

theorem execRecordTimeout_unknown (ho : (s.fab.outs.find? fun o => o.tid = tid) = none) :
    exec (.recordTimeout tid) s = .next s := by
  change execRecordTimeout tid s = _
  rw [execRecordTimeout, ho]

theorem execHoldResend_unknown (ho : (s.fab.outs.find? fun o => o.tid = tid) = none) :
    exec (.holdResend tid) s = .next s := by
  change execHoldResend tid s = _
  rw [execHoldResend, ho]

variable (ho : (s.fab.outs.find? fun o => o.tid = tid) = some o)
include ho

theorem execRecordTimeout_early (hd : s.sys.now < o.deadline) : exec (.recordTimeout tid) s = .next s := by
  change execRecordTimeout tid s = _
  rw [execRecordTimeout, ho]
  exact congrArg Host.Outcome.next (if_pos hd)

/-- A record past its deadline ends with every other record of its pair, and the pair is lost. -/
theorem execRecordTimeout_late {pair : PairKey} {mine : List OutRec} (hp : pair = (o.pairSlot, o.node, o.member))
    (hm : mine = s.fab.outs.filter fun y => (y.pairSlot, y.node, y.member) = pair) (hd : o.deadline ≤ s.sys.now) :
    exec (.recordTimeout tid) s = .next ((mine.foldl (fun s y => s.endRec y stPartnerLost 0 [])
      (({ s with fab := { s.fab with
        coolTids := s.fab.coolTids ++ mine.map fun (y : OutRec) => (y.tid, s.now + 110 * ms) } } : State).fabErr 3
        mine.length)).markLost pair) := by
  subst hp hm
  change execRecordTimeout tid s = _
  rw [execRecordTimeout, ho]
  exact congrArg Host.Outcome.next (if_neg (Nat.not_lt.mpr hd))

theorem execHoldResend_notDue (hd : o.resendAt = 0 ∨ s.now < o.resendAt) :
    exec (.holdResend tid) s = .next s := by
  change execHoldResend tid s = _
  rw [execHoldResend, ho]
  exact congrArg Host.Outcome.next (if_pos (by simpa using hd))

/-- A record whose repetition is due is sent again, or ends where there is no route. -/
theorem execHoldResend_due (h0 : o.resendAt ≠ 0) (hd : o.resendAt ≤ s.now)
    (ht : { s with fab := { s.fab with outs := s.fab.outs.map fun (x : OutRec) =>
      if x.tid = tid then { x with resendAt := 0 } else x } } = t) :
    exec (.holdResend tid) s = .next ((t.sendFab
      { ftype := 8, slot := keySlot o.pairSlot, dst := o.node, member := o.member, src := t.fab.node
        payload := padFlit o.bytes } (recKey o.bytes)).elim ((t.fabErr 1 1).endRec o stNoRoute 0 []) (·.fabErr 4 1)) := by
  subst ht
  change execHoldResend tid s = _
  rw [execHoldResend, ho]
  refine congrArg Host.Outcome.next ((if_neg ?_).trans ?_)
  · simpa [h0] using hd
  · dsimp only
    split
    · next h => rw [h]; rfl
    · next h => rw [h]; rfl

end

/-! ## `FAB_TCLR`, `FAB_NODE` and the routing tables (R257, R268 to R271) -/

/-- The node has records out, held or parked here. -/
def fabBusy (s : State) (n : Nat) : Bool :=
  (s.fab.outs.any fun o => o.node = n) || (s.fab.held.any fun h => h.pair.2.1 = n) || s.fab.parked.any fun p => p.src = n

/-- A node's tallies and lost marks of the plain domain are gone. -/
def tclrDone (s : State) (n : Nat) : State :=
  { s with fab := { s.fab with
      tclrRes := 2
      sent := s.fab.sent.filter fun e => !(decide (e.1.1 = 0) && decide (e.1.2.1 = n))
      applied := s.fab.applied.filter fun e => !(decide (e.1.1 = 0) && decide (e.1.2.1 = n))
      lost := s.fab.lost.filter fun e => !(decide (e.1 = 0) && decide (e.2.1 = n)) } }

theorem execFabTclr_served {r : Req} {v : BitVec 32} {s t : State} (hs : s.served r 0xE0030 = true)
    (hk : kernelReq r = true) (ht : s.dropHeld r = t) :
    exec (.fabTclr r v) s = .next (if fabBusy t (bits v.toNat 15 0) then { t with fab := { t.fab with tclrRes := 3 } }
      else tclrDone t (bits v.toNat 15 0)) := by
  subst ht
  exact congrArg Host.Outcome.next (regWrite_served hs hk)

section
variable {r : Req} {v : BitVec 64} {s t u w : State}

/-- With a slot in use a write of `FAB_NODE` is recorded only. -/
theorem execFabNodeWrite_busy (hs : s.served r 0xE0008 = true) (hm : r.mgmt = true) (ht : s.dropHeld r = t)
    (hb : (allSlots.any fun i => (t.slot i).state ≠ .empty) = true) :
    exec (.fabNodeWrite r v) s = .next (t.record 0x80 srcFabric [(1, 1), (2, fld v 15 0)]) :=
  next_regWriteMgmt_served hs hm ht (if_pos hb)

/-- `FAB_NODE` with its fields written and, at the lead, a new MAP_GEN given out. -/
def nodeMapped (t w : State) (v : BitVec 64) : State :=
  if t.isLead = true ∧ fld v 47 32 ≠ t.fab.mapGen then w.giveRoutes (fld v 47 32) else w

theorem execFabNodeWrite_free (hs : s.served r 0xE0008 = true) (hm : r.mgmt = true) (ht : s.dropHeld r = t)
    (hb : (allSlots.any fun i => (t.slot i).state ≠ .empty) = false)
    (hw : { t with fab := { t.fab with
      node := fld v 15 0, member := fld v 23 16,
      offBits := if fld v 27 24 ≤ 8 then fld v 27 24 else t.fab.offBits } } = w) :
    exec (.fabNodeWrite r v) s = .next (if !(fld v 15 0 ≠ t.fab.node || fld v 23 16 ≠ t.fab.member) then nodeMapped t w v
      else (nodeMapped t w v).forEach ((List.range 32).filter fun l => ((nodeMapped t w v).link l).state = .up)
        State.renegotiate) := by
  subst hw
  refine next_regWriteMgmt_served hs hm ht ((if_neg (ne_true_of_eq_false hb)).trans ?_)
  cases hl : t.isLead with
  | false => simp [nodeMapped, hl]
  | true =>
    by_cases hg : fld v 47 32 = t.fab.mapGen
    · simp [nodeMapped, hl, hg]
    · simp [nodeMapped, hl, hg]

theorem execFabMrdataWrite_served (hs : s.served r 0xE0028 = true) (hm : r.mgmt = true) (ht : s.dropHeld r = t)
    (hu : { t with fab := { t.fab with mroutes := t.fab.mroutes.set {} t.fab.mrsel (routeOf v) } } = u) :
    exec (.fabMrdataWrite r v) s = .next (if u.isLead then u.giveRoutes ((u.fab.mapGen + 1) % 2 ^ 16) else u) := by
  subst hu
  exact next_regWriteMgmt_served hs hm ht rfl

end

/-- Settles O37: a flit by where it may enter and where it belongs, a timeout by what is out and due, a register write by
what it does once served. -/
theorem fabricReceiveAndTables : Obligations.FabricReceiveAndTables := by
  refine ⟨
    -- request flits
    fun f s => execFabRequestReceive_down, fun f s₁ s => execFabRequestReceive_untaken,
    fun f x recs cut s₁ s hu ht hs he => (execFabRequestReceive_taken hu ht hs).trans (by rw [he]; rfl),
    fun f x recs cut s₁ s hu ht hs he hh =>
      (execFabRequestReceive_taken hu ht hs).trans (by rw [he, hh]; rfl),
    fun f x recs cut s₁ s hu ht hs he hh hc =>
      (execFabRequestReceive_taken hu ht hs).trans (by rw [he, hh, hc]; rfl),
    fun f x recs cut s₁ s hu ht hs he hh hc =>
      (execFabRequestReceive_taken hu ht hs).trans (by rw [he, hh, hc]; rfl),
    -- response flits
    fun f s => execFabResponseReceive_down, fun f s₁ s => execFabResponseReceive_untaken,
    fun f x recs cut s₁ s hu ht hs he => (execFabResponseReceive_taken hu ht hs).trans (by rw [he]; rfl),
    fun f x recs cut s₁ s hu ht hs he hh =>
      (execFabResponseReceive_taken hu ht hs).trans (by rw [he, hh]; rfl),
    fun f x recs cut s₁ s hu ht hs he hh hc =>
      (execFabResponseReceive_taken hu ht hs).trans (by rw [he, hh, hc]; rfl),
    fun f x recs cut s₁ s hu ht hs he hh hc =>
      (execFabResponseReceive_taken hu ht hs).trans (by rw [he, hh, hc]; rfl),
    -- timeouts
    fun tid s => execRecordTimeout_unknown, fun tid o s ho => execRecordTimeout_late ho rfl rfl,
    fun tid o s => execRecordTimeout_early, fun tid s => execHoldResend_unknown,
    fun tid o s => execHoldResend_notDue,
    fun tid o t u s ho h0 hd ht hs => (execHoldResend_due ho h0 hd ht).trans (by rw [hs]; rfl),
    fun tid o t s ho h0 hd ht hs => (execHoldResend_due ho h0 hd ht).trans (by rw [hs]; rfl), fun s => rfl,
    -- register writes
    fun r v t s hs hk ht hb => (execFabTclr_served hs hk ht).trans (congrArg Host.Outcome.next (if_pos hb)),
    fun r v t s hs hk ht hb =>
      (execFabTclr_served hs hk ht).trans (congrArg Host.Outcome.next (if_neg (ne_true_of_eq_false hb))),
    fun r v t s => execFabNodeWrite_busy,
    fun r v w t s hs hm ht hb hw hn hk =>
      (execFabNodeWrite_free hs hm ht hb hw).trans (congrArg Host.Outcome.next (if_pos (by simp [hn, hk]))),
    fun r v w t s hs hm ht hb hw hc =>
      (execFabNodeWrite_free hs hm ht hb hw).trans (congrArg Host.Outcome.next (if_neg ?_)),
    fun r v t s hs hm ht => next_regWriteMgmt_served hs hm ht rfl,
    fun r v u t s hs hm ht hu hl =>
      (execFabMrdataWrite_served hs hm ht hu).trans (congrArg Host.Outcome.next (if_neg (ne_true_of_eq_false hl))),
    fun r v u t s hs hm ht hu hl =>
      (execFabMrdataWrite_served hs hm ht hu).trans (congrArg Host.Outcome.next (if_pos hl)),
    fun g s => rfl⟩
  rcases hc with hc | hc
  · simp [hc]
  · simp [hc]

end Sys2Proof.Proofs

/-! The ladder of formats (R300). -/

namespace Sys2Proof.Proofs
open Sys2Proof Sys2Proof.Machine

/-- What `ladderTo` answers is a climb by steps to the next wider format. -/
theorem reflTransGen_of_ladderTo {n f c : Nat} {l : List Nat} (h : ladderTo n f c = some l) :
    Relation.ReflTransGen (fun x y => nextWider x = some y) f c := by
  induction n generalizing f l with
  | zero => simp [ladderTo] at h
  | succ n ih =>
    rw [ladderTo] at h
    split at h
    next heq => rw [heq]
    next =>
      split at h
      next => cases h
      next g hg =>
        obtain ⟨m, hm, -⟩ := Option.map_eq_some_iff.mp h
        exact .head hg (ih hm)

/-- A word with no ladder from its base to its ceiling fails the third check of R277, if not an earlier one. -/
theorem chkArith_ne_zero_of_ladder_none {s : State} {a : BitVec 64} (h : ladder a = none) : s.chkArith a ≠ 0 := by
  simp only [State.chkArith, h, Option.isNone_none, Bool.true_or, if_true]
  split
  · decide
  · split <;> decide

/-- Settles O54: the table is read off `nextWider`, and a word that passes has a ladder, which is a climb to its ceiling. -/
theorem formatLadder : Obligations.FormatLadder := by
  refine ⟨rfl, fun s a ha => ?_⟩
  obtain ⟨l, hl⟩ := Option.ne_none_iff_exists'.mp fun hn => chkArith_ne_zero_of_ladder_none hn ha
  exact Relation.reflTransGen_iff_eq_or_transGen.mp (reflTransGen_of_ladderTo hl)

end Sys2Proof.Proofs

/-! Collectives in flight: flits that arrive, credits, aborts, the start, completion and timeout of steps (R308, R312 to
R317, R322, R324). -/

namespace Sys2Proof.Proofs
open Sys2Proof Sys2Proof.Machine

/-! ## `COL_DATA` flits (R312, R314, R315) -/

section
variable {f : FlitIn} {x : RxFlit} {s s₁ : State}

theorem execColDataReceive_early (h : s.rst.step < 5) : exec (.colDataReceive f) s = .next s :=
  congrArg Host.Outcome.next (if_neg (Nat.not_le.mpr h))

theorem execColDataReceive_taken (h : 5 ≤ s.rst.step) (ht : s.takeFlit f 0x10 = (some x, s₁)) :
    exec (.colDataReceive f) s = .next (s₁.placeCol (flitField f) x) := by
  refine congrArg Host.Outcome.next ((if_pos h).trans ?_)
  rw [ht]

theorem execColDataReceive_untaken (h : 5 ≤ s.rst.step) (ht : s.takeFlit f 0x10 = (none, s₁)) :
    exec (.colDataReceive f) s = .next s₁ := by
  refine congrArg Host.Outcome.next ((if_pos h).trans ?_)
  rw [ht]

end

/-- A flit as the buffer of a receive stream holds it: its run, the offset of its first header, its data (R312). -/
def colEntry (f : RxFlit) : Nat × Nat × List Byte :=
  (leNat ((f.payload.drop 2).take 2), leNat ((f.payload.drop 4).take 2),
    (f.payload.drop 8).take (min 232 (leNat ((f.payload.drop 6).take 2))))

section
variable {link k x : Nat} {f : RxFlit} {s : State}

theorem placeCol_unknown (h : s.rxStep link f.slot (leNat (f.payload.take 2) % 4096) = none) :
    s.placeCol link f = s.strayFlit link := by
  simp only [State.placeCol, h]

variable (h : s.rxStep link f.slot (leNat (f.payload.take 2) % 4096) = some (k, x))
include h

theorem placeCol_quarantined (hq : (s.slot (s.plan k).dslot).state = .quarantined) :
    s.placeCol link f = s.strayFlit link := by
  simp only [State.placeCol, h]
  exact if_pos (by simp [hq])

/-- A flit of the run at hand is not ahead of it, so that only a full buffer could keep it out. -/
theorem placeCol_joins (hq : (s.slot (s.plan k).dslot).state ≠ .quarantined) (hf : (s.plan k).fail = 0)
    (hr : (colEntry f).1 = (s.plan k).run.toNat % 65536)
    (hb : ((s.plan k).srun x).buf.length < stRxBuf ((s.plan k).step x)) :
    s.placeCol link f = (s.modSrun k x fun r => { r with buf := r.buf ++ [colEntry f] }).pump k x := by
  have hahead : ((colEntry f).1 + 65536 - (s.plan k).run.toNat % 65536) % 65536 = 0 := by rw [hr]; omega
  unfold colEntry at hahead
  simp only [State.placeCol, h, hahead]
  rw [if_neg (by simp [hq, hf]), if_neg (by simp), if_neg (Nat.not_le.mpr hb)]
  rfl

end

/-! ## `COL_CTL` flits (R313, R315, R324) -/

/-- The first entry of a payload is an `ABORT`. -/
def leadsAbort (pl : List Byte) : Bool := ((ctlEntries 15 pl).headD (0, 0, 0, 0)).2.2.1 = 2

/-- A `COL_CTL` flit is taken, and its entries act in their order. -/
def ctlTaken (s : State) (f : FlitIn) (pl : List Byte) : State :=
  match s.takeFlit f 0x11 with
  | (some x, s) => (ctlEntries 15 pl).foldl (fun s e => s.takeEntry (flitField f) x.slot e) s
  | (none, s) => s

section
variable {f : FlitIn} {pl : List Byte} {x : RxFlit} {abort : Bool} {s s₁ : State}

theorem takeColCtl_absent (hp : s.peekFlit f 0x11 = none) : s.takeColCtl f abort = s := by
  simp only [State.takeColCtl, hp]

variable (hp : s.peekFlit f 0x11 = some pl)
include hp

/-- From step 5 on a flit is taken by the command that its first entry asks for. -/
theorem takeColCtl_peeked :
    s.takeColCtl f abort = if 5 ≤ s.rst.step && leadsAbort pl == abort then ctlTaken s f pl else s := by
  cases he : ctlEntries 15 pl with
  | nil => simp only [State.takeColCtl, leadsAbort, ctlTaken, hp, he, List.headD_nil] <;> rfl
  | cons e es => simp only [State.takeColCtl, leadsAbort, ctlTaken, hp, he, List.headD_cons] <;> rfl

theorem takeColCtl_left (h : s.rst.step < 5 ∨ leadsAbort pl = !abort) : s.takeColCtl f abort = s := by
  refine (takeColCtl_peeked hp).trans (if_neg ?_)
  rcases h with h | h
  · simp [h]
  · simp [h]

theorem takeColCtl_taken (h5 : 5 ≤ s.rst.step) (ha : leadsAbort pl = abort) (ht : s.takeFlit f 0x11 = (some x, s₁)) :
    s.takeColCtl f abort = (ctlEntries 15 pl).foldl (fun s e => s.takeEntry (flitField f) x.slot e) s₁ := by
  rw [takeColCtl_peeked hp, if_pos (by simp [h5, ha]), ctlTaken, ht]

end

section
variable {link stream v run k x : Nat} {slot : Option Nat} {s : State}

theorem takeCredit_unknown (h : s.txStep link slot stream = none) : s.takeCredit link slot stream v = s := by
  simp only [State.takeCredit, h]

theorem takeCredit_old (h : s.txStep link slot stream = some (k, x)) (hv : v ≤ ((s.plan k).srun x).freedLast) :
    s.takeCredit link slot stream v = s := by
  simp only [State.takeCredit, h]
  exact if_pos hv

/-- A step that was not stalled adds no time to the run's `CREDIT_STALL`. -/
theorem takeCredit_notes (h : s.txStep link slot stream = some (k, x)) (hv : ((s.plan k).srun x).freedLast < v)
    (h0 : ((s.plan k).srun x).stallAt = 0) :
    s.takeCredit link slot stream v =
      (s.setPlan k ((s.plan k).setSrun x { (s.plan k).srun x with freedLast := v, stallAt := 0 })).pump k x := by
  simp only [State.takeCredit, h, h0]
  exact if_neg (Nat.not_le.mpr hv)

theorem takeAbort_unknown (h : s.rxStep link slot stream = none) : s.takeAbort link slot stream run = s := by
  simp only [State.takeAbort, h]

theorem takeAbort_ends (h : s.rxStep link slot stream = some (k, x)) (hl : (s.plan k).live x = true)
    (hr : run = (s.plan k).run.toNat % 65536) :
    s.takeAbort link slot stream run = s.endRun k stColPeerAbort dtNone := by
  simp only [State.takeAbort, h]
  exact if_pos (by simp [hl, hr])

theorem takeAbort_passed (h : s.rxStep link slot stream = some (k, x))
    (hn : (s.plan k).live x = false ∨ run ≠ (s.plan k).run.toNat % 65536) : s.takeAbort link slot stream run = s := by
  simp only [State.takeAbort, h]
  exact if_neg (by simpa [imp_iff_not_or] using hn)

end

/-! ## `COL_CREDIT_SEND` and `COL_FLUSH_TIMER` (R315, R317) -/

section
variable {plan step : Nat} {s : State}

/-- FREED has moved by a quarter of the buffer, or the last entry is 1 µs old. -/
def creditDue (s : State) (w : StepW) (r : StepRun) : Prop :=
  stRxBuf w ≤ 4 * ((r.freed + 2 ^ 64 - r.freedSent) % 2 ^ 64) ∨ r.creditAt + us ≤ s.now

theorem execColCreditSend_sends (hp : (s.plan plan).loaded = true) (hx : step < (s.plan plan).steps.length)
    (hr : stRecv ((s.plan plan).step step) = true)
    (hf : ((s.plan plan).srun step).freed ≠ ((s.plan plan).srun step).freedSent)
    (hd : creditDue s ((s.plan plan).step step) ((s.plan plan).srun step)) :
    exec (.colCreditSend plan step) s =
      .next ((s.modSrun plan step fun r => { r with freedSent := r.freed, creditAt := s.now }).sendColCtl
        (stRxLink ((s.plan plan).step step)) (s.plan plan).dslot
        ((s.plan plan).peer (stRxLink ((s.plan plan).step step))) (stRxStream ((s.plan plan).step step))
        (s.plan plan).run.toNat 1 ((s.plan plan).srun step).freed) :=
  congrArg Host.Outcome.next (if_pos (by simpa [creditDue, hp, hx, hr, hf] using hd))

theorem execColCreditSend_unchanged (hf : ((s.plan plan).srun step).freed = ((s.plan plan).srun step).freedSent) :
    exec (.colCreditSend plan step) s = .next s :=
  congrArg Host.Outcome.next (if_neg (by simp [hf]))

theorem execColCreditSend_early (hd : ¬ creditDue s ((s.plan plan).step step) ((s.plan plan).srun step)) :
    exec (.colCreditSend plan step) s = .next s := by
  refine congrArg Host.Outcome.next (if_neg fun h => hd ?_)
  rw [Bool.and_eq_true, Bool.or_eq_true, decide_eq_true_eq, decide_eq_true_eq] at h
  exact h.2

theorem execColFlushTimer_sends (hl : (s.plan plan).live step = true)
    (hb : ((s.plan plan).srun step).txBytes.isEmpty = false) (ht : ((s.plan plan).srun step).txAt + 34 ≤ s.now) :
    exec (.colFlushTimer plan step) s = .next (s.sendColFlit plan step) :=
  congrArg Host.Outcome.next (if_pos (by simp [hl, hb, ht]))

theorem execColFlushTimer_passed (h : (s.plan plan).live step = false ∨
    ((s.plan plan).srun step).txBytes.isEmpty = true ∨ s.now < ((s.plan plan).srun step).txAt + 34) :
    exec (.colFlushTimer plan step) s = .next s := by
  refine congrArg Host.Outcome.next (if_neg ?_)
  rcases h with h | h | h
  · simp [h]
  · simp [h]
  · simp [h]

end

/-! ## `STEP_START` (R308) -/

/-- A step of a running plan without failure may start, and has its wait met. -/
def mayStart (p : Plan) (x : Nat) : Bool :=
  p.running && p.fail = 0 && x < p.steps.length && p.startable x && (!stWaits (p.step x) || (p.srun x).waitMet)

theorem mayStart_iff {p : Plan} {x : Nat} : mayStart p x = true ↔ p.running = true ∧ p.fail = 0 ∧ x < p.steps.length ∧
    p.startable x = true ∧ (stWaits (p.step x) = false ∨ (p.srun x).waitMet = true) := by
  simp [mayStart, and_assoc]

section
variable {k f x : Nat} {s : State}

theorem startChain_ends (h : mayStart (s.plan k) x = false) : State.startChain k (f + 1) x s = s := by
  rw [State.startChain]
  exact if_neg (ne_true_of_eq_false h)

theorem startChain_starts (h : mayStart (s.plan k) x = true) :
    State.startChain k (f + 1) x s =
      if stWithPrev ((((s.startStep k x).registerSteps k).plan k).step (x + 1)) then
        State.startChain k f (x + 1) ((s.startStep k x).registerSteps k)
      else (s.startStep k x).registerSteps k := by
  rw [State.startChain]
  exact if_pos h

end

/-! ## `STEP_COMPLETE` (R322, R326) -/

/-- A step is marked as completed. -/
def stepMarked (s : State) (plan step : Nat) : State := s.modSrun plan step fun r => { r with stage := .completed }

/-- The object that a step's SIGNAL word names, once the step is marked. -/
def signalGate (s : State) (plan step : Nat) : Nat :=
  (stepMarked s plan step).gateObj (s.plan plan) (stSignal ((s.plan plan).step step))

/-- A completed step signals: its fence, if it is still one, takes RUN + DELTA. -/
def stepSignalled (s : State) (plan step : Nat) : State :=
  if (stSignal ((s.plan plan).step step)).getLsbD 21 &&
      ((stepMarked s plan step).syncObj (signalGate s plan step)).kind = .fence then
    (stepMarked s plan step).signalObj (signalGate s plan step)
      ((s.plan plan).run + gateDelta (stSignal ((s.plan plan).step step)))
  else stepMarked s plan step

section
variable {plan step : Nat} {s : State}

theorem execStepComplete_undone (h : s.stepDone (s.plan plan) step = false) :
    exec (.stepComplete plan step) s = .next s :=
  congrArg Host.Outcome.next (if_neg (ne_true_of_eq_false h))

theorem execStepComplete_done (h : s.stepDone (s.plan plan) step = true) :
    exec (.stepComplete plan step) s = .next (((stepSignalled s plan step).registerSteps plan).settleRun plan) :=
  congrArg Host.Outcome.next (if_pos h)

theorem stepSignalled_fence (hw : (stSignal ((s.plan plan).step step)).getLsbD 21 = true)
    (hk : ((stepMarked s plan step).syncObj (signalGate s plan step)).kind = .fence) :
    stepSignalled s plan step = (stepMarked s plan step).signalObj (signalGate s plan step)
      ((s.plan plan).run + gateDelta (stSignal ((s.plan plan).step step))) :=
  if_pos (by simp only [hw, hk, decide_true, Bool.and_true])

/-- A step without a SIGNAL, or one whose object has left its kind, signals nothing. -/
theorem stepSignalled_none (h : (stSignal ((s.plan plan).step step)).getLsbD 21 = false ∨
    ((stepMarked s plan step).syncObj (signalGate s plan step)).kind ≠ .fence) :
    stepSignalled s plan step = stepMarked s plan step := by
  refine if_neg ?_
  rcases h with h | h
  · simp only [h, Bool.false_and, Bool.false_eq_true, not_false_eq_true]
  · simp only [h, decide_false, Bool.and_false, Bool.false_eq_true, not_false_eq_true]

end

/-! ## `RUN_TIMEOUT` (R324) -/

/-- A packed block of a step has had no credit for TIMEOUT. -/
def sendOverdue (s : State) (plan step : Nat) : Bool :=
  stSend ((s.plan plan).step step) && ((s.plan plan).srun step).stallAt ≠ 0 &&
    ((s.plan plan).srun step).stallAt - 1 + phTimeout (s.plan plan).header ≤ s.sys.now

/-- A receiving step has lacked a block for TIMEOUT. -/
def recvOverdue (s : State) (plan step : Nat) : Bool :=
  stRecv ((s.plan plan).step step) && ((s.plan plan).srun step).blocks < stBlocks ((s.plan plan).step step) &&
    (((s.plan plan).srun step).nextBlk ((s.plan plan).run.toNat % 65536)).isNone &&
    ((s.plan plan).srun step).activeAt + phTimeout (s.plan plan).header ≤ s.sys.now

/-- A run ends with its partner lost: the peer of a global link, or behind link 32 or above the die of the own node. -/
def partnerLost (s : State) (plan l : Nat) : State :=
  if l < 32 then (s.endRun plan stPartnerLost dtNone).memberLost (some (s.plan plan).dslot) ((s.plan plan).peer l) 0
  else (s.endRun plan stPartnerLost dtNone).memberLost (some (s.plan plan).dslot)
    (s.endRun plan stPartnerLost dtNone).fab.node (l - 32)

section
variable {plan step l : Nat} {s : State}

theorem sendOverdue_iff : sendOverdue s plan step = true ↔ stSend ((s.plan plan).step step) = true ∧
    ((s.plan plan).srun step).stallAt ≠ 0 ∧
    ((s.plan plan).srun step).stallAt - 1 + phTimeout (s.plan plan).header ≤ s.sys.now := by
  simp [sendOverdue, and_assoc]

theorem recvOverdue_iff : recvOverdue s plan step = true ↔ stRecv ((s.plan plan).step step) = true ∧
    ((s.plan plan).srun step).blocks < stBlocks ((s.plan plan).step step) ∧
    (((s.plan plan).srun step).nextBlk ((s.plan plan).run.toNat % 65536)).isNone = true ∧
    ((s.plan plan).srun step).activeAt + phTimeout (s.plan plan).header ≤ s.sys.now := by
  simp [recvOverdue, and_assoc]

theorem sendOverdue_eq_false (h : stSend ((s.plan plan).step step) = false ∨ ((s.plan plan).srun step).stallAt = 0 ∨
    s.sys.now < ((s.plan plan).srun step).stallAt - 1 + phTimeout (s.plan plan).header) :
    sendOverdue s plan step = false := by
  refine Bool.eq_false_iff.mpr fun ho => ?_
  obtain ⟨h1, h2, h3⟩ := sendOverdue_iff.mp ho
  rcases h with h | h | h
  · exact absurd h1 (ne_true_of_eq_false h)
  · exact h2 h
  · exact Nat.not_le.mpr h h3

theorem recvOverdue_eq_false (h : stRecv ((s.plan plan).step step) = false ∨
    stBlocks ((s.plan plan).step step) ≤ ((s.plan plan).srun step).blocks ∨
    (((s.plan plan).srun step).nextBlk ((s.plan plan).run.toNat % 65536)).isNone = false ∨
    s.sys.now < ((s.plan plan).srun step).activeAt + phTimeout (s.plan plan).header) :
    recvOverdue s plan step = false := by
  refine Bool.eq_false_iff.mpr fun ho => ?_
  obtain ⟨h1, h2, h3, h4⟩ := recvOverdue_iff.mp ho
  rcases h with h | h | h | h
  · exact absurd h1 (ne_true_of_eq_false h)
  · exact Nat.not_le.mpr h2 h
  · exact absurd h3 (ne_true_of_eq_false h)
  · exact Nat.not_le.mpr h h4

theorem execRunTimeout_dead (h : (s.plan plan).live step = false) : exec (.runTimeout plan step) s = .next s :=
  congrArg Host.Outcome.next (if_neg (by simp [h]))

theorem execRunTimeout_early (ht : sendOverdue s plan step = false) (hr : recvOverdue s plan step = false) :
    exec (.runTimeout plan step) s = .next s := by
  refine congrArg Host.Outcome.next (if_neg ?_)
  change ¬((s.plan plan).live step && (recvOverdue s plan step || sendOverdue s plan step)) = true
  simp [ht, hr]

theorem execRunTimeout_send (h : (s.plan plan).live step = true) (ht : sendOverdue s plan step = true) :
    exec (.runTimeout plan step) s = .next (partnerLost s plan (stTxLink ((s.plan plan).step step))) := by
  change Host.Outcome.next (if (s.plan plan).live step && (recvOverdue s plan step || sendOverdue s plan step) then
    partnerLost s plan (if sendOverdue s plan step then _ else _) else s) = _
  rw [if_pos (by simp [h, ht]), if_pos ht]

theorem execRunTimeout_recv (h : (s.plan plan).live step = true) (ht : sendOverdue s plan step = false)
    (hr : recvOverdue s plan step = true) :
    exec (.runTimeout plan step) s = .next (partnerLost s plan (stRxLink ((s.plan plan).step step))) := by
  change Host.Outcome.next (if (s.plan plan).live step && (recvOverdue s plan step || sendOverdue s plan step) then
    partnerLost s plan (if sendOverdue s plan step then _ else _) else s) = _
  rw [if_pos (by simp [h, hr]), if_neg (ne_true_of_eq_false ht)]

end

/-- Settles O38: arrivals by the step they find, starts by what lets a step start, ends by what is done or overdue. -/
theorem collectiveProgress : Obligations.CollectiveProgress := by
  refine ⟨
    -- arrivals
    fun f x s₁ s => execColDataReceive_taken, fun f s₁ s => execColDataReceive_untaken,
    fun link f s => placeCol_unknown, fun f s => execColDataReceive_early,
    fun f pl x s₁ s h5 hp ha ht => congrArg Host.Outcome.next (takeColCtl_taken hp h5 ha ht),
    fun f pl s hp h => congrArg Host.Outcome.next (takeColCtl_left hp h),
    fun f s hp => congrArg Host.Outcome.next (takeColCtl_absent hp),
    fun f pl x s₁ s h5 hp ha ht => congrArg Host.Outcome.next (takeColCtl_taken hp h5 ha ht),
    fun f pl s hp h => congrArg Host.Outcome.next (takeColCtl_left hp h),
    fun f s hp => congrArg Host.Outcome.next (takeColCtl_absent hp),
    -- timers of the streams
    fun plan step s => execColCreditSend_sends, fun plan step s => execColCreditSend_unchanged,
    fun plan step s hq ht => execColCreditSend_early (not_or.mpr ⟨Nat.not_le.mpr hq, Nat.not_le.mpr ht⟩),
    fun plan step s => execColFlushTimer_sends, fun plan step s => execColFlushTimer_passed,
    -- entries
    fun link slot e s h => if_pos h, fun link slot e s h => if_neg h,
    fun link stream v slot s => takeCredit_unknown, fun link stream v k x slot s => takeCredit_old,
    fun link stream v k x slot s => takeCredit_notes, fun link stream run slot s => takeAbort_unknown,
    fun link stream run k x slot s => takeAbort_ends, fun link stream run k x slot s => takeAbort_passed,
    fun link k x f s => placeCol_joins, fun link k x f s => placeCol_quarantined,
    -- starts
    fun plan step s => rfl,
    fun k f x s hr => startChain_ends ?_,
    fun k f x s hr h0 hx hs hw hp => (startChain_starts (mayStart_iff.mpr ⟨hr, h0, hx, hs, hw⟩)).trans
      (if_neg (ne_true_of_eq_false hp)),
    fun k f x s hr h0 hx hs hw hp => (startChain_starts (mayStart_iff.mpr ⟨hr, h0, hx, hs, hw⟩)).trans (if_pos hp),
    fun k f x s h => startChain_ends ?_,
    -- completions
    fun plan step s hd hw hk => ?_, fun plan step s hd hw => ?_, fun plan step s hd hw hk => ?_,
    fun plan step s => execStepComplete_undone,
    -- timeouts
    fun plan step l s hl h1 h2 h3 he hlt => ?_, fun plan step l s hl h1 h2 h3 he hle => ?_,
    fun plan step l s hl hn h1 h2 h3 h4 he hlt => ?_, fun plan step l s hl hn h1 h2 h3 h4 he hle => ?_,
    fun plan step s ht hr => execRunTimeout_early (sendOverdue_eq_false ht) (recvOverdue_eq_false hr),
    fun plan step s => execRunTimeout_dead⟩
  · simp [mayStart, hr]
  · rcases h with h | h | ⟨hw, hm⟩
    · simp [mayStart, h]
    · simp [mayStart, h]
    · simp [mayStart, hw, hm]
  · rw [execStepComplete_done hd, stepSignalled_none (.inr hk)]; rfl
  · rw [execStepComplete_done hd, stepSignalled_none (.inl hw)]; rfl
  · rw [execStepComplete_done hd, stepSignalled_fence hw hk]; rfl
  · subst he
    exact (execRunTimeout_send hl (sendOverdue_iff.mpr ⟨h1, h2, h3⟩)).trans (congrArg Host.Outcome.next (if_pos hlt))
  · subst he
    exact (execRunTimeout_send hl (sendOverdue_iff.mpr ⟨h1, h2, h3⟩)).trans
      (congrArg Host.Outcome.next (if_neg (Nat.not_lt.mpr hle)))
  · subst he
    exact (execRunTimeout_recv hl (sendOverdue_eq_false hn) (recvOverdue_iff.mpr ⟨h1, h2, h3, h4⟩)).trans
      (congrArg Host.Outcome.next (if_pos hlt))
  · subst he
    exact (execRunTimeout_recv hl (sendOverdue_eq_false hn) (recvOverdue_iff.mpr ⟨h1, h2, h3, h4⟩)).trans
      (congrArg Host.Outcome.next (if_neg (Nat.not_lt.mpr hle)))

end Sys2Proof.Proofs

/-! The plan commands and the format commands at work in their units (R298, R304, R309 to R311, R321, R358, R371, R372). -/

namespace Sys2Proof.Proofs
open Sys2Proof Sys2Proof.Machine

/-! ## `PLAN_LOAD` (R305, R309, R310, R358) -/

/-- The steps of a plan's descriptor, eight words each. -/
def stepsOf (n : Nat) (b : List Byte) : List StepW := (List.range n).map fun k => ((wordsOf b).drop (8 * k)).take 8

/-- The steps behind a header that was read and accepted are read, and the plan is judged. -/
def stepsRead (s : State) (i q seq : Nat) (c : Cmd) (h : HdrW) : State :=
  match s.fetchObj i q seq (hIndex (c.f 1 31 0)) (c.f 2 39 0 + 64) (64 * hf h 0 30 20) with
  | (.wait, s) => s
  | (.fail st _, s) => s.failLoad i q seq planHdrIx (st, dtDesc)
  | (.got b, s) => s.planAccept i q seq h (stepsOf (hf h 0 30 20) b)

section
variable {i q seq st n : Nat} {c : Cmd} {b : List Byte} {s s₁ : State} (h : s.works i q seq 0x30 c = true)
include h

theorem execPlanLoad_waits (hg : s.fetchObj i q seq (hIndex (c.f 1 31 0)) (c.f 2 39 0) 64 = (.wait, s₁)) :
    exec (.planLoad i q seq) s = .next s₁ := by
  refine (next_unit_works h).trans ?_
  simp only [hg]

theorem execPlanLoad_fails (hg : s.fetchObj i q seq (hIndex (c.f 1 31 0)) (c.f 2 39 0) 64 = (.fail st n, s₁)) :
    exec (.planLoad i q seq) s = .next (s₁.failLoad i q seq planHdrIx (st, dtDesc)) := by
  refine (next_unit_works h).trans ?_
  simp only [hg]

variable (hg : s.fetchObj i q seq (hIndex (c.f 1 31 0)) (c.f 2 39 0) 64 = (.got b, s₁))
include hg

theorem execPlanLoad_refused (hh : hdrOk (s₁.slice i).level (wordsOf b) = false) :
    exec (.planLoad i q seq) s = .next (s₁.failLoad i q seq planHdrIx (stPlanFormat, dtDesc)) := by
  refine (next_unit_works h).trans ?_
  simp only [hg]
  exact congrArg Host.Outcome.next (if_pos (by simp [hh]))

variable (hh : hdrOk (s₁.slice i).level (wordsOf b) = true)
include hh

theorem execPlanLoad_outside
    (hr : (s₁.obj i (hIndex (c.f 1 31 0))).size < c.f 2 39 0 + 64 * (hf (wordsOf b) 0 30 20 + 1)) :
    exec (.planLoad i q seq) s = .next (s₁.failLoad i q seq planHdrIx (stObjRange, dtDesc)) := by
  refine (next_unit_works h).trans ?_
  simp only [hg]
  exact congrArg Host.Outcome.next ((if_neg (by simp [hh])).trans (if_pos hr))

theorem execPlanLoad_reads
    (hr : c.f 2 39 0 + 64 * (hf (wordsOf b) 0 30 20 + 1) ≤ (s₁.obj i (hIndex (c.f 1 31 0))).size) :
    exec (.planLoad i q seq) s = .next (stepsRead s₁ i q seq c (wordsOf b)) := by
  refine (next_unit_works h).trans ?_
  simp only [hg]
  exact congrArg Host.Outcome.next ((if_neg (by simp [hh])).trans (if_neg (Nat.not_lt.mpr hr)))

end

section
variable {i q seq k st dt p n : Nat} {c : Cmd} {b : List Byte} {h : HdrW} {steps : List StepW} {s s₁ : State}

theorem stepsRead_waits
    (hg : s.fetchObj i q seq (hIndex (c.f 1 31 0)) (c.f 2 39 0 + 64) (64 * hf h 0 30 20) = (.wait, s₁)) :
    stepsRead s i q seq c h = s₁ := by
  rw [stepsRead, hg]

theorem stepsRead_fails
    (hg : s.fetchObj i q seq (hIndex (c.f 1 31 0)) (c.f 2 39 0 + 64) (64 * hf h 0 30 20) = (.fail st n, s₁)) :
    stepsRead s i q seq c h = s₁.failLoad i q seq planHdrIx (st, dtDesc) := by
  rw [stepsRead, hg]

theorem stepsRead_judges
    (hg : s.fetchObj i q seq (hIndex (c.f 1 31 0)) (c.f 2 39 0 + 64) (64 * hf h 0 30 20) = (.got b, s₁)) :
    stepsRead s i q seq c h = s₁.planAccept i q seq h (stepsOf (hf h 0 30 20) b) := by
  rw [stepsRead, hg]

/-- A failing check of a list makes the first failure of the list a failure. -/
theorem firstFailing_ne_zero {l : List (Nat × Chk)} {e d : Nat × Chk} (he : e ∈ l) (hn : e.2.1 ≠ 0) :
    ((l.find? fun e => e.2.1 ≠ 0).getD d).2.1 ≠ 0 := by
  have hf : (l.find? fun e => e.2.1 ≠ 0).isSome := List.find?_isSome.mpr ⟨e, he, decide_eq_true hn⟩
  obtain ⟨a, ha⟩ := Option.isSome_iff_exists.mp hf
  have hp := List.find?_some ha
  rw [ha]
  exact of_decide_eq_true hp

/-- The last check of R309 is the one of the resources, whose first row asks for a plan slot. -/
theorem chkPlan_ne_zero_of_freePlan_none (hp : s.freePlan = none) : (s.chkPlan i h steps).2.1 ≠ 0 := by
  have hres : s.chkResources i (s.slice i).dslot h steps = stPlanNoSlot := if_pos (by rw [hp]; rfl)
  exact firstFailing_ne_zero (List.mem_of_getElem? (i := 7) rfl) (hres ▸ by decide)

theorem planAccept_fails (hk : s.chkPlan i h steps = (k, (st, dt))) (hs : st ≠ 0) :
    s.planAccept i q seq h steps = s.failLoad i q seq k (st, dt) := by
  rw [State.planAccept, hk]
  exact if_pos hs

/-- A plan is loaded, and its command ends well with the handle and the first fence. -/
def planAccepted (s : State) (i q seq p : Nat) (h : HdrW) (steps : List StepW) : State :=
  (s.loadPlan i p h steps).endCmd i q seq 0 (BitVec.ofNat 64
    (planHandleOf p ((s.loadPlan i p h steps).plan p).gen + 2 ^ 32 * ((s.loadPlan i p h steps).plan p).fence0))

theorem planAccept_loads (hk : s.chkPlan i h steps = (k, (0, dt))) (hp : s.freePlan = some p) :
    s.planAccept i q seq h steps = if s.overDemand i h steps then
      (planAccepted s i q seq p h steps).modCmd i q seq fun c => c.flag dtPlanBwWarn
      else planAccepted s i q seq p h steps := by
  rw [State.planAccept, hk, hp]
  exact if_neg (not_not.mpr rfl)

end

/-! ## `PLAN_RUN` and `PLAN_UNLOAD` (R304, R311, R321, R322) -/

section
variable {i q seq k : Nat} {c : Cmd} {s : State}

theorem settleRun_completed (hr : (s.plan k).running = true) (hf : (s.plan k).fail = 0)
    (ha : ((s.plan k).indices.all fun x => ((s.plan k).srun x).stage = .completed) = true) :
    s.settleRun k = s.modCmd ((s.plan k).runQ / 2 ^ 18) ((s.plan k).runQ % 2 ^ 18) (s.plan k).runSeq
      fun c => if c.runs then c.finishOk (s.plan k).elementsDone else c :=
  if_pos (by rw [hr, hf, ha]; rfl)

theorem execPlanUnload_fails {r : Chk} (h : s.works i q seq 0x32 c = true) (hk : s.chkPlanUnload i c = r)
    (hn : r.1 ≠ 0) : exec (.planUnload i q seq) s = .next (s.failCmd i q seq r.1 r.2 0) := by
  subst hk
  exact (next_unit_works h).trans (congrArg Host.Outcome.next (endWith_fails hn))

theorem execPlanUnload_ok (h : s.works i q seq 0x32 c = true) (hk : s.chkPlanUnload i c = chkOk) :
    exec (.planUnload i q seq) s = .next ((s.unloadPlan (bits (c.f 1 31 0) 7 0)).endCmd i q seq 0) :=
  (next_unit_works h).trans (congrArg Host.Outcome.next (endWith_ok (congrArg Prod.fst hk)))

theorem chkPlanUnload_unknown (hp : s.planOf i (c.f 1 31 0) = none) : s.chkPlanUnload i c = (stPlanInvalid, dtA) := by
  rw [State.chkPlanUnload, hp]

theorem chkPlanUnload_known (hp : s.planOf i (c.f 1 31 0) = some k) :
    s.chkPlanUnload i c = if (s.plan k).running then (stPlanBusy, dtA) else chkOk := by
  simp only [State.chkPlanUnload, hp]
  cases (s.plan k).running with
  | false => rfl
  | true => rfl

end

/-! ## The descriptor of a format command (R371) -/

section
variable {i q seq : Nat} {c : Cmd} {b : List Byte} {s s₁ : State} (hc : s.cmd? i q seq = some c)
include hc

theorem fmtLoad_done (hd : c.desc.isEmpty = false) : s.fmtLoad i q seq = s := by
  rw [State.fmtLoad, hc]
  exact if_pos (by simp [hd])

theorem fmtLoad_refused (hr : c.runs = true) (hd : c.desc.isEmpty = true)
    (hg : s.fetchObj i q seq (hIndex (c.f 1 31 0)) (c.f 2 39 0) 64 = (.got b, s₁))
    (hk : (s₁.chkFmt i (c.opcode = 0x33) (wordsOf b)).1 ≠ 0) :
    s.fmtLoad i q seq = s₁.failCmd i q seq (s₁.chkFmt i (c.opcode = 0x33) (wordsOf b)).1
      (s₁.chkFmt i (c.opcode = 0x33) (wordsOf b)).2 0 := by
  simp only [State.fmtLoad, hc, hg]
  exact (if_neg (by simp [hr, hd])).trans (if_pos hk)

end

/-! ## The end of a format command (R302, R372) -/

section
variable {i q seq : Nat} {c : Cmd} {s : State} (hc : s.cmd? i q seq = some c)
include hc

theorem fmtFinish_noStats (h0 : dsStats c.desc = 0) : s.fmtFinish i q seq = s.modCmd i q seq Cmd.fmtEnd := by
  rw [State.fmtFinish, hc]
  exact if_pos h0

theorem fmtFinish_cmd (h0 : dsStats c.desc = 0) : (s.fmtFinish i q seq).cmd? i q seq = some c.fmtEnd := by
  rw [fmtFinish_noStats hc h0, modCmd_cmd _ _ _ _ _ fmtEnd_seq, hc]
  rfl

end

/-! ## Group after group (R298, R372) -/

/-- One group of the format command at hand: the step that goes through, or none for one that waits. -/
def fmtStep (s : State) (i q seq : Nat) (c : Cmd) : Option State × State :=
  if c.opcode = 0x33 then s.quantStep i q seq c else s.dequantStep i q seq c

section
variable {f i q seq : Nat} {c : Cmd} {s s₁ u : State} (hc : s.cmd? i q seq = some c) (hr : c.runs = true)
  (hd : c.desc.isEmpty = false)
include hc hr hd

theorem fmtRun_finishes (hp : c.fixed ≠ 0 ∨ dsCount c.desc ≤ c.progress) :
    State.fmtRun i q seq (f + 1) s = s.fmtFinish i q seq := by
  rw [State.fmtRun, hc]
  simp [hr, hd, hp]

variable (h0 : c.fixed = 0) (hp : c.progress < dsCount c.desc)
include h0 hp

theorem fmtRun_next (hs : fmtStep s i q seq c = (some s₁, u)) :
    State.fmtRun i q seq (f + 1) s = State.fmtRun i q seq f s₁ := by
  unfold fmtStep at hs
  rw [State.fmtRun, hc]
  simp [hr, hd, h0, hp, hs]

theorem fmtRun_waits (hs : fmtStep s i q seq c = (none, s₁)) : State.fmtRun i q seq (f + 1) s = s₁ := by
  unfold fmtStep at hs
  rw [State.fmtRun, hc]
  simp [hr, hd, h0, hp, hs]

end

/-! ## The format commands in their unit -/

section
variable {i q seq : Nat} {c d : Cmd} {s s₁ u : State}

theorem execQuantise_works (h : s.works i q seq 0x33 c = true) :
    exec (.quantise i q seq) s = .next (s.fmtWork i q seq) :=
  next_unit_works h

theorem execDequantise_works (h : s.works i q seq 0x34 c = true) :
    exec (.dequantise i q seq) s = .next (s.fmtWork i q seq) :=
  next_unit_works h

section
variable (hc : s.cmd? i q seq = some c) (hr : c.runs = true) (hd : c.desc.isEmpty = false)
include hc hd

/-- A command that has read its descriptor has steps enough for its groups and its end. -/
theorem fmtWork_read : s.fmtWork i q seq = State.fmtRun i q seq (dsCount c.desc / 32 + 2) s := by
  simp only [State.fmtWork, fmtLoad_done hc hd, hc]

include hr

theorem fmtWork_finishes (hp : c.fixed ≠ 0 ∨ dsCount c.desc ≤ c.progress) :
    s.fmtWork i q seq = s.fmtFinish i q seq :=
  (fmtWork_read hc hd).trans (fmtRun_finishes hc hr hd hp)

/-- The step of the last group leads to the end. -/
theorem fmtWork_last (h0 : c.fixed = 0) (hp : c.progress < dsCount c.desc) (hs : fmtStep s i q seq c = (some s₁, u))
    (hc₁ : s₁.cmd? i q seq = some d) (hr₁ : d.runs = true) (hd₁ : d.desc.isEmpty = false)
    (hp₁ : d.fixed ≠ 0 ∨ dsCount d.desc ≤ d.progress) : s.fmtWork i q seq = s₁.fmtFinish i q seq :=
  calc s.fmtWork i q seq
    _ = State.fmtRun i q seq (dsCount c.desc / 32 + 2) s := fmtWork_read hc hd
    _ = State.fmtRun i q seq (dsCount c.desc / 32 + 1) s₁ := fmtRun_next hc hr hd h0 hp hs
    _ = s₁.fmtFinish i q seq := fmtRun_finishes hc₁ hr₁ hd₁ hp₁

end

theorem fmtStep_quantise (h : s.works i q seq 0x33 c = true) : fmtStep s i q seq c = s.quantStep i q seq c :=
  if_pos (works_opcode h)

theorem fmtStep_dequantise (h : s.works i q seq 0x34 c = true) : fmtStep s i q seq c = s.dequantStep i q seq c :=
  if_neg (by rw [works_opcode h]; decide)

end

/-- Settles O27: the descriptor's two reads and the judgement, the ends of runs and unloads, and group after group. -/
theorem planCommands : Obligations.PlanCommands := by
  refine ⟨
    -- `PLAN_LOAD`
    fun i q seq c s₁ s => execPlanLoad_waits, fun i q seq c st n s₁ s => execPlanLoad_fails,
    fun i q seq c b s₁ s => execPlanLoad_refused, fun i q seq c b s₁ s => execPlanLoad_outside,
    fun i q seq c b s₁ s₂ s h hg hh hr hg₂ =>
      (execPlanLoad_reads h hg hh hr).trans (congrArg Host.Outcome.next (stepsRead_waits hg₂)),
    fun i q seq c b st n s₁ s₂ s h hg hh hr hg₂ =>
      (execPlanLoad_reads h hg hh hr).trans (congrArg Host.Outcome.next (stepsRead_fails hg₂)),
    fun i q seq c b b₂ s₁ s₂ s h hg hh hr hg₂ =>
      (execPlanLoad_reads h hg hh hr).trans (congrArg Host.Outcome.next (stepsRead_judges hg₂)),
    fun i q seq k st dt h steps s => planAccept_fails, fun i h steps s => chkPlan_ne_zero_of_freePlan_none,
    fun i q seq k dt p h steps s hk hp hw => (planAccept_loads hk hp).trans (if_neg (ne_true_of_eq_false hw)),
    fun i q seq k dt p h steps s hk hp hw => (planAccept_loads hk hp).trans (if_pos hw),
    -- `PLAN_RUN` and `PLAN_UNLOAD`
    fun i q seq c s h => next_unit_works h, fun k s => settleRun_completed,
    fun i q seq c s h hp => execPlanUnload_fails h (chkPlanUnload_unknown hp) (by decide),
    fun i q seq c k s h hp hr =>
      execPlanUnload_fails h ((chkPlanUnload_known hp).trans (if_pos hr)) (by decide),
    fun i q seq c k s h hp hr =>
      execPlanUnload_ok h ((chkPlanUnload_known hp).trans (if_neg (ne_true_of_eq_false hr))),
    -- `QUANTISE` and `DEQUANTISE`
    fun i q seq c s => execQuantise_works, fun i q seq c s => execDequantise_works,
    fun i q seq c s h hd hp h0 => ?_, fun i q seq c s h hd hp h0 => ?_,
    fun i q seq c d s₁ u s h hd h0 hp hs hc₁ hr₁ hd₁ hp₁ => ?_,
    fun i q seq c d s₁ u s h hd h0 hp hs hc₁ hr₁ hd₁ hp₁ => ?_,
    fun f i q seq c s₁ u s => fmtRun_next, fun f i q seq c s₁ s => fmtRun_waits,
    fun i q seq c b s₁ s => fmtLoad_refused⟩
  · obtain ⟨hc, hr⟩ := works_cmd h
    exact ⟨_, (execQuantise_works h).trans (congrArg Host.Outcome.next (fmtWork_finishes hc hr hd hp)),
      fmtFinish_cmd hc h0⟩
  · obtain ⟨hc, hr⟩ := works_cmd h
    exact ⟨_, (execDequantise_works h).trans (congrArg Host.Outcome.next (fmtWork_finishes hc hr hd hp)),
      fmtFinish_cmd hc h0⟩
  · obtain ⟨hc, hr⟩ := works_cmd h
    exact (execQuantise_works h).trans (congrArg Host.Outcome.next
      (fmtWork_last hc hr hd h0 hp ((fmtStep_quantise h).trans hs) hc₁ hr₁ hd₁ hp₁))
  · obtain ⟨hc, hr⟩ := works_cmd h
    exact (execDequantise_works h).trans (congrArg Host.Outcome.next
      (fmtWork_last hc hr hd h0 hp ((fmtStep_dequantise h).trans hs) hc₁ hr₁ hd₁ hp₁))

end Sys2Proof.Proofs

/-! The queue and the OTP areas over a step: what no command changes, and what the three commands that write OTP do to it
(R471, R474, R478). -/

namespace Sys2Proof.Proofs
open Sys2Proof Sys2Proof.Machine

/-! ## Commands end in a next state -/

theorem step_of_front {c : Instr} {rest : List Instr} {s : State} (h : s.pending = c :: rest) :
    step s = exec c { s with pending := rest } := by
  simp only [step, h]

/-- Every arm of the dispatch is a next state written out. -/
theorem exec_isNext (c : Instr) (s : State) : ∃ t, exec c s = .next t := by
  cases c <;> exact ⟨_, rfl⟩

/-- Settles O1: the front command runs on the rest of the queue, and each arm of the dispatch answers a next state. -/
theorem stepRunsFrontCommand : Obligations.StepRunsFrontCommand :=
  ⟨fun _ _ _ => step_of_front, exec_isNext⟩

/-! ## Commands that leave OTP alone -/

section
variable {c : Instr} {s t : State}

/-- A command other than the three that write OTP keeps the queue and the OTP areas: the law of each command, by name. -/
theorem exec_kept (hL : ∀ ok, c ≠ .lcStep ok) (hS : ∀ r m v, c ≠ .anchorSet r m v) (hR : ∀ r m v, c ≠ .anchorRevoke r m v)
    (h : exec c s = .next t) : t.kept = s.kept := by
  cases c with
  | lcStep ok => exact absurd rfl (hL ok)
  | anchorSet r m v => exact absurd rfl (hS r m v)
  | anchorRevoke r m v => exact absurd rfl (hR r m v)
  | powerOn => exact execPowerOn_kept _ _ h
  | hubRstNLow => exact execHubRstNLow_kept _ _ h
  | resetHoldExpiry => exact execResetHoldExpiry_kept _ _ _ h
  | resetReleaseStep => exact execResetReleaseStep_kept _ h
  | kindlingBoot => exact execKindlingBoot_kept _ _ h
  | networkRequest => exact execNetworkRequest_kept _ _ _ h
  | hbmReadReturn => exact execHbmReadReturn_kept _ _ _ _ _ _ h
  | metadataFetchReturn => exact execMetadataFetchReturn_kept _ _ _ _ _ _ _ h
  | pageReencrypt => exact execPageReencrypt_kept _ _ _ h
  | hearthReadReturn => exact execHearthReadReturn_kept _ _ _ _ h
  | powerGroupChange => exact execPowerGroupChange_kept _ _ _ h
  | domainSwitchOff => exact execDomainSwitchOff_kept _ _ h
  | domainWake => exact execDomainWake_kept _ _ h
  | clockFault => exact execClockFault_kept _ _ _ h
  | kclkResume => exact execKclkResume_kept _ h
  | opsecCopy => exact execOpsecCopy_kept _ h
  | tamperSet => exact execTamperSet_kept _ _ h
  | domOpen => exact execDomOpen_kept _ _ _ _ _ h
  | domGroupLevel => exact execDomGroupLevel_kept _ _ _ _ _ h
  | domSecret => exact execDomSecret_kept _ _ _ _ h
  | memberConfirmTimeout => exact execMemberConfirmTimeout_kept _ _ h
  | domBindSlice => exact execDomBindSlice_kept _ _ _ _ h
  | domAddSite => exact execDomAddSite_kept _ _ _ _ _ h
  | domActivate => exact execDomActivate_kept _ _ _ h
  | domLease => exact execDomLease_kept _ _ _ h
  | leaseLapse => exact execLeaseLapse_kept _ _ h
  | admissionTimeout => exact execAdmissionTimeout_kept _ _ h
  | quarantineTimeout => exact execQuarantineTimeout_kept _ _ h
  | domResume => exact execDomResume_kept _ _ _ h
  | domTeardown => exact execDomTeardown_kept _ _ _ h
  | domQuery => exact execDomQuery_kept _ _ _ h
  | alarmAck => exact execAlarmAck_kept _ _ _ h
  | tamperClear => exact execTamperClear_kept _ _ h
  | teardownAdvance => exact execTeardownAdvance_kept _ _ h
  | spdmRequest m => exact execSpdmRequest_kept m _ _ _ _ _ h
  | getMeasurements m => exact execGetMeasurements_kept m _ _ _ h
  | memberStatementTimeout => exact execMemberStatementTimeout_kept _ h
  | sliceEnable => exact execSliceEnable_kept _ _ h
  | sliceDisable => exact execSliceDisable_kept _ _ h
  | qmSlcfgWrite => exact execQmSlcfgWrite_kept _ _ _ h
  | revokeAll => exact execRevokeAll_kept _ _ _ h
  | squashAll => exact execSquashAll_kept _ _ _ h
  | sliceReset => exact execSliceReset_kept _ _ _ h
  | sliceResetAdvance => exact execSliceResetAdvance_kept _ _ h
  | qmSlLevelWrite => exact execQmSlLevelWrite_kept _ _ _ _ h
  | queueEnable => exact execQueueEnable_kept _ _ _ h
  | stopDrain => exact execStopDrain_kept _ _ _ h
  | stopSquash => exact execStopSquash_kept _ _ _ h
  | queueResume => exact execQueueResume_kept _ _ _ h
  | queueDisable => exact execQueueDisable_kept _ _ _ h
  | qmDbTailWrite => exact execQmDbTailWrite_kept _ _ _ _ h
  | qmDbCplHeadWrite => exact execQmDbCplHeadWrite_kept _ _ _ _ h
  | qmAbort => exact execQmAbort_kept _ _ _ _ h
  | commandFetch => exact execCommandFetch_kept _ _ _ _ h
  | commandStart => exact execCommandStart_kept _ _ _ h
  | commandCommit => exact execCommandCommit_kept _ _ _ h
  | objDefine => exact execObjDefine_kept _ _ _ _ h
  | objFree => exact execObjFree_kept _ _ _ _ h
  | timeRead => exact execTimeRead_kept _ _ _ _ h
  | copy => exact execCopy_kept _ _ _ _ h
  | fill => exact execFill_kept _ _ _ _ h
  | resealZero => exact execResealZero_kept _ _ _ _ h
  | resealFill => exact execResealFill_kept _ _ _ _ h
  | resealPage => exact execResealPage_kept _ _ _ _ h
  | cipher => exact execCipher_kept _ _ _ _ h
  | cipherKeyLoad => exact execCipherKeyLoad_kept _ _ _ _ h
  | winOpen => exact execWinOpen_kept _ _ _ _ h
  | winClose => exact execWinClose_kept _ _ _ _ h
  | rwinSet => exact execRwinSet_kept _ _ _ _ h
  | rwinClear => exact execRwinClear_kept _ _ _ _ h
  | fabRead => exact execFabRead_kept _ _ _ _ h
  | fabWrite => exact execFabWrite_kept _ _ _ _ h
  | fabAtomic => exact execFabAtomic_kept _ _ _ _ h
  | sigRemote => exact execSigRemote_kept _ _ _ _ h
  | flushRemote => exact execFlushRemote_kept _ _ _ _ h
  | planLoad => exact execPlanLoad_kept _ _ _ _ h
  | planRun => exact execPlanRun_kept _ _ _ _ h
  | planUnload => exact execPlanUnload_kept _ _ _ _ h
  | quantise => exact execQuantise_kept _ _ _ _ h
  | dequantise => exact execDequantise_kept _ _ _ _ h
  | syncInit => exact execSyncInit_kept _ _ _ _ h
  | syncFree => exact execSyncFree_kept _ _ _ _ h
  | syncNotify => exact execSyncNotify_kept _ _ _ _ h
  | syncGrant => exact execSyncGrant_kept _ _ _ _ h
  | syncUngrant => exact execSyncUngrant_kept _ _ _ _ h
  | syncOp => exact execSyncOp_kept _ _ _ _ h
  | ctrSample => exact execCtrSample_kept _ _ _ _ h
  | watchArm => exact execWatchArm_kept _ _ _ _ h
  | watchDisarm => exact execWatchDisarm_kept _ _ _ _ h
  | watchReport => exact execWatchReport_kept _ _ _ _ h
  | kidBind => exact execKidBind_kept _ _ _ _ h
  | kidRetire => exact execKidRetire_kept _ _ _ _ h
  | rgnAssign => exact execRgnAssign_kept _ _ _ _ h
  | rgnRelease => exact execRgnRelease_kept _ _ _ _ h
  | resealKey => exact execResealKey_kept _ _ _ _ h
  | rekeySweepPage => exact execRekeySweepPage_kept _ _ h
  | hrgAssign => exact execHrgAssign_kept _ _ _ _ h
  | hrgRelease => exact execHrgRelease_kept _ _ _ _ h
  | hearthInitDone => exact execHearthInitDone_kept _ _ h
  | phaseHint => exact execPhaseHint_kept _ _ _ _ h
  | oppRequest => exact execOppRequest_kept _ _ _ _ h
  | bindPlain => exact execBindPlain_kept _ _ _ h
  | fbxRetire => exact execFbxRetire_kept _ _ _ h
  | fbxCtlWrite => exact execFbxCtlWrite_kept _ _ _ h
  | kidFlushComplete => exact execKidFlushComplete_kept _ _ h
  | remask => exact execRemask_kept _ _ h
  | orphanSweep => exact execOrphanSweep_kept _ h
  | keyDeriveDone => exact execKeyDeriveDone_kept _ _ h
  | trngFault => exact execTrngFault_kept _ h
  | epochPrepare => exact execEpochPrepare_kept _ _ _ _ h
  | epochSwitch => exact execEpochSwitch_kept _ _ _ _ h
  | epochRetire => exact execEpochRetire_kept _ _ _ _ h
  | mslAssign => exact execMslAssign_kept _ _ h
  | mslRelease => exact execMslRelease_kept _ _ h
  | mslCtlWrite => exact execMslCtlWrite_kept _ _ _ h
  | hthAssign => exact execHthAssign_kept _ _ h
  | hthRelease => exact execHthRelease_kept _ _ h
  | hthCtlWrite => exact execHthCtlWrite_kept _ _ _ h
  | hthScrubCtlWrite => exact execHthScrubCtlWrite_kept _ _ _ h
  | scrubIssue => exact execScrubIssue_kept _ _ _ _ h
  | scrubDeadline => exact execScrubDeadline_kept _ _ h
  | linkEnable => exact execLinkEnable_kept _ _ _ _ h
  | linkRetrain => exact execLinkRetrain_kept _ _ _ h
  | linkAdapt => exact execLinkAdapt_kept _ _ _ h
  | linkSave => exact execLinkSave_kept _ _ _ _ h
  | lnkModeWrite => exact execLnkModeWrite_kept _ _ _ _ h
  | lnkSessCtlWrite => exact execLnkSessCtlWrite_kept _ _ _ _ h
  | trainingDone => exact execTrainingDone_kept _ _ _ _ _ _ h
  | lockAcquired => exact execLockAcquired_kept _ _ _ h
  | lockLost => exact execLockLost_kept _ _ _ _ _ _ h
  | lockTimeout => exact execLockTimeout_kept _ _ h
  | negotiateReceive => exact execNegotiateReceive_kept _ _ _ h
  | negotiateSend => exact execNegotiateSend_kept _ _ h
  | negTimeout => exact execNegTimeout_kept _ _ h
  | adaptDone => exact execAdaptDone_kept _ _ h
  | serRate => exact execSerRate_kept _ _ _ _ _ _ h
  | flitReceive => exact execFlitReceive_kept _ _ _ h
  | linkCtlReceive => exact execLinkCtlReceive_kept _ _ _ h
  | linkCtlSend => exact execLinkCtlSend_kept _ _ h
  | nakRepeat => exact execNakRepeat_kept _ _ h
  | replayTimeout => exact execReplayTimeout_kept _ _ h
  | flitTransmit => exact execFlitTransmit_kept _ _ h
  | fabRequestReceive => exact execFabRequestReceive_kept _ _ h
  | fabResponseReceive => exact execFabResponseReceive_kept _ _ h
  | recordTimeout => exact execRecordTimeout_kept _ _ h
  | holdResend => exact execHoldResend_kept _ _ h
  | flagHoldExpiry => exact execFlagHoldExpiry_kept _ h
  | fabTclr => exact execFabTclr_kept _ _ _ h
  | fabNodeWrite => exact execFabNodeWrite_kept _ _ _ h
  | fabRtdataWrite => exact execFabRtdataWrite_kept _ _ _ h
  | fabMrdataWrite => exact execFabMrdataWrite_kept _ _ _ h
  | colDataReceive => exact execColDataReceive_kept _ _ h
  | colCreditReceive => exact execColCreditReceive_kept _ _ h
  | colAbortReceive => exact execColAbortReceive_kept _ _ h
  | colCreditSend => exact execColCreditSend_kept _ _ _ h
  | colFlushTimer => exact execColFlushTimer_kept _ _ _ h
  | stepStart => exact execStepStart_kept _ _ _ h
  | stepComplete => exact execStepComplete_kept _ _ _ h
  | runTimeout => exact execRunTimeout_kept _ _ _ h
  | synSlcfgWrite => exact execSynSlcfgWrite_kept _ _ _ h
  | synCtlWrite => exact execSynCtlWrite_kept _ _ _ h
  | hostSignal => exact execHostSignal_kept _ _ _ _ _ h
  | orphanAll => exact execOrphanAll_kept _ _ _ h
  | deadlockScan => exact execDeadlockScan_kept _ h
  | deadlockEscalate => exact execDeadlockEscalate_kept _ h
  | syncDebugRead => exact execSyncDebugRead_kept _ _ h
  | syncForce => exact execSyncForce_kept _ _ _ h
  | atsInvalidation => exact execAtsInvalidation_kept _ _ _ _ _ _ h
  | invalidationTimeout => exact execInvalidationTimeout_kept _ _ h
  | translationCompletion => exact execTranslationCompletion_kept _ _ _ _ h
  | pageResponse => exact execPageResponse_kept _ _ _ _ h
  | prqTimeout => exact execPrqTimeout_kept _ _ _ h
  | stkXlatCtlWrite => exact execStkXlatCtlWrite_kept _ _ _ h
  | hostTransferCompletion => exact execHostTransferCompletion_kept _ _ _ _ h
  | functionLevelReset => exact execFunctionLevelReset_kept _ h
  | lockInterfaceRequest => exact execLockInterfaceRequest_kept _ _ _ _ _ _ h
  | startInterfaceRequest => exact execStartInterfaceRequest_kept _ _ _ _ h
  | stopInterfaceRequest => exact execStopInterfaceRequest_kept _ _ _ h
  | getDeviceInterfaceReport => exact execGetDeviceInterfaceReport_kept _ _ _ h
  | getDeviceInterfaceState => exact execGetDeviceInterfaceState_kept _ _ _ h
  | getTdispVersion => exact execGetTdispVersion_kept _ _ h
  | getTdispCapabilities => exact execGetTdispCapabilities_kept _ _ h
  | ideStreamInsecure => exact execIdeStreamInsecure_kept _ _ h
  | siteLinkActive => exact execSiteLinkActive_kept _ _ h
  | siteSpdmResponse => exact execSiteSpdmResponse_kept _ _ _ h
  | siteSpdmTimeout => exact execSiteSpdmTimeout_kept _ _ h
  | siteLinkInactive => exact execSiteLinkInactive_kept _ _ h
  | siteWindowSet => exact execSiteWindowSet_kept _ _ _ _ h
  | siteWindowClear => exact execSiteWindowClear_kept _ _ _ _ h
  | siteWindowClearKid => exact execSiteWindowClearKid_kept _ _ _ _ h
  | readmit => exact execReadmit_kept _ _ _ _ h
  | bridgeHeartbeatSend => exact execBridgeHeartbeatSend_kept _ h
  | bridgePeerLost => exact execBridgePeerLost_kept _ _ h
  | bridgeHelloReceive => exact execBridgeHelloReceive_kept _ _ h
  | electionClose => exact execElectionClose_kept _ h
  | ceAssign => exact execCeAssign_kept _ _ _ h
  | ceUnassign => exact execCeUnassign_kept _ _ _ h
  | ceLoad => exact execCeLoad_kept _ _ _ h
  | ceZero => exact execCeZero_kept _ _ _ h
  | ceCtlWrite => exact execCeCtlWrite_kept _ _ _ h
  | ceParamWrite => exact execCeParamWrite_kept _ _ _ _ h
  | throttleInterval => exact execThrottleInterval_kept _ h
  | telSCtlWrite => exact execTelSCtlWrite_kept _ _ _ _ h
  | telSCfgWrite => exact execTelSCfgWrite_kept _ _ _ _ h
  | telSQvalRead => exact execTelSQvalRead_kept _ _ _ h
  | registerLowHalfRead => exact execRegisterLowHalfRead_kept _ _ _ h
  | registerLowHalfWrite => exact execRegisterLowHalfWrite_kept _ _ _ _ h
  | registerWrite => exact execRegisterWrite_kept _ _ _ _ _ h
  | regAccess => exact execRegAccess_kept _ _ _ _ _ h
  | suppressed => exact execSuppressed_kept _ _ h
  | permProgram => exact execPermProgram_kept _ _ h
  | recClear => exact execRecClear_kept _ _ h
  | recRlWrite => exact execRecRlWrite_kept _ _ _ h
  | recDataRead => exact execRecDataRead_kept _ _ h
  | resetReq => exact execResetReq_kept _ _ _ _ h
  | rstReqWrite => exact execRstReqWrite_kept _ _ _ h
  | watchdogExpiry => exact execWatchdogExpiry_kept _ h
  | selfRefreshAck => exact execSelfRefreshAck_kept _ _ h
  | fenceTimeout => exact execFenceTimeout_kept _ h
  | recoveryTimeout => exact execRecoveryTimeout_kept _ h
  | rstDumpAck => exact execRstDumpAck_kept _ _ h
  | rstDumpDataRead => exact execRstDumpDataRead_kept _ _ h
  | rstCtlWrite => exact execRstCtlWrite_kept _ _ _ h
  | lcTransitionRequest => exact execLcTransitionRequest_kept _ _ _ _ h
  | debugChallenge _ m => exact execDebugChallenge_kept _ m _ _ h
  | debugOpen => exact execDebugOpen_kept _ _ _ h
  | debugOpenComplete => exact execDebugOpenComplete_kept _ h
  | damperInterval => exact execDamperInterval_kept _ _ h
  | oppVoltageAck => exact execOppVoltageAck_kept _ h
  | siteLevelTimeout => exact execSiteLevelTimeout_kept _ _ h
  | budgetReallocate => exact execBudgetReallocate_kept _ h
  | shareReceive => exact execShareReceive_kept _ _ h
  | shareTimeout => exact execShareTimeout_kept _ h
  | pwrBudget => exact execPwrBudget_kept _ _ _ _ h
  | pwrBudgetLapse => exact execPwrBudgetLapse_kept _ h
  | pwrQuery => exact execPwrQuery_kept _ _ h
  | pwrLimit => exact execPwrLimit_kept _ _ _ _ h
  | pwrReport => exact execPwrReport_kept _ h
  | droopTrip => exact execDroopTrip_kept _ _ h
  | thermalWarn => exact execThermalWarn_kept _ _ h
  | thermalTrip => exact execThermalTrip_kept _ _ h
  | thermalCrit => exact execThermalCrit_kept _ _ h
  | pmbusPoll => exact execPmbusPoll_kept _ _ h
  | vinFault => exact execVinFault_kept _ h
  | pmbusStageTimeout => exact execPmbusStageTimeout_kept _ _ h
  | pwrCtlWrite => exact execPwrCtlWrite_kept _ _ _ h
  | trainingSlotWrite => exact execTrainingSlotWrite_kept _ h
  | droopRecover => exact execDroopRecover_kept _ h
  | thermalClear => exact execThermalClear_kept _ _ h
  | brCtlReceive => exact execBrCtlReceive_kept _ _ h
  | ideKmMessage => exact execIdeKmMessage_kept _ _ _ h
  | hostConfigWrite => exact execHostConfigWrite_kept _ _ h
  | translationTimeout => exact execTranslationTimeout_kept _ _ _ h
  | mctpControlMessage => exact execMctpControlMessage_kept _ _ _ h

end

/-- Two states with the same queue and OTP areas agree in each of them. -/
theorem kept_eq_iff {s t : State} : t.kept = s.kept ↔ t.pending = s.pending ∧ t.lc.words = s.lc.words ∧
    t.lc.anchors = s.lc.anchors ∧ t.lc.makerLock = s.lc.makerLock ∧ t.lc.integWiped = s.lc.integWiped ∧
    t.lc.trimWiped = s.lc.trimWiped := by
  simp only [State.kept, Prod.mk.injEq]

/-! ## The three commands that write OTP -/

/-- The writes of OTP: one step of a transition, an anchor put where there was none, and an anchor wiped. -/
inductive OtpWrite (s : State) : State → Prop
  | program (target k : Nat) : OtpWrite s (s.programStep target k)
  | place (k : Nat) (a : Anchor) (h : s.lc.anchors.getD k .empty = .empty) : OtpWrite s (s.setAnchor k a)
  | wipe (k : Nat) : OtpWrite s (s.setAnchor k .wiped)

/-- What a command leaves of the queue and OTP: all of it, or what one write leaves. -/
def otpStep (s t : State) : Prop := t.kept = s.kept ∨ ∃ v u, v.kept = s.kept ∧ OtpWrite v u ∧ t.kept = u.kept

section
variable {s t : State} {r : Req} {m : Mgmt} {v : BitVec 32}

theorem otpStep_ite {p : Prop} [Decidable p] {a b : State} (ha : a.kept = s.kept) (hb : ¬p → otpStep s b) :
    otpStep s (if p then a else b) := by
  split
  next => exact .inl ha
  next h => exact hb h

/-- A management-only write leaves no trace in OTP, or its effect takes place. -/
theorem regWriteMgmt_otpStep {off width : Nat} {f : State → State} (hf : ∀ u, u.kept = s.kept → otpStep s (f u)) :
    otpStep s (s.regWriteMgmt r off width f) := by
  have hd : (s.dropHeld r).kept = s.kept := s.dropHeld_kept r
  unfold State.regWriteMgmt State.regWrite
  refine otpStep_ite rfl fun _ => ?_
  cases blockOf off with
  | none => exact .inl (by simp)
  | some b =>
    dsimp only
    split_ifs
    · exact hf _ hd
    · exact .inl hd
    · exact .inl (by simp)

/-- The state in which a step programs: its area's record is begun. -/
def lcBegun (s : State) : State :=
  { s with lc := { s.lc with
    begun := true, records := if s.lc.records.contains s.lc.target then s.lc.records else s.lc.target :: s.lc.records } }

theorem execLcStep_otpStep {ok : Bool} (h : execLcStep ok s = .next t) : otpStep s t := by
  unfold execLcStep at h
  injection h with h
  subst h
  refine otpStep_ite rfl fun _ => ?_
  cases ok with
  | false => exact .inl (by simp)
  | true =>
    refine .inr ⟨lcBegun s, _, rfl, .program s.lc.target s.lc.next, ?_⟩
    exact (State.afterStep_kept ..).trans (State.record_kept ..)

theorem execAnchorSet_otpStep (h : execAnchorSet r m v s = .next t) : otpStep s t := by
  unfold execAnchorSet at h
  injection h with h
  subst h
  refine regWriteMgmt_otpStep fun u hu => otpStep_ite hu fun _ => ?_
  refine otpStep_ite (by simpa) fun _ => otpStep_ite (by simpa) fun _ => otpStep_ite (by simpa) fun he => ?_
  exact .inr ⟨u, _, hu, .place _ _ (not_not.mp he), State.setAres_kept ..⟩

theorem execAnchorRevoke_otpStep (h : execAnchorRevoke r m v s = .next t) : otpStep s t := by
  unfold execAnchorRevoke at h
  injection h with h
  subst h
  refine regWriteMgmt_otpStep fun u hu => otpStep_ite hu fun _ => ?_
  refine otpStep_ite (by simpa) fun _ => otpStep_ite (by simpa) fun _ => otpStep_ite (by simpa) fun _ => ?_
  exact otpStep_ite (by simpa) fun _ => .inr ⟨u, _, hu, .wipe _, State.setAres_kept ..⟩

/-- What any command does to the queue and OTP. -/
theorem exec_otpStep {c : Instr} (h : exec c s = .next t) : otpStep s t := by
  by_cases hL : ∃ ok, c = .lcStep ok
  · obtain ⟨ok, rfl⟩ := hL
    exact execLcStep_otpStep h
  by_cases hS : ∃ r m v, c = .anchorSet r m v
  · obtain ⟨r, m, v, rfl⟩ := hS
    exact execAnchorSet_otpStep h
  by_cases hR : ∃ r m v, c = .anchorRevoke r m v
  · obtain ⟨r, m, v, rfl⟩ := hR
    exact execAnchorRevoke_otpStep h
  · push Not at hL hS hR
    exact .inl (exec_kept hL hS hR h)

/-- What a step does to OTP: the idle step does nothing, and a command finds the OTP areas as the step found them. -/
theorem step_otpStep (h : step s = .next t) : ∃ rest, otpStep { s with pending := rest } t := by
  cases hp : s.pending with
  | nil =>
    obtain rfl : s.tick = t := by simpa [step, hp] using h
    exact ⟨s.pending, .inl (State.tick_kept s)⟩
  | cons c rest => exact ⟨rest, exec_otpStep (step_of_front hp ▸ h)⟩

end

/-! ## The writes only go forward -/

section
variable {s t u v : State}

theorem wipeEmpty_moves (a : Anchor) : anchorMoves a (if a = .empty then .wiped else a) := by
  split
  · exact .inr (.inr rfl)
  · exact .inl rfl

theorem getD_map_moves {f : Anchor → Anchor} (hf : ∀ a, anchorMoves a (f a)) (l : List Anchor) (k : Nat) :
    anchorMoves (l.getD k .empty) ((l.map f).getD k .empty) := by
  by_cases hk : k < l.length
  · simpa [hk] using hf _
  · simp [hk, anchorMoves]

theorem getD_set_cases {α : Type} (l : List α) (i j : Nat) (a d : α) :
    (l.set i a).getD j d = l.getD j d ∨ i = j ∧ (l.set i a).getD j d = a := by
  by_cases hij : i = j
  · by_cases hj : j < l.length
    · exact .inr ⟨hij, by simp [hij, hj]⟩
    · exact .inl (by simp [List.set_eq_of_length_le (hij ▸ not_lt.mp hj)])
  · exact .inl (by simp [List.getD_eq_getElem?_getD, List.getElem?_set_ne hij])

theorem otpForward_refl (s : State) : OtpForward s s :=
  ⟨fun _ => .inl rfl, fun _ => .inl rfl, id, id, id⟩

theorem wipeAnchors_forward (s : State) : OtpForward s s.wipeAnchors :=
  { otpForward_refl s with anchors := fun k => getD_map_moves (fun _ => .inr (.inr rfl)) _ k }

theorem wipeInteg_forward (h : OtpForward s t) : OtpForward s t.wipeInteg := { h with integWiped := fun _ => rfl }

theorem programState_forward (s : State) (target : Nat) : OtpForward s (s.programState target) :=
  { otpForward_refl s with words := fun k => (getD_set_cases s.lc.words (target - 2) k _ 0).imp_right And.right }

theorem programStep_forward (s : State) (target k : Nat) : OtpForward s (s.programStep target k) := by
  unfold State.programStep
  split
  · exact programState_forward s target
  · split
    · exact { otpForward_refl s with makerLock := fun _ => rfl }
    · exact { otpForward_refl s with anchors := fun k => getD_map_moves wipeEmpty_moves _ k }
    · exact wipeAnchors_forward s
    · exact wipeInteg_forward (otpForward_refl s)
    · exact { otpForward_refl s with }
    · exact wipeInteg_forward (wipeAnchors_forward s)
    · exact { otpForward_refl s with trimWiped := fun _ => rfl }
    · exact { otpForward_refl s with }

theorem setAnchor_forward {k : Nat} {a : Anchor} (h : anchorMoves (s.lc.anchors.getD k .empty) a) :
    OtpForward s (s.setAnchor k a) :=
  { otpForward_refl s with
    anchors := fun j => by
      rcases getD_set_cases s.lc.anchors k j a .empty with hj | ⟨rfl, hj⟩
      · exact .inl hj
      · rwa [State.setAnchor, hj] }

theorem otpWrite_forward (h : OtpWrite s t) : OtpForward s t := by
  cases h with
  | program target k => exact programStep_forward s target k
  | place k a h => exact setAnchor_forward (.inr (.inl h))
  | wipe k => exact setAnchor_forward (.inr (.inr rfl))

/-- Going forward speaks of the OTP areas alone. -/
theorem otpForward_congr (hs : v.kept = s.kept) (ht : t.kept = u.kept) (h : OtpForward v u) : OtpForward s t := by
  obtain ⟨-, hw, ha, hm, hi, hr⟩ := kept_eq_iff.mp hs
  obtain ⟨-, hw', ha', hm', hi', hr'⟩ := kept_eq_iff.mp ht
  exact ⟨hw ▸ hw' ▸ h.words, ha ▸ ha' ▸ h.anchors, hm ▸ hm' ▸ h.makerLock, hi ▸ hi' ▸ h.integWiped, hr ▸ hr' ▸ h.trimWiped⟩

theorem otpStep_forward (h : otpStep s t) : OtpForward s t := by
  rcases h with h | ⟨v, u, hv, hw, ht⟩
  · exact otpForward_congr rfl h (otpForward_refl s)
  · exact otpForward_congr hv ht (otpWrite_forward hw)

/-- A state word that is programmed stays so. -/
theorem wordSet_forward (h : OtpForward s t) (k : Nat) (hs : wordSet (s.lc.words.getD k 0) = true) :
    wordSet (t.lc.words.getD k 0) = true := by
  rcases h.words k with hk | hk <;> rw [hk]
  · exact hs
  · decide

theorem lcCode_forward (h : OtpForward s t) : s.lcCode ≤ t.lcCode := by
  have h3 := wordSet_forward h 3
  have h2 := wordSet_forward h 2
  have h1 := wordSet_forward h 1
  have h0 := wordSet_forward h 0
  unfold State.lcCode
  split_ifs <;> simp_all

/-! ## The form of OTP -/

theorem programStep_otpWhole (h : s.otpWhole) (target k : Nat) : (s.programStep target k).otpWhole := by
  obtain ⟨hw, ha, hone⟩ := h
  unfold State.programStep State.otpWhole
  split
  · exact ⟨by simpa [State.programState], ha, fun w hm => (List.mem_or_eq_of_mem_set hm).elim (hone w) .inr⟩
  · split <;> exact ⟨hw, by simp [State.wipeAnchors, State.wipeInteg, ha], hone⟩

theorem otpWrite_otpWhole (hs : s.otpWhole) (h : OtpWrite s t) : t.otpWhole := by
  cases h with
  | program target k => exact programStep_otpWhole hs target k
  | place k a h => exact ⟨hs.1, by simpa [State.setAnchor] using hs.2.1, hs.2.2⟩
  | wipe k => exact ⟨hs.1, by simpa [State.setAnchor] using hs.2.1, hs.2.2⟩

theorem otpWhole_congr (h : t.kept = s.kept) (hs : s.otpWhole) : t.otpWhole := by
  obtain ⟨-, hw, ha, -⟩ := kept_eq_iff.mp h
  unfold State.otpWhole
  rwa [hw, ha]

theorem otpStep_otpWhole (hs : s.otpWhole) (h : otpStep s t) : t.otpWhole := by
  rcases h with h | ⟨v, u, hv, hw, ht⟩
  · exact otpWhole_congr h hs
  · exact otpWhole_congr ht (otpWrite_otpWhole (otpWhole_congr hv hs) hw)

/-! ## The queue -/

theorem programStep_pending (s : State) (target k : Nat) : (s.programStep target k).pending = s.pending := by
  unfold State.programStep
  split
  · rfl
  · split <;> rfl

theorem otpWrite_pending (h : OtpWrite s t) : t.pending = s.pending := by
  cases h with
  | program target k => exact programStep_pending s target k
  | place | wipe => rfl

theorem otpStep_pending (h : otpStep s t) : t.pending = s.pending := by
  rcases h with h | ⟨v, u, hv, hw, ht⟩
  · exact (kept_eq_iff.mp h).1
  · rw [(kept_eq_iff.mp ht).1, otpWrite_pending hw, (kept_eq_iff.mp hv).1]

end

/-- Settles O57: the law of each command, and for the queue the writes of the three others. -/
theorem otpWrittenByThreeCommandsOnly : Obligations.OtpWrittenByThreeCommandsOnly :=
  ⟨fun _ _ _ hL hS hR h => (kept_eq_iff.mp (exec_kept hL hS hR h)).2, fun _ _ _ h => otpStep_pending (exec_otpStep h)⟩

/-- Settles O58: a step leaves OTP or writes it once, each write goes forward, and the code follows the state words. -/
theorem otpOnlyMovesForward : Obligations.OtpOnlyMovesForward := fun s t h => by
  obtain ⟨rest, hr⟩ := step_otpStep h
  have hf : OtpForward s t := { otpStep_forward hr with }
  exact ⟨hf, lcCode_forward hf⟩

/-- Settles O59: each write of OTP keeps its form. -/
theorem stateWordsStayWhole : Obligations.StateWordsStayWhole := fun s t hs h => by
  obtain ⟨rest, hr⟩ := step_otpStep h
  exact otpStep_otpWhole (s := { s with pending := rest }) hs hr

end Sys2Proof.Proofs

/-! The sync and the witness commands in their units (R332, R337, R339, R342, R373, R374, R427, R430, R434). -/

namespace Sys2Proof.Proofs
open Sys2Proof Sys2Proof.Machine

section
variable {i q seq op : Nat} {c : Cmd} {s : State}

/-! ## Commands that are one judgement and one effect -/

theorem next_endWith_ok {chk : Cmd → State → Chk} {f : Cmd → State → State} {d : Nat} (h : s.works i q seq op c = true)
    (hk : chk c s = (0, d)) :
    (.next (s.unit i q seq op fun c s => s.endWith i q seq (chk c s) (f c)) : Res) = .next ((f c s).endCmd i q seq 0) :=
  (next_unit_works h).trans (congrArg _ (endWith_ok (by rw [hk])))

theorem next_endWith_fails {chk : Cmd → State → Chk} {f : Cmd → State → State} {st d : Nat}
    (h : s.works i q seq op c = true) (hk : chk c s = (st, d)) (hs : st ≠ 0) :
    (.next (s.unit i q seq op fun c s => s.endWith i q seq (chk c s) (f c)) : Res) = .next (s.failCmd i q seq st d 0) := by
  rw [next_unit_works h, hk, endWith_fails hs]

/-! ## `SYNC_GRANT` (R339) -/

@[simp] theorem grant_setGrant_same (n : Nat) (v : Grant) : (s.setGrant n v).grant n = v := Tbl.get_set_same ..

/-- The entry that `SYNC_GRANT` makes of a free one. -/
def grantedEntry (s : State) (i n : Nat) (c : Cmd) : Grant :=
  { s.grant n with used := true, owner := i, first := (s.slice i).syncObj (c.f 1 19 0), count := c.f 1 36 20
                   grantee := c.f 1 47 37, wait := c.f 1 48 48 = 1, signal := c.f 1 49 49 = 1 }

section
variable {n st d : Nat} (h : s.works i q seq 0x43 c = true)
include h

theorem execSyncGrant_grants (hf : s.freeGrant = some n) (hk : s.chkSyncGrant i c = (0, d)) :
    exec (.syncGrant i q seq) s = .next ((s.setGrant n (grantedEntry s i n c)).endCmd i q seq 0
      (BitVec.ofNat 64 (n + 65536 * (s.grant n).gen))) := by
  refine (next_unit_works h).trans ?_
  rw [hf, hk]
  rfl

theorem execSyncGrant_full (hf : s.freeGrant = none) (hk : s.chkSyncGrant i c = (0, d)) :
    exec (.syncGrant i q seq) s = .next (s.failCmd i q seq stSyncNoGrant dtNone 0) := by
  refine (next_unit_works h).trans ?_
  rw [hf, hk]
  rfl

theorem execSyncGrant_fails (hk : s.chkSyncGrant i c = (st, d)) (hs : st ≠ 0) :
    exec (.syncGrant i q seq) s = .next (s.failCmd i q seq st d 0) := by
  refine (next_unit_works h).trans ?_
  obtain ⟨m, rfl⟩ := Nat.exists_eq_succ_of_ne_zero hs
  rw [hk]
  cases s.freeGrant <;> rfl

end

end

/-- Settles O29: each command judges and ends, and a grant takes the free entry. -/
theorem syncCommands : Obligations.SyncCommands := by
  refine ⟨fun i q seq c d st s h hk hs => next_endWith_fails h hk hs, fun i q seq c d s h hk => next_endWith_ok h hk,
    fun i q seq c d st s h hk hs => next_endWith_fails h hk hs, fun i q seq c d s h hk => next_endWith_ok h hk,
    fun i q seq c d st s h hk hs => next_endWith_fails h hk hs, fun i q seq c d s h hk => next_endWith_ok h hk,
    fun i q seq c n d s h hf hk => ⟨_, execSyncGrant_grants h hf hk, ?_, endCmd_after h rfl _ _⟩,
    fun i q seq c d s => execSyncGrant_full, fun i q seq c st d s => execSyncGrant_fails,
    fun i q seq c d st s h hk hs => next_endWith_fails h hk hs, fun i q seq c d s h hk => next_endWith_ok h hk⟩
  exact grant_setGrant_same n _

/-! ## Statements that a command has latched (R427, R434) -/

section
variable {i q seq ix off st n : Nat} {b : List Byte} {s s₁ : State}

theorem putLatch_done (h : s.storeObj i q seq ix off b = (.done, s₁)) :
    s.putLatch i q seq ix off b = s₁.endCmd i q seq b.length := by
  rw [State.putLatch, h]

theorem putLatch_fails (h : s.storeObj i q seq ix off b = (.fail st n, s₁)) :
    s.putLatch i q seq ix off b = s₁.failCmd i q seq st dtA n := by
  rw [State.putLatch, h]

theorem putLatch_waits (h : s.storeObj i q seq ix off b = (.wait, s₁)) : s.putLatch i q seq ix off b = s₁ := by
  rw [State.putLatch, h]

end

/-! ## `WATCH_ARM` (R430) -/

section
variable {i q seq n st d : Nat} {c : Cmd} {s : State} (h : s.works i q seq 0x51 c = true)
include h

/-- The window that `WATCH_ARM` arms over the operand's range. -/
def armedWatch (s : State) (i : Nat) (c : Cmd) : Watch :=
  { armed := true, mode := c.waMode, slice := i, obj := hIndex c.waObj, kind := (s.obj i (hIndex c.waObj)).kind
    kid := (s.obj i (hIndex c.waObj)).kid, base := (s.obj i (hIndex c.waObj)).base + c.waOff, len := c.waLen, armedAt := s.now }

theorem execWatchArm_arms (hk : s.chkWatchArm i c = (0, d)) (hf : s.freeWatch = some n) :
    exec (.watchArm i q seq) s = .next ((((s.objHold i (hIndex c.waObj)).setWatch n (armedWatch s i c)).priv
      (0x202 + 4 * n) 1).endCmd i q seq 0 (BitVec.ofNat 64 n)) := by
  refine (next_unit_works h).trans ?_
  rw [hf, hk]
  rfl

theorem execWatchArm_fails (hk : s.chkWatchArm i c = (st, d)) (hs : st ≠ 0) :
    exec (.watchArm i q seq) s = .next (s.failCmd i q seq st d 0) := by
  refine (next_unit_works h).trans ?_
  obtain ⟨m, rfl⟩ := Nat.exists_eq_succ_of_ne_zero hs
  rw [hk]
  cases s.freeWatch <;> rfl

end

/-- Settles O30: what was latched is stored, and a window is armed and disarmed. -/
theorem witnessCommands : Obligations.WitnessCommands := by
  refine ⟨fun i q seq c s₁ s h hs => (next_unit_works h).trans (congrArg _ (putLatch_done hs)),
    fun i q seq c st n s₁ s h hs => (next_unit_works h).trans (congrArg _ (putLatch_fails hs)),
    fun i q seq c s₁ s h hs => (next_unit_works h).trans (congrArg _ (putLatch_waits hs)),
    fun i q seq c s₁ s h hs => (next_unit_works h).trans (congrArg _ (putLatch_done hs)),
    fun i q seq c st n s₁ s h hs => (next_unit_works h).trans (congrArg _ (putLatch_fails hs)),
    fun i q seq c s₁ s h hs => (next_unit_works h).trans (congrArg _ (putLatch_waits hs)),
    fun i q seq c d n s => execWatchArm_arms, fun i q seq c st d s => execWatchArm_fails,
    fun i q seq c d st s h hk hs => next_endWith_fails h hk hs, fun i q seq c d s h hk => next_endWith_ok h hk⟩

end Sys2Proof.Proofs

/-! The sync registers, the host signal pages and the deadlock detection (R330, R337, R345 to R349). -/

namespace Sys2Proof.Proofs
open Sys2Proof Sys2Proof.Machine

/-- The outcome of a served and admitted write. -/
theorem next_regWrite_served {s t u : State} {r : Req} {off width : Nat} {a : Bool} {f : State → State}
    (hs : s.served r off = true) (ha : a = true) (ht : s.dropHeld r = t) (hu : f t = u) :
    (.next (s.regWrite r off width a f) : Res) = .next u := by
  rw [regWrite_served hs ha, ht, hu]

/-! ## Host signal pages (R341, R349) -/

/-- The index that a port of a slice's page selects. -/
def portIx (t : State) (slice port : Nat) : Nat := bits ((t.slice slice).psel.get 0 port).toNat 19 0

/-- The port posts. -/
def portPosts (t : State) (slice port : Nat) : Bool := ((t.slice slice).psel.get 0 port).getLsbD 20

section
variable {r : Req} {slice port : Nat} {v : BitVec 64} {s t : State}
  (hs : s.served r (signalPage slice + 0x28 + port * 0x20) = true)
  (hp : (decide (port < 15) && s.pageWrite slice r) = true) (ht : s.dropHeld r = t)
include hs hp ht

theorem execHostSignal_acts (hi : portIx t slice port < (t.slice slice).syncSize)
    (hk : (t.syncObj ((t.slice slice).syncObj (portIx t slice port))).kind =
      if portPosts t slice port = true then SyncKind.event else SyncKind.fence) :
    exec (.hostSignal r slice port v) s = .next (if portPosts t slice port = true then
      t.postObj ((t.slice slice).syncObj (portIx t slice port))
      else t.signalObj ((t.slice slice).syncObj (portIx t slice port)) v) :=
  next_regWrite_served hs hp ht (if_pos (by rw [Bool.and_eq_true, decide_eq_true_eq, decide_eq_true_eq]; exact ⟨hi, hk⟩))

theorem execHostSignal_refused (h : (t.slice slice).syncSize ≤ portIx t slice port ∨
      (t.syncObj ((t.slice slice).syncObj (portIx t slice port))).kind ≠
        if portPosts t slice port = true then SyncKind.event else SyncKind.fence) :
    exec (.hostSignal r slice port v) s = .next (t.count slice 0xB 1) := by
  refine next_regWrite_served hs hp ht (if_neg ?_)
  rw [Bool.and_eq_true, decide_eq_true_eq, decide_eq_true_eq, not_and_or]
  exact h.imp_left Nat.not_lt.mpr

end

/-! ## `SYN_SLCFG` (R330) -/

section
variable {r : Req} {v : BitVec 64} {s t : State} (hs : s.served r 0x200018 = true) (hp : globalPage r = true)
  (ht : s.dropHeld r = t)
include hs hp ht

theorem execSynSlcfgWrite_ok (hk : t.slcfgResult t.syn.slsel v = 1) :
    exec (.synSlcfgWrite r v) s = .next (({ t with syn := { t.syn with slres := 1 } } : State).modSlice t.syn.slsel
      fun l => { l with synBase := slGranBase v, synCount := slGranCount v, vecBase := slVecBase v, vecCount := slVecCount v }) := by
  refine next_regWrite_served hs hp ht ?_
  simp only [hk]
  rfl

theorem execSynSlcfgWrite_refused {n : Nat} (hk : t.slcfgResult t.syn.slsel v = n) (hn : n ≠ 1) :
    exec (.synSlcfgWrite r v) s = .next { t with syn := { t.syn with slres := n } } := by
  refine next_regWrite_served hs hp ht ?_
  simp only [hk]
  exact if_pos hn

end

/-! ## `SYN_DBG_CMD` (R347) -/

section
variable {r : Req} {clear : Bool} {i k n : Nat} {s t u : State} (hs : s.served r 0x200040 = true) (hm : r.mgmt = true)
  (ht : s.dropHeld r = t)
include hs hm ht

theorem execSyncDebugRead_reads (ho : t.dbgObj = (i, k)) (hr : t.dbgRefusal = 0) :
    exec (.syncDebugRead r) s = .next { t with syn := { t.syn with
      dbgRes := t.dbgResult 2 ((t.slice i).syncObj k), dbgData := (t.syncObj ((t.slice i).syncObj k)).value } } := by
  refine next_regWriteMgmt_served hs hm ht ?_
  simp only [ho, hr]

theorem execSyncDebugRead_refused (hr : t.dbgRefusal = n + 1) :
    exec (.syncDebugRead r) s = .next { t with syn := { t.syn with dbgRes := BitVec.ofNat 32 (n + 1) } } := by
  refine next_regWriteMgmt_served hs hm ht ?_
  simp only [hr]

theorem execSyncForce_forces (ho : t.dbgObj = (i, k)) (hr : t.dbgRefusal = 0)
    (hu : (t.record 0x91 srcSync [(2, i), (4, k), (8, t.syn.dbgData.toNat)]).forceObj ((t.slice i).syncObj k)
      t.syn.dbgData clear = u) :
    exec (.syncForce r clear) s =
      .next { u with syn := { u.syn with dbgRes := u.dbgResult 2 ((t.slice i).syncObj k) } } := by
  refine next_regWriteMgmt_served hs hm ht ?_
  subst hu
  simp only [ho, hr, record_syn]

theorem execSyncForce_refused (hr : t.dbgRefusal = n + 1) :
    exec (.syncForce r clear) s = .next { t with syn := { t.syn with dbgRes := BitVec.ofNat 32 (n + 1) } } := by
  refine next_regWriteMgmt_served hs hm ht ?_
  simp only [hr]

end

/-! ## Deadlock (R345, R346) -/

section
variable {s : State}

theorem execDeadlockScan_due (hw : s.watching = true) (hd : s.syn.scanAt + 100000000 ≤ s.sys.now) :
    exec .deadlockScan s = .next ((s.cycles s.graphWaits [] []).foldl State.settleCycle { s with syn := { s.syn with
      scanAt := s.now
      reported := s.syn.reported.filter fun k =>
        ((s.cycles s.graphWaits [] []).map fun c => c.map fun w => w.obj).contains k } }) :=
  congrArg _ (if_neg (by simpa [hw] using show s.syn.scanAt + 100 * ms ≤ s.now from hd))

theorem execDeadlockScan_idle (h : s.watching = false ∨ s.sys.now < s.syn.scanAt + 100000000) :
    exec .deadlockScan s = .next s :=
  congrArg _ (if_pos (by simpa using show s.watching = false ∨ s.now < s.syn.scanAt + 100 * ms from h))

theorem execDeadlockEscalate_stalled {u : Nat} (hu : s.stalledUnit = some u) (hw : s.watching = true) :
    exec .deadlockEscalate s = .next (({ s.record 0x15 srcStoker [(1, u), (1, (s.levelFor .deadlock .warm).code)] with
      syn := { s.syn with
        escalated := true
        dlStat := BitVec.ofNat 64 (packFields [(2, 3), (52, 0), (10, fld s.syn.dlStat 63 54)]) } } : State).beginReset
      .deadlock .warm) := by
  change execDeadlockEscalate s = _
  simp [execDeadlockEscalate, hu, hw]

theorem execDeadlockEscalate_idle (h : s.stalledUnit = none ∨ s.watching = false) :
    exec .deadlockEscalate s = .next s := by
  change execDeadlockEscalate s = _
  rcases h with h | h
  · simp [execDeadlockEscalate, h]
  · cases hu : s.stalledUnit <;> simp [execDeadlockEscalate, hu, h]

end

/-- Settles O39: the served writes, and the detection where it is due and where it is not. -/
theorem syncRegistersAndDeadlock : Obligations.SyncRegistersAndDeadlock := by
  refine ⟨fun r slice port v t s hs hp ht hi hb hk => ?_, fun r slice port v t s hs hp ht hi hb hk => ?_,
    fun r slice port v t s hs hp ht => execHostSignal_refused hs hp ht,
    fun r slice t s hs hp ht => next_regWrite_served hs hp ht rfl,
    fun r v t s => execSynSlcfgWrite_ok, fun r v n t s hs hp ht => execSynSlcfgWrite_refused hs hp ht,
    fun r v t s hs hm ht => next_regWriteMgmt_served hs hm ht rfl,
    fun r i k t s => execSyncDebugRead_reads, fun r i k n t s hs hm ht _ => execSyncDebugRead_refused hs hm ht,
    fun r clear i k u t s => execSyncForce_forces, fun r clear i k n t s hs hm ht _ => execSyncForce_refused hs hm ht,
    fun s => execDeadlockScan_due, fun s h => execDeadlockScan_idle (.inl h),
    fun u s => execDeadlockEscalate_stalled, fun s => execDeadlockEscalate_idle,
    fun s h => execDeadlockScan_idle (.inr h)⟩
  · exact (execHostSignal_acts hs hp ht hi (hk.trans (if_pos hb).symm)).trans (congrArg _ (if_pos hb))
  · have hb' : ¬ portPosts t slice port = true := ne_true_of_eq_false hb
    exact (execHostSignal_acts hs hp ht hi (hk.trans (if_neg hb').symm)).trans (congrArg _ (if_neg hb'))

end Sys2Proof.Proofs

/-! COPY and FILL piece after piece in ascending offset (R357, R364, R365). -/

namespace Sys2Proof.Proofs
open Sys2Proof Sys2Proof.Machine

/-! ## Progress -/

/-- A command that has counted the bytes done. -/
def progressed (c : Cmd) (n : Nat) : Cmd := { c with progress := n, done := n, hostGot := [] }

theorem progressCmd_cmd {s : State} {i q seq : Nat} {c : Cmd} (h : s.cmd? i q seq = some c) (n : Nat) :
    (s.progressCmd i q seq n).cmd? i q seq = some (progressed c n) := by
  have hp : (s.progress unQm).cmd? i q seq = some c := h
  unfold State.progressCmd
  rw [modCmd_cmd, hp]
  · rfl
  · exact fun _ => rfl

/-! ## COPY -/

/-- The bytes of the piece of a copy that is next. -/
def copyNext (s : State) (i : Nat) (c : Cmd) : Nat :=
  copyPiece (s.obj i (hIndex (c.f 1 31 0))) (s.obj i (hIndex (c.f 1 63 32))) (c.f 2 39 0 + c.progress)
    (c.f 3 39 0 + c.progress) (c.copyLen - c.progress)

/-- The read of that piece. -/
def copyRead (s : State) (i q seq : Nat) (c : Cmd) : Fetch × State :=
  s.fetchObj i q seq (hIndex (c.f 1 31 0)) (c.f 2 39 0 + c.progress) (copyNext s i c)

/-- The store of its bytes. -/
def copyStore (s : State) (i q seq : Nat) (c : Cmd) (b : List Byte) : Store × State :=
  s.storeObj i q seq (hIndex (c.f 1 63 32)) (c.f 3 39 0 + c.progress) b

section
variable {f i q seq st k : Nat} {c : Cmd} {b : List Byte} {s s₁ s₂ : State}

section
variable (hc : s.cmd? i q seq = some c) (hr : c.runs = true)
include hc hr

theorem copyRun_ends (hp : c.copyLen ≤ c.progress) (hf : f ≠ 0) :
    State.copyRun i q seq f s = s.endCmd i q seq c.copyLen := by
  obtain ⟨n, rfl⟩ := Nat.exists_eq_succ_of_ne_zero hf
  rw [State.copyRun, hc]
  simp [hr, hp]

variable (hp : c.progress < c.copyLen)
include hp

theorem copyRun_succ :
    State.copyRun i q seq (f + 1) s = match copyRead s i q seq c with
      | (.wait, s) => s
      | (.fail st k, s) => s.failCmd i q seq st dtA (c.progress + k)
      | (.got b, u) => match copyStore u i q seq c b with
        | (.wait, s) => s
        | (.fail st k, s) => s.failCmd i q seq st dtB (c.progress + k)
        | (.done, u) => State.copyRun i q seq f (u.progressCmd i q seq (c.progress + copyNext s i c)) := by
  rw [State.copyRun, hc]
  dsimp only
  rw [if_neg (by simp [hr]), if_neg (Nat.not_le.mpr hp)]
  rfl

theorem copyRun_read_waits (hg : copyRead s i q seq c = (.wait, s₁)) : State.copyRun i q seq (f + 1) s = s₁ := by
  rw [copyRun_succ hc hr hp, hg]

theorem copyRun_read_fails (hg : copyRead s i q seq c = (.fail st k, s₁)) :
    State.copyRun i q seq (f + 1) s = s₁.failCmd i q seq st dtA (c.progress + k) := by
  rw [copyRun_succ hc hr hp, hg]

variable (hg : copyRead s i q seq c = (.got b, s₁))
include hg

theorem copyRun_store_waits (hs : copyStore s₁ i q seq c b = (.wait, s₂)) : State.copyRun i q seq (f + 1) s = s₂ := by
  rw [copyRun_succ hc hr hp, hg]
  simp only [hs]

theorem copyRun_store_fails (hs : copyStore s₁ i q seq c b = (.fail st k, s₂)) :
    State.copyRun i q seq (f + 1) s = s₂.failCmd i q seq st dtB (c.progress + k) := by
  rw [copyRun_succ hc hr hp, hg]
  simp only [hs]

theorem copyRun_next (hs : copyStore s₁ i q seq c b = (.done, s₂)) :
    State.copyRun i q seq (f + 1) s =
      State.copyRun i q seq f (s₂.progressCmd i q seq (c.progress + copyNext s i c)) := by
  rw [copyRun_succ hc hr hp, hg]
  simp only [hs]

end

/-- The piece that reaches the end ends the command. -/
theorem execCopy_last (h : s.works i q seq 0x10 c = true) (hp : c.progress < c.copyLen)
    (hg : copyRead s i q seq c = (.got b, s₁)) (hs : copyStore s₁ i q seq c b = (.done, s₂))
    (hc₂ : s₂.cmd? i q seq = some c) (hl : c.progress + copyNext s i c = c.copyLen) :
    exec (.copy i q seq) s = .next ((s₂.progressCmd i q seq c.copyLen).endCmd i q seq c.copyLen) := by
  obtain ⟨hc, hr⟩ := works_cmd h
  refine (next_unit_works h).trans (congrArg _ ?_)
  rw [copyRun_next hc hr hp hg hs, hl]
  exact copyRun_ends (c := progressed c c.copyLen) (progressCmd_cmd hc₂ c.copyLen) hr
    (Nat.le_refl c.copyLen) (Nat.ne_zero_of_lt hp)

/-! ## FILL -/

/-- The bytes of the piece of a fill that is next. -/
def fillNext (s : State) (i : Nat) (c : Cmd) : Nat :=
  min (c.fillLen - c.progress) ((s.obj i (hIndex (c.f 1 31 0))).unitLeft (c.f 2 39 0 + c.progress))

/-- The store of that piece of the pattern. -/
def fillStore (s : State) (i q seq : Nat) (c : Cmd) : Store × State :=
  s.storeObj i q seq (hIndex (c.f 1 31 0)) (c.f 2 39 0 + c.progress) (patternBytes (c.w 3) c.progress (fillNext s i c))

section
variable (hc : s.cmd? i q seq = some c) (hr : c.runs = true)
include hc hr

theorem fillRun_ends (hp : c.fillLen ≤ c.progress) (hf : f ≠ 0) :
    State.fillRun i q seq f s = s.endCmd i q seq c.fillLen := by
  obtain ⟨n, rfl⟩ := Nat.exists_eq_succ_of_ne_zero hf
  rw [State.fillRun, hc]
  simp [hr, hp]

variable (hp : c.progress < c.fillLen)
include hp

theorem fillRun_succ :
    State.fillRun i q seq (f + 1) s = match fillStore s i q seq c with
      | (.wait, s) => s
      | (.fail st k, s) => s.failCmd i q seq st dtA (c.progress + k)
      | (.done, u) => State.fillRun i q seq f (u.progressCmd i q seq (c.progress + fillNext s i c)) := by
  rw [State.fillRun, hc]
  dsimp only
  rw [if_neg (by simp [hr]), if_neg (Nat.not_le.mpr hp)]
  rfl

theorem fillRun_waits (hs : fillStore s i q seq c = (.wait, s₁)) : State.fillRun i q seq (f + 1) s = s₁ := by
  rw [fillRun_succ hc hr hp, hs]

theorem fillRun_fails (hs : fillStore s i q seq c = (.fail st k, s₁)) :
    State.fillRun i q seq (f + 1) s = s₁.failCmd i q seq st dtA (c.progress + k) := by
  rw [fillRun_succ hc hr hp, hs]

theorem fillRun_next (hs : fillStore s i q seq c = (.done, s₁)) :
    State.fillRun i q seq (f + 1) s =
      State.fillRun i q seq f (s₁.progressCmd i q seq (c.progress + fillNext s i c)) := by
  rw [fillRun_succ hc hr hp, hs]

end

theorem execFill_last (h : s.works i q seq 0x11 c = true) (hp : c.progress < c.fillLen)
    (hs : fillStore s i q seq c = (.done, s₁)) (hc₁ : s₁.cmd? i q seq = some c)
    (hl : c.progress + fillNext s i c = c.fillLen) :
    exec (.fill i q seq) s = .next ((s₁.progressCmd i q seq c.fillLen).endCmd i q seq c.fillLen) := by
  obtain ⟨hc, hr⟩ := works_cmd h
  refine (next_unit_works h).trans (congrArg _ ?_)
  rw [fillRun_next hc hr hp hs, hl]
  exact fillRun_ends (c := progressed c c.fillLen) (progressCmd_cmd hc₁ c.fillLen) hr
    (Nat.le_refl c.fillLen) (Nat.ne_zero_of_lt hp)

end

/-- Settles O24: one piece of each run, and the runs of the two commands at their ends. -/
theorem copyAndFill : Obligations.CopyAndFill := by
  refine ⟨fun i q seq c s => next_unit_works, fun i q seq c s => next_unit_works,
    -- ends of the commands
    fun i q seq c s h hp => ?_, fun i q seq c b s₁ s₂ s => execCopy_last, fun i q seq c s h hp => ?_,
    fun i q seq c s₁ s => execFill_last,
    -- pieces that wait, and a piece of a fill that fails
    fun f i q seq c s₁ s => copyRun_read_waits, fun f i q seq c b s₁ s₂ s => copyRun_store_waits,
    fun f i q seq c s₁ s => fillRun_waits, fun f i q seq c st k s₁ s => fillRun_fails,
    -- a copy's end, its pieces, and those that fail
    fun f i q seq c s hc hr hp => copyRun_ends hc hr hp (Nat.succ_ne_zero f), fun f i q seq c b s₁ s₂ s => copyRun_next,
    fun f i q seq c st k s₁ s => copyRun_read_fails, fun f i q seq c b st k s₁ s₂ s => copyRun_store_fails,
    -- a fill's end and its pieces
    fun f i q seq c s hc hr hp => fillRun_ends hc hr hp (Nat.succ_ne_zero f), fun f i q seq c s₁ s => fillRun_next⟩
  · obtain ⟨hc, hr⟩ := works_cmd h
    exact (next_unit_works h).trans (congrArg _ (copyRun_ends hc hr hp (Nat.succ_ne_zero _)))
  · obtain ⟨hc, hr⟩ := works_cmd h
    exact (next_unit_works h).trans (congrArg _ (fillRun_ends hc hr hp (Nat.succ_ne_zero _)))

end Sys2Proof.Proofs

/-! The preferred points of the slices, and the unlimited point of the hub (R490). -/

namespace Sys2Proof.Proofs
open Sys2Proof Sys2Proof.Machine

/-! ## `OPP_REQUEST` -/

/-- The state in which a slice prefers a point. -/
def prefers (s : State) (i p : Nat) : State := s.modSlice i fun l => { l with prefOpp := p }

theorem prefers_slice (s : State) (i p : Nat) : (prefers s i p).slice i = { s.slice i with prefOpp := p } :=
  slice_setSlice_same ..

theorem prefers_cmd (s : State) (i p q seq : Nat) : (prefers s i p).cmd? i q seq = s.cmd? i q seq := by
  simp only [State.cmd?, State.queue, prefers_slice]

theorem endCmd_prefOpp (s : State) (i q seq d : Nat) (r : BitVec 64) :
    ((s.endCmd i q seq d r).slice i).prefOpp = (s.slice i).prefOpp :=
  (congrArg Slice.prefOpp (slice_setSlice_same ..)).trans rfl

theorem endCmd_slice_other (s : State) {i j : Nat} (q seq d : Nat) (r : BitVec 64) (h : j ≠ i) :
    (s.endCmd i q seq d r).slice j = s.slice j :=
  slice_setSlice_other s _ h

/-! ## The unlimited point -/

/-- A slice with queued or executing commands. -/
def busySlice (l : Slice) : Prop := ∃ x ∈ l.queues.cells, x.2.cmds ≠ []

theorem mem_busyPrefs {s : State} {p : Nat} :
    p ∈ s.busyPrefs ↔ ∃ e ∈ s.qm.slices.cells, busySlice e.2 ∧ e.2.prefOpp = p := by
  simp [State.busyPrefs, busySlice, and_assoc]

/-- Where pacing does not act, the unlimited point is the least preferred point, or 5. -/
theorem hubPoint_unpaced {s : State} (h : s.pacing < 50 ∨ s.prevailingHint ≠ 1) :
    s.hubPoint = s.busyPrefs.min?.getD 5 := by
  refine if_neg ?_
  rcases h with h | h <;> simp [h]

theorem hubPoint_idle {s : State} (h : s.pacing < 50 ∨ s.prevailingHint ≠ 1)
    (hb : ∀ e ∈ s.qm.slices.cells, ¬ busySlice e.2) : s.hubPoint = 5 := by
  have hn : s.busyPrefs = [] := List.eq_nil_iff_forall_not_mem.mpr fun p hp => by
    obtain ⟨e, he, hbe, -⟩ := mem_busyPrefs.mp hp
    exact hb e he hbe
  rw [hubPoint_unpaced h, hn]
  rfl

theorem hubPoint_busy {s : State} (h : s.pacing < 50 ∨ s.prevailingHint ≠ 1)
    (hb : ∃ e ∈ s.qm.slices.cells, busySlice e.2) :
    s.hubPoint ∈ s.busyPrefs ∧ ∀ p ∈ s.busyPrefs, s.hubPoint ≤ p := by
  obtain ⟨e, he, hbe⟩ := hb
  have hne : s.busyPrefs ≠ [] := List.ne_nil_of_mem (mem_busyPrefs.mpr ⟨e, he, hbe, rfl⟩)
  obtain ⟨p, hp⟩ := Option.isSome_iff_exists.mp (List.isSome_min?_of_ne_nil hne)
  rw [hubPoint_unpaced h, hp]
  exact List.min?_eq_some_iff.mp hp

/-- Settles O23: the command's slice alone changes its point, and the unlimited point is a minimum. -/
theorem preferredPointOfASlice : Obligations.PreferredPointOfASlice := by
  refine ⟨fun i => by rw [reset_slice], fun i q seq c s h => ⟨_, next_unit_works h, ?_, fun j hj => ?_, ?_⟩,
    fun s h hb => hubPoint_idle h fun e he ⟨x, hx, hc⟩ => hc (hb e he x hx), fun s h hb => ?_⟩
  · exact (endCmd_prefOpp ..).trans (congrArg Slice.prefOpp (prefers_slice ..))
  · exact (endCmd_slice_other _ _ _ _ _ hj).trans (slice_setSlice_other s _ hj)
  · exact endCmd_after h (prefers_cmd ..) _ _
  · obtain ⟨hm, hle⟩ := hubPoint_busy h hb
    obtain ⟨e, he, hbe, hp⟩ := mem_busyPrefs.mp hm
    exact ⟨⟨e, he, hbe, hp.symm⟩, fun e he hbe => hle _ (mem_busyPrefs.mpr ⟨e, he, hbe, rfl⟩)⟩

end Sys2Proof.Proofs

/-! The binding of a slice to a slot, translations and page requests, host transfers, the function level reset and the
configuration space (R387 to R393, R407, R455). -/

namespace Sys2Proof.Proofs
open Sys2Proof Sys2Proof.Machine

/-! ## `DOM_BIND_SLICE` (R387) -/

theorem execDomBindSlice_badParam {m : Mgmt} {slot slice : Nat} {s : State} (hh : s.hears m false = true)
    (hs : s.slotFree slot = true) (hl : slice < 2048) (hj : (s.slot slot).joinable = true)
    (ht : (s.slice slice).tdi ≠ .locked ∧ (s.slice slice).tdi ≠ .run) :
    exec (.domBindSlice m slot slice) s = .next (s.answer .badParam) := by
  refine congrArg Host.Outcome.next ?_
  rw [domMsg_hears hh, slotMsg_free hs, if_neg (Nat.not_le.mpr hl), if_neg (by simp [hj]), if_pos (by simp [ht])]

/-- Settles O52, from the order of the command's judgements. -/
theorem bindingNeedsALockedInterface : Obligations.BindingNeedsALockedInterface :=
  fun _ _ _ _ hh hs hl hj hn hr => execDomBindSlice_badParam hh hs hl hj ⟨hn, hr⟩

/-! ## Translation Requests (R388, R389) -/

/-- The request for a page is out. -/
def asks (s : State) (pasid : BitVec 20) (page : Nat) : Bool := s.hst.xreqs.any fun r => r.1 = pasid && r.2.1 = page

/-- The state behind a request that the host has answered, or has not in time: neither it nor a group it retried stands. -/
def xlatClosed (s : State) (pasid : BitVec 20) (page : Nat) : State :=
  { s with hst := { s.hst with
    xreqs := s.hst.xreqs.filter fun r => !(r.1 = pasid && r.2.1 = page)
    groups := s.hst.groups.filter fun g => !(g.pasid = pasid && g.page = page && g.retried) } }

/-- A page that the completion does not give may be asked for: page requests are on, not blocked, and this is no retry. -/
def mayAskPage (s : State) (pasid : BitVec 20) (page : Nat) : Bool :=
  s.hst.pri && !s.hst.priBlocked && !(s.hst.groups.any fun g => g.pasid = pasid && g.page = page && g.retried)

section
variable {pasid : BitVec 20} {page base size trans group code : Nat} {c : XlatCpl} {write rd wr : Bool} {s t : State}

theorem execTranslationCompletion_unasked (h : (s.hst.xreqs.find? fun r => r.1 = pasid && r.2.1 = page) = none) :
    exec (.translationCompletion pasid page c) s = .next s := by
  change execTranslationCompletion pasid page c s = _
  rw [execTranslationCompletion, h]

theorem execTranslationTimeout_asked (h : asks s pasid page = true) (ht : xlatClosed s pasid page = t) :
    exec (.translationTimeout pasid page) s = .next ((t.settlePage pasid page true).wakeStarved) := by
  subst ht
  exact congrArg _ (if_pos h)

theorem execTranslationTimeout_unasked (h : asks s pasid page = false) :
    exec (.translationTimeout pasid page) s = .next s :=
  congrArg _ (if_neg (ne_true_of_eq_false h))

section
variable (h : (s.hst.xreqs.find? fun r => r.1 = pasid && r.2.1 = page) = some (pasid, page, write))
  (ht : xlatClosed s pasid page = t)
include h ht

theorem execTranslationCompletion_refused :
    exec (.translationCompletion pasid page .refused) s = .next ((t.settlePage pasid page true).wakeStarved) := by
  change execTranslationCompletion pasid page .refused s = _
  rw [execTranslationCompletion, h]
  exact congrArg (fun t : State => Host.Outcome.next (t.settlePage pasid page true).wakeStarved) ht

/-- A translation that gives the right asked for, one for which the page is asked, and one that fails. -/
theorem execTranslationCompletion_success :
    exec (.translationCompletion pasid page (.success base size trans rd wr)) s = .next (
      if (if write then wr else rd) = true then
        ((t.fillXlat { pasid, base, size, trans, rd, wr }).settlePage pasid page false).wakeStarved
      else if mayAskPage s pasid page = true then (t.askPage pasid page write).wakeStarved
      else (t.settlePage pasid page true).wakeStarved) := by
  subst ht
  change execTranslationCompletion pasid page (.success base size trans rd wr) s = _
  rw [execTranslationCompletion, h]
  rfl

end

/-! ## Page requests (R390) -/

/-- What a response does to an outstanding group. -/
theorem execPageResponse_group {x : PageGroup} (h : s.groupOf pasid group = some x) :
    exec (.pageResponse pasid group code) s = .next (
      if x.void = true then s.failGroup x
      else if code = 0 then
        (({ s with hst := { s.hst with
          groups := s.hst.groups.map fun (y : PageGroup) => if y = x then { y with retried := true } else y
          xreqs := s.hst.xreqs ++ [(pasid, x.page, x.write)] } } : State).emit (.xlatRequest pasid x.page))
      else if code = 1 then s.failGroup x
      else ({ s with hst := { s.hst with priBlocked := true } } : State).failGroup x) := by
  change execPageResponse pasid group code s = _
  rw [execPageResponse, h]

theorem execPageResponse_unknown (h : s.groupOf pasid group = none) :
    exec (.pageResponse pasid group code) s = .next s := by
  change execPageResponse pasid group code s = _
  rw [execPageResponse, h]

theorem execPrqTimeout_group {x : PageGroup} (h : s.groupOf pasid group = some x) :
    exec (.prqTimeout pasid group) s = .next (if x.due ≤ s.now then s.failGroup x else s) := by
  change execPrqTimeout pasid group s = _
  rw [execPrqTimeout, h]

theorem execPrqTimeout_unknown (h : s.groupOf pasid group = none) : exec (.prqTimeout pasid group) s = .next s := by
  change execPrqTimeout pasid group s = _
  rw [execPrqTimeout, h]

end

/-! ## Invalidations (R392, R393) -/

section
variable {itag addr size : Nat} {pasid : BitVec 20} {global : Bool} {s : State}

/-- The entries that an invalidation meets. -/
def invalidates (pasid : BitVec 20) (global : Bool) (addr size : Nat) (x : Xlat) : Bool :=
  (global || decide (x.pasid = pasid)) && decide (x.base < addr + size) && decide (addr < x.base + x.size)

/-- The state in which an invalidation counts its transfers. -/
def invalidated (s : State) (itag : Nat) (pasid : BitVec 20) (global : Bool) (addr size : Nat) : State :=
  { s with hst := { s.hst with
    xlat := s.hst.xlat.filter fun x => !invalidates pasid global addr size x
    invals := s.hst.invals ++ [{
      itag
      xfers := (s.hst.xfers.filter fun t => t.matched pasid global addr size ||
        (s.hst.xlat.filter (invalidates pasid global addr size)).any fun x => x.carries t).map Xfer.id
      due := s.sys.now + 2000000 }] } }

theorem execAtsInvalidation_served (hs : s.hostServes = true) (hn : s.hst.invals.length < 32) :
    exec (.atsInvalidation itag pasid global addr size) s =
      .next (invalidated s itag pasid global addr size).settleInvals :=
  congrArg _ (if_neg (by simp [hs, hn]))

theorem execAtsInvalidation_ignored (h : s.hostServes = false ∨ 32 ≤ s.hst.invals.length) :
    exec (.atsInvalidation itag pasid global addr size) s = .next s :=
  congrArg _ (if_pos (by simpa using h))

theorem execInvalidationTimeout_past {v : Inval}
    (h : (s.hst.invals.find? fun v => v.itag = itag && v.due ≤ s.now) = some v) :
    exec (.invalidationTimeout itag) s = .next ((s.forEach v.xfers State.abandonXfer).drainXfers v.xfers) := by
  change execInvalidationTimeout itag s = _
  rw [execInvalidationTimeout, h]

theorem execInvalidationTimeout_idle (h : (s.hst.invals.find? fun v => v.itag = itag && v.due ≤ s.now) = none) :
    exec (.invalidationTimeout itag) s = .next s := by
  change execInvalidationTimeout itag s = _
  rw [execInvalidationTimeout, h]

end

/-- Settles O40: completions, responses and invalidations of what is outstanding, and of what is not. -/
theorem translations : Obligations.Translations := by
  refine ⟨
    -- Translation Requests
    fun pasid page c s => execTranslationCompletion_unasked,
    fun pasid page write t s => execTranslationCompletion_refused,
    fun pasid page write t base size trans rd wr s h ht hr =>
      (execTranslationCompletion_success h ht).trans (congrArg _ (if_pos hr)),
    fun pasid page write t base size trans rd wr s h ht hr ha =>
      (execTranslationCompletion_success h ht).trans
        (congrArg _ ((if_neg (ne_true_of_eq_false hr)).trans (if_pos ha))),
    fun pasid page write t base size trans rd wr s h ht hr ha =>
      (execTranslationCompletion_success h ht).trans
        (congrArg _ ((if_neg (ne_true_of_eq_false hr)).trans (if_neg (ne_true_of_eq_false ha)))),
    fun pasid page t s => execTranslationTimeout_asked, fun pasid page s => execTranslationTimeout_unasked,
    -- page requests
    fun pasid group x s h hv => (execPageResponse_group h).trans (congrArg _ (if_neg (ne_true_of_eq_false hv))),
    fun pasid group x s h hv => (execPageResponse_group h).trans (congrArg _ (if_neg (ne_true_of_eq_false hv))),
    fun pasid group x code s h hv hc => ?_, fun pasid group code s => execPageResponse_unknown,
    fun pasid group x s h hd => (execPrqTimeout_group h).trans (congrArg _ (if_pos hd)),
    fun pasid group s => execPrqTimeout_unknown,
    fun r v t s hs hm ht h1 h100 => next_regWriteMgmt_served hs hm ht (if_pos (by simp [h1, h100])),
    -- invalidations
    fun itag pasid global addr size s => execAtsInvalidation_served, fun itag v s => execInvalidationTimeout_past,
    fun itag s => execInvalidationTimeout_idle,
    -- void groups, groups in time, and what is ignored
    fun pasid group x code s h hv => (execPageResponse_group h).trans (congrArg _ (if_pos hv)),
    fun pasid group x s h hd => (execPrqTimeout_group h).trans (congrArg _ (if_neg (Nat.not_le.mpr hd))),
    fun itag pasid global addr size s => execAtsInvalidation_ignored,
    fun r v t s hs hm ht hb => next_regWriteMgmt_served hs hm ht (if_neg (by simp; omega))⟩
  · rw [execPageResponse_group h, if_neg (ne_true_of_eq_false hv), if_neg (by omega)]
    by_cases h1 : code = 1
    · omega
    · rw [if_neg h1]

/-! ## Transfers (R391, R392) -/

section
variable {id : Nat} {data : List Byte} {ok : Bool} {x : Xfer} {s u : State}

/-- The bytes of a transfer, padded to its length. -/
def xferBytes (x : Xfer) (data : List Byte) : List Byte := (data ++ List.replicate x.len 0).take x.len

theorem execHostTransferCompletion_unknown (h : (s.hst.xfers.find? fun t => t.id = id) = none) :
    exec (.hostTransferCompletion id data ok) s = .next s := by
  change execHostTransferCompletion id data ok s = _
  rw [execHostTransferCompletion, h]

section
variable (h : (s.hst.xfers.find? fun t => t.id = id) = some x)
  (hu : { s with hst := { s.hst with xfers := s.hst.xfers.filter fun y => y.id ≠ id } } = u)
include h hu

theorem execHostTransferCompletion_late (ha : x.abandoned = true) :
    exec (.hostTransferCompletion id data ok) s =
      .next { u with hst := { u.hst with lateCpl := (u.hst.lateCpl + 1) % 2 ^ 14 } } := by
  subst hu
  change execHostTransferCompletion id data ok s = _
  rw [execHostTransferCompletion, h]
  exact congrArg _ (if_pos ha)

theorem execHostTransferCompletion_parked (ha : x.abandoned = false) (hq : x.queue = 2 ^ 18) :
    exec (.hostTransferCompletion id data ok) s = .next (State.parkedData
      (if ok = true then (u.drainXfers [id]).hostPut x.pasid x.addr (xferBytes x data) else u.drainXfers [id]) id
      (if ok = true then some (xferBytes x data) else none)) := by
  subst hu
  change execHostTransferCompletion id data ok s = _
  rw [execHostTransferCompletion, h]
  exact congrArg _ ((if_neg (ne_true_of_eq_false ha)).trans (if_pos hq))

theorem execHostTransferCompletion_waited (ha : x.abandoned = false) (hq : x.queue ≠ 2 ^ 18) :
    exec (.hostTransferCompletion id data ok) s = .next (((
      if ok = true then (u.drainXfers [id]).hostPut x.pasid x.addr (xferBytes x data) else u.drainXfers [id]).modCmd
        x.slice x.queue x.seq fun c =>
          (if ok = true then { c with hostOut := c.hostOut - 1, hostGot := c.hostGot ++ [(x.addr, xferBytes x data)] }
            else { c with hostOut := c.hostOut - 1, xlatBad := x.addr / 4096 + 1 } : Cmd).settleStop).settleFab
      x.slice x.queue) := by
  subst hu
  change execHostTransferCompletion id data ok s = _
  rw [execHostTransferCompletion, h]
  exact congrArg _ ((if_neg (ne_true_of_eq_false ha)).trans (if_neg hq))

end

end

/-! ## The function level reset (R455) -/

/-- What the reset does to a slice in use. -/
def flrSlice (s : State) (i : Nat) : State :=
  (if (s.slice i).state = .active then (s.startAction i 2 (s.squashable i)).startReset i true
    else s.modSlice i fun l => { l with toFree := true }).modSlice i fun l => { l with tdi := .unlocked, stream := none, tdiNonce := 0 }

theorem execFunctionLevelReset_unserved {s : State} (hs : s.hostServes = false) :
    exec .functionLevelReset s = .next (s.emit (.hostAnswer 1)) :=
  congrArg _ (if_pos (by simp [hs]))

theorem execFunctionLevelReset_served {s u : State} (hs : s.hostServes = true)
    (hu : s.forEach ((s.qm.slices.cells.filter fun e => e.2.state ≠ .free).map Prod.fst) flrSlice = u) :
    exec .functionLevelReset s =
      .next (({ u with hst := { u.hst with ide := [], xlat := [] } } : State).emit (.hostAnswer 2)) := by
  subst hu
  exact congrArg _ (if_neg (by simp [hs]))

/-! ## The configuration space -/

/-- What a served configuration write does. -/
def configured (s : State) : HostCfg → State
  | .ats true => { s with hst := { s.hst with ats := true } }
  | .ats false => s.atsOff
  | .pri on => { s with hst := { s.hst with pri := on } }
  | .priReset => { s with hst := { s.hst with priBlocked := false } }

theorem execHostConfigWrite_unserved {s : State} {c : HostCfg} (hs : s.hostServes = false) :
    exec (.hostConfigWrite c) s = .next (s.emit (.hostAnswer 1)) :=
  congrArg _ (if_pos (by simp [hs]))

theorem execHostConfigWrite_served {s : State} {c : HostCfg} (hs : s.hostServes = true) :
    exec (.hostConfigWrite c) s = .next (configured s c) :=
  congrArg _ ((if_neg (by simp [hs])).trans (by cases c with | ats on => cases on <;> rfl | _ => rfl))

/-- Settles O41: transfers by their outcome, and the two requests of the host's function. -/
theorem hostTransfersAndFunction : Obligations.HostTransfersAndFunction := by
  refine ⟨fun id data ok s => execHostTransferCompletion_unknown,
    fun id data ok x u s => execHostTransferCompletion_late,
    fun id data x u s => execHostTransferCompletion_waited, fun id data x u s => execHostTransferCompletion_waited,
    fun id data ok x u s => execHostTransferCompletion_parked, fun s => execFunctionLevelReset_unserved,
    fun u s hs hu => ⟨_, execFunctionLevelReset_served hs hu, rfl, rfl, rfl, rfl⟩,
    fun c s => execHostConfigWrite_unserved, fun s => execHostConfigWrite_served, fun s => execHostConfigWrite_served,
    fun on s => execHostConfigWrite_served, fun s => execHostConfigWrite_served⟩

end Sys2Proof.Proofs

/-! The admission of the chiplet sites over their sidebands, and the commands of their access windows (R395 to R402). -/

namespace Sys2Proof.Proofs
open Sys2Proof Sys2Proof.Machine

section
variable {site : Nat} {rsp : SiteRsp} {s : State}

/-! ## The link of a site (R395, R398) -/

/-- The state in which a site's link is up. -/
def siteLinked (s : State) (site : Nat) : State := s.setSite site { s.site site with linkUp := true }

theorem execSiteLinkActive_rises (h8 : site < 8) (hl : (s.site site).linkUp = false) :
    exec (.siteLinkActive site) s = .next (
      if ((siteLinked s site).siteUp && (siteLinked s site).clkRuns (.dclk site) &&
        decide ((s.site site).state ≠ .probing)) = true then (siteLinked s site).startAdmission site
      else siteLinked s site) :=
  congrArg _ (if_neg (by simp [hl, h8]))

theorem execSiteLinkActive_ignored (h : 8 ≤ site ∨ (s.site site).linkUp = true) :
    exec (.siteLinkActive site) s = .next s :=
  congrArg _ (if_pos (by simpa using h))

/-- What the loss of its link makes of a site. -/
def unlinked (t : Site) : Site :=
  let t := { t with linkUp := false }
  match t.state with
  | .admitted => { t with state := .suspended }
  | .probing => { t with state := .empty, step := 0, was := false }
  | _ => t

theorem execSiteLinkInactive_unlinks : exec (.siteLinkInactive site) s = .next (s.setSite site (unlinked (s.site site))) :=
  rfl

theorem unlinked_idle {t : Site} (ha : t.state ≠ .admitted) (hp : t.state ≠ .probing) :
    unlinked t = { t with linkUp := false } := by
  unfold unlinked
  cases h : t.state <;> simp_all

/-! ## Answers of a chiplet (R395 to R398) -/

/-- The step of an admission that an answer belongs to; an error belongs to none. -/
def rspStep : SiteRsp → Nat
  | .version _ => 1 | .capabilities _ _ _ => 2 | .algorithms _ => 3 | .digests => 4 | .certificate _ _ _ _ _ _ => 5
  | .measurements _ _ _ _ _ _ => 6 | .error => 0

/-- What an answer does in its step. -/
def siteAnswered (s : State) (site : Nat) : SiteRsp → State
  | .version ok => if ok then s.siteNext site else s.siteFail site scVersion
  | .capabilities cert meas e =>
    if cert && meas then (s.setSite site { s.site site with ctExp := some e }).siteNext site else s.siteFail site scProtocol
  | .algorithms ok => if ok then s.siteNext site else s.siteFail site scAlgorithm
  | .digests => s.siteNext site
  | .certificate bytes certs root verifies leafSigns key =>
    if s.chainAccepted bytes certs root verifies leafSigns then
      (s.setSite site { s.site site with leafKey := key }).siteNext site
    else s.siteFail site scChain
  | .measurements record lead head mid tail sig =>
    if ecVerify (s.site site).leafKey sig ((s.site site).signed record lead head mid tail) then
      s.sitePass site (BitVec.ofNat 384 (leNat (sha384 record)))
    else s.siteFail site scSignature
  | .error => s.siteFail site scProtocol

theorem execSiteSpdmResponse_unasked (hp : (s.site site).state ≠ .probing) :
    exec (.siteSpdmResponse site rsp) s = .next s :=
  congrArg _ (if_pos hp)

section
variable (hp : (s.site site).state = .probing)
include hp

theorem execSiteSpdmResponse_inStep (hk : (s.site site).step = rspStep rsp) :
    exec (.siteSpdmResponse site rsp) s = .next (siteAnswered s site rsp) := by
  refine congrArg Host.Outcome.next ((if_neg (not_not.mpr hp)).trans ?_)
  split
  case h_7 rsp _ _ h1 h2 h3 h4 h5 h6 =>
    cases rsp with
    | version => exact (h1 _ hk rfl).elim
    | capabilities => exact (h2 _ _ _ hk rfl).elim
    | algorithms => exact (h3 _ hk rfl).elim
    | digests => exact (h4 hk rfl).elim
    | certificate => exact (h5 _ _ _ _ _ _ hk rfl).elim
    | measurements => exact (h6 _ _ _ _ _ _ hk rfl).elim
    | error => rfl
  all_goals rfl

theorem execSiteSpdmResponse_outOfStep (hk : rspStep rsp ≠ (s.site site).step ∨ rsp = .error) :
    exec (.siteSpdmResponse site rsp) s = .next (s.siteFail site scProtocol) := by
  refine congrArg Host.Outcome.next ((if_neg (not_not.mpr hp)).trans ?_)
  split
  case h_7 => rfl
  all_goals simp_all [rspStep]

end

/-! ## Answers that do not come (R397) -/

theorem execSiteSpdmTimeout_early (h : (s.site site).state ≠ .probing ∨ s.sys.now < (s.site site).due) :
    exec (.siteSpdmTimeout site) s = .next s :=
  congrArg _ (if_pos (by simpa using show (s.site site).state ≠ .probing ∨ s.now < (s.site site).due from h))

theorem execSiteSpdmTimeout_due (hp : (s.site site).state = .probing) (hd : (s.site site).due ≤ s.sys.now) :
    exec (.siteSpdmTimeout site) s =
      .next (if (s.site site).sends < 3 then s.siteSend site else s.siteFail site scNoResponse) :=
  congrArg _ (if_neg (by simpa [hp] using show (s.site site).due ≤ s.now from hd))

end

/-! ## Window commands (R402) -/

section
variable {r : Req} {path : Option Nat} {v : BitVec 32} {op : Nat} {f : Site → State → State} {s t : State}
  (hs : s.served r (swCmdOff path) = true) (ha : s.swAdmits r path = true) (ht : s.dropHeld r = t)
include hs ha ht

theorem next_swCommand_otherOp (ho : swOp v ≠ op) : (.next (s.swCommand r path v op f) : Res) = .next t :=
  next_regWrite_served hs ha ht (if_pos ho)

variable (ho : swOp v = op)
include ho

theorem next_swCommand_notOwned (hw : t.swOwns path (t.site (swSite v)) = false) :
    (.next (s.swCommand r path v op f) : Res) = .next (t.swResult path 3) :=
  next_regWrite_served hs ha ht ((if_neg (not_not.mpr ho)).trans (if_neg (ne_true_of_eq_false hw)))

variable {u : State} (hw : t.swOwns path (t.site (swSite v)) = true) (hu : f (t.site (swSite v)) t = u)
include hw hu

theorem next_swCommand_owned : (.next (s.swCommand r path v op f) : Res) = .next u :=
  next_regWrite_served hs ha ht ((if_neg (not_not.mpr ho)).trans ((if_pos hw).trans hu))

end

/-- Settles O43: the link, the answers in and out of step, the timeout, and each window command once it is owned. -/
theorem siteLinksAndWindows : Obligations.SiteLinksAndWindows := by
  refine ⟨
    -- the link
    fun site s h8 hl hu hc hp => (execSiteLinkActive_rises h8 hl).trans (congrArg _ (if_pos ?_)),
    fun site s h8 hl hb => (execSiteLinkActive_rises h8 hl).trans (congrArg _ (if_neg ?_)),
    fun site s => execSiteLinkActive_ignored,
    -- answers
    fun site rsp s => execSiteSpdmResponse_unasked, fun site s hp hk => execSiteSpdmResponse_inStep hp hk,
    fun site s hp hk => execSiteSpdmResponse_inStep hp hk, fun site e s hp hk => execSiteSpdmResponse_inStep hp hk,
    fun site cert meas e s hp hk hb =>
      (execSiteSpdmResponse_inStep hp (hk.trans rfl)).trans (congrArg _ (if_neg (ne_true_of_eq_false hb))),
    fun site s hp hk => execSiteSpdmResponse_inStep hp hk, fun site s hp hk => execSiteSpdmResponse_inStep hp hk,
    fun site s hp hk => execSiteSpdmResponse_inStep hp hk,
    fun site s hp hk => execSiteSpdmResponse_outOfStep hp (.inl (by rw [hk]; decide)),
    fun site bytes certs root verifies leafSigns key s hp hk hc =>
      (execSiteSpdmResponse_inStep hp (hk.trans rfl)).trans (congrArg _ (if_neg (ne_true_of_eq_false hc))),
    fun site bytes certs root verifies leafSigns key s hp hk hc =>
      (execSiteSpdmResponse_inStep hp (hk.trans rfl)).trans (congrArg _ (if_pos hc)),
    fun site r x h m y g s hp hk hv => (execSiteSpdmResponse_inStep hp (hk.trans rfl)).trans (congrArg _ (if_pos hv)),
    fun site r x h m y g s hp hk hv =>
      (execSiteSpdmResponse_inStep hp (hk.trans rfl)).trans (congrArg _ (if_neg (ne_true_of_eq_false hv))),
    fun site rsp s hp hk => execSiteSpdmResponse_outOfStep hp (by cases rsp <;> exact hk),
    fun site s => execSiteSpdmTimeout_early,
    fun site s ha hp => execSiteLinkInactive_unlinks.trans (by rw [unlinked_idle ha hp]),
    fun site s hp hd hn => (execSiteSpdmTimeout_due hp hd).trans (congrArg _ (if_pos hn)),
    fun site s hp hd hn => (execSiteSpdmTimeout_due hp hd).trans (congrArg _ (if_neg (Nat.not_lt.mpr hn))),
    fun site s ha => execSiteLinkInactive_unlinks.trans (by simp only [unlinked, ha]),
    fun site s hp => execSiteLinkInactive_unlinks.trans (by simp only [unlinked, hp]),
    -- window commands of a site that the path does not own
    fun r path v t s => next_swCommand_notOwned, fun r path v t s => next_swCommand_notOwned,
    fun r path v t s => next_swCommand_notOwned, fun r path v t s => next_swCommand_notOwned,
    -- `SET`, `CLEAR` and `CLEAR_KID`
    fun r path v t s hs ha ht ho hw hf => next_swCommand_owned hs ha ht ho hw (if_pos (by simp [hf])),
    fun r path v t s hs ha ht ho hw hf hk =>
      next_swCommand_owned hs ha ht ho hw ((if_neg (by simp [hf])).trans (if_pos (by simp [hk]))),
    fun r path v t s hs ha ht ho hw hf hk =>
      next_swCommand_owned hs ha ht ho hw ((if_neg (by simp [hf])).trans (if_neg (by simp [hk]))),
    fun r path v t s hs ha ht ho hw => next_swCommand_owned hs ha ht ho hw rfl,
    fun r path v t s hs ha ht ho hw => next_swCommand_owned hs ha ht ho hw rfl,
    -- `READMIT`
    fun r path v t s hs ha ht ho hw hn hp =>
      next_swCommand_owned hs ha ht ho hw ((if_neg (by simp [hn])).trans (if_neg hp)),
    fun r path v t s hs ha ht ho hw hn hp =>
      next_swCommand_owned hs ha ht ho hw ((if_neg (by simp [hn])).trans (if_pos hp)),
    fun r path v t s hs ha ht ho hw hn => next_swCommand_owned hs ha ht ho hw (if_pos hn),
    -- words of other commands
    fun r path v t s => next_swCommand_otherOp, fun r path v t s => next_swCommand_otherOp,
    fun r path v t s => next_swCommand_otherOp, fun r path v t s => next_swCommand_otherOp⟩
  · simp only [Bool.and_eq_true, decide_eq_true_eq]
    exact ⟨⟨hu, hc⟩, hp⟩
  · simp only [Bool.and_eq_true, decide_eq_true_eq, not_and_or, Bool.not_eq_true, not_not, or_assoc]
    exact hb

end Sys2Proof.Proofs

/-! The package bridges: heartbeats, lost dies, hellos, elections and the control class (R48, R60, R403 to R406). -/

namespace Sys2Proof.Proofs
open Sys2Proof Sys2Proof.Machine

section
variable {s t u : State}

/-! ## Heartbeats (R404 to R406) -/

/-- The beat of a die that serves its peers: hellos to the dies that rejoin, and a heartbeat to every peer. -/
def beat (s : State) : State :=
  let t := s.forEach s.hst.rejoinWait fun s h => s.toPeer h bkHello (s.helloVals true)
  t.toPeers bkHeartbeat [t.pos]

/-- The hellos of an election. -/
def electionHellos (s : State) : State :=
  s.forEach ((List.range s.positions).filter fun h => h ≠ s.pos) fun s h => s.toPeer h bkHello (s.helloVals false)

theorem execBridgeHeartbeatSend_idle (h : s.bridgeUp = false ∨ s.sys.now < s.hst.beatAt + 1000000) :
    exec .bridgeHeartbeatSend s = .next s :=
  congrArg _ (if_pos (by simpa using show s.bridgeUp = false ∨ s.now < s.hst.beatAt + ms from h))

theorem execBridgeHeartbeatSend_due (hb : s.bridgeUp = true) (hd : s.hst.beatAt + 1000000 ≤ s.sys.now)
    (ht : { s with hst := { s.hst with beatAt := s.now } } = t)
    (hu : (if t.hst.electing = true then electionHellos t else t) = u) :
    exec .bridgeHeartbeatSend s = .next (if u.rst.step < 5 then u else beat u) := by
  subst ht hu
  exact congrArg _ (if_neg (by simpa [hb] using show s.hst.beatAt + ms ≤ s.now from hd))

/-! ## Lost dies (R60, R71, R404) -/

/-- The state in which a die is lost, and recorded. -/
def peerMarked (s : State) (pos : Nat) : State :=
  ({ s with
    hst := { s.hst with lost := s.hst.lost ||| ((1 : BitVec 8) <<< pos)
                        group := if pos = s.hst.leadPos then .leadLost else s.hst.group }
    dom := { s.dom with compositeOk := false } } : State).record 0xA1 (0x50 + pos) [(1, 0), (1, 2 ^ pos)]

/-- What awaits a lost die fails, and its statement is dropped. -/
def peerDropped (u : State) (pos : Nat) : State :=
  (u.forEach (allSlots.filter fun i => (u.slot i).awaiting ≠ 0 && (u.slot i).unconfirmed.contains pos)
    State.confirmFails).dropStatement pos

theorem execBridgePeerLost_silent {pos : Nat} (hp : s.peers.contains pos = true) (he : s.hst.electing = false)
    (hd : s.hst.heardAt.get 0 pos + 20000000 ≤ s.sys.now) (hu : peerDropped (peerMarked s pos) pos = u) :
    exec (.bridgePeerLost pos) s = .next (u.forEach (allSlots.filter fun i => (u.slot i).state ≠ .empty)
      fun s i => s.memberLost (some i) s.fab.node pos) := by
  subst hu
  refine congrArg _ (if_neg ?_)
  rw [hp, he]
  simpa using show s.hst.heardAt.get 0 pos + 20 * ms ≤ s.now from hd

theorem execBridgePeerLost_idle {pos : Nat} (h : s.peers.contains pos = false ∨ s.hst.electing = true ∨
    s.sys.now < s.hst.heardAt.get 0 pos + 20000000) : exec (.bridgePeerLost pos) s = .next s :=
  congrArg _ (if_pos (by
    simpa [or_assoc] using show s.peers.contains pos = false ∨ s.hst.electing = true ∨
      s.now < s.hst.heardAt.get 0 pos + 20 * ms from h))

/-! ## Hellos (R405, R406) -/

/-- A hello is noted. -/
def helloNoted (h : Hello) (s : State) : State :=
  { s with hst := { s.hst with hellos := (h.pos, h.serial, h.pkgSize, h.lc) :: s.hst.hellos.filter fun e => e.1 ≠ h.pos } }

section
variable {h : Hello}

theorem execBridgeHelloReceive_noPeer (hp : 8 ≤ h.pos ∨ h.pos = s.pos) : exec (.bridgeHelloReceive h) s = .next s :=
  congrArg _ (if_pos (by simpa [or_assoc] using Or.inr hp))

section
variable (hb : s.bridgeUp = true) (h8 : h.pos < 8) (hp : h.pos ≠ s.pos)
include hb h8 hp

/-- A hello of a recovered die. -/
theorem execBridgeHelloReceive_rejoin {lead : Nat} {serial : BitVec 64} {z : BitVec 8}
    (hr : h.rejoin = some (lead, serial, z)) :
    exec (.bridgeHelloReceive h) s = .next (if s.rejoins h lead serial = true then (s.heardPos h.pos).readmitDie h.pos
      else if s.hst.lost.getLsbD h.pos = true then s else s.heardPos h.pos) := by
  refine congrArg Host.Outcome.next ((if_neg (by simp [hb, h8, hp])).trans ?_)
  rw [hr]

/-- A hello of any other die. -/
theorem execBridgeHelloReceive_plain (hr : h.rejoin = none) :
    exec (.bridgeHelloReceive h) s = .next (if s.hst.electing = true then helloNoted h (s.heardPos h.pos)
      else if ((!s.hst.present.getLsbD h.pos || s.hst.lost.getLsbD h.pos) &&
        allSlots.all fun i => (s.slot i).state = .empty) = true then helloNoted h (s.openElection.heardPos h.pos)
      else s) := by
  refine congrArg Host.Outcome.next ((if_neg (by simp [hb, h8, hp])).trans ?_)
  rw [hr]
  rfl

theorem execBridgeHelloReceive_elects (hr : h.rejoin = none) (he : s.hst.electing = false)
    (ho : s.hst.present.getLsbD h.pos = false ∨ s.hst.lost.getLsbD h.pos = true)
    (hs : (allSlots.all fun i => (s.slot i).state = .empty) = true) :
    exec (.bridgeHelloReceive h) s = .next (helloNoted h (s.openElection.heardPos h.pos)) := by
  rw [execBridgeHelloReceive_plain hb h8 hp hr, if_neg (ne_true_of_eq_false he), if_pos]
  rw [hs, Bool.and_true]
  simpa using ho

theorem execBridgeHelloReceive_ignored (hr : h.rejoin = none) (he : s.hst.electing = false)
    (ho : (s.hst.present.getLsbD h.pos = true ∧ s.hst.lost.getLsbD h.pos = false) ∨
      (allSlots.all fun i => (s.slot i).state = .empty) = false) :
    exec (.bridgeHelloReceive h) s = .next s := by
  rw [execBridgeHelloReceive_plain hb h8 hp hr, if_neg (ne_true_of_eq_false he), if_neg]
  rcases ho with ⟨h1, h2⟩ | h1 <;> simp only [*, Bool.and_false, Bool.not_true, Bool.or_false, Bool.false_and,
    Bool.false_eq_true, not_false_eq_true]

end

end

/-! ## The close of an election (R405) -/

/-- The hello of a die that agrees about the package. -/
def helloAgrees (s : State) (e : Nat × BitVec 64 × Nat × Nat) : Bool :=
  decide (e.2.2.1 = s.sys.pkgSize.toNat) && decide (e.2.2.2 = s.lcCode) && decide (e.1 < s.positions)

/-- The election's outcome: the dies that agree, their lead, and the group they make. -/
def elected (u : State) (good : List (Nat × BitVec 64 × Nat × Nat)) (all : List (Nat × BitVec 64))
    (lead : Nat × BitVec 64) : State :=
  { u with
    hst := { u.hst with
      group := if all.length = u.positions then .formed else .partialGroup
      leadPos := lead.1, leadSerial := lead.2, present := BitVec.ofNat 8 ((all.map fun e => 2 ^ e.1).sum), lost := 0
      hellos := good, elections := (u.hst.elections + 1) % 2 ^ 16, electing := false
      heardAt := good.foldl (fun (t : Tbl Nat) (e : Nat × BitVec 64 × Nat × Nat) => t.set 0 e.1 u.now) u.hst.heardAt }
    dom := { u.dom with compositeOk := false } }

theorem execElectionClose_open (h : s.hst.electing = false ∨
    (s.hst.hellos.length + 1 < s.positions ∧ s.sys.now < s.hst.electBy)) : exec .electionClose s = .next s :=
  congrArg _ (if_pos (by
    simpa using show s.hst.electing = false ∨ (s.hst.hellos.length + 1 < s.positions ∧ s.now < s.hst.electBy) from h))

theorem execElectionClose_closes {good : List (Nat × BitVec 64 × Nat × Nat)} {all : List (Nat × BitVec 64)}
    {lead : Nat × BitVec 64} (he : s.hst.electing = true)
    (hd : s.positions ≤ s.hst.hellos.length + 1 ∨ s.hst.electBy ≤ s.sys.now)
    (hg : s.hst.hellos.filter (helloAgrees s) = good)
    (ha : (s.pos, s.lc.serial) :: good.map (fun e => (e.1, e.2.1)) = all)
    (hl : all.foldl (fun (a b : Nat × BitVec 64) => if b.1 < a.1 then b else a) (s.pos, s.lc.serial) = lead)
    (hu : (s.hst.hellos.filter fun e => !helloAgrees s e).foldl
      (fun s e => s.record 0xA1 srcStoker [(1, 1), (1, 2 ^ e.1)]) s = u) :
    exec .electionClose s = .next ((elected u good all lead).record 0xA1 srcStoker
      [(1, 1), (1, (BitVec.ofNat 8 ((all.map fun e => 2 ^ e.1).sum)).toNat)]) := by
  subst hg ha hl hu
  refine congrArg _ (if_neg ?_)
  rw [he]
  simpa [or_iff_not_imp_left] using show s.positions ≤ s.hst.hellos.length + 1 ∨ s.hst.electBy ≤ s.now from hd

/-- An election that no other die answers. -/
theorem execElectionClose_alone (he : s.hst.electing = true) (hn : s.hst.hellos = []) (hd : s.hst.electBy ≤ s.sys.now) :
    exec .electionClose s = .next ((elected s [] [(s.pos, s.lc.serial)] (s.pos, s.lc.serial)).record 0xA1 srcStoker
      [(1, 1), (1, (BitVec.ofNat 8 ([(s.pos, s.lc.serial)].map fun e => 2 ^ e.1).sum).toNat)]) :=
  execElectionClose_closes he (.inr hd) (by rw [hn]; rfl) rfl (by simp) (by rw [hn]; rfl)

/-! ## The control class (R48, R55, R56, R60, R124, R257, R485) -/

/-- What is done with a transfer of a peer that was heard. -/
def brTaken (s : State) : BrCtl → State
  | .heartbeat _ => s
  | .demand h w => if s.isLead then { s with pwr := { s.pwr with demands := s.pwr.demands.set 0 h w } } else s
  | .confirm h i ok => s.takeConfirm h i ok
  | .statement x sites => s.takeStatement x sites.toNat
  | m => if brPos m = s.hst.leadPos then s.memberDoes m else s

/-- A transfer is the lead's word to its members. -/
def isWord : BrCtl → Bool
  | .heartbeat _ => false
  | .demand _ _ => false
  | .confirm _ _ _ => false
  | .statement _ _ => false
  | _ => true

theorem brTaken_word {msg : BrCtl} (h : isWord msg = true) :
    brTaken s msg = if brPos msg = s.hst.leadPos then s.memberDoes msg else s := by
  cases msg with
  | heartbeat | demand | confirm | statement => cases h
  | _ => rfl

theorem execBrCtlReceive_heard {msg : BrCtl} (hb : s.bridgeUp = true) (hp : s.peers.contains (brPos msg) = true)
    (ht : s.heardPos (brPos msg) = t) : exec (.brCtlReceive msg) s = .next (brTaken t msg) := by
  subst ht
  exact congrArg _ ((if_neg (by rw [hb, hp]; decide)).trans (by cases msg <;> rfl))

theorem execBrCtlReceive_unheard {msg : BrCtl} (h : s.bridgeUp = false ∨ s.peers.contains (brPos msg) = false) :
    exec (.brCtlReceive msg) s = .next s :=
  congrArg _ (if_pos (by simpa using h))

end

/-- Settles O44: each command where it acts and where it does not. -/
theorem bridgeControl : Obligations.BridgeControl := by
  refine ⟨
    fun t s hb hd ht he h5 => ?_, fun pos u s hp he hd hu => ⟨_, ?_, rfl⟩, fun pos s h => execBridgePeerLost_idle (.inl h),
    -- hellos
    fun h s => execBridgeHelloReceive_noPeer, fun h t s hb h8 hp hr he ht => ?_,
    fun h t s hb h8 hp hr he ho hs ht => ?_, fun h lead serial z s hb h8 hp hr hj => ?_,
    -- elections
    fun s h => execElectionClose_open (.inl h), fun s he hn hd => execElectionClose_open (.inr ⟨hn, hd⟩),
    fun s he hn hd => ⟨_, execElectionClose_alone he hn hd, ?_⟩,
    -- transfers
    fun msg s h => execBrCtlReceive_unheard (.inr h), fun h s hb hp => execBrCtlReceive_heard hb hp rfl,
    fun h w t s hb hp ht hl => (execBrCtlReceive_heard (msg := .demand h w) hb hp ht).trans (congrArg _ (if_pos hl)),
    fun h i ok s hb hp => execBrCtlReceive_heard hb hp rfl,
    -- heartbeats and lost dies
    fun s => execBridgeHeartbeatSend_idle, fun t u s hb hd ht he hu h5 => ?_, fun t u s hb hd ht he hu h5 => ?_,
    fun t s hb hd ht he h5 => ?_, fun pos s h => execBridgePeerLost_idle (.inr h),
    -- hellos that change nothing more
    fun h lead serial z s hb h8 hp hr hj => ?_, fun h s => execBridgeHelloReceive_ignored,
    fun good all lead u s => execElectionClose_closes, fun msg s h => execBrCtlReceive_unheard (.inl h),
    fun h w t s hb hp ht hl => (execBrCtlReceive_heard (msg := .demand h w) hb hp ht).trans (congrArg _ (if_neg (ne_true_of_eq_false hl))),
    fun x sites s hb hp => execBrCtlReceive_heard hb hp rfl,
    fun msg t s hb hp hw ht => (execBrCtlReceive_heard hb hp ht).trans (congrArg _ (brTaken_word ?_))⟩
  · rw [execBridgeHeartbeatSend_due hb hd ht (if_neg (ne_true_of_eq_false (ht ▸ he))), if_neg (by subst ht; exact Nat.not_lt.mpr h5)]
    rfl
  · subst hu
    exact execBridgePeerLost_silent hp he hd rfl
  · subst ht
    exact (execBridgeHelloReceive_plain hb h8 hp hr).trans (congrArg _ (if_pos he))
  · subst ht
    exact execBridgeHelloReceive_elects hb h8 hp hr he ho hs
  · exact (execBridgeHelloReceive_rejoin hb h8 hp hr).trans (congrArg _ (if_pos hj))
  · rw [record_hst]
    exact ⟨rfl, rfl, rfl, rfl, rfl⟩
  · rw [execBridgeHeartbeatSend_due hb hd ht ((if_pos he).trans hu), if_neg (Nat.not_lt.mpr h5)]
    rfl
  · rw [execBridgeHeartbeatSend_due hb hd ht ((if_pos he).trans hu), if_pos h5]
  · rw [execBridgeHeartbeatSend_due hb hd ht (if_neg (ne_true_of_eq_false (ht ▸ he))), if_pos (by subst ht; exact h5)]
  · exact (execBridgeHelloReceive_rejoin hb h8 hp hr).trans (congrArg _ (if_neg (ne_true_of_eq_false hj)))
  · cases msg <;> exact hw

end Sys2Proof.Proofs

/-! The telemetry registers, the throttle interval, suppressed and permanent records, `REC_CLEAR` and the rates of the
recorder (R426, R429, R435, R436, R439, R446, R448, R450, R452). -/

namespace Sys2Proof.Proofs
open Sys2Proof Sys2Proof.Machine

/-! ## The read of `TEL_S_QVAL` (R12, R429) -/

/-- Over a served path the page and the block decide. -/
theorem execTelSQvalRead_served {r : Req} {slice : Nat} {s : State} (hh : r.mgmt = true ∨ s.hostUp = true)
    (hm : r.mgmt = false ∨ s.mgmtServes (telPage slice + 0x18) = true) :
    exec (.telSQvalRead r slice) s =
      .next (if s.pageRead slice r && s.blockUp ⟨5, some 4, .cclk⟩ then
        (s.readQval r slice).2.emit (.regRead (s.readQval r slice).1)
      else (s.regBad r (telPage slice + 0x18) 64).emit (.regRead 0)) := by
  have h1 : (!r.mgmt && !s.hostUp) = false := by rcases hh with h | h <;> simp [h]
  have h2 : (r.mgmt && !s.mgmtServes (telPage slice + 0x18)) = false := by rcases hm with h | h <;> simp [h]
  exact congrArg _ ((if_neg (ne_true_of_eq_false h1)).trans (if_neg (ne_true_of_eq_false h2)))

theorem execTelSQvalRead_hostDown {r : Req} {slice : Nat} {s : State} (hm : r.mgmt = false) (hh : s.hostUp = false) :
    exec (.telSQvalRead r slice) s = .next (s.emit (.regRead (BitVec.allOnes 64))) :=
  congrArg _ (if_pos (by rw [hm, hh]; rfl))

theorem execTelSQvalRead_mgmtUnserved {r : Req} {slice : Nat} {s : State} (hm : r.mgmt = true)
    (hs : s.mgmtServes (telPage slice + 0x18) = false) : exec (.telSQvalRead r slice) s = .next s :=
  congrArg _ ((if_neg (by rw [hm]; simp)).trans (if_pos (by rw [hm, hs]; rfl)))

/-! ## The throttle interval (R435) -/

/-- The interval restarts, and each slice's ends. -/
def intervalEnded (s : State) : State :=
  ({ s with tel := { s.tel with throttled := false, intervalAt := s.now } } : State).forEach s.qm.slices.keys State.endInterval

theorem execThrottleInterval_due {s : State} (h : s.tel.intervalAt + 1000000 ≤ s.sys.now) :
    exec .throttleInterval s =
      .next (intervalEnded (if s.tel.throttled then (s.light 7 1).priv 0x301 1 else s)) :=
  congrArg _ (if_neg (show ¬ s.now < s.tel.intervalAt + ms from Nat.not_lt.mpr h))

theorem execThrottleInterval_throttled {s : State} (h : s.tel.intervalAt + 1000000 ≤ s.sys.now)
    (ht : s.tel.throttled = true) :
    exec .throttleInterval s = .next (intervalEnded ((s.light 7 1).priv 0x301 1)) :=
  (execThrottleInterval_due h).trans (by rw [if_pos ht])

theorem execThrottleInterval_unthrottled {s : State} (h : s.tel.intervalAt + 1000000 ≤ s.sys.now)
    (ht : s.tel.throttled = false) : exec .throttleInterval s = .next (intervalEnded s) :=
  (execThrottleInterval_due h).trans (by rw [if_neg (ne_true_of_eq_false ht)])

theorem execThrottleInterval_early {s : State} (h : s.sys.now < s.tel.intervalAt + 1000000) :
    exec .throttleInterval s = .next s :=
  congrArg _ (if_pos h)

/-! ## Suppressed and permanent records (R446, R448) -/

theorem execSuppressed_due {code : Nat} {s : State} (hd : (s.bucket code).drops ≠ 0)
    (ht : (s.bucket code).firstAt + 1000000000 ≤ s.sys.now) : exec (.suppressed code) s = .next (s.flushDrops code) := by
  have hn : (s.bucket code).firstAt + sec ≤ s.now := ht
  exact congrArg _ (if_pos (by simp [hd, hn]))

theorem execSuppressed_none {code : Nat} {s : State} (hd : (s.bucket code).drops = 0) :
    exec (.suppressed code) s = .next s :=
  congrArg _ (if_neg (by simp [hd]))

section
variable {ok : Bool} {x : Rec} {l : List Rec} {s : State} (hq : s.rcd.permQ = x :: l)
include hq

theorem execPermProgram_programs (hn : s.rcd.perm.length < 256) :
    exec (.permProgram ok) s = .next { s with rcd := { s.rcd with
      permQ := l, perm := s.rcd.perm ++ [if ok then some x else none] } } := by
  change execPermProgram ok s = _
  rw [execPermProgram, hq]
  exact congrArg _ (if_pos hn)

theorem execPermProgram_full (hn : 256 ≤ s.rcd.perm.length) :
    exec (.permProgram ok) s = .next { s with rcd := { s.rcd with permQ := [] } } := by
  change execPermProgram ok s = _
  rw [execPermProgram, hq]
  exact congrArg _ (if_neg (Nat.not_lt.mpr hn))

end

theorem execPermProgram_empty {ok : Bool} {s : State} (hq : s.rcd.permQ = []) : exec (.permProgram ok) s = .next s := by
  change execPermProgram ok s = _
  rw [execPermProgram, hq]

/-! ## `REC_CLEAR` (R450) -/

section
variable {m : Mgmt} {s : State} (h : s.hears m true = true)
include h

theorem execRecClear_records (hv : s.rcd.valid ≠ 0) :
    exec (.recClear m) s = .next ((({ s with rcd := { s.rcd with circ := {}, valid := 0 } } : State).record 0x01 srcStoker
      [(4, s.rcd.valid), (4, (s.rcd.nextSeq - BitVec.ofNat 32 s.rcd.valid).toNat), (4, (s.rcd.nextSeq - 1).toNat),
        (4, leafPrefix m)]).answer .ok) := by
  refine congrArg _ ((domMsg_hears h).trans ?_)
  simp only [if_neg hv]

theorem execRecClear_empty (hv : s.rcd.valid = 0) :
    exec (.recClear m) s = .next ((({ s with rcd := { s.rcd with circ := {}, valid := 0 } } : State).record 0x01 srcStoker
      [(4, 0), (4, 0), (4, 0), (4, leafPrefix m)]).answer .ok) := by
  refine congrArg _ ((domMsg_hears h).trans ?_)
  simp only [hv, if_true]

end

/-! ## The rates (R452) -/

section
variable {r : Req} {v : BitVec 32} {s t : State} (hs : s.served r 0x480008 = true) (hm : r.mgmt = true)
  (ht : s.dropHeld r = t)
include hs hm ht

theorem execRecRlWrite_sets {bs : Tbl Bucket} (hb : Tbl.mk (t.rcd.buckets.cells.map fun (e : Nat × Bucket) =>
      (e.1, { e.2.refill t.rcd.rate t.now with
        base := if (e.2.refill t.rcd.rate t.now).taken = 0 then 0 else t.now, returned := 0 })) = bs) :
    exec (.recRlWrite r v) s = .next { t with rcd := { t.rcd with
      rate := if bits v.toNat 7 0 = 0 then t.rcd.rate else bits v.toNat 7 0
      burst := if bits v.toNat 15 8 = 0 then t.rcd.burst else bits v.toNat 15 8
      buckets := bs.filter fun _ b => b ≠ {} } } := by
  subst hb
  exact next_regWriteMgmt_served hs hm ht rfl

/-- With no bucket in use there is none to refill. -/
theorem execRecRlWrite_noBuckets (hc : t.rcd.buckets.cells = []) :
    exec (.recRlWrite r v) s = .next { t with rcd := { t.rcd with
      rate := if bits v.toNat 7 0 = 0 then t.rcd.rate else bits v.toNat 7 0
      burst := if bits v.toNat 15 8 = 0 then t.rcd.burst else bits v.toNat 15 8
      buckets := {} } } :=
  execRecRlWrite_sets hs hm ht (bs := {}) (by rw [hc]; rfl)

end

/-- Settles O47: the registers act through the served write, and each event in its guard's branch. -/
theorem telemetryAndRecorder : Obligations.TelemetryAndRecorder := by
  refine ⟨fun r slice v t s hs ha ht => next_regWrite_served hs ha ht rfl,
    fun r slice v t s hs ha ht => next_regWrite_served hs ha ht rfl,
    fun r slice s hh hm ha => (execTelSQvalRead_served hh hm).trans (congrArg _ (if_pos ha)),
    fun r slice s hh hm ha => (execTelSQvalRead_served hh hm).trans (congrArg _ (if_neg (ne_true_of_eq_false ha))),
    fun s => execThrottleInterval_throttled, fun s => execThrottleInterval_unthrottled,
    fun code s => execSuppressed_due, fun code s => execSuppressed_none,
    fun ok x l s => execPermProgram_programs, fun ok x l s => execPermProgram_full, fun ok s => execPermProgram_empty,
    fun m s => execRecClear_records, fun m s => execRecClear_empty,
    fun r v t s hs hm ht h7 h15 hc => ?_, fun r v t s hs hm ht h7 h15 hc => ?_,
    fun r slice s => execTelSQvalRead_hostDown, fun r slice s => execTelSQvalRead_mgmtUnserved,
    fun s => execThrottleInterval_early, fun code s => next_of_not_due,
    fun r v bs t s hs hm ht hb => execRecRlWrite_sets hs hm ht hb⟩
  · rw [execRecRlWrite_noBuckets hs hm ht hc, if_neg h7, if_neg h15]
  · rw [execRecRlWrite_noBuckets hs hm ht hc, if_pos h7, if_pos h15]

end Sys2Proof.Proofs

/-! The power loop, budgets and shares, droop and heat, the answers of the power stages, and the power messages and registers
(R483 to R498, R505). -/

namespace Sys2Proof.Proofs
open Sys2Proof Sys2Proof.Machine

/-! ## Events that a guard passes over -/

section
variable {p q r w : Prop} [Decidable p] [Decidable q] [Decidable r] [Decidable w] {b : Bool} {now due : Nat} {s u : State}

/-- An event whose other reasons to be passed over do not hold acts once its time has come. -/
theorem next_of_ready (hb : b = false) (h : due ≤ now) : (.next (if b || decide (now < due) then s else u) : Res) = .next u := by
  rw [if_neg (by simp [hb, h])]

theorem next_of_passed (hb : b = true) : (.next (if b then s else u) : Res) = .next s := by
  rw [if_pos hb]

theorem next_of_acting (hb : b = false) : (.next (if b then s else u) : Res) = .next u := by
  rw [if_neg (ne_true_of_eq_false hb)]

theorem next_of_either (h : p ∨ q) : (.next (if decide p || decide q then s else u) : Res) = .next s :=
  next_of_passed (by simpa using h)

theorem next_of_anyOfThree (h : p ∨ q ∨ r) :
    (.next (if decide p || decide q || decide r then s else u) : Res) = .next s :=
  next_of_passed (by simpa [or_assoc] using h)

theorem next_of_anyOfFour (h : p ∨ q ∨ r ∨ w) :
    (.next (if decide p || decide q || decide r || decide w then s else u) : Res) = .next s :=
  next_of_passed (by simpa [or_assoc] using h)

/-- An event needs a Boolean condition of the state, and is passed over for one more reason. -/
theorem next_of_notOr (h : b = false ∨ p) : (.next (if !b || decide p then s else u) : Res) = .next s :=
  next_of_passed (by simpa using h)

end

/-- From release step 2 on. -/
theorem not_below_step_two {s : State} (h : 2 ≤ s.rst.step) : decide (s.rst.step < 2) = false :=
  decide_eq_false (Nat.not_lt.mpr h)

/-! ## Messages that are heard -/

section
variable {m : Mgmt} {role : Bool} {f : State → State} {s u : State}

theorem next_domMsg_hears (h : s.hears m role = true) (hu : f s = u) : (.next (s.domMsg m role f) : Res) = .next u := by
  rw [domMsg_hears h, hu]

theorem next_leadMsg_leads (h : s.leads m = true) (hu : f s = u) : (.next (s.leadMsg m f) : Res) = .next u := by
  rw [leadMsg_leads h, hu]

end

/-! ## The interval (R487 to R494) -/

/-- The end of an interval that ran throttled is noted before its figures. -/
def throttleNoted (s : State) : State := if s.runsThrottled then s.noteThrottle true else s

/-- The figures of an interval: the power `p` measured, whether it ran throttled, and the run of intervals at 90 % of the share
or below. -/
def figuresNoted (p : Nat) (thr : Bool) (w : State) : State :=
  { w with pwr := { w.pwr with
    intervalAt := w.now, pW := p, throttled := thr
    lowRun := if 10 * p ≤ 90 * w.pwr.shareW then min 10 (w.pwr.lowRun + 1) else 0 } }

/-- Demand, pacing over the interval's `ns`, floors and holds, in this order. -/
def intervalJudged (p ns : Nat) (thr : Bool) (u : State) : State := ((u.noteDemand thr p).notePacing ns).applyFloors.endHolds

/-- What the loop makes of the points once the interval is judged. -/
def pointsTaken (x : State) : State :=
  if x.inService && !x.pwr.testHold then x.loopStep.applyFloors else x.applyPoints

/-- A throttle that runs at the points taken is noted, without counting the interval. -/
def pointsNoted (y : State) : State := if y.runsThrottled then y.noteThrottle false else y

/-- An interval's end in its parts. -/
theorem execDamperInterval_eq (p : Nat) (s : State) : execDamperInterval p s =
    .next (if s.rst.step < 2 || s.now < s.pwr.intervalAt + ms then s
      else pointsNoted (pointsTaken (intervalJudged (min 65535 p) (s.now - s.pwr.intervalAt) s.runsThrottled
        (figuresNoted (min 65535 p) s.runsThrottled (throttleNoted s))))) := by
  unfold execDamperInterval pointsNoted pointsTaken intervalJudged figuresNoted throttleNoted
  with_reducible rfl

section
variable {p : Nat} {w u x s : State} (h2 : 2 ≤ s.rst.step) (hd : s.pwr.intervalAt + 1000000 ≤ s.sys.now)
  (hw : throttleNoted s = w) (hu : figuresNoted (min 65535 p) s.runsThrottled w = u)
  (hx : intervalJudged (min 65535 p) (s.now - s.pwr.intervalAt) s.runsThrottled u = x)
include h2 hd hw hu hx

theorem execDamperInterval_due :
    exec (.damperInterval p) s = .next (pointsNoted (pointsTaken x)) := by
  change execDamperInterval p s = _
  rw [execDamperInterval_eq, hw, hu, hx]
  exact next_of_ready (not_below_step_two h2) hd

theorem execDamperInterval_unthrottled (hy : (pointsTaken x).runsThrottled = false) :
    exec (.damperInterval p) s = .next (pointsTaken x) :=
  (execDamperInterval_due h2 hd hw hu hx).trans (next_of_acting hy)

theorem execDamperInterval_throttled {y : State} (hxy : pointsTaken x = y) (hy : y.runsThrottled = true) :
    exec (.damperInterval p) s = .next (y.noteThrottle false) := by
  subst hxy
  exact (execDamperInterval_due h2 hd hw hu hx).trans (next_of_passed hy)

end

/-! ## Acknowledgements (R483, R484) -/

theorem execOppVoltageAck_raising {p : Nat} {s : State} (h : s.pwr.raising = some p) :
    exec .oppVoltageAck s = .next { s with pwr := { s.pwr with opp := p, raising := none } } := by
  change execOppVoltageAck s = _
  rw [execOppVoltageAck, h]

theorem execOppVoltageAck_none {s : State} (h : s.pwr.raising = none) : exec .oppVoltageAck s = .next s := by
  change execOppVoltageAck s = _
  rw [execOppVoltageAck, h]

theorem execSiteLevelTimeout_late {site : Nat} {s : State}
    (h : (s.pwr.siteWait.any fun e => e.1 = site && e.2 ≤ s.now) = true) :
    exec (.siteLevelTimeout site) s =
      .next ((({ s with pwr := { s.pwr with siteWait := s.pwr.siteWait.filter fun e => e.1 ≠ site } } : State).setSiteLevel
        site 15).record 0xB1 srcDamper [(1, site), (1, 0xFF)]) :=
  next_of_acting (by rw [h]; rfl)

theorem execSiteLevelTimeout_none {site : Nat} {s : State}
    (h : (s.pwr.siteWait.any fun e => e.1 = site && e.2 ≤ s.now) = false) : exec (.siteLevelTimeout site) s = .next s :=
  next_of_passed (by rw [h]; rfl)

/-! ## Budgets and shares (R485, R486) -/

section
variable {s t : State} (h2 : 2 ≤ s.rst.step) (hb : s.boot.phase = 4) (hg : s.hst.group ≠ .electing)
  (hd : s.pwr.reallocAt + 10000000 ≤ s.sys.now) (ht : { s with pwr := { s.pwr with reallocAt := s.now } } = t)
include h2 hb hg hd ht

/-- What is done every 10 ms: the lead divides its figure, and a member reports its demand. -/
theorem execBudgetReallocate_due : exec .budgetReallocate s = .next (if t.isLead then
      (let u := t.shares.foldl (fun s e => if e.1 = s.pos then s else s.toPeer e.1 bkShare [e.2]) t
       { u with pwr := { u.pwr with
         pkgW := u.pkgFigure, shareW := ((t.shares.head?).map Prod.snd).getD 0, shareAt := u.now } })
    else ({ t with pwr := { t.pwr with pkgW := 0 } } : State).toPeer t.hst.leadPos bkDemand [t.pos, t.pwr.demandW]) := by
  subst ht
  exact next_of_ready (by rw [not_below_step_two h2]; simp [hb, hg]) hd

theorem execBudgetReallocate_lead {u : State} (hl : t.isLead = true)
    (hu : t.shares.foldl (fun s e => if e.1 = s.pos then s else s.toPeer e.1 bkShare [e.2]) t = u) :
    exec .budgetReallocate s = .next { u with pwr := { u.pwr with
      pkgW := u.pkgFigure, shareW := ((t.shares.head?).map Prod.snd).getD 0, shareAt := u.now } } := by
  subst hu
  exact (execBudgetReallocate_due h2 hb hg hd ht).trans (next_of_passed hl)

theorem execBudgetReallocate_member (hl : t.isLead = false) : exec .budgetReallocate s =
    .next (({ t with pwr := { t.pwr with pkgW := 0 } } : State).toPeer t.hst.leadPos bkDemand [t.pos, t.pwr.demandW]) :=
  (execBudgetReallocate_due h2 hb hg hd ht).trans (next_of_acting hl)

end

section
variable {w : Nat} {s : State}

theorem execShareReceive_member (h2 : 2 ≤ s.rst.step) (hg : s.hst.group ≠ .electing) (hl : s.isLead = false) :
    exec (.shareReceive w) s = .next { s with pwr := { s.pwr with shareW := w % 65536, shareAt := s.sys.now } } :=
  next_of_acting (by rw [not_below_step_two h2]; simp [hg, hl])

theorem execShareReceive_passed (h : s.rst.step < 2 ∨ s.hst.group = .electing ∨ s.isLead = true) :
    exec (.shareReceive w) s = .next s :=
  next_of_passed (by simpa [or_assoc] using h)

theorem execShareReceive_lead (hl : s.isLead = true) : exec (.shareReceive w) s = .next s :=
  execShareReceive_passed (.inr (.inr hl))

end

section
variable {s : State}

theorem execShareTimeout_due (h2 : 2 ≤ s.rst.step) (hl : s.isLead = false) (hd : s.pwr.shareAt + 50000000 ≤ s.sys.now) :
    exec .shareTimeout s = .next { s with pwr := { s.pwr with shareW := s.pwr.floorW } } :=
  next_of_ready (by rw [not_below_step_two h2]; simp [hl]) hd

theorem execShareTimeout_passed (h : s.rst.step < 2 ∨ s.isLead = true ∨ s.now < s.pwr.shareAt + 50000000) :
    exec .shareTimeout s = .next s := by
  have ht : decide (s.now < s.pwr.shareAt + 50 * ms) = decide (s.now < s.pwr.shareAt + 50000000) := rfl
  exact next_of_passed (by rw [ht]; simpa [or_assoc] using h)

theorem execPwrBudgetLapse_due (h2 : 2 ≤ s.rst.step) (h0 : s.pwr.budgetEnd ≠ 0) (hd : s.pwr.budgetEnd ≤ s.sys.now) :
    exec .pwrBudgetLapse s = .next (({ s with pwr := { s.pwr with budget := s.pwr.defaultW, budgetEnd := 0 } } : State).record
      0xB1 srcStoker [(1, drLapse), (1, 0)]) :=
  next_of_ready (by rw [not_below_step_two h2]; simp [h0]) hd

end

/-! ## Messages (R485 to R487) -/

section
variable {m : Mgmt} {w lease : Nat} {s : State} (h : s.leads m = true)
include h

theorem execPwrBudget_sets {t : State} (hw : w < 65536) (hl : lease ≤ 3600)
    (ht : { s with pwr := { s.pwr with
      budget := w, budgetEnd := if lease = 0 then 0 else s.now + lease * 1000000000 } } = t) :
    exec (.pwrBudget m w lease) s = .next (t.answer .ok [t.pkgLimit]) := by
  subst ht
  exact next_leadMsg_leads h (if_neg (by simp [hw, hl]))

theorem execPwrBudget_bad (hb : 65536 ≤ w ∨ 3600 < lease) : exec (.pwrBudget m w lease) s = .next (s.answer .badParam) :=
  next_leadMsg_leads h (if_pos (by simpa using hb))

end

section
variable {m : Mgmt} {limit : Nat} {clearCeil : Bool} {s : State}

theorem execPwrQuery_hears (h : s.hears m false = true) :
    exec (.pwrQuery m) s = .next (s.answer .ok [s.pwrStatus, s.pwrBudgetStat]) :=
  congrArg _ (domMsg_hears h)

theorem execPwrLimit_sets (h : s.hears m true = true) (hl : limit < 65536) :
    exec (.pwrLimit m limit clearCeil) s = .next (({ s with pwr := { s.pwr with
      pkgLimit := limit, ceil := if clearCeil then 0 else s.pwr.ceil } } : State).answer .ok) :=
  next_domMsg_hears h (if_neg (Nat.not_le.mpr hl))

theorem execPwrLimit_bad (h : s.hears m true = true) (hl : 65536 ≤ limit) :
    exec (.pwrLimit m limit clearCeil) s = .next (s.answer .badParam) :=
  next_domMsg_hears h (if_pos hl)

end

section
variable {s : State}

theorem execPwrReport_due (h2 : 2 ≤ s.rst.step) (hd : s.pwr.reportAt + 100000000 ≤ s.sys.now)
    (hl : (allSlots.any fun i => (s.slot i).state = .live) = true) :
    exec .pwrReport s = .next (({ s with pwr := { s.pwr with
      reportAt := s.now, reportThr := s.tel.light.get 0 7 } } : State).emit
        (.pwrReport [s.pwr.pW / 10, s.pwr.demandW, s.pwr.opp, (s.tel.light.get 0 7 - s.pwr.reportThr).toNat, s.pacing])) := by
  have ht : decide (s.now < s.pwr.reportAt + 100 * ms) = false := decide_eq_false (Nat.not_lt.mpr hd)
  exact next_of_acting (by rw [not_below_step_two h2, ht, hl]; rfl)

theorem execPwrReport_noneLive (hl : (allSlots.any fun i => (s.slot i).state = .live) = false) :
    exec .pwrReport s = .next s :=
  next_of_passed (by rw [hl]; simp)

theorem execPwrReport_passed (h : s.rst.step < 2 ∨ s.now < s.pwr.reportAt + 100000000) : exec .pwrReport s = .next s := by
  have ht : (decide (s.rst.step < 2) || decide (s.now < s.pwr.reportAt + 100 * ms)) = true := by
    rw [Bool.or_eq_true, decide_eq_true_eq, decide_eq_true_eq]
    exact h
  exact next_of_passed (by rw [ht]; rfl)

end

/-! ## `PWR_CTL` (R491, R498) -/

theorem execPwrCtlWrite_served {r : Req} {v : BitVec 32} {s t u : State} (hs : s.served r 0x4B0010 = true)
    (hm : r.mgmt = true) (ht : s.dropHeld r = t)
    (hu : { t with pwr := { t.pwr with
      lock := t.pwr.lock || v.getLsbD 0
      recoveryOpp := if t.pwr.lock then t.pwr.recoveryOpp else bits v.toNat 3 1
      testHold := if v.getLsbD 4 && !(allSlots.all fun i => (t.slot i).state = .empty) then t.pwr.testHold else v.getLsbD 4
      testOpp := bits v.toNat 7 5, testLevel := bits v.toNat 11 8 } } = u) :
    exec (.pwrCtlWrite r v) s = .next (if u.pwr.testHold && u.inService then u.applyPoints else u) := by
  subst hu
  exact next_regWriteMgmt_served hs hm ht rfl

/-- Settles O49: the loop, the shares and the messages, each in the branch that its guard leaves. -/
theorem powerLoopAndMessages : Obligations.PowerLoopAndMessages := by
  refine ⟨fun p w u x s => execDamperInterval_unthrottled,
    fun p w u x y s h2 hd hw hu hx hxy hy => execDamperInterval_throttled h2 hd hw hu hx hxy hy,
    fun p s => execOppVoltageAck_raising, fun s => execOppVoltageAck_none,
    fun site s => execSiteLevelTimeout_late, fun site s => execSiteLevelTimeout_none,
    fun t u s h2 hb hg hd ht hl hu => execBudgetReallocate_lead h2 hb hg hd ht hl hu, fun t s => execBudgetReallocate_member,
    fun w s => execShareReceive_member, fun w s => execShareReceive_lead, fun s => execShareTimeout_due,
    fun m w lease t s h hw hl ht => execPwrBudget_sets h hw hl ht, fun m w lease s => execPwrBudget_bad,
    fun s => execPwrBudgetLapse_due, fun m s => execPwrQuery_hears, fun m limit clearCeil s => execPwrLimit_sets,
    fun m limit clearCeil s => execPwrLimit_bad, fun s => execPwrReport_due, fun s => execPwrReport_noneLive,
    fun r v u t s => execPwrCtlWrite_served⟩

/-! ## Droop (R493) -/

section
variable {src : Nat} {s : State}

theorem execDroopTrip_hub (hp : s.sys.mainPower = true) : exec (.droopTrip 8) s =
    .next ((({ s with pwr := { s.pwr with
      halved := true, hubHold := 100, hubHoldOpp := min 7 (s.pwr.opp + 1) } } : State).record 0xB1 srcDamper
        [(1, 8), (1, 1)]).noteThrottle true) :=
  next_of_acting (by rw [hp]; rfl)

theorem execDroopTrip_site {t : State} (hp : s.sys.mainPower = true) (h8 : src < 8)
    (ht : s.requestLevel src (s.siteLevel src + 4) = t) : exec (.droopTrip src) s =
    .next ((({ t with pwr := { t.pwr with siteHold := t.pwr.siteHold.set 0 src 100 } } : State).record 0xB1 srcDamper
      [(1, src), (1, 4)]).noteThrottle true) := by
  subst ht
  have h9 : (!s.sys.mainPower || decide (9 ≤ src)) = false := by simp [hp]; omega
  exact (next_of_acting h9).trans (congrArg _ (if_neg h8.ne))

theorem execDroopTrip_passed (h : s.sys.mainPower = false ∨ 9 ≤ src) : exec (.droopTrip src) s = .next s :=
  next_of_notOr h

end

/-! ## Heat (R494, R495) -/

section
variable {hottest : Nat} {s : State} (hp : s.sys.mainPower = true)
include hp

theorem execThermalWarn_reads (h : thermCode s.pwr.therm.1 ≤ hottest) :
    exec (.thermalWarn hottest) s = .next (s.takeReading hottest).tripNow :=
  next_of_ready (by rw [hp]; rfl) h

theorem execThermalTrip_reads (h : thermCode s.pwr.therm.2.1 ≤ hottest) :
    exec (.thermalTrip hottest) s = .next (s.takeReading hottest).tripNow :=
  next_of_ready (by rw [hp]; rfl) h

theorem execThermalCrit_reads (h : thermCode s.pwr.therm.2.2 ≤ hottest) :
    exec (.thermalCrit hottest) s = .next ((s.takeReading hottest).tripNow.beginReset .thermal .sysrst) :=
  next_of_ready (by rw [hp]; rfl) h

theorem execThermalClear_reads (h : hottest < thermCode s.pwr.therm.1) : exec (.thermalClear hottest) s =
    .next { s.takeReading hottest with pwr := { (s.takeReading hottest).pwr with thermTrip := false } } :=
  next_of_acting (by simp [hp, h])

end

/-! ## The power stages (R496) -/

/-- Stage `k` has answered its command `c`: that was sent for, and it is heard now and stale no longer. -/
def stageHeard (k c : Nat) (s : State) : State :=
  { s.emit (.pmbus k c) with pwr := { s.pwr with
    stageAt := s.pwr.stageAt.set 0 k s.sys.now, stale := s.pwr.stale &&& ~~~((1 : BitVec 16) <<< k) } }

section
variable {k c v stage : Nat} {s : State}

theorem execPmbusPoll_early {l : List (Nat × Nat × Nat)} (h : s.rst.step < 2) : exec (.pmbusPoll l) s = .next s :=
  congrArg _ (if_pos h)

theorem execPmbusPoll_none (h2 : 2 ≤ s.rst.step) : exec (.pmbusPoll []) s = .next s :=
  congrArg _ (if_neg (Nat.not_lt.mpr h2))

/-- One answer is taken only of a stage of the map. -/
theorem execPmbusPoll_one (h2 : 2 ≤ s.rst.step) : exec (.pmbusPoll [(k, c, v)]) s =
    .next (if s.pwr.stages.length ≤ k then s
      else if s.isInput k && decide (c = pmReadVin) then (stageHeard k c s).takeVin (linear11 v) else stageHeard k c s) :=
  congrArg _ (if_neg (Nat.not_lt.mpr h2))

theorem execPmbusPoll_unknown (h2 : 2 ≤ s.rst.step) (hk : s.pwr.stages.length ≤ k) :
    exec (.pmbusPoll [(k, c, v)]) s = .next s :=
  (execPmbusPoll_one h2).trans (congrArg _ (if_pos hk))

theorem execPmbusPoll_heard (h2 : 2 ≤ s.rst.step) (hk : k < s.pwr.stages.length)
    (hc : (s.isInput k && decide (c = pmReadVin)) = false) :
    exec (.pmbusPoll [(k, c, v)]) s = .next (stageHeard k c s) :=
  (execPmbusPoll_one h2).trans (congrArg _ ((if_neg (Nat.not_le.mpr hk)).trans (if_neg (ne_true_of_eq_false hc))))

theorem execPmbusPoll_vin (h2 : 2 ≤ s.rst.step) (hk : k < s.pwr.stages.length) (hi : s.isInput k = true) :
    exec (.pmbusPoll [(k, pmReadVin, v)]) s = .next ((stageHeard k pmReadVin s).takeVin (linear11 v)) :=
  (execPmbusPoll_one h2).trans (congrArg _ ((if_neg (Nat.not_le.mpr hk)).trans (if_pos (by rw [hi]; rfl))))

theorem execPmbusStageTimeout_due (h2 : 2 ≤ s.rst.step) (hk : stage < s.pwr.stages.length)
    (hd : s.pwr.stageAt.get 0 stage + 10000000 ≤ s.sys.now) : exec (.pmbusStageTimeout stage) s =
    .next ({ s with pwr := { s.pwr with stale := s.pwr.stale ||| ((1 : BitVec 16) <<< stage) } } : State).applyFloors :=
  next_of_ready (by rw [not_below_step_two h2]; simp [hk]) hd

theorem execPmbusStageTimeout_passed (h : s.rst.step < 2 ∨ s.pwr.stages.length ≤ stage ∨
    s.now < s.pwr.stageAt.get 0 stage + 10000000) : exec (.pmbusStageTimeout stage) s = .next s :=
  next_of_anyOfThree h

end

section
variable {t0 : Nat} {s : State}

theorem execVinFault_due (hb : s.pwr.vinBadSince = some t0) (hd : t0 + 10000000 ≤ s.sys.now)
    (hf : s.pwr.vinFault = false) : exec .vinFault s =
    .next (({ s with pwr := { s.pwr with vinFault := true } } : State).applyFloors.record 0xB1 srcDamper
      [(1, drVin), (1, 5)]) := by
  have ht : decide (t0 + 10 * ms ≤ s.now) = true := decide_eq_true hd
  change execVinFault s = _
  rw [execVinFault, hb]
  exact next_of_acting (by dsimp only; rw [ht, hf]; rfl)

theorem execVinFault_inRange (hb : s.pwr.vinBadSince = none) : exec .vinFault s = .next s := by
  change execVinFault s = _
  rw [execVinFault, hb]
  exact next_of_passed rfl

theorem execVinFault_raised (hf : s.pwr.vinFault = true) : exec .vinFault s = .next s :=
  next_of_passed (by rw [hf, Bool.or_true])

theorem execVinFault_early (hb : s.pwr.vinBadSince = some t0) (hd : s.now < t0 + 10000000) : exec .vinFault s = .next s := by
  have ht : decide (t0 + 10 * ms ≤ s.now) = false := decide_eq_false (Nat.not_le.mpr hd)
  change execVinFault s = _
  rw [execVinFault, hb]
  exact next_of_passed (by dsimp only; rw [ht]; rfl)

end

/-! ## Training slots (R505) -/

section
variable {s : State}

theorem execTrainingSlotWrite_due (h2 : 2 ≤ s.rst.step) (hb : s.boot.trainDirty = true)
    (hd : s.boot.trainAt = 0 ∨ s.boot.trainAt + 10000000000 ≤ s.now + 1) : exec .trainingSlotWrite s =
    .next (({ s with boot := { s.boot with
      trainSlot := 1 - s.boot.trainSlot, trainSeq := s.boot.trainSeq + 1, trainAt := s.sys.now + 1
      trainDirty := false } } : State).emit
        (.flashWrite (1 - s.boot.trainSlot) (s.boot.trainSeq + 1) s.lc.serial
          (s.lnk.links.cells.filterMap fun e => e.2.saved.map fun r => (e.1, r)))) := by
  have ht : (decide (s.boot.trainAt ≠ 0) && decide (s.now + 1 < s.boot.trainAt + 10 * sec)) = false := by
    rw [Bool.and_eq_false_iff, decide_eq_false_iff_not, decide_eq_false_iff_not, not_not]
    exact hd.imp_right Nat.not_lt.mpr
  exact next_of_acting (by rw [not_below_step_two h2, hb, ht]; rfl)

theorem execTrainingSlotWrite_clean (hb : s.boot.trainDirty = false) : exec .trainingSlotWrite s = .next s :=
  next_of_passed (by rw [hb]; simp)

theorem execTrainingSlotWrite_passed (h : s.rst.step < 2 ∨ s.boot.trainAt ≠ 0 ∧ s.now + 1 < s.boot.trainAt + 10000000000) :
    exec .trainingSlotWrite s = .next s := by
  rcases h with h | ⟨h0, hd⟩
  · exact next_of_passed (by simp [h])
  · have ht : decide (s.now + 1 < s.boot.trainAt + 10 * sec) = true := decide_eq_true hd
    exact next_of_passed (by rw [ht, decide_eq_true h0]; simp)

end

/-- Settles O50: what each event of the power supply does when it is due, and that it is passed over when it is not. -/
theorem powerFaults : Obligations.PowerFaults := by
  refine ⟨fun s => execDroopTrip_hub, fun src t s => execDroopTrip_site, fun src s h => execDroopTrip_passed (.inr h),
    fun s => rfl, fun hottest s => execThermalWarn_reads, fun hottest s => execThermalTrip_reads,
    fun hottest s => execThermalCrit_reads, fun hottest s => execThermalClear_reads,
    fun s => execPmbusPoll_none, fun k c v s => execPmbusPoll_heard, fun t0 s => execVinFault_due,
    fun s => execVinFault_inRange, fun stage s => execPmbusStageTimeout_due,
    fun stage s h => execPmbusStageTimeout_passed (.inr (.inl h)), fun s => execTrainingSlotWrite_due,
    fun s => execTrainingSlotWrite_clean, fun p s => next_of_either, fun s => next_of_anyOfFour,
    fun w s => execShareReceive_passed, fun s => execShareTimeout_passed, fun s => next_of_anyOfThree, fun s => execPwrReport_passed,
    fun src s h => execDroopTrip_passed (.inl h), fun hottest s => next_of_notOr, fun hottest s => next_of_notOr,
    fun hottest s => next_of_notOr, fun hottest s => next_of_notOr, fun l s => execPmbusPoll_early,
    fun k c v s => execPmbusPoll_unknown, fun k v s => execPmbusPoll_vin, fun s => execVinFault_raised,
    fun t0 s => execVinFault_early,
    fun stage s h => execPmbusStageTimeout_passed (h.imp_right .inr), fun s => execTrainingSlotWrite_passed⟩

end Sys2Proof.Proofs
